-- ==== Sys2Proof/Word.lean ====
section
/-!
DEFINITION. The word types of the model and their plainest arithmetic.

A register, an instruction, a memory word is a bit vector, because the manual treats it as bits.
An address, a count, an index is a natural number.
`Tab` is the one form in which indexed state is held: a list of key and value pairs.
-/

namespace Sys2Proof

/-- A byte of memory. -/
abbrev Byte := BitVec 8
/-- A register or an accumulator code of 32 bits. -/
abbrev W32 := BitVec 32
/-- A tile instruction, a memory word, a 64-bit count. -/
abbrev W64 := BitVec 64

/-- A sparse table: key and value pairs. `Sys2Proof.Machine.Tab` reads and writes it in one canonical form. -/
abbrev Tab (α : Type) := List (Nat × α)

/-- A sparse byte memory, the same form as `Tab Byte`. -/
abbrev Mem := List (Nat × Byte)

end Sys2Proof
end

