-- ==== Sys2Proof/Config.lean ====
section
/-!
DEFINITION. What one part fixes and what the specification leaves open.

A constant with a body is a fuse or a choice of this model, named in the assumption log.
A constant without a body is a free value: nothing in Lean can evaluate it, so a theorem about the model
holds for every value it may have.
-/

namespace Sys2Proof.Config

/-- The physical cores that the test fuses make spares (R12). DESIGN CHOICE, log 4. -/
def spareCores : List Nat := [35, 65, 66, 67, 68, 69, 70, 71]

/-- GLB_SERIAL as fused. DESIGN CHOICE, log 4. -/
def serial : W64 := 0x0000000100000001#64

/-- CORE_CLK.FMAX_N as fused, for every core. DESIGN CHOICE, log 4. -/
def fmaxN : Nat := 24

/-- CORE_SPM_SPARES as fused, for every core (R202). DESIGN CHOICE, log 4. -/
def spmSpares : W32 := 0x10100480#32

/-- Spare rows that ledge bank `32 * die + bank` has left for rows with corrected errors (R208 names them, no rule says how many).
Free, log 51. -/
opaque ledgeRowSpares : Nat → Nat

/-- Corrected errors that make a ledge row a repair candidate (R208 names the candidate, no rule gives the threshold). Free,
log 51. -/
opaque ledgeRepairThr : Nat

/-- A free value for use number `n` of the free-value counter (log 7). -/
opaque freeBits (w : Nat) : Nat → BitVec w

/-- The belay-set word that debug index `i` shows, as an index into the drains in ADRAIN order (R109 gives no
layout of the belay set). Free, log 8. -/
opaque belayWord : Nat → Nat

/-- The NaN that a binary32 addition of the atomic units returns (R105 names the operation, not the NaN).
Free, log 9. -/
opaque nanResult : W32 → W32 → W32

/-- SHA-256 of a byte string (R372, R394, R434, R438). Free, log 10. -/
opaque sha256 : List Byte → List Byte

/-- What the programs of a layer for one logical core may depend on: the descriptor, the bound values, the activation and the output
width in force, whether it is the predictor's pass (R176), the logical core, its core tiles in order (item, then first and number
of rows, N-blocks and K-blocks), the blocks that prediction skips or audits, and the ledge address of a staged tile. -/
structure ProgCtx where
  desc : List Byte
  bounds : List W32
  abits : Nat
  obits : Nat
  predictor : Bool
  core : Nat
  tiles : List (List Nat)
  plan : List (Nat × Bool)
  staged : Option Nat

/-- The programs into which a command processor's firmware expands a core's share (R21, R238): the specification gives no program
text. What it does give of their order and fields is tested (Machine/Program.lean). Free, log 27. -/
opaque layerPrograms : ProgCtx → List (List W64)

/-- The AM offset, in 16-byte units, of mask record `n` of a core's share (R251 names the record, not its place). Free, log 27. -/
opaque maskPlace (ctx : ProgCtx) (n : Nat) : Nat

/-- Which bit of PM, counted from bit 0 of offset 0 and modulo PM's bits, the predictor comparator of a core writes for a row and
block (R176 says only that the skip map is in PM). Free, log 27. -/
opaque skipMapBit (core row block : Nat) : Nat

/-- What the SPI flash holds when the part is made (R435): images by stage * 2 + slot, the identity certificate at 8. Free,
log 30. -/
opaque flashImage : Nat → List Byte

/-- The SHA-256 of the vendor key that a key slot holds in OTP (R433). Free, log 30. -/
opaque keyHash : Nat → List Byte

/-- RSASSA-PSS verification with SHA-256 (R433): modulus, exponent, message, signature. Free, log 10. -/
opaque rsaVerify (modulus : List Byte) (exponent : Nat) (message signature : List Byte) : Bool

/-- A revocation record for a slot carries a valid signature of one of the slots listed (R436 gives no layout of the
record). Free, log 30. -/
opaque revocationOk (record : List Byte) (slot : Nat) (usable : List Nat) : Bool

/-- The attestation certificate of the n-th attestation key pair (R431). Free, log 30. -/
opaque attestCert : Nat → List Byte

/-- An RSASSA-PSS signature of a message by the n-th attestation key, or by the identity key (n = 0). Free, log 10. -/
opaque sign (n : Nat) (message : List Byte) : List Byte

/-- Byte i of the 32 bytes of configuration fuse words in an attestation report (R438), of spare map, key-slot state and SVN
floors. Their layout is not given. Free, log 30. -/
opaque fuseByte (i spareMap keySlots svn : Nat) : Byte

/-- A certificate chains to the vendor CA (R439). Free, log 10. -/
opaque certChains : List Byte → Bool

/-- The serial number that a certificate names. Free, log 10. -/
opaque certSerial : List Byte → W64

/-- A signature of a message verifies under the key of a certificate. Free, log 10. -/
opaque certVerify (cert message signature : List Byte) : Bool

/-- The routing mode that this device gives in its CONFIG when it is the root (R355 names discovery as what sets the mode and
gives it no source). Free, log 33. -/
opaque routeMode : Bool

end Sys2Proof.Config
end

