-- ==== Sys2Proof/Syntax.lean ====
section
/-!
DEFINITION. The commands of the block: one constructor of `Instr` per row of spec/opcode_table.json, with the row's
operands, and the plain types those operands have.

Operand names: `c` a physical core, `a` the agent of a register access, `q` a queue, `p` a fabric port,
`i` the position of a waiting item in its list (0 the oldest), `v` a written value.
An operand whose value the specification leaves to the world outside the block (a drive's status, a sensor
reading, which frame arrives) is the command's own.
-/

namespace Sys2Proof

/-- The agents that reach BAR0 registers (R453). `cp n` is command processor n. -/
inductive Agent where
  | mp
  | cp (n : Nat)
  | host
  | usb
  | bmc
  deriving DecidableEq, Repr

/-- Where a Plardo command came from: a queue, or a private pair (R287, R289). -/
inductive Src where
  | queue (q : Nat)
  | usb
  | bmc
  deriving DecidableEq, Repr

/-- What a register write brings: the value, and the accesses of other agents that reach the register in the same NCLK cycle
(R8): a value where one writes, none where it reads. -/
structure RegWrite where
  value : W32
  rivals : List (Agent × Option W32)
  deriving DecidableEq, Repr

/-- The two tagged scratchpads (R182). -/
inductive SpmMem where
  | am
  | pm
  deriving DecidableEq, Repr

/-- The tag kinds of an access (R191). -/
inductive TagKind where
  | none
  | produce
  | consume
  | peek
  deriving DecidableEq, Repr

/-- One access of a scratchpad client (R184, R185): client code 0 to 4, a byte offset, the bytes written, or the
length read. -/
structure SpmAcc where
  mem : SpmMem
  client : Nat
  write : Bool
  off : Nat
  len : Nat
  data : List Byte
  tag : TagKind
  deriving DecidableEq, Repr

/-- One remote access through the window of R183: the requesting unit by its ISSUER code (R347) and device, the
device address, the bytes written with their byte mask, or the length read; ARRIVE with its counter (R195). -/
structure RemoteAcc where
  issuer : Nat
  device : Nat
  reqTag : Nat
  addr : Nat
  write : Bool
  len : Nat
  data : List Byte
  mask : List Bool
  arrive : Option Nat
  tag : TagKind
  deriving DecidableEq, Repr

/-- One message of a frame (R344): its ROW, LEN and AUX fields and its payload. -/
structure Msg where
  row : Nat
  len : Nat
  aux : Nat
  payload : List Byte
  deriving DecidableEq, Repr

/-- A frame as it arrives at a port (R344, R345). -/
structure Frame where
  ty : Nat
  tc : Nat
  vc : Nat
  src : Nat
  dst : Nat
  issuer : Nat
  hops : Nat
  seq : Nat
  msgs : List Msg
  deriving DecidableEq, Repr

/-- The hello record (R363). -/
structure HelloRec where
  serial : W64
  devid : Nat
  valid : Bool
  port : Nat
  candHost : Bool
  inWave : Bool
  mode : Bool
  epoch : Nat
  cand : W64
  certHash : List Byte
  deriving DecidableEq, Repr

/-- A position or a shape of the torus: x, y, z, w (R341). -/
structure Coord where
  x : Nat
  y : Nat
  z : Nat
  w : Nat
  deriving DecidableEq, Repr

/-- A WITNESS report (R373). -/
structure WitnessRec where
  kind : Nat
  port : Nat
  id : Nat
  evidence : Nat
  count : Nat
  first : Nat
  deriving DecidableEq, Repr

/-- The header of a pace message (R393), with the port it arrived on. -/
structure PaceHdr where
  rope : Nat
  origin : Nat
  seq : Nat
  port : Nat
  deriving DecidableEq, Repr

/-- A ROPE_FORM message (R393). -/
structure RopeForm where
  hdr : PaceHdr
  members : Nat
  listHash : List Byte
  point : Nat
  deriving DecidableEq, Repr

/-- What memory training found (R316, R320, R321): the tier-1 channels that trained, and for tier 2 whether the
population is one of the table's and trained, its DIMM size in GiB, channels and DIMMs per channel. -/
structure TrainResult where
  channels : List Nat
  tier2Ok : Bool
  gib : Nat
  nch : Nat
  dpc : Nat
  deriving DecidableEq, Repr

/-- A drive at the end of bring-up (R323, R324): its root port, whether it came ready and is usable, the size of
namespace 1 in bytes. -/
structure Drive where
  port : Nat
  ready : Bool
  bytes : Nat
  deriving DecidableEq, Repr

/-- The units that failed a self-test (R423). -/
structure SelfTestResult where
  cores : List Nat
  spads : List Nat
  ledge : List Nat
  tiers : List Nat
  ports : List Nat
  deriving DecidableEq, Repr

/-- A row a patrol engine reads (R403): of AM or PM of a core by physical bank-row index, of a ledge die, or of a
tier, by 64-byte row. -/
inductive PatrolRow where
  | spm (c : Nat) (mem : SpmMem) (row : Nat)
  | ledge (die row : Nat)
  | tier1 (row : Nat)
  | tier2 (row : Nat)
  deriving DecidableEq, Repr

/-- What happens to the MP after an uncorrectable word of its memory (R402): it stops and is put in reset; its firmware is
loaded again; that fails. -/
inductive MpEvent where
  | stops
  | reloaded
  | reloadFails
  deriving DecidableEq, Repr

/-- The commands: one constructor per row of spec/opcode_table.json. -/
inductive Instr where
  /-- LDW_WEIGHTS (R222): Tile instruction LDW FORM 0 loads NBLK weight blocks from a handle into WM page sets, zero-filling N-edge columns and checking pairs and codes. -/
  | ldwWeights (c : Nat)
  /-- LDW_SCALES (R128): Tile instruction LDW FORM 1 loads weight-group scale records into scale slots, re-encoding zero-range groups and rewriting their weight pages. -/
  | ldwScales (c : Nat)
  /-- LDW_GEN (R114): Tile instruction LDW FORM 2 generates C stochastic stream pages from AM source values and tags them with core, generator, dimension and epoch. -/
  | ldwGen (c : Nat)
  /-- LDA (R223): Tile instruction LDA builds activation plane vectors and group records in AM and writes zero-map bits, padding rows beyond the source. -/
  | lda (c : Nat)
  /-- STO (R224): Tile instruction STO with AOP 0 moves contiguous rows from AM or PM to a destination handle, optionally with ARRIVE. -/
  | sto (c : Nat)
  /-- STO_ATOMIC (R105): Tile instruction STO with a non-zero AOP turns each element into an ADD32, ADD64, ACCADD or FADD32 at the destination. -/
  | stoAtomic (c : Nat)
  /-- MCAST_COPY (R225): Tile instruction MCAST kind 0 reads ledge rows once and writes them into every active core of the mask. -/
  | mcastCopy (c : Nat)
  /-- MCAST_LOAD (R225): Tile instruction MCAST kind 1 performs an LDW FORM 0 or 1 from ledge memory in every active target core of the mask. -/
  | mcastLoad (c : Nat)
  /-- PASS (R218): Tile instruction PASS issues one dense array pass into an ACM extent, or is skipped when its zero-map bit is set under SKIP. -/
  | pass (c : Nat)
  /-- PASS2_4 (R68): Tile instruction PASS2:4 issues one structured 2:4 pass covering 512 dense K positions. -/
  | pass24 (c : Nat)
  /-- STREAM (R115): Tile instruction STREAM runs one stochastic pass over C stream steps, with the tag check for correlation. -/
  | stream (c : Nat)
  /-- ACLR (R78): Tile instruction ACLR writes finite 0 into every entry of its extent and tags each block, one block per cycle. -/
  | aclr (c : Nat)
  /-- ADRAIN_EPI (R88): Tile instruction ADRAIN with PATH EPI moves rows into the belay set for the epilogue, rasp unit and requantiser. -/
  | adrainEpi (c : Nat)
  /-- ADRAIN_RAW (R87): Tile instruction ADRAIN with PATH RAW drains accumulator codes, re-expressed at OTBP, through masking to a handle. -/
  | adrainRaw (c : Nat)
  /-- ADRAIN_ATOMIC (R219): Tile instruction ADRAIN with PATH ATOMIC sends one gated ACCADD per in-bounds entry, or inserts rows into the HAC. -/
  | adrainAtomic (c : Nat)
  /-- ADRAIN_LIST (R103): Tile instruction ADRAIN with SRC LIST reads top-k records from AM and feeds them to the top-k stage. -/
  | adrainList (c : Nat)
  /-- AEPI_FORM0 (R88): Tile instruction AEPI FORM 0 sets the enabled epilogue stages, REBASE, k, SCORE and the log-sum scale for later drains. -/
  | aepiForm0 (c : Nat)
  /-- AEPI_FORM1 (R104): Tile instruction AEPI FORM 1 sets KREF and the PM bases of row and top-k records. -/
  | aepiForm1 (c : Nat)
  /-- WAITF (R226): Tile instruction WAITF waits until each named 2 KiB slot has the wanted tag and applies its action. -/
  | waitf (c : Nat)
  /-- WAITC (R227): Tile instruction WAITC waits until an arrival counter reaches its threshold, optionally subtracting it on release. -/
  | waitc (c : Nat)
  /-- CLAIM (R228): Tile instruction CLAIM sends a FETCH_ADD32 of 1 to a work list's counter. -/
  | claim (c : Nat)
  /-- CLAIM_TICKET (R228): The returned ticket of a CLAIM is written to its ticket register, refreshing generators and setting or clearing DONE. -/
  | claimTicket (c : Nat)
  /-- BARRIER (R229): Tile instruction BARRIER flushes and awaits acknowledgements, arrives, and waits until every member core has arrived. -/
  | barrier (c : Nat)
  /-- SIGNAL_DOORBELL (R230): SIGNAL KIND 0 flushes, awaits acknowledgements and rings the command processor's completion doorbell with VALUE. -/
  | signalDoorbell (c : Nat)
  /-- SIGNAL_ARRIVE (R230): SIGNAL KIND 1 flushes, awaits acknowledgements and adds VALUE to a named core's arrival counter. -/
  | signalArrive (c : Nat)
  /-- SIGNAL_TICKET (R256): SIGNAL KIND 2 flushes, awaits acknowledgements and sends a TSET marking its ticket complete. -/
  | signalTicket (c : Nat)
  /-- LOOP (R231): Tile instruction LOOP pushes a loop level and runs its body COUNT or BOUND times. -/
  | loopInstr (c : Nat)
  /-- BR (R232): Tile instruction BR jumps on its condition, popping levels that do not contain the target and clearing EXIT when tested. -/
  | br (c : Nat)
  /-- END (R233): Tile instruction END flushes the HAC and gather buffer, awaits acknowledgements, rings dispatch-complete and unloads the program. -/
  | endProgram (c : Nat)
  /-- SETP_ARRAY (R61): SETP ARRAY sets formats, widths, group size, 2:4, SKIP, PORD and stream lengths, waiting for the accumulate stage to empty. -/
  | setpArray (c : Nat)
  /-- SETP_AGA (R234): SETP AGA writes BASE and STRIDE of an address generator and clears its other fields and use count. -/
  | setpAga (c : Nat)
  /-- SETP_AGB (R210): SETP AGB writes TSEL, PERIOD and OUTER of an address generator and clears its use count. -/
  | setpAgb (c : Nat)
  /-- SETP_DRAIN (R219): SETP DRAIN sets OTBP, the atomic target width, drain and record handles and DSTRIDE. -/
  | setpDrain (c : Nat)
  /-- SGSEED (R112): Tile instruction SGSEED writes a generator's seed and increments its epoch once the generator is idle. -/
  | sgseed (c : Nat)
  /-- BOUND (R235): Tile instruction BOUND writes a BOUND register from an immediate or an AM word. -/
  | boundWrite (c : Nat)
  /-- CORE_DISPATCH (R211): A core's dispatch doorbell starts its loaded program at ENTRY at the next wheel position 0 with the dispatch state reset. -/
  | coreDispatch (c : Nat)
  /-- PASS_RETIRE (R60): A pass's array slot ends and the pass retires from the array. -/
  | passRetire (c : Nat)
  /-- PASS_CLOSING (R59): The accumulate stage closes a retired pass's segment tallies into ACM as group partials. -/
  | passClosing (c : Nat)
  /-- ADRAIN_TRANSFER (R85): An ADRAIN's bytes enter the belay set as the closings land and the ADRAIN retires. -/
  | adrainTransfer (c : Nat)
  /-- EPILOGUE_DRAIN (R88): The epilogue takes a drain from the belay set in order and applies stages 1 to 7 at 32 entries per cycle. -/
  | epilogueDrain (c : Nat)
  /-- ROW_CLOSE (R89): A closed row context computes mean and variance and writes its row and top-k records to PM, then is freed. -/
  | rowClose (c : Nat)
  /-- RANGE_MISS_WINDOW (R145): A window of 4,096 outputs closes and raises RANGE_MISS when its clips exceed CLIP_LIMIT. -/
  | rangeMissWindow (c : Nat)
  /-- CHECKPOINT_TEST (R120): After a CHK pass's closings land, the core tests every entry for settlement and sets EXIT when all are settled. -/
  | checkpointTest (c rows cols : Nat)
  /-- LOAD_PAGE_WRITE (R53): A load completes the write of a page, records its CRC-32 and makes it LOADED. -/
  | loadPageWrite (c : Nat)
  /-- SCRUB_PAGE (R73): The WM scrub engine reads a LOADED page in idle cycles, corrects and writes back rows and checks the CRC. -/
  | scrubPage (c mc page : Nat)
  /-- SCRUB_AGE_EXCEEDED (R74): The time since a LOADED page was scrubbed first exceeds 10 ms in a sweep and an error-log record is written. -/
  | scrubAgeExceeded (c : Nat)
  /-- HAC_SPILL (R172): A spilled way leaves the spill queue as ACCADDs to its home row, up to 8 per NCLK cycle. -/
  | hacSpill (c : Nat)
  /-- TILE_FAULT_REPORT (R214): After the issued instructions of a faulted tile retire, the core reports the fault and writes CORE_SEQ_FAULT. -/
  | tileFaultReport (c : Nat)
  /-- DEBUG_ENTER (R236): After a halt request or breakpoint, issued instructions retire and the core enters DEBUG. -/
  | debugEnter (c : Nat)
  /-- WRITE_ACK (R224): A destination's acknowledgement of a core write or atomic arrives and the write stops counting as outstanding. -/
  | writeAck (c i : Nat)
  /-- TAG_WAIT_TIMEOUT (R193): An access waiting on a full/empty tag exceeds CORE_SPM_FE_TMO and fails with TIMEOUT. -/
  | tagWaitTimeout (c : Nat)
  /-- WAITC_TIMEOUT (R227): A WAITC that has waited CORE_SPM_FE_TMO cycles fails its tile with TIMEOUT. -/
  | waitcTimeout (c : Nat)
  /-- BARRIER_TIMEOUT (R229): A BARRIER that has waited CORE_SEQ_BAR_TMO cycles fails its tile with TIMEOUT. -/
  | barrierTimeout (c : Nat)
  /-- SPM_ACCESS (R184): A client's AM or PM access is presented at an owned wheel slot or served by round robin and corrected on read. -/
  | spmAccess (c t : Nat) (acc : SpmAcc) (rivals : List Nat)
  /-- SPM_ECC_WRITEBACK (R186): A corrected word is written back to its bank in a later unused cycle unless a client wrote the row first. -/
  | spmEccWriteback (c : Nat) (mem : SpmMem) (word : Nat)
  /-- GATHER_ENTRY_WRITE (R189): A gather-buffer entry is written to its bank, by read-modify-write for partial words. -/
  | gatherEntryWrite (c i : Nat)
  /-- REMOTE_SPM_ACCESS (R194): A remote read or write of a core's AM, PM or WM is served at the owner's mesh port. -/
  | remoteSpmAccess (acc : RemoteAcc)
  /-- RETENTION_ENTER (R198): A bank group or WM macro whose handles allow retention and whose core has been idle 10 µs enters retention. -/
  | retentionEnter (c group : Nat)
  /-- RETENTION_SCRUB_WAKE (R198): Every 10 ms the retention controller wakes each retained WM macro for one scrub sweep and returns it to retention. -/
  | retentionScrubWake (c mc : Nat)
  /-- GROUP_WAKE_DONE (R199): A waking bank group finishes its 2 µs voltage rise, and zero-fill when it was OFF, and becomes ON. -/
  | groupWakeDone (c group : Nat)
  /-- BANK_GROUP_CLOSED (R199): A CLOSING group's last in-flight write lands and the group becomes RETAIN or OFF. -/
  | bankGroupClosed (c group : Nat)
  /-- CORE_SEQ_HALT (R236): A write of 1 to CORE_SEQ_CTRL.HALT stops issue before the next instruction. -/
  | coreSeqHalt (a : Agent) (c : Nat)
  /-- CORE_SEQ_STEP (R236): A write of 1 to CORE_SEQ_CTRL.STEP issues exactly one instruction from DEBUG. -/
  | coreSeqStep (a : Agent) (c : Nat)
  /-- CORE_SEQ_RUN (R236): A write of 1 to CORE_SEQ_CTRL.RUN resumes issue from DEBUG. -/
  | coreSeqRun (a : Agent) (c : Nat)
  /-- CORE_IMEM_WRITE (R237): A write of an instruction-memory half is held or lands with its pair, and is ignored while a program runs outside DEBUG. -/
  | coreImemWrite (a : Agent) (c i : Nat) (high : Bool) (v : W32)
  /-- CORE_IMEM_READ (R237): A read of an instruction-memory low half latches the high half for the reading agent. -/
  | coreImemRead (a : Agent) (c i : Nat) (high : Bool)
  /-- CORE_BOUND_WRITE (R236): A host write to a BOUND register takes effect in DEBUG and is otherwise ignored as a protocol violation. -/
  | coreBoundWrite (a : Agent) (c b : Nat) (v : W32)
  /-- CORE_ARR_SCRUB_CTRL_WRITE (R73): A write of EN stops the WM scrub after the current page or resumes it with its sweep state. -/
  | coreArrScrubCtrlWrite (a : Agent) (c : Nat) (v : W32)
  /-- CORE_ACC_DBG_CTRL_WRITE (R109): A write enabling the ACM debug window takes effect only in DEBUG. -/
  | coreAccDbgCtrlWrite (a : Agent) (c : Nat) (v : W32)
  /-- CORE_SPM_MODE_WRITE (R187): A write of timing mode or interleave applies at once when the core is idle and is otherwise deferred with PEND set. -/
  | coreSpmModeWrite (a : Agent) (c : Nat) (v : W32)
  /-- CORE_SPM_WHEEL_WRITE (R187): A write of the wheel owners applies at once when idle and is otherwise deferred with PEND set. -/
  | coreSpmWheelWrite (a : Agent) (c : Nat) (v : W32)
  /-- SPM_MODE_APPLY (R187): A deferred mode or wheel write is applied when the core has no program loaded and no queued access, and PEND clears. -/
  | spmModeApply (c : Nat)
  /-- CORE_SPM_PWR_REQ_WRITE (R199): A write of a bank group's requested power state starts its transition, or is refused in FINE interleave. -/
  | coreSpmPwrReqWrite (a : Agent) (c : Nat) (high : Bool) (v : W32)
  /-- CORE_SPM_ARRIVE_WRITE (R195): A register write sets an arrival counter, with a same-cycle increment added. -/
  | coreSpmArriveWrite (a : Agent) (c i : Nat) (v : W32) (inc : Bool)
  /-- CORE_RQ_LIMIT_WRITE (R144): A write of CLIP_LIMIT also clears the open range-miss window. -/
  | coreRqLimitWrite (a : Agent) (c : Nat) (v : W32)
  /-- CORE_SP_HAC_CFG_WRITE (R169): A write of the HAC configuration enables it with all ways invalid, or is ignored with REJ set while ways are valid. -/
  | coreSpHacCfgWrite (a : Agent) (c : Nat) (v : W32)
  /-- LATCHED_PAIR_READ (R76): A read of a _LO register latches the matching _HI for the reading agent, and a following _HI read empties the latch. -/
  | latchedPairRead (a : Agent) (addr : Nat)
  /-- RAS_LOG_READ (R418): A read of word 0 of an error-log entry latches the whole record for the reading agent. -/
  | rasLogRead (a : Agent) (i word : Nat)
  /-- REGISTER_WRITE (R6): A write to a register without its own row sets writable fields, ignoring RSV bits and counting a violation when they are non-zero. -/
  | registerWrite (a : Agent) (addr : Nat) (v : RegWrite)
  /-- CMDQ_SQDB_WRITE (R267): A write of a submission tail doorbell is accepted within range on an ACTIVE queue, held in BOOT, or ignored as a violation. -/
  | cmdqSqdbWrite (a : Agent) (q : Nat) (v : W32)
  /-- CMDQ_CQDB_WRITE (R267): A write of a completion head doorbell frees ring space when in range, or is ignored as a violation. -/
  | cmdqCqdbWrite (a : Agent) (q : Nat) (v : W32)
  /-- QUEUE_ENABLE (R263): Writing ENABLE 1 activates a DISABLED queue with a valid configuration, or leaves it DISABLED with CAUSE 4. -/
  | queueEnable (a : Agent) (q : Nat) (v : W32)
  /-- QUEUE_DISABLE (R263): Writing ENABLE 0 stops fetch and moves an ACTIVE queue to DRAINING, or an ERROR queue toward DISABLED. -/
  | queueDisable (a : Agent) (q : Nat) (v : W32)
  /-- QUEUE_DRAINED (R263): A DRAINING or ERROR queue whose last command has finished becomes DISABLED. -/
  | queueDrained (q : Nat)
  /-- CMDQ_EVT_CLEAR (R274): A write-1-to-clear of CMDQ_EVT clears device event bits. -/
  | cmdqEvtClear (a : Agent) (v : W32)
  /-- SQ_FETCH (R268): The serving command processor samples the tail and fetches submission entries in ring order, up to 8 per read. -/
  | sqFetch (src : Src) (readFails : Bool)
  /-- CQ_POST (R271): A completion is written to the CQ with the queue's phase, or waits in the pending buffer while the CQ is full. -/
  | cqPost (src : Src)
  /-- MSIX_MESSAGE (R274): A queue vector sends one MSI-X message when a threshold or IRQ flag is met, signalling every completion on that vector. -/
  | msixMessage (v : Nat)
  /-- IRQ_AGE_EXPIRY (R274): The oldest unsignalled completion of a queue reaches TTHR µs. -/
  | irqAgeExpiry (q : Nat)
  /-- PROGRESS_INTERVAL (R273): Every PROGMS milliseconds a running command with PROG set receives a PROGRESS interim completion. -/
  | progressInterval (id : Nat)
  /-- COMPLETION_DOORBELL (R230): A command processor receives a core's SIGNAL KIND 0 doorbell for its command. -/
  | completionDoorbell (i : Nat)
  /-- DISPATCH_COMPLETE (R233): A command processor receives a core's dispatch-complete doorbell and may post the command's final completion. -/
  | dispatchComplete (i : Nat)
  /-- FORMAT_BARRIER_RELEASE (R83): Every contribution of an old layer on a core has retired and the new layer's first tile is dispatched there. -/
  | formatBarrierRelease (c : Nat)
  /-- LAYER_RERUN (R147): After a range miss the dispatched tiles finish and the command processor reruns the layer at FB_OBITS. -/
  | layerRerun (id : Nat)
  /-- ROUTED_ROUND (R167): When every item of a routed round has retired, the next round of work items is dispatched. -/
  | routedRound (id : Nat)
  /-- LEDGE_TILE_STAGE (R258): The command processor stages the next ledge tile into a staging buffer while the cores work on the current one. -/
  | ledgeTileStage (id : Nat)
  /-- PRED_SKIP_MAP_READ (R177): After the predictor runs, the command processor reads the skip map, numbers inactive blocks and chooses audits. -/
  | predSkipMapRead (id : Nat)
  /-- PRED_WINDOW_CLOSE (R180): A prediction window closes at 1,024 inactive blocks and disables prediction when the miss estimate exceeds MISS_LIMIT. -/
  | predWindowClose (layer : Nat)
  /-- DEFERRED_RECHECK (R296): On a state change, each deferred command is checked again and runs or completes with STATE_REFUSED. -/
  | deferredRecheck
  /-- CORE_RENUMBER (R408): With no spare left, on reaching READY or LOADED the cores are renumbered and resident weights placed again. -/
  | coreRenumber
  /-- IDENTIFY (R297): Command IDENTIFY returns the identity, stepping, state and active core count, or the serial number. -/
  | identify (src : Src)
  /-- PROGRESS (R298): Command PROGRESS returns the progress of the oldest matching long operation of a queue. -/
  | progress (src : Src)
  /-- ABORT (R299): Command ABORT stops a deferred or running target, which completes ABORTED. -/
  | abort (src : Src)
  /-- DRAIN (R293): Command DRAIN puts the device in DRAINING until no execution-class command is in flight. -/
  | drain (src : Src)
  /-- SOFT_RESET (R428): Command SOFT_RESET drains the device, leaves any rope, empties the slices and posts its completion before resetting. -/
  | softReset (src : Src)
  /-- SOFT_RESET_APPLY (R428): Within 10 µs of its completion being posted the device soft reset takes effect and the device enters BOOT. -/
  | softResetApply
  /-- MAINT_ENTER (R295): Command MAINT_ENTER places the device in MAINTENANCE once nothing is in flight. -/
  | maintEnter (src : Src)
  /-- MAINT_EXIT (R293): Command MAINT_EXIT leaves MAINTENANCE for READY or LOADED. -/
  | maintExit (src : Src)
  /-- COUNTERS_READ (R419): Command COUNTERS_READ returns a violation class's 64-bit count and optionally clears it. -/
  | countersRead (src : Src)
  /-- ERRLOG_READ (R418): Command ERRLOG_READ copies error-log records to a destination and reports the next index and WRAPPED. -/
  | errlogRead (src : Src)
  /-- TELEMETRY_READ (R422): Command TELEMETRY_READ snapshots the masked monitor channels and writes their registers. -/
  | telemetryRead (src : Src)
  /-- POWER_CAP_SET (R386): Command POWER_CAP_SET writes the host cap or, on a private pair, the rack budget and returns the previous value. -/
  | powerCapSet (src : Src)
  /-- OP_SET (R380): Command OP_SET writes PWR_OP_CTRL and returns its previous value. -/
  | opSet (src : Src)
  /-- HANDLE_ALLOC (R300): Command HANDLE_ALLOC builds and validates a handle entry, choosing a number and base under quota. -/
  | handleAlloc (src : Src)
  /-- HANDLE_FREE (R297): Command HANDLE_FREE frees a handle and its space. -/
  | handleFree (src : Src)
  /-- HANDLE_ATTR (R297): Command HANDLE_ATTR changes RESIDENT, RETAIN, POWER_POLICY and TAG_MODE of a handle. -/
  | handleAttr (src : Src)
  /-- DMA_COPY (R329): Command DMA_COPY copies or converts data between memories through the tier DMA engines. -/
  | dmaCopy (src : Src)
  /-- DMA_FILL (R331): Command DMA_FILL writes an 8-byte pattern into every aligned word of a destination. -/
  | dmaFill (src : Src)
  /-- PAGE_XFER (R326): Command PAGE_XFER moves 4 KiB pages between tier 3 and tier 1, tier 2 or ledge memory, flushing drives it wrote. -/
  | pageXfer (src : Src)
  /-- WEIGHT_LOAD (R301): Command WEIGHT_LOAD places a descriptor's weights and scales in a WM handle and marks it RESIDENT. -/
  | weightLoad (src : Src)
  /-- WEIGHT_UNLOAD (R301): Command WEIGHT_UNLOAD empties a WM handle's pages, frees it and re-enables its layers' prediction. -/
  | weightUnload (src : Src)
  /-- PRED_ENABLE (R301): Command PRED_ENABLE re-enables prediction for a layer and empties its window. -/
  | predEnable (src : Src)
  /-- LAYER_RUN (R304): Command LAYER_RUN reads a layer descriptor, writes its piton record, expands it into tiles and dispatches them. -/
  | layerRun (src : Src)
  /-- LAYER_CHAIN (R302): Command LAYER_CHAIN runs an array of layer descriptors in order until a layer fails. -/
  | layerChain (src : Src)
  /-- TILE_RUN (R303): Command TILE_RUN dispatches one program, ENTRY and bounds to every named logical core. -/
  | tileRun (src : Src)
  /-- WORKLIST_DEFINE (R253): Command WORKLIST_DEFINE creates a work list in ledge memory or attaches a remote one and sets CORE_WL. -/
  | worklistDefine (src : Src)
  /-- WORKLIST_FREE (R254): Command WORKLIST_FREE frees a work list and returns its done and duplicate counts. -/
  | worklistFree (src : Src)
  /-- FABRIC_DISCOVER (R364): Command FABRIC_DISCOVER floods START with a new epoch and runs election and discovery of the torus. -/
  | fabricDiscover (src : Src)
  /-- FABRIC_STATUS (R297): Command FABRIC_STATUS writes the 32 port records as they read at stage 3. -/
  | fabricStatus (src : Src)
  /-- ROPE_JOIN (R394): Command ROPE_JOIN checks the member list and sends ROPE_FORM to the rope's lowest ID. -/
  | ropeJoin (src : Src)
  /-- ROPE_LEAVE (R400): Command ROPE_LEAVE sends ROPE_LEAVE to the leader and returns to local control. -/
  | ropeLeave (src : Src)
  /-- PORT_RESET (R430): Command PORT_RESET retrains one fabric port, discarding its retry buffer and clearing DEGRADED and QUARANTINE. -/
  | portReset (src : Src)
  /-- SELF_TEST (R423): Command SELF_TEST tests the selected cores, scratchpads, ledge, tiers and fabric ports in MAINTENANCE. -/
  | selfTest (src : Src) (failed : SelfTestResult)
  /-- ROW_REPAIR (R203): Command ROW_REPAIR repairs pending candidates at quiescent points, or replaces a ledge bank. -/
  | rowRepair (src : Src)
  /-- CORE_RESET (R429): Command CORE_RESET resets one physical core and restarts it idle within 5 µs. -/
  | coreReset (src : Src)
  /-- DEBUG_HALT (R236): Command DEBUG_HALT halts a physical core into DEBUG and returns its PC. -/
  | debugHalt (src : Src)
  /-- DEBUG_ACC_READ (R109): Command DEBUG_ACC_READ copies ACM or belay-set words of a halted core to a destination. -/
  | debugAccRead (src : Src)
  /-- DEBUG_RESUME (R303): Command DEBUG_RESUME resumes or steps a core in DEBUG and returns its PC. -/
  | debugResume (src : Src)
  /-- ATTEST (R438): Command ATTEST writes a signed 896-byte attestation report over the supplied nonce. -/
  | attest (src : Src)
  /-- CERT_READ (R297): Command CERT_READ writes the identity or attestation certificate. -/
  | certRead (src : Src)
  /-- FW_UPDATE (R269): Command FW_UPDATE submitted on a queue completes NOT_SECURE at check 6. -/
  | fwUpdate (src : Src)
  /-- KEY_OP (R269): Command KEY_OP submitted on a queue completes NOT_SECURE at check 6. -/
  | keyOp (src : Src)
  /-- GLB_BMC_SUBMIT (R290): A BMC write of SUBMIT copies the built entry to its private submission ring or is refused when 15 entries wait. -/
  | glbBmcSubmit (a : Agent)
  /-- GLB_BMC_POP (R290): A BMC write of POP removes the oldest waiting completion of its private pair. -/
  | glbBmcPop (a : Agent)
  /-- USB_REGISTER_READ (R291): A service-port request of TYPE 0x01 reads COUNT registers and is answered with their values. -/
  | usbRegisterRead (req : List Byte)
  /-- USB_REGISTER_WRITE (R291): A service-port request of TYPE 0x02 writes COUNT registers and is answered with a status. -/
  | usbRegisterWrite (req : List Byte)
  /-- USB_SUBMIT (R291): A service-port request of TYPE 0x03 places a submission entry in the private ring or is refused with NO_RESOURCE. -/
  | usbSubmit (req : List Byte)
  /-- USB_COMPLETION_ACK (R291): The USB host acknowledges a TYPE 0x84 completion transfer and the completion leaves the ring. -/
  | usbCompletionAck
  /-- MBX_LOCK_READ (R282): A read of MBX_LOCK takes a FREE channel for the reader or returns the present owner. -/
  | mbxLockRead (a : Agent) (ch : Nat)
  /-- MBX_LOCK_RELEASE (R282): A write of 0 to MBX_LOCK by the owner frees the channel; by others it is ignored and counted. -/
  | mbxLockRelease (a : Agent) (ch : Nat)
  /-- MBX_DATA_WRITE (R283): A write of the message buffer is accepted from the agent the channel state allows and otherwise ignored and logged. -/
  | mbxDataWrite (a : Agent) (ch i : Nat) (v : W32)
  /-- MBX_SEND (R283): A write of MBX_SEND makes the channel SENT and notifies the receiver, or times out at once for a dead receiver. -/
  | mbxSend (a : Agent) (ch : Nat) (v : W32)
  /-- MBX_ACK (R283): A receiver's write of MBX_ACK makes the channel ACKED with status and reply length and notifies the owner. -/
  | mbxAck (a : Agent) (ch : Nat) (v : W32)
  /-- MBX_TIMEOUT (R285): A sent message unacknowledged within MBX_TMO puts the channel in TIMEOUT and notifies the owner. -/
  | mbxTimeout (ch : Nat)
  /-- FW_VERIFY (R434): Secure operation FW_VERIFY verifies an image for a stage without writing anything. -/
  | fwVerify (ch : Nat)
  /-- FW_WRITE (R436): Secure operation FW_WRITE verifies an image, writes it to the inactive slot and verifies the readback. -/
  | fwWrite (ch : Nat)
  /-- FW_ACTIVATE (R435): Secure operation FW_ACTIVATE points a stage's selector at the other verified slot. -/
  | fwActivate (ch : Nat)
  /-- FW_COMMIT (R436): Secure operation FW_COMMIT raises a stage's SVN floor in OTP to the active image's SVN. -/
  | fwCommit (ch : Nat)
  /-- KEY_ATTEST_ROTATE (R436): Secure operation KEY_ATTEST_ROTATE generates a new attestation key pair and certificate. -/
  | keyAttestRotate (ch : Nat)
  /-- KEY_REVOKE (R436): Secure operation KEY_REVOKE revokes a vendor key slot on a validly signed revocation record. -/
  | keyRevoke (ch : Nat)
  /-- CERT_WRITE (R436): Secure operation CERT_WRITE writes the identity certificate to flash when its hash matches OTP. -/
  | certWrite (ch : Nat)
  /-- BAR2_ACCESS (R261): A host access through BAR2 reaches device memory through the window or completes as Unsupported Request. -/
  | bar2Access (x : Nat) (write : Bool) (n : Nat) (data : List Byte)
  /-- DMA_PIECE (R327): A tier DMA engine works a 4 KiB piece of a segment or a core descriptor, with its conversion. -/
  | dmaPiece (e : Nat)
  /-- SLICE_ATOMIC_OP (R332): A tier atomic slice applies one arriving operation or plain access to a buffered row in arrival order. -/
  | sliceAtomicOp (sl : Nat)
  /-- SLICE_ROW_FILL (R335): A slice's read of a missed row returns, and waiting operations proceed or fail UNCORRECTABLE. -/
  | sliceRowFill (sl : Nat)
  /-- SLICE_IDLE_WRITEBACK (R336): A written slice row unaccessed for 100 µs is written back and leaves the buffer. -/
  | sliceIdleWriteback (sl row : Nat)
  /-- LEDGE_ATOMIC_OP (R207): A ledge bank's atomic unit applies one operation, including the returning operations, in arrival order. -/
  | ledgeAtomicOp (die bank : Nat)
  /-- TSET (R256): A TSET sets a ticket's completion bit, counts DONE or duplicate, and rings the owner when DONE_COUNT reaches LENGTH. -/
  | tset (die bank : Nat)
  /-- NVME_COMPLETION (R323): A drive completes a Read, Write or Flush, and a failing status ends the PAGE_XFER UNCORRECTABLE. -/
  | nvmeCompletion (drive : Nat) (ok : Bool)
  /-- NVME_CMD_TIMEOUT (R326): A drive command uncompleted for MEM_T3_TMO is aborted, the controller reset and the transfer ends TIMEOUT. -/
  | nvmeCmdTimeout (drive : Nat)
  /-- NVME_LINK_DOWN (R326): A drive whose link goes down is marked FAILED. -/
  | nvmeLinkDown (drive : Nat)
  /-- FRAME_RECEIVE (R348): A port receives a frame and checks CRC, SEQ and protocol, accepting it or sending NAK. -/
  | frameReceive (p : Nat) (f : Frame) (crcOk : Bool)
  /-- NAK_RECEIVE (R348): A sender receiving NAK fills the codeword with IDLE and resends from the frame after ACK. -/
  | nakReceive (p ack : Nat)
  /-- FRAME_FORWARD (R350): The switch forwards a transit frame on a chosen output port once it holds credits for it. -/
  | frameForward (i : Nat)
  /-- VC1_ESCALATE (R355): An adaptive frame finding no VC0 credits for 64 NCLK cycles moves to VC1. -/
  | vc1Escalate (i : Nat)
  /-- WRITE (R359): A WRITE message delivers whole rows to the owning unit, which sends WACK once they are visible. -/
  | writeMsg (i : Nat)
  /-- WRITE_P (R346): A WRITE_P message delivers one row with a byte mask to its target and is answered by WACK. -/
  | writeP (i : Nat)
  /-- READ (R360): A READ message reads rows at the target and is answered by one READ_RESP. -/
  | readMsg (i : Nat)
  /-- READ_RESP (R360): A READ_RESP delivers rows or a failing status to the requesting unit. -/
  | readResp (i : Nat)
  /-- ATOMIC (R358): An ATOMIC message is applied by the target's slice or ledge unit and answered by ATOMIC_RESP. -/
  | atomic (i : Nat)
  /-- ATOMIC_RESP (R334): An ATOMIC_RESP returns status and old value to the issuing unit. -/
  | atomicResp (i : Nat)
  /-- WACK (R359): A WACK acknowledges one or more remote writes to their issuer. -/
  | wack (i : Nat)
  /-- QSUBMIT (R275): A QSUBMIT from a peer is checked and written at a remote queue's SQ tail, and answered by QACK. -/
  | qsubmit (i : Nat)
  /-- QACK (R362): A QACK tells the peer whether its submission was accepted. -/
  | qack (i : Nat)
  /-- CQDB (R362): A CQDB message moves a remote queue's CQ head as a doorbell write and is answered by WACK. -/
  | cqdb (i : Nat)
  /-- REMOTE_TIMEOUT (R361): A remote request unanswered within FAB_RTMO fails with FABRIC_UNREACHABLE. -/
  | remoteTimeout (i : Nat)
  /-- HELLO_SEND (R363): Every 100 µs each trained port sends a HELLO. -/
  | helloSend (p : Nat)
  /-- HELLO (R363): A received HELLO makes the port UP, MISWIRED or QUARANTINE and updates the root candidate. -/
  | hello (p : Nat) (h : HelloRec)
  /-- HELLO_TIMEOUT (R363): A port that receives no hello for 1 ms becomes LOST. -/
  | helloTimeout (p : Nat)
  /-- PORT_SIGNAL_LOSS (R372): An UP port loses signal and the device becomes a witness against its peer. -/
  | portSignalLoss (p : Nat)
  /-- PORT_TRAINED (R339): A port's training ends, with the spare lane in place of a failed lane or the port DEGRADED. -/
  | portTrained (p : Nat) (badLanes : List Nat)
  /-- LANE_SPARE (R339): A lane's FEC symbol error ratio exceeds 10⁻⁵ over 1 s and the port retrains with the spare. -/
  | laneSpare (p lane : Nat)
  /-- PORT_RETRAIN (R370): RETRY_LIMIT NAKs or VIOL_LIMIT violations within 1 ms make a port retrain, or DEGRADED on the third in 1 s. -/
  | portRetrain (p : Nat)
  /-- PORT_CTRL_WRITE (R354): A write of PORT_CTRL.EN takes a port out of service or trains it. -/
  | portCtrlWrite (a : Agent) (p : Nat) (v : W32)
  /-- START (R364): A START message floods a discovery epoch and makes the device join the wave. -/
  | startWave (p epoch : Nat) (serial : W64) (root requireId : Bool)
  /-- ELECTION_END (R364): A root candidate unchanged for 5 ms ends the election, and a device holding itself becomes root and sends ASSIGN. -/
  | electionEnd
  /-- ASSIGN (R365): An ASSIGN gives coordinates, records a dimension size, is ignored, or makes the port MISWIRED. -/
  | assign (p epoch : Nat) (xyzw : Coord) (requireId : Bool)
  /-- JOIN (R366): A JOIN passes up the tree and the root counts it as a device found. -/
  | join (p : Nat) (serial : W64) (xyzw : Coord)
  /-- WAVE_END (R366): No JOIN for 10 ms ends the root's wave and it sends CONFIG. -/
  | waveEnd
  /-- CONFIG (R366): A CONFIG sets device ID, shape, routing mode and root and is acknowledged by CONFIG_ACK. -/
  | config (p epoch : Nat) (shape : Coord) (mode : Bool) (collector found : Nat) (ok requireId : Bool)
  /-- CONFIG_ACK (R366): A CONFIG_ACK reaches the root, which completes discovery once every found device has acknowledged. -/
  | configAck (p : Nat) (serial : W64) (devid : Nat)
  /-- CONFIG_TIMEOUT (R366): 10 ms after CONFIG the root completes its discovery command with the acknowledgements received. -/
  | configTimeout
  /-- LINK_DOWN (R356): A LINK_DOWN flood records a broken link in FAB_BROKEN and reroutes the ring. -/
  | linkDown (p dim coord : Nat)
  /-- LINK_UP (R356): A LINK_UP flood clears the broken-link record. -/
  | linkUp (p dim coord : Nat)
  /-- WITNESS (R373): A WITNESS report is merged into a held report or forwarded toward the collector. -/
  | witness (p : Nat) (r : WitnessRec)
  /-- WITNESS_HOLD_EXPIRY (R373): A report held for 10 µs is forwarded with its merged count and evidence. -/
  | witnessHoldExpiry (i : Nat)
  /-- WITNESS_COLLECT_EXPIRY (R374): 1.5 ms after a suspect's first report the collector writes one merged error-log record and raises WITNESS. -/
  | witnessCollectExpiry (i : Nat)
  /-- ID_CHALLENGE (R439): An ID_CHALLENGE asks the peer to prove its identity and is answered with ID_PROOF. -/
  | idChallenge (p : Nat) (nonce : List Byte) (serial : W64)
  /-- ID_PROOF (R439): An ID_PROOF is checked and returns the port to UP or puts it in QUARANTINE. -/
  | idProof (p : Nat) (proof : List Byte) (serial : W64)
  /-- ID_EXCHANGE_TIMEOUT (R440): A proof not complete 200 ms after the challenge quarantines the port. -/
  | idExchangeTimeout (p : Nat)
  /-- ESTIMATION_PERIOD (R381): Every 2,048 NCLK cycles the estimator forms P and Pd and the device sets the next bubble count. -/
  | estimationPeriod
  /-- FIXED_BREAK (R380): In fixed mode, 64 periods at k = 60 over the cap step the device down one point and set FIXBROKEN. -/
  | fixedBreak
  /-- OP_TARGET_SET (R385): Within 10 µs of a cap, OP or FIXED change the MP sets a new target point and starts a move. -/
  | opTargetSet
  /-- OP_REEVALUATE (R385): Every 100 µs the MP re-evaluates the target point and moves down or up one point. -/
  | opReevaluate
  /-- VDDC_SETTLED (R384): VDDC_BUSY_N rises and a move up raises the frequency at its boundary. -/
  | vddcSettled
  /-- VOLTAGE_MOVE_TIMEOUT (R448): VDDC_BUSY_N still low 500 µs after a VOUT_COMMAND makes the MP abandon the move. -/
  | voltageMoveTimeout
  /-- PWR_CAP_WRITE (R386): A write of PWR_CAP sets the host cap within 220–700 W, or is ignored as a violation. -/
  | pwrCapWrite (a : Agent) (v : W32)
  /-- PWR_BUDGET_WRITE (R386): A write of PWR_BUDGET by a budget path sets the rack cap, and by the host is ignored as a violation. -/
  | pwrBudgetWrite (a : Agent) (v : W32)
  /-- PWR_OP_CTRL_WRITE (R380): A write of PWR_OP_CTRL sets the highest point, fixed mode and boost. -/
  | pwrOpCtrlWrite (a : Agent) (v : W32)
  /-- PWR_ALERT (R389): PWR_ALERT_N asserting forces OP7's frequency and 48 bubbles within 100 ns. -/
  | pwrAlert
  /-- ALERT_HOLD_EXPIRY (R389): 1 ms after PWR_ALERT_N is released the forced state ends and bubbles follow the usual rule. -/
  | alertHoldExpiry
  /-- THERMAL_STEP (R390): A sensor reaching 105 °C steps the device down one point at the next period boundary. -/
  | thermalStep (sensor reading : Nat)
  /-- THERMAL_REPEAT (R390): Each 1 ms that a sensor stays at or above 105 °C steps down again or raises the thermal floor at OP7. -/
  | thermalRepeat (sensor reading : Nat)
  /-- THERMAL_CLEAR (R390): Every sensor reading below 102 °C clears THERMAL and the thermal floor. -/
  | thermalClear (sensor reading : Nat)
  /-- THERMTRIP (R391): A sensor reaching 115 °C asserts THERMTRIP_N, stops the clocks and drives VR_EN low. -/
  | thermtrip (sensor reading : Nat)
  /-- ROPE_FORM (R394): A ROPE_FORM reaches the lowest listed device, which becomes leader once every member's form has arrived. -/
  | ropeForm (f : RopeForm)
  /-- ROPE_SYNC (R395): A ROPE_SYNC marks a member's epoch boundary, sets the rope point and completes a pending join. -/
  | ropeSync (h : PaceHdr) (epoch point members : Nat)
  /-- ROPE_EPOCH_TICK (R395): Every 1 ms the leader floods ROPE_SYNC with the next epoch number. -/
  | ropeEpochTick
  /-- PACE_DOWN (R396): A received PACE_DOWN lowers the member to the named point at the next 48-pulse boundary. -/
  | paceDown (h : PaceHdr) (point cause : Nat)
  /-- PACE_VOTE (R399): A PACE_VOTE gives a member's permitted point for an epoch to the leader. -/
  | paceVote (h : PaceHdr) (epoch point : Nat)
  /-- VOTE_EXAMINE (R399): 300 µs after its boundary the leader examines votes and floods PACE_UP when the rope may rise. -/
  | voteExamine
  /-- PACE_UP (R399): A PACE_UP makes a member raise its voltage and then its frequency after the named epoch boundary. -/
  | paceUp (h : PaceHdr) (epoch point : Nat)
  /-- PACE_FLOOR (R398): A PACE_FLOOR sets or clears the floor that stops the rope rising. -/
  | paceFloor (h : PaceHdr) (set : Bool)
  /-- ROPE_LEAVE_MSG (R400): A ROPE_LEAVE message removes a member from the leader's count. -/
  | ropeLeaveMsg (h : PaceHdr)
  /-- ROPE_DROP (R400): A ROPE_DROP removes a device from the rope, which sets DROPPED and returns to local control. -/
  | ropeDrop (h : PaceHdr) (device : Nat)
  /-- ROPE_REFUSE (R394): A ROPE_REFUSE flood makes every joiner complete ROPE_REFUSED. -/
  | ropeRefuse (h : PaceHdr) (reason : Nat)
  /-- ROPE_CAP_MOVE (R397): A member with bubbles at every boundary for 1 ms moves to its chosen point and floods PACE_DOWN. -/
  | ropeCapMove
  /-- MEMBER_DROP (R400): A member's vote missing for 16 consecutive epochs makes the leader flood ROPE_DROP. -/
  | memberDrop (device : Nat)
  /-- LEADER_LOST (R400): No ROPE_SYNC for 4 ms makes a member take the leader as lost, and the lowest such member leads. -/
  | leaderLost
  /-- ROPE_JOIN_TIMEOUT (R394): A join still incomplete after 100 ms completes with FABRIC_UNREACHABLE. -/
  | ropeJoinTimeout
  /-- HEARTBEAT_POLL (R405): Every POLL_US a command processor polls each core it has dispatched to and the core's responder answers. -/
  | heartbeatPoll (cp c : Nat) (answered : Bool)
  /-- HEARTBEAT_MISS (R405): A core missing MISS consecutive polls is fenced. -/
  | heartbeatMiss (c : Nat) (spare : Option Nat)
  /-- CORE_FENCE (R406): A core is fenced: clock gated, mesh port closed, mapping updated, a spare chosen and records logged. -/
  | coreFence (c cause : Nat) (spare : Option Nat)
  /-- SPARE_IN_SERVICE (R406): A spare is powered, cleared and quick-tested and enters service with the fenced core's logical number. -/
  | spareInService (c : Nat) (pass : Bool)
  /-- CAIRN_PROGRAM (R407): The MP programs the fenced core's cairn record into OTP. -/
  | cairnProgram (c : Nat)
  /-- CP_WATCHDOG_EXPIRY (R415): A command processor that fails to write its watchdog for 100 µs is replaced. -/
  | cpWatchdogExpiry (cp : Nat)
  /-- MP_FAULT (R402): An uncorrectable MP memory word stops the MP, which is reset and reloads its firmware or FAULTED follows. -/
  | mpFault (event : MpEvent)
  /-- PATROL_SCRUB_ROW (R403): A patrol engine reads a row in an idle cycle, corrects it and writes it back. -/
  | patrolScrubRow (where_ : PatrolRow)
  /-- PATROL_OVERRUN (R403): A patrol sweep not finished within its period is logged once. -/
  | patrolOverrun (engine age : Nat)
  /-- TEL_SNAP (R422): A write to TEL_SNAP copies the live state of each selected channel into its readable registers. -/
  | telSnap (a : Agent) (v : W32)
  /-- TEL_CH_CFG_WRITE (R421): A write of a channel's configuration sets source, instance, shift and enable, ignored while enabled or with decreasing edges. -/
  | telChCfgWrite (a : Agent) (ch : Nat) (v : W32)
  /-- TEL_CH_CLR (R421): A write of CLR resets a channel's live minimum, maximum, count and bins. -/
  | telChClr (a : Agent) (ch : Nat)
  /-- RAS_VIOL_CLR (R419): A write to RAS_VIOL_CLR clears the counters of the selected violation classes. -/
  | rasViolClr (a : Agent) (v : W32)
  /-- SYS_RST_ASSERT (R425): SYS_RST_N asserting starts a cold reset of all four dies. -/
  | sysRstAssert
  /-- SYS_RST_RELEASE (R444): SYS_RST_N rising takes the management die out of reset and the device into BOOT. -/
  | sysRstRelease (recoveryLow conditionsMet : Bool)
  /-- PERST_ASSERT (R425): PERST_N asserting starts a warm reset of the link and compute dies. -/
  | perstAssert
  /-- PERST_RELEASE (R431): PERST_N releasing starts warm-reset recovery through the boot steps. -/
  | perstRelease
  /-- VR_PG_RISE (R444): A regulator group's power-good rises and the MP enables the next group. -/
  | vrPgRise (k : Nat)
  /-- VR_PG_FALL (R445): A power-good falling while its group is enabled drives VR_EN low and causes a cold reset. -/
  | vrPgFall (k : Nat)
  /-- REFCLK_LOSS (R450): REFCLK stopping or leaving ±1,000 ppm for over 1 µs stops every clock and holds the device in cold reset. -/
  | refclkLoss
  /-- ROOT_PLL_LOCK (R376): The root PLL locks and every other clock starts. -/
  | rootPllLock (otpOk : Bool)
  /-- MEMORY_TRAINING_DONE (R316): GDDR6 or DDR5 training ends, with tier 1 failure leading to FAULTED and tier 2 failure disabling it. -/
  | memoryTrainingDone (r : TrainResult)
  /-- ATTEST_KEY_READY (R431): On a cold boot the attestation key pair and certificate are generated. -/
  | attestKeyReady
  /-- DRIVE_BRINGUP_END (R324): NVMe bring-up ends after drives come ready or 3 s pass, and C3 is computed. -/
  | driveBringupEnd (drives : List Drive)
  /-- RECOVERY_IMAGE (R432): In recovery an image received on the USB bulk-out endpoint is verified and run, or refused with AUTH_FAILED. -/
  | recoveryImage (image : List Byte)
  /-- PWR_ALERT_RELEASE (R389): PWR_ALERT_N rising starts the 1 ms hold of the forced state. -/
  | pwrAlertRelease
  /-- PACKAGE_POWER_LOSS (R425): Loss of package power, as after THERMTRIP_N when the board removes VDD_MD and VDD_IO18, causes a cold reset and the device goes OFF. -/
  | packagePowerLoss
  /-- CODEWORD_SIDEBAND (R343): A codeword's sideband delivers ACK and returned CREDITS, freeing retry-buffer frames and crediting the sender's buffer. -/
  | codewordSideband (p : Nat) (ack : Nat) (crclass credits : Nat)
  /-- PCIE_LINK_DOWN (R458): The host PCIe link goes down, so completion writes fail and host mailbox sends time out. -/
  | pcieLinkDown
  /-- PCIE_LINK_UP (R3): The PCIe endpoint completes link training and BAR0 becomes reachable. -/
  | pcieLinkUp
  /-- PCIE_CONFIG_WRITE (R458): A host configuration write changes Bus Master Enable or the function's D-state, which decides whether completion writes and host mailbox sends can proceed. -/
  | pcieConfigWrite (busMaster d0 d3hot : Bool)
  /-- USB_CONFIGURATION_CHANGE (R285): The service port's USB link is configured, suspended or resumed by its host. -/
  | usbConfigurationChange (configured suspended : Bool)
  /-- PORT_SIGNAL_RETURN (R339): Signal returns on a DOWN or LOST fabric port, whose peer is back, and the port starts training. -/
  | portSignalReturn (p : Nat)
  /-- WITNESS_WINDOW_EXPIRY (R372): A witness's 1 ms report window for a suspect ends, and the evidence bits gained in the window are reported. -/
  | witnessWindowExpiry (i : Nat)
  deriving DecidableEq, Repr

end Sys2Proof
end

