-- ==== Sys2Proof/Machine/Flags.lean ====
section
/-!
DEFINITION. The computations on values: accumulators and their specials (R36 to R39), scales (R42 to R46),
truncation toward zero (R49), the boundary formats (R47, R48), the log-sum correction (R92, R93), the stream
generators (R110, R111), the CRC of R72, ternary forms (R31, R32), and the atomic additions (R105).

Every function works on exact integers and narrows once, at the end.
-/

namespace Sys2Proof.Machine

/-! ## Truncation -/

/-- `x * 2^e`, truncated toward zero when it drops bits (R49). -/
def truncScale (x e : Int) : Int :=
  if 0 ≤ e then x * 2 ^ e.toNat else Int.tdiv x (2 ^ (-e).toNat)

/-- The two's-complement value of the low `w` bits of `n`. -/
def signed (w n : Nat) : Int :=
  if n % 2 ^ w < 2 ^ (w - 1) then ((n % 2 ^ w : Nat) : Int) else ((n % 2 ^ w : Nat) : Int) - ((2 ^ w : Nat) : Int)

/-- The low `w` bits of an integer, as a natural number. -/
def unsignedBits (w : Nat) (x : Int) : Nat := (x % (2 : Int) ^ w).toNat

/-- Bits `[hi:lo]` of a 64-bit word. -/
def field (w : W64) (hi lo : Nat) : Nat := w.toNat / 2 ^ lo % 2 ^ (hi + 1 - lo)

/-- Bits `[hi:lo]` of a natural number. -/
def bitsOf (n hi lo : Nat) : Nat := n / 2 ^ lo % 2 ^ (hi + 1 - lo)

/-- Bits `[hi:lo]` of a 32-bit register. -/
def regField (w : W32) (hi lo : Nat) : Nat := w.toNat / 2 ^ lo % 2 ^ (hi + 1 - lo)

/-- The register with bits `[hi:lo]` replaced. -/
def setField (w : W32) (hi lo v : Nat) : W32 :=
  BitVec.ofNat 32 (w.toNat - regField w hi lo * 2 ^ lo + v % 2 ^ (hi + 1 - lo) * 2 ^ lo)

/-- `⌈a / b⌉`. -/
def ceilDiv (a b : Nat) : Nat := (a + b - 1) / b

/-- The value is `2^k` for some `k`. -/
def isPow2 (n : Nat) : Bool := n != 0 && 2 ^ Nat.log2 n == n

/-! ## Accumulators -/

/-- The value of an accumulator: a finite integer or one of the three specials (R36). -/
inductive AV where
  | fin (v : Int)
  | pinf
  | ninf
  | nas
  deriving DecidableEq, Repr

/-- The largest finite value of a `w`-bit accumulator (R36). -/
def accMax (w : Nat) : Int := 2 ^ (w - 1) - 2

/-- A value entering a `w`-bit accumulator: outside the finite range it is the infinity of its sign (R37). -/
def accFit (w : Nat) (v : Int) : AV :=
  if accMax w < v then .pinf else if v < -accMax w then .ninf else .fin v

/-- The code of a value in a `w`-bit accumulator (R36). -/
def accCode (w : Nat) : AV → Nat
  | .fin v => unsignedBits w v
  | .pinf => 2 ^ (w - 1) - 1
  | .ninf => 2 ^ (w - 1) + 1
  | .nas => 2 ^ (w - 1)

/-- The value a `w`-bit code stands for (R36). -/
def accValue (w n : Nat) : AV :=
  if n % 2 ^ w = 2 ^ (w - 1) then .nas
  else if n % 2 ^ w = 2 ^ (w - 1) - 1 then .pinf
  else if n % 2 ^ w = 2 ^ (w - 1) + 1 then .ninf
  else .fin (signed w n)

/-- Accumulator addition (R37). -/
def accAdd (w : Nat) : AV → AV → AV
  | .nas, _ => .nas
  | _, .nas => .nas
  | .pinf, .ninf => .nas
  | .ninf, .pinf => .nas
  | .pinf, _ => .pinf
  | _, .pinf => .pinf
  | .ninf, _ => .ninf
  | _, .ninf => .ninf
  | .fin a, .fin b => accFit w (a + b)

/-- A value converted to a `w`-bit accumulator (R39). -/
def accConvert (w : Nat) : AV → AV
  | .fin v => accFit w v
  | x => x

/-- The value negated (R134). -/
def AV.neg : AV → AV
  | .fin v => .fin (-v)
  | .pinf => .ninf
  | .ninf => .pinf
  | .nas => .nas

/-- The value is a special. -/
def AV.isSpecial : AV → Bool
  | .fin _ => false
  | _ => true

/-- A value at binary point `b` re-expressed at `b'`, in a `w`-bit accumulator (R87, R457): a left shift may leave the
finite range, a right shift truncates. -/
def accRepoint (w : Nat) (b b' : Int) : AV → AV
  | .fin v => accFit w (truncScale v (b - b'))
  | x => x

/-- The order of R91: `-INF` below every finite value below `+INF`; `NAS` is not ranked. -/
def avLt : AV → AV → Bool
  | .ninf, .ninf => false
  | .ninf, _ => true
  | .fin _, .ninf => false
  | .fin a, .fin b => decide (a < b)
  | .fin _, _ => true
  | _, _ => false

/-! ## Scales -/

/-- The exponent of a scale container (R42). -/
def scaleExp (c : Nat) : Nat := c / 256 % 256
/-- The mantissa of a scale container (R42). -/
def scaleMant (c : Nat) : Nat := c / 16 % 16
/-- The container passes R43 for an SC12 scale: low bits zero, exponent not 0xFF. -/
def scaleOk (c : Nat) : Bool := c % 16 == 0 && scaleExp c != 255
/-- The container passes R43 for an SC8 scale: the mantissa is zero too. -/
def scaleOk8 (c : Nat) : Bool := scaleOk c && scaleMant c == 0

/-- The group partial of tally `t` (R44): exact product, one shift, one truncation; 0 under a zero exponent. -/
def partialTerm (t : Int) (cw ca : Nat) (tbp : Int) : Int :=
  if scaleExp cw = 0 ∨ scaleExp ca = 0 then 0
  else truncScale (t * (16 + scaleMant cw))
    (((scaleExp cw : Int) - 127) + ((scaleExp ca : Int) - 127) - tbp - 4)

/-! ## Binary32 and BF16

A dyadic value is `m * 2^e`. -/

/-- A dyadic value truncated toward zero to binary32; beyond the largest finite value it is that value (R48). -/
def fp32OfDyadic (m e : Int) : Nat :=
  let s := if m < 0 then 2 ^ 31 else 0
  let n := m.natAbs
  if n = 0 then 0
  else
    let len : Int := Nat.log2 n
    let ex := len + e
    if 127 < ex then s + 0x7f7fffff
    else if -126 ≤ ex then
      let f := (truncScale n (23 - len)).toNat
      s + (ex + 127).toNat * 2 ^ 23 + (f - 2 ^ 23)
    else s + (truncScale n (e + 149)).toNat

/-- The fraction and exponent of a finite binary32 code. -/
def fp32Dyadic (n : Nat) : Int × Int :=
  let ex : Nat := n / 2 ^ 23 % 256
  let f : Int := if ex = 0 then ((n % 2 ^ 23 : Nat) : Int) else ((n % 2 ^ 23 + 2 ^ 23 : Nat) : Int)
  (if n / 2 ^ 31 % 2 = 1 then -f else f, if ex = 0 then -149 else (ex : Int) - 150)

/-- The code is a NaN. -/
def fp32Nan (n : Nat) : Bool := n / 2 ^ 23 % 256 == 255 && n % 2 ^ 23 != 0
/-- The code is an infinity. -/
def fp32Inf (n : Nat) : Bool := n % 2 ^ 31 == 0x7f800000
/-- The code is a zero of either sign. -/
def fp32Zero (n : Nat) : Bool := n % 2 ^ 31 == 0

/-- Sum of two dyadic values. -/
def dyAdd (a b : Int × Int) : Int × Int :=
  let e := min a.2 b.2
  (a.1 * 2 ^ (a.2 - e).toNat + b.1 * 2 ^ (b.2 - e).toNat, e)

/-- Binary32 addition truncated toward zero (R105). The NaN it returns is free (log 9). -/
def fp32Add (a b : Nat) : Nat :=
  if fp32Nan a ∨ fp32Nan b ∨ (fp32Inf a ∧ fp32Inf b ∧ a ≠ b) then
    (Config.nanResult (BitVec.ofNat 32 a) (BitVec.ofNat 32 b)).toNat
  else if fp32Inf a then a
  else if fp32Inf b then b
  else if fp32Zero a ∧ fp32Zero b then (if a = b then a else 0)
  else
    let d := dyAdd (fp32Dyadic a) (fp32Dyadic b)
    fp32OfDyadic d.1 d.2

/-- Binary32 division of finite codes, truncated toward zero (R100); the divisor is not zero. -/
def fp32Div (a b : Nat) : Nat :=
  let x := fp32Dyadic a
  let y := fp32Dyadic b
  fp32OfDyadic (Int.tdiv (x.1 * 2 ^ 64) y.1) (x.2 - y.2 - 64)

/-- A finite binary32 code times `2^k`, under the range rules of R48 (R100). -/
def fp32Scale (a : Nat) (k : Int) : Nat :=
  let x := fp32Dyadic a
  fp32OfDyadic x.1 (x.2 + k)

/-- A binary32 code truncated toward zero to an integer. -/
def fp32Trunc (a : Nat) : Int :=
  let x := fp32Dyadic a
  truncScale x.1 x.2

/-- The source codes of R47: BF16 widened to binary32. -/
def bf16Widen (n : Nat) : Nat := n % 2 ^ 16 * 2 ^ 16

/-! ## Output formats -/

/-- The FMT codes (R23). -/
abbrev fmtUint : Nat := 0
abbrev fmtSint : Nat := 1
abbrev fmtBin : Nat := 2
abbrev fmtTern : Nat := 3
abbrev fmtScBip : Nat := 4
abbrev fmtScUni : Nat := 5
abbrev fmtBf16 : Nat := 8
abbrev fmtFp32 : Nat := 9
abbrev fmtAcc16 : Nat := 10
abbrev fmtAcc32 : Nat := 11
abbrev fmtAcc64 : Nat := 12

/-- The code is not reserved (R23). -/
def fmtKnown (f : Nat) : Bool := f < 6 || (8 ≤ f && f < 13)

/-- The width field is one R23 allows for the format. -/
def widthOk (f w : Nat) : Bool :=
  if f = fmtUint ∨ f = fmtScBip ∨ f = fmtScUni then decide (1 ≤ w ∧ w ≤ 16)
  else if f = fmtSint then decide (2 ≤ w ∧ w ≤ 16)
  else if f = fmtBin then w == 1
  else if f = fmtTern then w == 2
  else fmtKnown f && w == 0

/-- Bits of an element of a format. -/
def fmtBits (f w : Nat) : Nat :=
  if f = fmtBin then 1 else if f = fmtTern then 2 else if f = fmtBf16 ∨ f = fmtAcc16 then 16
  else if f = fmtFp32 ∨ f = fmtAcc32 then 32 else if f = fmtAcc64 then 64 else w

/-- The largest and smallest output values (R40), for an integer format. -/
def outMax (f w : Nat) : Int :=
  if f = fmtUint then 2 ^ w - 1 else if f = fmtSint then 2 ^ (w - 1) - 1 else 1
def outMin (f w : Nat) : Int :=
  if f = fmtUint then 0 else if f = fmtSint then -(2 ^ (w - 1)) else -1

/-- What one value becomes on its way out: its bits, whether it clipped, whether it was a special. -/
structure Out1 where
  bits : Nat
  clip : Bool
  special : Bool
  deriving DecidableEq, Repr

/-- An integer value in an integer, BIN or TERN format, clamped (R41, R141). -/
def clampOut (f w : Nat) (y : Int) : Out1 :=
  if f = fmtBin then ⟨if 0 ≤ y then 1 else 0, false, false⟩
  else
    let hi := outMax f w
    let lo := outMin f w
    let z := if hi < y then hi else if y < lo then lo else y
    ⟨unsignedBits (fmtBits f w) z, decide (z ≠ y), false⟩

/-- `|m * 2^e|` exceeds the integer `x`. -/
def magExceeds (m e : Int) (x : Nat) : Bool :=
  if 0 ≤ e then decide (x < m.natAbs * 2 ^ e.toNat) else decide (x * 2 ^ (-e).toNat < m.natAbs)

/-- An output scale applied to a value at `tbp`, into binary32 or BF16 (R48). -/
def floatOut (f : Nat) (v : Int) (scale : Nat) (tbp : Int) : Out1 :=
  let m := v * (16 + scaleMant scale)
  let e := (scaleExp scale : Int) - 127 + tbp - 4
  let n := fp32OfDyadic m e
  if f = fmtBf16 then ⟨n / 2 ^ 16, magExceeds m e ((2 ^ 8 - 1) * 2 ^ 120), false⟩
  else ⟨n, magExceeds m e ((2 ^ 24 - 1) * 2 ^ 104), false⟩

/-- The requantiser on one value (R40, R140, R141): scale, one truncation, clamp; specials by the table of R40. -/
def requantise (f w scale : Nat) (tbp : Int) : AV → Out1
  | .fin v =>
    if f = fmtBf16 ∨ f = fmtFp32 then floatOut f v scale tbp
    else clampOut f w (truncScale (v * (16 + scaleMant scale)) ((scaleExp scale : Int) - 127 + tbp - 4))
  | .pinf => ⟨if f = fmtBf16 then 0x7f7f else if f = fmtFp32 then 0x7f7fffff
      else if f = fmtBin then 1 else unsignedBits (fmtBits f w) (outMax f w), false, true⟩
  | .ninf => ⟨if f = fmtBf16 then 0xff7f else if f = fmtFp32 then 0xff7fffff
      else if f = fmtBin then 0 else unsignedBits (fmtBits f w) (outMin f w), false, true⟩
  | .nas => ⟨if f = fmtBin then 1 else 0, false, true⟩

/-- Input quantisation of a binary32 code (R47): the exact difference truncated to binary32, scaled, truncated,
clamped. `special` says that the input was a NaN (NONFINITE). -/
def quantise (f w ea : Nat) (off : Nat) (x : Nat) : Out1 :=
  if fp32Nan x then ⟨0, false, true⟩
  else if fp32Inf x then
    let neg := x / 2 ^ 31 % 2 = 1
    if f = fmtBin then ⟨if neg then 0 else 1, true, false⟩
    else ⟨unsignedBits (fmtBits f w) (if neg then outMin f w else outMax f w), true, false⟩
  else
    let o := fp32Dyadic off
    let d := dyAdd (fp32Dyadic x) (-o.1, o.2)
    let n := fp32Dyadic (fp32OfDyadic d.1 d.2)
    if f = fmtBin then ⟨if 0 ≤ n.1 then 1 else 0, false, false⟩
    else clampOut f w (truncScale n.1 (n.2 + 127 - ea))

/-- Dequantisation of an integer under a group record into binary32 or BF16 (R151). -/
def dequantise (f : Nat) (q : Int) (r : Nat) : Nat :=
  let off := bf16Widen r
  let n :=
    if r / 2 ^ 24 % 256 = 0 then off
    else
      let p := fp32OfDyadic (q * ((16 + r / 2 ^ 20 % 16 : Nat) : Int)) (((r / 2 ^ 24 % 256 : Nat) : Int) - 127 - 4)
      let d := dyAdd (fp32Dyadic p) (fp32Dyadic off)
      if fp32Zero p ∧ fp32Zero off then p else fp32OfDyadic d.1 d.2
  if f = fmtBf16 then n / 2 ^ 16 else n

/-! ## Group records -/

/-- The record passes R43, R45 and R46: reserved bits zero, exponent not 0xFF, OFFSET no BF16 NaN or infinity; in
symmetric mode a zero OFFSET outside a zero-range group; `sc8` asks for a zero mantissa. -/
def recordOk (sc8 asym : Bool) (r : Nat) : Bool :=
  let exp : Nat := r / 2 ^ 24 % 256
  let off : Nat := r % 2 ^ 16
  r / 2 ^ 16 % 16 == 0 && exp != 255 && off / 2 ^ 7 % 256 != 255 && (asym || exp == 0 || off % 2 ^ 15 == 0)
    && (!sc8 || r / 2 ^ 20 % 16 == 0)

/-- Re-encoding of a zero-range group (R129, R130): the element and the container; `none` is METADATA_INVALID. `act`
names an activation, `xnor` BIN under XNOR-popcount (whose elements R130 leaves alone in its two zero cases: the
Bool says that the elements are rewritten). -/
def reencode (act xnor : Bool) (f w : Nat) (off : Nat) : Option (Int × Nat × Bool) :=
  let sgn := off / 2 ^ 15 % 2 = 1
  let e : Int := ((off / 2 ^ 7 % 256 : Nat) : Int)
  let fr : Int := ((off % 2 ^ 7 : Nat) : Int)
  let zero : Option (Int × Nat × Bool) := some (0, if xnor then 0x0000 else 0x7f00, !xnor)
  let one : Int := if sgn then -1 else 1
  if f = fmtScBip ∨ f = fmtScUni then none
  else if e = 0 then zero
  else if !act then
    if f = fmtUint ∧ sgn then none
    else some (one, (e * 256).toNat + (fr / 8).toNat * 16, true)
  else if f = fmtBin then some (one, (e * 256).toNat, true)
  else
    let k : Int := if f = fmtUint then (w : Int) - 1 else (w : Int) - 2
    if e - k < 1 then zero
    else if f = fmtUint ∧ sgn then none
    else some (one * truncScale (128 + fr) (k - 7), ((e - k) * 256).toNat, true)

/-! ## Log-sum (R92, R93) -/

/-- Entries 0 to 63 of E. -/
def expRom0 : List Nat := [
  8388608, 8258245, 8129302, 8001778, 7875672, 7750983, 7627710, 7505850,
  7385401, 7266361, 7148727, 7032497, 6917666, 6804231, 6692187, 6581531,
  6472258, 6364362, 6257839, 6152683, 6048888, 5946448, 5845356, 5745607,
  5647192, 5550105, 5454339, 5359885, 5266736, 5174883, 5084319, 4995034,
  4907021, 4820269, 4734769, 4650513, 4567491, 4485692, 4405107, 4325727,
  4247540, 4170536, 4094704, 4020035, 3946517, 3874140, 3802892, 3732762,
  3663739, 3595812, 3528969, 3463200, 3398491, 3334833, 3272213, 3210619,
  3150040, 3090464, 3031880, 2974275, 2917638, 2861956, 2807218, 2753413]

/-- Entries 64 to 127 of E. -/
def expRom1 : List Nat := [
  2700528, 2648552, 2597472, 2547277, 2497955, 2449495, 2401885, 2355113,
  2309167, 2264036, 2219709, 2176174, 2133420, 2091435, 2050209, 2009729,
  1969985, 1930966, 1892661, 1855059, 1818149, 1781921, 1746364, 1711468,
  1677221, 1643614, 1610637, 1578279, 1546531, 1515382, 1484822, 1454843,
  1425434, 1396585, 1368289, 1340534, 1313312, 1286614, 1260431, 1234755,
  1209575, 1184884, 1160674, 1136935, 1113660, 1090840, 1068467, 1046534,
  1025032, 1003954, 983292, 963038, 943186, 923727, 904655, 885962,
  867642, 849688, 832093, 814850, 797952, 781394, 765168, 749269]

/-- Entries 128 to 191 of E. -/
def expRom2 : List Nat := [
  733691, 718427, 703471, 688818, 674462, 660397, 646617, 633118,
  619893, 606937, 594246, 581814, 569635, 557706, 546021, 534576,
  523365, 512384, 501629, 491096, 480779, 470674, 460778, 451086,
  441595, 432299, 423196, 414281, 405551, 397002, 388630, 380432,
  372404, 364543, 356846, 349309, 341929, 334702, 327626, 320698,
  313915, 307273, 300770, 294403, 288169, 282065, 276089, 270239,
  264511, 258903, 253413, 248038, 242776, 237625, 232582, 227645,
  222811, 218080, 213448, 208913, 204474, 200129, 195875, 191711]

/-- Entries 192 to 255 of E. -/
def expRom3 : List Nat := [
  187634, 183644, 179738, 175914, 172172, 168508, 164922, 161411,
  157975, 154611, 151319, 148096, 144942, 141854, 138832, 135874,
  132978, 130144, 127370, 124654, 121997, 119395, 116849, 114357,
  111918, 109531, 107194, 104907, 102669, 100478, 98333, 96235,
  94181, 92170, 90202, 88277, 86392, 84547, 82741, 80974,
  79245, 77552, 75896, 74274, 72688, 71135, 69615, 68127,
  66671, 65247, 63852, 62487, 61152, 59845, 58565, 57313,
  56088, 54889, 53715, 52567, 51443, 50343, 49266, 48213]

/-- Entries 256 to 319 of E. -/
def expRom4 : List Nat := [
  47182, 46173, 45185, 44219, 43273, 42347, 41441, 40555,
  39687, 38838, 38007, 37194, 36398, 35619, 34857, 34111,
  33381, 32667, 31968, 31284, 30614, 29959, 29318, 28690,
  28076, 27475, 26887, 26312, 25749, 25197, 24658, 24130,
  23614, 23108, 22613, 22129, 21655, 21192, 20738, 20294,
  19860, 19434, 19018, 18611, 18212, 17823, 17441, 17067,
  16702, 16344, 15994, 15652, 15317, 14989, 14668, 14353,
  14046, 13745, 13451, 13163, 12881, 12605, 12335, 12071]

/-- Entries 320 to 383 of E. -/
def expRom5 : List Nat := [
  11812, 11559, 11312, 11069, 10832, 10600, 10373, 10151,
  9934, 9721, 9513, 9309, 9109, 8914, 8723, 8536,
  8354, 8175, 8000, 7828, 7660, 7496, 7336, 7179,
  7025, 6874, 6727, 6583, 6442, 6304, 6169, 6037,
  5907, 5781, 5657, 5536, 5417, 5301, 5187, 5076,
  4968, 4861, 4757, 4655, 4555, 4458, 4362, 4269,
  4177, 4088, 4000, 3914, 3831, 3749, 3668, 3590,
  3513, 3437, 3364, 3292, 3221, 3152, 3085, 3018]

/-- Entries 384 to 447 of E. -/
def expRom6 : List Nat := [
  2954, 2890, 2829, 2768, 2709, 2651, 2594, 2538,
  2484, 2431, 2378, 2328, 2278, 2229, 2181, 2134,
  2089, 2044, 2000, 1957, 1915, 1874, 1834, 1795,
  1756, 1719, 1682, 1646, 1610, 1576, 1542, 1509,
  1477, 1445, 1414, 1384, 1354, 1325, 1297, 1269,
  1242, 1215, 1189, 1164, 1139, 1114, 1090, 1067,
  1044, 1022, 1000, 978, 957, 937, 917, 897,
  878, 859, 841, 823, 805, 788, 771, 754]

/-- Entries 448 to 511 of E. -/
def expRom7 : List Nat := [
  738, 722, 707, 692, 677, 662, 648, 634,
  621, 607, 594, 582, 569, 557, 545, 533,
  522, 511, 500, 489, 478, 468, 458, 448,
  439, 429, 420, 411, 402, 394, 385, 377,
  369, 361, 353, 346, 338, 331, 324, 317,
  310, 303, 297, 291, 284, 278, 272, 266,
  261, 255, 250, 244, 239, 234, 229, 224,
  219, 214, 210, 205, 201, 197, 192, 188]

/-- E, the 512-entry ROM of R93: `trunc (log2 (1 + 2^(-i/32)) * 2^23)`. -/
def expRom : List Nat := expRom0 ++ expRom1 ++ expRom2 ++ expRom3 ++ expRom4 ++ expRom5 ++ expRom6 ++ expRom7

/-- `E[i]`, 0 at 512. -/
def expRomAt (i : Nat) : Nat := expRom.getD i 0

/-- The top and the bottom of the Q8.16 range. -/
def q816Max : Int := 2 ^ 24 - 1
def q816Min : Int := -(2 ^ 24)

/-- The correction `c(d)` of R93 for a difference in Q8.16. -/
def logCorrection (d : Nat) : Int :=
  if 16 * 2 ^ 16 ≤ d then 0
  else
    let i : Nat := d / 2 ^ 11
    let f : Nat := d % 2 ^ 11
    let hi := expRomAt i
    (((hi - (hi - expRomAt (i + 1)) * f / 2048) / 2 ^ 7 : Nat) : Int)

/-- One addition of R93, with BOUND_EXCEEDED. -/
def logAdd (l t : Int) : Int × Bool :=
  let r := max l t + logCorrection (l - t).natAbs
  if q816Max < r then (q816Max, true) else (r, false)

/-- The Q8.16 term of a finite value (R92), with BOUND_EXCEEDED. -/
def logTerm (q : Int) (scale : Nat) (tbp : Int) : Int × Bool :=
  let t := truncScale (q * (16 + scaleMant scale)) ((scaleExp scale : Int) - 127 + tbp - 4 + 16)
  if q816Max < t then (q816Max, true) else if t < q816Min then (q816Min, true) else (t, false)

/-- `c(d)` of R93 interpolated from E in binary32 with truncation (R97), `d` a dyadic value not negative. The products
and the difference of R93 are formed exactly and truncated once. DEDUCED, log 11. -/
def logCorrectionFp (d : Int × Int) : Nat :=
  if 16 * 2 ^ 149 ≤ truncScale d.1 (d.2 + 149) then 0
  else
    let u := truncScale d.1 (d.2 + 5 + 149)
    let i := (u / 2 ^ 149).toNat
    let f := u % 2 ^ 149
    fp32OfDyadic ((expRomAt i : Int) * 2 ^ 149 - ((expRomAt i : Int) - expRomAt (i + 1)) * f) (-149 - 23)

/-- The combination of two segment results in binary32 (R97). -/
def logAddFp (a b : Nat) : Nat :=
  let x := fp32Dyadic a
  let y := fp32Dyadic b
  let d := dyAdd x (-y.1, y.2)
  let big := if 0 ≤ d.1 then a else b
  fp32Add big (logCorrectionFp (d.1.natAbs, d.2))

/-! ## Stream generators (R110, R111) -/

/-- The degree, the coefficient bits A and the first values of a Sobol dimension. -/
def sobolSeed : Nat → Nat × Nat × List Nat
  | 1 => (1, 0, [1])
  | 2 => (2, 1, [1, 3])
  | 3 => (3, 1, [1, 3, 1])
  | 4 => (3, 2, [1, 1, 1])
  | 5 => (4, 1, [1, 1, 3, 3])
  | 6 => (4, 4, [1, 3, 5, 13])
  | 7 => (5, 2, [1, 1, 5, 5, 17])
  | _ => (0, 0, [])

/-- The next value of the recurrence of R111, from the earlier values newest first. -/
def sobolNext (s a : Nat) (prev : List Nat) : Nat :=
  (List.range s).foldl
    (fun acc j =>
      let m := prev.getD j 0
      let bit := if j + 1 = s then 1 else a / 2 ^ (s - 2 - j) % 2
      acc ^^^ (2 ^ (j + 1) * bit * m) ^^^ (if j + 1 = s then m else 0)) 0

/-- `m_1` to `m_10` of a dimension. -/
def sobolM (d : Nat) : List Nat :=
  match sobolSeed d with
  | (0, _, _) => List.replicate 10 1
  | (s, a, init) =>
    ((List.range (10 - s)).foldl (fun acc _ => sobolNext s a acc :: acc) init.reverse).reverse

/-- A 16-bit value rotated left. -/
def rotl16 (v n : Nat) : Nat := v * 2 ^ (n % 16) % 2 ^ 16 + v / 2 ^ (16 - n % 16)

/-- The generator output at step `t` of dimension `d` under a seed (R110). -/
def sobolOut (seed d t : Nat) : Nat :=
  let m := sobolM d
  let x := (List.range 10).foldl
    (fun acc k => if t / 2 ^ k % 2 = 1 then acc ^^^ (m.getD k 0 * 2 ^ (15 - k)) else acc) 0
  x ^^^ rotl16 seed (2 * d)

/-- The threshold of a source value of width `w` (R34). -/
def streamThreshold (bip : Bool) (w n : Nat) : Nat :=
  if bip then ((signed w n + 2 ^ (w - 1)) * 2 ^ (16 - w)).toNat else n % 2 ^ w * 2 ^ (16 - w)

/-! ## CRC-32 (R72) -/

/-- One byte into the reflected CRC-32 of polynomial 0x04C1_1DB7. -/
def crcByte (crc : Nat) (b : Byte) : Nat :=
  (List.range 8).foldl (fun c _ => if c % 2 = 1 then (c / 2) ^^^ 0xEDB88320 else c / 2) (crc ^^^ b.toNat)

/-- The CRC-32 of a byte string. -/
def crc32 (bs : List Byte) : W32 := BitVec.ofNat 32 ((bs.foldl crcByte 0xFFFFFFFF) ^^^ 0xFFFFFFFF)

/-! ## Bytes -/

/-- The little-endian value of a byte string. -/
def leNat : List Byte → Nat
  | [] => 0
  | b :: bs => b.toNat + 256 * leNat bs

/-- The `n` low bytes of a value, little-endian. -/
def leBytes : Nat → Nat → List Byte
  | 0, _ => []
  | n + 1, v => BitVec.ofNat 8 v :: leBytes n (v / 256)

/-- Element `j` of width `w` of a packed row (R25): ascending from bit 0 of byte 0. -/
def packedAt (bs : List Byte) (w j : Nat) : Nat :=
  leNat (bs.drop (j * w / 8) |>.take (w / 8 + 2)) / 2 ^ (j * w % 8) % 2 ^ w

/-- A list of elements of width `w` packed under R25, the last byte filled with zeros. -/
def packBits (w : Nat) (vs : List Nat) : List Byte :=
  leBytes (ceilDiv (vs.length * w) 8) (vs.foldr (fun v acc => v % 2 ^ w + 2 ^ w * acc) 0)

/-! ## Ternary forms (R31, R32) -/

/-- Trit `j` of a TERN2 row; `none` for the code 0b10. -/
def tern2At (bs : List Byte) (j : Nat) : Option Int :=
  match packedAt bs 2 j with
  | 0 => some 0
  | 1 => some 1
  | 3 => some (-1)
  | _ => none

/-- Trit `j` of a TERN5 row of `k` trits; `none` for an invalid byte, or for a non-zero digit past the end in the last
byte. -/
def tern5At (bs : List Byte) (k j : Nat) : Option Int :=
  let b := (bs.getD (j / 5) 0).toNat
  let bad := 243 ≤ b ∨ (j / 5 = (k - 1) / 5 ∧ b / 3 ^ (k - (k - 1) / 5 * 5) ≠ 0)
  if bad then none
  else match b / 3 ^ (j % 5) % 3 with
    | 0 => some 0
    | 1 => some 1
    | _ => some (-1)

/-! ## Atomic operations (R105, R207) -/

/-- The operations of the atomic units, by their OP code (R334). -/
inductive AtomOp where
  | add32
  | add64
  | accadd
  | fadd32
  | fetchAdd32
  | fetchAdd64
  | swap64
  | cas64
  | tset
  deriving DecidableEq, Repr

/-- The operation of an OP code; codes 9 to 15 are reserved. -/
def atomOp : Nat → Option AtomOp
  | 0 => some .add32
  | 1 => some .add64
  | 2 => some .accadd
  | 3 => some .fadd32
  | 4 => some .fetchAdd32
  | 5 => some .fetchAdd64
  | 6 => some .swap64
  | 7 => some .cas64
  | 8 => some .tset
  | _ => none

/-- Bytes of the target of an operation. -/
def atomBytes (op : AtomOp) (tw : Bool) : Nat :=
  match op with
  | .add32 | .fadd32 | .fetchAdd32 => 4
  | .accadd => if tw then 8 else 4
  | .tset => 1
  | _ => 8

/-- The new target value and the returned old value (R105, R207); TSET is applied by the ledge unit itself. -/
def atomApply (op : AtomOp) (sw tw : Bool) (old operand compare : Nat) : Nat × Nat :=
  match op with
  | .add32 => ((old + operand) % 2 ^ 32, 0)
  | .add64 => ((old + operand) % 2 ^ 64, 0)
  | .accadd =>
    let w := if tw then 64 else 32
    let v := accConvert w (accValue (if sw then 32 else 16) operand)
    (accCode w (accAdd w (accValue w old) v), 0)
  | .fadd32 => (fp32Add old (operand % 2 ^ 32), 0)
  | .fetchAdd32 => ((old + operand) % 2 ^ 32, old)
  | .fetchAdd64 => ((old + operand) % 2 ^ 64, old)
  | .swap64 => (operand, old)
  | .cas64 => (if old = compare then operand else old, old)
  | .tset => (old, 0)

/-! ## RLZ blocks (R156 to R158) -/

/-- A block of elements compressed: its header and its body (R157, R158); no body where every element is 0. -/
def rlzBlock (w : Nat) (vs : List Nat) : List Byte × List Byte :=
  let nz := (vs.filter (· != 0)).length
  let raw := decide (ceilDiv (vs.length * w) 8 < nz + ceilDiv (nz * w) 8)
  let hd := leBytes 4 (w * 2 ^ 16 + raw.toNat * 2 ^ 15 + nz)
  if raw then (hd, packBits w vs)
  else
    let runs := vs.foldl (fun (acc : List Nat × Nat) v => if v = 0 then (acc.1, acc.2 + 1) else (acc.1 ++ [acc.2], 0)) ([], 0)
    (hd, runs.1.map (BitVec.ofNat 8) ++ packBits w (vs.filter (· != 0)))

end Sys2Proof.Machine
end

