-- ==== Sys2Proof/Machine/RegMap.lean ====
section
/-!
DEFINITION. The register map (R451 and the register tables of every chapter): one row per register or array of
registers, with its access, its reset value and the masks of its writable and reserved fields; and one named
address per register. A register outside CORE is named by its BAR0 address, a register of CORE by its offset in the
block.
-/

namespace Sys2Proof.Machine

/-- The access codes of the register tables. -/
inductive Access where
  | ro
  | rw
  | wo
  | w1c
  | w1s
  | rc
  deriving DecidableEq, Repr

/-- A row of the register map: registers `base + s1 * i + 4 * j` for `i < n1`, `j < n2`. `wmask` holds the bits a write
reaches, `rsv` the reserved bits whose non-zero write counts a violation (R6). -/
structure RegRow where
  base : Nat
  n1 : Nat
  s1 : Nat
  n2 : Nat
  acc : Access
  reset : W32
  wmask : W32
  rsv : W32
  deriving DecidableEq, Repr

/-- The row covers the address. -/
def RegRow.covers (r : RegRow) (a : Nat) : Bool :=
  decide (r.base ≤ a) && (a - r.base) % 4 == 0 && decide ((a - r.base) / r.s1 < r.n1) &&
    decide ((a - r.base) % r.s1 / 4 < r.n2)

/-- GLB_ID, 00_scope.md R3. -/
abbrev GLB_ID : Nat := 0x0
/-- GLB_STEP, 00_scope.md R3. -/
abbrev GLB_STEP : Nat := 0x4
/-- GLB_SERIAL_LO, 00_scope.md R3. -/
abbrev GLB_SERIAL_LO : Nat := 0x8
/-- GLB_SERIAL_HI, 00_scope.md R3. -/
abbrev GLB_SERIAL_HI : Nat := 0xc
/-- GLB_CORES, 00_scope.md R3. -/
abbrev GLB_CORES : Nat := 0x10
/-- GLB_STATE, 12_command_reference.md R292. -/
abbrev GLB_STATE : Nat := 0x20
/-- GLB_SIZE_AM, 08_scratchpads.md R208. -/
abbrev GLB_SIZE_AM : Nat := 0x40
/-- GLB_SIZE_PM, 08_scratchpads.md R208. -/
abbrev GLB_SIZE_PM : Nat := 0x44
/-- GLB_SIZE_WM, 08_scratchpads.md R208. -/
abbrev GLB_SIZE_WM : Nat := 0x48
/-- GLB_SIZE_ACM, 08_scratchpads.md R208. -/
abbrev GLB_SIZE_ACM : Nat := 0x4c
/-- GLB_SIZE_LEDGE, 08_scratchpads.md R208. -/
abbrev GLB_SIZE_LEDGE : Nat := 0x50
/-- GLB_SIZE_MISC, 08_scratchpads.md R208. -/
abbrev GLB_SIZE_MISC : Nat := 0x54
/-- GLB_BMC_SQE[j], 12_command_reference.md R290. -/
abbrev GLB_BMC_SQE (j : Nat) : Nat := 0x100 + 4 * j
/-- GLB_BMC_CTRL, 12_command_reference.md R290. -/
abbrev GLB_BMC_CTRL : Nat := 0x140
/-- GLB_BMC_CQE[j], 12_command_reference.md R290. -/
abbrev GLB_BMC_CQE (j : Nat) : Nat := 0x150 + 4 * j
/-- GLB_BMC_STAT, 12_command_reference.md R290. -/
abbrev GLB_BMC_STAT : Nat := 0x160
/-- CMDQ_SQDB[i], 11_command_interface.md R286. -/
abbrev CMDQ_SQDB (i : Nat) : Nat := 0x100000 + 0x8 * i
/-- CMDQ_CQDB[i], 11_command_interface.md R286. -/
abbrev CMDQ_CQDB (i : Nat) : Nat := 0x100004 + 0x8 * i
/-- CMDQ_WIN, 11_command_interface.md R286. -/
abbrev CMDQ_WIN : Nat := 0x100800
/-- CMDQ_EVT, 11_command_interface.md R286. -/
abbrev CMDQ_EVT : Nat := 0x100804
/-- CMDQ_EVT_EN, 11_command_interface.md R286. -/
abbrev CMDQ_EVT_EN : Nat := 0x100808
/-- CMDQ_Q_CFG[i], 11_command_interface.md R286. -/
abbrev CMDQ_Q_CFG (i : Nat) : Nat := 0x101000 + 0x40 * i
/-- CMDQ_Q_STAT[i], 11_command_interface.md R286. -/
abbrev CMDQ_Q_STAT (i : Nat) : Nat := 0x101004 + 0x40 * i
/-- CMDQ_Q_PTR[i], 11_command_interface.md R286. -/
abbrev CMDQ_Q_PTR (i : Nat) : Nat := 0x101008 + 0x40 * i
/-- CMDQ_Q_IRQ[i], 11_command_interface.md R286. -/
abbrev CMDQ_Q_IRQ (i : Nat) : Nat := 0x10100c + 0x40 * i
/-- CMDQ_Q_SQBASE_LO[i], 11_command_interface.md R286. -/
abbrev CMDQ_Q_SQBASE_LO (i : Nat) : Nat := 0x101010 + 0x40 * i
/-- CMDQ_Q_SQBASE_HI[i], 11_command_interface.md R286. -/
abbrev CMDQ_Q_SQBASE_HI (i : Nat) : Nat := 0x101014 + 0x40 * i
/-- CMDQ_Q_CQBASE_LO[i], 11_command_interface.md R286. -/
abbrev CMDQ_Q_CQBASE_LO (i : Nat) : Nat := 0x101018 + 0x40 * i
/-- CMDQ_Q_CQBASE_HI[i], 11_command_interface.md R286. -/
abbrev CMDQ_Q_CQBASE_HI (i : Nat) : Nat := 0x10101c + 0x40 * i
/-- CMDQ_Q_PEER[i], 11_command_interface.md R286. -/
abbrev CMDQ_Q_PEER (i : Nat) : Nat := 0x101020 + 0x40 * i
/-- CMDQ_Q_QUOTA[i], 11_command_interface.md R286. -/
abbrev CMDQ_Q_QUOTA (i : Nat) : Nat := 0x101024 + 0x40 * i
/-- CMDQ_Q_USE[i], 11_command_interface.md R286. -/
abbrev CMDQ_Q_USE (i : Nat) : Nat := 0x101028 + 0x40 * i
/-- CMDQ_Q_REFUSED[i], 11_command_interface.md R286. -/
abbrev CMDQ_Q_REFUSED (i : Nat) : Nat := 0x10102c + 0x40 * i
/-- CMDQ_Q_CQSTALL[i], 11_command_interface.md R286. -/
abbrev CMDQ_Q_CQSTALL (i : Nat) : Nat := 0x101030 + 0x40 * i
/-- CMDQ_Q_MALFORMED[i], 11_command_interface.md R286. -/
abbrev CMDQ_Q_MALFORMED (i : Nat) : Nat := 0x101034 + 0x40 * i
/-- CMDQ_MSIX0[i], 11_command_interface.md R286. -/
abbrev CMDQ_MSIX0 (i : Nat) : Nat := 0x108000 + 0x10 * i
/-- CMDQ_MSIX1[i], 11_command_interface.md R286. -/
abbrev CMDQ_MSIX1 (i : Nat) : Nat := 0x108004 + 0x10 * i
/-- CMDQ_MSIX2[i], 11_command_interface.md R286. -/
abbrev CMDQ_MSIX2 (i : Nat) : Nat := 0x108008 + 0x10 * i
/-- CMDQ_MSIX3[i], 11_command_interface.md R286. -/
abbrev CMDQ_MSIX3 (i : Nat) : Nat := 0x10800c + 0x10 * i
/-- CMDQ_PBA[j], 11_command_interface.md R286. -/
abbrev CMDQ_PBA (j : Nat) : Nat := 0x109000 + 4 * j
/-- MBX_LOCK[i], 11_command_interface.md R286. -/
abbrev MBX_LOCK (i : Nat) : Nat := 0x200000 + 0x100 * i
/-- MBX_SEND[i], 11_command_interface.md R286. -/
abbrev MBX_SEND (i : Nat) : Nat := 0x200004 + 0x100 * i
/-- MBX_STAT[i], 11_command_interface.md R286. -/
abbrev MBX_STAT (i : Nat) : Nat := 0x200008 + 0x100 * i
/-- MBX_ACK[i], 11_command_interface.md R286. -/
abbrev MBX_ACK (i : Nat) : Nat := 0x20000c + 0x100 * i
/-- MBX_TMO[i], 11_command_interface.md R286. -/
abbrev MBX_TMO (i : Nat) : Nat := 0x200010 + 0x100 * i
/-- MBX_LATE[i], 11_command_interface.md R286. -/
abbrev MBX_LATE (i : Nat) : Nat := 0x200014 + 0x100 * i
/-- MBX_DATA[i][j], 11_command_interface.md R286. -/
abbrev MBX_DATA (i j : Nat) : Nat := 0x200040 + 0x100 * i + 4 * j
/-- PWR_CAP, 15_power.md R400. -/
abbrev PWR_CAP : Nat := 0x300000
/-- PWR_BUDGET, 15_power.md R400. -/
abbrev PWR_BUDGET : Nat := 0x300004
/-- PWR_CAP_STATUS, 15_power.md R400. -/
abbrev PWR_CAP_STATUS : Nat := 0x300008
/-- PWR_UNMET_CNT, 15_power.md R400. -/
abbrev PWR_UNMET_CNT : Nat := 0x30000c
/-- PWR_EST, 15_power.md R400. -/
abbrev PWR_EST : Nat := 0x300010
/-- PWR_DEMAND, 15_power.md R400. -/
abbrev PWR_DEMAND : Nat := 0x300014
/-- PWR_OP_CTRL, 15_power.md R400. -/
abbrev PWR_OP_CTRL : Nat := 0x300018
/-- PWR_OP_STAT, 15_power.md R400. -/
abbrev PWR_OP_STAT : Nat := 0x30001c
/-- PWR_FIXLOSS, 15_power.md R400. -/
abbrev PWR_FIXLOSS : Nat := 0x300020
/-- PWR_ALERTS, 15_power.md R400. -/
abbrev PWR_ALERTS : Nat := 0x300024
/-- PWR_THERM, 15_power.md R400. -/
abbrev PWR_THERM : Nat := 0x300028
/-- PWR_ROPE_STAT, 15_power.md R400. -/
abbrev PWR_ROPE_STAT : Nat := 0x300030
/-- PWR_ROPE_EPOCH, 15_power.md R400. -/
abbrev PWR_ROPE_EPOCH : Nat := 0x300034
/-- PWR_ROPE_LEADER, 15_power.md R400. -/
abbrev PWR_ROPE_LEADER : Nat := 0x300038
/-- PWR_ROPE_DOWN, 15_power.md R400. -/
abbrev PWR_ROPE_DOWN : Nat := 0x30003c
/-- PWR_ROPE_FOLLOW, 15_power.md R400. -/
abbrev PWR_ROPE_FOLLOW : Nat := 0x300040
/-- TEL_SNAP, 16_reliability.md R424. -/
abbrev TEL_SNAP : Nat := 0x400000
/-- TEL_CH_CFG[i], 16_reliability.md R424. -/
abbrev TEL_CH_CFG (i : Nat) : Nat := 0x401000 + 0x80 * i
/-- TEL_CH_MIN[i], 16_reliability.md R424. -/
abbrev TEL_CH_MIN (i : Nat) : Nat := 0x401004 + 0x80 * i
/-- TEL_CH_MAX[i], 16_reliability.md R424. -/
abbrev TEL_CH_MAX (i : Nat) : Nat := 0x401008 + 0x80 * i
/-- TEL_CH_COUNT_LO[i], 16_reliability.md R424. -/
abbrev TEL_CH_COUNT_LO (i : Nat) : Nat := 0x40100c + 0x80 * i
/-- TEL_CH_COUNT_HI[i], 16_reliability.md R424. -/
abbrev TEL_CH_COUNT_HI (i : Nat) : Nat := 0x401010 + 0x80 * i
/-- TEL_CH_EDGE[i][j], 16_reliability.md R424. -/
abbrev TEL_CH_EDGE (i j : Nat) : Nat := 0x401020 + 0x80 * i + 4 * j
/-- TEL_CH_EDGE7[i], 16_reliability.md R424. -/
abbrev TEL_CH_EDGE7 (i : Nat) : Nat := 0x40103c + 0x80 * i
/-- TEL_CH_BIN[i][j], 16_reliability.md R424. -/
abbrev TEL_CH_BIN (i j : Nat) : Nat := 0x401040 + 0x80 * i + 4 * j
/-- RAS_LOG_HEAD, 16_reliability.md R424. -/
abbrev RAS_LOG_HEAD : Nat := 0x500000
/-- RAS_LOG_SEQ, 16_reliability.md R424. -/
abbrev RAS_LOG_SEQ : Nat := 0x500004
/-- RAS_FENCE, 16_reliability.md R424. -/
abbrev RAS_FENCE : Nat := 0x500010
/-- RAS_CP, 16_reliability.md R424. -/
abbrev RAS_CP : Nat := 0x500014
/-- RAS_WDOG, 16_reliability.md R424. -/
abbrev RAS_WDOG : Nat := 0x500018
/-- RAS_REPLAY, 16_reliability.md R424. -/
abbrev RAS_REPLAY : Nat := 0x50001c
/-- RAS_NONREPLAY, 16_reliability.md R424. -/
abbrev RAS_NONREPLAY : Nat := 0x500020
/-- RAS_PITON, 16_reliability.md R424. -/
abbrev RAS_PITON : Nat := 0x500024
/-- RAS_PITON_WAIT, 16_reliability.md R424. -/
abbrev RAS_PITON_WAIT : Nat := 0x500028
/-- RAS_SCRUB_CFG, 16_reliability.md R424. -/
abbrev RAS_SCRUB_CFG : Nat := 0x50002c
/-- RAS_SCRUB_UE, 16_reliability.md R424. -/
abbrev RAS_SCRUB_UE : Nat := 0x500030
/-- RAS_ST_CORE[j], 16_reliability.md R424. -/
abbrev RAS_ST_CORE (j : Nat) : Nat := 0x500040 + 4 * j
/-- RAS_ST_PORT, 16_reliability.md R424. -/
abbrev RAS_ST_PORT : Nat := 0x50004c
/-- RAS_ST_MISC, 16_reliability.md R424. -/
abbrev RAS_ST_MISC : Nat := 0x500050
/-- RAS_VIOL_LO[i], 16_reliability.md R424. -/
abbrev RAS_VIOL_LO (i : Nat) : Nat := 0x500100 + 0x8 * i
/-- RAS_VIOL_HI[i], 16_reliability.md R424. -/
abbrev RAS_VIOL_HI (i : Nat) : Nat := 0x500104 + 0x8 * i
/-- RAS_VIOL_CLR, 16_reliability.md R424. -/
abbrev RAS_VIOL_CLR : Nat := 0x500180
/-- RAS_CAIRN[i][j], 16_reliability.md R424. -/
abbrev RAS_CAIRN (i j : Nat) : Nat := 0x500400 + 0x8 * i + 4 * j
/-- RAS_LOG[j], 16_reliability.md R424. -/
abbrev RAS_LOG (j : Nat) : Nat := 0x510000 + 4 * j
/-- FAB_ID, 14_fabric.md R375. -/
abbrev FAB_ID : Nat := 0x600000
/-- FAB_SHAPE, 14_fabric.md R375. -/
abbrev FAB_SHAPE : Nat := 0x600004
/-- FAB_ROUTE, 14_fabric.md R375. -/
abbrev FAB_ROUTE : Nat := 0x600008
/-- FAB_ROOT, 14_fabric.md R375. -/
abbrev FAB_ROOT : Nat := 0x60000c
/-- FAB_RTMO, 14_fabric.md R375. -/
abbrev FAB_RTMO : Nat := 0x600010
/-- FAB_DISC, 14_fabric.md R375. -/
abbrev FAB_DISC : Nat := 0x600014
/-- FAB_BROKEN, 14_fabric.md R375. -/
abbrev FAB_BROKEN : Nat := 0x600018
/-- FAB_TAGS, 14_fabric.md R375. -/
abbrev FAB_TAGS : Nat := 0x60001c
/-- FAB_LATE, 14_fabric.md R375. -/
abbrev FAB_LATE : Nat := 0x600020
/-- FAB_UNREACH, 14_fabric.md R375. -/
abbrev FAB_UNREACH : Nat := 0x600024
/-- FAB_WIT_SENT, 14_fabric.md R375. -/
abbrev FAB_WIT_SENT : Nat := 0x600028
/-- FAB_WIT_MERGED, 14_fabric.md R375. -/
abbrev FAB_WIT_MERGED : Nat := 0x60002c
/-- PORT_CTRL[i], 14_fabric.md R375. -/
abbrev PORT_CTRL (i : Nat) : Nat := 0x601000 + 0x80 * i
/-- PORT_STAT[i], 14_fabric.md R375. -/
abbrev PORT_STAT (i : Nat) : Nat := 0x601004 + 0x80 * i
/-- PORT_PEER_SER_LO[i], 14_fabric.md R375. -/
abbrev PORT_PEER_SER_LO (i : Nat) : Nat := 0x601008 + 0x80 * i
/-- PORT_PEER_SER_HI[i], 14_fabric.md R375. -/
abbrev PORT_PEER_SER_HI (i : Nat) : Nat := 0x60100c + 0x80 * i
/-- PORT_CRC[i], 14_fabric.md R375. -/
abbrev PORT_CRC (i : Nat) : Nat := 0x601010 + 0x80 * i
/-- PORT_RETRY[i], 14_fabric.md R375. -/
abbrev PORT_RETRY (i : Nat) : Nat := 0x601014 + 0x80 * i
/-- PORT_VIOL[i], 14_fabric.md R375. -/
abbrev PORT_VIOL (i : Nat) : Nat := 0x601018 + 0x80 * i
/-- PORT_FEC[i], 14_fabric.md R375. -/
abbrev PORT_FEC (i : Nat) : Nat := 0x60101c + 0x80 * i
/-- PORT_UNCORR[i], 14_fabric.md R375. -/
abbrev PORT_UNCORR (i : Nat) : Nat := 0x601020 + 0x80 * i
/-- PORT_LIMITS[i], 14_fabric.md R375. -/
abbrev PORT_LIMITS (i : Nat) : Nat := 0x601024 + 0x80 * i
/-- PORT_RETRAIN[i], 14_fabric.md R375. -/
abbrev PORT_RETRAIN (i : Nat) : Nat := 0x601028 + 0x80 * i
/-- PORT_TXB_LO[i], 14_fabric.md R375. -/
abbrev PORT_TXB_LO (i : Nat) : Nat := 0x601030 + 0x80 * i
/-- PORT_TXB_HI[i], 14_fabric.md R375. -/
abbrev PORT_TXB_HI (i : Nat) : Nat := 0x601034 + 0x80 * i
/-- PORT_RXB_LO[i], 14_fabric.md R375. -/
abbrev PORT_RXB_LO (i : Nat) : Nat := 0x601038 + 0x80 * i
/-- PORT_RXB_HI[i], 14_fabric.md R375. -/
abbrev PORT_RXB_HI (i : Nat) : Nat := 0x60103c + 0x80 * i
/-- PORT_PEER_HASH[i][j], 14_fabric.md R375. -/
abbrev PORT_PEER_HASH (i j : Nat) : Nat := 0x601040 + 0x80 * i + 4 * j
/-- MEM_T1_STAT, 13_memory_tiers.md R337. -/
abbrev MEM_T1_STAT : Nat := 0x700000
/-- MEM_T1_ECC, 13_memory_tiers.md R337. -/
abbrev MEM_T1_ECC : Nat := 0x700004
/-- MEM_T1_EDC, 13_memory_tiers.md R337. -/
abbrev MEM_T1_EDC : Nat := 0x700008
/-- MEM_T2_STAT, 13_memory_tiers.md R337. -/
abbrev MEM_T2_STAT : Nat := 0x700010
/-- MEM_T2_ECC, 13_memory_tiers.md R337. -/
abbrev MEM_T2_ECC : Nat := 0x700014
/-- MEM_T3_STAT, 13_memory_tiers.md R337. -/
abbrev MEM_T3_STAT : Nat := 0x700020
/-- MEM_T3_PAGES, 13_memory_tiers.md R337. -/
abbrev MEM_T3_PAGES : Nat := 0x700024
/-- MEM_T3_ERR, 13_memory_tiers.md R337. -/
abbrev MEM_T3_ERR : Nat := 0x700028
/-- MEM_T3_TMO, 13_memory_tiers.md R337. -/
abbrev MEM_T3_TMO : Nat := 0x70002c
/-- MEM_ATOM_OPS_LO, 13_memory_tiers.md R337. -/
abbrev MEM_ATOM_OPS_LO : Nat := 0x700030
/-- MEM_ATOM_OPS_HI, 13_memory_tiers.md R337. -/
abbrev MEM_ATOM_OPS_HI : Nat := 0x700034
/-- MEM_ATOM_MISS, 13_memory_tiers.md R337. -/
abbrev MEM_ATOM_MISS : Nat := 0x700038
/-- MEM_ATOM_ERR, 13_memory_tiers.md R337. -/
abbrev MEM_ATOM_ERR : Nat := 0x70003c
/-- MEM_DMA_BUSY, 13_memory_tiers.md R337. -/
abbrev MEM_DMA_BUSY : Nat := 0x700040
/-- MEM_DMA_ERR, 13_memory_tiers.md R337. -/
abbrev MEM_DMA_ERR : Nat := 0x700044
/-- MEM_DMA_DESC[i][j], 13_memory_tiers.md R337. -/
abbrev MEM_DMA_DESC (i j : Nat) : Nat := 0x701000 + 0x40 * i + 4 * j
/-- MEM_LDG_STAT[i], 08_scratchpads.md R208. -/
abbrev MEM_LDG_STAT (i : Nat) : Nat := 0x720000 + 0x100 * i
/-- MEM_LDG_ECC[i], 08_scratchpads.md R208. -/
abbrev MEM_LDG_ECC (i : Nat) : Nat := 0x720004 + 0x100 * i
/-- MEM_LDG_ALLOC[i], 08_scratchpads.md R208. -/
abbrev MEM_LDG_ALLOC (i : Nat) : Nat := 0x720008 + 0x100 * i
/-- SEC_STAT, 17_boot_security.md R440. -/
abbrev SEC_STAT : Nat := 0x800000
/-- SEC_BOOTS, 17_boot_security.md R440. -/
abbrev SEC_BOOTS : Nat := 0x800004
/-- SEC_SVN, 17_boot_security.md R440. -/
abbrev SEC_SVN : Nat := 0x800008
/-- SEC_KEYSLOT, 17_boot_security.md R440. -/
abbrev SEC_KEYSLOT : Nat := 0x80000c
/-- SEC_IDCHK, 17_boot_security.md R440. -/
abbrev SEC_IDCHK : Nat := 0x800010
/-- SEC_IDHASH[j], 17_boot_security.md R440. -/
abbrev SEC_IDHASH (j : Nat) : Nat := 0x800020 + 4 * j
/-- SEC_MEAS[i][j], 17_boot_security.md R440. -/
abbrev SEC_MEAS (i j : Nat) : Nat := 0x800100 + 0x20 * i + 4 * j
/-- CORE_ID, 01_architecture.md R12. -/
abbrev CORE_ID : Nat := 0x0
/-- CORE_CLK, 15_power.md R378. -/
abbrev CORE_CLK : Nat := 0x40
/-- CORE_SEQ_CTRL, 09_tile_programs.md R237. -/
abbrev CORE_SEQ_CTRL : Nat := 0x100
/-- CORE_SEQ_STAT, 09_tile_programs.md R237. -/
abbrev CORE_SEQ_STAT : Nat := 0x104
/-- CORE_SEQ_ENTRY, 09_tile_programs.md R237. -/
abbrev CORE_SEQ_ENTRY : Nat := 0x108
/-- CORE_SEQ_FAULT, 09_tile_programs.md R237. -/
abbrev CORE_SEQ_FAULT : Nat := 0x10c
/-- CORE_SEQ_BP[j], 09_tile_programs.md R237. -/
abbrev CORE_SEQ_BP (j : Nat) : Nat := 0x110 + 4 * j
/-- CORE_SEQ_ISSUE_LO, 09_tile_programs.md R237. -/
abbrev CORE_SEQ_ISSUE_LO : Nat := 0x120
/-- CORE_SEQ_ISSUE_HI, 09_tile_programs.md R237. -/
abbrev CORE_SEQ_ISSUE_HI : Nat := 0x124
/-- CORE_SEQ_SYNCWAIT, 09_tile_programs.md R237. -/
abbrev CORE_SEQ_SYNCWAIT : Nat := 0x128
/-- CORE_SEQ_BAR_TMO, 09_tile_programs.md R237. -/
abbrev CORE_SEQ_BAR_TMO : Nat := 0x12c
/-- CORE_SEQ_FLAGS, 09_tile_programs.md R237. -/
abbrev CORE_SEQ_FLAGS : Nat := 0x130
/-- CORE_SEQ_TR[j], 09_tile_programs.md R237. -/
abbrev CORE_SEQ_TR (j : Nat) : Nat := 0x140 + 4 * j
/-- CORE_BOUND[j], 09_tile_programs.md R237. -/
abbrev CORE_BOUND (j : Nat) : Nat := 0x180 + 4 * j
/-- CORE_SEQ_AG[j], 09_tile_programs.md R237. -/
abbrev CORE_SEQ_AG (j : Nat) : Nat := 0x1c0 + 4 * j
/-- CORE_ARR_PASS_LO, 03_bit_plane_array.md R76. -/
abbrev CORE_ARR_PASS_LO : Nat := 0x400
/-- CORE_ARR_PASS_HI, 03_bit_plane_array.md R76. -/
abbrev CORE_ARR_PASS_HI : Nat := 0x404
/-- CORE_ARR_CYC_LO, 03_bit_plane_array.md R76. -/
abbrev CORE_ARR_CYC_LO : Nat := 0x408
/-- CORE_ARR_CYC_HI, 03_bit_plane_array.md R76. -/
abbrev CORE_ARR_CYC_HI : Nat := 0x40c
/-- CORE_ARR_ZSKIP, 03_bit_plane_array.md R76. -/
abbrev CORE_ARR_ZSKIP : Nat := 0x410
/-- CORE_ARR_ZROW, 03_bit_plane_array.md R76. -/
abbrev CORE_ARR_ZROW : Nat := 0x414
/-- CORE_ARR_SEGBOUND, 03_bit_plane_array.md R76. -/
abbrev CORE_ARR_SEGBOUND : Nat := 0x418
/-- CORE_ARR_STALL, 03_bit_plane_array.md R76. -/
abbrev CORE_ARR_STALL : Nat := 0x41c
/-- CORE_ARR_SCRUB_CTRL, 03_bit_plane_array.md R76. -/
abbrev CORE_ARR_SCRUB_CTRL : Nat := 0x420
/-- CORE_ARR_SCRUB_AGE, 03_bit_plane_array.md R76. -/
abbrev CORE_ARR_SCRUB_AGE : Nat := 0x424
/-- CORE_ARR_SCRUB_CE, 03_bit_plane_array.md R76. -/
abbrev CORE_ARR_SCRUB_CE : Nat := 0x428
/-- CORE_ARR_SCRUB_UE, 03_bit_plane_array.md R76. -/
abbrev CORE_ARR_SCRUB_UE : Nat := 0x42c
/-- CORE_ARR_FAULT_PAGE, 03_bit_plane_array.md R76. -/
abbrev CORE_ARR_FAULT_PAGE : Nat := 0x430
/-- CORE_ACC_SBSTALL, 04_accumulation.md R109. -/
abbrev CORE_ACC_SBSTALL : Nat := 0x500
/-- CORE_ACC_FBAR, 04_accumulation.md R109. -/
abbrev CORE_ACC_FBAR : Nat := 0x504
/-- CORE_ACC_BELAY, 04_accumulation.md R109. -/
abbrev CORE_ACC_BELAY : Nat := 0x508
/-- CORE_ACC_BELAYSTALL, 04_accumulation.md R109. -/
abbrev CORE_ACC_BELAYSTALL : Nat := 0x50c
/-- CORE_ACC_SAT, 04_accumulation.md R109. -/
abbrev CORE_ACC_SAT : Nat := 0x510
/-- CORE_ACC_NAS, 04_accumulation.md R109. -/
abbrev CORE_ACC_NAS : Nat := 0x514
/-- CORE_ACC_ECC, 04_accumulation.md R109. -/
abbrev CORE_ACC_ECC : Nat := 0x518
/-- CORE_EPI_REBASE, 04_accumulation.md R109. -/
abbrev CORE_EPI_REBASE : Nat := 0x51c
/-- CORE_EPI_BOUND, 04_accumulation.md R109. -/
abbrev CORE_EPI_BOUND : Nat := 0x520
/-- CORE_EPI_CTXOPEN, 04_accumulation.md R109. -/
abbrev CORE_EPI_CTXOPEN : Nat := 0x524
/-- CORE_ACC_DBG_CTRL, 04_accumulation.md R109. -/
abbrev CORE_ACC_DBG_CTRL : Nat := 0x530
/-- CORE_ACC_DBG_ADDR, 04_accumulation.md R109. -/
abbrev CORE_ACC_DBG_ADDR : Nat := 0x534
/-- CORE_ACC_DBG_DATA_LO, 04_accumulation.md R109. -/
abbrev CORE_ACC_DBG_DATA_LO : Nat := 0x538
/-- CORE_ACC_DBG_DATA_HI, 04_accumulation.md R109. -/
abbrev CORE_ACC_DBG_DATA_HI : Nat := 0x53c
/-- CORE_ACC_TAG[j], 04_accumulation.md R109. -/
abbrev CORE_ACC_TAG (j : Nat) : Nat := 0x580 + 4 * j
/-- CORE_SG_STATE[j], 05_stochastic_streams.md R123. -/
abbrev CORE_SG_STATE (j : Nat) : Nat := 0x600 + 4 * j
/-- CORE_SG_CORR, 05_stochastic_streams.md R123. -/
abbrev CORE_SG_CORR : Nat := 0x640
/-- CORE_SG_EXIT_THR, 05_stochastic_streams.md R123. -/
abbrev CORE_SG_EXIT_THR : Nat := 0x644
/-- CORE_SG_EXIT_LEN, 05_stochastic_streams.md R123. -/
abbrev CORE_SG_EXIT_LEN : Nat := 0x648
/-- CORE_SG_EXITS, 05_stochastic_streams.md R123. -/
abbrev CORE_SG_EXITS : Nat := 0x64c
/-- CORE_RQ_CFG, 06_quantisation.md R152. -/
abbrev CORE_RQ_CFG : Nat := 0x700
/-- CORE_RQ_OSCALE, 06_quantisation.md R152. -/
abbrev CORE_RQ_OSCALE : Nat := 0x704
/-- CORE_RQ_OSADDR, 06_quantisation.md R152. -/
abbrev CORE_RQ_OSADDR : Nat := 0x708
/-- CORE_RQ_LIMIT, 06_quantisation.md R152. -/
abbrev CORE_RQ_LIMIT : Nat := 0x70c
/-- CORE_RQ_WIN, 06_quantisation.md R152. -/
abbrev CORE_RQ_WIN : Nat := 0x710
/-- CORE_RQ_CLIP, 06_quantisation.md R152. -/
abbrev CORE_RQ_CLIP : Nat := 0x714
/-- CORE_RQ_MISS, 06_quantisation.md R152. -/
abbrev CORE_RQ_MISS : Nat := 0x718
/-- CORE_RQ_NONFIN, 06_quantisation.md R152. -/
abbrev CORE_RQ_NONFIN : Nat := 0x71c
/-- CORE_RASP_CFG, 06_quantisation.md R152. -/
abbrev CORE_RASP_CFG : Nat := 0x740
/-- CORE_RASP_SMADDR, 06_quantisation.md R152. -/
abbrev CORE_RASP_SMADDR : Nat := 0x744
/-- CORE_RASP_STAGE, 06_quantisation.md R152. -/
abbrev CORE_RASP_STAGE : Nat := 0x748
/-- CORE_RASP_PEND, 06_quantisation.md R152. -/
abbrev CORE_RASP_PEND : Nat := 0x74c
/-- CORE_RASP_DROP, 06_quantisation.md R152. -/
abbrev CORE_RASP_DROP : Nat := 0x750
/-- CORE_RASP_SAT, 06_quantisation.md R152. -/
abbrev CORE_RASP_SAT : Nat := 0x754
/-- CORE_SP_BSKIP, 07_sparsity.md R181. -/
abbrev CORE_SP_BSKIP : Nat := 0x800
/-- CORE_SP_WSKIP, 07_sparsity.md R181. -/
abbrev CORE_SP_WSKIP : Nat := 0x804
/-- CORE_SP_HAC_CFG, 07_sparsity.md R181. -/
abbrev CORE_SP_HAC_CFG : Nat := 0x810
/-- CORE_SP_HAC_HOME_LO, 07_sparsity.md R181. -/
abbrev CORE_SP_HAC_HOME_LO : Nat := 0x814
/-- CORE_SP_HAC_HOME_HI, 07_sparsity.md R181. -/
abbrev CORE_SP_HAC_HOME_HI : Nat := 0x818
/-- CORE_SP_HAC_STRIDE, 07_sparsity.md R181. -/
abbrev CORE_SP_HAC_STRIDE : Nat := 0x81c
/-- CORE_SP_HAC_STAT, 07_sparsity.md R181. -/
abbrev CORE_SP_HAC_STAT : Nat := 0x820
/-- CORE_SP_HAC_HIT, 07_sparsity.md R181. -/
abbrev CORE_SP_HAC_HIT : Nat := 0x824
/-- CORE_SP_HAC_MISS, 07_sparsity.md R181. -/
abbrev CORE_SP_HAC_MISS : Nat := 0x828
/-- CORE_SP_HAC_SPILL, 07_sparsity.md R181. -/
abbrev CORE_SP_HAC_SPILL : Nat := 0x82c
/-- CORE_SP_HAC_STALL, 07_sparsity.md R181. -/
abbrev CORE_SP_HAC_STALL : Nat := 0x830
/-- CORE_SP_PRED_THR, 07_sparsity.md R181. -/
abbrev CORE_SP_PRED_THR : Nat := 0x840
/-- CORE_SP_PRED_MARGIN, 07_sparsity.md R181. -/
abbrev CORE_SP_PRED_MARGIN : Nat := 0x844
/-- CORE_SP_PRED_SKIP, 07_sparsity.md R181. -/
abbrev CORE_SP_PRED_SKIP : Nat := 0x848
/-- CORE_SP_PRED_AUDIT, 07_sparsity.md R181. -/
abbrev CORE_SP_PRED_AUDIT : Nat := 0x84c
/-- CORE_SP_PRED_AMISS, 07_sparsity.md R181. -/
abbrev CORE_SP_PRED_AMISS : Nat := 0x850
/-- CORE_SPM_MODE, 08_scratchpads.md R208. -/
abbrev CORE_SPM_MODE : Nat := 0x900
/-- CORE_SPM_WHEEL, 08_scratchpads.md R208. -/
abbrev CORE_SPM_WHEEL : Nat := 0x904
/-- CORE_SPM_ECC, 08_scratchpads.md R208. -/
abbrev CORE_SPM_ECC : Nat := 0x908
/-- CORE_SPM_CONT, 08_scratchpads.md R208. -/
abbrev CORE_SPM_CONT : Nat := 0x90c
/-- CORE_SPM_RMW, 08_scratchpads.md R208. -/
abbrev CORE_SPM_RMW : Nat := 0x910
/-- CORE_SPM_FE_TMO, 08_scratchpads.md R208. -/
abbrev CORE_SPM_FE_TMO : Nat := 0x914
/-- CORE_SPM_FE_WAIT, 08_scratchpads.md R208. -/
abbrev CORE_SPM_FE_WAIT : Nat := 0x918
/-- CORE_SPM_FE_TOCNT, 08_scratchpads.md R208. -/
abbrev CORE_SPM_FE_TOCNT : Nat := 0x91c
/-- CORE_SPM_REFUSED, 08_scratchpads.md R208. -/
abbrev CORE_SPM_REFUSED : Nat := 0x920
/-- CORE_SPM_PWR_REQ0, 08_scratchpads.md R208. -/
abbrev CORE_SPM_PWR_REQ0 : Nat := 0x924
/-- CORE_SPM_PWR_REQ1, 08_scratchpads.md R208. -/
abbrev CORE_SPM_PWR_REQ1 : Nat := 0x928
/-- CORE_SPM_PWR_WAIT, 08_scratchpads.md R208. -/
abbrev CORE_SPM_PWR_WAIT : Nat := 0x92c
/-- CORE_SPM_PWR_STAT[j], 08_scratchpads.md R208. -/
abbrev CORE_SPM_PWR_STAT (j : Nat) : Nat := 0x930 + 4 * j
/-- CORE_SPM_REPAIR_THR, 08_scratchpads.md R208. -/
abbrev CORE_SPM_REPAIR_THR : Nat := 0x940
/-- CORE_SPM_REPAIR_PEND, 08_scratchpads.md R208. -/
abbrev CORE_SPM_REPAIR_PEND : Nat := 0x944
/-- CORE_SPM_SPARES, 08_scratchpads.md R208. -/
abbrev CORE_SPM_SPARES : Nat := 0x948
/-- CORE_SPM_ARRIVE[j], 08_scratchpads.md R208. -/
abbrev CORE_SPM_ARRIVE (j : Nat) : Nat := 0xa00 + 4 * j
/-- CORE_SPM_FE[j], 08_scratchpads.md R208. -/
abbrev CORE_SPM_FE (j : Nat) : Nat := 0xb00 + 4 * j
/-- CORE_MAP_TILES, 10_mapping.md R259. -/
abbrev CORE_MAP_TILES : Nat := 0xc00
/-- CORE_MAP_EDGE, 10_mapping.md R259. -/
abbrev CORE_MAP_EDGE : Nat := 0xc04
/-- CORE_MAP_LDG_LO, 10_mapping.md R259. -/
abbrev CORE_MAP_LDG_LO : Nat := 0xc08
/-- CORE_MAP_LDG_HI, 10_mapping.md R259. -/
abbrev CORE_MAP_LDG_HI : Nat := 0xc0c
/-- CORE_MAP_TIER_LO, 10_mapping.md R259. -/
abbrev CORE_MAP_TIER_LO : Nat := 0xc10
/-- CORE_MAP_TIER_HI, 10_mapping.md R259. -/
abbrev CORE_MAP_TIER_HI : Nat := 0xc14
/-- CORE_MAP_CLAIM, 10_mapping.md R259. -/
abbrev CORE_MAP_CLAIM : Nat := 0xc18
/-- CORE_MAP_ACCADD, 10_mapping.md R259. -/
abbrev CORE_MAP_ACCADD : Nat := 0xc1c
/-- CORE_HT[j], 08_scratchpads.md R208. -/
abbrev CORE_HT (j : Nat) : Nat := 0x10000 + 4 * j
/-- CORE_IMEM[j], 09_tile_programs.md R237. -/
abbrev CORE_IMEM (j : Nat) : Nat := 0x20000 + 4 * j
/-- CORE_WL[j], 10_mapping.md R259. -/
abbrev CORE_WL (j : Nat) : Nat := 0x30000 + 4 * j

/-- The rows of GLB, CMDQ and MBX. -/
def globalRows : List RegRow := [
  ⟨0x0, 1, 0x4, 1, .ro, 0x64004c41#32, 0x0#32, 0x0#32⟩,
  ⟨0x4, 1, 0x4, 1, .ro, 0x410100#32, 0x0#32, 0xff0000ff#32⟩,
  ⟨0x8, 1, 0x4, 1, .ro, 0x0#32, 0x0#32, 0x0#32⟩,
  ⟨0xc, 1, 0x4, 1, .ro, 0x0#32, 0x0#32, 0x0#32⟩,
  ⟨0x10, 1, 0x4, 1, .ro, 0x840#32, 0x0#32, 0xff808080#32⟩,
  ⟨0x20, 1, 0x4, 1, .ro, 0x1#32, 0x0#32, 0xfffe00f8#32⟩,
  ⟨0x40, 1, 0x4, 1, .ro, 0x10000400#32, 0x0#32, 0xff0000#32⟩,
  ⟨0x44, 1, 0x4, 1, .ro, 0x10000400#32, 0x0#32, 0xff0000#32⟩,
  ⟨0x48, 1, 0x4, 1, .ro, 0x10800800#32, 0x0#32, 0x0#32⟩,
  ⟨0x4c, 1, 0x4, 1, .ro, 0x20400100#32, 0x0#32, 0x0#32⟩,
  ⟨0x50, 1, 0x4, 1, .ro, 0x20020040#32, 0x0#32, 0x0#32⟩,
  ⟨0x54, 1, 0x4, 1, .ro, 0x40ff2000#32, 0x0#32, 0x0#32⟩,
  ⟨0x100, 1, 0x40, 16, .rw, 0x0#32, 0xffffffff#32, 0x0#32⟩,
  ⟨0x140, 1, 0x4, 1, .wo, 0x0#32, 0x3#32, 0xfffffffc#32⟩,
  ⟨0x150, 1, 0x10, 4, .ro, 0x0#32, 0x0#32, 0x0#32⟩,
  ⟨0x160, 1, 0x4, 1, .ro, 0x0#32, 0x0#32, 0xffe0e0fe#32⟩,
  ⟨0x100000, 64, 0x8, 1, .rw, 0x0#32, 0xfff#32, 0xfffff000#32⟩,
  ⟨0x100004, 64, 0x8, 1, .rw, 0x0#32, 0xfff#32, 0xfffff000#32⟩,
  ⟨0x100800, 1, 0x4, 1, .rw, 0x0#32, 0xfff#32, 0xfffff000#32⟩,
  ⟨0x100804, 1, 0x4, 1, .w1c, 0x0#32, 0x7f#32, 0xffffff80#32⟩,
  ⟨0x100808, 1, 0x4, 1, .rw, 0x0#32, 0x7f#32, 0xffffff80#32⟩,
  ⟨0x101000, 64, 0x40, 1, .rw, 0x0#32, 0xfcffff00#32, 0x30000ff#32⟩,
  ⟨0x101004, 64, 0x40, 1, .ro, 0x0#32, 0x0#32, 0x3fffff#32⟩,
  ⟨0x101008, 64, 0x40, 1, .ro, 0x0#32, 0x0#32, 0xf000f000#32⟩,
  ⟨0x10100c, 64, 0x40, 1, .rw, 0x1#32, 0x803fffff#32, 0x7fc00000#32⟩,
  ⟨0x101010, 64, 0x40, 1, .rw, 0x0#32, 0xfffff000#32, 0xfff#32⟩,
  ⟨0x101014, 64, 0x40, 1, .rw, 0x0#32, 0xffffffff#32, 0x0#32⟩,
  ⟨0x101018, 64, 0x40, 1, .rw, 0x0#32, 0xfffff000#32, 0xfff#32⟩,
  ⟨0x10101c, 64, 0x40, 1, .rw, 0x0#32, 0xffffffff#32, 0x0#32⟩,
  ⟨0x101020, 64, 0x40, 1, .rw, 0x0#32, 0x3fff#32, 0xffffc000#32⟩,
  ⟨0x101024, 64, 0x40, 1, .rw, 0x8000100#32, 0xfff01ff#32, 0xf000fe00#32⟩,
  ⟨0x101028, 64, 0x40, 1, .ro, 0x0#32, 0x0#32, 0xf000fe00#32⟩,
  ⟨0x10102c, 64, 0x40, 1, .rc, 0x0#32, 0x0#32, 0x0#32⟩,
  ⟨0x101030, 64, 0x40, 1, .rc, 0x0#32, 0x0#32, 0x0#32⟩,
  ⟨0x101034, 64, 0x40, 1, .rc, 0x0#32, 0x0#32, 0x0#32⟩,
  ⟨0x108000, 65, 0x10, 1, .rw, 0x0#32, 0xfffffffc#32, 0x3#32⟩,
  ⟨0x108004, 65, 0x10, 1, .rw, 0x0#32, 0xffffffff#32, 0x0#32⟩,
  ⟨0x108008, 65, 0x10, 1, .rw, 0x0#32, 0xffffffff#32, 0x0#32⟩,
  ⟨0x10800c, 65, 0x10, 1, .rw, 0x1#32, 0x1#32, 0xfffffffe#32⟩,
  ⟨0x109000, 1, 0x10, 4, .ro, 0x0#32, 0x0#32, 0x0#32⟩,
  ⟨0x200000, 10, 0x100, 1, .rw, 0x0#32, 0xf#32, 0xfffffff0#32⟩,
  ⟨0x200004, 10, 0x100, 1, .wo, 0x0#32, 0xf007f#32, 0xfff0ff80#32⟩,
  ⟨0x200008, 10, 0x100, 1, .ro, 0x0#32, 0x0#32, 0xf00080#32⟩,
  ⟨0x20000c, 10, 0x100, 1, .wo, 0x0#32, 0xff7f#32, 0xffff0080#32⟩,
  ⟨0x200010, 10, 0x100, 1, .rw, 0x64#32, 0xffff#32, 0xffff0000#32⟩,
  ⟨0x200014, 10, 0x100, 1, .rc, 0x0#32, 0x0#32, 0x0#32⟩,
  ⟨0x200040, 10, 0x100, 16, .rw, 0x0#32, 0xffffffff#32, 0x0#32⟩]

/-- The rows of PWR, TEL and RAS. -/
def powerRows : List RegRow := [
  ⟨0x300000, 1, 0x4, 1, .rw, 0x2bc#32, 0x3ff#32, 0xfffffc00#32⟩,
  ⟨0x300004, 1, 0x4, 1, .rw, 0x2bc#32, 0x3ff#32, 0xfffffc00#32⟩,
  ⟨0x300008, 1, 0x4, 1, .ro, 0x2bc#32, 0x0#32, 0xc00fc00#32⟩,
  ⟨0x30000c, 1, 0x4, 1, .rc, 0x0#32, 0x0#32, 0x0#32⟩,
  ⟨0x300010, 1, 0x4, 1, .ro, 0x0#32, 0x0#32, 0xffff0000#32⟩,
  ⟨0x300014, 1, 0x4, 1, .ro, 0x0#32, 0x0#32, 0xffff0000#32⟩,
  ⟨0x300018, 1, 0x4, 1, .rw, 0x0#32, 0x1f#32, 0xffffffe0#32⟩,
  ⟨0x30001c, 1, 0x4, 1, .ro, 0x0#32, 0x0#32, 0x388fc0f8#32⟩,
  ⟨0x300020, 1, 0x4, 1, .rc, 0x0#32, 0x0#32, 0x0#32⟩,
  ⟨0x300024, 1, 0x4, 1, .rc, 0x0#32, 0x0#32, 0x0#32⟩,
  ⟨0x300028, 1, 0x4, 1, .ro, 0x0#32, 0x0#32, 0xff80fc00#32⟩,
  ⟨0x300030, 1, 0x4, 1, .ro, 0x0#32, 0x0#32, 0x8ff0000#32⟩,
  ⟨0x300034, 1, 0x4, 1, .ro, 0x0#32, 0x0#32, 0x0#32⟩,
  ⟨0x300038, 1, 0x4, 1, .ro, 0x0#32, 0x0#32, 0x8000c000#32⟩,
  ⟨0x30003c, 1, 0x4, 1, .rc, 0x0#32, 0x0#32, 0x0#32⟩,
  ⟨0x300040, 1, 0x4, 1, .rc, 0x0#32, 0x0#32, 0x0#32⟩,
  ⟨0x400000, 1, 0x4, 1, .wo, 0x0#32, 0xffffffff#32, 0x0#32⟩,
  ⟨0x401000, 32, 0x80, 1, .rw, 0x0#32, 0xfc7f000f#32, 0x380fff0#32⟩,
  ⟨0x401004, 32, 0x80, 1, .ro, 0xffffffff#32, 0x0#32, 0x0#32⟩,
  ⟨0x401008, 32, 0x80, 1, .ro, 0x0#32, 0x0#32, 0x0#32⟩,
  ⟨0x40100c, 32, 0x80, 1, .ro, 0x0#32, 0x0#32, 0x0#32⟩,
  ⟨0x401010, 32, 0x80, 1, .ro, 0x0#32, 0x0#32, 0x0#32⟩,
  ⟨0x401020, 32, 0x80, 7, .rw, 0x0#32, 0xffffffff#32, 0x0#32⟩,
  ⟨0x40103c, 32, 0x80, 1, .rw, 0x0#32, 0xffff#32, 0xffff0000#32⟩,
  ⟨0x401040, 32, 0x80, 16, .ro, 0x0#32, 0x0#32, 0x0#32⟩,
  ⟨0x500000, 1, 0x4, 1, .ro, 0x0#32, 0x0#32, 0x7ffff000#32⟩,
  ⟨0x500004, 1, 0x4, 1, .ro, 0x0#32, 0x0#32, 0x0#32⟩,
  ⟨0x500010, 1, 0x4, 1, .ro, 0x0#32, 0x0#32, 0xfc8080#32⟩,
  ⟨0x500014, 1, 0x4, 1, .ro, 0x1000#32, 0x0#32, 0xffff8000#32⟩,
  ⟨0x500018, 1, 0x4, 1, .rw, 0x4000a#32, 0xfffff#32, 0xfff00000#32⟩,
  ⟨0x50001c, 1, 0x4, 1, .rc, 0x0#32, 0x0#32, 0x0#32⟩,
  ⟨0x500020, 1, 0x4, 1, .rc, 0x0#32, 0x0#32, 0x0#32⟩,
  ⟨0x500024, 1, 0x4, 1, .ro, 0x0#32, 0x0#32, 0xe000#32⟩,
  ⟨0x500028, 1, 0x4, 1, .rc, 0x0#32, 0x0#32, 0x0#32⟩,
  ⟨0x50002c, 1, 0x4, 1, .rw, 0xe0180c0a#32, 0xe0ffffff#32, 0x1f000000#32⟩,
  ⟨0x500030, 1, 0x4, 1, .rc, 0x0#32, 0x0#32, 0x0#32⟩,
  ⟨0x500040, 1, 0xc, 3, .ro, 0x0#32, 0x0#32, 0x0#32⟩,
  ⟨0x50004c, 1, 0x4, 1, .ro, 0x0#32, 0x0#32, 0x0#32⟩,
  ⟨0x500050, 1, 0x4, 1, .ro, 0x0#32, 0x0#32, 0x0#32⟩,
  ⟨0x500100, 16, 0x8, 1, .ro, 0x0#32, 0x0#32, 0x0#32⟩,
  ⟨0x500104, 16, 0x8, 1, .ro, 0x0#32, 0x0#32, 0x0#32⟩,
  ⟨0x500180, 1, 0x4, 1, .wo, 0x0#32, 0xffff#32, 0xffff0000#32⟩,
  ⟨0x500400, 72, 0x8, 2, .ro, 0x0#32, 0x0#32, 0x0#32⟩,
  ⟨0x510000, 1, 0x20000, 32768, .ro, 0x0#32, 0x0#32, 0x0#32⟩]

/-- The rows of FAB, PORT, MEM and SEC. -/
def fabricRows : List RegRow := [
  ⟨0x600000, 1, 0x4, 1, .ro, 0x0#32, 0x0#32, 0x7fffc000#32⟩,
  ⟨0x600004, 1, 0x4, 1, .ro, 0x0#32, 0x0#32, 0xe0ffe0#32⟩,
  ⟨0x600008, 1, 0x4, 1, .rw, 0x10300#32, 0xf0f00#32, 0xfff0f0fe#32⟩,
  ⟨0x60000c, 1, 0x4, 1, .ro, 0x0#32, 0x0#32, 0xffff0000#32⟩,
  ⟨0x600010, 1, 0x4, 1, .rw, 0x3e8#32, 0xffff#32, 0xffff0000#32⟩,
  ⟨0x600014, 1, 0x4, 1, .ro, 0x0#32, 0x0#32, 0xc8000#32⟩,
  ⟨0x600018, 1, 0x4, 1, .ro, 0x0#32, 0x0#32, 0x0#32⟩,
  ⟨0x60001c, 1, 0x4, 1, .ro, 0x0#32, 0x0#32, 0x0#32⟩,
  ⟨0x600020, 1, 0x4, 1, .rc, 0x0#32, 0x0#32, 0x0#32⟩,
  ⟨0x600024, 1, 0x4, 1, .rc, 0x0#32, 0x0#32, 0x0#32⟩,
  ⟨0x600028, 1, 0x4, 1, .rc, 0x0#32, 0x0#32, 0x0#32⟩,
  ⟨0x60002c, 1, 0x4, 1, .rc, 0x0#32, 0x0#32, 0x0#32⟩,
  ⟨0x601000, 32, 0x80, 1, .rw, 0x1#32, 0x1#32, 0xfffffffe#32⟩,
  ⟨0x601004, 32, 0x80, 1, .ro, 0x0#32, 0x0#32, 0xc000c080#32⟩,
  ⟨0x601008, 32, 0x80, 1, .ro, 0x0#32, 0x0#32, 0x0#32⟩,
  ⟨0x60100c, 32, 0x80, 1, .ro, 0x0#32, 0x0#32, 0x0#32⟩,
  ⟨0x601010, 32, 0x80, 1, .rc, 0x0#32, 0x0#32, 0x0#32⟩,
  ⟨0x601014, 32, 0x80, 1, .rc, 0x0#32, 0x0#32, 0x0#32⟩,
  ⟨0x601018, 32, 0x80, 1, .rc, 0x0#32, 0x0#32, 0x0#32⟩,
  ⟨0x60101c, 32, 0x80, 1, .rc, 0x0#32, 0x0#32, 0x0#32⟩,
  ⟨0x601020, 32, 0x80, 1, .rc, 0x0#32, 0x0#32, 0x0#32⟩,
  ⟨0x601024, 32, 0x80, 1, .rw, 0x100100#32, 0xffffffff#32, 0x0#32⟩,
  ⟨0x601028, 32, 0x80, 1, .ro, 0x0#32, 0x0#32, 0xffff0000#32⟩,
  ⟨0x601030, 32, 0x80, 1, .ro, 0x0#32, 0x0#32, 0x0#32⟩,
  ⟨0x601034, 32, 0x80, 1, .ro, 0x0#32, 0x0#32, 0x0#32⟩,
  ⟨0x601038, 32, 0x80, 1, .ro, 0x0#32, 0x0#32, 0x0#32⟩,
  ⟨0x60103c, 32, 0x80, 1, .ro, 0x0#32, 0x0#32, 0x0#32⟩,
  ⟨0x601040, 32, 0x80, 8, .ro, 0x0#32, 0x0#32, 0x0#32⟩,
  ⟨0x700000, 1, 0x4, 1, .ro, 0x0#32, 0x0#32, 0x7f000000#32⟩,
  ⟨0x700004, 1, 0x4, 1, .rc, 0x0#32, 0x0#32, 0x0#32⟩,
  ⟨0x700008, 1, 0x4, 1, .rc, 0x0#32, 0x0#32, 0x0#32⟩,
  ⟨0x700010, 1, 0x4, 1, .ro, 0x0#32, 0x0#32, 0x70003000#32⟩,
  ⟨0x700014, 1, 0x4, 1, .rc, 0x0#32, 0x0#32, 0x0#32⟩,
  ⟨0x700020, 1, 0x4, 1, .ro, 0x0#32, 0x0#32, 0x0#32⟩,
  ⟨0x700024, 1, 0x4, 1, .ro, 0x0#32, 0x0#32, 0x80000000#32⟩,
  ⟨0x700028, 1, 0x4, 1, .rc, 0x0#32, 0x0#32, 0x0#32⟩,
  ⟨0x70002c, 1, 0x4, 1, .rw, 0x2710#32, 0xffff#32, 0xffff0000#32⟩,
  ⟨0x700030, 1, 0x4, 1, .ro, 0x0#32, 0x0#32, 0x0#32⟩,
  ⟨0x700034, 1, 0x4, 1, .ro, 0x0#32, 0x0#32, 0x0#32⟩,
  ⟨0x700038, 1, 0x4, 1, .rc, 0x0#32, 0x0#32, 0x0#32⟩,
  ⟨0x70003c, 1, 0x4, 1, .rc, 0x0#32, 0x0#32, 0x0#32⟩,
  ⟨0x700040, 1, 0x4, 1, .ro, 0x0#32, 0x0#32, 0x0#32⟩,
  ⟨0x700044, 1, 0x4, 1, .rc, 0x0#32, 0x0#32, 0x0#32⟩,
  ⟨0x701000, 32, 0x40, 16, .ro, 0x0#32, 0x0#32, 0x0#32⟩,
  ⟨0x720000, 2, 0x100, 1, .ro, 0x0#32, 0x0#32, 0x7fffe000#32⟩,
  ⟨0x720004, 2, 0x100, 1, .rc, 0x0#32, 0x0#32, 0x0#32⟩,
  ⟨0x720008, 2, 0x100, 1, .ro, 0x0#32, 0x0#32, 0xfffff800#32⟩,
  ⟨0x800000, 1, 0x4, 1, .ro, 0x0#32, 0x0#32, 0xffffff00#32⟩,
  ⟨0x800004, 1, 0x4, 1, .ro, 0x0#32, 0x0#32, 0x0#32⟩,
  ⟨0x800008, 1, 0x4, 1, .ro, 0x0#32, 0x0#32, 0xff000000#32⟩,
  ⟨0x80000c, 1, 0x4, 1, .ro, 0x0#32, 0x0#32, 0xffffff00#32⟩,
  ⟨0x800010, 1, 0x4, 1, .rc, 0x0#32, 0x0#32, 0x0#32⟩,
  ⟨0x800020, 1, 0x20, 8, .ro, 0x0#32, 0x0#32, 0x0#32⟩,
  ⟨0x800100, 4, 0x20, 8, .ro, 0x0#32, 0x0#32, 0x0#32⟩]

/-- The rows of CORE, sequencer to epilogue. -/
def coreRowsA : List RegRow := [
  ⟨0x0, 1, 0x4, 1, .ro, 0x0#32, 0x0#32, 0xfff88000#32⟩,
  ⟨0x40, 1, 0x4, 1, .ro, 0x0#32, 0x0#32, 0xe0e0ffff#32⟩,
  ⟨0x100, 1, 0x4, 1, .w1s, 0x0#32, 0x7#32, 0xfffffff8#32⟩,
  ⟨0x104, 1, 0x4, 1, .ro, 0x0#32, 0x0#32, 0xe000f0fc#32⟩,
  ⟨0x108, 1, 0x4, 1, .rw, 0x0#32, 0x1fff#32, 0xffffe000#32⟩,
  ⟨0x10c, 1, 0x4, 1, .ro, 0x0#32, 0x0#32, 0x7f00e000#32⟩,
  ⟨0x110, 1, 0x10, 4, .rw, 0x0#32, 0x80001fff#32, 0x7fffe000#32⟩,
  ⟨0x120, 1, 0x4, 1, .ro, 0x0#32, 0x0#32, 0x0#32⟩,
  ⟨0x124, 1, 0x4, 1, .ro, 0x0#32, 0x0#32, 0x0#32⟩,
  ⟨0x128, 1, 0x4, 1, .rc, 0x0#32, 0x0#32, 0x0#32⟩,
  ⟨0x12c, 1, 0x4, 1, .rw, 0x100000#32, 0xffffffff#32, 0x0#32⟩,
  ⟨0x130, 1, 0x4, 1, .ro, 0x0#32, 0x0#32, 0xffffffe0#32⟩,
  ⟨0x140, 1, 0x10, 4, .ro, 0x0#32, 0x0#32, 0x0#32⟩,
  ⟨0x180, 1, 0x40, 16, .rw, 0x0#32, 0xffffffff#32, 0x0#32⟩,
  ⟨0x1c0, 1, 0x20, 8, .ro, 0x0#32, 0x0#32, 0x0#32⟩,
  ⟨0x400, 1, 0x4, 1, .ro, 0x0#32, 0x0#32, 0x0#32⟩,
  ⟨0x404, 1, 0x4, 1, .ro, 0x0#32, 0x0#32, 0x0#32⟩,
  ⟨0x408, 1, 0x4, 1, .ro, 0x0#32, 0x0#32, 0x0#32⟩,
  ⟨0x40c, 1, 0x4, 1, .ro, 0x0#32, 0x0#32, 0x0#32⟩,
  ⟨0x410, 1, 0x4, 1, .rc, 0x0#32, 0x0#32, 0x0#32⟩,
  ⟨0x414, 1, 0x4, 1, .rc, 0x0#32, 0x0#32, 0x0#32⟩,
  ⟨0x418, 1, 0x4, 1, .rc, 0x0#32, 0x0#32, 0x0#32⟩,
  ⟨0x41c, 1, 0x4, 1, .rc, 0x0#32, 0x0#32, 0x0#32⟩,
  ⟨0x420, 1, 0x4, 1, .rw, 0x1#32, 0x1#32, 0xfffffffe#32⟩,
  ⟨0x424, 1, 0x4, 1, .ro, 0x0#32, 0x0#32, 0xffff0000#32⟩,
  ⟨0x428, 1, 0x4, 1, .rc, 0x0#32, 0x0#32, 0x0#32⟩,
  ⟨0x42c, 1, 0x4, 1, .rc, 0x0#32, 0x0#32, 0x0#32⟩,
  ⟨0x430, 1, 0x4, 1, .ro, 0x0#32, 0x0#32, 0x7fffe800#32⟩,
  ⟨0x500, 1, 0x4, 1, .rc, 0x0#32, 0x0#32, 0x0#32⟩,
  ⟨0x504, 1, 0x4, 1, .rc, 0x0#32, 0x0#32, 0x0#32⟩,
  ⟨0x508, 1, 0x4, 1, .ro, 0x0#32, 0x0#32, 0xe000#32⟩,
  ⟨0x50c, 1, 0x4, 1, .rc, 0x0#32, 0x0#32, 0x0#32⟩,
  ⟨0x510, 1, 0x4, 1, .rc, 0x0#32, 0x0#32, 0x0#32⟩,
  ⟨0x514, 1, 0x4, 1, .rc, 0x0#32, 0x0#32, 0x0#32⟩,
  ⟨0x518, 1, 0x4, 1, .rc, 0x0#32, 0x0#32, 0x0#32⟩,
  ⟨0x51c, 1, 0x4, 1, .rc, 0x0#32, 0x0#32, 0x0#32⟩,
  ⟨0x520, 1, 0x4, 1, .rc, 0x0#32, 0x0#32, 0x0#32⟩,
  ⟨0x524, 1, 0x4, 1, .ro, 0x0#32, 0x0#32, 0xffff0000#32⟩,
  ⟨0x530, 1, 0x4, 1, .rw, 0x0#32, 0x1#32, 0xfffffffe#32⟩,
  ⟨0x534, 1, 0x4, 1, .rw, 0x0#32, 0x17fff#32, 0xfffe8000#32⟩,
  ⟨0x538, 1, 0x4, 1, .ro, 0x0#32, 0x0#32, 0x0#32⟩,
  ⟨0x53c, 1, 0x4, 1, .ro, 0x0#32, 0x0#32, 0x0#32⟩,
  ⟨0x580, 1, 0x80, 32, .ro, 0x0#32, 0x0#32, 0x7ffffe80#32⟩]

/-- The rows of CORE, from the streams on. -/
def coreRowsB : List RegRow := [
  ⟨0x600, 1, 0x40, 16, .ro, 0x0#32, 0x0#32, 0x0#32⟩,
  ⟨0x640, 1, 0x4, 1, .rc, 0x0#32, 0x0#32, 0x0#32⟩,
  ⟨0x644, 1, 0x4, 1, .rw, 0x7fffffff#32, 0x7fffffff#32, 0x80000000#32⟩,
  ⟨0x648, 1, 0x4, 1, .ro, 0x0#32, 0x0#32, 0xfffff000#32⟩,
  ⟨0x64c, 1, 0x4, 1, .rc, 0x0#32, 0x0#32, 0x0#32⟩,
  ⟨0x700, 1, 0x4, 1, .rw, 0x0#32, 0x3ff7ff#32, 0xffc00800#32⟩,
  ⟨0x704, 1, 0x4, 1, .rw, 0x7f00#32, 0xffff#32, 0xffff0000#32⟩,
  ⟨0x708, 1, 0x4, 1, .rw, 0x0#32, 0xfffc0#32, 0xfff0003f#32⟩,
  ⟨0x70c, 1, 0x4, 1, .rw, 0x1000#32, 0x1fff#32, 0xffffe000#32⟩,
  ⟨0x710, 1, 0x4, 1, .ro, 0x0#32, 0x0#32, 0xf000e000#32⟩,
  ⟨0x714, 1, 0x4, 1, .rc, 0x0#32, 0x0#32, 0x0#32⟩,
  ⟨0x718, 1, 0x4, 1, .rc, 0x0#32, 0x0#32, 0x0#32⟩,
  ⟨0x71c, 1, 0x4, 1, .rc, 0x0#32, 0x0#32, 0x0#32⟩,
  ⟨0x740, 1, 0x4, 1, .rw, 0x0#32, 0x1f#32, 0xffffffe0#32⟩,
  ⟨0x744, 1, 0x4, 1, .rw, 0x0#32, 0xfffff#32, 0xfff00000#32⟩,
  ⟨0x748, 1, 0x4, 1, .rw, 0x0#32, 0xff000#32, 0xfff00fff#32⟩,
  ⟨0x74c, 1, 0x4, 1, .ro, 0x0#32, 0x0#32, 0xffff0000#32⟩,
  ⟨0x750, 1, 0x4, 1, .rc, 0x0#32, 0x0#32, 0x0#32⟩,
  ⟨0x754, 1, 0x4, 1, .rc, 0x0#32, 0x0#32, 0x0#32⟩,
  ⟨0x800, 1, 0x4, 1, .rc, 0x0#32, 0x0#32, 0x0#32⟩,
  ⟨0x804, 1, 0x4, 1, .rc, 0x0#32, 0x0#32, 0x0#32⟩,
  ⟨0x810, 1, 0x4, 1, .rw, 0x0#32, 0xfffff#32, 0xfff00000#32⟩,
  ⟨0x814, 1, 0x4, 1, .rw, 0x0#32, 0xffffffff#32, 0x0#32⟩,
  ⟨0x818, 1, 0x4, 1, .rw, 0x0#32, 0xbfffffff#32, 0x40000000#32⟩,
  ⟨0x81c, 1, 0x4, 1, .rw, 0x0#32, 0xffffffff#32, 0x0#32⟩,
  ⟨0x820, 1, 0x4, 1, .ro, 0x0#32, 0x0#32, 0x3fffff00#32⟩,
  ⟨0x824, 1, 0x4, 1, .rc, 0x0#32, 0x0#32, 0x0#32⟩,
  ⟨0x828, 1, 0x4, 1, .rc, 0x0#32, 0x0#32, 0x0#32⟩,
  ⟨0x82c, 1, 0x4, 1, .rc, 0x0#32, 0x0#32, 0x0#32⟩,
  ⟨0x830, 1, 0x4, 1, .rc, 0x0#32, 0x0#32, 0x0#32⟩,
  ⟨0x840, 1, 0x4, 1, .rw, 0x0#32, 0xffffffff#32, 0x0#32⟩,
  ⟨0x844, 1, 0x4, 1, .rw, 0x0#32, 0xffffffff#32, 0x0#32⟩,
  ⟨0x848, 1, 0x4, 1, .rc, 0x0#32, 0x0#32, 0x0#32⟩,
  ⟨0x84c, 1, 0x4, 1, .rc, 0x0#32, 0x0#32, 0x0#32⟩,
  ⟨0x850, 1, 0x4, 1, .rc, 0x0#32, 0x0#32, 0x0#32⟩,
  ⟨0x900, 1, 0x4, 1, .rw, 0x1#32, 0x7#32, 0xfffffef8#32⟩,
  ⟨0x904, 1, 0x4, 1, .rw, 0x620408#32, 0xffffff#32, 0xff000000#32⟩,
  ⟨0x908, 1, 0x4, 1, .rc, 0x0#32, 0x0#32, 0x0#32⟩,
  ⟨0x90c, 1, 0x4, 1, .rc, 0x0#32, 0x0#32, 0x0#32⟩,
  ⟨0x910, 1, 0x4, 1, .rc, 0x0#32, 0x0#32, 0x0#32⟩,
  ⟨0x914, 1, 0x4, 1, .rw, 0x100000#32, 0xffffffff#32, 0x0#32⟩,
  ⟨0x918, 1, 0x4, 1, .rc, 0x0#32, 0x0#32, 0x0#32⟩,
  ⟨0x91c, 1, 0x4, 1, .rc, 0x0#32, 0x0#32, 0x0#32⟩,
  ⟨0x920, 1, 0x4, 1, .rc, 0x0#32, 0x0#32, 0x0#32⟩,
  ⟨0x924, 1, 0x4, 1, .rw, 0x0#32, 0xffffffff#32, 0x0#32⟩,
  ⟨0x928, 1, 0x4, 1, .rw, 0x0#32, 0xffffffff#32, 0x0#32⟩,
  ⟨0x92c, 1, 0x4, 1, .rc, 0x0#32, 0x0#32, 0x0#32⟩,
  ⟨0x930, 1, 0x10, 4, .ro, 0x0#32, 0x0#32, 0x0#32⟩,
  ⟨0x940, 1, 0x4, 1, .rw, 0x4#32, 0xff#32, 0xffffff00#32⟩,
  ⟨0x944, 1, 0x4, 1, .ro, 0x0#32, 0x0#32, 0xfffffff0#32⟩,
  ⟨0x948, 1, 0x4, 1, .ro, 0x0#32, 0x0#32, 0x0#32⟩,
  ⟨0xa00, 1, 0x100, 64, .rw, 0x0#32, 0xffffffff#32, 0x0#32⟩,
  ⟨0xb00, 1, 0x80, 32, .ro, 0x0#32, 0x0#32, 0x0#32⟩,
  ⟨0xc00, 1, 0x4, 1, .rc, 0x0#32, 0x0#32, 0x0#32⟩,
  ⟨0xc04, 1, 0x4, 1, .rc, 0x0#32, 0x0#32, 0x0#32⟩,
  ⟨0xc08, 1, 0x4, 1, .ro, 0x0#32, 0x0#32, 0x0#32⟩,
  ⟨0xc0c, 1, 0x4, 1, .ro, 0x0#32, 0x0#32, 0x0#32⟩,
  ⟨0xc10, 1, 0x4, 1, .ro, 0x0#32, 0x0#32, 0x0#32⟩,
  ⟨0xc14, 1, 0x4, 1, .ro, 0x0#32, 0x0#32, 0x0#32⟩,
  ⟨0xc18, 1, 0x4, 1, .rc, 0x0#32, 0x0#32, 0x0#32⟩,
  ⟨0xc1c, 1, 0x4, 1, .rc, 0x0#32, 0x0#32, 0x0#32⟩]

/-- CORE, the handle table, the instruction memory and the work lists. -/
def coreRowsC : List RegRow := [
  ⟨0x10000, 1, 0x1000, 1024, .ro, 0x0#32, 0x0#32, 0x0#32⟩,
  ⟨0x20000, 1, 0x10000, 16384, .rw, 0x0#32, 0xffffffff#32, 0x0#32⟩,
  ⟨0x30000, 1, 0x800, 512, .ro, 0x0#32, 0x0#32, 0x0#32⟩]

/-- The rows of every block outside CORE. -/
def deviceRows : List RegRow := globalRows ++ powerRows ++ fabricRows

/-- The rows of a CORE block. -/
def coreRows : List RegRow := coreRowsC ++ coreRowsA ++ coreRowsB

/-- The row of a BAR0 address outside CORE, where one names it. -/
def deviceRow (a : Nat) : Option RegRow := deviceRows.find? (·.covers a)

/-- The row of an offset in CORE, where one names it. -/
def coreRow (off : Nat) : Option RegRow := coreRows.find? (·.covers off)

/-- CORE[0] lies here, CORE[n] 0x10_0000 further each (R451). -/
abbrev CORE_BASE : Nat := 0x1000000

/-- What a register outside CORE holds after a cold reset: the value of its table, the fuse or the OTP value that the
log names (log 4), 0 where no row names the address. -/
def deviceReset (a : Nat) : W32 :=
  if a = GLB_SERIAL_LO then Config.serial.setWidth 32
  else if a = GLB_SERIAL_HI then (Config.serial >>> 32).setWidth 32
  else if a = MEM_LDG_STAT 0 ∨ a = MEM_LDG_STAT 1 then 2#32
  else match deviceRow a with
    | some r => r.reset
    | none => 0#32

/-- The logical number that the fuses give physical core `c` (R12); ascending over the cores that are no spares. -/
def fusedLogical (c : Nat) : Nat :=
  c - (Config.spareCores.filter (fun x => decide (x < c))).length

/-- CORE_ID of physical core `c` as the fuses give it (R12). -/
def fusedCoreId (c : Nat) : W32 :=
  if c ∈ Config.spareCores then BitVec.ofNat 32 ((c / 36) * 0x40000 + 0x17f00 + c)
  else BitVec.ofNat 32 ((c / 36) * 0x40000 + fusedLogical c * 0x100 + c)

/-- What offset `off` of CORE[c] holds after a cold reset. -/
def coreReset (c off : Nat) : W32 :=
  if off = CORE_ID then fusedCoreId c
  else if off = CORE_CLK then BitVec.ofNat 32 (Config.fmaxN * 0x1000000 + 24 * 0x10000)
  else if off = CORE_SPM_SPARES then Config.spmSpares
  else match coreRow off with
    | some r => r.reset
    | none => 0#32

end Sys2Proof.Machine
end

