-- ==== Sys2Proof/Machine/State.lean ====
section
/-!
DEFINITION. The state of the block: plain data, everything the specification gives the part.

A register has one home: `State.regs` by BAR0 address, or `CoreState.regs` by offset in the CORE block, each a sparse
table whose unlisted entries hold the reset value. A register that only shows other state (a program counter, a count
of open contexts) has no entry there: the read computes it (Machine/Ops.lean).
-/

namespace Sys2Proof.Machine

/-! ## Types of a core -/

/-- The state of a weight page (R53). -/
inductive PageSt where
  | empty
  | loaded
  | faulty
  deriving DecidableEq, Repr

/-- The tag of a stream page (R114). -/
structure StreamTag where
  core : Nat
  gen : Nat
  dim : Nat
  epoch : Nat
  step : Nat
  deriving DecidableEq, Repr

/-- An entry of the page-state table (R53, R72, R114). -/
structure PageEntry where
  st : PageSt
  crc : W32
  tag : Option StreamTag
  deriving DecidableEq, Repr

/-- An address generator (R210). -/
structure AddrGen where
  base : Nat
  stride : Int
  period : Nat
  outer : Int
  tsel : Nat
  use : Nat
  deriving DecidableEq, Repr

/-- What SETP ARRAY sets (R234). -/
structure ArrayCfg where
  wfmt : Nat
  wbits : Nat
  afmt : Nat
  abits : Nat
  acc16 : Bool
  g : Nat
  s24 : Bool
  skip : Bool
  pord : Bool
  clog : Nat
  slog : Nat
  deriving DecidableEq, Repr

/-- What SETP DRAIN sets (R234). -/
structure DrainCfg where
  otbp : Int
  tw : Bool
  dh : Nat
  rh : Nat
  dstride : Nat
  deriving DecidableEq, Repr

/-- The AEPI setting (R221). `stages` holds stage s at bit s - 1. -/
structure AepiCfg where
  stages : Nat
  rebase : Bool
  k : Nat
  score : Bool
  lscale : Nat
  kref : Int
  statbase : Nat
  tkbase : Nat
  deriving DecidableEq, Repr

/-- A level of the loop stack (R231): first and last address of the body, iterations left. -/
structure LoopLevel where
  start : Nat
  last : Nat
  left : Nat
  deriving DecidableEq, Repr

/-- Why a tile faulted (R214): status code, instruction address, and what the error log adds (block, page). -/
structure TileFault where
  status : Nat
  pc : Nat
  info : Nat
  /-- When it came (R308). -/
  time : Nat
  deriving DecidableEq, Repr

/-- A pass in flight (R60): its target rows, the tally of every column and segment, the scale containers it closes
with, its slot, the pages it senses, and its checkpoint. -/
structure PassRec where
  pc : Nat
  base : Nat
  ext : Nat
  row : Nat
  segs : Nat
  /-- Tallies: column c, segment s at index c * segs + s. -/
  tallies : List Int
  /-- First weight-scale entry (scale page * 16 + entry); the closing reads the containers. -/
  sag : Nat
  acc16 : Bool
  ascales : List Nat
  slot : Nat
  closes : Bool
  firstPage : Nat
  npages : Nat
  gen : Option Nat
  /-- The prefix length of a CHK pass (R119). -/
  check : Option Nat
  retired : Bool
  deriving DecidableEq, Repr

/-- One drained row in the belay set (R85): its block's binary point and width, and its entries. -/
structure DrainRow where
  tbp : Int
  acc16 : Bool
  vals : List AV
  /-- Flipped bits of its 8-byte words, by their index in the row (R80). -/
  errs : Tab W64
  deriving DecidableEq, Repr

/-- A drain: the ADRAIN instruction with the settings it issued under (R221) and, once moved, its rows. -/
structure Drain where
  pc : Nat
  word : W64
  cfg : DrainCfg
  aepi : AepiCfg
  nbase : Nat
  aag : Nat
  rag : Nat
  bytes : Nat
  moved : Bool
  rows : List DrainRow
  /-- Top-k records of a LIST drain (R103): value code and index. -/
  list : List (Nat × Nat)
  /-- Rows that the epilogue has finished, and the stage 6 and 7 settings captured on its first (R144). -/
  done : Nat
  rq : List W32
  deriving DecidableEq, Repr

/-- A row context (R89): the statistics of stages 1 to 5. -/
structure RowCtx where
  /-- TBP_c (R457); none until the first drain. -/
  tbp : Option Int
  count : Nat
  max : AV
  sumx : AV
  sumsq : AV
  /-- Positions since OPEN (R94). -/
  pos : Nat
  /-- The block under way: none while it has no term. -/
  blk : Option Int
  /-- Levels 0 to 7: none when free; a waiting result, itself none when it is an empty sum. -/
  levels : List (Option (Option Int))
  root : Option (Option Int)
  blocks : Nat
  /-- Results of closed segments (R97), binary32; none for an empty one. -/
  segs : List (Option Nat)
  rebases : Nat
  bound : Bool
  sawPinf : Bool
  sawNas : Bool
  nasSeen : Bool
  special : Bool
  /-- The kept top-k entries, best first: value, whether it is a score already (R103), index (R101). -/
  top : List (AV × Bool × Nat)
  deriving DecidableEq, Repr

/-- A row close waiting for the scalar unit (R89). -/
structure RowClose where
  ctx : Nat
  inBounds : Bool
  pc : Nat
  aepi : AepiCfg
  deriving DecidableEq, Repr

/-- A page write of a load that has not completed (R65, R72): the rows it writes, the stream tag the page will carry,
and the arrival counter that the last write of a page set of a multicast load raises (R225). -/
structure PageWrite where
  mc : Nat
  page : Nat
  rows : List (Nat × W32)
  tag : Option StreamTag
  arr : Option Nat
  /-- The core and the number of the multicast load that waits for this write's acknowledgement (R225). -/
  ack : Option (Nat × Nat)
  deriving DecidableEq, Repr

/-- An entry of the gather buffer (R189). -/
structure GatherEntry where
  mem : SpmMem
  row : Nat
  data : List Byte
  mask : List Bool
  deriving DecidableEq, Repr

/-- A valid way of the HAC (R169): its key and the column base of its entries. Its 512 lanes are the ACC32 row of its block. -/
structure HacWay where
  key : Nat
  nbase : Nat
  deriving DecidableEq, Repr

/-- A way on its way out of the HAC (R171): key, lanes, column base. -/
structure HacRow where
  key : Nat
  lanes : List AV
  nbase : Nat
  deriving DecidableEq, Repr

/-- What a write or an atomic of a core still waits for (R224). -/
structure Outstanding where
  /-- Order of issue. -/
  id : Nat
  /-- An atomic operation of a drain or of the HAC, a local write, or a remote one. -/
  atomic : Bool
  remote : Bool
  done : Bool
  deriving DecidableEq, Repr

/-- Bytes that the feeder fetched ahead (R213): the number of the compute instruction they are for, AM offset, bytes. -/
structure PlaneFetch where
  pass : Nat
  off : Nat
  data : List Byte
  deriving DecidableEq, Repr

/-- A repair candidate (R202): 0 AM row, 1 PM row, 2 WM row, 3 WM column; the row's index in its memory (for a
column, page key times 64 plus column, the check columns from 32 on). -/
structure RepairCand where
  kind : Nat
  index : Nat
  deriving DecidableEq, Repr

/-- A local access queued at the ports (R184, R185): the cycles it has waited on a tag since it last moved a row (R193), the
rows that it has not moved yet, by offset / 64, ascending, and the bytes that it has read, by offset. -/
structure PortWait where
  acc : SpmAcc
  waited : Nat
  rest : List Nat
  got : Mem
  deriving DecidableEq, Repr

/-- A tag that an instruction, or a drain, of a core waits on (R192): the core whose tag it is, the client, the slot, what it
is to do there, and the cycles it has waited (of a drain; `waited` of the core counts those of the instruction). -/
structure TagWait where
  owner : Nat
  client : Nat
  mem : SpmMem
  slot : Nat
  kind : TagKind
  waited : Nat
  deriving DecidableEq, Repr

/-- A remote access that waits at a core's mesh port (R193, R194), for a slot, its turn or a tag: what is left of it, what it
has read, and the cycles it has waited on a tag. -/
structure MeshWait where
  acc : RemoteAcc
  got : List Byte
  waited : Nat
  deriving DecidableEq, Repr

/-- The states of the sequencer (CORE_SEQ_STAT.STATE). -/
inductive SeqState where
  | idle
  | running
  | halting
  | debug
  deriving DecidableEq, Repr

/-- What the completion of a dispatch reports of its core (R122, R145, R117, R98): flags and lengths. -/
structure DispatchReport where
  nonfinite : Bool
  bound : Bool
  corr : Bool
  rangeMiss : Bool
  shortest : Nat
  longest : Nat
  clips : Nat
  audits : Nat
  amisses : Nat
  skips : Nat
  /-- It has written an output (R309). -/
  wrote : Bool
  /-- Predicted-inactive blocks and audit misses of each drain that held any, in the order of their ends (R179, R180). -/
  blocks : List (Nat × Nat)
  deriving DecidableEq, Repr

/-- A word of a core that its check bits find uncorrectable (R401, R402): an entry of the instruction memory or of the handle
table, a page of the page-state table, bytes that the plane buffer holds for a compute instruction, by its number. -/
inductive CoreWord where
  | imem (i : Nat)
  | handle (h : Nat)
  | page (key : Nat)
  | plane (pass : Nat)
  deriving DecidableEq, Repr

/-- One core. Registers by offset; the byte memories by physical place (bank, row, byte); error masks per word. -/
structure CoreState where
  regs : Tab W32
  am : Mem
  pm : Mem
  amErr : Tab W64
  pmErr : Tab W64
  wm : Tab W32
  wmErr : Tab W64
  pages : Tab PageEntry
  acm : Tab W32
  acmErr : Tab W64
  /-- Uncorrectable words of the small memories (R402); nothing in the model sets one (log 57). -/
  bad : List CoreWord
  imem : Tab W64
  /-- Held low halves of IMEM writes, by agent code: entry and value (R237). -/
  imemHeld : Tab (Option (Nat × W32))
  -- the sequencer
  loaded : Bool
  seq : SeqState
  stepping : Bool
  pc : Nat
  wait : Nat
  waited : Nat
  loops : List LoopLevel
  exitC : Bool
  doneC : Bool
  ags : Tab AddrGen
  arr : Option ArrayCfg
  drn : Option DrainCfg
  aepi : AepiCfg
  fault : Option TileFault
  /-- An ACLR or ADRAIN held to issue with the adjacent compute instruction (R212): address, word, and whether that
  instruction has issued. -/
  accHeld : Option (Nat × W64 × Bool)
  /-- The dispatch doorbell: the command's id, and a ticket preloaded for a reissue (R257): register, ticket. -/
  doorbell : Option (Nat × Option (Nat × Nat))
  dispatch : Option Nat
  report : DispatchReport
  -- the array and the epilogue
  passes : List PassRec
  checks : List (Nat × Nat × Nat)
  planeBuf : List PlaneFetch
  /-- Compute instructions of the program passed so far: the number of the next one (R213). -/
  passNo : Nat
  /-- Recorded shifts, by block * 8 + row; the tiles ended early whose length has not been counted, base and extent (R122). -/
  exitShift : Tab Nat
  exitTiles : List (Nat × Nat)
  drains : List Drain
  /-- Of the row that the epilogue has at hand: how many of its writes have been done. -/
  paid : Nat
  belayHigh : Nat
  ctxs : Tab (Option RowCtx)
  closing : List RowClose
  chunks : Tab Nat
  /-- ACM blocks that have taken a pass with a K edge since they were last cleared (R248), and whether the core itself counts
  the output tiles with an edge, as it does for a program that is not a layer's. -/
  kEdges : List Nat
  ownEdges : Bool
  /-- The predictor comparator is on (R176); the scores, by row and block, whose bits it has written in PM. -/
  predOn : Bool
  skipMap : List (Nat × Nat)
  /-- The N of the layer that the core works for, as the command processor has told it (R136); 0 for none. -/
  outCols : Nat
  /-- Handles that stand for others in the program that runs (R246), as 128-bit entries. -/
  rebound : List (Nat × Nat)
  /-- What MCASTs have written since the core's command began: AM rows, PM rows, pages and arrivals, by kind 0 to 3 and
  number (R252). -/
  received : List (Nat × Nat)
  /-- Row halves of 256 columns that the command processor named, by drain-handle offset: true audited, false skipped. -/
  predPlan : List (Nat × Bool)
  /-- Windows that have closed (R145): clips, and the limit. -/
  rangeWindows : List (Nat × Nat)
  -- loads, streams, sparsity
  zeroMap : BitVec 1024
  pageWrites : List PageWrite
  ways : Tab (Option HacWay)
  lru : List Nat
  spills : List HacRow
  /-- Flipped bits of the HAC's tag array, by way (R80, R169). -/
  tagErr : Tab W64
  -- scratchpads
  gather : List GatherEntry
  /-- ACLK cycles since the core's reset, as far as the commands have told (R184). -/
  cyc : Nat
  queued : List PortWait
  tagWait : Option TagWait
  drainWait : Option TagWait
  meshWait : List MeshWait
  /-- Of a waking group: 1 it was OFF, 2 its request has changed since (R199). -/
  wakeNote : Tab Nat
  /-- 1 once an arrival counter has lost an increment (R195). -/
  arrLost : Tab Nat
  rr : Tab Nat
  modePend : Option W32
  wheelPend : Option W32
  writebacks : List (SpmMem × Nat)
  rowErrs : Tab Nat
  repairs : List RepairCand
  spmOut : List Byte
  -- synchronisation
  outst : List Outstanding
  nextOut : Nat
  /-- Of replay (R411, R412): the dispatch has sent an ACCADD; the numbers its arrival-increment instructions issued under,
  from and to; how many such instructions a reissued dispatch still retires without effect; `nextOut` at the pc. -/
  accSent : Bool
  arrOpen : List (Nat × Nat)
  arrSkip : Nat
  outFrom : Nat
  claim : Option (Nat × Nat)
  ticketMsg : Option (Nat × Nat)
  barrier : Option Nat
  /-- Slots, rows or bytes already done by the instruction at the pc, and the bytes it has read (R191). -/
  progress : Nat
  inBuf : List Byte
  /-- Rows that READ_RESP has brought the load at the pc, by global address, and which rows have come. -/
  remoteIn : Mem
  remoteRows : List Nat
  -- scrub
  /-- When each page was last scrubbed or loaded, by page key; when the present sweep began (R74). -/
  scrubAt : Tab Nat
  sweep : Nat
  agedSweep : Bool
  /-- A spare being brought into service: it takes no dispatch and answers no request (R406). -/
  joining : Bool
  /-- Rows and columns that field repair has replaced (R203), kept in OTP. -/
  repaired : List RepairCand
  /-- Tickets of attached lists that the program has claimed and not completed (R254): list, ticket register, ticket. -/
  tickets : List (Nat × Nat × Nat)
  idleSince : Nat
  deriving DecidableEq, Repr

/-- The AEPI setting after a core reset: no stage enabled. -/
def AepiCfg.reset : AepiCfg := ⟨0, false, 1, false, 0, 0, 0, 0⟩

/-- A dispatch report with nothing to report. -/
def DispatchReport.reset : DispatchReport := ⟨false, false, false, false, 0, 0, 0, 0, 0, 0, false, []⟩

/-- A core after a cold reset: no register written, memories unlisted, every page EMPTY, the sequencer idle. -/
def CoreState.reset : CoreState where
  regs := []
  am := []
  pm := []
  amErr := []
  pmErr := []
  wm := []
  wmErr := []
  pages := []
  acm := []
  acmErr := []
  bad := []
  imem := []
  imemHeld := []
  loaded := false
  seq := .idle
  stepping := false
  pc := 0
  wait := 0
  waited := 0
  loops := []
  exitC := false
  doneC := false
  ags := []
  arr := none
  drn := none
  aepi := AepiCfg.reset
  fault := none
  accHeld := none
  doorbell := none
  dispatch := none
  report := DispatchReport.reset
  passes := []
  checks := []
  planeBuf := []
  passNo := 0
  exitShift := []
  exitTiles := []
  drains := []
  paid := 0
  belayHigh := 0
  ctxs := []
  closing := []
  chunks := []
  kEdges := []
  ownEdges := false
  predOn := false
  skipMap := []
  outCols := 0
  rebound := []
  received := []
  predPlan := []
  rangeWindows := []
  zeroMap := 0
  pageWrites := []
  ways := []
  lru := []
  spills := []
  tagErr := []
  gather := []
  cyc := 0
  queued := []
  tagWait := none
  drainWait := none
  meshWait := []
  wakeNote := []
  arrLost := []
  rr := []
  modePend := none
  wheelPend := none
  writebacks := []
  rowErrs := []
  repairs := []
  spmOut := []
  outst := []
  nextOut := 0
  accSent := false
  arrOpen := []
  arrSkip := 0
  outFrom := 0
  claim := none
  ticketMsg := none
  barrier := none
  progress := 0
  inBuf := []
  remoteIn := []
  remoteRows := []
  scrubAt := []
  sweep := 0
  agedSweep := false
  joining := false
  repaired := []
  tickets := []
  idleSince := 0

/-! ## Types of the device -/

/-- A record of the error log (R416). -/
structure LogRec where
  time : Nat
  seq : Nat
  event : Nat
  status : Nat
  source : Nat
  count : Nat
  last : Nat
  info : W64
  deriving DecidableEq, Repr

/-- Who issued an atomic request (R333, R334), so that the response finds it. -/
inductive AtomFrom where
  | core (c outId : Nat)
  | claim (c list tr : Nat)
  | engine (e : Nat)
  | fabric (p : Nat) (f : Frame)
  | cp (n : Nat)
  deriving DecidableEq, Repr

/-- An atomic request on its way to the unit of its address (R334), in arrival order. -/
structure AtomReq where
  addr : Nat
  op : AtomOp
  sw : Bool
  tw : Bool
  operand : Nat
  compare : Nat
  src : AtomFrom
  /-- The NCLK cycle in which it arrives (R207, R333). -/
  born : Nat
  deriving DecidableEq, Repr

/-- An atomic response on its way back (R334). -/
structure AtomResp where
  src : AtomFrom
  status : Nat
  old : Nat
  deriving DecidableEq, Repr

/-- A doorbell rung at a command processor: a SIGNAL KIND 0 of a core with its VALUE (R230), or a work list whose
DONE_COUNT has reached its LENGTH (R256). -/
inductive Doorbell where
  | signal (core : Nat) (cmd : Option Nat) (value : Nat)
  | list (header : Nat)
  deriving DecidableEq, Repr

/-- The end of a dispatch (R214, R233): the core, the command it served, OK or the status of its fault, its report. -/
structure DispatchEnd where
  core : Nat
  cmd : Option Nat
  status : Nat
  report : DispatchReport
  /-- When its fault came, or its END retired. -/
  time : Nat
  deriving DecidableEq, Repr

/-- A work list by its number (R253, R254): header address, owning device when attached, tickets, owning queue, the
device address of its bitmap and its ledge granules, and whether DONE_COUNT has reached LENGTH. -/
structure WorkList where
  addr : Nat
  dev : Option Nat
  length : Nat
  queue : Nat
  size : Nat
  done : Bool
  deriving DecidableEq, Repr

/-- A submission entry at stage 2 (R268): its source, ring index, SQ head after its fetch, its 64 bytes; the order in
which it was deferred (R296), and whether it has passed check 7; whether it has passed check 6, and the copy of the
memory that check 6 read (R304). -/
structure Entry where
  src : Src
  index : Nat
  sqhead : Nat
  bytes : List Byte
  deferred : Option Nat
  passed : Bool
  checked : Bool
  copy : List Byte
  /-- When it was fetched. -/
  born : Nat
  deriving DecidableEq, Repr

/-- A completion that has been decided and is not yet in its ring (R266, R271, R272): the command it ends, when it is a
final one of a command past stage 3. -/
structure Posting where
  src : Src
  id : Option Nat
  status : Nat
  detail : Nat
  tag : Nat
  flags : Nat
  sqhead : Nat
  result : Nat
  interim : Bool
  irq : Bool
  /-- When its entry was fetched. -/
  born : Nat
  /-- The number of the next command when it was decided: which of two commands of a queue is the older (R298). -/
  seq : Nat
  deriving DecidableEq, Repr

/-- What one batch of a layer covers: a ledge tile (rows, N-blocks and K-blocks from and count; `item` numbers the
pointer-list entry), or a routed round (`item` its first work item, `ml` their number). -/
structure LTile where
  item : Nat
  m0 : Nat
  ml : Nat
  n0 : Nat
  nl : Nat
  k0 : Nat
  kl : Nat
  deriving DecidableEq, Repr

/-- The copy of a layer descriptor (R304). -/
abbrev Desc := List Byte

/-- The layer that a command runs (R304): the copy of its descriptor, its index in a chain, the bound values and sizes
read at stage 4, the core count of R240, whether the predictor runs first (R176), the batches not yet dispatched, the
batch dispatched last, the output width in force (R147), and whether it waits behind a format barrier (R83, R146). -/
structure Layer where
  desc : Desc
  index : Nat
  bounds : List W32
  m : Nat
  n : Nat
  k : Nat
  cores : Nat
  predicting : Bool
  todo : List LTile
  batch : Nat
  obits : Nat
  barrier : Bool
  /-- Its predicted-inactive blocks, row * 2^16 + block, with those audited true (R177). -/
  plan : List (Nat × Bool)
  /-- The routing table (R164): token list and count of each expert. -/
  experts : List (Nat × Nat)
  /-- The entries of the pointer list that are good, in order, and whether a faulty one follows them (R246). -/
  entries : List (List Byte)
  badEntry : Bool
  /-- The batches are staged in ledge memory (R258). -/
  staged : Bool
  /-- It has raised RANGE_MISS in this run. -/
  missed : Bool
  rerun : Bool
  /-- The partial windows of its cores have been judged (R145). -/
  judged : Bool
  deriving DecidableEq, Repr

/-- A command past stage 3 without its final completion: the fields of its entry, its piton record (R409), and what its
dispatches have reported. -/
structure Cmd where
  id : Nat
  src : Src
  op : Nat
  flags : Nat
  tag : Nat
  sqhead : Nat
  words : List Nat
  /-- The layer it runs, and the layers of a chain that have not started: status of its read, and descriptor. -/
  layer : Option Layer
  chain : List (Nat × Desc)
  /-- The layers of a chain that have started (R413), and the bound values of each layer by its index (R244). -/
  past : List (Nat × Desc)
  kept : List (Nat × List W32)
  /-- Device ranges that it reads, address and length, and whether another command has written one of them since (R413). -/
  srcs : List (Nat × Nat)
  stale : Bool
  /-- Completion FLAGS [7:0] raised so far, the STATUS that stands, DETAIL and RESULT. -/
  raised : Nat
  status : Nat
  /-- The CCLK cycle and the logical core of the fault that STATUS is of (R308). -/
  failed : Option (Nat × Nat)
  detail : Nat
  result : Nat
  /-- Its final completion has been decided; its final status is decided and waits for acknowledgements (R20); its
  quiescence request stands (R295); acknowledgements it waits for. -/
  ended : Bool
  closing : Bool
  quiet : Bool
  acks : Nat
  /-- Logical cores it dispatches to, and work lists it has claimed from. -/
  members : List Nat
  lists : List Nat
  /-- Handles and work lists that it names (R294). -/
  uses : List Nat
  useLists : List Nat
  /-- Progress: unit (0 percentage, 1 bytes, 2 devices, 3 pages; 4 none), total, done, and the highest reported (R312). -/
  unit : Nat
  total : Nat
  done : Nat
  shown : Nat
  /-- Layers completed, and the layer that set STATUS (R302). -/
  layers : Nat
  badLayer : Nat
  /-- Sums of what its dispatches report: SIGNAL values, stream lengths, clipping events, audit misses (R307). -/
  sum : Nat
  shortest : Nat
  longest : Nat
  clips : Nat
  amisses : Nat
  /-- ABORT has stopped it (R299); it has written an output; no replay of it is possible (R411). -/
  stopped : Bool
  wrote : Bool
  nonreplay : Bool
  /-- Replay rounds (R414). -/
  rounds : Nat
  /-- When it passed stage 3, and when its next PROGRESS interim completion is due (R273). -/
  since : Nat
  nextProg : Nat
  /-- When its entry was fetched. -/
  born : Nat
  deriving DecidableEq, Repr

/-- A dispatch of a piton record (R409): one program on one logical core. `st`: 0 not dispatched, 1 running, 2 finished,
3 side effect sent. -/
structure Dispatch where
  cmd : Nat
  logical : Nat
  program : List W64
  entry : Nat
  bounds : List W32
  /-- Registers that the command processor writes before the program starts. -/
  config : List (Nat × W32)
  /-- Handles that stand for others in it, by number, as 128-bit entries (R246), and mask records, AM offset and logical
  cores, that the command processor writes (R251). -/
  rebind : List (Nat × Nat)
  masks : List (Nat × Nat)
  /-- The core tiles of a layer that it and the dispatches after it expand, and which of them it is. -/
  work : List LTile
  part : Nat
  /-- A ticket preloaded for a reissue (R257): register and ticket. -/
  ticket : Option (Nat × Nat)
  /-- Core tiles, and output tiles with an edge. -/
  tiles : Nat
  edges : Nat
  batch : Nat
  /-- Held behind a format barrier since this time (R83). -/
  held : Option Nat
  st : Nat
  phys : Nat
  /-- It has been sent again (R410), and the arrival-increment instructions it retires without effect (R412). -/
  reissued : Bool
  arrived : Nat
  /-- What it reports has been counted once (R414). -/
  counted : Bool
  deriving DecidableEq, Repr

/-- The prediction state of a LAYER_ID (R180): predicted-inactive blocks and audit misses in the open window, the tile counts
that wait for it to close, the limits that its last descriptor gave, whether prediction is off, and the WM handles it was loaded
through. -/
structure PredState where
  layer : Nat
  inactive : Nat
  misses : Nat
  queue : List (Nat × Nat)
  shift : Nat
  limit : Nat
  off : Bool
  handles : List Nat
  deriving DecidableEq, Repr

/-- The record of a WEIGHT_LOAD (R409, R410): the WM handle, the command, the descriptor, the sources' handles, and the CRC-32 of each
page written, by logical core and page key. -/
structure WLoad where
  handle : Nat
  cmd : Nat
  desc : Desc
  pages : List (Nat × Nat × W32)
  deriving DecidableEq, Repr

/-- A staging buffer (R258): its command, the ledge granules from `first`, the batch it holds, and its ledge tile. -/
structure Staging where
  cmd : Nat
  queue : Nat
  first : Nat
  count : Nat
  batch : Nat
  tile : Option LTile
  deriving DecidableEq, Repr

/-- A segment of a command's transfer in the ring of a tier DMA engine (R327, R328): the descriptor's words, and the
source bytes worked so far. -/
structure Seg where
  cmd : Nat
  kind : Nat
  src : Nat
  dst : Nat
  len : Nat
  conv : Nat
  srec : Nat
  drec : Nat
  shape : Nat
  queue : Nat
  seq : Nat
  /-- Its first piece of the whole transfer, its pieces, and those worked. -/
  first : Nat
  count : Nat
  done : Nat
  /-- When it entered its ring; it has failed on one engine and been issued again on the next (R402). -/
  born : Nat
  again : Bool
  deriving DecidableEq, Repr

/-- A row in the buffer of a tier atomic slice (R332): the row (device address / 64), whether it has been written, whether
its read is under way, and its last access. -/
structure SliceRow where
  row : Nat
  written : Bool
  filling : Bool
  last : Nat
  deriving DecidableEq, Repr

/-- A command at a drive (R323): the root port, the tier-3 page, the device address of the other side, the direction, a
Flush, the command it belongs to, and when it was submitted. -/
structure DriveCmd where
  drive : Nat
  page : Nat
  addr : Nat
  write : Bool
  flush : Bool
  cmd : Nat
  since : Nat
  deriving DecidableEq, Repr

/-- Which unit waits for the answer of a remote request (R357). -/
inductive ReqFrom where
  | load (c : Nat)
  | store (c outId : Nat)
  | atom (src : AtomFrom)
  | engine (e : Nat)
  | completion (q : Nat)
  | cpRead
  | cmd (id : Nat)
  deriving DecidableEq, Repr

/-- A remote request without its answer (R347, R361): its tag, once it has one, and the message. -/
structure RemoteReq where
  issuer : Nat
  tag : Option Nat
  ty : Nat
  tc : Nat
  dev : Nat
  msg : Msg
  src : ReqFrom
  /-- When it was sent (R361). -/
  since : Nat
  deriving DecidableEq, Repr

/-- A frame waiting in the switch (R350): the port it arrived on, for a frame in transit; the port it must leave on, for a
message of one hop; whether it has moved to VC1 (R355); when it came. -/
structure Egress where
  frame : Frame
  port : Option Nat
  out : Option Nat
  esc : Bool
  since : Nat
  deriving DecidableEq, Repr

/-- The answer to a remote access served at a mesh port (R194): to which unit, with what status and data. -/
structure MeshAns where
  issuer : Nat
  device : Nat
  reqTag : Nat
  status : Nat
  data : List Byte
  deriving DecidableEq, Repr

/-- A single-message frame for this device, handed to the unit of its address (R358): a number of its own, and the port it
arrived on; none for one that this device sent itself. -/
structure Arrived where
  no : Nat
  port : Option Nat
  frame : Frame
  deriving DecidableEq, Repr

/-- What a port sends: a frame, or the sideband of a codeword (R343, R344). -/
inductive Wire where
  | frame (f : Frame)
  | side (ack : Nat) (nak : Bool) (crclass credits : Nat)
  | idle
  deriving DecidableEq, Repr

/-- A fabric port beyond its registers (R339, R348, R349, R363, R365, R368, R370, R371, R439). -/
structure PortState where
  /-- Trained, with signal; DEGRADED until PORT_RESET; in QUARANTINE for a failed identity exchange; MISWIRED by an ASSIGN. -/
  trained : Bool
  degraded : Bool
  failedId : Bool
  badAssign : Bool
  /-- Receiving: the next SEQ, whether everything is discarded until it, flits held in each buffer (TC * 2 + VC). -/
  rxSeq : Nat
  discard : Bool
  rxUsed : Tab Nat
  /-- Sending: the next SEQ, the retry buffer, flits held in each buffer of the peer. -/
  txSeq : Nat
  retry : List Frame
  txUsed : Tab Nat
  /-- Frames of TC2 and TC3 sent in the present round (R351). -/
  round2 : Nat
  round3 : Nat
  /-- Times of NAKs acted on, of violations, of retrains. -/
  naks : List Nat
  viols : List Nat
  retrains : List Nat
  /-- The last hello, when it came (or training ended), and when the last was sent. -/
  hello : Option HelloRec
  heard : Nat
  said : Nat
  /-- A hash has been recorded at a CONFIG. -/
  recorded : Bool
  /-- The nonce and time of an open challenge; the peer has proved its identity; this device has answered the peer. -/
  nonce : List Byte
  asked : Option Nat
  passed : Bool
  answered : Bool
  /-- The first ASSIGN of the wave. -/
  assign : Option Coord
  deriving DecidableEq, Repr

/-- A port after reset. -/
def PortState.reset : PortState where
  trained := false
  degraded := false
  failedId := false
  badAssign := false
  rxSeq := 0
  discard := false
  rxUsed := []
  txSeq := 0
  retry := []
  txUsed := []
  round2 := 0
  round3 := 0
  naks := []
  viols := []
  retrains := []
  hello := none
  heard := 0
  said := 0
  recorded := false
  nonce := []
  asked := none
  passed := false
  answered := false
  assign := none

/-- A discovery wave at this device (R364 to R368). -/
structure Wave where
  candHost : Bool
  cand : Nat
  /-- When the candidate last changed. -/
  since : Nat
  requireId : Bool
  root : Bool
  coords : Option Coord
  parent : Option Nat
  children : List Nat
  /-- Recorded sizes, by dimension. -/
  sizes : List (Nat × Nat)
  lastJoin : Nat
  acks : Nat
  configAt : Nat
  deriving DecidableEq, Repr

/-- No wave. -/
def Wave.reset : Wave := ⟨false, 0, 0, false, false, none, none, [], [], 0, 0, 0⟩

/-- A suspect of this device (R372): its kind, port and ID; evidence bits reported and not yet recovered; bits gained in
the open 1 ms window, and when that opened. -/
structure Suspect where
  kind : Nat
  port : Nat
  id : Nat
  told : Nat
  gained : Nat
  opened : Option Nat
  deriving DecidableEq, Repr

/-- A report held for forwarding, or merged at the collector (R373, R374), with the time of its first. -/
structure WitHold where
  rep : WitnessRec
  since : Nat
  deriving DecidableEq, Repr

/-- A live monitor channel (R421). -/
structure TelLive where
  min : Nat
  max : Nat
  count : Nat
  bins : List Nat
  deriving DecidableEq, Repr

/-- A cleared monitor channel. -/
def TelLive.reset : TelLive := ⟨0xFFFFFFFF, 0, 0, List.replicate 16 0⟩

/-- Power control beyond its registers (R381 to R391). Powers are in units of 0.1 W. -/
structure PwrState where
  /-- P and D of the last period, and D_u as a fraction. -/
  p : Nat
  d : Nat
  duN : Nat
  duD : Nat
  /-- When the last period ended. -/
  period : Nat
  /-- The point whose voltage the rails carry (8: boost). -/
  volt : Nat
  /-- A move: 0 none, 1 down, 2 up; the voltage commanded and when, while the regulators are busy. -/
  move : Nat
  busy : Option (Nat × Nat)
  /-- The point whose frequency applies at the next period boundary. -/
  pend : Option Nat
  /-- Boost: its voltage has settled and it applies at the next period boundary. -/
  boost : Bool
  /-- Thermal steps due at the next boundary; the thermal floor; the last step's time while a sensor is hot. -/
  step : Bool
  floor : Nat
  hotAt : Option Nat
  temps : Tab Nat
  /-- Since when k has been 0, or not 0; consecutive periods at 60 over the cap. -/
  zeroAt : Option Nat
  busyAt : Option Nat
  k60 : Nat
  /-- PWR_ALERT_N is low; it rose at, while the hold lasts. -/
  alertLow : Bool
  alertRose : Option Nat
  /-- Since when the MP owes a new target (R385); its last re-evaluation. -/
  changed : Option Nat
  evalAt : Nat
  deriving DecidableEq, Repr

/-- Power control after a cold reset. -/
def PwrState.reset : PwrState where
  p := 0
  d := 0
  duN := 0
  duD := 1
  period := 0
  volt := 0
  move := 0
  busy := none
  pend := none
  boost := false
  step := false
  floor := 0
  hotAt := none
  temps := []
  zeroAt := some 0
  busyAt := none
  k60 := 0
  alertLow := false
  alertRose := none
  changed := none
  evalAt := 0

/-- A rope at this device beyond its registers (R393 to R400). -/
structure RopeState where
  /-- The member list of the join, the present members, and since when a join waits. -/
  list : List Nat
  members : List Nat
  joinAt : Option Nat
  /-- At the list's lowest ID: the forms that have come. -/
  forms : List RopeForm
  /-- The sequence number of the next flood, and floods seen: rope, origin, sequence, time. -/
  seq : Nat
  seen : List (Nat × Nat × Nat × Nat)
  /-- The last epoch boundary of this member. -/
  syncAt : Nat
  /-- At the leader: votes (device, epoch, point), consecutive epochs missed by device, whether the votes of the present
  epoch have been examined. -/
  votes : List (Nat × Nat × Nat)
  missed : Tab Nat
  /-- Devices whose floor stands; whether a PACE_DOWN has been seen in this epoch. -/
  floors : List Nat
  downSeen : Bool
  /-- A rise to come: its epoch and point; the boundary has passed and the voltage has not settled. -/
  rise : Option (Nat × Nat)
  riseDue : Bool
  examined : Bool
  deriving DecidableEq, Repr

/-- No rope. -/
def RopeState.reset : RopeState := ⟨[], [], none, [], 0, [], 0, [], [], [], false, none, false, false⟩

/-- Boot and pins (R431, R444, R445, R450): the kind of reset that the boot follows (0 cold, 1 warm, 2 soft), regulator
groups enabled and in range, steps that run in parallel and have not ended, pins. -/
structure BootState where
  kind : Nat
  vrEn : Nat
  vrPg : List Nat
  memTodo : Bool
  driveTodo : Bool
  keyTodo : Bool
  sysRstLow : Bool
  perstLow : Bool
  tripped : Bool
  recoveryMode : Bool
  deriving DecidableEq, Repr

/-- Right after SYS_RST_N has risen: nothing enabled, everything to do. -/
def BootState.reset : BootState := ⟨0, 0, [], true, true, true, false, false, false, false⟩

/-- A fence under way (R406): the spare being brought in, the logical number it will carry, the core it replaces, and
the status that the fence's cause had. -/
structure Sparing where
  spare : Nat
  logical : Nat
  fenced : Nat
  status : Nat
  deriving DecidableEq, Repr

/-! ## The whole block -/

/-- A word of a buffer of the link die that its check bits find uncorrectable (R402): the buffer of a tier DMA engine, a
command's piton record, a completion in a pending buffer, the retry buffer of a port. -/
inductive BadWord where
  | engine (e : Nat)
  | piton (id : Nat)
  | completion (p : Posting)
  | retry (p : Nat)
  deriving DecidableEq, Repr

/-- The state of the block. -/
structure State where
  /-- Commands waiting, first in, first out. -/
  pending : List Instr
  /-- NCLK cycles since the management die left reset (log 1). -/
  now : Nat
  /-- The free-value counter (log 7): the model's own. -/
  free : Nat
  regs : Tab W32
  cores : Tab CoreState
  /-- Device memory by device address: tiers 1 and 2 and ledge memory. -/
  dmem : Mem
  /-- What the drives hold, by root port * 2^48 + byte on the drive (R324). -/
  disks : Mem
  /-- Error masks of ledge words, by device address / 8; uncorrectable rows of tiers 1 and 2, by device address / 64,
  carry a mask of two or more bits. -/
  ledgeErr : Tab W64
  /-- Corrected errors of each 64-byte row of ledge memory since its bank was replaced or the die was reset (R208). -/
  ledgeRows : Tab Nat
  rowErr : Tab W64
  /-- How often in a row the next transfer of a tier-1 row, by device address / 64, fails the link CRC (R319). -/
  edcFaults : Tab Nat
  /-- Uncorrectable words of the buffers of the link die (R402); nothing in the model sets one (log 57). -/
  badWords : List BadWord
  /-- Host memory by host address. -/
  hmem : Mem
  atoms : List AtomReq
  atomResps : List AtomResp
  doorbells : List Doorbell
  completes : List DispatchEnd
  /-- Barriers (R229), by command id * 16 + barrier: generation, and the logical cores that have arrived in it. -/
  barriers : Tab (Nat × List Nat)
  /-- Work lists by number. -/
  lists : Tab (Option WorkList)
  cmds : List Cmd
  nextCmd : Nat
  log : Tab LogRec
  /-- Vectors that ask for an MSI-X message (R274). -/
  vecReq : List Nat
  /-- Cores that must be fenced, with the CAUSE (R405), oldest first. -/
  fenceDue : List (Nat × Nat)
  remoteReqs : List RemoteReq
  egress : List Egress
  /-- Latched high halves (R76), by agent code * 2^32 + BAR0 address of the low half. -/
  latches : Tab (Option W32)
  /-- Latched high half of an instruction-memory entry (R237), by agent code * 128 + core. -/
  imemLatch : Tab (Option (Nat × W32))
  /-- Latched record of the error log (R418), by agent code. -/
  logLatch : Tab (Option (Nat × LogRec))
  /-- What the last register read of each agent returned, by agent code. -/
  readData : Tab W32
  /-- The last boot step in order that has ended (R431). -/
  bootStep : Nat
  /-- The PCIe endpoint has completed link training (R3). -/
  pcieUp : Bool
  /-- Answers of the mesh ports. -/
  meshOut : List MeshAns
  /-- A core has entered DEBUG since boot (R438). -/
  debugSeen : Bool
  /-- Entries at stage 2, each source's in ring order. -/
  fetched : List Entry
  /-- Deferrals so far: the order of R296. -/
  deferNo : Nat
  /-- Completions decided, in order. -/
  posting : List Posting
  /-- The pending buffers (R272). -/
  pend : List Posting
  /-- When the wait of a queue's pending buffer was last counted in CMDQ_Q_CQSTALL. -/
  pendFrom : Tab Nat
  /-- Queues in ERROR whose ENABLE has been written 0 there (R263). -/
  qEnding : List Nat
  /-- Whose entry each command processor took last from stage 2, by its rank + 1 (R268). -/
  cpTurn : Tab Nat
  /-- Phase of each queue's completion ring (R271). -/
  phase : Tab Bool
  /-- Unsignalled completions of each queue: count, and when the oldest was posted (R274). -/
  unsig : Tab (Nat × Nat)
  /-- MSI-X messages sent, by vector. -/
  msixOut : List Nat
  /-- Bus Master Enable of the function (R458). -/
  busMaster : Bool
  /-- The function is in D0; in D3hot. -/
  inD0 : Bool
  d3hot : Bool
  /-- The USB port is configured and not suspended (R285). -/
  usbUp : Bool
  /-- The rings of the two private pairs (R290), and how many completions each has posted. -/
  usbSq : List (List Byte)
  usbCq : List (List Byte)
  bmcSq : List (List Byte)
  bmcCq : List (List Byte)
  pairPosted : Tab Nat
  /-- Entries fetched from each pair's submission ring, modulo 16: its head. -/
  pairHead : Tab Nat
  /-- Bulk-in transfers of the service port, and its notifications (R284, R291). -/
  usbOut : List (List Byte)
  usbNotes : Nat
  /-- A SOFT_RESET accepted and not yet applied (R428). -/
  softReset : Option Src
  /-- Its final completion has been posted. -/
  softPosted : Bool
  /-- A quiescence request for renumbering (R408). -/
  renumber : Bool
  /-- The command processor that serves queue q mod 4 (R19), where it is not q mod 4. -/
  serve : Tab Nat
  /-- Rows of other devices that the command processors have read, by device * 2^48 + address; which rows. -/
  cpIn : Mem
  cpRows : List Nat
  /-- The dispatches of the piton records, in order. -/
  disp : List Dispatch
  /-- The last layer of each source (R83, R146): precision field, command, whether it is held for its CLIP_LIMIT. -/
  lastLayer : Tab (Option (Nat × Nat × Bool))
  /-- Prediction state by LAYER_ID (R180). -/
  preds : List PredState
  wloads : List WLoad
  staging : List Staging
  /-- The rings of the tier DMA engines (R327), the engine that received the last segment, and segments so far. -/
  rings : Tab (List Seg)
  /-- What is left of transfers to deal, the oldest first: `first` the next piece, `count` the pieces left (R327). -/
  backlog : List Seg
  segEngine : Nat
  segSeq : Nat
  /-- The buffers of the atomic slices (R332): tier 1 at 0 to 23, tier 2 at 24 to 31; least recently used first. -/
  slices : Tab (List SliceRow)
  /-- Commands at the drives, in order of submission. -/
  driveCmds : List DriveCmd
  /-- Root ports of the drives in use (R324), in order. -/
  drives : List Nat
  /-- Records written since the cold reset, and the record that ERRLOG_READ last copied from each index (R418). -/
  logCount : Nat
  logCopied : Tab (Option LogRec)
  /-- Rows of other devices that the engines have read, by global address; which rows, by engine. -/
  dmaIn : Mem
  dmaRows : List (Nat × Nat)
  /-- Completions of BAR2 accesses: 0 successful with its data, 1 Unsupported Request, 2 Completer Abort. -/
  bar2Out : List (Nat × List Byte)
  /-- When each mailbox channel was sent (R285); internal doorbells told to each owner number (R284). -/
  mbxSince : Tab Nat
  mbxBell : Tab Nat
  /-- The SPI flash (R435): images, by stage * 2 + slot, and the certificate area at 8; the selector of each stage. What it
  holds at reset is free (log 30). -/
  flash : Tab (List Byte)
  selector : Tab Nat
  /-- Attestation key pairs generated so far (R431, R436); the recovery image that runs (R432). -/
  akGen : Nat
  recovery : List Byte
  /-- Messages for this device, in order of arrival; how many have come. -/
  inbox : List Arrived
  arrivals : Nat
  /-- The fabric ports. -/
  ports : Tab PortState
  /-- What the ports have sent, in order. -/
  fabOut : List (Nat × Wire)
  /-- Rows that a command processor asked for and whose read failed: row of `cpRows`, status. -/
  cpBad : List (Nat × Nat)
  /-- Broken links of this device's rings: dimension, coordinate whose + link it is (R356). -/
  broken : List (Nat × Nat)
  /-- The discovery wave. -/
  wave : Wave
  /-- Suspects of this device, reports it holds, and reports it collects. -/
  suspects : List Suspect
  holds : List WitHold
  collect : List WitHold
  /-- Live monitor channels. -/
  telLive : Tab TelLive
  /-- Power control. -/
  pwr : PwrState
  /-- The rope. -/
  rope : RopeState
  /-- Boot and pins. -/
  boot : BootState
  /-- The MP is in reset or halted (R17). -/
  mpDown : Bool
  /-- The MP, stopped by a fault of its memory, loads its firmware again (R402). -/
  mpReload : Bool
  /-- Consecutive polls that a core has missed. -/
  polls : Tab Nat
  /-- When each core was last polled. -/
  polled : Tab Nat
  /-- Spares being brought into service. -/
  sparing : List Sparing
  /-- Fences whose cairn record is not yet in OTP: core, record. -/
  cairnDue : List (Nat × Nat)
  /-- Entries of the field-repair bank in OTP (R203). -/
  fieldRepairs : Nat
  /-- SVN of the image that each stage runs (R438). -/
  svns : Tab Nat
  /-- Member list of the last ROPE_JOIN (R438). -/
  ropeList : List Nat
  deriving DecidableEq, Repr

/-- Why the block stops. -/
inductive Fault where
  /-- SYS_RST_N released before the conditions of R444 hold: "Boot is undefined". Raised by SYS_RST_RELEASE. Safe: the
  specification gives no behaviour after it. -/
  | bootUndefined
  deriving DecidableEq, Repr

/-- Why a command has no meaning. -/
inductive Refusal where
  /-- The command is not modelled. Raised by no meaning; safe: the model stops. -/
  | notModelled (mnemonic : String)
  deriving DecidableEq, Repr

/-- The block right after a cold reset, in BOOT (log 5). -/
def State.reset : State where
  pending := []
  now := 0
  free := 0
  regs := []
  cores := []
  dmem := []
  disks := []
  ledgeErr := []
  ledgeRows := []
  rowErr := []
  edcFaults := []
  badWords := []
  hmem := []
  atoms := []
  atomResps := []
  doorbells := []
  completes := []
  barriers := []
  lists := []
  cmds := []
  nextCmd := 0
  log := []
  vecReq := []
  fenceDue := []
  remoteReqs := []
  egress := []
  latches := []
  imemLatch := []
  logLatch := []
  readData := []
  bootStep := 0
  pcieUp := false
  meshOut := []
  debugSeen := false
  fetched := []
  deferNo := 0
  posting := []
  pend := []
  pendFrom := []
  qEnding := []
  cpTurn := []
  phase := []
  unsig := []
  msixOut := []
  busMaster := false
  inD0 := true
  d3hot := false
  usbUp := false
  usbSq := []
  usbCq := []
  bmcSq := []
  bmcCq := []
  pairPosted := []
  pairHead := []
  usbOut := []
  usbNotes := 0
  softReset := none
  softPosted := false
  renumber := false
  serve := []
  cpIn := []
  cpRows := []
  disp := []
  lastLayer := []
  preds := []
  wloads := []
  staging := []
  rings := []
  backlog := []
  segEngine := 31
  segSeq := 0
  slices := []
  driveCmds := []
  drives := []
  logCount := 0
  logCopied := []
  dmaIn := []
  dmaRows := []
  bar2Out := []
  mbxSince := []
  mbxBell := []
  flash := []
  selector := []
  akGen := 0
  recovery := []
  inbox := []
  arrivals := 0
  ports := []
  fabOut := []
  cpBad := []
  broken := []
  wave := Wave.reset
  suspects := []
  holds := []
  collect := []
  telLive := []
  pwr := PwrState.reset
  rope := RopeState.reset
  boot := BootState.reset
  mpDown := false
  mpReload := false
  polls := []
  polled := []
  sparing := []
  cairnDue := []
  fieldRepairs := 0
  svns := []
  ropeList := []

end Sys2Proof.Machine
end

