-- ==== Sys2Proof/Machine/Ops.lean ====
section
/-!
DEFINITION. The shared operations: tables, registers, counters, the error log and the violation counters, cores,
scratchpads, weight memory, accumulator memory, device memory, handles.

Each is total. An operation that can fail answers a status code of R310 beside the state.
-/

namespace Sys2Proof.Machine

/-- What a command answers. -/
abbrev Out := Host.Outcome State Fault Refusal

/-! ## Tables -/

/-- The value at a key: the first entry listed, or the default. -/
def Tab.get {α : Type} (d : Nat → α) (t : Tab α) (k : Nat) : α :=
  match t.find? (fun e => e.1 == k) with
  | some e => e.2
  | none => d k

/-- The table with a value at a key, in canonical form: keys rising, no entry that equals its default. -/
def Tab.set {α : Type} [DecidableEq α] (d : Nat → α) (t : Tab α) (k : Nat) (v : α) : Tab α :=
  t.filter (fun e => decide (e.1 < k)) ++ (if v = d k then [] else [(k, v)]) ++ t.filter (fun e => decide (k < e.1))

/-- The canonical form: keys strictly rising, no entry equal to its default. -/
abbrev Tab.wf {α : Type} (d : Nat → α) (t : Tab α) : Prop :=
  t.Pairwise (fun a b => a.1 < b.1) ∧ ∀ e ∈ t, e.2 ≠ d e.1

/-- What a byte that nothing has written reads as (log 3). -/
def memDefault : Nat → Byte := fun _ => 0

/-- A byte of a memory. -/
abbrev Mem.byte (m : Mem) (a : Nat) : Byte := Tab.get memDefault m a

/-- The memory with one byte written. -/
abbrev Mem.put (m : Mem) (a : Nat) (b : Byte) : Mem := Tab.set memDefault m a b

/-- The canonical form of a memory. -/
abbrev Memory.wf (m : Mem) : Prop := Tab.wf memDefault m

/-- `n` bytes from an address. -/
def Mem.read (m : Mem) (a : Nat) : Nat → List Byte
  | 0 => []
  | n + 1 => Mem.byte m a :: Mem.read m (a + 1) n

/-- Bytes written from an address on. -/
def Mem.write (m : Mem) (a : Nat) : List Byte → Mem
  | [] => m
  | b :: bs => Mem.write (Mem.put m a b) (a + 1) bs

/-! ## Registers outside CORE -/

/-- A register outside CORE. -/
def State.reg (s : State) (a : Nat) : W32 := Tab.get deviceReset s.regs a

/-- A register outside CORE written. -/
def State.setReg (s : State) (a : Nat) (v : W32) : State :=
  { s with regs := Tab.set deviceReset s.regs a v }

/-- A field of a register outside CORE. -/
def State.fld (s : State) (a hi lo : Nat) : Nat := regField (s.reg a) hi lo

/-- A field of a register outside CORE written. -/
def State.setFld (s : State) (a hi lo v : Nat) : State := s.setReg a (setField (s.reg a) hi lo v)

/-- A 32-bit sum that stops at 0xFFFF_FFFF (R76). -/
def satAdd (v : W32) (n : Nat) : W32 :=
  if v.toNat + n < 2 ^ 32 then BitVec.ofNat 32 (v.toNat + n) else 0xFFFFFFFF#32

/-- A saturating counter register raised. -/
def State.bump (s : State) (a n : Nat) : State := s.setReg a (satAdd (s.reg a) n)

/-- A saturating counter that is a field of a register raised. -/
def State.bumpFld (s : State) (a hi lo n : Nat) : State :=
  s.setFld a hi lo (min (s.fld a hi lo + n) (2 ^ (hi + 1 - lo) - 1))

/-- The 64-bit value of a register pair. -/
def State.pair (s : State) (lo hi : Nat) : Nat := (s.reg lo).toNat + 2 ^ 32 * (s.reg hi).toNat

/-- A register pair written. -/
def State.setPair (s : State) (lo hi v : Nat) : State :=
  (s.setReg lo (BitVec.ofNat 32 v)).setReg hi (BitVec.ofNat 32 (v / 2 ^ 32))

/-! ## Cores -/

/-- A physical core. -/
def State.core (s : State) (c : Nat) : CoreState := Tab.get (fun _ => CoreState.reset) s.cores c

/-- A physical core replaced. -/
def State.setCore (s : State) (c : Nat) (k : CoreState) : State :=
  { s with cores := Tab.set (fun _ => CoreState.reset) s.cores c k }

/-- A physical core changed. -/
def State.modCore (s : State) (c : Nat) (f : CoreState → CoreState) : State := s.setCore c (f (s.core c))

/-! ## What a command leaves as it was

A meaning says by one of these which parts of the machine its command does not reach: they stay, whatever it does. -/

/-- `t` with the queue and the rings of the private pairs as they are in `s`. -/
def State.sameRings (s t : State) : State :=
  { t with pending := s.pending, usbSq := s.usbSq, usbCq := s.usbCq, bmcSq := s.bmcSq, bmcCq := s.bmcCq }

/-- `t` with the pins, the links towards the agents outside, the boot and the drives as they are in `s`. -/
def State.samePins (s t : State) : State :=
  { t with busMaster := s.busMaster, inD0 := s.inD0, d3hot := s.d3hot, pcieUp := s.pcieUp, usbUp := s.usbUp, drives := s.drives,
           boot := s.boot, bootStep := s.bootStep }

/-- `t` with the flash, its selectors and the attestation key as they are in `s`. -/
def State.sameSecure (s t : State) : State :=
  { t with selector := s.selector, flash := s.flash, akGen := s.akGen, recovery := s.recovery, svns := s.svns }

/-- The queue and the rings of the private pairs stay. -/
def State.keepRings (s : State) : Out → Out
  | .next t => .next (s.sameRings t)
  | o => o

/-- The pins, the links towards the agents outside, the boot and the drives stay. -/
def State.keepPins (s : State) : Out → Out
  | .next t => .next (s.samePins t)
  | o => o

/-- The flash, its selectors and the attestation key stay. -/
def State.keepSecure (s : State) : Out → Out
  | .next t => .next (s.sameSecure t)
  | o => o

/-- All three stay. -/
def State.keepEdge (s : State) (o : Out) : Out := s.keepRings (s.keepPins (s.keepSecure o))

/-- `t` with the fabric ports, discovery and the witness reports as they are in `s`. -/
def State.sameFabric (s t : State) : State :=
  { t with ports := s.ports, fabOut := s.fabOut, wave := s.wave, broken := s.broken, suspects := s.suspects, holds := s.holds,
           collect := s.collect, arrivals := s.arrivals }

/-- `t` with power control and the rope as they are in `s`. -/
def State.samePower (s t : State) : State := { t with pwr := s.pwr, rope := s.rope, ropeList := s.ropeList }

/-- `t` with device memory, the drives and host memory as they are in `s`; a read may still correct words of ledge memory and
retry transfers (R205, R319). -/
def State.sameMem (s t : State) : State :=
  { t with dmem := s.dmem, disks := s.disks, hmem := s.hmem, rowErr := s.rowErr }

/-- `t` with every core as it is in `s`. -/
def State.sameCores (s t : State) : State := { t with cores := s.cores }

/-- `t` with every core but one as it is in `s`. -/
def State.sameOthers (s : State) (c : Nat) (t : State) : State := { t with cores := (s.setCore c (t.core c)).cores }

/-- The fabric ports, discovery and the witness reports stay. -/
def State.keepFabric (s : State) : Out → Out
  | .next t => .next (s.sameFabric t)
  | o => o

/-- Power control and the rope stay. -/
def State.keepPower (s : State) : Out → Out
  | .next t => .next (s.samePower t)
  | o => o

/-- Device memory and host memory stay. -/
def State.keepMem (s : State) : Out → Out
  | .next t => .next (s.sameMem t)
  | o => o

/-- Every core stays. -/
def State.keepCores (s : State) : Out → Out
  | .next t => .next (s.sameCores t)
  | o => o

/-- Every core but one stays. -/
def State.keepOtherCores (s : State) (c : Nat) : Out → Out
  | .next t => .next (s.sameOthers c t)
  | o => o

/-- A command of one core. -/
def State.inCore (s : State) (c : Nat) (o : Out) : Out :=
  s.keepEdge (s.keepFabric (s.keepPower (s.keepMem (s.keepOtherCores c o))))

/-- A command of several cores. -/
def State.inCores (s : State) (o : Out) : Out := s.keepEdge (s.keepFabric (s.keepPower (s.keepMem o)))

/-- A command of registers and queues. -/
def State.inRegs (s : State) (o : Out) : Out := s.keepEdge (s.keepFabric (s.keepPower (s.keepMem (s.keepCores o))))

/-- A command of registers and queues that reaches power control. -/
def State.inPower (s : State) (o : Out) : Out := s.keepEdge (s.keepFabric (s.keepMem (s.keepCores o)))

/-- A command of the fabric. -/
def State.inFabric (s : State) (o : Out) : Out := s.keepEdge (s.keepPower (s.keepMem (s.keepCores o)))

/-- A command of an agent outside. -/
def State.inEdge (s : State) (o : Out) : Out := s.keepFabric (s.keepPower (s.keepMem (s.keepCores o)))

/-- A stored register of a core, by offset. -/
def CoreState.reg (k : CoreState) (c off : Nat) : W32 := Tab.get (coreReset c) k.regs off

/-- A stored register of a core written. -/
def CoreState.setReg (k : CoreState) (c off : Nat) (v : W32) : CoreState :=
  { k with regs := Tab.set (coreReset c) k.regs off v }

/-- A field of a core register. -/
def CoreState.fld (k : CoreState) (c off hi lo : Nat) : Nat := regField (k.reg c off) hi lo

/-- A field of a core register written. -/
def CoreState.setFld (k : CoreState) (c off hi lo v : Nat) : CoreState :=
  k.setReg c off (setField (k.reg c off) hi lo v)

/-- A saturating counter of a core raised. -/
def CoreState.bump (k : CoreState) (c off n : Nat) : CoreState := k.setReg c off (satAdd (k.reg c off) n)

/-- A saturating field counter of a core raised. -/
def CoreState.bumpFld (k : CoreState) (c off hi lo n : Nat) : CoreState :=
  k.setFld c off hi lo (min (k.fld c off hi lo + n) (2 ^ (hi + 1 - lo) - 1))

/-- A 64-bit count of a core, low half at `off` and high half at `off + 4`, raised. -/
def CoreState.bump64 (k : CoreState) (c off n : Nat) : CoreState :=
  let v := (k.reg c off).toNat + 2 ^ 32 * (k.reg c (off + 4)).toNat + n
  (k.setReg c off (BitVec.ofNat 32 v)).setReg c (off + 4) (BitVec.ofNat 32 (v / 2 ^ 32))

/-- A register of core `c` in the state. -/
def State.creg (s : State) (c off : Nat) : W32 := (s.core c).reg c off

/-- A register of core `c` written. -/
def State.setCreg (s : State) (c off : Nat) (v : W32) : State := s.modCore c (·.setReg c off v)

/-- A counter of core `c` raised. -/
def State.cbump (s : State) (c off n : Nat) : State := s.modCore c (·.bump c off n)

/-- CORE_ID.STATE: 0 active, 1 spare, 2 fenced (R12). -/
def State.coreSt (s : State) (c : Nat) : Nat := regField (s.creg c CORE_ID) 17 16

/-- CORE_ID.LOGICAL. -/
def State.logicalOf (s : State) (c : Nat) : Nat := regField (s.creg c CORE_ID) 14 8

/-- The physical core in service under a logical number (R12); none while a spare is being brought into service for it
(R406). -/
def State.physOf (s : State) (i : Nat) : Option Nat :=
  (List.range 72).find? (fun c => s.coreSt c == 0 && s.logicalOf c == i && !(s.core c).joining)

/-- A core in service. -/
def State.anyCore (s : State) : Option Nat := (List.range 72).find? (fun c => s.coreSt c == 0)

/-- What answers for a logical number without a core in service: a number below ACTIVE whose spare is on its way refuses
(R406); no other number is a core. -/
def State.coreless (s : State) (i : Nat) : Nat :=
  if (List.range 72).any (fun c => s.coreSt c == 0 && s.logicalOf c == i) then 0x13 else 0x12

/-- The compute die of a physical core (R10). -/
def dieOf (c : Nat) : Nat := c / 36

/-- GLB_CORES.ACTIVE. -/
def State.active (s : State) : Nat := s.fld GLB_CORES 6 0

/-! ## Status codes (R310) -/

abbrev stOk : Nat := 0x00
abbrev stAccepted : Nat := 0x01
abbrev stProgress : Nat := 0x02
abbrev stMalformed : Nat := 0x10
abbrev stBadOpcode : Nat := 0x11
abbrev stBadField : Nat := 0x12
abbrev stStateRefused : Nat := 0x13
abbrev stNoResource : Nat := 0x15
abbrev stQuota : Nat := 0x16
abbrev stShapeInvalid : Nat := 0x20
abbrev stMetadataInvalid : Nat := 0x21
abbrev stRangeMissFinal : Nat := 0x22
abbrev stNonreplayable : Nat := 0x23
abbrev stUncorrectable : Nat := 0x24
abbrev stAborted : Nat := 0x25
abbrev stTimeout : Nat := 0x26
abbrev stAuthFailed : Nat := 0x30
abbrev stNotSecure : Nat := 0x31
abbrev stFabricUnreachable : Nat := 0x40
abbrev stRopeRefused : Nat := 0x41

/-! ## Time -/

/-- SCLK cycles since the management die left reset; SCLK is NCLK / 4 (log 1). -/
def State.sclk (s : State) : Nat := s.now / 4

/-- One NCLK cycle passes (log 1). -/
def State.tick (s : State) : State := { s with now := s.now + 1 }

/-- The clock has reached a time: the command of an expiry is the passing of that time (log 1). -/
def State.reach (s : State) (t : Nat) : State := { s with now := max s.now t }

/-- One microsecond and one millisecond in NCLK cycles. -/
def usNclk : Nat := 1200
def msNclk : Nat := 1200000

/-- One millisecond in SCLK cycles. -/
def msSclk : Nat := 300000

/-! ## The error log (R416, R417) -/

/-- An unwritten record. -/
def LogRec.reset : LogRec := ⟨0, 0, 0, 0, 0, 0, 0, 0⟩

/-- Record `i` of the ring. -/
def State.logAt (s : State) (i : Nat) : LogRec := Tab.get (fun _ => LogRec.reset) s.log i

/-- The SOURCE of a record (R416). -/
def logSource (kind index : Nat) : Nat := kind * 0x1000 + index

/-- The record a new occurrence coalesces into: the same event, status, source and INFO within 1 ms (R417). -/
def State.coalesces (s : State) (event status source : Nat) (info : W64) : Option (Nat × LogRec) :=
  s.log.find? (fun e => e.2.event == event && e.2.status == status && e.2.source == source && e.2.info == info
    && decide (s.sclk ≤ e.2.time + msSclk))

/-- The bits of CMDQ_EVT. -/
abbrev evtMbxMsg : Nat := 0
abbrev evtMbxAck : Nat := 1
abbrev evtMbxTmo : Nat := 2
abbrev evtErrlog : Nat := 3
abbrev evtCapUnmet : Nat := 4
abbrev evtQerr : Nat := 5
abbrev evtWitness : Nat := 6

/-- A CMDQ_EVT bit set; a bit that was clear and is enabled asks for vector 64 (R274). -/
def State.raiseEvt (s : State) (b : Nat) : State :=
  let fresh := !(s.reg CMDQ_EVT).getLsbD b && (s.reg CMDQ_EVT_EN).getLsbD b
  let s := s.setReg CMDQ_EVT (s.reg CMDQ_EVT ||| BitVec.twoPow 32 b)
  if fresh then { s with vecReq := s.vecReq ++ [64] } else s

/-- An occurrence logged: coalesced, or a new record at RAS_LOG_HEAD.NEXT with CMDQ_EVT.ERRLOG set. -/
def State.logEvent (s : State) (event status source : Nat) (info : W64) : State :=
  match s.coalesces event status source info with
  | some (i, r) =>
    let r' : LogRec := { r with count := min (r.count + 1) 0xFFFF, last := (s.sclk - r.time) % 2 ^ 32 }
    { s with log := Tab.set (fun _ => LogRec.reset) s.log i r' }
  | none =>
    let i := s.fld RAS_LOG_HEAD 11 0
    let q := (s.reg RAS_LOG_SEQ).toNat
    let q' := if q = 0xFFFFFFFF then 1 else q + 1
    let s : State := { s with log := Tab.set (fun _ => LogRec.reset) s.log i ⟨s.sclk, q', event, status, source, 1, 0, info⟩,
                              logCount := s.logCount + 1 }
    let s := s.setReg RAS_LOG_SEQ (BitVec.ofNat 32 q')
    let s := if i = 4095 then s.setFld RAS_LOG_HEAD 31 31 1 else s
    let s := s.setFld RAS_LOG_HEAD 11 0 ((i + 1) % 4096)
    s.raiseEvt evtErrlog

/-- A violation of a class, counted in its 64-bit saturating counter and logged as event 0x14 (R419). -/
def State.violation (s : State) (cls source : Nat) : State :=
  let v := s.pair (RAS_VIOL_LO cls) (RAS_VIOL_HI cls)
  let s := s.setPair (RAS_VIOL_LO cls) (RAS_VIOL_HI cls) (min (v + 1) (2 ^ 64 - 1))
  s.logEvent 0x14 0 source (BitVec.ofNat 64 cls)

end Sys2Proof.Machine
end

