-- ==== Sys2Proof/Machine/Monitor.lean ====
section
/-!
DEFINITION. The monitor channels: their live state and the samples they take (R420, R421).
-/

namespace Sys2Proof.Machine

/-- The live state of a channel. -/
def State.telAt (s : State) (c : Nat) : TelLive := Tab.get (fun _ => TelLive.reset) s.telLive c

/-- The live state of a channel written. -/
def State.setTel (s : State) (c : Nat) (t : TelLive) : State :=
  { s with telLive := Tab.set (fun _ => TelLive.reset) s.telLive c t }

/-- Edge `i` of a channel. -/
def State.telEdge (s : State) (c i : Nat) : Nat := s.fld (TEL_CH_EDGE c (i / 2)) (16 * (i % 2) + 15) (16 * (i % 2))

/-- The bin of a shifted sample: the edges it has reached. -/
def State.telBin (s : State) (c u : Nat) : Nat := ((List.range 15).filter (fun i => decide (s.telEdge c i ≤ u))).length

/-- A channel takes a sample. -/
def State.telTake (s : State) (c v : Nat) : State :=
  let t := s.telAt c
  let u := min 0xFFFF (v / 2 ^ s.fld (TEL_CH_CFG c) 29 26)
  let b := s.telBin c u
  s.setTel c ⟨min t.min v, max t.max v, (t.count + 1) % 2 ^ 64, t.bins.modify b (fun n => min (n + 1) (2 ^ 32 - 1))⟩

/-- A channel that samples watches this source and instance; 127 names every one of sources 1 to 3, and of temperature
the hottest sensor (R420). -/
def State.telWatches (s : State) (c src inst : Nat) : Bool :=
  (s.reg (TEL_CH_CFG c)).getLsbD 31 && s.fld (TEL_CH_CFG c) 3 0 == src
    && (s.fld (TEL_CH_CFG c) 22 16 == inst || (s.fld (TEL_CH_CFG c) 22 16 == 127 && decide (src < 4)))

/-- A sample of a source: every channel that watches it takes it; none does while the MP is down (R17). -/
def State.sample (s : State) (src inst v : Nat) : State :=
  if s.mpDown then s
  else (List.range 32).foldl (fun s c => if s.telWatches c src inst then s.telTake c v else s) s

end Sys2Proof.Machine
end

