-- ==== Sys2Proof/Machine/Pace.lean ====
section
/-!
DEFINITION. What every part of the block may start on the fabric without routing it: management messages, the floods of pace
messages (R393), and leaving a rope (R400), which a soft reset does too (R428).
-/

namespace Sys2Proof.Machine

/-- The codes of PORT_STAT.STATE. -/
abbrev pDisabled : Nat := 0
abbrev pDown : Nat := 1
abbrev pTraining : Nat := 2
abbrev pUp : Nat := 3
abbrev pLost : Nat := 4
abbrev pDegraded : Nat := 5
abbrev pQuarantine : Nat := 6
abbrev pMiswired : Nat := 7
abbrev pIdCheck : Nat := 8

/-- PORT_STAT.STATE. -/
def State.portSt (s : State) (p : Nat) : Nat := s.fld (PORT_STAT p) 3 0

/-- The device ID. -/
def State.devId (s : State) : Nat := s.fld FAB_ID 13 0

/-- A management message of this device: its code and payload padded to whole rows, to leave on a port or to be routed. -/
def State.sendMgmt (s : State) (out : Option Nat) (dst code : Nat) (payload : List Byte) : State :=
  let rows := max 1 (ceilDiv payload.length 64)
  let data := payload ++ List.replicate (64 * rows - payload.length) 0
  { s with egress := s.egress ++ [⟨⟨11, 0, 0, s.devId, dst, 102, 0, 0, [⟨code, rows - 1, 0, data⟩]⟩, none, out, false, s.now⟩] }

/-- The present point and the bubble count. -/
def State.opNow (s : State) : Nat := s.fld PWR_OP_STAT 2 0

/-- The device is a rope member. -/
def State.isMember (s : State) : Bool := (s.reg PWR_ROPE_STAT).getLsbD 31

/-- Power state changed. -/
def State.modPwr (s : State) (f : PwrState → PwrState) : State := { s with pwr := f s.pwr }

/-- MOVING and TARGET follow the move under way. -/
def State.setMove (s : State) (m target : Nat) : State :=
  ((s.modPwr (fun x => { x with move := m })).setFld PWR_OP_STAT 31 31 (min 1 m)).setFld PWR_OP_STAT 26 24 target

/-- The rope of a member. -/
def State.ropeId (s : State) : Nat := s.fld PWR_ROPE_STAT 15 0

/-- The rope state changed. -/
def State.modRope (s : State) (f : RopeState → RopeState) : State := { s with rope := f s.rope }

/-- This device leads its rope. -/
def State.leads (s : State) : Bool := s.isMember && (s.reg PWR_ROPE_STAT).getLsbD 30

/-- The lowest of a list of IDs. -/
def lowestId (l : List Nat) : Nat := l.foldl min 16384

/-- The header of a pace message: rope, origin, sequence, two reserved bytes (log 34). -/
def paceHead (rope origin seq : Nat) : List Byte := leBytes 2 rope ++ leBytes 2 origin ++ leBytes 2 seq ++ [0, 0]

/-- A pace message on every UP port but one. -/
def State.floodOn (s : State) (but code : Nat) (payload : List Byte) : State :=
  ((List.range 32).filter (fun p => p != but && s.portSt p == pUp)).foldl (fun s p => s.sendMgmt (some p) 0 code payload) s

/-- A flood that this device starts: on every UP port, with its next sequence number; a copy that comes back is known. -/
def State.flood (s : State) (rope code : Nat) (fields : List Byte) : State :=
  let q := s.rope.seq
  let s : State := { s with rope := { s.rope with seq := (q + 1) % 2 ^ 16, seen := s.rope.seen ++ [(rope, s.devId, q, s.now)] } }
  s.floodOn 32 code (paceHead rope s.devId q ++ fields)

/-- A member's floor stands, or no longer (R398). -/
def State.floodFloor (s : State) (set : Bool) : State :=
  if s.isMember then
    let fl := s.rope.floors.filter (· != s.devId) ++ (if set then [s.devId] else [])
    let s : State := { s with rope := { s.rope with floors := fl } }
    let s := s.setFld PWR_ROPE_STAT 29 29 (!fl.isEmpty).toNat
    s.flood s.ropeId 0x15 (leBytes 1 set.toNat)
  else s

/-- The device returns to local control at its present point. -/
def State.leaveRope (s : State) (dropped : Bool) : State :=
  let s := s.setReg PWR_ROPE_STAT (if dropped then 0x10000000#32 else 0)
  let s := s.modRope (fun r => { RopeState.reset with seq := r.seq, seen := r.seen })
  if s.pwr.move = 2 then s.setMove 0 s.opNow else s

/-- A member leaves: its floor clears, and the leader is told; a leader tells the one that leads next (R400). -/
def State.quitRope (s : State) : State :=
  let s := if s.rope.floors.contains s.devId then s.floodFloor false else s
  let rest := s.rope.members.filter (· != s.devId)
  let whom := if s.leads then lowestId rest else s.fld PWR_ROPE_LEADER 13 0
  let s := if s.leads ∧ rest = [] then s
    else s.sendMgmt none whom 0x16 (paceHead s.ropeId s.devId s.rope.seq)
  (s.modRope (fun r => { r with seq := (r.seq + 1) % 2 ^ 16 })).leaveRope false

end Sys2Proof.Machine
end

