-- ==== Sys2Proof/Machine/Operands.lean ====
section
/-!
DEFINITION. Operand forms: address generators and fields, handles, the device address map, and reads and writes of
scratchpads, weight memory, accumulator memory, ledge memory, the tiers and remote devices.
-/

namespace Sys2Proof.Machine

/-! ## Address generators (R210) -/

/-- A generator as at dispatch. -/
def AddrGen.reset : AddrGen := ⟨0, 0, 0, 0, 0, 0⟩

/-- Generator `i` of a core. -/
def CoreState.ag (k : CoreState) (i : Nat) : AddrGen := Tab.get (fun _ => AddrGen.reset) k.ags i

/-- Generator `i` replaced. -/
def CoreState.setAg (k : CoreState) (i : Nat) (g : AddrGen) : CoreState :=
  { k with ags := Tab.set (fun _ => AddrGen.reset) k.ags i g }

/-- The value a generator supplies (R210). -/
def agValue (c : Nat) (k : CoreState) (g : AddrGen) : Int :=
  let i := if g.period = 0 then g.use else g.use % g.period
  let j := if g.tsel = 0 then (if g.period = 0 then 0 else g.use / g.period)
    else (k.reg c (CORE_SEQ_TR (g.tsel - 1))).toNat
  (g.base : Int) + i * g.stride + j * g.outer

/-- The value of the generator that a 4-bit reference names, read at issue. -/
def agRef (c : Nat) (k : CoreState) (r : Nat) : Int := agValue c k (k.ag (r % 8))

/-- The reference's INC applied after the read. -/
def agStep (r : Nat) (k : CoreState) : CoreState :=
  if r / 8 % 2 = 1 then k.setAg (r % 8) { k.ag (r % 8) with use := (k.ag (r % 8)).use + 1 } else k

/-- INC of several references, in order. -/
def agSteps (rs : List Nat) (k : CoreState) : CoreState := rs.foldl (fun k r => agStep r k) k

/-- A generator value in range of the using field and a multiple of `al` (R210). -/
def agIn (v : Int) (hi al : Nat) : Bool := decide (0 ≤ v) && decide (v.toNat ≤ hi) && v.toNat % al == 0

/-! ## Handles (R196) -/

/-- A handle-table entry. -/
structure Handle where
  base : Nat
  devid : Nat
  mem : Nat
  layout : Nat
  queue : Nat
  valid : Bool
  resident : Bool
  retain : Bool
  power : Nat
  tagMode : Nat
  fmt : Nat
  bits : Nat
  length : Nat
  deriving DecidableEq, Repr

/-- The fields of a 128-bit entry. -/
def handleOf (n : Nat) : Handle where
  base := bitsOf n 47 0
  devid := bitsOf n 61 48
  mem := bitsOf n 67 64
  layout := bitsOf n 71 68
  queue := bitsOf n 77 72
  valid := bitsOf n 78 78 == 1
  resident := bitsOf n 79 79 == 1
  retain := bitsOf n 80 80 == 1
  power := bitsOf n 82 81
  tagMode := bitsOf n 84 83
  fmt := bitsOf n 89 85
  bits := bitsOf n 94 90
  length := bitsOf n 127 96

/-- The 128 bits of an entry. -/
def Handle.bits128 (h : Handle) : Nat :=
  h.base % 2 ^ 48 + h.devid % 2 ^ 14 * 2 ^ 48 + h.mem % 16 * 2 ^ 64 + h.layout % 16 * 2 ^ 68 + h.queue % 64 * 2 ^ 72
    + h.valid.toNat * 2 ^ 78 + h.resident.toNat * 2 ^ 79 + h.retain.toNat * 2 ^ 80 + h.power % 4 * 2 ^ 81
    + h.tagMode % 4 * 2 ^ 83 + h.fmt % 32 * 2 ^ 85 + h.bits % 32 * 2 ^ 90 + h.length % 2 ^ 32 * 2 ^ 96

/-- Entry `h` of the handle table of core `c`, from its four register words. -/
def CoreState.tableHandle (c : Nat) (k : CoreState) (h : Nat) : Handle :=
  handleOf ((k.reg c (CORE_HT (4 * h))).toNat + (k.reg c (CORE_HT (4 * h + 1))).toNat * 2 ^ 32
    + (k.reg c (CORE_HT (4 * h + 2))).toNat * 2 ^ 64 + (k.reg c (CORE_HT (4 * h + 3))).toNat * 2 ^ 96)

/-- The handle that number `h` names in the program of core `c`: the one that stands for it there (R246), or its entry. -/
def CoreState.handle (c : Nat) (k : CoreState) (h : Nat) : Handle :=
  match k.rebound.find? (fun b => b.1 == h) with
  | some b => handleOf b.2
  | none => k.tableHandle c h

/-- A word of a small memory written, with fresh check bits (R402, R456). -/
def CoreState.fresh (k : CoreState) (w : CoreWord) : CoreState := { k with bad := k.bad.filter (· != w) }

/-- The plane buffer emptied. -/
def CoreState.freshPlanes (k : CoreState) : CoreState :=
  { k with planeBuf := [], bad := k.bad.filter (fun w => match w with
      | .plane _ => false
      | _ => true) }

/-- Entry `h` of the handle table of core `c` written. -/
def CoreState.setHandle (c : Nat) (k : CoreState) (h : Nat) (e : Handle) : CoreState :=
  (List.range 4).foldl (fun k j => k.setReg c (CORE_HT (4 * h + j)) (BitVec.ofNat 32 (e.bits128 / 2 ^ (32 * j))))
    (k.fresh (.handle h))

/-- An entry of the instruction memory written. -/
def CoreState.setImem (k : CoreState) (i : Nat) (w : W64) : CoreState :=
  { k.fresh (.imem i) with imem := Tab.set (fun _ => 0) k.imem i w }

/-- The memories a handle names (R196). -/
abbrev memAm : Nat := 0
abbrev memPm : Nat := 1
abbrev memWm : Nat := 2
abbrev memLedge : Nat := 3
abbrev memTier1 : Nat := 4
abbrev memTier2 : Nat := 5
abbrev memTier3 : Nat := 6
abbrev memRemote : Nat := 7

/-! ## The device address map (R183, R313) -/

/-- What a device address names. -/
inductive AddrKind where
  | tier1
  | tier2
  | tier3
  | ledge (die off : Nat)
  | spm (i : Nat) (mem : SpmMem) (off : Nat)
  | wm (i off : Nat)
  | reserved
  deriving DecidableEq, Repr

/-- Bytes of tier 2 that are populated (R320). -/
def State.tier2Bytes (s : State) : Nat :=
  if s.fld MEM_T2_STAT 31 31 = 1 then s.fld MEM_T2_STAT 11 0 * 2 ^ 30 else 0

/-- Bytes of tier 3 that are exposed (R324). -/
def State.tier3Bytes (s : State) : Nat := s.fld MEM_T3_PAGES 30 0 * 4096

/-- The map of R313 with the SRAM window of R183. -/
def State.addrKind (s : State) (a : Nat) : AddrKind :=
  if a < 0x2D00000000 then .tier1
  else if 0x8000000000 ≤ a ∧ a < 0x8008000000 then .ledge ((a - 0x8000000000) / 0x4000000) (a % 0x4000000)
  else if 0x9000000000 ≤ a ∧ a < 0x9000000000 + 64 * 0x800000 then
    let i := (a - 0x9000000000) / 0x800000
    let o := a % 0x800000
    if o < 0x100000 then .spm i .am o
    else if o < 0x200000 then .spm i .pm (o - 0x100000)
    else if o < 0x400000 then .wm i (o - 0x200000)
    else .reserved
  else if 0x20000000000 ≤ a ∧ a < 0x20000000000 + s.tier2Bytes then .tier2
  else if 0x40000000000 ≤ a ∧ a < 0x40000000000 + s.tier3Bytes then .tier3
  else .reserved

/-- The same region, however deep in it. -/
def AddrKind.same : AddrKind → AddrKind → Bool
  | .tier1, .tier1 => true
  | .tier2, .tier2 => true
  | .tier3, .tier3 => true
  | .ledge _ _, .ledge _ _ => true
  | .spm i m _, .spm j n _ => i == j && m == n
  | .wm i _, .wm j _ => i == j
  | _, _ => false

/-- All of `n` bytes from `a` lie in the region of `a`. -/
def State.inRegion (s : State) (a n : Nat) : Bool := n == 0 || (s.addrKind a).same (s.addrKind (a + n - 1))

/-! ## Repair candidates (R202) -/

/-- Keys of the corrected-error counters. -/
def errKey (kind index : Nat) : Nat := kind * 2 ^ 32 + index

/-- A corrected error counted; once the count has reached the threshold it makes a candidate, dropped and logged beyond 8
(log 51). -/
def State.noteRowError (s : State) (c kind index : Nat) : State :=
  let k := s.core c
  let n := Tab.get (fun _ => 0) k.rowErrs (errKey kind index) + 1
  let s := s.setCore c { k with rowErrs := Tab.set (fun _ => 0) k.rowErrs (errKey kind index) n }
  let thr := k.fld c CORE_SPM_REPAIR_THR 7 0
  if thr = 0 ∨ n < thr ∨ ⟨kind, index⟩ ∈ k.repairs then s
  else if k.repairs.length < 8 then
    (s.modCore c (fun k => { k with repairs := k.repairs ++ [⟨kind, index⟩] })).logEvent 0x01 0 (logSource 0 c)
      (BitVec.ofNat 64 index)
  else s.logEvent 0x01 0 (logSource 0 c) (BitVec.ofNat 64 (2 ^ 63 + index))

/-- A core that must be fenced, with its CAUSE (R405); once per core. -/
def State.fenceRequest (s : State) (c cause : Nat) : State :=
  if s.fenceDue.any (fun e => e.1 == c) then s else { s with fenceDue := s.fenceDue ++ [(c, cause)] }

/-! ## Scratchpads -/

/-- The place of a byte offset: bank * 65536 + row * 64 + byte, in FINE or GROUP interleave (R182). -/
def spmPlace (grouped : Bool) (off : Nat) : Nat :=
  let o := off % 2 ^ 20
  if grouped then (2 * (o / 2 ^ 17) + o / 64 % 2) * 65536 + o / 128 % 1024 * 64 + o % 64
  else o / 64 % 16 * 65536 + o / 1024 * 64 + o % 64

/-- The offset whose byte lies at a place. -/
def spmOff (grouped : Bool) (p : Nat) : Nat :=
  let bank := p / 65536
  let row := p / 64 % 1024
  if grouped then bank / 2 * 2 ^ 17 + row * 128 + bank % 2 * 64 + p % 64 else row * 1024 + bank * 64 + p % 64

/-- The memory is in GROUP interleave. -/
def CoreState.grouped (c : Nat) (k : CoreState) : SpmMem → Bool
  | .am => k.fld c CORE_SPM_MODE 1 1 == 1
  | .pm => k.fld c CORE_SPM_MODE 2 2 == 1

/-- The place of an offset of a memory of a core. -/
def CoreState.place (c : Nat) (k : CoreState) (m : SpmMem) (off : Nat) : Nat := spmPlace (k.grouped c m) off

/-- The bytes of a scratchpad, by place. -/
def CoreState.bytes (k : CoreState) : SpmMem → Mem
  | .am => k.am
  | .pm => k.pm

/-- The error masks of a scratchpad, by word. -/
def CoreState.errs (k : CoreState) : SpmMem → Tab W64
  | .am => k.amErr
  | .pm => k.pmErr

/-- A scratchpad's bytes and error masks replaced. -/
def CoreState.setSpm (k : CoreState) (m : SpmMem) (b : Mem) (e : Tab W64) : CoreState :=
  match m with
  | .am => { k with am := b, amErr := e }
  | .pm => { k with pm := b, pmErr := e }

/-- No error. -/
def noErr : Nat → W64 := fun _ => 0

/-- An error mask that SEC-DED corrects: one bit. -/
def correctable (e : W64) : Bool := isPow2 e.toNat

/-- A byte as a read sees it: the gather buffer's masked bytes over the bank (R190). -/
def CoreState.spmByte (c : Nat) (k : CoreState) (m : SpmMem) (off : Nat) : Byte :=
  let p := k.place c m off
  match k.gather.find? (fun g => g.mem == m && g.row == p / 64 && g.mask.getD (p % 64) false) with
  | some g => g.data.getD (p % 64) 0
  | none => Mem.byte (k.bytes m) p

/-- The words that `n` bytes from `off` touch, by place. -/
def CoreState.wordsOf (c : Nat) (k : CoreState) (m : SpmMem) (off n : Nat) : List Nat :=
  if n = 0 then []
  else (List.range ((off + n - 1) / 8 - off / 8 + 1)).map (fun i => k.place c m (8 * (off / 8 + i)) / 8)

/-- The power group of a place (R199). -/
def spmGroup (m : SpmMem) (place : Nat) : Nat :=
  match m with
  | .am => place / 131072
  | .pm => 8 + place / 131072

/-- Present state of a power group: 0 ON, 1 RETAIN, 2 OFF, 3 CLOSING, 4 WAKING. -/
def CoreState.groupSt (c : Nat) (k : CoreState) (g : Nat) : Nat :=
  k.fld c (CORE_SPM_PWR_STAT (g / 8)) (4 * (g % 8) + 3) (4 * (g % 8))

/-- Present state of a power group written. -/
def CoreState.setGroupSt (c : Nat) (k : CoreState) (g v : Nat) : CoreState :=
  k.setFld c (CORE_SPM_PWR_STAT (g / 8)) (4 * (g % 8) + 3) (4 * (g % 8)) v

/-- Requested state of a power group. -/
def CoreState.groupReq (c : Nat) (k : CoreState) (g : Nat) : Nat :=
  k.fld c (if g < 16 then CORE_SPM_PWR_REQ0 else CORE_SPM_PWR_REQ1) (2 * (g % 16) + 1) (2 * (g % 16))

/-- What the power state of the groups an access meets makes of it (R198 to R200). -/
inductive PowerCheck where
  | ready
  | waits
  | refuse
  deriving DecidableEq, Repr

/-- The groups that `n` bytes from `off` meet. -/
def CoreState.groupsOf (c : Nat) (k : CoreState) (m : SpmMem) (off n : Nat) : List Nat :=
  ((List.range (if n = 0 then 0 else (off + n - 1) / 64 - off / 64 + 1)).map
    (fun i => spmGroup m (k.place c m (64 * (off / 64 + i))))).dedup

/-- The power check of an access. -/
def CoreState.powerCheck (c : Nat) (k : CoreState) (gs : List Nat) (write : Bool) : PowerCheck :=
  if gs.any (fun g => k.groupSt c g == 2 || (write && k.groupSt c g == 3)) then .refuse
  else if gs.any (fun g => k.groupSt c g == 1 || k.groupSt c g == 4) then .waits
  else .ready

/-- An access that waits raises the voltage of every RETAIN group it meets, and counts (R198, R199). -/
def CoreState.wakeGroups (c : Nat) (k : CoreState) (gs : List Nat) : CoreState :=
  (gs.foldl (fun k g => if k.groupSt c g = 1 then k.setGroupSt c g 4 else k) k).bump c CORE_SPM_PWR_WAIT 1

/-- An access refused for its group's state: counted, and a violation (R200, R419). -/
def State.refuseAccess (s : State) (c : Nat) : State :=
  (s.cbump c CORE_SPM_REFUSED 1).violation 9 (logSource 0 c)

/-- Corrected words counted: in CORE_SPM_ECC.CE, and each toward its row's repair (R186, R202). -/
def State.spmCorrected (s : State) (c : Nat) (m : SpmMem) (ws : List Nat) : State :=
  ws.foldl (fun s w => s.noteRowError c (match m with | .am => 0 | .pm => 1) (w / 8))
    (s.modCore c (·.bumpFld c CORE_SPM_ECC 15 0 ws.length))

/-- A read of `n` bytes of a scratchpad, corrected (R186): a status, the bytes, the state. -/
def State.spmRead (s : State) (c : Nat) (m : SpmMem) (off n : Nat) : Nat × List Byte × State :=
  let k := s.core c
  let ws := k.wordsOf c m off n
  let bad := ws.filter (fun w => Tab.get noErr (k.errs m) w != 0 && !correctable (Tab.get noErr (k.errs m) w))
  let ce := ws.filter (fun w => correctable (Tab.get noErr (k.errs m) w))
  let k := { k with writebacks := k.writebacks ++ (ce.map (fun w => (m, w))).filter (fun e => e ∉ k.writebacks) }
  let k := k.bumpFld c CORE_SPM_ECC 31 16 bad.length
  let s := (s.setCore c k).spmCorrected c m ce
  if bad.isEmpty then (stOk, (List.range n).map (fun i => k.spmByte c m (off + i)), s)
  else (stUncorrectable, [], s.logEvent 0x02 stUncorrectable (logSource 0 c) (BitVec.ofNat 64 off))

/-- The words of a row that a byte mask covers in part, by place: a write of them reads them first (R456). -/
def partWords (row : Nat) (mask : List Bool) : List Nat :=
  ((List.range 8).filter (fun w =>
    let ms := (mask.drop (8 * w)).take 8
    ms.any (·) && !ms.all (·))).map (fun w => 8 * row + w)

/-- The words of a row that a write covers in part and whose read corrects them. -/
def CoreState.fixedWords (k : CoreState) (m : SpmMem) (row : Nat) (mask : List Bool) : List Nat :=
  (partWords row mask).filter (fun w => correctable (Tab.get noErr (k.errs m) w))

/-- One row written under a byte mask, word by word: a partly covered word that is uncorrectable is left (R456), every
other word written gets fresh check bits. A write-back that waits for the row is dropped (R186). The words left are
returned. -/
def CoreState.rowWrite (k : CoreState) (m : SpmMem) (row : Nat) (data : List Byte) (mask : List Bool) :
    List Nat × CoreState :=
  (List.range 8).foldl (fun acc w =>
    let ms := (mask.drop (8 * w)).take 8
    let e := Tab.get noErr (acc.2.errs m) (8 * row + w)
    if ms.all (!·) then acc
    else if !ms.all (·) && e != 0 && !correctable e then (acc.1 ++ [8 * row + w], acc.2)
    else
      let b := (List.range 8).foldl
        (fun b i => if ms.getD i false then Mem.put b (64 * row + 8 * w + i) (data.getD (8 * w + i) 0) else b)
        (acc.2.bytes m)
      (acc.1, acc.2.setSpm m b (Tab.set noErr (acc.2.errs m) (8 * row + w) 0)))
    ([], { k with writebacks := k.writebacks.filter (fun e => e.1 != m || e.2 / 8 != row) })

/-- A write that failed on an uncorrectable word, or a read of one: the core must be fenced (R402, R456). -/
def State.spmFailed (s : State) (c : Nat) : State := s.fenceRequest c 1

/-- Words that a write of part of them had to read and found uncorrectable: counted and logged as a read of them, by the
address of the first (R186, R416, R456). -/
def State.rmwFailed (s : State) (c : Nat) (ws : List Nat) : State :=
  let s := s.setCore c ((s.core c).bumpFld c CORE_SPM_ECC 31 16 ws.length)
  (s.logEvent 0x02 stUncorrectable (logSource 0 c) (BitVec.ofNat 64 (8 * ws.headD 0))).spmFailed c

/-- The entry of the gather buffer at position `i` written to its bank (R189, R190): the status of R456. -/
def State.gatherFlush (s : State) (c i : Nat) : Nat × State :=
  let k := s.core c
  match k.gather[i]? with
  | none => (stOk, s)
  | some g =>
    let r := ({ k with gather := k.gather.eraseIdx i }).rowWrite g.mem g.row g.data g.mask
    let k' := if (partWords g.row g.mask).isEmpty then r.2 else r.2.bump c CORE_SPM_RMW 1
    let s := (s.setCore c k').spmCorrected c g.mem (k.fixedWords g.mem g.row g.mask)
    if r.1.isEmpty then (stOk, s) else (stUncorrectable, s.rmwFailed c r.1)

/-- Every entry of the gather buffer written, oldest first (R189). -/
def State.gatherFlushAll (s : State) (c : Nat) : Nat × State :=
  (s.core c).gather.foldl
    (fun acc _ => let r := acc.2.gatherFlush c 0; (if r.1 = stOk then acc.1 else r.1, r.2)) (stOk, s)

/-- The entries of some power groups written. -/
def State.gatherFlushGroup (s : State) (c g : Nat) : Nat × State :=
  (s.core c).gather.foldl
    (fun acc _ =>
      match (acc.2.core c).gather.findIdx? (fun e => spmGroup e.mem (64 * e.row) == g) with
      | some i => let r := acc.2.gatherFlush c i; (if r.1 = stOk then acc.1 else r.1, r.2)
      | none => acc) (stOk, s)

/-- A masked write of part of a row into the gather buffer (R189). -/
def State.gatherPut (s : State) (c : Nat) (m : SpmMem) (row : Nat) (data : List Byte) (mask : List Bool) : Nat × State :=
  let k := s.core c
  match k.gather.findIdx? (fun g => g.mem == m && g.row == row) with
  | some i =>
    let g := k.gather.getD i ⟨m, row, [], []⟩
    let mask' := (List.range 64).map (fun j => g.mask.getD j false || mask.getD j false)
    let data' := (List.range 64).map (fun j => if mask.getD j false then data.getD j 0 else g.data.getD j 0)
    let s := s.setCore c { k with gather := k.gather.set i ⟨m, row, data', mask'⟩ }
    if mask'.all (·) then s.gatherFlush c i else (stOk, s)
  | none =>
    let r := if 32 ≤ k.gather.length then s.gatherFlush c 0 else (stOk, s)
    let s := r.2.modCore c (fun k => { k with gather := k.gather ++ [⟨m, row, data, mask⟩] })
    if mask.all (·) then
      let w := s.gatherFlush c ((s.core c).gather.length - 1)
      (if r.1 = stOk then w.1 else r.1, w.2)
    else (r.1, s)

/-- The entry covers part of a word that is uncorrectable. -/
def CoreState.meetsBadWord (k : CoreState) (g : GatherEntry) : Bool :=
  (List.range 8).any (fun w =>
    let ms := (g.mask.drop (8 * w)).take 8
    let e := Tab.get noErr (k.errs g.mem) (8 * g.row + w)
    ms.any (·) && !ms.all (·) && e != 0 && !correctable e)

/-- After a write of `n` bytes by another unit than the core: an entry of one of its rows that covers part of an uncorrectable
word is written at once, so that the writer's request fails (R456). -/
def State.gatherProbe (s : State) (c : Nat) (m : SpmMem) (off n : Nat) : Nat × State :=
  (List.range (if n = 0 then 0 else (off + n - 1) / 64 - off / 64 + 1)).foldl (fun acc i =>
    let k := acc.2.core c
    let row := k.place c m (64 * (off / 64 + i)) / 64
    match k.gather.findIdx? (fun g => g.mem == m && g.row == row && k.meetsBadWord g) with
    | some j => let r := acc.2.gatherFlush c j; (if acc.1 = stOk then r.1 else acc.1, r.2)
    | none => acc) (stOk, s)

/-- The part of a row that a write of `n` bytes at `off` covers in its row number `i`: data and mask of 64. -/
def rowPart (off : Nat) (data : List Byte) (i : Nat) : List Byte × List Bool :=
  let base := 64 * (off / 64 + i)
  ((List.range 64).map (fun j => if off ≤ base + j then data.getD (base + j - off) 0 else 0),
   (List.range 64).map (fun j => decide (off ≤ base + j ∧ base + j < off + data.length)))

/-- A write of a scratchpad (R189): whole rows and core-DMA writes go to the bank, after any entry for the row; other
part rows enter the gather buffer. -/
def State.spmWrite (s : State) (c : Nat) (m : SpmMem) (off : Nat) (data : List Byte) (dma : Bool) : Nat × State :=
  (List.range (if data.isEmpty then 0 else (off + data.length - 1) / 64 - off / 64 + 1)).foldl
    (fun acc i =>
      let p := rowPart off data i
      let row := (acc.2.core c).place c m (64 * (off / 64 + i)) / 64
      if dma || p.2.all (·) then
        let r := match (acc.2.core c).gather.findIdx? (fun g => g.mem == m && g.row == row) with
          | some j => acc.2.gatherFlush c j
          | none => (stOk, acc.2)
        let w := (r.2.core c).rowWrite m row p.1 p.2
        let s := (r.2.setCore c w.2).spmCorrected c m ((r.2.core c).fixedWords m row p.2)
        (if acc.1 ≠ stOk then acc.1 else if r.1 ≠ stOk then r.1 else if w.1.isEmpty then stOk else stUncorrectable,
          if w.1.isEmpty then s else s.rmwFailed c w.1)
      else
        let r := acc.2.gatherPut c m row p.1 p.2
        (if acc.1 ≠ stOk then acc.1 else r.1, r.2)) (stOk, s)

/-! ## Full and empty tags (R191) -/

/-- The tag of a 2 KiB slot is FULL. -/
def CoreState.tagFull (c : Nat) (k : CoreState) (m : SpmMem) (slot : Nat) : Bool :=
  (k.reg c (CORE_SPM_FE ((match m with | .am => 0 | .pm => 16) + slot / 32))).getLsbD (slot % 32)

/-- The tag of a slot written. -/
def CoreState.setTag (c : Nat) (k : CoreState) (m : SpmMem) (slot : Nat) (full : Bool) : CoreState :=
  k.setFld c (CORE_SPM_FE ((match m with | .am => 0 | .pm => 16) + slot / 32)) (slot % 32) (slot % 32) full.toNat

/-- An access of a tag kind must wait at the slot. -/
def CoreState.tagBlocks (c : Nat) (k : CoreState) (m : SpmMem) (slot : Nat) : TagKind → Bool
  | .none => false
  | .produce => k.tagFull c m slot
  | .consume => !k.tagFull c m slot
  | .peek => !k.tagFull c m slot

/-- The tag of a slot after the last byte of an access. -/
def CoreState.tagAfter (c : Nat) (k : CoreState) (m : SpmMem) (slot : Nat) : TagKind → CoreState
  | .produce => k.setTag c m slot true
  | .consume => k.setTag c m slot false
  | _ => k

/-- The slots that `n` bytes from `off` cover. -/
def slotsOf (off n : Nat) : List Nat :=
  if n = 0 then [] else (List.range ((off + n - 1) / 2048 - off / 2048 + 1)).map (fun i => off / 2048 + i)

/-! ## Weight memory -/

/-- Key of a page of the page-state table. -/
def pageKey (mc page : Nat) : Nat := mc * 128 + page

/-- An EMPTY page. -/
def PageEntry.reset : PageEntry := ⟨.empty, 0, none⟩

/-- Entry of the page-state table (R53). -/
def CoreState.page (k : CoreState) (mc page : Nat) : PageEntry :=
  Tab.get (fun _ => PageEntry.reset) k.pages (pageKey mc page)

/-- Entry of the page-state table written. -/
def CoreState.setPage (k : CoreState) (mc page : Nat) (e : PageEntry) : CoreState :=
  { k.fresh (.page (pageKey mc page)) with pages := Tab.set (fun _ => PageEntry.reset) k.pages (pageKey mc page) e }

/-- Key of a macro row. -/
def wmKey (mc page row : Nat) : Nat := pageKey mc page * 256 + row

/-- No weight bit set. -/
def wmDefault : Nat → W32 := fun _ => 0

/-- A macro row, corrected. -/
def CoreState.wmRow (k : CoreState) (mc page row : Nat) : W32 := Tab.get wmDefault k.wm (wmKey mc page row)

/-- The flipped bits of a macro row: the 32 data cells, then the 7 check columns (R71). -/
def CoreState.wmFlips (k : CoreState) (mc page row : Nat) : W64 := Tab.get noErr k.wmErr (wmKey mc page row)

/-- The cells of a macro row, as sensing reads them (R71): flipped data bits included. -/
def CoreState.wmCells (k : CoreState) (mc page row : Nat) : W32 :=
  k.wmRow mc page row ^^^ (k.wmFlips mc page row).setWidth 32

/-- A macro row written, with fresh check bits. -/
def CoreState.setWmRow (k : CoreState) (mc page row : Nat) (v : W32) : CoreState :=
  { k with wm := Tab.set wmDefault k.wm (wmKey mc page row) v,
           wmErr := Tab.set noErr k.wmErr (wmKey mc page row) 0 }

/-- The 1,024 data bytes of a page in byte-offset order (R51, R72). -/
def CoreState.pageBytes (k : CoreState) (mc page : Nat) : List Byte :=
  (List.range 256).flatMap (fun r => leBytes 4 (k.wmRow mc page r).toNat)

/-- A page becomes FAULTY: counted, shown in CORE_ARR_FAULT_PAGE, logged (R75, R410). -/
def State.markFaulty (s : State) (c mc page cause : Nat) : State :=
  let k := s.core c
  let k := k.setPage mc page { k.page mc page with st := .faulty }
  let k := k.bump c CORE_ARR_SCRUB_UE 1
  let k := k.setReg c CORE_ARR_FAULT_PAGE (BitVec.ofNat 32 (2 ^ 31 + cause * 2 ^ 12 + mc * 2 ^ 7 + page))
  (s.setCore c k).logEvent 0x03 stUncorrectable (logSource 0 c) (BitVec.ofNat 64 (mc * 128 + page))

/-- A page that an error has made FAULTY: the core must be fenced (R75, R402). -/
def State.pageFaulty (s : State) (c mc page cause : Nat) : State := (s.markFaulty c mc page cause).fenceRequest c 1

/-- A corrected macro row: counted in CORE_ARR_SCRUB_CE, toward row repair and, once per row, toward its column's
(R75, R202). -/
def State.wmCorrected (s : State) (c mc page row : Nat) (e : W64) : State :=
  let s := s.cbump c CORE_ARR_SCRUB_CE 1
  let s := s.noteRowError c 2 (wmKey mc page row)
  let col := pageKey mc page * 64 + Nat.log2 e.toNat
  let k := s.core c
  let seen := errKey 4 (wmKey mc page row * 64 + Nat.log2 e.toNat)
  if Tab.get (fun _ => 0) k.rowErrs seen = 0 then
    (s.setCore c { k with rowErrs := Tab.set (fun _ => 0) k.rowErrs seen 1 }).noteRowError c 3 col
  else s

/-- A read of a macro row through the ordinary port (R71, R53): zeros of an EMPTY page; corrected and counted; an
uncorrectable row makes a page that is not FAULTY yet FAULTY, and the read is logged by the row's byte offset (R416). -/
def State.wmRead (s : State) (c mc page row : Nat) : Nat × W32 × State :=
  let k := s.core c
  let e := k.wmFlips mc page row
  if (k.page mc page).st = .empty then (stOk, 0, s)
  else if e = 0 then (stOk, k.wmRow mc page row, s)
  else if isPow2 e.toNat then (stOk, k.wmRow mc page row, s.wmCorrected c mc page row e)
  else (stUncorrectable, 0, (if (k.page mc page).st = .faulty then s else s.pageFaulty c mc page 0).logEvent 0x02 stUncorrectable
    (logSource 0 c) (BitVec.ofNat 64 (4 * wmKey mc page row)))

/-- Macro rows read one after another; the number of a row counts the rows of R51's byte offsets. -/
def State.wmRows (s : State) (c row : Nat) : Nat → Nat × List W32 × State
  | 0 => (stOk, [], s)
  | n + 1 =>
    let r := s.wmRead c (row / 2 ^ 15 % 16) (row / 2 ^ 8 % 128) (row % 256)
    let t := State.wmRows r.2.2 c (row + 1) n
    (if r.1 ≠ stOk then r.1 else t.1, r.2.1 :: t.2.1, t.2.2)

/-- Bytes of WM by the byte offset of R51; each row that they touch is read once, and no other row of the port's 16: DESIGN
CHOICE, log 63. -/
def State.wmBytes (s : State) (c off n : Nat) : Nat × List Byte × State :=
  let r := s.wmRows c (off / 4) (if n = 0 then 0 else (off + n - 1) / 4 - off / 4 + 1)
  (r.1, (List.range n).map (fun i =>
    BitVec.ofNat 8 ((r.2.1.getD ((off + i) / 4 - off / 4) 0).toNat / 2 ^ (8 * ((off + i) % 4)))), r.2.2)

/-! ## Accumulator memory -/

/-- A 32-bit word of ACM: block and index. -/
def CoreState.acmWord (k : CoreState) (b i : Nat) : W32 := Tab.get wmDefault k.acm (b * 2048 + i)

/-- The error mask of the 8-byte word that holds a 32-bit word. -/
def CoreState.acmErrAt (k : CoreState) (b i : Nat) : W64 := Tab.get noErr k.acmErr ((b * 2048 + i) / 2)

/-- Entry `e` of a block, ACC32 or ACC16 (R77). -/
def CoreState.acmEntry (k : CoreState) (acc16 : Bool) (b e : Nat) : AV :=
  if acc16 then accValue 16 ((k.acmWord b (e / 2)).toNat / 2 ^ (16 * (e % 2)) % 2 ^ 16)
  else accValue 32 (k.acmWord b e).toNat

/-- Entry `e` of a block written. -/
def CoreState.setAcmEntry (k : CoreState) (acc16 : Bool) (b e : Nat) (v : AV) : CoreState :=
  let i := if acc16 then e / 2 else e
  let w := if acc16 then setField (k.acmWord b i) (16 * (e % 2) + 15) (16 * (e % 2)) (accCode 16 v)
    else BitVec.ofNat 32 (accCode 32 v)
  { k with acm := Tab.set wmDefault k.acm (b * 2048 + i) w }

/-- The tag of a block: valid, ACC16, TBP (R78). -/
def CoreState.blockTag (c : Nat) (k : CoreState) (b : Nat) : Bool × Bool × Int :=
  let r := k.reg c (CORE_ACC_TAG b)
  (r.getLsbD 31, r.getLsbD 8, signed 7 r.toNat)

/-- Rows of 512 that a block holds. -/
def rowsPerBlock (acc16 : Bool) : Nat := if acc16 then 8 else 4

/-- Every entry of a block finite 0, with fresh check bits. -/
def CoreState.clearBlock (k : CoreState) (b : Nat) : CoreState :=
  { k with acm := k.acm.filter (fun e => decide (e.1 / 2048 ≠ b)),
           acmErr := k.acmErr.filter (fun e => decide (e.1 / 1024 ≠ b)) }

/-! ## Ledge memory and the tiers -/

/-- The SOURCE of a device-memory event: channel of tier 1 or tier 2, or ledge bank (R416). -/
def State.memSource (s : State) (a : Nat) : Nat :=
  match s.addrKind a with
  | .tier1 => logSource 4 (a / 256 % 24)
  | .tier2 => logSource 5 ((a - 0x20000000000) / 256 % max 1 (s.fld MEM_T2_STAT 27 24))
  | .ledge d off => logSource 7 (32 * d + off / 64 % 32)
  | _ => logSource 3 0

/-- The ECC counter register of a device address. -/
def State.eccReg (s : State) (a : Nat) : Option Nat :=
  match s.addrKind a with
  | .tier1 => some MEM_T1_ECC
  | .tier2 => some MEM_T2_ECC
  | .ledge d _ => some (MEM_LDG_ECC d)
  | _ => none

/-- ECC units (ledge words, tier rows) of a range, as address divided by the unit. -/
def State.eccUnits (s : State) (a n : Nat) : List Nat :=
  let u := match s.addrKind a with | .ledge _ _ => 8 | _ => 64
  if n = 0 then [] else (List.range ((a + n - 1) / u - a / u + 1)).map (fun i => a / u + i)

/-- The error mask of an ECC unit near an address. -/
def State.unitErr (s : State) (a u : Nat) : W64 :=
  match s.addrKind a with
  | .ledge _ _ => Tab.get noErr s.ledgeErr u
  | _ => Tab.get noErr s.rowErr u

/-- The error mask of an ECC unit written. -/
def State.setUnitErr (s : State) (a u : Nat) (e : W64) : State :=
  match s.addrKind a with
  | .ledge _ _ => { s with ledgeErr := Tab.set noErr s.ledgeErr u e }
  | _ => { s with rowErr := Tab.set noErr s.rowErr u e }

/-- The atomic slice of a tier address (R332): tier 1 at 0 to 23, tier 2 from 24 on. -/
def State.sliceOf (s : State) (a : Nat) : Option Nat :=
  match s.addrKind a with
  | .tier1 => some (a / 256 % 24)
  | .tier2 => some (24 + (a - 0x20000000000) / 256 % max 1 (s.fld MEM_T2_STAT 27 24))
  | _ => none

/-- The buffer of a slice. -/
def State.slice (s : State) (sl : Nat) : List SliceRow := Tab.get (fun _ => []) s.slices sl

/-- The buffer of a slice written. -/
def State.setSlice (s : State) (sl : Nat) (b : List SliceRow) : State :=
  { s with slices := Tab.set (fun _ => []) s.slices sl b }

/-- A plain access to buffered rows is served by their slices (R332): it counts as an access, so that they are then the most
recently used, and a write as a write. -/
def State.touchRows (s : State) (a n : Nat) (write : Bool) : State :=
  let hit (r : SliceRow) : Bool := decide (a / 64 ≤ r.row ∧ r.row * 64 < a + n)
  if s.slices.isEmpty then s
  else { s with slices := s.slices.map (fun e => (e.1, e.2.filter (fun r => !hit r) ++
    (e.2.filter hit).map (fun r => { r with written := r.written || write, last := s.now }))) }

/-- ECC events of a device address counted (R205, R319, R322). -/
def State.eccCount (s : State) (a ce ue : Nat) : State :=
  match s.eccReg a with
  | some r => (s.bumpFld r 15 0 ce).bumpFld r 31 16 ue
  | none => s

/-- The transfers of `n` bytes over the GDDR6 links (R319): a row whose transfer fails the CRC is sent again up to three
times. The rows that fail a fourth time are returned. -/
def State.edcLink (s : State) (a n : Nat) : List Nat × State :=
  if s.edcFaults.isEmpty ∨ s.addrKind a ≠ .tier1 then ([], s)
  else
    let us := s.eccUnits a n
    let fails (u : Nat) : Nat := Tab.get (fun _ => 0) s.edcFaults u
    let lost := us.filter (fun u => decide (4 ≤ fails u))
    let t := (s.bumpFld MEM_T1_EDC 15 0 (us.map (fun u => min 3 (fails u))).sum).bumpFld MEM_T1_EDC 31 16 lost.length
    (lost, { t with edcFaults := s.edcFaults.filter (fun e => e.1 ∉ us) })

/-- Corrected words of ledge memory are counted for their rows (R208). -/
def State.noteLedge (s : State) (a : Nat) (us : List Nat) : State :=
  match s.addrKind a with
  | .ledge _ _ => { s with ledgeRows := us.foldl (fun t u =>
      Tab.set (fun _ => 0) t (u / 8) (Tab.get (fun _ => 0) t (u / 8) + 1)) s.ledgeRows }
  | _ => s

/-- Corrected words of ledge memory written back (R186, R205). -/
def State.ledgeFixed (s : State) (a : Nat) (us : List Nat) : State :=
  match s.addrKind a with
  | .ledge _ _ => us.foldl (fun s u => s.setUnitErr a u 0) (s.noteLedge a us)
  | _ => s

/-- A read of ledge memory or a tier (R205, R319, R322): corrected and counted, or UNCORRECTABLE. -/
def State.memRead (s : State) (a n : Nat) : Nat × List Byte × State :=
  let l := (s.touchRows a n false).edcLink a n
  let s := l.2
  let us := s.eccUnits a n
  let bad := us.filter (fun u => s.unitErr a u != 0 && !correctable (s.unitErr a u))
  let ce := us.filter (fun u => correctable (s.unitErr a u))
  let s' := (s.eccCount a ce.length bad.length).ledgeFixed a ce
  if bad.isEmpty ∧ l.1.isEmpty then (stOk, Mem.read s.dmem a n, s')
  else (stUncorrectable, [], s'.logEvent 0x02 stUncorrectable (s.memSource a) (BitVec.ofNat 64 a))

/-- A write of ledge memory or a tier. A unit written in part is read first: counted when corrected, and left as it was when
uncorrectable (R456). -/
def State.memWrite (s : State) (a : Nat) (data : List Byte) : Nat × State :=
  let n := data.length
  let l := (s.touchRows a n true).edcLink a n
  let s := l.2
  let u := match s.addrKind a with | .ledge _ _ => 8 | _ => 64
  (s.eccUnits a n).foldl (fun acc w =>
    let lo := max a (w * u)
    let hi := min (a + n) (w * u + u)
    let e := s.unitErr a w
    let part := decide (hi - lo < u ∧ e ≠ 0)
    let lose (t : State) : Nat × State :=
      (stUncorrectable, t.logEvent 0x02 stUncorrectable (s.memSource lo) (BitVec.ofNat 64 lo))
    if w ∈ l.1 then lose acc.2
    else if part ∧ ¬ correctable e then lose (acc.2.eccCount a 0 1)
    else
      let t := if part then (acc.2.eccCount a 1 0).noteLedge a [w] else acc.2
      let t := { t with dmem := Mem.write t.dmem lo ((data.drop (lo - a)).take (hi - lo)) }
      (acc.1, t.setUnitErr a w 0)) (stOk, s)

/-- The address of the byte that holds a TSET's bit: its list's header is the request's address, its ticket the operand
(log 19). -/
def State.tsetByte (s : State) (r : AtomReq) : Nat := leNat (Mem.read s.dmem (r.addr + 0x10) 8) + r.operand / 8

/-- The unit that applies an atomic request: a slice of the tiers (R332) at 0 to 31, a ledge bank (R207) from 32 on. -/
def State.atomUnit (s : State) (r : AtomReq) : Nat :=
  let a := if r.op = .tset then s.tsetByte r else r.addr
  match s.addrKind a, s.sliceOf a with
  | .ledge d off, _ => 32 + 32 * d + off / 64 % 32
  | _, some sl => sl
  | _, none => 96

/-- The place of a request among those that reach its unit in the same NCLK cycle: at a slice, the two bridges, the engines, the
ports and the command processors (R333); at a ledge bank, the cores of its die by number, the bridge, the command processors
(R207). -/
def State.atomRank (s : State) (r : AtomReq) : Nat :=
  let u := s.atomUnit r
  if u < 32 then
    match r.src with
    | .core c _ => c / 36
    | .claim c _ _ => c / 36
    | .engine e => 2 + e
    | .fabric p _ => 34 + p
    | .cp n => 66 + n
  else
    let near (c : Nat) : Nat := if c / 36 = (u - 32) / 32 then c else 72
    match r.src with
    | .core c _ => near c
    | .claim c _ _ => near c
    | .engine _ => 72
    | .fabric _ _ => 72
    | .cp n => 73 + n

/-- The requests with one that arrives now: behind those before it, but before those of the same cycle that its unit takes
later. -/
def State.withAtom (s : State) (r : AtomReq) : List AtomReq :=
  let r := { r with born := s.now }
  let first (x : AtomReq) : Bool := !(x.born == s.now && s.atomUnit x == s.atomUnit r && decide (s.atomRank r < s.atomRank x))
  s.atoms.takeWhile first ++ r :: s.atoms.dropWhile first

/-- A request on its way to a unit of this device. -/
def State.sendAtom (s : State) (r : AtomReq) : State := { s with atoms := s.withAtom r }

/-- An atomic operation waits that has arrived before an access of `n` bytes and meets its word: the access waits for it
(R207, R332). -/
def State.atomFirst (s : State) (a n : Nat) : Bool :=
  s.atoms.any (fun r => decide (r.addr < a + n ∧ a < r.addr + 8))

/-! ## Remote requests (R347, R357) -/

/-- The device ID names a position of the torus (R342), once CONFIG has set one. -/
def State.fabConfigured (s : State) (d : Nat) : Bool :=
  s.fld FAB_ID 31 31 == 1 && decide (d / 1024 < s.fld FAB_SHAPE 4 0) && decide (d / 64 % 16 < s.fld FAB_SHAPE 20 16)
    && decide (d / 8 % 8 < s.fld FAB_SHAPE 27 24) && decide (d % 8 < s.fld FAB_SHAPE 31 28)

/-- The size of a dimension of the torus, and a device's coordinate in it: X, Y, Z, W (R341, R342). -/
def State.fabSize (s : State) : Nat → Nat
  | 0 => s.fld FAB_SHAPE 4 0
  | 1 => s.fld FAB_SHAPE 20 16
  | 2 => s.fld FAB_SHAPE 27 24
  | _ => s.fld FAB_SHAPE 31 28

/-- The coordinate of a device in a dimension. -/
def coordAt (id : Nat) : Nat → Nat
  | 0 => id / 1024 % 16
  | 1 => id / 64 % 16
  | 2 => id / 8 % 8
  | _ => id % 8

/-- The links from coordinate `c` to `t` the + way on a ring of `n`: a link is named by the coordinate whose + link it is. -/
def linksPlus (n c t : Nat) : List Nat := (List.range ((t + n - c) % n)).map (fun i => (c + i) % n)

/-- The links the - way. -/
def linksMinus (n c t : Nat) : List Nat := (List.range ((c + n - t) % n)).map (fun i => (c + n - 1 - i) % n)

/-- The way a frame takes in a dimension: true for +. The shorter one, + when both are equal; the other where a link of it is
broken; none where both are (R352, R356). -/
def State.wayIn (s : State) (d c t : Nat) : Option Bool :=
  let n := s.fabSize d
  let plus := linksPlus n c t
  let minus := linksMinus n c t
  let ok (ls : List Nat) : Bool := !ls.any (fun l => s.broken.contains (d, l))
  let short := decide (plus.length ≤ minus.length)
  if ok (if short then plus else minus) then some short
  else if ok (if short then minus else plus) then some (!short)
  else none

/-- The first dimension in which a device lies elsewhere. -/
def State.firstDim (s : State) (dst : Nat) : Option Nat :=
  (List.range 4).find? (fun d => coordAt (s.fld FAB_ID 13 0) d != coordAt dst d)

/-- A device lies beyond two broken links of a ring of this device (R356, R361). -/
def State.beyond (s : State) (dst : Nat) : Bool :=
  match s.firstDim dst with
  | some d => (s.wayIn d (coordAt (s.fld FAB_ID 13 0) d) (coordAt dst d)).isNone
  | none => false

/-- Message types that hold a tag until they are answered. -/
def tagged (ty : Nat) : Bool := ty == 3 || ty == 5 || ty == 8

/-- The lowest tag an issuer has free. -/
def State.freeTag (s : State) (issuer : Nat) : Option Nat :=
  (List.range 1024).find? (fun t => !s.remoteReqs.any (fun r => r.issuer == issuer && r.tag == some t))

/-- The frame that carries one message of this device. -/
def State.frameOf (s : State) (ty tc dst issuer : Nat) (m : Msg) : Frame :=
  ⟨ty, tc, 0, s.fld FAB_ID 13 0, dst, issuer, 0, 0, [m]⟩

/-- A request issued: with its tag in AUX, on its way out; held while its issuer has no tag free (R347). FAB_RTMO runs from when it
is sent (R361). -/
def State.remoteIssue (s : State) (r : RemoteReq) : State :=
  if tagged r.ty then
    match s.freeTag r.issuer with
    | some t =>
      let m := { r.msg with aux := r.msg.aux / 1024 * 1024 + t }
      let s := s.setFld FAB_TAGS 15 0 (s.fld FAB_TAGS 15 0 + 1)
      { s with remoteReqs := s.remoteReqs ++ [{ r with tag := some t, msg := m, since := s.now }],
               egress := s.egress ++ [⟨s.frameOf r.ty r.tc r.dev r.issuer m, none, none, false, s.now⟩] }
    | none => { (s.bumpFld FAB_TAGS 31 16 1) with remoteReqs := s.remoteReqs ++ [r] }
  else
    { s with remoteReqs := s.remoteReqs ++ [r], egress := s.egress ++ [⟨s.frameOf r.ty r.tc r.dev r.issuer r.msg, none, none, false, s.now⟩] }

/-- A request of a unit: FABRIC_UNREACHABLE at once when its target is not configured or cannot be reached (R361),
otherwise issued. -/
def State.remoteSend (s : State) (r : RemoteReq) : Nat × State :=
  if s.fabConfigured r.dev && !s.beyond r.dev then (stOk, s.remoteIssue r) else (stFabricUnreachable, s.bump FAB_UNREACH 1)

end Sys2Proof.Machine
end

