-- ==== Sys2Proof/Machine/Sequencer.lean ====
section
/-!
DEFINITION. The tile sequencer: instruction words and their checks (R209), issue, waits, faults, breakpoints (R211 to
R214, R236), and the frame in which every tile instruction runs.
-/

namespace Sys2Proof.Machine

/-- The tile instructions, one per row of the table of commands that issues one. -/
inductive TileKind where
  | ldwWeights | ldwScales | ldwGen | lda | sto | stoAtomic | mcastCopy | mcastLoad
  | pass | pass24 | stream | aclr | adrainEpi | adrainRaw | adrainAtomic | adrainList | aepi0 | aepi1
  | waitf | waitc | claim | barrier | signalDoorbell | signalArrive | signalTicket
  | loop | br | endProgram | setpArray | setpAga | setpAgb | setpDrain | sgseed | bound
  deriving DecidableEq, Repr

/-- Reserved bits of an instruction are not zero, or a field holds a reserved value (R209 and the field tables). -/
def tileReserved (w : W64) : Bool :=
  let f := field w
  match f 5 0 with
  | 0x01 => f 63 60 != 0 || f 7 6 == 3 || f 31 24 == 0 || (f 7 6 == 2 && f 31 24 != 1)
  | 0x02 => f 63 60 != 0 || f 59 58 == 3
  | 0x03 => f 63 58 != 0 || f 41 40 == 3 || decide (5 ≤ f 32 30)
  | 0x04 => if f 6 6 = 0 then f 63 58 != 0 else f 63 51 != 0 || f 42 35 == 0
  | 0x08 => f 63 54 != 0 || decide (255 < f 53 45)
  | 0x09 => f 63 54 != 0
  | 0x0A => f 31 30 != 0
  | 0x10 => f 63 24 != 0
  | 0x11 => f 63 63 != 0 || f 50 49 == 3
  | 0x12 => if f 6 6 = 0 then f 31 20 != 0 || f 63 48 != 0 else f 15 7 != 0 || f 63 60 != 0
  | 0x18 => f 63 28 != 0 || f 9 8 == 3
  | 0x19 => f 31 31 != 0 || f 7 6 == 3
  | 0x1A => f 31 13 != 0
  | 0x1B => f 63 16 != 0
  | 0x1C => f 63 10 != 0
  | 0x20 => f 31 24 != 0
  | 0x21 => f 63 23 != 0 || decide (5 ≤ f 9 6)
  | 0x22 => f 63 6 != 0
  | 0x28 =>
    match f 9 6 with
    | 0 => f 63 43 != 0 || f 36 36 != 0
    | 1 => false
    | 2 => f 39 28 != 0 || decide (5 ≤ f 15 13)
    | 3 => f 63 50 != 0
    | _ => true
  | 0x29 => f 15 10 != 0 || f 63 32 != 0
  | 0x2A => f 31 15 != 0
  | _ => false

/-- The kind of an instruction word; none for an opcode that the table does not list. The reserved sub-forms, which
`tileReserved` refuses first, fall to a neighbour here. -/
def tileKind (w : W64) : Option TileKind :=
  let f := field w
  match f 5 0 with
  | 0x01 => some (match f 7 6 with | 0 => .ldwWeights | 1 => .ldwScales | _ => .ldwGen)
  | 0x02 => some .lda
  | 0x03 => some (if f 32 30 = 0 then .sto else .stoAtomic)
  | 0x04 => some (if f 6 6 = 0 then .mcastCopy else .mcastLoad)
  | 0x08 => some .pass
  | 0x09 => some .pass24
  | 0x0A => some .stream
  | 0x10 => some .aclr
  | 0x11 => some (if f 48 48 = 1 then .adrainList else
      match f 50 49 with | 0 => .adrainEpi | 1 => .adrainRaw | _ => .adrainAtomic)
  | 0x12 => some (if f 6 6 = 0 then .aepi0 else .aepi1)
  | 0x18 => some .waitf
  | 0x19 => some (match f 7 6 with | 0 => .signalDoorbell | 1 => .signalArrive | _ => .signalTicket)
  | 0x1A => some .waitc
  | 0x1B => some .claim
  | 0x1C => some .barrier
  | 0x20 => some .loop
  | 0x21 => some .br
  | 0x22 => some .endProgram
  | 0x28 => some (match f 9 6 with | 0 => .setpArray | 1 => .setpAga | 2 => .setpAgb | _ => .setpDrain)
  | 0x29 => some .sgseed
  | 0x2A => some .bound
  | _ => none

/-- The instruction at an address of the instruction memory. -/
def CoreState.imemAt (k : CoreState) (i : Nat) : W64 := Tab.get (fun _ => 0) k.imem i

/-- An accumulator instruction whose compute instruction has issued still has to issue (R212). -/
def CoreState.halfPair (k : CoreState) : Bool :=
  match k.accHeld with
  | some (_, _, b) => b
  | none => false

/-- The sequencer may issue: a program is loaded, no fault, and it runs, steps, or has the second half of a pair to issue. -/
def CoreState.canIssue (k : CoreState) : Bool :=
  k.loaded && k.fault.isNone && (k.seq == .running || k.stepping || k.halfPair)

/-- The next instruction to issue in program order: one held for its pair comes first (CORE_SEQ_STAT.PC). -/
def CoreState.nextIssue (k : CoreState) : Nat :=
  match k.accHeld with
  | some (p, _, _) => p
  | none => k.pc

/-- The address of the instruction that must issue next: a held one whose compute instruction has issued goes first
(R212). -/
def CoreState.curPc (k : CoreState) : Nat :=
  match k.accHeld with
  | some (p, _, true) => p
  | _ => k.pc

/-- The instruction that must issue next. -/
def CoreState.current (k : CoreState) : W64 :=
  match k.accHeld with
  | some (_, w, true) => w
  | _ => k.imemAt k.pc

/-- WAIT codes of CORE_SEQ_STAT. -/
abbrev waitSlot : Nat := 1
abbrev waitScoreboard : Nat := 2
abbrev waitTag : Nat := 3
abbrev waitArrival : Nat := 4
abbrev waitClaim : Nat := 5
abbrev waitBarrier : Nat := 6
abbrev waitAck : Nat := 7
abbrev waitSetp : Nat := 8
abbrev waitPlane : Nat := 9

/-- A wait at a scratchpad port, for a bank group or a slot of the wheel: no tag wait, and CORE_SEQ_STAT has no code of its
own for it, so that it shows code 3 (log 38). -/
abbrev waitPort : Nat := 19

/-- The address after an instruction issued at `pc`: the loop levels that end there turn back or are popped (R231). -/
def nextPc (pc : Nat) : List LoopLevel → Nat × List LoopLevel
  | [] => ((pc + 1) % 8192, [])
  | l :: ls =>
    if pc = l.last then
      if 1 < l.left then (l.start, { l with left := l.left - 1 } :: ls) else nextPc pc ls
    else ((pc + 1) % 8192, l :: ls)

/-- The sequencer arrives at an address: an enabled breakpoint there stops issue (R236). -/
def CoreState.arrive (c : Nat) (k : CoreState) (pc : Nat) : CoreState :=
  let hit := (List.range 4).any (fun j =>
    (k.reg c (CORE_SEQ_BP j)).getLsbD 31 && k.fld c (CORE_SEQ_BP j) 12 0 == pc)
  { k with pc := pc, outFrom := k.nextOut, seq := if hit && k.seq == .running then .halting else k.seq }

/-- The sequencer is done with an instruction: a wait is over; a step is over; at least one core cycle has passed. -/
def CoreState.done (k : CoreState) : CoreState :=
  { k with wait := 0, waited := 0, tagWait := none, progress := 0, inBuf := [], cyc := k.cyc + 1,
           seq := if k.stepping then .halting else k.seq, stepping := false }

/-- The bookkeeping of an issue: counted, and done with. -/
def CoreState.issued (c : Nat) (k : CoreState) : CoreState := (k.bump64 c CORE_SEQ_ISSUE_LO 1).done

/-- The sequencer has passed the instruction at the pc (R212, R231). -/
def CoreState.goOn (c : Nat) (k : CoreState) : CoreState :=
  let n := nextPc k.pc k.loops
  { k with loops := n.2 }.arrive c n.1

/-- The instruction that must issue next has issued: a held one is done; a compute instruction lets the held one
before it issue; the sequencer goes on. -/
def CoreState.advance (c : Nat) (k : CoreState) : CoreState :=
  match k.accHeld with
  | some (_, _, true) => { k with accHeld := none }.issued c
  | some (p, w, false) => ({ k with accHeld := some (p, w, true) }.issued c).goOn c
  | none => (k.issued c).goOn c

/-- A compute instruction that does not issue is passed over (R162): it counts in no issue count; a held accumulator
instruction issues next. -/
def CoreState.passOver (c : Nat) (k : CoreState) : CoreState :=
  match k.accHeld with
  | some (p, w, _) => ({ k with accHeld := some (p, w, true) }.done).goOn c
  | none => k.done.goOn c

/-- The instruction at the pc waits for a cycle, for a cause, counted in a register. -/
def CoreState.stall (c : Nat) (k : CoreState) (cause : Nat) (ctr : Option Nat) : CoreState :=
  let k := match ctr with
    | some r => k.bump c r 1
    | none => k
  { k with wait := cause, waited := k.waited + 1, tagWait := none, cyc := k.cyc + 1 }

/-- What the error log adds to the instruction address of a fault: the page, by page key (R53), or the block (R79). Where it
stands in the record is the model's: log 65. -/
def pageInfo (key : Nat) : Nat := 2 ^ 31 + key

/-- The block of a fault in what the error log adds to it. -/
def blockInfo (b : Nat) : Nat := 2 ^ 30 + b

/-- Statuses that count as a program fault (R419). -/
def programFault (st : Nat) : Bool := st == stBadOpcode || st == stBadField || st == stShapeInvalid

/-- The SOURCE of a record about a core's dispatch: the queue of its command, or the MP for a private pair; the core where
no command is known (R416, R419). -/
def State.tileSource (s : State) (c : Nat) : Nat :=
  match (s.core c).dispatch.bind (fun id => s.cmds.find? (fun x => x.id == id)) with
  | some x => (match x.src with
    | .queue q => logSource 9 q
    | _ => logSource 3 0)
  | none => logSource 0 c

/-- The tile of a core faults at the instruction at `pc` (R214): nothing more issues; the first fault stands. Whether the core
is fenced (R402) is the matter of whoever found the error. -/
def State.tileFaultAt (s : State) (c pc st info : Nat) : State :=
  let k := s.core c
  if k.fault.isSome ∨ ¬ k.loaded then s
  else
    let s := s.setCore c { k with fault := some ⟨st, pc, info, s.now⟩ }
    if programFault st then s.violation 14 (logSource 0 c)
    else if st = stMetadataInvalid then s.violation 13 (s.tileSource c)
    else if st = stTimeout then s.violation 11 (logSource 0 c)
    else s

/-- The tile of a core faults at the instruction that must issue next. -/
def State.tileFault (s : State) (c st info : Nat) : State := s.tileFaultAt c (s.core c).curPc st info

/-- A tile faults on a failing status, otherwise nothing. -/
def State.faultIf (s : State) (c st : Nat) : State := if st = stOk then s else s.tileFault c st 0

/-- A checkpoint is to be tested before anything more issues: its pass has retired (R120). -/
def CoreState.checkDue (k : CoreState) : Bool :=
  !k.checks.isEmpty || k.passes.any (fun p => p.retired && p.check.isSome)

/-- The entries of the handle table that an instruction reads: those that it names, or the drain setting names for it, and the
one after a pair's first (R196). -/
def CoreState.namedHandles (c : Nat) (k : CoreState) (w : W64) : List Nat :=
  let f := field w
  let hs := match f 5 0 with
    | 0x01 => if f 7 6 = 2 then [] else [f 15 8]
    | 0x02 => [f 13 6, f 21 14]
    | 0x03 => [f 13 6, f 25 18]
    | 0x04 => [f 14 7]
    | 0x11 => match k.drn with
      | some d => [d.dh, d.rh]
      | none => []
    | _ => []
  hs ++ (hs.filter (fun h => (k.handle c h).layout == 2 || (k.handle c h).layout == 4)).map (· + 1)

/-- The next instruction stands in an uncorrectable word; one that it held for its pair has been fetched before (R402). -/
def CoreState.fetchBad (k : CoreState) : Bool :=
  match k.accHeld with
  | some (_, _, true) => false
  | _ => k.bad.contains (.imem k.pc)

/-- An instruction reads an entry of the handle table that is uncorrectable; a handle that stands in for it is read elsewhere
(R246, R402). -/
def CoreState.handleBad (c : Nat) (k : CoreState) (w : W64) : Bool :=
  !k.bad.isEmpty && (k.namedHandles c w).any (fun h => k.bad.contains (.handle h) && !k.rebound.any (fun b => b.1 == h))

/-- The tile reads an uncorrectable word of a small memory of its core: it faults, and the core is fenced (R402). -/
def State.wordFault (s : State) (c : Nat) : State := (s.tileFault c stUncorrectable 0).fenceRequest c 1

/-- The frame of a tile instruction's command. Nothing happens while the sequencer cannot issue, or while another kind
of instruction stands at the pc (log 2). An unlisted opcode or a reserved bit or value faults the tile (R209),
whichever instruction's command meets it; so does an uncorrectable word (R402). While a checkpoint is to be tested, the
instruction waits (R120). -/
def withTile (kind : TileKind) (c : Nat) (s : State) (f : W64 → State) : Out :=
  let k := s.core c
  if k.canIssue then
    let w := k.current
    if k.fetchBad then .next (s.wordFault c)
    else if tileKind w = none then .next (s.tileFault c stBadOpcode 0)
    else if tileReserved w then .next (s.tileFault c stBadField 0)
    else if tileKind w = some kind then
      .next (if k.checkDue then s.setCore c (k.stall c waitSlot none)
        else if k.handleBad c w then s.wordFault c else f w)
    else .next s
  else .next s

/-- An instruction issues: the core changed by it, its references stepped, the sequencer on. -/
def State.issue (s : State) (c : Nat) (refs : List Nat) : State :=
  s.modCore c (fun k => (agSteps refs k).advance c)

/-- An instruction waits. -/
def State.stall (s : State) (c cause : Nat) (ctr : Option Nat) : State := s.modCore c (·.stall c cause ctr)

/-- The instruction at the pc of core `c` waits on a tag of core `t.owner` (R192, R193): the wait counts there, and other
clients see it; `ctr` names a counter of the instruction's own. -/
def State.stallTag (s : State) (c : Nat) (t : TagWait) (ctr : Option Nat) : State :=
  ((s.cbump t.owner CORE_SPM_FE_WAIT 1).stall c waitTag ctr).modCore c (fun k => { k with tagWait := some t })

/-- The number of instructions that a core has issued. -/
def CoreState.issueCount (c : Nat) (k : CoreState) : Nat :=
  (k.reg c CORE_SEQ_ISSUE_LO).toNat + 2 ^ 32 * (k.reg c CORE_SEQ_ISSUE_HI).toNat

/-- An arrival-increment instruction (R412): a reissued dispatch retires its first ones without effect; once one issues, the
writes that its acknowledgement waits for are noted. -/
def State.arriving (s : State) (c : Nat) (refs : List Nat) (isArr : Bool) (f : State → State) : State :=
  let k := s.core c
  if !isArr then f s
  else if 0 < k.arrSkip ∧ k.progress = 0 then
    (s.setCore c { k with arrSkip := k.arrSkip - 1, arrOpen := k.arrOpen ++ [(0, 0)] }).issue c refs
  else
    let t := f s
    if (t.core c).issueCount c = k.issueCount c then t
    else t.modCore c (fun k' => { k' with arrOpen := k'.arrOpen ++ [(k.outFrom, k'.nextOut)] })

/-! ## Local accesses of a tile instruction (R186, R198 to R200) -/

/-- What an access answers: data and the state; a wait; or a failing status. -/
inductive Reach (α : Type) where
  | ok (v : α) (s : State)
  | wait (s : State)
  | fail (st : Nat) (s : State)

/-- One step after another. -/
def Reach.bind {α β : Type} (r : Reach α) (f : α → State → Reach β) : Reach β :=
  match r with
  | .ok a s => f a s
  | .wait s => .wait s
  | .fail st s => .fail st s

/-- The owner code of a wheel position. -/
def wheelOwner (w : W32) (i : Nat) : Nat := regField w (3 * i + 2) (3 * i)

/-- The core runs its scratchpads in TIMED mode (R184). -/
def CoreState.timed (c : Nat) (k : CoreState) : Bool := (k.reg c CORE_SPM_MODE).getLsbD 0

/-- The first core cycle from `t` on whose wheel position the client owns (R184). -/
def CoreState.ownedFrom (c : Nat) (k : CoreState) (client t : Nat) : Option Nat :=
  ((List.range 8).map (t + ·)).find? (fun u => wheelOwner (k.reg c CORE_SPM_WHEEL) (u % 8) == client)

/-- The rows, by offset / 64, that `n` bytes from `off` touch. -/
def rowsOf (off n : Nat) : List Nat :=
  if n = 0 then [] else (List.range ((off + n - 1) / 64 - off / 64 + 1)).map (off / 64 + ·)

/-- The bank of a row: 16 per memory. -/
def CoreState.bankOf (c : Nat) (k : CoreState) (m : SpmMem) (row : Nat) : Nat :=
  (match m with | .am => 0 | .pm => 16) + k.place c m (64 * row) / 65536

/-- What a port moves of the rows left in one cycle: the first eight, as far as they lie in different banks. -/
def CoreState.portRows (c : Nat) (k : CoreState) (m : SpmMem) (rest : List Nat) : List Nat :=
  (rest.take 8).foldl (fun acc r => if acc.any (fun x => k.bankOf c m x == k.bankOf c m r) then acc else acc ++ [r]) []

/-- The core cycle of the slot that moves the last of the rows left, from `t` on, in TIMED mode (R184). The first argument
bounds the slots. -/
def CoreState.lastSlot (c client : Nat) (m : SpmMem) (k : CoreState) : Nat → List Nat → Nat → Option Nat
  | 0, _, t => k.ownedFrom c client t
  | n + 1, rest, t =>
    match k.ownedFrom c client t with
    | none => none
    | some u =>
      let left := rest.filter (fun r => !(k.portRows c m rest).contains r)
      if left.isEmpty then some u else CoreState.lastSlot c client m k n left (u + 1)

/-- The client that a bank served last (R185). -/
def CoreState.lastServed (k : CoreState) (b : Nat) : Nat := Tab.get (fun _ => 4) k.rr b

/-- Client `x` comes first among the requesting clients in the bank's round-robin order. -/
def firstInTurn (last x : Nat) (rivals : List Nat) : Bool :=
  let d (y : Nat) : Nat := (y + 4 - last) % 5
  rivals.all (fun y => decide (d x ≤ d y))

/-- A bank has served the client. -/
def CoreState.turn (k : CoreState) (b client : Nat) : CoreState :=
  { k with rr := Tab.set (fun _ => 4) k.rr b client }

/-- Bytes of a remote access. -/
def remoteLen (a : RemoteAcc) : Nat := if a.write then a.data.length else a.len

/-- The scratchpad of an address of the window, and the offset in it (R183). -/
def windowSpm (a : Nat) : SpmMem × Nat := (if a / 2 ^ 20 % 8 = 0 then .am else .pm, a % 2 ^ 20)

/-- The clients whose queued accesses request a bank: none that waits on a tag does. -/
def CoreState.asking (c : Nat) (k : CoreState) (b : Nat) : List Nat :=
  (k.queued.filter (fun q => q.waited == 0 && q.rest.any (fun r => k.bankOf c q.acc.mem r == b))).map (·.acc.client)
    ++ (k.meshWait.filter (fun w => w.waited == 0 && (rowsOf (windowSpm w.acc.addr).2 (remoteLen w.acc)).any (fun r =>
          k.bankOf c (windowSpm w.acc.addr).1 r == b))).map (fun _ => 4)

/-- The ports serve an access of `n` bytes whole: in TIMED mode in the client's slots, eight rows in each, from the present
core cycle on (R184); in OPEN mode in its turn at every bank (R185). None while the wheel gives the client no slot, or while
another client's access comes first. How the access lies between those of others is a DESIGN CHOICE, log 64. -/
def CoreState.present (c : Nat) (k : CoreState) (client : Nat) (m : SpmMem) (off n : Nat) : Option CoreState :=
  let rows := rowsOf off n
  if rows.isEmpty then some k
  else if k.timed c then
    (k.lastSlot c client m rows.length rows k.cyc).map (fun u => { k with cyc := u })
  else
    let bs := (rows.map (k.bankOf c m)).dedup
    if bs.all (fun b => firstInTurn (k.lastServed b) client (k.asking c b)) then some (bs.foldl (fun k b => k.turn b client) k)
    else none

/-- An access that the ports do not serve yet: the wait counts in OPEN mode (R185). -/
def CoreState.contend (c : Nat) (k : CoreState) : CoreState := if k.timed c then k else k.bump c CORE_SPM_CONT 1

/-- A read of a scratchpad by a client: past its end SHAPE_INVALID; a RETAIN group wakes; an OFF group refuses; until the
ports serve it, it waits. -/
def State.coreRead (s : State) (c client : Nat) (m : SpmMem) (off n : Nat) : Reach (List Byte) :=
  let k := s.core c
  if 2 ^ 20 < off + n then .fail stShapeInvalid s
  else
    let gs := k.groupsOf c m off n
    match k.powerCheck c gs false with
    | .refuse => .fail stStateRefused (s.refuseAccess c)
    | .waits => .wait (s.setCore c (k.wakeGroups c gs))
    | .ready =>
      match k.present c client m off n with
      | none => .wait (s.setCore c (k.contend c))
      | some k' =>
        let r := (s.setCore c k').spmRead c m off n
        if r.1 = stOk then .ok r.2.1 r.2.2 else .fail r.1 (r.2.2.spmFailed c)

/-- A local write of a scratchpad under the same rules. -/
def State.coreWrite (s : State) (c client : Nat) (m : SpmMem) (off : Nat) (data : List Byte) (dma : Bool) : Reach Unit :=
  let k := s.core c
  if 2 ^ 20 < off + data.length then .fail stShapeInvalid s
  else
    let gs := k.groupsOf c m off data.length
    match k.powerCheck c gs true with
    | .refuse => .fail stStateRefused (s.refuseAccess c)
    | .waits => .wait (s.setCore c (k.wakeGroups c gs))
    | .ready =>
      match k.present c client m off data.length with
      | none => .wait (s.setCore c (k.contend c))
      | some k' =>
        let r := (s.setCore c k').spmWrite c m off data dma
        if r.1 = stOk then .ok () r.2 else .fail r.1 r.2

/-! ## The order at a tag (R192) -/

/-- Order of the clients at a tag. -/
def tagRank : Nat → Nat
  | 0 => 0
  | 3 => 1
  | 1 => 2
  | 2 => 3
  | _ => 4

/-- An access is one of those that change a tag, a PRODUCE or a CONSUME. -/
def changesTag (t : TagKind) : Bool := t == .produce || t == .consume

/-- Another access waits on the slot's tag, may take it now, and comes before one of rank `rank`. Of the mesh port only those
that came earlier do. -/
def CoreState.tagRival (c : Nat) (k : CoreState) (m : SpmMem) (slot : Nat) (kind : TagKind) (rank : Nat)
    (earlier : List MeshWait) : Bool :=
  let goes (t : TagKind) : Bool := changesTag t && !k.tagBlocks c m slot t
  changesTag kind &&
    (k.queued.any (fun q => decide (0 < q.waited) && q.acc.mem == m && goes q.acc.tag
        && (q.rest.head?.map (· / 32)) == some slot && decide (tagRank q.acc.client < rank))
      || [k.tagWait, k.drainWait].any (fun w => match w with
        | some t => t.owner == c && t.mem == m && t.slot == slot && goes t.kind && decide (tagRank t.client < rank)
        | none => false)
      || earlier.any (fun w => decide (0 < w.waited) && (windowSpm w.acc.addr).1 == m
        && (windowSpm w.acc.addr).2 / 2048 == slot && goes w.acc.tag))

/-- An access must wait at a slot: for its tag, or for one that goes first. -/
def CoreState.tagHolds (c : Nat) (k : CoreState) (m : SpmMem) (slot : Nat) (kind : TagKind) (rank : Nat)
    (earlier : List MeshWait) : Bool :=
  k.tagBlocks c m slot kind || k.tagRival c m slot kind rank earlier

/-! ## Row and block naming of accumulator-class instructions (R77, R81, R169) -/

/-- Two extents share a block. -/
def extentsMeet (b1 e1 b2 e2 : Nat) : Bool := decide (b1 ≤ b2 + e2) && decide (b2 ≤ b1 + e1)

/-- The extent runs past block 31. -/
def extentPast (b e : Nat) : Bool := decide (31 < b + e)

/-- The HAC is on and the extent includes one of its blocks (R169). -/
def CoreState.inHac (c : Nat) (k : CoreState) (b e : Nat) : Bool :=
  (k.reg c CORE_SP_HAC_CFG).getLsbD 0 && decide (0 < k.fld c CORE_SP_HAC_CFG 11 6) &&
    extentsMeet b e (k.fld c CORE_SP_HAC_CFG 5 1) (k.fld c CORE_SP_HAC_CFG 11 6 - 1)

/-- Base and extent of a drain's instruction. -/
def drainBlocks (w : W64) : Nat × Nat := (field w 10 6, field w 15 11)

/-- An unretired pass names a block of the extent. -/
def CoreState.passOn (k : CoreState) (b e : Nat) : Bool :=
  k.passes.any (fun p => !p.retired && extentsMeet b e p.base p.ext)

/-- Bytes of the belay set in use or promised (R85): a row's are free once the epilogue has finished it. -/
def CoreState.belayUsed (k : CoreState) : Nat :=
  (k.drains.map (fun d => d.bytes - ((d.rows.take d.done).map (fun r => if r.acc16 then 1024 else 2048)).sum)).sum

/-- An unretired drain names a block of the extent. -/
def CoreState.drainOn (k : CoreState) (b e : Nat) : Bool :=
  k.drains.any (fun d => !d.moved && field d.word 48 48 == 0 && extentsMeet b e (drainBlocks d.word).1 (drainBlocks d.word).2)

/-! ## Closings (R44, R60, R80) -/

/-- The container that a scale page holds at entry `e` of column `col` (R127). -/
def CoreState.scaleAt (k : CoreState) (page e col : Nat) : Nat :=
  (List.range 16).foldl
    (fun acc b => acc + ((k.wmCells (col / 32) page (16 * e + b)).getLsbD (col % 32)).toNat * 2 ^ b) 0

/-- The closing of one column (R44, R60): every segment's partial added in order. The Bool says that the word it adds
into is uncorrectable, and then it keeps its error (R80). -/
def closeEntry (c : Nat) (k : CoreState) (p : PassRec) (col : Nat) : CoreState × Bool :=
  let b := p.base + p.row / rowsPerBlock p.acc16
  let e := p.row % rowsPerBlock p.acc16 * 512 + col
  let err := k.acmErrAt b (if p.acc16 then e / 2 else e)
  let w := if p.acc16 then 16 else 32
  if err ≠ 0 ∧ ¬ correctable err then (k, true)
  else
    let r := (List.range p.segs).foldl
      (fun (acc : AV × CoreState) g =>
        let t := partialTerm (p.tallies.getD (col * p.segs + g) 0) (k.scaleAt (p.sag / 16) (p.sag % 16 + g) col)
          (p.ascales.getD g 0) (k.blockTag c b).2.2
        let v := accAdd w acc.1 (accFit w t)
        (v, if !acc.1.isSpecial && (v == .pinf || v == .ninf) then acc.2.bump c CORE_ACC_SAT 1
          else if acc.1 != .nas && v == .nas then acc.2.bump c CORE_ACC_NAS 1 else acc.2))
      (k.acmEntry p.acc16 b e, k)
    let k := if err = 0 then r.2 else (r.2.bumpFld c CORE_ACC_ECC 15 0 1)
    let k := { k with acmErr := Tab.set noErr k.acmErr ((b * 2048 + if p.acc16 then e / 2 else e) / 2) 0 }
    (k.setAcmEntry p.acc16 b e r.1, false)

/-- A retired pass closes into ACM: every column, every segment. The Bool says that a word was uncorrectable. -/
def closePass (c : Nat) (p : PassRec) (k : CoreState) : CoreState × Bool :=
  if p.closes then
    (List.range 512).foldl (fun acc col => let r := closeEntry c acc.1 p col; (r.1, acc.2 || r.2)) (k, false)
  else (k, false)

/-- The oldest retired pass closes; its checkpoint, if it has one, becomes due (R120). -/
def State.closeOldest (s : State) (c : Nat) : State :=
  let k := s.core c
  match k.passes with
  | [] => s
  | p :: ps =>
    if p.retired then
      let r := closePass c p k
      let checks := match p.check with
        | some l => r.1.checks ++ [(p.base, p.ext, l)]
        | none => r.1.checks
      let s := s.setCore c { r.1 with passes := ps, checks := checks }
      if r.2 then ((s.modCore c (·.bumpFld c CORE_ACC_ECC 31 16 1)).tileFaultAt c p.pc stUncorrectable 0).fenceRequest c 1 else s
    else s

/-- Every retired pass closes, in pass order: what a later reader of ACM sees (R60, R81). -/
def State.closeAll (s : State) (c : Nat) : State :=
  (s.core c).passes.foldl (fun s _ => s.closeOldest c) s

end Sys2Proof.Machine
end

