-- ==== Sys2Proof/Machine/Handles.lean ====
section
/-!
DEFINITION. Movement through handles: reads and writes of a core's tile and of other agents at device addresses, remote
messages, writes that await acknowledgement, and atomic requests (R183, R194 to R197, R224, R334, R346, R357).
-/

namespace Sys2Proof.Machine

/-! ## Another core's memories through the window (R183, R194) -/

/-- A read of AM or PM of physical core `p` through its mesh port. -/
def State.portRead (s : State) (p : Nat) (m : SpmMem) (off n : Nat) : Reach (List Byte) := s.coreRead p 4 m off n

/-- A write of AM or PM of physical core `p` through its mesh port. -/
def State.portWrite (s : State) (p : Nat) (m : SpmMem) (off : Nat) (data : List Byte) : Reach Unit :=
  match s.coreWrite p 4 m off data false with
  | .ok _ t =>
    let r := t.gatherProbe p m off data.length
    if r.1 = stOk then .ok () r.2 else .fail r.1 r.2
  | r => r

/-- The macros that `n` bytes of WM from `off` meet, as power groups. -/
def wmGroups (off n : Nat) : List Nat :=
  if n = 0 then [] else (List.range ((off + n - 1) / 2 ^ 17 - off / 2 ^ 17 + 1)).map (fun i => 16 + off / 2 ^ 17 + i)

/-- A read of WM of physical core `p` through its mesh port: a macro in retention wakes first, a macro without power refuses
(R198, R200). -/
def State.wmPort (s : State) (p off n : Nat) : Reach (List Byte) :=
  let k := s.core p
  let gs := wmGroups off n
  match k.powerCheck p gs false with
  | .refuse => .fail stStateRefused (s.refuseAccess p)
  | .waits => .wait (s.setCore p (k.wakeGroups p gs))
  | .ready =>
    let r := s.wmBytes p off n
    if r.1 = stOk then .ok r.2.1 r.2.2 else .fail r.1 (r.2.2.fenceRequest p 1)

/-- A read of device memory by an agent of this device: the tiers, ledge memory, and the window. It waits for an atomic
operation that came to its words before it (R207, R332). -/
def State.devRead (s : State) (a n : Nat) : Reach (List Byte) :=
  if !s.inRegion a n then .fail stBadField s
  else
    match s.addrKind a with
    | .tier1 | .tier2 | .ledge _ _ =>
      let r := s.memRead a n
      if s.atomFirst a n then .wait s
      else if r.1 = stOk then .ok r.2.1 r.2.2 else .fail r.1 r.2.2
    | .spm i m off =>
      match s.physOf i with
      | some p => s.portRead p m off n
      | none => .fail (s.coreless i) s
    | .wm i off =>
      match s.physOf i with
      | some p => s.wmPort p off n
      | none => .fail (s.coreless i) s
    | .tier3 | .reserved => .fail stBadField s

/-- A write of device memory by an agent of this device, behind the atomic operations that came to its words before it. WM
takes no write through the window. -/
def State.devWrite (s : State) (a : Nat) (data : List Byte) : Reach Unit :=
  if !s.inRegion a data.length then .fail stBadField s
  else
    match s.addrKind a with
    | .tier1 | .tier2 | .ledge _ _ =>
      let r := s.memWrite a data
      if s.atomFirst a data.length then .wait s
      else if r.1 = stOk then .ok () r.2 else .fail r.1 r.2
    | .spm i m off =>
      match s.physOf i with
      | some p => s.portWrite p m off data
      | none => .fail (s.coreless i) s
    | .wm _ _ | .tier3 | .reserved => .fail stBadField s

/-! ## Writes that await acknowledgement (R224) -/

/-- A write or an atomic of core `c` begun; its number. -/
def State.outstAdd (s : State) (c : Nat) (isAtomic isRemote done : Bool) : Nat × State :=
  let k := s.core c
  (k.nextOut, s.setCore c { k with
    nextOut := k.nextOut + 1,
    outst := k.outst ++ [{ id := k.nextOut, atomic := isAtomic, remote := isRemote, done := done }] })

/-- The destination has acknowledged a write of core `c`. -/
def State.outstDone (s : State) (c id : Nat) : State :=
  s.modCore c (fun k => { k with outst := k.outst.map (fun o => if o.id = id then { o with done := true } else o) })

/-! ## Remote messages of a core (R346, R357) -/

/-- The AUX word of a write: ARRIVE with its counter. -/
def arriveAux : Option Nat → Nat
  | some i => 1024 + i % 64
  | none => 0

/-- The messages that carry a write, one per row (log 13): type 1 for a whole row, type 2 with its byte mask. -/
def writeMsgs (a : Nat) (data : List Byte) (arr : Option Nat) : List (Nat × Msg) :=
  (List.range (if data.isEmpty then 0 else (a + data.length - 1) / 64 - a / 64 + 1)).map (fun i =>
    let p := rowPart a data i
    let row := a / 64 + i
    if p.2.all (·) then (1, ⟨row, 0, arriveAux arr, p.1⟩)
    else (2, ⟨row, 0, arriveAux arr, p.1 ++ leBytes 8 (p.2.foldr (fun b n => b.toNat + 2 * n) 0)⟩))

/-- A remote write of core `c`: one message per row, each outstanding until its WACK. -/
def State.remoteWrite (s : State) (c dev a : Nat) (data : List Byte) (arr : Option Nat) : Nat × State :=
  (writeMsgs a data arr).foldl (fun acc m =>
    let o := acc.2.outstAdd c false true false
    let r := o.2.remoteSend ⟨s.logicalOf c, none, m.1, 2, dev, m.2, .store c o.1, s.now⟩
    if r.1 = stOk then (acc.1, r.2) else (r.1, r.2.outstDone c o.1)) (stOk, s)

/-- Key of a row of another device. -/
def globalRow (dev a : Nat) : Nat := dev * 2 ^ 42 + a / 64

/-- A remote read of the load at the pc of core `c`: the rows that have come; otherwise READ messages and a wait. -/
def State.remoteRead (s : State) (c dev a n : Nat) : Reach (List Byte) :=
  let k := s.core c
  let rows := (List.range (if n = 0 then 0 else (a + n - 1) / 64 - a / 64 + 1)).map (fun i => a / 64 + i)
  let missing := rows.filter (fun r => !k.remoteRows.contains (dev * 2 ^ 42 + r))
  if missing.isEmpty then .ok (Mem.read k.remoteIn (dev * 2 ^ 48 + a) n) s
  else if s.remoteReqs.any (fun r => r.src == .load c) then .wait s
  else
    let r := missing.foldl (fun (acc : Nat × State) row =>
      let x := acc.2.remoteSend ⟨s.logicalOf c, none, 3, 2, dev, ⟨row, 0, 0, []⟩, .load c, s.now⟩
      (if acc.1 = stOk then x.1 else acc.1, x.2)) (stOk, s)
    if r.1 = stOk then .wait r.2 else .fail r.1 r.2

/-! ## Atomic requests (R334) -/

/-- The 24 bytes of an atomic request. -/
def atomBytesOf (a op : Nat) (sw tw : Bool) (operand compare : Nat) : List Byte :=
  leBytes 8 (a % 2 ^ 48 + op % 16 * 2 ^ 48 + sw.toNat * 2 ^ 52 + tw.toNat * 2 ^ 53) ++ leBytes 8 operand
    ++ leBytes 8 compare

/-- The OP code of an operation. -/
def AtomOp.code : AtomOp → Nat
  | .add32 => 0
  | .add64 => 1
  | .accadd => 2
  | .fadd32 => 3
  | .fetchAdd32 => 4
  | .fetchAdd64 => 5
  | .swap64 => 6
  | .cas64 => 7
  | .tset => 8

/-- The checks of R334 that its issuer makes on a request for this device. The ACCADD targets are ACC32 and ACC64, so
none is narrower than its source. -/
def State.atomTargetOk (s : State) (a : Nat) (op : AtomOp) (tw : Bool) : Bool :=
  a % atomBytes op tw == 0 &&
    (match s.addrKind a with
      | .tier1 | .tier2 => op != .tset
      | .ledge _ _ => true
      | _ => false)

/-- An atomic request of core `c`, outstanding until its response (R224). -/
def State.coreAtomic (s : State) (c : Nat) (h : Handle) (off : Nat) (op : AtomOp) (sw tw : Bool) (operand : Nat) :
    Nat × State :=
  let a := h.base + off
  let n := atomBytes op tw
  let mark (s : State) : State := s.modCore c (fun k =>
    { k with accSent := k.accSent || op == AtomOp.accadd, report := { k.report with wrote := true } })
  if !h.valid || decide (64 * h.length < off + n) then (stShapeInvalid, s)
  else if h.mem = memRemote then
    if a % n ≠ 0 then (stBadField, s)
    else
      let o := s.outstAdd c true true false
      let r := o.2.remoteSend ⟨s.logicalOf c, none, 5, 3, h.devid,
        ⟨a / 64, 0, 0, atomBytesOf a op.code sw tw operand 0⟩, .atom (.core c o.1), s.now⟩
      if r.1 = stOk then (stOk, mark r.2) else (r.1, r.2.outstDone c o.1)
  else if !(h.mem == memLedge || h.mem == memTier1 || h.mem == memTier2) || !s.atomTargetOk a op tw then (stBadField, s)
  else
    let o := s.outstAdd c true false false
    (stOk, mark (o.2.sendAtom ⟨a, op, sw, tw, operand, 0, .core c o.1, s.now⟩))

/-! ## Reads and writes through a handle -/

/-- The handle is in use and covers `n` bytes from `off` (R197). -/
def Handle.covers (h : Handle) (off n : Nat) : Bool := h.valid && decide (off + n ≤ 64 * h.length)

/-- A core descriptor: a tier load or store that a core makes; one that fails is counted (R327, R331). -/
def coreDesc {α : Type} (h : Handle) (r : Reach α) : Reach α :=
  match r with
  | .fail st t => if h.mem = memTier1 ∨ h.mem = memTier2 then .fail st (t.bump MEM_DMA_ERR 1) else .fail st t
  | r => r

/-- The engine of a core works its descriptor (R327); where its buffer is uncorrectable the descriptor fails and is issued once more, on
the next engine, and a second failure fails it (R402). -/
def State.coreEngine (s : State) (c : Nat) (h : Handle) : Reach Unit :=
  let e := s.logicalOf c / 2
  let n := (e + 1) % 32
  let failed (e : Nat) (s : State) : State :=
    ({ s with badWords := s.badWords.filter (· != .engine e) } : State).bump MEM_DMA_ERR 1
  if !(h.mem == memTier1 || h.mem == memTier2) || !s.badWords.contains (.engine e) then .ok () s
  else if !s.badWords.contains (.engine n) then .ok () (failed e s)
  else .fail stUncorrectable (failed n (failed e s))

/-- A read by the tile of core `c` through a handle, tags apart. -/
def State.handleRead (s : State) (c client : Nat) (h : Handle) (off n : Nat) : Reach (List Byte) :=
  if !h.covers off n then .fail stShapeInvalid s
  else if h.mem = memAm then s.coreRead c client .am (h.base + off) n
  else if h.mem = memPm then s.coreRead c client .pm (h.base + off) n
  else if h.mem = memLedge ∨ h.mem = memTier1 ∨ h.mem = memTier2 then
    (s.coreEngine c h).bind fun _ s => coreDesc h (s.devRead (h.base + off) n)
  else if h.mem = memRemote then s.remoteRead c h.devid (h.base + off) n
  else .fail stBadField s

/-- An ARRIVE increment at physical core `p` (R195): saturating, a violation at the first increment lost. -/
def State.arriveInc (s : State) (p i n : Nat) : State :=
  let v := (s.creg p (CORE_SPM_ARRIVE (i % 64))).toNat
  let s := s.setCreg p (CORE_SPM_ARRIVE (i % 64)) (satAdd (BitVec.ofNat 32 v) n)
  if 2 ^ 32 - 1 < v + n ∧ Tab.get (fun _ => 0) (s.core p).arrLost (i % 64) = 0 then
    (s.modCore p (fun k => { k with arrLost := Tab.set (fun _ => 0) k.arrLost (i % 64) 1 })).violation 4 (logSource 3 0)
  else s

/-- A write by the tile of core `c` through a handle, tags apart. `dma` tells the core DMA from the requantiser and the
sequencer. Writes that leave the core are outstanding until acknowledged. -/
def State.handlePut (s : State) (c : Nat) (h : Handle) (off : Nat) (data : List Byte) (dma : Bool)
    (arr : Option Nat) : Reach Unit :=
  if !h.covers off data.length then .fail stShapeInvalid s
  else if h.mem = memAm ∨ h.mem = memPm then
    match s.coreWrite c (if dma then 1 else 2) (if h.mem = memAm then .am else .pm) (h.base + off) data dma with
    | .ok _ t =>
      match arr with
      | some i => .ok () (t.arriveInc c i (data.length / 64))
      | none => .ok () t
    | r => r
  else if h.mem = memLedge ∨ h.mem = memTier1 ∨ h.mem = memTier2 then
    let isSpm : Bool := match s.addrKind (h.base + off) with | .spm _ _ _ => true | _ => false
    if arr.isSome && !isSpm then .fail stBadField s
    else
      match (s.coreEngine c h).bind fun _ s => coreDesc h (s.devWrite (h.base + off) data) with
      | .ok _ t =>
        let t := match s.addrKind (h.base + off), arr with
          | .spm i _ _, some a =>
            match s.physOf i with
            | some p => t.arriveInc p a (data.length / 64)
            | none => t
          | _, _ => t
        .ok () (t.outstAdd c false false true).2
      | r => r
  else if h.mem = memRemote then
    let r := s.remoteWrite c h.devid (h.base + off) data arr
    if r.1 = stOk then .ok () r.2 else .fail r.1 r.2
  else .fail stBadField s

/-- The core's dispatch has written an output (R309). -/
def State.noteWrote (s : State) (c : Nat) : State :=
  s.modCore c (fun k => { k with report := { k.report with wrote := true } })

/-- A write by the tile of core `c` through a handle, noted as an output. -/
def State.handleWrite (s : State) (c : Nat) (h : Handle) (off : Nat) (data : List Byte) (dma : Bool)
    (arr : Option Nat) : Reach Unit :=
  match s.handlePut c h off data dma arr with
  | .ok _ t => .ok () (if data.isEmpty then t else t.noteWrote c)
  | r => r

/-! ## Tags of an access through a handle (R191) -/

/-- The scratchpad of a handle, if it is one. -/
def Handle.spm (h : Handle) : Option SpmMem := if h.mem = memAm then some .am else if h.mem = memPm then some .pm else none

/-- The tag kind of a write through a handle. -/
def Handle.writeKind (h : Handle) : TagKind := if h.tagMode = 0 then .none else .produce

/-- The tag kind of a read through a handle; `tk` is the instruction's field: 0 by handle, 1 NONE, 2 PEEK. -/
def Handle.readKind (h : Handle) (tk : Nat) : TagKind :=
  if tk = 1 then .none else if tk = 2 then .peek else if h.tagMode = 0 then .none else .consume

/-- Of some slots of a scratchpad of core `p`, the first at which an access of a client must wait (R191, R192). -/
def State.tagHeld (s : State) (p client : Nat) (m : SpmMem) (kind : TagKind) (slots : List Nat) : Option TagWait :=
  let k := s.core p
  (slots.find? (fun sl => k.tagHolds p m sl kind (tagRank client) (if client = 4 then k.meshWait else []))).map
    (fun sl => ⟨p, client, m, sl, kind, 0⟩)

/-- The tags of the slots of an access once its last byte has moved. -/
def CoreState.slotsAfter (c : Nat) (k : CoreState) (h : Handle) (off n : Nat) (kind : TagKind) : CoreState :=
  match h.spm with
  | some m => (slotsOf (h.base + off) n).foldl (fun k sl => k.tagAfter c m sl kind) k
  | none => k

end Sys2Proof.Machine
end

