-- ==== Sys2Proof/Machine/Accum.lean ====
section
/-!
DEFINITION. Accumulator instructions at issue, and the transfer of a drain into the belay set: ACLR, ADRAIN, AEPI
(R77 to R88, R103, R122, R212, R219 to R221).
-/

namespace Sys2Proof.Machine

/-! ## Pairing (R212) -/

/-- Blocks that a compute instruction names; none for another instruction. -/
def computeBlocks (w : W64) : Option (Nat × Nat) :=
  match tileKind w with
  | some .pass | some .pass24 => some (field w 31 27, field w 36 32)
  | some .stream => some (field w 36 32, field w 41 37)
  | _ => none

/-- Blocks that an accumulator instruction names; a LIST drain names none. -/
def accBlocks (w : W64) : Option (Nat × Nat) :=
  match tileKind w with
  | some .aclr | some .adrainEpi | some .adrainRaw | some .adrainAtomic => some (drainBlocks w)
  | _ => none

/-- An enabled breakpoint stands at an address. -/
def CoreState.breakAt (c : Nat) (k : CoreState) (pc : Nat) : Bool :=
  (List.range 4).any (fun j => (k.reg c (CORE_SEQ_BP j)).getLsbD 31 && k.fld c (CORE_SEQ_BP j) 12 0 == pc)

/-- The accumulator instruction at the pc waits to issue together with the compute instruction that is adjacent to it
and names the same block. A step from DEBUG pairs nothing (R236). -/
def CoreState.holds (c : Nat) (k : CoreState) (w : W64) : Bool :=
  let n := (nextPc k.pc k.loops).1
  k.accHeld.isNone && !k.stepping && k.seq == .running && !k.breakAt c n &&
    (match accBlocks w, computeBlocks (k.imemAt n) with
      | some (b, e), some (b', e') => extentsMeet b e b' e'
      | _, _ => false)

/-- The frame of ACLR and ADRAIN: held for its pair, or run. -/
def withAcc (kind : TileKind) (c : Nat) (s : State) (f : W64 → State) : Out :=
  withTile kind c s (fun w =>
    let k := s.core c
    if k.holds c w then s.setCore c ({ k with accHeld := some (k.pc, w, false) }.goOn c) else f w)

/-! ## ACLR (R78, R81) -/

/-- The tag word that ACLR writes. -/
def aclrTag (w : W64) : W32 := BitVec.ofNat 32 (2 ^ 31 + field w 16 16 * 2 ^ 8 + field w 23 17)

/-- A block cleared and tagged; its recorded shift goes (R122). -/
def aclrBlock (c : Nat) (w : W64) (k : CoreState) (b : Nat) : CoreState :=
  let k := (k.clearBlock b).setReg c (CORE_ACC_TAG b) (aclrTag w)
  { k with exitShift := k.exitShift.filter (fun e => e.1 / 8 != b),
           exitTiles := k.exitTiles.filter (fun t => !extentsMeet b 0 t.1 t.2), kEdges := k.kEdges.filter (· != b) }

/-- The blocks of an extent. -/
def blocksOf (b e : Nat) : List Nat := (List.range (e + 1)).map (b + ·)

/-- The effect of an ACLR that issues, after every earlier closing. -/
def State.aclr (s : State) (c : Nat) (w : W64) : State :=
  let s := s.closeAll c
  if (s.core c).fault.isSome then s
  else s.modCore c (fun k => ((blocksOf (drainBlocks w).1 (drainBlocks w).2).foldl (aclrBlock c w) k).advance c)

/-- ACLR. -/
def execAclr (c : Nat) (s : State) : Out :=
  s.inCore c <|
  withAcc .aclr c s (fun w =>
    let k := s.core c
    let e := drainBlocks w
    if extentPast e.1 e.2 || k.inHac c e.1 e.2 then s.tileFault c stShapeInvalid 0
    else if k.passOn e.1 e.2 || k.drainOn e.1 e.2 then s.stall c waitScoreboard (some CORE_ACC_SBSTALL)
    else s.aclr c w)

/-! ## ADRAIN at issue (R85, R219) -/

/-- The rows of an extent, each block with the rows that its own tag gives: block, row within it. -/
def CoreState.extentRows (c : Nat) (k : CoreState) (b e : Nat) : List (Nat × Nat) :=
  (blocksOf b e).flatMap (fun j => (List.range (rowsPerBlock (k.blockTag c j).2.1)).map (fun r => (j, r)))

/-- The first untagged block of an extent (R79). -/
def CoreState.untagged (c : Nat) (k : CoreState) (b e : Nat) : Option Nat :=
  (blocksOf b e).find? (fun j => !(k.blockTag c j).1)

/-- Bytes that the drained rows take in the belay set. -/
def CoreState.drainBytes (c : Nat) (k : CoreState) (rows : List (Nat × Nat)) : Nat :=
  (rows.map (fun r => if (k.blockTag c r.1).2.1 then 1024 else 2048)).sum

/-- The rows an ADRAIN names. -/
def CoreState.drained (c : Nat) (k : CoreState) (w : W64) : List (Nat × Nat) :=
  ((k.extentRows c (drainBlocks w).1 (drainBlocks w).2).drop (field w 23 16)).take (field w 27 24 + 1)

/-- References of an ADRAIN in field order: NAG, AAG, RAG. -/
def drainRefs (w : W64) : List Nat := [field w 54 51, field w 58 55, field w 62 59]

/-- An ADRAIN issues: it takes its place, and belay room, in ADRAIN order. -/
def State.drainStart (s : State) (c : Nat) (w : W64) (cfg : DrainCfg) (bytes : Nat) : State :=
  let k := s.core c
  let d : Drain :=
    { pc := k.curPc, word := w, cfg := cfg, aepi := k.aepi, nbase := (agRef c k (field w 54 51)).toNat * 512,
      aag := (agRef c k (field w 58 55)).toNat, rag := (agRef c k (field w 62 59)).toNat, bytes := bytes,
      moved := false, rows := [], list := [], done := 0, rq := [] }
  (s.setCore c { k with drains := k.drains ++ [d], belayHigh := max k.belayHigh (k.belayUsed + bytes) }).issue c
    (drainRefs w)

/-- The address generators of an ADRAIN are in range. -/
def drainAgsOk (c : Nat) (k : CoreState) (w : W64) (list : Bool) : Bool :=
  agIn (agRef c k (field w 54 51)) (2 ^ 23 - 1) 1
    && agIn (agRef c k (field w 58 55)) (if list then 2 ^ 20 - 8 else 2 ^ 38 - 1) 1
    && agIn (agRef c k (field w 62 59)) (2 ^ 38 - 1) 1

/-- The rows of context CTX fit (R89, R220). -/
def ctxFits (w : W64) : Bool := decide (field w 44 41 + (field w 27 24 + 1) ≤ 16)

/-- An ADRAIN of ACM blocks at issue: checks, waits, start. `epi` asks for the context check, `raw` for the format of
the drain handle. -/
def State.drainIssue (s : State) (c : Nat) (w : W64) (epi raw : Bool) : State :=
  let k := s.core c
  let e := drainBlocks w
  match k.drn with
  | none => s.tileFault c stBadField 0
  | some cfg =>
    let h := k.handle c cfg.dh
    let rows := k.drained c w
    let bytes := k.drainBytes c rows
    if !drainAgsOk c k w false || (epi && !ctxFits w) then s.tileFault c stShapeInvalid 0
    else if extentPast e.1 e.2 || k.inHac c e.1 e.2 then s.tileFault c stShapeInvalid 0
    else if (k.untagged c e.1 e.2).isSome then s.tileFault c stBadField (blockInfo ((k.untagged c e.1 e.2).getD 0))
    else if rows.length < field w 27 24 + 1 then s.tileFault c stShapeInvalid 0
    else if raw && h.valid && h.fmt != fmtAcc16 && h.fmt != fmtAcc32 then s.tileFault c stBadField 0
    else if k.passOn e.1 e.2 || k.drainOn e.1 e.2 then s.stall c waitScoreboard (some CORE_ACC_SBSTALL)
    else if 65536 < k.belayUsed + bytes then s.stall c waitScoreboard (some CORE_ACC_BELAYSTALL)
    else s.drainStart c w cfg bytes

/-- ADRAIN, PATH EPI. -/
def execAdrainEpi (c : Nat) (s : State) : Out :=
  s.inCore c <|
  withAcc .adrainEpi c s (fun w => s.drainIssue c w true false)

/-- ADRAIN, PATH RAW. -/
def execAdrainRaw (c : Nat) (s : State) : Out :=
  s.inCore c <|
  withAcc .adrainRaw c s (fun w => s.drainIssue c w false true)

/-- ADRAIN, PATH ATOMIC. -/
def execAdrainAtomic (c : Nat) (s : State) : Out :=
  s.inCore c <|
  withAcc .adrainAtomic c s (fun w => s.drainIssue c w false false)

/-- ADRAIN with SRC = LIST: no blocks and no belay room (R103, R219). -/
def execAdrainList (c : Nat) (s : State) : Out :=
  s.inCore c <|
  withAcc .adrainList c s (fun w =>
    let k := s.core c
    match k.drn with
    | none => s.tileFault c stBadField 0
    | some cfg =>
      if field w 27 24 ≠ 0 ∨ 63 < field w 40 32 then s.tileFault c stBadField 0
      else if !drainAgsOk c k w true || !ctxFits w then s.tileFault c stShapeInvalid 0
      else s.drainStart c w cfg 0)

/-! ## The transfer (R85, R86, R122) -/

/-- An entry as it leaves ACM: a finite one shifted left by the block's recorded shift (R122). -/
def leaveAcm (w sh : Nat) : AV → AV
  | .fin q => accFit w (q * 2 ^ sh)
  | x => x

/-- One row of a block taken: its entries, or none when a word is uncorrectable. -/
def CoreState.takeRow (c : Nat) (k : CoreState) (b r : Nat) : Option DrainRow :=
  let t := k.blockTag c b
  let words := (List.range (if t.2.1 then 128 else 256)).map (fun i => b * 1024 + r * (if t.2.1 then 128 else 256) + i)
  if words.any (fun x => Tab.get noErr k.acmErr x != 0 && !correctable (Tab.get noErr k.acmErr x)) then none
  else some
    { tbp := t.2.2, acc16 := t.2.1,
      vals := (List.range 512).map (fun col =>
        leaveAcm (if t.2.1 then 16 else 32) (Tab.get (fun _ => 0) k.exitShift (8 * b + r))
          (k.acmEntry t.2.1 b (r * 512 + col))), errs := [] }

/-- Keys of the 32-bit words of a row. -/
def rowHas (acc16 : Bool) (b r key : Nat) : Bool :=
  let n := if acc16 then 256 else 512
  decide (b * 2048 + r * n ≤ key ∧ key < b * 2048 + r * n + n)

/-- A row set to finite 0 with fresh check bits (R86). -/
def CoreState.clearRow (c : Nat) (k : CoreState) (b r : Nat) : CoreState :=
  let a := (k.blockTag c b).2.1
  { k with acm := k.acm.filter (fun e => !rowHas a b r e.1), acmErr := k.acmErr.filter (fun e => !rowHas a b r (2 * e.1)) }

/-- Corrected words of a row. -/
def CoreState.rowCe (c : Nat) (k : CoreState) (b r : Nat) : Nat :=
  (k.acmErr.filter (fun e => rowHas (k.blockTag c b).2.1 b r (2 * e.1) && correctable e.2)).length

/-- The length of stream that the drained rows of a tile used (R122): recorded for the core and for its command. A tile that
ended early counts once, however many drains take its rows. -/
def CoreState.noteLength (c : Nat) (k : CoreState) (sh : Nat) (blocks : List Nat) : CoreState :=
  match k.arr with
  | none => k
  | some a =>
    if a.wfmt = fmtScUni ∨ a.wfmt = fmtScBip then
      let len := 2 ^ a.slog / 2 ^ sh
      let k := k.setFld c CORE_SG_EXIT_LEN 11 0 (len + if sh = 0 then 0 else 2 ^ 11)
      let ends (t : Nat × Nat) : Bool := blocks.any (fun b => extentsMeet b 0 t.1 t.2)
      let k := { k.bump c CORE_SG_EXITS (k.exitTiles.filter ends).length with exitTiles := k.exitTiles.filter (!ends ·) }
      { k with report := { k.report with
          shortest := if k.report.shortest = 0 then len else min k.report.shortest len,
          longest := max k.report.longest len } }
    else k

/-- The shift that was recorded for the drained rows goes; that of the tile's other rows stays for the drain that takes them
(R122; log 63). -/
def CoreState.clearShift (k : CoreState) (rows : List (Nat × Nat)) : CoreState :=
  { k with exitShift := k.exitShift.filter (fun e => !rows.contains (e.1 / 8, e.1 % 8)) }

/-- The oldest drain that has not moved, replaced. -/
def setUnmoved (f : Drain → Drain) : List Drain → List Drain
  | [] => []
  | d :: ds => if d.moved then d :: setUnmoved f ds else f d :: ds

/-- The oldest drain that has not moved, dropped. -/
def dropUnmoved : List Drain → List Drain
  | [] => []
  | d :: ds => if d.moved then d :: dropUnmoved ds else ds

/-- A drained output tile that has an N, M or K edge counts, where the core counts them (R248). -/
def CoreState.countEdge (c : Nat) (k : CoreState) (w : W64) (bs : List Nat) : CoreState :=
  let edge := decide (field w 40 32 + 1 < 512) || decide (field w 31 28 < field w 27 24) || bs.any k.kEdges.contains
  let k := if k.ownEdges && edge then k.bump c CORE_MAP_EDGE 1 else k
  if field w 47 47 = 1 then { k with kEdges := k.kEdges.filter (fun b => !bs.contains b) } else k

/-- A drain of blocks enters the belay set. -/
def State.moveDrain (s : State) (c : Nat) (d : Drain) : State :=
  let k := s.core c
  let rows := k.drained c d.word
  let taken := rows.map (fun r => k.takeRow c r.1 r.2)
  let ce := (rows.map (fun r => k.rowCe c r.1 r.2)).sum
  let k := k.bumpFld c CORE_ACC_ECC 15 0 ce
  if taken.any (·.isNone) then
    ((s.setCore c { k.bumpFld c CORE_ACC_ECC 31 16 1 with drains := dropUnmoved k.drains }).tileFaultAt c d.pc stUncorrectable 0).fenceRequest c 1
  else
    let bs := blocksOf (drainBlocks d.word).1 (drainBlocks d.word).2
    let sh := (rows.map (fun r => Tab.get (fun _ => 0) k.exitShift (8 * r.1 + r.2))).foldl max 0
    let k := (k.noteLength c sh (rows.map (·.1))).clearShift rows
    let k := k.countEdge c d.word bs
    let k := if field d.word 47 47 = 1 then rows.foldl (fun k r => k.clearRow c r.1 r.2) k else k
    s.setCore c { k with drains := setUnmoved (fun d => { d with moved := true, rows := taken.filterMap id }) k.drains }

/-- The records of a LIST drain. -/
def listRecords (bs : List Byte) (n : Nat) : List (Nat × Nat) :=
  (List.range n).map (fun i => (leNat ((bs.drop (8 * i)).take 4), leNat ((bs.drop (8 * i + 4)).take 4)))

/-- A LIST drain reads its records from AM, by the core DMA (R103). -/
def State.moveList (s : State) (c : Nat) (d : Drain) : State :=
  let n := (field d.word 40 32 + 1) * d.aepi.k
  match s.coreRead c 1 .am d.aag (8 * n) with
  | .wait t => t
  | .fail st t => (t.modCore c (fun k => { k with drains := dropUnmoved k.drains })).tileFaultAt c d.pc st 0
  | .ok bs t => t.modCore c (fun k => { k with
      drains := setUnmoved (fun d => { d with moved := true, list := listRecords bs n }) k.drains })

/-- The oldest issued ADRAIN's bytes enter the belay set, after every earlier closing, and it retires. -/
def execAdrainTransfer (c : Nat) (s : State) : Out :=
  s.inCore c <|
  match (s.core c).drains.find? (fun d => !d.moved) with
  | none => .next s
  | some d =>
    if field d.word 48 48 = 1 then .next (s.moveList c d)
    else if (s.core c).passOn (drainBlocks d.word).1 (drainBlocks d.word).2 then .next s
    else .next ((s.closeAll c).moveDrain c d)

/-! ## AEPI (R88, R221) -/

/-- AEPI, FORM 0. -/
def execAepiForm0 (c : Nat) (s : State) : Out :=
  s.inCore c <|
  withTile .aepi0 c s (fun w =>
    (s.modCore c (fun k => { k with aepi := { k.aepi with
      stages := field w 11 7, rebase := field w 12 12 == 1, k := field w 18 13 + 1, score := field w 19 19 == 1,
      lscale := field w 47 32 } })).issue c [])

/-- AEPI, FORM 1. -/
def execAepiForm1 (c : Nat) (s : State) : Out :=
  s.inCore c <|
  withTile .aepi1 c s (fun w =>
    (s.modCore c (fun k => { k with aepi := { k.aepi with
      kref := signed 16 (field w 31 16), statbase := field w 45 32, tkbase := field w 59 46 } })).issue c [])

end Sys2Proof.Machine
end

