-- ==== Sys2Proof/Machine/Epilogue.lean ====
section
/-!
DEFINITION. The epilogue: row contexts and stages 1 to 5, the rasp unit, the requantiser, the three drain paths, the
hash-indexed accumulator, row closes and range-miss windows (R87 to R104, R133 to R145, R168 to R174, R176 to R179,
R250, R457).
-/

namespace Sys2Proof.Machine

/-! ## Log-sum (R92 to R98) -/

/-- Two results combined, the earlier first; an empty sum leaves the other alone. The Bool is BOUND_EXCEEDED. -/
def lsCombine : Option Int → Option Int → Option Int × Bool
  | none, x => (x, false)
  | some l, none => (some l, false)
  | some l, some t => let r := logAdd l t; (some r.1, r.2)

/-- A result enters the binary counter of levels at its lowest level; the carry out of level 7 goes to the root. -/
def lsInsert : List (Option (Option Int)) → Option Int → List (Option (Option Int)) × Option (Option Int) × Bool
  | [], r => ([], some r, false)
  | none :: ls, r => (some r :: ls, none, false)
  | some w :: ls, r =>
    let x := lsCombine w r
    let t := lsInsert ls x.1
    (none :: t.1, t.2.1, x.2 || t.2.2)

/-- A finished block of 64 positions joins the row: through the levels, or, from the 257th block of a segment on,
straight into the root (R94, R98). -/
def RowCtx.endBlock (x : RowCtx) : RowCtx :=
  if 256 ≤ x.blocks then
    let r := lsCombine (x.root.getD none) x.blk
    { x with root := some r.1, blk := none, blocks := x.blocks + 1, bound := true }
  else
    let t := lsInsert x.levels x.blk
    { x with levels := t.1, root := t.2.1.orElse (fun _ => x.root), blk := none, blocks := x.blocks + 1,
             bound := x.bound || t.2.2 }

/-- The result of the open segment: the occupied levels from level 0 upward, then the root. -/
def RowCtx.segResult (x : RowCtx) : Option Int × Bool :=
  let step (acc : Option Int × Bool) (w : Option (Option Int)) : Option Int × Bool :=
    match w with
    | none => acc
    | some l => let r := lsCombine l acc.1; (r.1, acc.2 || r.2)
  step (x.levels.foldl step (none, false)) x.root

/-- The row reaches a multiple of 16,384 positions under REBASE: the segment closes (R97). -/
def RowCtx.rebase (x : RowCtx) : RowCtx :=
  let r := x.segResult
  { x with segs := x.segs ++ [r.1.map (fun t => fp32OfDyadic t (-16))], levels := List.replicate 8 none, root := none,
           blocks := 0, rebases := x.rebases + 1, bound := x.bound || r.2 }

/-- Stage 2 on one position: `v` is none for a padded position. -/
def RowCtx.logsum (x : RowCtx) (e : AepiCfg) (tbp : Int) (v : Option AV) : RowCtx :=
  let x := if e.rebase && x.pos != 0 && x.pos % 16384 == 0 then x.rebase else x
  let x := match v with
    | none => x
    | some .pinf => { x with sawPinf := true }
    | some .nas => { x with sawNas := true }
    | some .ninf => x
    | some (.fin q) =>
      let t := logTerm q e.lscale tbp
      match x.blk with
      | none => { x with blk := some t.1, bound := x.bound || t.2 }
      | some l => let r := logAdd l t.1; { x with blk := some r.1, bound := x.bound || t.2 || r.2 }
  if x.pos % 64 = 63 then x.endBlock else x

/-! ## The other statistics (R91, R99, R101 to R103) -/

/-- The greater value of R91; NAS wins. -/
def avMax (a b : AV) : AV :=
  if a = .nas ∨ b = .nas then .nas else if avLt a b then b else a

/-- The square of a value in ACC64 (R99). -/
def avSquare : AV → AV
  | .fin v => accFit 64 (v * v)
  | .nas => .nas
  | _ => .pinf

/-- Entry `a` ranks before entry `b` (R101). -/
def topBefore (a b : AV × Bool × Nat) : Bool := avLt b.1 a.1 || (a.1 == b.1 && decide (a.2.2 < b.2.2))

/-- An entry put in its place. -/
def topInsert (e : AV × Bool × Nat) : List (AV × Bool × Nat) → List (AV × Bool × Nat)
  | [] => [e]
  | x :: xs => if topBefore e x then e :: x :: xs else x :: topInsert e xs

/-- An entry offered to the top-k stage: NAS only sets NAS_SEEN. -/
def RowCtx.offer (x : RowCtx) (k : Nat) (v : AV) (score : Bool) (idx : Nat) : RowCtx :=
  if v = .nas then { x with nasSeen := true } else { x with top := (topInsert (v, score, idx) x.top).take k }

/-- A fresh open context (R89). -/
def RowCtx.reset : RowCtx where
  tbp := none
  count := 0
  max := .ninf
  sumx := .fin 0
  sumsq := .fin 0
  pos := 0
  blk := none
  levels := List.replicate 8 none
  root := none
  blocks := 0
  segs := []
  rebases := 0
  bound := false
  sawPinf := false
  sawNas := false
  nasSeen := false
  special := false
  top := []

/-- A stage is enabled. -/
def AepiCfg.on (e : AepiCfg) (s : Nat) : Bool := e.stages.testBit (s - 1)

/-- One position of a drained row through stages 1 to 5 (R88, R90, R457). Stage 4 without stage 3 forms the sums for itself, and
the record shows SUMX, SUMSQ and COUNT as 0 (R99 is silent): DESIGN CHOICE, log 63. -/
def RowCtx.take1 (x : RowCtx) (e : AepiCfg) (tbp : Int) (idx : Nat) (v : Option AV) : RowCtx :=
  let c := x.tbp.getD tbp
  let x := { x with tbp := some c }
  let x := if e.on 2 then x.logsum e tbp v else x
  let x := { x with pos := x.pos + 1 }
  match v with
  | none => x
  | some v =>
    let v32 := accRepoint 32 tbp c v
    let v64 := accRepoint 64 tbp c v
    let x := { x with special := x.special || v.isSpecial }
    let x := if e.on 1 then { x with max := avMax x.max v32 } else x
    let x := if e.on 3 || e.on 4 then
        { x with sumx := accAdd 64 x.sumx v64, sumsq := accAdd 64 x.sumsq (avSquare v64), count := x.count + 1 }
      else x
    if e.on 5 then x.offer e.k v32 false (idx % 2 ^ 32) else x

/-- A drained row through stages 1 to 5: 512 positions, the first `nv` in bounds when the row is. -/
def RowCtx.takeRow (x : RowCtx) (e : AepiCfg) (r : DrainRow) (nbase nv : Nat) (inb : Bool) : RowCtx :=
  (r.vals.zip (List.range 512)).foldl
    (fun x p => x.take1 e r.tbp (nbase + p.2) (if inb && decide (p.2 < nv) then some p.1 else none)) x

/-! ## Contexts of a core -/

/-- Row context `i`: none when it is not open. -/
def CoreState.ctx (k : CoreState) (i : Nat) : Option RowCtx := Tab.get (fun _ => none) k.ctxs i

/-- Row context `i` replaced. -/
def CoreState.setCtx (k : CoreState) (i : Nat) (x : Option RowCtx) : CoreState :=
  { k with ctxs := Tab.set (fun _ => none) k.ctxs i x }

/-- The chunk mask of context `i` (R137). -/
def CoreState.chunkMask (k : CoreState) (i : Nat) : Nat := Tab.get (fun _ => 0) k.chunks i

/-- The chunk mask of context `i` replaced. -/
def CoreState.setChunks (k : CoreState) (i m : Nat) : CoreState := { k with chunks := Tab.set (fun _ => 0) k.chunks i m }

/-- OPEN: chunk masks cleared, partial blocks counted; the contexts reset when a stage uses them (R89, R138, R220). -/
def CoreState.openCtx (c : Nat) (k : CoreState) (used : Bool) (i : Nat) : CoreState :=
  let k := if k.chunkMask i = 0 then k else (k.setChunks i 0).bump c CORE_RASP_DROP 1
  if used then k.setCtx i (some RowCtx.reset) else k

/-! ## The rasp unit (R133 to R138) -/

/-- A value shifted by a smoothing exponent in ACC64; the Nat counts a finite input that became special. -/
def smoothOne (e : Nat) (v : AV) : AV × Nat :=
  match v with
  | .fin q => let r := accFit 64 (truncScale q ((e : Int) - 127)); (r, if r.isSpecial then 1 else 0)
  | x => (x, 0)

/-- An addition of the rasp unit, with its count of R134. -/
def raspAdd (a b : AV) : AV × Nat :=
  let r := accAdd 64 a b
  (r, if !a.isSpecial && !b.isSpecial && r.isSpecial then 1 else 0)

/-- One butterfly stage of stride 2^t over a list (R134). -/
def butterfly (t : Nat) (vs : List AV) : List AV × Nat :=
  let r := (vs.zip (List.range vs.length)).map (fun p =>
    if p.2 / 2 ^ t % 2 = 0 then raspAdd p.1 (vs.getD (p.2 + 2 ^ t) (.fin 0))
    else raspAdd (vs.getD (p.2 - 2 ^ t) (.fin 0)) p.1.neg)
  (r.map (·.1), (r.map (·.2)).sum)

/-- Butterfly stages `t0` to `t1 - 1`. -/
def butterflies (t0 t1 : Nat) (vs : List AV) : List AV × Nat :=
  (List.range (t1 - t0)).foldl (fun acc i => let r := butterfly (t0 + i) acc.1; (r.1, acc.2 + r.2)) (vs, 0)

/-- The whole blocks of `h` columns among the first `nv` rotated; the rest as they are. -/
def rotateBlocks (rsize nv : Nat) (vs : List AV) : List AV × Nat :=
  let h := 2 ^ rsize
  (List.range (nv / h)).foldl
    (fun acc b =>
      let r := butterflies 0 rsize ((acc.1.drop (b * h)).take h)
      (acc.1.take (b * h) ++ r.1 ++ acc.1.drop (b * h + h), acc.2 + r.2)) (vs, 0)

/-! ## The requantiser (R140 to R142) -/

/-- The settings captured by a drain (R144): CORE_RQ_CFG, OSCALE, OSADDR, CORE_RASP_CFG, SMADDR, STAGE, CORE_RQ_LIMIT. -/
def CoreState.rqRegs (c : Nat) (k : CoreState) : List W32 :=
  [k.reg c CORE_RQ_CFG, k.reg c CORE_RQ_OSCALE, k.reg c CORE_RQ_OSADDR, k.reg c CORE_RASP_CFG,
   k.reg c CORE_RASP_SMADDR, k.reg c CORE_RASP_STAGE, k.reg c CORE_RQ_LIMIT]

/-- A captured setting. -/
def Drain.set (d : Drain) (i : Nat) : W32 := d.rq.getD i 0

/-- OFMT, OBITS, OEXP, OG and the rotation size of the captured settings. -/
def Drain.ofmt (d : Drain) : Nat := regField (d.set 0) 4 0
def Drain.obits (d : Drain) : Nat := regField (d.set 0) 9 5
def Drain.oexp (d : Drain) : Nat := regField (d.set 0) 19 12
def Drain.og (d : Drain) : Nat := 32 * 2 ^ regField (d.set 0) 21 20
def Drain.rsize (d : Drain) : Nat := regField (d.set 3) 3 0
def Drain.smooth (d : Drain) : Bool := (d.set 3).getLsbD 4

/-- Float outputs carry no records and use no OEXP. -/
def Drain.float (d : Drain) : Bool := d.ofmt == fmtBf16 || d.ofmt == fmtFp32

/-- The settings are ones under which an EPI drain may run (R142). -/
def Drain.rqOk (d : Drain) : Bool :=
  (d.ofmt == fmtUint || d.ofmt == fmtSint || d.ofmt == fmtBin || d.ofmt == fmtTern || d.float)
    && widthOk d.ofmt d.obits && (d.float || decide (1 ≤ d.oexp ∧ d.oexp ≤ 254))

/-- Fields of the ADRAIN word. -/
def Drain.nv (d : Drain) : Nat := field d.word 40 32 + 1
def Drain.mv (d : Drain) : Nat := field d.word 31 28 + 1
def Drain.nrows (d : Drain) : Nat := field d.word 27 24 + 1
def Drain.ctxBase (d : Drain) : Nat := field d.word 44 41
def Drain.opens (d : Drain) : Bool := field d.word 45 45 == 1
def Drain.closes (d : Drain) : Bool := field d.word 46 46 == 1
def Drain.isList (d : Drain) : Bool := field d.word 48 48 == 1
def Drain.path (d : Drain) : Nat := field d.word 50 49

/-- The values of a row requantised, each with its scale. -/
def rqRow (d : Drain) (tbp : Int) (vs : List AV) (scales : List Nat) : List Out1 :=
  (vs.zip scales).map (fun p => requantise d.ofmt d.obits p.2 tbp p.1)

/-- Outputs run through the range-miss window of R145: the open window's outputs and clips, and the clips of every
window that closes. -/
def rqWindow (outs clips : Nat) : List Out1 → Nat × Nat × List Nat
  | [] => (outs, clips, [])
  | o :: os =>
    let c := clips + o.clip.toNat
    if outs + 1 = 4096 then
      let r := rqWindow 0 0 os
      (r.1, r.2.1, c :: r.2.2)
    else rqWindow (outs + 1) c os

/-- The counters and the window after a row of outputs, under the captured CLIP_LIMIT `limit`. -/
def countOutputs (c limit : Nat) (os : List Out1) (k : CoreState) : CoreState :=
  let clips := (os.filter (·.clip)).length
  let nf := (os.filter (·.special)).length
  let w := rqWindow (k.fld c CORE_RQ_WIN 27 16) (k.fld c CORE_RQ_WIN 12 0) os
  let k := (k.bump c CORE_RQ_CLIP clips).bump c CORE_RQ_NONFIN nf
  let k := (k.setFld c CORE_RQ_WIN 27 16 w.1).setFld c CORE_RQ_WIN 12 0 w.2.1
  { k with
    rangeWindows := k.rangeWindows ++ w.2.2.map (fun x => (x, limit)),
    report := { k.report with nonfinite := k.report.nonfinite || decide (0 < nf), clips := k.report.clips + clips } }

/-- Scales of `n` columns from column `col` of the layer: the uniform one, or the vector in PM. -/
def State.rqScales (s : State) (c : Nat) (d : Drain) (col n : Nat) : Reach (List Nat) :=
  if (d.set 0).getLsbD 10 then
    match s.coreRead c 2 .pm ((d.set 2).toNat + 2 * col) (2 * n) with
    | .ok bs t => .ok ((List.range n).map (fun i => leNat ((bs.drop (2 * i)).take 2))) t
    | .wait t => .wait t
    | .fail st t => .fail st t
  else .ok (List.replicate n ((d.set 1).toNat % 2 ^ 16)) s

/-- The group records of a row of `n` outputs. -/
def rqRecords (d : Drain) (n : Nat) : List Byte :=
  if d.float then [] else (List.range (ceilDiv n d.og)).flatMap (fun _ => leBytes 4 (d.oexp * 2 ^ 24))

/-! ## Row by row: what a step of a drain answers -/

/-- A row is done; or the drain waits; or its tile faults. -/
inductive RowOut where
  | done (s : State)
  | wait (s : State)
  | fault (st : Nat) (s : State)

/-- What more a row that is done does. A row that must wait is taken up again from its start, so counts wait till then. -/
def RowOut.onDone (r : RowOut) (f : State → State) : RowOut :=
  match r with
  | .done s => .done (f s)
  | r => r

/-- Slots of row `i` that no earlier row of the drain has entered, and slots that no later row will meet. -/
def freshSlots (base : Nat) (offs : List (Nat × Nat)) (i : Nat) : List Nat × List Nat :=
  let sl (p : Nat × Nat) : List Nat := slotsOf (base + p.1) p.2
  let mine := sl (offs.getD i (0, 0))
  let before := (offs.take i).flatMap sl
  let after := (offs.drop (i + 1)).flatMap sl
  (mine.filter (fun x => !before.contains x), mine.filter (fun x => !after.contains x))

/-- A row of a drain written through a handle under the handle's tag mode (R191). `offs` lists offset and length of
every row the drain writes there. -/
def State.drainWrite (s : State) (c : Nat) (h : Handle) (offs : List (Nat × Nat)) (i : Nat) (data : List Byte) :
    Reach Unit :=
  let off := (offs.getD i (0, 0)).1
  if data.isEmpty then .ok () s
  else
    match h.spm with
    | none => s.handleWrite c h off data false none
    | some m =>
      let fs := freshSlots h.base offs i
      match s.tagHeld c 2 m h.writeKind fs.1 with
      | some t =>
        .wait ((s.cbump c CORE_SPM_FE_WAIT 1).modCore c (fun k => { k with
          drainWait := some { t with waited := (match k.drainWait with | some o => o.waited | none => 0) + 1 } }))
      | none =>
        match s.handleWrite c h off data false none with
        | .ok _ t => .ok () (t.modCore c (fun k =>
            { fs.2.foldl (fun k sl => k.tagAfter c m sl h.writeKind) k with drainWait := none }))
        | r => r

/-- Bytes of a payload row of `n` outputs. -/
def Drain.rowBytes (d : Drain) (n : Nat) : Nat := ceilDiv (n * fmtBits d.ofmt d.obits) 8

/-- Offsets and lengths of every payload row, and of every record row, of an EPI drain. -/
def Drain.payOffs (d : Drain) (n : Nat) : List (Nat × Nat) :=
  (List.range (min d.nrows d.mv)).map (fun i => (d.aag + 64 * i * d.cfg.dstride, d.rowBytes n))
def Drain.recOffs (d : Drain) (n : Nat) : List (Nat × Nat) :=
  (List.range (min d.nrows d.mv)).map (fun i => (d.rag + i * 4 * (512 / d.og), if d.float then 0 else 4 * ceilDiv n d.og))

/-- Halves of 256 columns that the command processor named: a skipped one is written as zeros; an audited one is counted
(R178, R179). -/
def predHalves (c : Nat) (k : CoreState) (d : Drain) (off : Nat) (os : List Out1) : CoreState × List Out1 :=
  (List.range (ceilDiv os.length 256)).foldl
    (fun acc j =>
      match k.predPlan.find? (fun e => e.1 == off + j * 32 * fmtBits d.ofmt d.obits) with
      | none => acc
      | some (_, true) =>
        let miss := ((os.drop (256 * j)).take 256).any (fun o => o.bits != 0)
        let k := acc.1.bump c CORE_SP_PRED_AUDIT 1
        let k := { k with report := { k.report with audits := k.report.audits + 1 } }
        (if miss then { k.bump c CORE_SP_PRED_AMISS 1 with report := { k.report with amisses := k.report.amisses + 1 } }
          else k, acc.2)
      | some (_, false) =>
        let k := acc.1.bump c CORE_SP_PRED_SKIP 1
        ({ k with report := { k.report with skips := k.report.skips + 1 } },
          (acc.2.zip (List.range acc.2.length)).map (fun p => if p.2 / 256 = j then ⟨0, false, false⟩ else p.1)))
    (k, os)

/-- One write of a row: the handle, offset and length of everything that the drain writes there, which of them it is, the
bytes. -/
structure RowWrite where
  h : Handle
  offs : List (Nat × Nat)
  idx : Nat
  data : List Byte

/-- The writes of a row in order, from the first that has not been done; a wait keeps those that have. -/
def State.rowWrites (c : Nat) : List RowWrite → State → Reach Unit
  | [], s => .ok () s
  | w :: ws, s =>
    match s.drainWrite c w.h w.offs w.idx w.data with
    | .ok _ t => State.rowWrites c ws (t.modCore c (fun k => { k with paid := k.paid + 1 }))
    | r => r

/-- The payload of a row for a handle that is not RLZ: packed under R25. -/
def Drain.plainWrites (d : Drain) (h : Handle) (n i : Nat) (codes : List Nat) : List RowWrite :=
  [⟨h, d.payOffs n, i, packBits (fmtBits d.ofmt d.obits) codes⟩]

/-- The payload of a row for an RLZ handle: each block of 256 columns compressed, its header in the header array and its body in
its slot (R156, R158). `h` names the headers and `hs` the slots. -/
def Drain.rlzWrites (d : Drain) (h hs : Handle) (n i : Nat) (codes : List Nat) : List RowWrite :=
  let w := fmtBits d.ofmt d.obits
  let nb := ceilDiv n 256
  let at' (r j : Nat) : Nat := d.aag + 64 * r * d.cfg.dstride + 32 * w * j
  let rows := (List.range (min d.nrows d.mv)).flatMap (fun r => (List.range nb).map (fun j => at' r j))
  (List.range nb).flatMap (fun j =>
    let b := rlzBlock w ((codes.drop (256 * j)).take 256)
    [⟨h, rows.map (fun o => (o / (32 * w) * 4, 4)), nb * i + j, b.1⟩,
     ⟨hs, rows.map (fun o => (o, 32 * w)), nb * i + j, b.2⟩])

/-- An RLZ store starts on a block boundary (R158). -/
def Drain.rlzAligned (d : Drain) (i : Nat) : Bool :=
  (d.aag + 64 * i * d.cfg.dstride) % (32 * fmtBits d.ofmt d.obits) == 0

/-- The output has an RLZ form: UINT or SINT of a width of at most 16 (R156). -/
def Drain.rlzFormat (d : Drain) : Bool := d.ofmt == fmtUint || d.ofmt == fmtSint

/-- The writes of a row: its payload, then its records; or the status where an RLZ handle cannot take it (log 63). -/
def Drain.writesOf (c : Nat) (k : CoreState) (d : Drain) (n i : Nat) (codes : List Nat) : Nat × List RowWrite :=
  let h := k.handle c d.cfg.dh
  let recs : List RowWrite := [⟨k.handle c d.cfg.rh, d.recOffs n, i, rqRecords d n⟩]
  if h.layout ≠ 2 then (stOk, d.plainWrites h n i codes ++ recs)
  else if !d.rlzFormat then (stBadField, [])
  else if !d.rlzAligned i then (stShapeInvalid, [])
  else (stOk, d.rlzWrites h (k.handle c (d.cfg.dh + 1)) n i codes ++ recs)

/-- A row through the requantiser and out: `vs` from column `col` of the layer, at binary point `tbp`. -/
def State.rqEmit (s : State) (c : Nat) (d : Drain) (i col : Nat) (tbp : Int) (vs : List AV) : RowOut :=
  match s.rqScales c d col vs.length with
  | .wait t => .wait t
  | .fail st t => .fault st t
  | .ok scales t =>
    if !scales.all (fun x => scaleOk x && scaleExp x != 0) then .fault stMetadataInvalid t
    else
      let os := rqRow d tbp vs scales
      let lim := regField (d.set 6) 12 0
      let off := (d.payOffs vs.length |>.getD i (0, 0)).1
      let p := predHalves c (t.core c) d off os
      let ws := d.writesOf c (t.core c) vs.length i (p.2.map (·.bits))
      if ws.1 ≠ stOk then .fault ws.1 t
      else
        match State.rowWrites c (ws.2.drop (t.core c).paid) t with
        | .wait u => .wait u
        | .fail st u => .fault st u
        | .ok _ u => .done (u.modCore c (fun k => (predHalves c (countOutputs c lim os k) d off os).1))

/-- Bytes of a chunk of ACC64 values (R137). -/
def stageBytes (vs : List AV) : List Byte := vs.flatMap (fun v => leBytes 8 (accCode 64 v))

/-- ACC64 values of staged bytes. -/
def stagedValues (bs : List Byte) (n : Nat) : List AV :=
  (List.range n).map (fun i => accValue 64 (leNat ((bs.drop (8 * i)).take 8)))

/-- A chunk of a rotation block of more than 512 columns: staged, and, when it completes the block, emitted (R137). -/
def State.raspChunk (s : State) (c : Nat) (d : Drain) (i : Nat) (tbp : Int) (vs : List AV) : RowOut :=
  let k := s.core c
  let h := 2 ^ d.rsize
  let n := d.nbase % h / 512
  let ctx := d.ctxBase + i
  let slot := (d.set 5).toNat + 8 * h * ctx
  let mask := k.chunkMask ctx
  if mask.testBit n then .fault stBadField s
  else if 2 ^ 20 < slot + 4096 * n + 4096 then .fault stShapeInvalid s
  else
    let r := butterflies 0 9 vs
    match s.coreWrite c 2 .pm (slot + 4096 * n) (stageBytes r.1) false with
    | .wait t => .wait t
    | .fail st t => .fault st t
    | .ok _ t =>
      let mask := mask ||| 2 ^ n
      if mask = 2 ^ (h / 512) - 1 then
        match t.coreRead c 2 .pm slot (8 * h) with
        | .wait u => .wait u
        | .fail st u => .fault st u
        | .ok bs u =>
          let z := butterflies 9 d.rsize (stagedValues bs h)
          (u.rqEmit c d i (d.nbase - 512 * n) tbp z.1).onDone
            (·.modCore c (fun k => (k.setChunks ctx 0).bump c CORE_RASP_SAT (r.2 + z.2)))
      else .done (t.modCore c (fun k => (k.setChunks ctx mask).bump c CORE_RASP_SAT r.2))

/-- Stages 6 and 7 on one in-bounds row. A rotation block that runs past the layer's N holds padded columns (R136). -/
def State.stage67 (s : State) (c : Nat) (d : Drain) (i : Nat) (r : DrainRow) : RowOut :=
  let k := s.core c
  let vs := r.vals.take d.nv
  let h := 2 ^ d.rsize
  if !(d.rsize == 0 || (6 ≤ d.rsize && d.rsize ≤ 12)) then .fault stBadField s
  else if !d.rqOk then .fault stBadField s
  else if d.rsize ≠ 0 ∧ (d.nv % min h 512 ≠ 0 ∨ (k.outCols ≠ 0 ∧ k.outCols < (d.nbase + d.nv - 1) / h * h + h)) then
    .fault stShapeInvalid s
  else
    let sm : Reach (List Byte) :=
      if d.smooth then s.coreRead c 2 .pm ((d.set 4).toNat + d.nbase) d.nv else .ok [] s
    match sm with
    | .wait t => .wait t
    | .fail st t => .fault st t
    | .ok es t =>
      if es.any (fun e => e == 0 || e == 255) then .fault stMetadataInvalid t
      else
        let ws := if d.smooth then (vs.zip es).map (fun p => smoothOne p.2.toNat p.1) else vs.map (fun v => (v, 0))
        let vs := ws.map (·.1)
        let z := if d.rsize ≠ 0 ∧ h ≤ 512 then rotateBlocks d.rsize d.nv vs else (vs, 0)
        (if h ≤ 512 then t.rqEmit c d i d.nbase r.tbp z.1 else t.raspChunk c d i r.tbp vs).onDone
          (·.cbump c CORE_RASP_SAT ((ws.map (·.2)).sum + z.2))

/-! ## PATH RAW (R87, R176, R250) -/

/-- Offsets and lengths of every row of a RAW drain. -/
def Drain.rawOffs (d : Drain) (w : Nat) : List (Nat × Nat) :=
  (List.range (min d.nrows d.mv)).map (fun i => (d.aag + 64 * i * d.cfg.dstride, d.nv * w))

/-- The bit of the predictor comparator: inactive at or below THRESH - MARGIN (R176). -/
def inactive (thr margin : Int) : AV → Bool
  | .ninf => true
  | .fin v => decide (v ≤ thr - margin)
  | _ => false

/-- The row of the layer that drained row `i` is, from where it goes in the score buffer (log 27). -/
def Drain.scoreRow (d : Drain) (i : Nat) : Nat :=
  if d.cfg.dstride = 0 then i else (d.aag + 64 * i * d.cfg.dstride) / (64 * d.cfg.dstride)

/-- One bit of the skip map written in PM. Which bit of PM belongs to a (row, block) is open: Config.skipMapBit, log 27. -/
def State.writeSkip (s : State) (c row block : Nat) (b : Bool) : State :=
  let a := Config.skipMapBit c row block % 2 ^ 23
  let old := (s.core c).spmByte c .pm (a / 8)
  let new : Byte := if b then old ||| BitVec.twoPow 8 (a % 8) else old &&& ~~~ BitVec.twoPow 8 (a % 8)
  let r := s.spmWrite c .pm (a / 8) [new] false
  r.2.modCore c (fun k => { k with skipMap := k.skipMap.filter (· != (row, block)) ++ [(row, block)] })

/-- One in-bounds row of a RAW drain. -/
def State.rawRow (s : State) (c : Nat) (d : Drain) (i : Nat) (r : DrainRow) : RowOut :=
  let k := s.core c
  let h := k.handle c d.cfg.dh
  let w := if h.fmt = fmtAcc16 then 2 else 4
  let vs := (r.vals.take d.nv).map (fun v => accConvert (8 * w) (accRepoint 32 r.tbp d.cfg.otbp v))
  match s.drainWrite c h (d.rawOffs w) i (vs.flatMap (fun v => leBytes w (accCode (8 * w) v))) with
  | .wait t => .wait t
  | .fail st t => .fault st t
  | .ok _ t =>
    if k.predOn then
      .done (((r.vals.take d.nv).zip (List.range 512)).foldl (fun u p =>
        u.writeSkip c (d.scoreRow i) (d.nbase + p.2) (inactive (signed 32 (k.reg c CORE_SP_PRED_THR).toNat)
          (signed 32 (k.reg c CORE_SP_PRED_MARGIN).toNat) p.1)) t)
    else .done t

/-! ## PATH ATOMIC and the HAC (R168 to R174) -/

/-- The token-list entry of drained row `i`: row and gate. It is read from the record handle when that names an index
buffer in AM (log 14); otherwise the drain has none. -/
def State.tokenOf (s : State) (c : Nat) (d : Drain) (i : Nat) : Reach (Option (Nat × Nat)) :=
  let h := (s.core c).handle c d.cfg.rh
  if h.valid ∧ h.mem = memAm ∧ h.layout = 5 then
    match s.handleRead c 2 h (d.rag + 8 * i) 8 with
    | .ok bs t => .ok (some (bitsOf (leNat bs) 23 0, bitsOf (leNat bs) 47 32)) t
    | .wait t => .wait t
    | .fail st t => .fail st t
  else .ok none s

/-- A lane value scaled by a gate (R171). -/
def gated (gate : Option Nat) : AV → AV
  | .fin v =>
    match gate with
    | some g => accFit 32 (truncScale (v * (16 + scaleMant g)) ((scaleExp g : Int) - 131))
    | none => .fin v
  | x => x

/-- The ACCADDs of a row sent to the drain handle. The Nat counts them. -/
def State.atomicRow (s : State) (c : Nat) (d : Drain) (row : Nat) (vs : List AV) : Nat × Nat × State :=
  let h := (s.core c).handle c d.cfg.dh
  let b := if d.cfg.tw then 8 else 4
  (vs.zip (List.range vs.length)).foldl
    (fun acc p =>
      if acc.1 ≠ stOk then acc
      else
        let r := acc.2.2.coreAtomic c h (d.aag + b * (row * d.cfg.dstride * 16 + p.2)) .accadd true d.cfg.tw
          (accCode 32 p.1)
        (r.1, if r.1 = stOk then acc.2.1 + 1 else acc.2.1, r.2)) (stOk, 0, s)

/-- The first way of the block that key `k` maps to (R170). -/
def hacHome (k base nblk : Nat) : Nat := 4 * (base + k * 40503 % 65536 * nblk / 65536)

/-- A way of the HAC. -/
def CoreState.way (k : CoreState) (i : Nat) : Option HacWay := Tab.get (fun _ => none) k.ways i

/-- A way replaced. -/
def CoreState.setWay (k : CoreState) (i : Nat) (w : Option HacWay) : CoreState :=
  { k with ways := Tab.set (fun _ => none) k.ways i w }

/-- A way becomes the most recently used. -/
def CoreState.touch (k : CoreState) (i : Nat) : CoreState := { k with lru := k.lru.filter (· != i) ++ [i] }

/-- The way that key `key` takes: a hit; else the lowest invalid one; else the least recently used. The Bool says that
it must be spilled first. -/
def CoreState.pickWay (k : CoreState) (home key : Nat) : Nat × Bool × Bool :=
  let ws := (List.range 4).map (home + ·)
  match ws.find? (fun i => match k.way i with | some w => w.key == key | none => false) with
  | some i => (i, true, false)
  | none =>
    match ws.find? (fun i => (k.way i).isNone) with
    | some i => (i, false, false)
    | none => ((k.lru.find? (fun i => ws.contains i)).getD home, false, true)

/-- Lanes of a row added into a way. -/
def addLanes (old vs : List AV) : List AV := (List.range 512).map (fun i =>
  match vs[i]? with
  | some v => accAdd 32 (old.getD i (.fin 0)) v
  | none => old.getD i (.fin 0))

/-- The 8-byte words of ACM that hold way `i`: row i mod 4 of block i / 4, in ACC32 (R169). -/
def wayWords (i : Nat) : List Nat := (List.range 256).map (fun j => i / 4 * 1024 + i % 4 * 256 + j)

/-- The lanes of a way, from ACM. -/
def CoreState.wayLanes (k : CoreState) (i : Nat) : List AV :=
  (List.range 512).map (fun l => k.acmEntry false (i / 4) (i % 4 * 512 + l))

/-- The lanes of a way written, with fresh check bits. -/
def CoreState.setLanes (k : CoreState) (i : Nat) (vs : List AV) : CoreState :=
  let k := (List.range 512).foldl (fun k l => k.setAcmEntry false (i / 4) (i % 4 * 512 + l) (vs.getD l (.fin 0))) k
  { k with acmErr := k.acmErr.filter (fun e => !(wayWords i).contains e.1) }

/-- A read of the lanes of a way (R80): none where a word is uncorrectable; corrected words count and are mended. -/
def CoreState.readWay (c : Nat) (k : CoreState) (i : Nat) : Option (List AV × CoreState) :=
  let es := (wayWords i).map (fun x => Tab.get noErr k.acmErr x)
  if es.any (fun e => e != 0 && !correctable e) then none
  else
    let ce := (es.filter (· != 0)).length
    some (k.wayLanes i, { (if ce = 0 then k else k.bumpFld c CORE_ACC_ECC 15 0 ce) with
      acmErr := k.acmErr.filter (fun e => !(wayWords i).contains e.1) })

/-- A read of the tag words of the ways of one block (R80, R169): none where one is uncorrectable. -/
def CoreState.readTags (c : Nat) (k : CoreState) (home : Nat) : Option CoreState :=
  let es := (List.range 4).map (fun j => Tab.get noErr k.tagErr (home + j))
  if es.any (fun e => e != 0 && !correctable e) then none
  else
    let ce := (es.filter (· != 0)).length
    some (if ce = 0 then k else { k.bumpFld c CORE_ACC_ECC 15 0 ce with
      tagErr := k.tagErr.filter (fun e => e.1 / 4 != home / 4) })

/-- A way leaves for the spill queue; it is invalid then. None where its lanes are uncorrectable. -/
def CoreState.spillWay (c : Nat) (k : CoreState) (i : Nat) : Option CoreState :=
  match k.way i, k.readWay c i with
  | none, _ => some k
  | some _, none => none
  | some w, some (vs, k) =>
    some { (k.bump c CORE_SP_HAC_SPILL 1).setWay i none with spills := k.spills ++ [⟨w.key, vs, w.nbase⟩] }

/-- What an insertion into the HAC comes to. -/
inductive HacPut where
  | ok (k : CoreState)
  | full
  | bad

/-- A row inserted into the HAC (R170, R171): it waits while the spill queue is full. -/
def CoreState.hacInsert (c : Nat) (k : CoreState) (key nbase : Nat) (vs : List AV) : HacPut :=
  let home := hacHome key (k.fld c CORE_SP_HAC_CFG 5 1) (k.fld c CORE_SP_HAC_CFG 11 6)
  match k.readTags c home with
  | none => .bad
  | some k =>
    let p := k.pickWay home key
    if p.2.2 && decide (4 ≤ k.spills.length) then .full
    else
      match (if p.2.2 then k.spillWay c p.1 else some k) with
      | none => .bad
      | some k =>
        let old : Option (List AV × CoreState) := if p.2.1 then k.readWay c p.1 else some (List.replicate 512 (.fin 0), k)
        match old with
        | none => .bad
        | some (ls, k) =>
          let nb := if p.2.1 then ((k.way p.1).map (·.nbase)).getD nbase else nbase
          let k := k.bump c (if p.2.1 then CORE_SP_HAC_HIT else CORE_SP_HAC_MISS) 1
          .ok (((k.setLanes p.1 (addLanes ls vs)).setWay p.1 (some ⟨key, nb⟩)).touch p.1)

/-- One in-bounds row of an ATOMIC drain: into the HAC when it is on, otherwise ACCADDs at once. -/
def State.atomRow (s : State) (c : Nat) (d : Drain) (i : Nat) (r : DrainRow) : RowOut :=
  match s.tokenOf c d i with
  | .wait t => .wait t
  | .fail st t => .fault st t
  | .ok tok t =>
    let k := t.core c
    let gate := tok.map (·.2)
    if (k.reg c CORE_SP_HAC_CFG).getLsbD 0 then
      let otbp := signed 7 (k.fld c CORE_SP_HAC_CFG 19 13)
      let vs := (r.vals.take d.nv).map (fun v => gated gate (accRepoint 32 r.tbp otbp v))
      let key := match tok with
        | some e => e.1
        | none => (Config.freeBits 24 t.free).toNat
      match k.hacInsert c key d.nbase vs with
      | .full => .wait (t.cbump c CORE_SP_HAC_STALL 1)
      | .bad => .fault stUncorrectable ((t.modCore c (·.bumpFld c CORE_ACC_ECC 31 16 1)).fenceRequest c 1)
      | .ok k => .done { (t.setCore c k) with free := if tok.isSome then t.free else t.free + 1 }
    else
      let vs := (r.vals.take d.nv).map (fun v => gated gate (accRepoint 32 r.tbp d.cfg.otbp v))
      let x := t.atomicRow c d ((tok.map (·.1)).getD i) vs
      if x.1 = stOk then .done (x.2.2.cbump c CORE_MAP_ACCADD x.2.1)
      else .fault x.1 (x.2.2.cbump c CORE_MAP_ACCADD x.2.1)

/-- The oldest row of the spill queue leaves as ACCADDs (R172): one per lane that does not hold finite 0. -/
def State.hacSend (s : State) (c : Nat) (w : HacRow) : Nat × State :=
  let k := s.core c
  let tw := (k.reg c CORE_SP_HAC_CFG).getLsbD 12
  let b := if tw then 8 else 4
  let home := (k.reg c CORE_SP_HAC_HOME_LO).toNat + 2 ^ 32 * k.fld c CORE_SP_HAC_HOME_HI 15 0
  let remote := (k.reg c CORE_SP_HAC_HOME_HI).getLsbD 31
  let h : Handle := { handleOf 0 with
    base := home, valid := true, length := 2 ^ 42,
    mem := if remote then memRemote else memTier1, devid := k.fld c CORE_SP_HAC_HOME_HI 29 16 }
  let r := (w.lanes.zip (List.range 512)).foldl
    (fun acc p =>
      if acc.1 ≠ stOk ∨ p.1 = .fin 0 then acc
      else
        let r := acc.2.2.coreAtomic c h (w.key * (k.reg c CORE_SP_HAC_STRIDE).toNat + b * (w.nbase + p.2)) .accadd true tw
          (accCode 32 p.1)
        (r.1, if r.1 = stOk then acc.2.1 + 1 else acc.2.1, r.2)) (stOk, 0, s)
  (r.1, r.2.2.cbump c CORE_MAP_ACCADD r.2.1)

/-- HAC_SPILL: the oldest spilled way is sent. -/
def execHacSpill (c : Nat) (s : State) : Out :=
  s.inCores <|
  match (s.core c).spills with
  | [] => .next s
  | w :: ws =>
    let r := (s.modCore c (fun k => { k with spills := ws })).hacSend c w
    .next (r.2.faultIf c r.1)

/-! ## The drain at the head of the belay set (R85, R88) -/

/-- A row's statistics under stages 1 to 5. -/
def State.rowStats (s : State) (c : Nat) (d : Drain) (i : Nat) (r : DrainRow) : State :=
  if d.path = 0 ∧ d.aepi.stages ≠ 0 then
    s.modCore c (fun k =>
      match k.ctx (d.ctxBase + i) with
      | none => k
      | some x =>
        let y := x.takeRow d.aepi r d.nbase d.nv (decide (i < d.mv))
        (k.setCtx (d.ctxBase + i) (some y)).bump c CORE_EPI_REBASE (y.rebases - x.rebases))
  else s

/-- A row of the belay set has an uncorrectable word (R80). -/
def DrainRow.bad (r : DrainRow) : Bool := r.errs.any (fun e => e.2 != 0 && !correctable e.2)

/-- One row of a drain along its path. -/
def State.drainRow (s : State) (c : Nat) (d : Drain) (i : Nat) (r : DrainRow) : RowOut :=
  let fin (t : State) : State := (t.rowStats c d i r).modCore c (fun k =>
    { (if r.errs.isEmpty then k else k.bumpFld c CORE_ACC_ECC 15 0 r.errs.length) with paid := 0 })
  if r.bad then .fault stUncorrectable ((s.modCore c (·.bumpFld c CORE_ACC_ECC 31 16 1)).fenceRequest c 1)
  else if d.mv ≤ i then .done (fin s)
  else
    (match d.path with
      | 0 => s.stage67 c d i r
      | 1 => s.rawRow c d i r
      | _ => s.atomRow c d i r).onDone fin

/-- The drain at the head, replaced or gone. -/
def State.setHead (s : State) (c : Nat) (d : Option Drain) : State :=
  s.modCore c (fun k =>
    let k := { k with drains := d.toList ++ k.drains.tail }
    if d.isNone then { k with paid := 0, drainWait := none } else k)

/-- Rows from the `i`th on: each done in turn, until the drain ends, waits or faults. -/
def State.drainRows (s : State) (c : Nat) (d : Drain) (i : Nat) : List DrainRow → RowOut × Nat
  | [] => (.done s, i)
  | r :: rs =>
    match s.drainRow c d i r with
    | .done t => State.drainRows t c d (i + 1) rs
    | .wait t => (.wait t, i)
    | .fault st t => (.fault st t, i)

/-- Closes of the contexts of a drain with CLOSE (R89, R220). -/
def Drain.closings (d : Drain) : List RowClose :=
  if d.closes ∧ d.path = 0 ∧ d.aepi.stages ≠ 0 then
    (List.range d.nrows).map (fun i => ⟨d.ctxBase + i, decide (i < d.mv), d.pc, d.aepi⟩)
  else []

/-- The value of a record's code (R103): with SCORE set it is a score, a number taken as it stands (DEDUCED, log 11);
with SCORE clear it is an ACC32 code. -/
def listValue (e : AepiCfg) (n : Nat) : AV := if e.score then .fin (signed 32 n) else accValue 32 n

/-- The records of a LIST drain offered to their context (R103). -/
def listOffer (e : AepiCfg) (x : RowCtx) (p : Nat × Nat) : RowCtx :=
  if p = (0x80000001, 0xFFFFFFFF) then x else x.offer e.k (listValue e p.1) e.score p.2

/-- The contexts that a drain uses. -/
def Drain.ctxs (d : Drain) : List Nat := (List.range d.nrows).map (d.ctxBase + ·)

/-- The first look at a drain: OPEN takes effect, the settings are captured (R89, R138, R144). -/
def State.drainOpen (s : State) (c : Nat) (d : Drain) : State × Drain :=
  if d.rq.isEmpty then
    let k := s.core c
    let d := { d with rq := k.rqRegs c }
    let k := if d.opens && d.path == 0 then d.ctxs.foldl (CoreState.openCtx c · (d.aepi.stages != 0) ·) k else k
    ((s.setCore c k).setHead c (some d), d)
  else (s, d)

/-- A drain's checks on its contexts and its log-sum scale, which a LIST drain does not use (R89, R103, R221). -/
def drainCtxFault (k : CoreState) (d : Drain) : Option Nat :=
  if d.path ≠ 0 ∨ d.aepi.stages = 0 then none
  else if d.ctxs.any (fun i => (k.ctx i).isNone) then some stBadField
  else if d.aepi.on 2 && !d.isList && !scaleOk d.aepi.lscale then some stMetadataInvalid
  else none

/-- The predicted-inactive blocks and audit misses that no earlier drain accounts for are those of the drain that ends (R179). -/
def DispatchReport.cut (r : DispatchReport) : DispatchReport :=
  let n := r.audits + r.skips - (r.blocks.map (·.1)).sum
  if n = 0 then r else { r with blocks := r.blocks ++ [(n, r.amisses - (r.blocks.map (·.2)).sum)] }

/-- The drain at the head has ended: it leaves the belay set, and its closes queue. -/
def State.drainEnd (s : State) (c : Nat) (d : Drain) : State :=
  (s.setHead c none).modCore c (fun k => { k with closing := k.closing ++ d.closings, report := k.report.cut })

/-- EPILOGUE_DRAIN: the epilogue takes the oldest drain once it has moved. It waits while a close of one of its contexts
is due. A drain that must wait on the way keeps the rows it has finished. -/
def execEpilogueDrain (c : Nat) (s : State) : Out :=
  s.keepEdge <| s.keepFabric <| s.keepPower <|
  match (s.core c).drains with
  | [] => .next s
  | d :: _ =>
    if !d.moved || (s.core c).closing.any (fun x => d.ctxs.contains x.ctx) then .next s
    else
      let o := s.drainOpen c d
      let s := o.1
      let d := o.2
      match drainCtxFault (s.core c) d with
      | some st => .next ((s.setHead c none).tileFaultAt c d.pc st 0)
      | none =>
        if d.isList then
          .next ((s.modCore c (fun k =>
            match k.ctx d.ctxBase with
            | some x => if d.aepi.on 5 then k.setCtx d.ctxBase (some (d.list.foldl (listOffer d.aepi) x)) else k
            | none => k)).drainEnd c d)
        else
          match s.drainRows c d d.done (d.rows.drop d.done) with
          | (.done t, _) => .next (t.drainEnd c d)
          | (.wait t, i) => .next (t.setHead c (some { d with done := i }))
          | (.fault st t, _) => .next ((t.setHead c none).tileFaultAt c d.pc st 0)

/-! ## Row closes (R89, R97, R100, R104) -/

/-- Binary32 of a special, by R40. -/
def specialFp : AV → Nat
  | .pinf => 0x7f7fffff
  | .ninf => 0xff7fffff
  | _ => 0

/-- The log-sum of a row at close: LSE_Q, LSE_F, S_L, BOUND_EXCEEDED. -/
def RowCtx.lse (x : RowCtx) : Nat × Nat × Nat × Bool :=
  let r := x.segResult
  let n := x.segs.length + 1
  if x.sawNas then (accCode 32 .nas, 0, n, x.bound || r.2)
  else if x.sawPinf then (accCode 32 .pinf, specialFp .pinf, n, x.bound || r.2)
  else if n = 1 then
    match r.1 with
    | some t => (unsignedBits 32 t, fp32OfDyadic t (-16), n, x.bound || r.2)
    | none => (accCode 32 .ninf, specialFp .ninf, n, x.bound || r.2)
  else
    match (x.segs ++ [r.1.map (fun t => fp32OfDyadic t (-16))]).filterMap id with
    | [] => (accCode 32 .ninf, specialFp .ninf, n, x.bound || r.2)
    | f :: fs =>
      let l := fs.foldl logAddFp f
      let d := fp32Dyadic l
      let q := truncScale d.1 (d.2 + 16)
      if q816Max < q then (unsignedBits 32 q816Max, l, n, true) else (unsignedBits 32 q, l, n, x.bound || r.2)

/-- MEAN and VAR (R100), and whether a sum was special. MEAN maps SUMX and VAR maps SUMSQ: where only SUMSQ is special, MEAN stays
SUMX / n. DESIGN CHOICE, log 63. -/
def RowCtx.moments (x : RowCtx) : Nat × Nat × Bool :=
  if x.count = 0 then (0, 0, false)
  else
    let tbp := x.tbp.getD 0
    let n : Int := x.count
    let fn := fp32OfDyadic n 0
    match x.sumx, x.sumsq with
    | .fin sx, .fin sq =>
      (fp32Scale (fp32Div (fp32OfDyadic sx 0) fn) tbp,
        fp32Scale (fp32Div (fp32OfDyadic (n * sq - sx * sx) 0) (fp32OfDyadic (n * n) 0)) (2 * tbp), false)
    | .fin sx, sq => (fp32Scale (fp32Div (fp32OfDyadic sx 0) fn) tbp, specialFp sq, true)
    | sx, .fin _ => (specialFp sx, specialFp .pinf, true)
    | sx, sq => (specialFp sx, specialFp sq, true)

/-- The row record (R104). -/
def rowRecord (e : AepiCfg) (x : RowCtx) : List Byte :=
  let l := x.lse
  let m := x.moments
  let nonfin := x.special || (e.on 4 && m.2.2)
  let flags := nonfin.toNat + 2 * (e.on 2 && l.2.2.2).toNat + 4 * (decide (0 < x.rebases)).toNat + 8 * x.nasSeen.toNat
  leBytes 4 (if e.on 1 then accCode 32 x.max else 0) ++ leBytes 4 (if e.on 2 then l.1 else 0)
    ++ leBytes 4 (if e.on 2 then l.2.1 else 0) ++ leBytes 4 flags
    ++ leBytes 8 (if e.on 3 then accCode 64 x.sumx else 0) ++ leBytes 8 (if e.on 3 then accCode 64 x.sumsq else 0)
    ++ leBytes 4 (if e.on 4 then m.1 else 0) ++ leBytes 4 (if e.on 4 then m.2.1 else 0)
    ++ leBytes 4 (if e.on 3 then x.count else 0) ++ leBytes 2 (if e.on 2 then l.2.2.1 else 0) ++ List.replicate 18 0

/-- The value a top-k record reports (R102, R103). -/
def topReport (e : AepiCfg) (v : AV) (score : Bool) : Nat :=
  match v with
  | .fin q => if e.score && !score then unsignedBits 32 (Int.tdiv (q + e.kref) 2) else unsignedBits 32 q
  | x => accCode 32 x

/-- The top-k record: `k` ranks, unfilled ones last. -/
def topRecord (e : AepiCfg) (x : RowCtx) : List Byte :=
  (List.range e.k).flatMap (fun i =>
    match x.top[i]? with
    | some (v, sc, idx) => leBytes 4 (topReport e v sc) ++ leBytes 4 idx
    | none => leBytes 4 0x80000001 ++ leBytes 4 0xFFFFFFFF)

/-- What a row close leaves behind: the context freed, the row counted and reported. -/
def closeCtx (c : Nat) (r : RowClose) (x : RowCtx) (k : CoreState) : CoreState :=
  let bound := r.aepi.on 2 && x.lse.2.2.2
  let nonfin := x.special || (r.aepi.on 4 && x.moments.2.2)
  let k := { (k.setCtx r.ctx none) with closing := k.closing.tail }
  if r.inBounds then
    let k := if bound then k.bump c CORE_EPI_BOUND 1 else k
    { k with report := { k.report with bound := k.report.bound || bound, nonfinite := k.report.nonfinite || nonfin } }
  else k

/-- ROW_CLOSE: the oldest close writes its records to PM and frees its context. -/
def execRowClose (c : Nat) (s : State) : Out :=
  s.inCore c <|
  let k := s.core c
  match k.closing with
  | [] => .next s
  | r :: rest =>
    match k.ctx r.ctx with
    | none => .next (s.setCore c { k with closing := rest })
    | some x =>
      if !r.inBounds then .next (s.setCore c (closeCtx c r x k))
      else
        let w1 := s.coreWrite c 2 .pm (64 * r.aepi.statbase + 64 * r.ctx) (rowRecord r.aepi x) false
        match w1 with
        | .wait t => .next t
        | .fail st t => .next ((t.setCore c { t.core c with closing := rest }).tileFaultAt c r.pc st 0)
        | .ok _ t =>
          let w2 := if r.aepi.on 5 then
              t.coreWrite c 2 .pm (64 * r.aepi.tkbase + 8 * r.aepi.k * r.ctx) (topRecord r.aepi x) false
            else .ok () t
          match w2 with
          | .wait u => .next u
          | .fail st u => .next ((u.setCore c { u.core c with closing := rest }).tileFaultAt c r.pc st 0)
          | .ok _ u => .next (u.modCore c (closeCtx c r x))

end Sys2Proof.Machine
end

