-- ==== Sys2Proof/Machine/Sync.lean ====
section
/-!
DEFINITION. The synchronisation and control instructions: WAITF, WAITC, CLAIM, BARRIER, SIGNAL, LOOP, BR, END; the return
of a ticket; and the three timeouts (R173, R191 to R193, R226 to R233, R253 to R256).
-/

namespace Sys2Proof.Machine

/-! ## WAITF and WAITC -/

/-- What a WAITF does to a tag, as an access would (R192): a CONSUME where it waits for FULL and leaves EMPTY, a PRODUCE the
other way. -/
def waitfKind (want : Bool) (act : Nat) : TagKind :=
  if want ∧ act = 1 then .consume else if ¬ want ∧ act = 2 then .produce else .none

/-- The slots of a WAITF from slot `i` on, `n` of them: each waits for WANT, in its turn (R192), and takes ACT, ascending
(R226). -/
def State.waitfGo (c : Nat) (m : SpmMem) (want : Bool) (act : Nat) : Nat → Nat → State → State
  | 0, _, s => s.issue c []
  | n + 1, i, s =>
    let k := s.core c
    let kind := waitfKind want act
    if k.tagFull c m i != want || k.tagRival c m i kind (tagRank 3) [] then
      s.stallTag c ⟨c, 3, m, i, kind, 0⟩ (some CORE_SEQ_SYNCWAIT)
    else
      let k := if act = 0 then k else k.setTag c m i (act == 2)
      State.waitfGo c m want act n (i + 1) (s.setCore c { k with progress := k.progress + 1 })

/-- WAITF. -/
def execWaitf (c : Nat) (s : State) : Out :=
  s.inCore c <|
  withTile .waitf c s (fun w =>
    let slot := field w 18 10
    let cnt := field w 27 19
    let p := (s.core c).progress
    if 511 < slot + cnt then s.tileFault c stShapeInvalid 0
    else State.waitfGo c (if field w 6 6 = 0 then .am else .pm) (field w 7 7 == 1) (field w 9 8) (cnt + 1 - p) (slot + p) s)

/-- WAITC (R227). -/
def execWaitc (c : Nat) (s : State) : Out :=
  s.inCore c <|
  withTile .waitc c s (fun w =>
    let i := field w 11 6
    let v := (s.creg c (CORE_SPM_ARRIVE i)).toNat
    let thr := field w 63 32
    if v < thr then s.stall c waitArrival (some CORE_SEQ_SYNCWAIT)
    else
      let s := if field w 12 12 = 1 then s.setCreg c (CORE_SPM_ARRIVE i) (BitVec.ofNat 32 (v - thr)) else s
      s.issue c [])

/-- A doorbell rung. -/
def State.ring (s : State) (d : Doorbell) : State := { s with doorbells := s.doorbells ++ [d] }

/-! ## Waiting for writes (R189, R224, R229, R230, R233) -/

/-- Every earlier output of the core has been written and acknowledged. -/
def CoreState.settled (k : CoreState) : Bool :=
  k.drains.isEmpty && k.closing.isEmpty && k.spills.isEmpty && k.outst.isEmpty

/-- The gather buffer written out and every earlier write acknowledged, then `f`; otherwise a counted wait. -/
def State.afterWrites (s : State) (c : Nat) (f : State → State) : State :=
  if !(s.core c).settled then s.stall c waitAck (some CORE_SEQ_SYNCWAIT)
  else
    let r := s.gatherFlushAll c
    if r.1 = stOk then f r.2 else r.2.tileFault c r.1 0

/-! ## Work lists (R228, R253 to R256) -/

/-- Entry `l` of CORE_WL. -/
def CoreState.wl (c : Nat) (k : CoreState) (l : Nat) : Nat :=
  (k.reg c (CORE_WL (2 * l))).toNat + 2 ^ 32 * (k.reg c (CORE_WL (2 * l + 1))).toNat

/-- A work list by number. -/
def State.list (s : State) (l : Nat) : Option WorkList := Tab.get (fun _ => none) s.lists l

/-- Tickets of list `l`: its header's LENGTH; for an attached list, the LENGTH its definition named (log 20). -/
def State.listLength (s : State) (wl l : Nat) : Nat :=
  if bitsOf wl 62 62 = 1 then ((s.list l).map (·.length)).getD 0
  else leNat (Mem.read s.dmem (bitsOf wl 47 0 + 4) 4)

/-- The command of a core's dispatch changed. -/
def State.modCmd (s : State) (id : Nat) (f : Cmd → Cmd) : State :=
  { s with cmds := s.cmds.map (fun x => if x.id = id then f x else x) }

/-- The core's command has claimed from a list. -/
def State.noteClaim (s : State) (c l : Nat) : State :=
  match (s.core c).dispatch with
  | some id => s.modCmd id (fun x => { x with lists := if x.lists.contains l then x.lists else x.lists ++ [l] })
  | none => s

/-- CLAIM: one FETCH_ADD32 of 1 to the list's counter, local or remote; the instruction waits for its ticket. -/
def execClaim (c : Nat) (s : State) : Out :=
  s.inCores <|
  withTile .claim c s (fun w =>
    let k := s.core c
    let l := field w 13 6
    let wl := k.wl c l
    if k.claim.isSome then s.stall c waitClaim (some CORE_SEQ_SYNCWAIT)
    else if bitsOf wl 63 63 = 0 then s.tileFault c stBadField 0
    else
      let tr := field w 15 14
      let a := bitsOf wl 47 0
      let src : AtomFrom := .claim c l tr
      let t := (s.noteClaim c l).modCore c (fun k => { k.bump c CORE_MAP_CLAIM 1 with claim := some (l, tr) })
      if bitsOf wl 62 62 = 1 then
        let r := t.remoteSend ⟨s.logicalOf c, none, 5, 3, bitsOf wl 61 48, ⟨a / 64, 0, 0,
          atomBytesOf a AtomOp.fetchAdd32.code false false 1 0⟩, .atom src, s.now⟩
        if r.1 = stOk then r.2.stall c waitClaim (some CORE_SEQ_SYNCWAIT)
        else (r.2.modCore c (fun k => { k with claim := none })).tileFault c r.1 0
      else
        (t.sendAtom ⟨a, .fetchAdd32, false, false, 1, 0, src, s.now⟩).stall c waitClaim (some CORE_SEQ_SYNCWAIT))

/-- The first response to a claim of core `c`, and the other responses. -/
def takeClaim (c : Nat) : List AtomResp → Option (AtomResp × List AtomResp)
  | [] => none
  | r :: rs =>
    match r.src with
    | .claim c' _ _ =>
      if c' = c then some (r, rs) else (takeClaim c rs).map (fun p => (p.1, r :: p.2))
    | _ => (takeClaim c rs).map (fun p => (p.1, r :: p.2))

/-- CLAIM_TICKET: the returned ticket goes into its register; DONE says whether it is at or past the list's end; the
CLAIM has issued. A failed request faults the tile. -/
def execClaimTicket (c : Nat) (s : State) : Out :=
  s.inCores <|
  match takeClaim c s.atomResps, (s.core c).claim with
  | some (r, rest), some (l, tr) =>
    let k := s.core c
    let s := { s with atomResps := rest }
    let k := { k with claim := none }
    if r.status ≠ stOk then .next ((s.setCore c k).tileFault c r.status 0)
    else
      let t := r.old % 2 ^ 32
      let far := bitsOf (k.wl c l) 62 62 = 1 ∧ t < s.listLength (k.wl c l) l
      let k := { k.setReg c (CORE_SEQ_TR tr) (BitVec.ofNat 32 t) with
        doneC := decide (s.listLength (k.wl c l) l ≤ t), tickets := k.tickets ++ (if far then [(l, tr, t)] else []) }
      .next ((s.setCore c k).issue c [])
  | _, _ => .next s

/-! ## BARRIER (R229) -/

/-- The members of a core's barriers: the logical cores of its command. -/
def State.members (s : State) (c : Nat) : List Nat :=
  match (s.core c).dispatch with
  | some id => ((s.cmds.find? (fun x => x.id == id)).map (·.members)).getD [s.logicalOf c]
  | none => [s.logicalOf c]

/-- Key of barrier `b` of a core's command. -/
def CoreState.barrierKey (k : CoreState) (c b : Nat) : Nat :=
  match k.dispatch with
  | some id => id * 16 + b
  | none => 2 ^ 64 + c * 16 + b

/-- A core arrives at a barrier, once per generation; the last arrival completes the generation. -/
def State.barrierArrive (s : State) (c b : Nat) : State :=
  let key := (s.core c).barrierKey c b
  let g := Tab.get (fun _ => ((0 : Nat), ([] : List Nat))) s.barriers key
  let me := s.logicalOf c
  let arrived := if g.2.contains me then g.2 else g.2 ++ [me]
  let g' := if (s.members c).all (fun m => arrived.contains m) then (g.1 + 1, []) else (g.1, arrived)
  { s.modCore c (fun k => { k with barrier := some g.1 }) with
    barriers := Tab.set (fun _ => ((0 : Nat), ([] : List Nat))) s.barriers key g' }

/-- BARRIER. -/
def execBarrier (c : Nat) (s : State) : Out :=
  s.inCores <|
  withTile .barrier c s (fun w =>
    let b := field w 9 6
    let pass (t : State) (gen : Nat) : State :=
      if gen < (Tab.get (fun _ => ((0 : Nat), ([] : List Nat))) t.barriers ((t.core c).barrierKey c b)).1 then
        (t.modCore c (fun k => { k with barrier := none })).issue c []
      else t.stall c waitBarrier (some CORE_SEQ_SYNCWAIT)
    match (s.core c).barrier with
    | some gen => pass s gen
    | none => s.afterWrites c (fun t =>
        let t := t.barrierArrive c b
        pass t (((t.core c).barrier).getD 0)))

/-! ## SIGNAL (R230, R256) -/

/-- SIGNAL KIND 0. -/
def execSignalDoorbell (c : Nat) (s : State) : Out :=
  s.inCores <|
  withTile .signalDoorbell c s (fun w => s.afterWrites c (fun t =>
    (t.ring (.signal c (t.core c).dispatch (field w 63 32))).issue c []))

/-- SIGNAL KIND 1. -/
def execSignalArrive (c : Nat) (s : State) : Out :=
  s.inCores <|
  withTile .signalArrive c s (fun w => s.arriving c [] true (fun s => s.afterWrites c (fun t =>
    let i := field w 14 8
    match t.physOf i with
    | some p => if i < t.active then (t.arriveInc p (field w 20 15) (field w 63 32)).issue c []
        else t.tileFault c stStateRefused 0
    | none => t.tileFault c stStateRefused 0)))

/-- SIGNAL KIND 2: a TSET that names the list by its header and carries the ticket (log 19). It counts as outstanding
until its response; on an attached list the instruction itself waits for it (R254). -/
def execSignalTicket (c : Nat) (s : State) : Out :=
  s.inCores <|
  withTile .signalTicket c s (fun w =>
    let k := s.core c
    let wl := k.wl c (field w 28 21)
    let a := bitsOf wl 47 0
    let ticket := (k.reg c (CORE_SEQ_TR (field w 30 29))).toNat
    match k.ticketMsg with
    | some (id, _) =>
      if k.outst.any (fun o => o.id == id && !o.done) then s.stall c waitAck (some CORE_SEQ_SYNCWAIT)
      else (s.modCore c (fun k => { k with
        ticketMsg := none, tickets := k.tickets.filter (fun x => x.1 != field w 28 21 || x.2.2 != ticket) })).issue c []
    | none =>
      if bitsOf wl 63 63 = 0 then s.tileFault c stBadField 0
      else s.afterWrites c (fun t =>
        if bitsOf wl 62 62 = 1 then
          let o := t.outstAdd c true true false
          let r := o.2.remoteSend ⟨t.logicalOf c, none, 5, 3, bitsOf wl 61 48, ⟨a / 64, 0, 0,
            atomBytesOf a AtomOp.tset.code false false ticket 0⟩, .atom (.core c o.1), s.now⟩
          if r.1 = stOk then (r.2.modCore c (fun k => { k with ticketMsg := some (o.1, 0) })).stall c waitAck
            (some CORE_SEQ_SYNCWAIT)
          else (r.2.outstDone c o.1).tileFault c r.1 0
        else
          let o := t.outstAdd c true false false
          (o.2.sendAtom ⟨a, .tset, false, false, ticket, 0, .core c o.1, s.now⟩).issue c []))

/-! ## LOOP, BR, END (R231 to R233) -/

/-- LOOP. -/
def execLoopInstr (c : Nat) (s : State) : Out :=
  s.inCore c <|
  withTile .loop c s (fun w =>
    let k := s.core c
    let last := field w 23 11
    let n := if field w 6 6 = 1 then (k.reg c (CORE_BOUND (field w 10 7))).toNat else field w 63 32
    let outer : Bool := match k.loops with
      | [] => true
      | l :: _ => decide (last ≤ l.last)
    if 4 ≤ k.loops.length ∨ last ≤ k.pc ∨ !outer then s.tileFault c stBadField 0
    else
      let k := k.issued c
      if n = 0 then
        let p := nextPc last k.loops
        s.setCore c ({ k with loops := p.2 }.arrive c p.1)
      else s.setCore c ({ k with loops := ⟨k.pc + 1, last, n⟩ :: k.loops }.arrive c (k.pc + 1)))

/-- BR. A test of EXIT waits for the checkpoint of a pass in its slot (R120; log 12). -/
def execBr (c : Nat) (s : State) : Out :=
  s.inCore c <|
  withTile .br c s (fun w =>
    let k := s.core c
    let cond := field w 9 6
    if (cond = 1 ∨ cond = 2) ∧ k.passes.any (·.check.isSome) then s.stall c waitSlot none else
    let t := field w 22 10
    let taken := match cond with
      | 0 => true
      | 1 => k.exitC
      | 2 => !k.exitC
      | 3 => k.doneC
      | _ => !k.doneC
    let k := k.issued c
    let k := if cond = 1 ∨ cond = 2 then { k with exitC := false } else k
    if taken then
      s.setCore c ({ k with loops := k.loops.filter (fun l => decide (l.start ≤ t ∧ t ≤ l.last)) }.arrive c t)
    else s.setCore c (k.goOn c))

/-- The valid ways of the HAC, in block and way order. -/
def CoreState.validWays (k : CoreState) : List Nat := (List.range 128).filter (fun i => (k.way i).isSome)

/-- As many valid ways as the spill queue has room for leave the HAC, in order (R173); none where the lanes or the tag word of
one of them are uncorrectable (R80). -/
def CoreState.flushHac (c : Nat) (k : CoreState) : Option CoreState :=
  (k.validWays.take (4 - k.spills.length)).foldl
    (fun acc i => acc.bind (fun k => (k.readTags c (i / 4 * 4)).bind (fun k => k.spillWay c i))) (some k)

/-- The program of a core is no longer loaded. -/
def CoreState.unload (now : Nat) (k : CoreState) : CoreState :=
  { k.freshPlanes with
    loaded := false, seq := (if k.seq = SeqState.halting then SeqState.halting else SeqState.idle),
    stepping := false, wait := 0, waited := 0, tagWait := none, accHeld := none, idleSince := now }

/-- END: faults with a loop open or a chunk mask non-empty; waits until every closed window has been judged (R145); flushes the
HAC and the gather buffer; waits for every write; rings dispatch-complete and unloads the program. -/
def execEndProgram (c : Nat) (s : State) : Out :=
  s.inCores <|
  withTile .endProgram c s (fun _ =>
    let k := s.core c
    if !k.loops.isEmpty then s.tileFault c stBadField 0
    else if !k.drains.isEmpty || !k.closing.isEmpty || !k.rangeWindows.isEmpty then s.stall c waitAck (some CORE_SEQ_SYNCWAIT)
    else if (List.range 16).any (fun i => k.chunkMask i != 0) then s.tileFault c stBadField 0
    else if !k.validWays.isEmpty then
      match k.flushHac c with
      | some k => (s.setCore c k).stall c waitAck (some CORE_SEQ_SYNCWAIT)
      | none => ((s.modCore c (·.bumpFld c CORE_ACC_ECC 31 16 1)).tileFault c stUncorrectable 0).fenceRequest c 1
    else s.afterWrites c (fun t =>
      let k := (t.core c).issued c
      { t.setCore c (k.unload t.now) with completes := t.completes ++ [⟨c, k.dispatch, stOk, k.report, t.now⟩] }))

/-! ## Timeouts -/

/-- The instruction at the pc waits for `cause`, with its timeout running (R236): the cycles it has waited. -/
def CoreState.waitedFor (k : CoreState) (cause : Nat) : Option Nat :=
  if k.canIssue && k.seq != .halting && k.wait == cause then some k.waited else none

/-- The cycles that are missing to a limit pass, counted in a register (log 1). -/
def CoreState.lapse (c : Nat) (k : CoreState) (ctr n : Nat) : CoreState := k.bump c ctr (n - k.waited)

/-- WAITC_TIMEOUT (R227): the wait has lasted CORE_SPM_FE_TMO cycles; 0 sets no limit. -/
def execWaitcTimeout (c : Nat) (s : State) : Out :=
  s.inCore c <|
  let k := s.core c
  let lim := (k.reg c CORE_SPM_FE_TMO).toNat
  if (k.waitedFor waitArrival).isSome ∧ lim ≠ 0 then
    .next ((s.modCore c (·.lapse c CORE_SEQ_SYNCWAIT lim)).tileFault c stTimeout 0)
  else .next s

/-- BARRIER_TIMEOUT (R229): the BARRIER has waited CORE_SEQ_BAR_TMO cycles; 0 sets no limit. -/
def execBarrierTimeout (c : Nat) (s : State) : Out :=
  s.inCore c <|
  let k := s.core c
  let lim := (k.reg c CORE_SEQ_BAR_TMO).toNat
  let waits := (k.waitedFor waitBarrier).isSome || (k.waitedFor waitAck).isSome
  if waits && tileKind k.current == some .barrier && lim != 0 then
    .next ((s.modCore c (fun k => { k.lapse c CORE_SEQ_SYNCWAIT lim with barrier := none })).tileFault c stTimeout 0)
  else .next s

end Sys2Proof.Machine
end

