-- ==== Sys2Proof/Machine/Registers.lean ====
section
/-!
DEFINITION. Access to registers: reach, reserved bits, plain reads and writes (R6, R8, R451 to R455), the latches of
register pairs and of the error-log window (R76, R418), and what the registers that only show other state read.
-/

namespace Sys2Proof.Machine

/-! ## Agents and reach (R3, R453 to R455) -/

/-- Codes of the agents, in the writer order of R8. -/
def agentCode : Agent → Nat
  | .mp => 0
  | .cp n => 1 + n
  | .host => 6
  | .usb => 7
  | .bmc => 8

/-- The device state (R292). -/
abbrev devOff : Nat := 0
abbrev devBoot : Nat := 1
abbrev devReady : Nat := 2
abbrev devLoaded : Nat := 3
abbrev devRunning : Nat := 4
abbrev devDraining : Nat := 5
abbrev devMaint : Nat := 6
abbrev devFaulted : Nat := 7

/-- GLB_STATE.STATE. -/
def State.dev (s : State) : Nat := s.fld GLB_STATE 2 0

/-- The register blocks of BAR0 (R451). -/
inductive Block where
  | glb | cmdq | mbx | pwr | tel | ras | fab | mem | sec | core (c off : Nat) | outside
  deriving DecidableEq, Repr

/-- The block of a BAR0 address. -/
def blockOf (a : Nat) : Block :=
  if a < 0x100000 then .glb
  else if a < 0x200000 then .cmdq
  else if a < 0x300000 then .mbx
  else if a < 0x400000 then .pwr
  else if a < 0x500000 then .tel
  else if a < 0x600000 then .ras
  else if a < 0x700000 then .fab
  else if a < 0x800000 then .mem
  else if a < CORE_BASE then .sec
  else if a < CORE_BASE + 72 * 0x100000 then .core ((a - CORE_BASE) / 0x100000) (a % 0x100000)
  else .outside

/-- The block lies on another die than the management die (R454). -/
def Block.remote : Block → Bool
  | .cmdq | .fab | .mem | .core _ _ => true
  | _ => false

/-- The BMC reads here (R453). -/
def bmcReads : Block → Bool
  | .glb | .pwr | .tel | .ras | .sec | .mbx => true
  | _ => false

/-- The BMC writes here (R453). -/
def bmcWrites (a : Nat) : Bool :=
  a == PWR_BUDGET || blockOf a == .tel || blockOf a == .mbx || decide (GLB_BMC_SQE 0 ≤ a ∧ a ≤ GLB_BMC_STAT)

/-- The agent's path to BAR0 is open: nothing answers in OFF, and the host comes over the PCIe link (R3, R292). -/
def State.pathOpen (s : State) (g : Agent) : Bool := s.dev != devOff && (g != .host || s.pcieUp)

/-- Where an access ends: nowhere, without counting (R454, R455); at no register (R451, R453); at a register. -/
inductive Way where
  | lost
  | unnamed
  | row (r : RegRow)

/-- Where a write ends. -/
def State.writeWay (s : State) (g : Agent) (a : Nat) : Way :=
  let b := blockOf a
  if !s.pathOpen g || (b.remote && decide (s.bootStep < 4)) then .lost
  else if g = .bmc ∧ ¬ bmcWrites a then .unnamed
  else match b with
    | .core c off =>
      if s.coreSt c ≠ 0 then .lost
      else match coreRow off with
        | some r => .row r
        | none => .unnamed
    | _ => match deviceRow a with
      | some r => .row r
      | none => .unnamed

/-- A write to no register, or to one that ignores it as reserved (R451, R6). -/
def State.rsvWrite (s : State) : State := s.violation 3 (logSource 3 0)

/-- A host protocol violation that names no queue (R419). -/
def State.hostViolation (s : State) : State := s.violation 4 (logSource 3 0)

/-- The frame of every register write: reach, reserved bits counted and taken as 0, then the register's own effect with
the bits that a write reaches. -/
def State.regWrite (s : State) (g : Agent) (a : Nat) (v : W32) (f : W32 → State → State) : State :=
  match s.writeWay g a with
  | .lost => s
  | .unnamed => s.rsvWrite
  | .row r =>
    let s := if v &&& r.rsv ≠ 0 then s.rsvWrite else s
    f (v &&& r.wmask) s

/-- A stored register anywhere. -/
def State.stored (s : State) (a : Nat) : W32 :=
  match blockOf a with
  | .core c off => s.creg c off
  | _ => s.reg a

/-- A stored register anywhere written. -/
def State.store (s : State) (a : Nat) (v : W32) : State :=
  match blockOf a with
  | .core c off => s.setCreg c off v
  | _ => s.setReg a v

/-- The row that names an address. -/
def regRow (a : Nat) : Option RegRow :=
  match blockOf a with
  | .core _ off => coreRow off
  | _ => deviceRow a

/-- The effect of a write on a register that has no other than its access code's (R6). -/
def State.plainWrite (a : Nat) (v : W32) (s : State) : State :=
  match regRow a with
  | none => s
  | some r =>
    match r.acc with
    | .rw => s.store a ((s.stored a &&& ~~~ r.wmask) ||| v)
    | .w1c => s.store a (s.stored a &&& ~~~ v)
    | .w1s => s.store a (s.stored a ||| v)
    | _ => s

/-! ## What registers show -/

/-- Codes of the sequencer states (CORE_SEQ_STAT). -/
def SeqState.code : SeqState → Nat
  | .idle => 0
  | .running => 1
  | .halting => 2
  | .debug => 3

/-- The 8-byte words of the belay set, drains in ADRAIN order, rows packed as accumulator codes (log 8). -/
def CoreState.belayWords (k : CoreState) : List W64 :=
  k.drains.flatMap (fun d => d.rows.flatMap (fun r =>
    let w := if r.acc16 then 16 else 32
    let per := 64 / w
    (List.range (ceilDiv r.vals.length per)).map (fun i =>
      (List.range per).foldl
        (fun acc j => acc ||| (BitVec.ofNat 64 (match r.vals[per * i + j]? with | some v => accCode w v | none => 0)) <<< (w * j))
        (0 : W64))))

/-- The flipped bits of the same words. -/
def CoreState.belayErrs (k : CoreState) : List W64 :=
  k.drains.flatMap (fun d => d.rows.flatMap (fun r =>
    (List.range (ceilDiv r.vals.length (if r.acc16 then 4 else 2))).map (fun i => Tab.get noErr r.errs i)))

/-- An 8-byte word of ACM, or of the belay set, is uncorrectable (R80). -/
def CoreState.accBad (k : CoreState) (belay : Bool) (w : Nat) : Bool :=
  let e := if belay then k.belayErrs.getD (Config.belayWord w) 0 else Tab.get noErr k.acmErr w
  e != 0 && !correctable e

/-- A debug read of an 8-byte word of ACM or of the belay set: 0 where it is uncorrectable (R80, R109). -/
def CoreState.debugWord (k : CoreState) (belay : Bool) (w : Nat) : W64 :=
  if k.accBad belay w then 0
  else if belay then (if 8191 < w then 0 else k.belayWords.getD (Config.belayWord w) 0)
  else (k.acmWord (w / 1024) (2 * w % 2048 + 1)).setWidth 64 <<< 32 ||| (k.acmWord (w / 1024) (2 * w % 2048)).setWidth 64

/-- The word that the debug window addresses: 0 unless the core is in DEBUG with EN set (R109). -/
def CoreState.debugWindow (c : Nat) (k : CoreState) : W64 :=
  if k.seq = .debug ∧ (k.reg c CORE_ACC_DBG_CTRL).getLsbD 0 then
    k.debugWord ((k.reg c CORE_ACC_DBG_ADDR).getLsbD 16) (k.fld c CORE_ACC_DBG_ADDR 14 0)
  else 0

/-- A mask of 16 bits. -/
def mask16 (f : Nat → Bool) : W32 := BitVec.ofNat 32 ((List.range 16).foldl (fun n i => n + (f i).toNat * 2 ^ i) 0)

/-- What an offset of CORE reads in a core in service: stored, or computed from the state it shows. -/
def CoreState.live (c : Nat) (k : CoreState) (off : Nat) : W32 :=
  if off = CORE_SEQ_CTRL then 0
  else if off = CORE_SEQ_STAT then BitVec.ofNat 32 (k.nextIssue * 2 ^ 16 + k.wait % 16 * 2 ^ 8 + k.seq.code)
  else if off = CORE_SEQ_FLAGS then BitVec.ofNat 32 (k.loops.length * 4 + k.doneC.toNat * 2 + k.exitC.toNat)
  else if CORE_SEQ_AG 0 ≤ off ∧ off ≤ CORE_SEQ_AG 7 then
    BitVec.ofNat 32 (unsignedBits 32 (agValue c k (k.ag ((off - CORE_SEQ_AG 0) / 4))))
  else if off = CORE_ACC_BELAY then
    BitVec.ofNat 32 (min 65535 (k.belayHigh / 8) * 2 ^ 16 + min 8191 (k.belayUsed / 8))
  else if off = CORE_EPI_CTXOPEN then mask16 (fun i => (k.ctx i).isSome)
  else if off = CORE_ACC_DBG_DATA_LO then (k.debugWindow c).setWidth 32
  else if off = CORE_ACC_DBG_DATA_HI then (k.debugWindow c >>> 32).setWidth 32
  else if off = CORE_RASP_PEND then mask16 (fun i => k.chunkMask i != 0)
  else if off = CORE_SP_HAC_STAT then
    setField (setField (k.reg c off) 31 31 (!k.spills.isEmpty).toNat) 7 0 k.validWays.length
  else if off = CORE_SPM_MODE then setField (k.reg c off) 8 8 (k.modePend.isSome || k.wheelPend.isSome).toNat
  else if off = CORE_SPM_REPAIR_PEND then BitVec.ofNat 32 k.repairs.length
  else if CORE_IMEM 0 ≤ off ∧ off < CORE_WL 0 then
    let w := k.imemAt ((off - CORE_IMEM 0) / 8)
    if off % 8 = 0 then w.setWidth 32 else (w >>> 32).setWidth 32
  else k.reg c off

/-- The LOADED pages of a core, by key. -/
def CoreState.loadedPages (k : CoreState) : List Nat := (k.pages.filter (fun e => e.2.st == .loaded)).map (·.1)

/-- The oldest time at which any LOADED page was last scrubbed. -/
def CoreState.oldestScrub (now : Nat) (k : CoreState) : Nat :=
  k.loadedPages.foldl (fun m p => min m (Tab.get (fun _ => 0) k.scrubAt p)) now

/-- What an offset of CORE[c] reads (R455); the oldest scrub in units of 100 µs (R74). -/
def State.coreLive (s : State) (c off : Nat) : W32 :=
  let shown := off = CORE_ID ∨ off = CORE_CLK ∨ off = CORE_SEQ_FAULT ∨ off = CORE_ARR_FAULT_PAGE
  if s.coreSt c = 2 then (if shown then s.creg c off else 0)
  else if s.coreSt c = 1 then (if off = CORE_ID then s.creg c off else coreReset c off)
  else if off = CORE_ARR_SCRUB_AGE then
    BitVec.ofNat 32 (min 65535 ((s.now - (s.core c).oldestScrub s.now) / 120000))
  else (s.core c).live c off

/-- The 32 bytes of a record (R416). -/
def LogRec.bytes (r : LogRec) : List Byte :=
  leBytes 8 r.time ++ leBytes 4 r.seq ++ leBytes 1 r.event ++ leBytes 1 r.status ++ leBytes 2 r.source
    ++ leBytes 2 r.count ++ leBytes 2 0 ++ leBytes 4 r.last ++ leBytes 8 r.info.toNat

/-- Word `w` of a record. -/
def LogRec.word (r : LogRec) (w : Nat) : W32 := BitVec.ofNat 32 (leNat ((r.bytes.drop (4 * w)).take 4))

/-- Retrains of a port in the last 1 s. -/
def State.recentRetrains (s : State) (p : Nat) : Nat :=
  ((Tab.get (fun _ => PortState.reset) s.ports p).retrains.filter (fun t => decide (s.now < t + 1000 * msNclk))).length

/-- What a BAR0 address reads at this moment. -/
def State.live (s : State) (a : Nat) : W32 :=
  match blockOf a with
  | .core c off => s.coreLive c off
  | .outside => 0
  | _ =>
    if RAS_LOG 0 ≤ a ∧ a < RAS_LOG 0 + 0x20000 then (s.logAt ((a - RAS_LOG 0) / 32)).word ((a - RAS_LOG 0) % 32 / 4)
    else if GLB_BMC_CQE 0 ≤ a ∧ a ≤ GLB_BMC_CQE 3 then
      BitVec.ofNat 32 (leNat (((s.bmcCq.headD []).drop (a - GLB_BMC_CQE 0)).take 4))
    else if a = GLB_BMC_STAT then setField (setField (s.reg a) 20 16 s.bmcSq.length) 12 8 s.bmcCq.length
    else if PORT_RETRAIN 0 ≤ a ∧ a ≤ PORT_RETRAIN 31 ∧ (a - PORT_RETRAIN 0) % 0x80 = 0 then
      setField (s.reg a) 7 0 (min 255 (s.recentRetrains ((a - PORT_RETRAIN 0) / 0x80)))
    else match deviceRow a with
      | some r => if r.acc = .wo then 0 else s.reg a
      | none => 0

/-- The agent reaches the address for reading; otherwise it reads 0 (R451, R453, R454). -/
def State.reads (s : State) (g : Agent) (a : Nat) : Bool :=
  s.pathOpen g && !((blockOf a).remote && decide (s.bootStep < 4)) && (g != .bmc || bmcReads (blockOf a))
    && (regRow a).isSome

/-- The low halves of register pairs (R76), by BAR0 address or by offset in CORE. -/
def isLow (a : Nat) : Bool :=
  match blockOf a with
  | .core _ off => [CORE_SEQ_ISSUE_LO, CORE_ARR_PASS_LO, CORE_ARR_CYC_LO, CORE_ACC_DBG_DATA_LO, CORE_SP_HAC_HOME_LO,
      CORE_MAP_LDG_LO, CORE_MAP_TIER_LO].contains off
  | .glb => a == GLB_SERIAL_LO
  | .cmdq => decide (0x101000 ≤ a ∧ a < 0x102000) && (a % 0x40 == 0x10 || a % 0x40 == 0x18)
  | .tel => decide (0x401000 ≤ a ∧ a < 0x402000) && a % 0x80 == 0x0c
  | .ras => decide (RAS_VIOL_LO 0 ≤ a ∧ a < RAS_VIOL_LO 16) && a % 8 == 0
  | .fab => decide (0x601000 ≤ a ∧ a < 0x602000) && (a % 0x80 == 0x08 || a % 0x80 == 0x30 || a % 0x80 == 0x38)
  | .mem => a == MEM_ATOM_OPS_LO
  | _ => false

/-- Key of an agent's latch of a pair. -/
def latchKey (g : Agent) (lo : Nat) : Nat := agentCode g * 2 ^ 32 + lo

/-- A latch written. -/
def State.setLatch (s : State) (g : Agent) (lo : Nat) (v : Option W32) : State :=
  { s with latches := Tab.set (fun _ => none) s.latches (latchKey g lo) v }

/-- The value a read returns, kept as the agent's last answer. -/
def State.answer (s : State) (g : Agent) (v : W32) : State :=
  { s with readData := Tab.set (fun _ => 0) s.readData (agentCode g) v }

/-- Bits that a read clears (RC). -/
def rcMask (a : Nat) : W32 :=
  if a = FAB_TAGS then 0xFFFF0000#32
  else match regRow a with
    | some r => if r.acc = .rc then 0xFFFFFFFF#32 else 0
    | none => 0

/-- A debug read of an uncorrectable word through the window counts (R80). -/
def State.debugCount (s : State) (a : Nat) : State :=
  match blockOf a with
  | .core c off =>
    let k := s.core c
    if off = CORE_ACC_DBG_DATA_LO ∧ k.seq = .debug ∧ (k.reg c CORE_ACC_DBG_CTRL).getLsbD 0
        ∧ k.accBad ((k.reg c CORE_ACC_DBG_ADDR).getLsbD 16) (k.fld c CORE_ACC_DBG_ADDR 14 0) then
      s.modCore c (·.bumpFld c CORE_ACC_ECC 31 16 1)
    else s
  | _ => s

/-- A read of a register by an agent: the value, latched where R76 says so, and what the read clears. Windows and
mailbox locks have operations of their own. -/
def State.plainRead (s : State) (g : Agent) (a : Nat) : W32 × State :=
  if !s.reads g a then (0, s)
  else if isLow a then
    let s := s.debugCount a
    (s.live a, s.setLatch g a (some (s.live (a + 4))))
  else if isLow (a - 4) then
    match Tab.get (fun _ => none) s.latches (latchKey g (a - 4)) with
    | some v => (v, s.setLatch g (a - 4) none)
    | none => (s.live a, s)
  else
    let v := s.live a
    match blockOf a with
    | .core c _ => if s.coreSt c = 0 ∧ rcMask a ≠ 0 then (v, s.store a (s.stored a &&& ~~~ rcMask a)) else (v, s)
    | _ => if rcMask a ≠ 0 then (v, s.store a (s.stored a &&& ~~~ rcMask a)) else (v, s)

/-- LATCHED_PAIR_READ: a read of either half of a pair. -/
def execLatchedPairRead (a : Agent) (addr : Nat) (s : State) : Out :=
  s.inCores <|
  if isLow addr || isLow (addr - 4) then
    let r := s.plainRead a addr
    .next (r.2.answer a r.1)
  else .next s

/-! ## The error-log window (R418) -/

/-- A read of word `w` of RAS_LOG[i]: word 0 latches the record; words 1 to 7 return the latched one. -/
def State.logRead (s : State) (g : Agent) (i w : Nat) : W32 × State :=
  if !s.reads g (RAS_LOG (8 * i + w)) then (0, s)
  else if w = 0 then
    ((s.logAt i).word 0, { s with logLatch := Tab.set (fun _ => none) s.logLatch (agentCode g) (some (i, s.logAt i)) })
  else
    match Tab.get (fun _ => none) s.logLatch (agentCode g) with
    | some (j, r) => (if j = i then r.word w else (s.logAt i).word w, s)
    | none => ((s.logAt i).word w, s)

/-- RAS_LOG_READ. -/
def execRasLogRead (a : Agent) (i word : Nat) (s : State) : Out :=
  s.inRegs <|
  if i < 4096 ∧ word < 8 then
    let r := s.logRead a i word
    .next (r.2.answer a r.1)
  else .next s

end Sys2Proof.Machine
end

