-- ==== Sys2Proof/Machine/CoreEvents.lean ====
section
/-!
DEFINITION. What happens in a core besides its tile instructions: dispatch, the report of a fault, the scrub of weight
memory, and the writes of a core's control registers (R73 to R76, R109, R144, R169, R187, R195, R199, R211, R214, R236,
R237).
-/

namespace Sys2Proof.Machine

/-! ## Dispatch and fault -/

/-- A program is loaded from its doorbell until END retires or the tile faults (R211). -/
def CoreState.hasProgram (k : CoreState) : Bool := (k.doorbell.isSome || k.loaded) && k.fault.isNone

/-- CORE_DISPATCH: a core in service whose doorbell has rung and whose last program is done starts at ENTRY, at the next wheel
position 0 (R184, R211). The ticket of a reissue is preloaded (R257). -/
def execCoreDispatch (c : Nat) (s : State) : Out :=
  s.inCore c <|
  let k := s.core c
  match k.doorbell with
  | none => .next s
  | some (id, ticket) =>
    if k.loaded ∨ s.coreSt c ≠ 0 then .next s
    else
      let k := { k.freshPlanes with
        doorbell := none, loaded := true, dispatch := some id, seq := (if k.seq = SeqState.idle then SeqState.running else k.seq),
        stepping := false, wait := 0, waited := 0, progress := 0, inBuf := [], tagWait := none, checks := [],
        passNo := 0, cyc := (k.cyc + 7) / 8 * 8, loops := [], exitC := false, doneC := false,
        ags := [], arr := none, drn := none, fault := none, accHeld := none, report := DispatchReport.reset,
        rangeWindows := [], accSent := false, arrOpen := [], tickets := [], claim := none, ticketMsg := none, barrier := none }
      let k := (List.range 4).foldl (fun k j => k.setReg c (CORE_SEQ_TR j) 0) k
      let k := match ticket with
        | some (tr, t) => k.setReg c (CORE_SEQ_TR tr) (BitVec.ofNat 32 t)
        | none => k
      .next (s.setCore c (k.arrive c (k.fld c CORE_SEQ_ENTRY 12 0)))

/-- Every instruction that a core has issued has run to retirement, closings and drains included (R214). -/
def CoreState.retired (k : CoreState) : Bool :=
  k.passes.isEmpty && k.drains.isEmpty && k.closing.isEmpty && k.pageWrites.isEmpty

/-- TILE_FAULT_REPORT: once everything issued has retired and every write of the tile has been acknowledged (R20), the fault is
reported and recorded, with the page or the block that it is about (R53, R79), and the program is no longer loaded (R211,
R214). -/
def execTileFaultReport (c : Nat) (s : State) : Out :=
  s.inCores <|
  let k := s.core c
  match k.fault with
  | none => .next s
  | some f =>
    if !k.retired || !k.outst.isEmpty || !k.spills.isEmpty then .next s
    else
      let k' := (k.setReg c CORE_SEQ_FAULT (BitVec.ofNat 32 (2 ^ 31 + f.status % 256 * 2 ^ 16 + f.pc % 2 ^ 13))).unload s.now
      let s' := (s.setCore c { k' with fault := none, dispatch := none }).logEvent 0x0A f.status (logSource 0 c)
        (BitVec.ofNat 64 (f.pc % 2 ^ 13 + s.logicalOf c * 2 ^ 13 + f.info * 2 ^ 32))
      .next { s' with completes := s'.completes ++ [⟨c, k.dispatch, f.status, k.report, f.time⟩] }

/-! ## The scrub of weight memory -/

/-- NCLK cycles in 10 ms (log 1). -/
def tenMs : Nat := 12000000

/-- The sweep is over when every LOADED page has been scrubbed in it; the next begins. -/
def CoreState.sweepOn (now : Nat) (k : CoreState) : CoreState :=
  if k.loadedPages.all (fun p => decide (k.sweep ≤ Tab.get (fun _ => 0) k.scrubAt p)) then
    { k with sweep := now, agedSweep := false }
  else k

/-- A LOADED page scrubbed: row by row, corrected and written back; then its CRC-32 compared (R73, R75). -/
def State.scrubOne (s : State) (c mc page : Nat) : State :=
  let s := (List.range 256).foldl (fun s r =>
    let k := s.core c
    let e := k.wmFlips mc page r
    if (k.page mc page).st ≠ .loaded ∨ e = 0 then s
    else if isPow2 e.toNat then
      (s.wmCorrected c mc page r e).modCore c (fun k => k.setWmRow mc page r (k.wmRow mc page r))
    else s.pageFaulty c mc page 0) s
  let k := s.core c
  if (k.page mc page).st ≠ .loaded then s
  else if crc32 (k.pageBytes mc page) ≠ (k.page mc page).crc then s.pageFaulty c mc page 1
  else s.modCore c (fun k =>
    { k with scrubAt := Tab.set (fun _ => 0) k.scrubAt (pageKey mc page) s.now }.sweepOn s.now)

/-- SCRUB_PAGE: the engine reads a LOADED page while EN is 1 and the macro has its voltage; no pass senses it in these
cycles. -/
def execScrubPage (c mc page : Nat) (s : State) : Out :=
  s.inCore c <|
  let k := s.core c
  if (k.reg c CORE_ARR_SCRUB_CTRL).getLsbD 0 ∧ s.coreSt c = 0 ∧ mc < 16 ∧ page < 128 ∧ k.groupSt c (16 + mc) = 0
      ∧ (k.page mc page).st = .loaded then .next (s.scrubOne c mc page)
  else .next s

/-- SCRUB_AGE_EXCEEDED: the oldest scrub lies more than 10 ms back, the first time in this sweep: one record (R74). -/
def execScrubAgeExceeded (c : Nat) (s : State) : Out :=
  s.inCores <|
  let k := s.core c
  if k.loadedPages.isEmpty ∨ k.agedSweep then .next s
  else
    let old := k.oldestScrub s.now
    let s := s.reach (old + tenMs + 1200)
    .next ((s.setCore c { k with agedSweep := true }).logEvent 0x04 0 (logSource 0 c) (BitVec.ofNat 64 ((s.now - old) / 1200)))

/-! ## Control of the sequencer (R236) -/

/-- BAR0 address of an offset of CORE[c]. -/
def coreAddr (c off : Nat) : Nat := CORE_BASE + c * 0x100000 + off

/-- HALT. -/
def CoreState.halt (k : CoreState) : CoreState := if k.seq = .debug then k else { k with seq := .halting }

/-- The core leaves DEBUG: the debug window closes (R109). -/
def CoreState.leaveDebug (c : Nat) (k : CoreState) : CoreState := k.setReg c CORE_ACC_DBG_CTRL 0

/-- STEP, in DEBUG with a program loaded: an instruction held for its pair issues alone (R236). -/
def CoreState.step (c : Nat) (k : CoreState) : CoreState :=
  if k.seq = .debug ∧ k.loaded then
    { k.leaveDebug c with seq := .halting, stepping := true, accHeld := k.accHeld.map (fun h => (h.1, h.2.1, true)) }
  else k

/-- RUN, in DEBUG. -/
def CoreState.resume (c : Nat) (k : CoreState) : CoreState :=
  if k.seq = .debug then { k.leaveDebug c with seq := if k.loaded then .running else .idle } else k

/-- The effect of a write of CORE_SEQ_CTRL: HALT, then STEP, then RUN. -/
def CoreState.seqCtrl (c : Nat) (v : W32) (k : CoreState) : CoreState :=
  let k := if v.getLsbD 0 then k.halt else k
  let k := if v.getLsbD 1 then k.step c else k
  if v.getLsbD 2 then k.resume c else k

/-- A write of CORE_SEQ_CTRL by an agent. -/
def State.writeSeqCtrl (s : State) (a : Agent) (c : Nat) (v : W32) : State :=
  s.regWrite a (coreAddr c CORE_SEQ_CTRL) v (fun v s => s.modCore c (·.seqCtrl c v))

/-- CORE_SEQ_HALT. -/
def execCoreSeqHalt (a : Agent) (c : Nat) (s : State) : Out :=
  s.inCore c <|
  .next (s.writeSeqCtrl a c 1)

/-- CORE_SEQ_STEP. -/
def execCoreSeqStep (a : Agent) (c : Nat) (s : State) : Out :=
  s.inCore c <|
  .next (s.writeSeqCtrl a c 2)

/-- CORE_SEQ_RUN. -/
def execCoreSeqRun (a : Agent) (c : Nat) (s : State) : Out :=
  s.inCore c <|
  .next (s.writeSeqCtrl a c 4)

/-! ## The instruction memory (R211, R237) -/

/-- A half of entry `i` written: ignored while a program runs outside DEBUG; a low half is held for its agent; a high
half lands, with the low half that the same agent holds for the same entry. -/
def State.imemWrite (a : Agent) (c i : Nat) (high : Bool) (v : W32) (s : State) : State :=
  let k := s.core c
  if k.hasProgram ∧ k.seq ≠ .debug then s.hostViolation
  else
    let key := agentCode a
    let set (h : Option (Nat × W32)) (k : CoreState) : CoreState :=
      { k with imemHeld := Tab.set (fun _ => none) k.imemHeld key h }
    if !high then s.setCore c (set (some (i, v)) k)
    else
      let low : W64 := match Tab.get (fun _ => none) k.imemHeld key with
        | some (j, l) => if j = i then l.setWidth 64 else ((k.imemAt i).setWidth 32).setWidth 64
        | none => ((k.imemAt i).setWidth 32).setWidth 64
      let w : W64 := v.setWidth 64 <<< 32 ||| low
      s.setCore c (set none (k.setImem i w))

/-- A write of an instruction-memory half by an agent. -/
def State.writeImem (s : State) (a : Agent) (c i : Nat) (high : Bool) (v : W32) : State :=
  s.regWrite a (coreAddr c (CORE_IMEM (2 * i + high.toNat))) v (State.imemWrite a c i high)

/-- CORE_IMEM_WRITE. -/
def execCoreImemWrite (a : Agent) (c i : Nat) (high : Bool) (v : W32) (s : State) : Out :=
  s.inCore c <|
  if i < 8192 then .next (s.writeImem a c i high v) else .next s

/-- A read of an instruction-memory half: the low half latches the high half of its entry for the agent. -/
def State.imemRead (s : State) (a : Agent) (c i : Nat) (high : Bool) : W32 × State :=
  let addr := coreAddr c (CORE_IMEM (2 * i + high.toNat))
  let key := agentCode a * 128 + c
  let set (h : Option (Nat × W32)) : State := { s with imemLatch := Tab.set (fun _ => none) s.imemLatch key h }
  if !s.reads a addr then (0, s)
  else if !high then (s.live addr, set (some (i, s.live (addr + 4))))
  else
    match Tab.get (fun _ => none) s.imemLatch key with
    | some (j, h) => (if j = i then h else s.live addr, set none)
    | none => (s.live addr, s)

/-- CORE_IMEM_READ. -/
def execCoreImemRead (a : Agent) (c i : Nat) (high : Bool) (s : State) : Out :=
  s.inRegs <|
  if i < 8192 then
    let r := s.imemRead a c i high
    .next (r.2.answer a r.1)
  else .next s

/-! ## Other control registers of a core -/

/-- A write of a BOUND register: by the command processors always, by the others only in DEBUG (R211, R236). -/
def State.writeBound (s : State) (a : Agent) (c b : Nat) (v : W32) : State :=
  s.regWrite a (coreAddr c (CORE_BOUND b)) v (fun v s =>
    match a with
    | .cp _ | .mp => s.setCreg c (CORE_BOUND b) v
    | _ => if (s.core c).seq = .debug then s.setCreg c (CORE_BOUND b) v else s.hostViolation)

/-- CORE_BOUND_WRITE. -/
def execCoreBoundWrite (a : Agent) (c b : Nat) (v : W32) (s : State) : Out :=
  s.inCore c <|
  if b < 16 then .next (s.writeBound a c b v) else .next s

/-- CORE_ARR_SCRUB_CTRL_WRITE: EN; the state of the sweep is kept. -/
def execCoreArrScrubCtrlWrite (a : Agent) (c : Nat) (v : W32) (s : State) : Out :=
  s.inCore c <|
  .next (s.regWrite a (coreAddr c CORE_ARR_SCRUB_CTRL) v (fun v s => s.setCreg c CORE_ARR_SCRUB_CTRL v))

/-- A write of CORE_ACC_DBG_CTRL: in DEBUG only; otherwise ignored and a denied debug access (R109, R419). -/
def State.writeDbgCtrl (s : State) (a : Agent) (c : Nat) (v : W32) : State :=
  s.regWrite a (coreAddr c CORE_ACC_DBG_CTRL) v (fun v s =>
    if (s.core c).seq = .debug then s.setCreg c CORE_ACC_DBG_CTRL v else s.violation 15 (logSource 0 c))

/-- CORE_ACC_DBG_CTRL_WRITE. -/
def execCoreAccDbgCtrlWrite (a : Agent) (c : Nat) (v : W32) (s : State) : Out :=
  s.inCore c <|
  .next (s.writeDbgCtrl a c v)

/-- A mode and a wheel applied (R187): a change into OPEN starts the round robin over (R185). -/
def CoreState.applyMode (c : Nat) (m : Option W32) (w : Option W32) (k : CoreState) : CoreState :=
  let was := (k.reg c CORE_SPM_MODE).getLsbD 0
  let k := match m with
    | some v => k.setReg c CORE_SPM_MODE (v &&& 7#32)
    | none => k
  let k := match w with
    | some v => k.setReg c CORE_SPM_WHEEL v
    | none => k
  if was && !(k.reg c CORE_SPM_MODE).getLsbD 0 then { k with rr := [] } else k

/-- The core has neither a program loaded nor an access queued (R187). -/
def CoreState.quiet (k : CoreState) : Bool := !k.hasProgram && k.queued.isEmpty && k.meshWait.isEmpty

/-- A write of CORE_SPM_MODE: applied to a quiet core, where it also replaces a value that still waits; pending otherwise
(R187). -/
def State.writeSpmMode (s : State) (a : Agent) (c : Nat) (v : W32) : State :=
  s.regWrite a (coreAddr c CORE_SPM_MODE) v (fun v s => s.modCore c (fun k =>
    if k.quiet then { k.applyMode c (some v) none with modePend := none } else { k with modePend := some v }))

/-- CORE_SPM_MODE_WRITE. -/
def execCoreSpmModeWrite (a : Agent) (c : Nat) (v : W32) (s : State) : Out :=
  s.inCore c <|
  .next (s.writeSpmMode a c v)

/-- A write of CORE_SPM_WHEEL: a reserved owner code counts as a write to a reserved field. -/
def State.writeSpmWheel (s : State) (a : Agent) (c : Nat) (v : W32) : State :=
  s.regWrite a (coreAddr c CORE_SPM_WHEEL) v (fun v s =>
    let bad := (List.range 8).any (fun i => wheelOwner v i == 5 || wheelOwner v i == 6)
    let s := if bad then s.rsvWrite else s
    s.modCore c (fun k => if k.quiet then { k.applyMode c none (some v) with wheelPend := none } else { k with wheelPend := some v }))

/-- CORE_SPM_WHEEL_WRITE. -/
def execCoreSpmWheelWrite (a : Agent) (c : Nat) (v : W32) (s : State) : Out :=
  s.inCore c <|
  .next (s.writeSpmWheel a c v)

/-- SPM_MODE_APPLY: the pending values are applied once the core is quiet. -/
def execSpmModeApply (c : Nat) (s : State) : Out :=
  s.inCore c <|
  let k := s.core c
  if k.quiet ∧ (k.modePend.isSome ∨ k.wheelPend.isSome) then
    let k' := k.applyMode c k.modePend k.wheelPend
    .next (s.setCore c { k' with modePend := none, wheelPend := none })
  else .next s

/-! ## Power requests of bank groups (R199, R201) -/

/-- A group in FINE interleave. -/
def CoreState.fineGroup (c : Nat) (k : CoreState) (g : Nat) : Bool :=
  (decide (g < 8) && !k.grouped c .am) || (decide (8 ≤ g ∧ g < 16) && !k.grouped c .pm)

/-- The pages of a macro EMPTY. -/
def CoreState.emptyMacro (k : CoreState) (mc : Nat) : CoreState :=
  { k with pages := k.pages.filter (fun e => decide (e.1 / 128 ≠ mc)),
           bad := k.bad.filter (fun b => !(List.range 128).any (fun p => b == .page (pageKey mc p))), wm := k.wm.filter (fun e => decide (e.1 / 32768 ≠ mc)),
           wmErr := k.wmErr.filter (fun e => decide (e.1 / 32768 ≠ mc)) }

/-- A group without power: the pages of a macro become EMPTY. -/
def CoreState.powerOff (c : Nat) (k : CoreState) (g : Nat) : CoreState :=
  let k := k.setGroupSt c g 2
  if 16 ≤ g then k.emptyMacro (g - 16) else k

/-- A note of a waking group written. -/
def CoreState.setWakeNote (k : CoreState) (g n : Nat) : CoreState :=
  { k with wakeNote := Tab.set (fun _ => 0) k.wakeNote g n }

/-- A changed request acts on the present state of its group. -/
def CoreState.requestGroup (c : Nat) (k : CoreState) (g q : Nat) : CoreState :=
  match k.groupSt c g with
  | 0 => if q = 0 then k else k.setGroupSt c g 3
  | 1 => if q = 0 then k.setGroupSt c g 4 else if q = 2 then k.powerOff c g else k
  | 2 => if q = 0 then (k.setGroupSt c g 4).setWakeNote g 1 else k
  | 3 => if q = 0 then k.setGroupSt c g 0 else k
  | _ => let n := Tab.get (fun _ => 0) k.wakeNote g; k.setWakeNote g (n % 2 + 2)

/-- The request of one group written. -/
def State.writeGroupReq (s : State) (c g q : Nat) : State :=
  let k := s.core c
  if q = 3 then s.rsvWrite
  else if q ≠ 0 ∧ k.fineGroup c g then s.cbump c CORE_SPM_REFUSED 1
  else if k.groupReq c g = q then s
  else
    let r := if g < 16 then CORE_SPM_PWR_REQ0 else CORE_SPM_PWR_REQ1
    s.setCore c ((k.setFld c r (2 * (g % 16) + 1) (2 * (g % 16)) q).requestGroup c g q)

/-- A write of CORE_SPM_PWR_REQ0 or CORE_SPM_PWR_REQ1. -/
def State.writePwrReq (s : State) (a : Agent) (c : Nat) (high : Bool) (v : W32) : State :=
  s.regWrite a (coreAddr c (if high then CORE_SPM_PWR_REQ1 else CORE_SPM_PWR_REQ0)) v (fun v s =>
    (List.range 16).foldl (fun s j =>
      s.writeGroupReq c ((if high then 16 else 0) + j) (regField v (2 * j + 1) (2 * j))) s)

/-- CORE_SPM_PWR_REQ_WRITE. -/
def execCoreSpmPwrReqWrite (a : Agent) (c : Nat) (high : Bool) (v : W32) (s : State) : Out :=
  s.inCore c <|
  .next (s.writePwrReq a c high v)

/-- A write of an arrival counter; with an increment in the same cycle it keeps the written value plus 1 (R195). -/
def State.writeArrive (s : State) (a : Agent) (c i : Nat) (v : W32) (inc : Bool) : State :=
  s.regWrite a (coreAddr c (CORE_SPM_ARRIVE i)) v (fun v s =>
    let s := (s.setCreg c (CORE_SPM_ARRIVE i) v).modCore c (fun k => { k with arrLost := Tab.set (fun _ => 0) k.arrLost i 0 })
    if inc then s.arriveInc c i 1 else s)

/-- CORE_SPM_ARRIVE_WRITE. -/
def execCoreSpmArriveWrite (a : Agent) (c i : Nat) (v : W32) (inc : Bool) (s : State) : Out :=
  s.inCore c <|
  if i < 64 then .next (s.writeArrive a c i v inc) else .next s

/-- A write of CORE_RQ_LIMIT clears CORE_RQ_WIN (R144). -/
def State.writeRqLimit (s : State) (a : Agent) (c : Nat) (v : W32) : State :=
  s.regWrite a (coreAddr c CORE_RQ_LIMIT) v (fun v s => (s.setCreg c CORE_RQ_LIMIT v).setCreg c CORE_RQ_WIN 0)

/-- CORE_RQ_LIMIT_WRITE. -/
def execCoreRqLimitWrite (a : Agent) (c : Nat) (v : W32) (s : State) : Out :=
  s.inCore c <|
  .next (s.writeRqLimit a c v)

/-- A write of CORE_SP_HAC_CFG: ignored while a way is valid (R169); EN rising makes every way invalid, which it is. -/
def State.writeHacCfg (s : State) (a : Agent) (c : Nat) (v : W32) : State :=
  s.regWrite a (coreAddr c CORE_SP_HAC_CFG) v (fun v s => s.modCore c (fun k =>
    if k.validWays.isEmpty then { (k.setReg c CORE_SP_HAC_CFG v).setFld c CORE_SP_HAC_STAT 30 30 0 with ways := [], lru := [], tagErr := [] }
    else k.setFld c CORE_SP_HAC_STAT 30 30 1))

/-- CORE_SP_HAC_CFG_WRITE. -/
def execCoreSpHacCfgWrite (a : Agent) (c : Nat) (v : W32) (s : State) : Out :=
  s.inCore c <|
  .next (s.writeHacCfg a c v)

end Sys2Proof.Machine
end

