-- ==== Sys2Proof/Machine/Compute.lean ====
section
/-!
DEFINITION. The bit-plane array: PASS, PASS2:4 and STREAM, the retirement of a pass, its closing, and the checkpoint
test (R50 to R70, R115 to R120, R125 to R127, R162, R218).
-/

namespace Sys2Proof.Machine

/-! ## What SETP ARRAY fixes -/

/-- The sense functions (R57); AND-popcount of integers and of SC_UNI steps are told apart. -/
inductive Sense where
  | andInt
  | xnor
  | dual
  | andStream
  | xnorStream
  deriving DecidableEq, Repr

/-- The sense function of a format pairing that SETP has accepted (R35). -/
def ArrayCfg.sense (a : ArrayCfg) : Sense :=
  if a.wfmt = fmtScUni then .andStream
  else if a.wfmt = fmtScBip then .xnorStream
  else if a.wfmt = fmtBin ∧ a.afmt = fmtBin then .xnor
  else if a.wfmt = fmtBin ∨ a.wfmt = fmtTern then .dual
  else .andInt

/-- The formats are stochastic. -/
def ArrayCfg.stoch (a : ArrayCfg) : Bool := a.wfmt == fmtScUni || a.wfmt == fmtScBip

/-- Dense positions of a K-block. -/
def ArrayCfg.blockLen (a : ArrayCfg) : Nat := if a.s24 then 512 else 256

/-- Positions of a group, the whole block with no grouping (R59, R125). -/
def ArrayCfg.group (a : ArrayCfg) : Nat := if a.g = 0 then a.blockLen else 32 * 2 ^ (a.g - 1)

/-- Segments of a pass (R59, R69). -/
def ArrayCfg.segs (a : ArrayCfg) : Nat := a.blockLen / a.group

/-- Steps of a STREAM pass. -/
def ArrayCfg.chunk (a : ArrayCfg) : Nat := 16 * 2 ^ a.clog

/-- Pages of a weight block without the position pages (R52). -/
def ArrayCfg.planesW (a : ArrayCfg) : Nat :=
  match a.sense with
  | .andInt => a.wbits
  | .xnor => 1
  | .dual => 2
  | _ => a.chunk

/-- Pages of a page set (R52, R66). -/
def ArrayCfg.pages (a : ArrayCfg) : Nat := a.planesW + if a.s24 then 2 else 0

/-- Plane pairs of a pass, P (R62). -/
def ArrayCfg.pairs (a : ArrayCfg) : Nat :=
  match a.sense with
  | .andInt => a.wbits * a.abits
  | .xnor => 1
  | .dual => a.abits
  | _ => a.chunk

/-- Plane pairs that one zero plane, or one zero step, removes (R62). -/
def ArrayCfg.pairsPerPlane (a : ArrayCfg) : Nat := if a.sense = .andInt then a.wbits else 1

/-- Skipping applies (R28, R63). -/
def ArrayCfg.skips (a : ArrayCfg) : Bool :=
  a.skip && (match a.sense with | .xnor => false | .xnorStream => false | _ => true)

/-- ⌈S/U⌉ (R60). -/
def ArrayCfg.closeCycles (a : ArrayCfg) : Nat := ceilDiv a.segs (if a.acc16 then 2 else 1)

/-- Bytes of a plane vector (R54, R68). -/
def ArrayCfg.vec (a : ArrayCfg) : Nat := if a.s24 then 64 else 32

/-- Bytes of AM that a pass reads for its row: plane vectors, or packed source values. -/
def ArrayCfg.amBytes (a : ArrayCfg) : Nat := a.vec * a.abits

/-! ## The fields of a compute instruction -/

/-- The fields of PASS, PASS2:4 and STREAM. -/
structure PassWord where
  vag : Nat
  rag : Nat
  pag : Nat
  sag : Nat
  zag : Nat
  zb : Bool
  block : Nat
  ext : Nat
  row : Nat
  kv : Nat
  gen : Nat
  dim : Nat
  chk : Bool
  t0 : Nat
  deriving DecidableEq, Repr

/-- The fields of a PASS or PASS2:4 word. -/
def passWord (w : W64) : PassWord where
  vag := field w 9 6
  rag := field w 13 10
  pag := field w 17 14
  sag := field w 21 18
  zag := field w 25 22
  zb := field w 26 26 == 1
  block := field w 31 27
  ext := field w 36 32
  row := field w 44 37
  kv := field w 53 45 + 1
  gen := 0
  dim := 0
  chk := false
  t0 := 0

/-- The fields of a STREAM word. -/
def streamWord (w : W64) : PassWord where
  vag := field w 9 6
  rag := field w 13 10
  pag := field w 17 14
  sag := field w 21 18
  zag := 0
  zb := false
  block := field w 36 32
  ext := field w 41 37
  row := field w 49 42
  kv := field w 57 50 + 1
  gen := field w 25 22
  dim := field w 28 26
  chk := field w 29 29 == 1
  t0 := 16 * field w 63 58

/-- The address-generator references, in field order. -/
def PassWord.refs (p : PassWord) (stream : Bool) : List Nat :=
  [p.vag, p.rag, p.pag, p.sag] ++ if stream then [] else [p.zag]

/-! ## Checks at issue (R53, R77, R79, R210, R218) -/

/-- What the checks at issue make of a compute instruction. -/
inductive PassGate where
  | fault (st info : Nat)
  | skip
  | wait (cause : Nat) (ctr : Option Nat)
  | go
  deriving DecidableEq, Repr

/-- The pages of a page set and its scale page, ascending, each in every macro (R53). -/
def pageOrder (base n scale : Nat) : List (Nat × Nat) :=
  ((List.range 128).filter (fun p => decide (base ≤ p ∧ p < base + n) || p == scale)).flatMap
    (fun p => (List.range 16).map (fun m => (m, p)))

/-- The state of a page set: the fault of R53, with its first page. -/
def CoreState.pageGate (k : CoreState) (ps : List (Nat × Nat)) : Option (Nat × Nat) :=
  match ps.find? (fun e => (k.page e.1 e.2).st == .faulty || k.bad.contains (.page (pageKey e.1 e.2))) with
  | some e => some (stUncorrectable, pageInfo (pageKey e.1 e.2))
  | none =>
    match ps.find? (fun e => (k.page e.1 e.2).st == .empty) with
    | some e => some (stBadField, pageInfo (pageKey e.1 e.2))
    | none => none

/-- Every page of a STREAM's set carries the tag of its step (R115). -/
def CoreState.streamTagged (k : CoreState) (base n t0 : Nat) : Bool :=
  (List.range n).all (fun i => (List.range 16).all (fun m =>
    match (k.page m (base + i)).tag with
    | some t => t.step == t0 + i
    | none => false))

/-- A page of the set pairs with the activation stream as correlated (R117). -/
def CoreState.correlated (c : Nat) (k : CoreState) (base n gen dim : Nat) : Bool :=
  let ep := k.fld c (CORE_SG_STATE gen) 31 16
  (List.range n).any (fun i => (List.range 16).any (fun m =>
    match (k.page m (base + i)).tag with
    | some t => t.core == c && t.gen == gen && !(t.dim != dim && t.epoch == ep)
    | none => false))

/-- The checks of a compute instruction that need no read of AM. `op24` names PASS2:4, `stream` STREAM. A T0
that is no multiple of C names no fault: the pass runs (R115). DESIGN CHOICE, log 63. -/
def passGate (c : Nat) (k : CoreState) (op24 stream : Bool) (p : PassWord) : PassGate :=
  match k.arr with
  | none => .fault stBadField 0
  | some a =>
    let v := agRef c k p.vag
    let r := agRef c k p.rag
    let pg := agRef c k p.pag
    let sg := agRef c k p.sag
    let z := agRef c k p.zag
    let zb := p.zb && a.skip
    let base := pg.toNat
    let sag := sg.toNat
    let blk := p.block + p.row / rowsPerBlock a.acc16
    let tag := k.blockTag c blk
    let ps := pageOrder base a.pages (sag / 16)
    if !agIn v (2 ^ 20 - a.amBytes) (if stream then 1 else a.vec) || !agIn r (2 ^ 20 - 4 * a.segs) 1
      || !agIn pg 127 1 || !agIn sg 2047 1 || (zb && !agIn z 1023 1) then .fault stShapeInvalid 0
    else if extentPast p.block p.ext || k.inHac c p.block p.ext then .fault stShapeInvalid 0
    else if (p.ext + 1) * rowsPerBlock a.acc16 ≤ p.row then .fault stShapeInvalid 0
    else if sag % a.segs ≠ 0 ∨ 16 < sag % 16 + a.segs then .fault stShapeInvalid 0
    else if 128 < base + a.pages then .fault stShapeInvalid 0
    else if a.stoch != stream || (!stream && a.s24 != op24) then .fault stBadField 0
    else if !tag.1 || tag.2.1 != a.acc16 then .fault stBadField (blockInfo blk)
    else if zb && k.zeroMap.getLsbD z.toNat then .skip
    else if k.passes.any (fun q => !q.retired) || 2 ≤ k.passes.length then .wait waitSlot none
    else if k.drainOn p.block p.ext then .wait waitScoreboard (some CORE_ACC_SBSTALL)
    else if ps.any (fun e => k.pageWrites.any (fun q => q.mc == e.1 && q.page == e.2)) then
      .wait waitSlot (some CORE_ARR_STALL)
    else if (List.range 16).any (fun m => k.groupSt c (16 + m) == 1 || k.groupSt c (16 + m) == 4) then
      .wait waitSlot (some CORE_ARR_STALL)
    else
      match k.pageGate ps with
      | some e => .fault e.1 e.2
      | none =>
        if stream && !k.streamTagged base a.pages p.t0 then .fault stBadField (pageInfo (pageKey 0 base))
        else if k.bad.contains (.plane k.passNo) then .fault stUncorrectable 0
        else .go

/-! ## Reads of AM by the feeder (R126, R213) -/

/-- The address-generator references of an instruction at which the feeder does not stop. -/
def aheadRefs (w : W64) : TileKind → List Nat
  | .pass | .pass24 => (passWord w).refs false
  | .stream => (streamWord w).refs true
  | .ldwWeights | .ldwGen => [field w 19 16, field w 23 20, field w 40 37]
  | .ldwScales => [field w 19 16, field w 23 20, field w 40 37, field w 50 47]
  | .sto | .stoAtomic => [field w 17 14, field w 29 26]
  | .mcastLoad => [field w 18 15, field w 22 19, field w 34 31] ++ if field w 30 30 = 1 then [field w 50 47] else []
  | .adrainEpi | .adrainRaw | .adrainAtomic | .adrainList => [field w 54 51, field w 58 55, field w 62 59]
  | _ => []

/-- The feeder stops at an unissued instruction of this kind (R213). -/
def feederStops : TileKind → Bool
  | .setpArray | .setpAga | .setpAgb | .setpDrain | .bound | .br | .claim | .lda | .mcastCopy | .waitf | .waitc | .barrier
  | .signalDoorbell | .signalArrive | .signalTicket | .endProgram => true
  | _ => false

/-- What a compute instruction needs of AM: its plane vectors or source values, and its records. -/
def CoreState.feedNeeds (c : Nat) (k : CoreState) (a : ArrayCfg) (p : PassWord) : List (Nat × Nat) :=
  [((agRef c k p.vag).toNat, a.amBytes), ((agRef c k p.rag).toNat, 4 * a.segs)]

/-- The compute instructions that the feeder decodes ahead (R213): the number of each, and what it needs of AM. The first
argument bounds the instructions looked at, the second is how many compute instructions it may still go ahead. -/
def CoreState.feedAhead (c : Nat) (a : ArrayCfg) : Nat → Nat → CoreState → List (Nat × List (Nat × Nat))
  | 0, _, _ => []
  | n + 1, m, k =>
    let w := k.imemAt k.pc
    let on (k : CoreState) (loops : List LoopLevel) (pc : Nat) : CoreState := { k with loops := loops, pc := pc }
    match tileKind w with
    | none => []
    | some t =>
      let next := nextPc k.pc k.loops
      let k' := on (agSteps (aheadRefs w t) k) next.2 next.1
      if tileReserved w || feederStops t || m == 0 then []
      else match t with
        | .pass | .pass24 | .stream =>
          (k.passNo, k.feedNeeds c a (if t = .stream then streamWord w else passWord w)) ::
            CoreState.feedAhead c a n (m - 1) { k' with passNo := k'.passNo + 1 }
        | .loop =>
          let last := field w 23 11
          let count := if field w 6 6 = 1 then (k.reg c (CORE_BOUND (field w 10 7))).toNat else field w 63 32
          let past := nextPc last k.loops
          CoreState.feedAhead c a n m
            (if count = 0 then on k past.2 past.1 else on k (⟨k.pc + 1, last, count⟩ :: k.loops) (k.pc + 1))
        | _ => CoreState.feedAhead c a n m k'

/-- What the feeder may fetch: up to eight compute instructions ahead, over at most 64 instructions (log 64). -/
def CoreState.feeds (c : Nat) (k : CoreState) : List (Nat × List (Nat × Nat)) :=
  if k.loaded && k.fault.isNone then
    match k.arr with
    | some a => k.feedAhead c a 64 8
    | none => []
  else []

/-- The bytes that the plane buffer holds of a range for compute instruction `no`, where it holds them. -/
def CoreState.buffered (k : CoreState) (no off n : Nat) : List (Option Byte) :=
  (List.range n).map (fun i =>
    (k.planeBuf.find? (fun e => e.pass == no && decide (e.off ≤ off + i ∧ off + i < e.off + e.data.length))).map
      (fun e => e.data.getD (off + i - e.off) 0))

/-- The whole range is in the plane buffer for the next compute instruction. -/
def CoreState.feederHas (k : CoreState) (off n : Nat) : Option (List Byte) :=
  let b := k.buffered k.passNo off n
  if b.all (·.isSome) then some (b.map (·.getD 0)) else none

/-- A fetch of `n` bytes from `off` reads what a compute instruction decoded ahead needs and has not got. -/
def CoreState.feedWanted (c : Nat) (k : CoreState) (off n : Nat) : Bool :=
  (k.feeds c).any (fun f => f.2.any (fun r => decide (off < r.1 + r.2 ∧ r.1 < off + n)
    && (k.buffered f.1 r.1 r.2).any (·.isNone)))

/-- Fetched bytes enter the plane buffer for every compute instruction decoded ahead that needs them. -/
def CoreState.feed (c : Nat) (k : CoreState) (off : Nat) (bs : List Byte) : CoreState :=
  { k with planeBuf := k.planeBuf ++ (k.feeds c).flatMap (fun f => f.2.filterMap (fun r =>
      let lo := max off r.1
      let hi := min (off + bs.length) (r.1 + r.2)
      if lo < hi then some ⟨f.1, lo, (bs.drop (lo - off)).take (hi - lo)⟩ else none)) }

/-- A compute instruction is passed: its bytes leave the plane buffer. -/
def CoreState.fedOut (k : CoreState) : CoreState :=
  { k.fresh (.plane k.passNo) with planeBuf := k.planeBuf.filter (fun e => decide (k.passNo < e.pass)), passNo := k.passNo + 1 }

/-- Bit `r` of plane vector `j`. -/
def planeBit (a : ArrayCfg) (bs : List Byte) (j r : Nat) : Bool :=
  (bs.getD (a.vec * j + r / 8) 0).getLsbD (r % 8)

/-- An activation plane is nz in every valid row (R63). -/
def planeZero (a : ArrayCfg) (bs : List Byte) (kv j : Nat) : Bool :=
  (List.range kv).all (fun r => !planeBit a bs j r)

/-- The value of the activation at dense position `r`, of `A` planes (R26, R29). -/
def actValue (a : ArrayCfg) (bs : List Byte) (r : Nat) : Int :=
  let n := (List.range a.abits).foldl (fun acc j => acc + (planeBit a bs j r).toNat * 2 ^ j) 0
  if a.afmt = fmtBin then (if n = 1 then 1 else -1)
  else if a.afmt = fmtUint then n else signed a.abits n

/-- The stream bit of a source value at generator output `r` (R34, R115). -/
def streamBit (a : ArrayCfg) (bs : List Byte) (r row : Nat) : Bool :=
  decide (r < streamThreshold (a.afmt == fmtScBip) a.abits (packedAt bs a.abits row))

/-! ## Tallies (R57 to R59, R66 to R68, R115) -/

/-- The value of the weight at stored row `r` of a column, from the cells of its planes (R26, R29, R57). -/
def weightValue (a : ArrayCfg) (cells : List W32) (col : Nat) : Int :=
  let bit (i : Nat) : Nat := ((cells.getD i 0).getLsbD col).toNat
  match a.sense with
  | .andInt =>
    let n := (List.range a.wbits).foldl (fun acc i => acc + bit i * 2 ^ i) 0
    if a.wfmt = fmtUint then n else signed a.wbits n
  | .xnor => if bit 0 = 1 then 1 else -1
  | _ => (bit 0 : Int) - bit 1

/-- The dense position of stored row `r` of a column (R66, R68). -/
def densePos (a : ArrayCfg) (cells : List W32) (r col : Nat) : Nat :=
  if a.s24 then
    4 * (r / 2) + ((cells.getD a.planesW 0).getLsbD col).toNat + 2 * ((cells.getD (a.planesW + 1) 0).getLsbD col).toNat
  else r

/-- The tallies of one column over every segment, for integer, BIN and ternary passes. `cells` holds, for each stored
row, the row's cell words of every page of the set. -/
def columnTally (a : ArrayCfg) (cells : List (List W32)) (acts : List Int) (kv col : Nat) : List Int :=
  (cells.zip (List.range 256)).foldl
    (fun acc e =>
      let d := densePos a e.1 e.2 col
      if d < kv then acc.modify (d / a.group) (· + weightValue a e.1 col * acts.getD d 0) else acc)
    (List.replicate a.segs 0)

/-- The tallies of one column of a STREAM pass: `bits` holds each step's drive bits. -/
def columnStream (a : ArrayCfg) (cells : List (List W32)) (bits : List (List Bool)) (kv col : Nat) : List Int :=
  (cells.zip (List.range 256)).foldl
    (fun acc e =>
      if e.2 < kv then
        acc.modify (e.2 / a.group) (· + ((bits.zip e.1).map (fun x =>
          let b := x.1.getD e.2 false
          let w := x.2.getLsbD col
          if a.sense = .xnorStream then (if b = w then (1 : Int) else -1) else if b && w then 1 else 0)).sum)
      else acc)
    (List.replicate a.segs 0)

/-- The cells of a macro's page set: for each stored row, the words of its pages. -/
def CoreState.setCells (k : CoreState) (mc base n : Nat) : List (List W32) :=
  (List.range 256).map (fun r => (List.range n).map (fun i => k.wmCells mc (base + i) r))

/-- The tallies of all 512 columns, column-major. -/
def passTallies (a : ArrayCfg) (k : CoreState) (base kv : Nat) (bs : List Byte) (bits : List (List Bool)) : List Int :=
  let acts := (List.range kv).map (actValue a bs)
  (List.range 16).flatMap (fun mc =>
    let cells := k.setCells mc base a.pages
    (List.range 32).flatMap (fun col =>
      if a.stoch then columnStream a cells bits kv col else columnTally a cells acts kv col))

/-- The drive bits of each step of a STREAM pass. -/
def streamBits (c : Nat) (k : CoreState) (a : ArrayCfg) (p : PassWord) (bs : List Byte) : List (List Bool) :=
  (List.range a.chunk).map (fun i =>
    let r := sobolOut (k.fld c (CORE_SG_STATE p.gen) 15 0) p.dim (p.t0 + i)
    (List.range 256).map (streamBit a bs r))

/-- Zero planes, or zero steps, of a pass (R62, R63). -/
def zeroPlanes (a : ArrayCfg) (kv : Nat) (bs : List Byte) (bits : List (List Bool)) : Nat :=
  if !a.skips then 0
  else if a.stoch then (bits.filter (fun b => (b.take kv).all (!·))).length
  else ((List.range a.abits).filter (planeZero a bs kv)).length

/-- Planes, or steps, that the count of zero planes is taken over. -/
def ArrayCfg.steps (a : ArrayCfg) : Nat := if a.stoch then a.chunk else a.abits

/-- The array slot (R62, R64). R116 says that ⌈S/U⌉ never sets the slot of a stream; with skipped SC_UNI steps R62 lets it, and
R62 is followed. DESIGN CHOICE, log 63. -/
def slotCycles (a : ArrayCfg) (nz : Nat) : Nat :=
  if a.skips ∧ nz = a.steps then 1
  else max 1 (max (a.pairs - nz * a.pairsPerPlane) a.closeCycles)

/-- The prefix of a checkpoint that counts (R119): SC_BIP, and ℓ = L / 2^j a multiple of C. -/
def checkpointOf (a : ArrayCfg) (p : PassWord) : Option Nat :=
  let l := p.t0 + a.chunk
  if p.chk && a.wfmt == fmtScBip && decide (l < 2 ^ a.slog) && isPow2 l && decide (16 ≤ l) && l % a.chunk == 0
  then some l else none

/-- The counters of an issued pass: plane pairs skipped, zero rows, slots set by the segments (R62 to R64). -/
def countPass (c : Nat) (a : ArrayCfg) (nz : Nat) (k : CoreState) : CoreState :=
  let zrow := a.skips && nz == a.steps
  let k := k.bump c CORE_ARR_ZSKIP (nz * a.pairsPerPlane)
  let k := if zrow then k.bump c CORE_ARR_ZROW 1 else k
  if !zrow && decide (a.pairs - nz * a.pairsPerPlane < a.closeCycles) then k.bump c CORE_ARR_SEGBOUND 1 else k

/-- The scale containers of a pass's records. -/
def passRecords (a : ArrayCfg) (rec : List Byte) : List Nat :=
  (List.range a.segs).map (fun g => leNat ((rec.drop (4 * g + 2)).take 2))

/-- The pass issues: its tallies formed, its slot begun (R58, R62). -/
def State.passStart (s : State) (c : Nat) (a : ArrayCfg) (stream : Bool) (p : PassWord) (bs : List Byte)
    (scales : List Nat) : State :=
  let k := s.core c
  let base := (agRef c k p.pag).toNat
  let bits := if stream then streamBits c k a p bs else []
  let nz := zeroPlanes a p.kv bs bits
  let pr : PassRec :=
    { pc := k.curPc, base := p.block, ext := p.ext, row := p.row, segs := a.segs,
      tallies := passTallies a k base p.kv bs bits, sag := (agRef c k p.sag).toNat, acc16 := a.acc16,
      ascales := scales, slot := slotCycles a nz, closes := !(a.skips && nz == a.steps), firstPage := base,
      npages := a.pages, gen := if stream then some p.gen else none, check := if stream then checkpointOf a p else none,
      retired := false }
  let corr := stream && k.correlated c base a.pages p.gen p.dim
  let k := countPass c a nz k
  let k := k.fedOut
  let k := if corr then { k.bump c CORE_SG_CORR 1 with report := { k.report with corr := true } } else k
  let k := if p.kv < a.blockLen then
      { k with kEdges := k.kEdges ++ ((List.range (p.ext + 1)).map (p.block + ·)).filter (fun b => !k.kEdges.contains b) }
    else k
  let s := s.setCore c { k with passes := k.passes ++ [pr] }
  let s := if corr then s.violation 0 (logSource 0 c) else s
  s.issue c (p.refs stream)

/-- A group record in AM fails R43: the tile faults, and the error log has the record's address. -/
def State.recordInvalid (s : State) (c off : Nat) : State :=
  (s.logEvent 0x02 stMetadataInvalid (logSource 0 c)
    (BitVec.ofNat 64 (0x9000000000 + s.logicalOf c * 0x800000 + off))).tileFault c stMetadataInvalid 0

/-- A compute instruction at the pc: its checks, its wait for the plane buffer (R213), its issue. -/
def State.passIssue (s : State) (c : Nat) (op24 stream : Bool) (p : PassWord) : State :=
  let k := s.core c
  match passGate c k op24 stream p, k.arr with
  | .fault st info, _ => if st = stUncorrectable then (s.tileFault c st info).fenceRequest c 1 else s.tileFault c st info
  | .wait cause ctr, _ =>
    let gs := ((List.range 16).map (16 + ·)).filter (fun g => k.groupSt c g == 1)
    if gs.isEmpty then s.stall c cause ctr
    else (s.setCore c (gs.foldl (fun k g => k.setGroupSt c g 4) k)).stall c cause ctr
  | .skip, _ => (s.cbump c CORE_SP_BSKIP 1).modCore c (fun k => (agSteps (p.refs stream) k.fedOut).passOver c)
  | .go, none => s.tileFault c stBadField 0
  | .go, some a =>
    match k.feederHas (agRef c k p.rag).toNat (4 * a.segs), k.feederHas (agRef c k p.vag).toNat a.amBytes with
    | some rec, some bs =>
      let scales := passRecords a rec
      match scales.findIdx? (fun x => !scaleOk8 x) with
      | some i => s.recordInvalid c (agRef c k p.rag + 4 * i).toNat
      | none => s.passStart c a stream p bs scales
    | _, _ => s.stall c waitPlane none

/-- PASS. -/
def execPass (c : Nat) (s : State) : Out :=
  s.inCore c <|
  withTile .pass c s (fun w => s.passIssue c false false (passWord w))

/-- PASS2:4. -/
def execPass24 (c : Nat) (s : State) : Out :=
  s.inCore c <|
  withTile .pass24 c s (fun w => s.passIssue c true false (passWord w))

/-- STREAM. -/
def execStream (c : Nat) (s : State) : Out :=
  s.inCore c <|
  withTile .stream c s (fun w => s.passIssue c false true (streamWord w))

/-! ## Retirement, closing, checkpoints -/

/-- The oldest pass that has not retired, marked retired. -/
def retireFirst : List PassRec → List PassRec
  | [] => []
  | p :: ps => if p.retired then p :: retireFirst ps else { p with retired := true } :: ps

/-- The oldest pass in its slot retires (R60): counted, with its slot cycles. -/
def execPassRetire (c : Nat) (s : State) : Out :=
  s.inCore c <|
  let k := s.core c
  match k.passes.find? (fun p => !p.retired) with
  | none => .next s
  | some p =>
    let k := { k with passes := retireFirst k.passes }
    .next (s.setCore c ((k.bump64 c CORE_ARR_PASS_LO 1).bump64 c CORE_ARR_CYC_LO p.slot))

/-- The oldest retired pass closes into ACM. -/
def execPassClosing (c : Nat) (s : State) : Out :=
  s.inCore c <|
  .next (s.closeOldest c)

/-- An entry is settled (R120): special, or large enough once scaled to the whole stream. Above THR 2,147,483,646 the formula of
R120 is followed, and not the words of the register table. DESIGN CHOICE, log 63. -/
def entrySettled (slog l thr : Nat) : AV → Bool
  | .fin q => decide (thr ≤ q.natAbs * (2 ^ slog / l))
  | _ => true

/-- Every in-bounds entry of an extent is settled: the tile's first `rows` rows and `cols` columns (R90, R120). -/
def CoreState.extentSettled (c : Nat) (k : CoreState) (base ext rows cols slog l : Nat) : Bool :=
  (List.range (ext + 1)).all (fun j =>
    let acc16 := (k.blockTag c (base + j)).2.1
    let n := rowsPerBlock acc16
    (List.range n).all (fun r => decide (rows ≤ j * n + r) || (List.range (min cols 512)).all (fun col =>
      entrySettled slog l (k.fld c CORE_SG_EXIT_THR 30 0) (k.acmEntry acc16 (base + j) (r * 512 + col)))))

/-- A checkpoint is tested once its closings have landed (R120): when every in-bounds entry is settled, EXIT is set and
the shift is recorded for the blocks (R122). `rows` and `cols` are the tile's in-bounds rows and columns, which no
register holds: the command's own. DESIGN CHOICE, log 12. -/
def execCheckpointTest (c rows cols : Nat) (s : State) : Out :=
  s.inCore c <|
  let s := s.closeAll c
  let k := s.core c
  match k.checks, k.arr with
  | (base, ext, l) :: cs, some a =>
    let k := ({ k with checks := cs }.bump c CORE_ARR_STALL (ext + 1))
    if k.extentSettled c base ext rows cols a.slog l then
      .next (s.setCore c { k with
        exitC := true,
        exitTiles := k.exitTiles.filter (fun t => !extentsMeet base ext t.1 t.2) ++ [(base, ext)],
        exitShift := (List.range (8 * (ext + 1))).foldl
          (fun t j => Tab.set (fun _ => 0) t (8 * base + j) (a.slog - Nat.log2 l)) k.exitShift })
    else .next (s.setCore c k)
  | _, _ => .next s

end Sys2Proof.Machine
end

