-- ==== Sys2Proof/Machine/Movement.lean ====
section
/-!
DEFINITION. The movement instructions: LDW, LDA, STO and MCAST, the completion of a page write, and the
acknowledgement of a write (R30 to R33, R53, R65 to R67, R72, R114, R128 to R131, R153 to R162, R222 to R225, R247,
R248, R329).
-/

namespace Sys2Proof.Machine

/-! ## What a load reads -/

/-- A range of bytes that a load reads through a handle; `tk` is the tag field of its instruction. -/
structure LoadRange where
  h : Handle
  off : Nat
  n : Nat
  tk : Nat
  deriving DecidableEq, Repr

/-- The range is read under a tag. -/
def LoadRange.tagged (r : LoadRange) : Bool := r.h.spm.isSome && r.h.readKind r.tk != .none

/-- Key under which the bytes of a tagged range are held until the load issues. -/
def LoadRange.key (r : LoadRange) : Nat := (2 ^ 14 + r.h.mem) * 2 ^ 48 + r.h.base + r.off

/-- The tagged slots of a load, ascending, of AM and then of PM. -/
def loadSlots (rs : List LoadRange) : List (SpmMem × Nat) :=
  let ts := rs.filter (·.tagged)
  let of (m : SpmMem) : List (SpmMem × Nat) :=
    let mine := (ts.filter (fun r => r.h.spm == some m)).flatMap (fun r => slotsOf (r.h.base + r.off) r.n)
    ((List.range 512).filter (fun sl => mine.contains sl)).map (fun sl => (m, sl))
  if ts.isEmpty then [] else of .am ++ of .pm

/-- The part of a range that lies in a slot: offset in the handle, length. -/
def LoadRange.part (r : LoadRange) (sl : Nat) : Nat × Nat :=
  let lo := max (r.h.base + r.off) (2048 * sl)
  let hi := min (r.h.base + r.off + r.n) (2048 * sl + 2048)
  (lo - r.h.base, hi - lo)

/-- The bytes of the tagged ranges that lie in one slot, read and held. -/
def State.readSlot (s : State) (c : Nat) (m : SpmMem) (sl : Nat) (rs : List LoadRange) : Reach Unit :=
  rs.foldl (fun acc r =>
    match acc with
    | .ok _ t =>
      let p := r.part sl
      if !r.tagged || r.h.spm != some m || p.2 = 0 then acc
      else
        match t.coreRead c 1 m (r.h.base + p.1) p.2 with
        | .ok d u =>
          .ok () (u.modCore c (fun k =>
            { k with remoteIn := Mem.write k.remoteIn ((2 ^ 14 + r.h.mem) * 2 ^ 48 + r.h.base + p.1) d }))
        | .wait u => .wait u
        | .fail st u => .fail st u
    | a => a) (.ok () s)

/-- The slots of a load taken in order: each waits and changes on its own (R191). A slot that blocks leaves the earlier
ones done. -/
def State.takeSlots (c : Nat) (rs : List LoadRange) : List (SpmMem × Nat) → State → Reach Unit
  | [], s => .ok () s
  | (m, sl) :: rest, s =>
    let kind := ((rs.find? (fun r => r.tagged && r.h.spm == some m && (r.part sl).2 != 0)).map
      (fun r => r.h.readKind r.tk)).getD .none
    match s.tagHeld c 1 m kind [sl] with
    | some t => .wait (s.stallTag c t none)
    | none =>
      match s.readSlot c m sl rs with
      | .ok _ t =>
        let t := t.modCore c (fun k => { k.tagAfter c m sl kind with progress := k.progress + 1 })
        State.takeSlots c rs rest t
      | .wait t => .wait (t.stall c waitPort none)
      | .fail st t => .fail st t

/-- The bytes a load received, counted by where they came from (CORE_MAP_LDG, CORE_MAP_TIER). -/
def State.countLoad (s : State) (c : Nat) (h : Handle) (off n : Nat) : State :=
  if h.mem = memLedge ∨ h.mem = memTier1 ∨ h.mem = memTier2 then
    match s.addrKind (h.base + off) with
    | .ledge _ _ => s.modCore c (·.bump64 c CORE_MAP_LDG_LO n)
    | .tier1 | .tier2 => s.modCore c (·.bump64 c CORE_MAP_TIER_LO n)
    | _ => s
  else s

/-- Every range of a load read, in order: its bytes; `skip` tagged slots belong to ranges taken before. A wait leaves
the state stalled. -/
def State.gatherRanges (s : State) (c skip : Nat) (rs : List LoadRange) : Reach (List (List Byte)) :=
  if rs.any (fun r => !r.h.covers r.off r.n) then .fail stShapeInvalid s
  else
    let slots := loadSlots rs
    match State.takeSlots c rs (slots.drop ((s.core c).progress - skip)) s with
    | .wait t => .wait t
    | .fail st t => .fail st t
    | .ok _ t =>
      rs.foldl (fun acc r =>
        match acc with
        | .ok ds u =>
          if r.tagged then .ok (ds ++ [Mem.read (u.core c).remoteIn r.key r.n]) u
          else
            match u.handleRead c 1 r.h r.off r.n with
            | .ok d v => .ok (ds ++ [d]) v
            | .wait v => .wait (v.stall c waitAck none)
            | .fail st v => .fail st v
        | a => a) (.ok [] t)

/-- The ranges of a load counted once it issues. -/
def State.countLoads (s : State) (c : Nat) (rs : List LoadRange) : State :=
  rs.foldl (fun s r => s.countLoad c r.h r.off r.n) s

/-- A load issues: what was held for it is dropped. -/
def State.issueLoad (s : State) (c : Nat) (refs : List Nat) : State :=
  (s.modCore c (fun k => { k with remoteIn := [], remoteRows := [] })).issue c refs

/-- A load meets an invalid code (R33): the address of its first byte logged (log 15), the tile faulted. -/
def State.loadInvalid (s : State) (c addr : Nat) : State :=
  (s.logEvent 0x02 stMetadataInvalid (logSource 0 c) (BitVec.ofNat 64 addr)).tileFault c stMetadataInvalid 0

/-! ## Elements of a row piece (R25, R32) -/

/-- A handle's element width. -/
def Handle.width (h : Handle) : Nat := fmtBits h.fmt h.bits

/-- The handle holds TERN5. -/
def Handle.tern5 (h : Handle) : Bool := h.fmt == fmtTern && h.bits == 5

/-- Bytes of a row of `n` elements. -/
def Handle.rowLen (h : Handle) (n : Nat) : Nat :=
  if h.tern5 then ceilDiv n 5 else if h.fmt = fmtTern then ceilDiv n 4 else ceilDiv (n * h.width) 8

/-- First byte and byte count of elements `k0` to `k0 + n - 1` of a row. -/
def Handle.piece (h : Handle) (k0 n : Nat) : Nat × Nat :=
  if n = 0 then (0, 0)
  else if h.tern5 then (k0 / 5, ceilDiv (k0 + n) 5 - k0 / 5)
  else
    let w := if h.fmt = fmtTern then 2 else h.width
    (k0 * w / 8, ceilDiv ((k0 + n) * w) 8 - k0 * w / 8)

/-- The code of element `k0 + j` of a row of `len` elements, from the piece that starts at element `k0`: none where it
is invalid. A trit's code is its two's complement in 2 bits. -/
def Handle.codeAt (h : Handle) (len k0 j : Nat) (bs : List Byte) : Option Nat :=
  if h.tern5 then
    let first := k0 / 5 * 5
    (tern5At bs (len - first) (k0 - first + j)).map (unsignedBits 2)
  else if h.fmt = fmtTern then
    (tern2At bs (k0 % 4 + j)).map (unsignedBits 2)
  else some (packedAt bs h.width (j + k0 * h.width % 8 / h.width))

/-- The offset in the piece of the byte that holds an element. -/
def Handle.byteAt (h : Handle) (k0 j : Nat) : Nat :=
  if h.tern5 then (k0 + j) / 5 - k0 / 5
  else
    let w := if h.fmt = fmtTern then 2 else h.width
    (k0 + j) * w / 8 - k0 * w / 8

/-! ## Weight blocks (R26, R30, R52, R66, R222, R248) -/

/-- A stored weight of a column: its code and its position code; none at an edge. -/
abbrev Cell := Option (Nat × Nat)

/-- The bit of plane `i` of a stored weight, position pages after the weight planes. Row parity gives the codes (0, 1) of
an edge group. -/
def cellBit (a : ArrayCfg) (i row : Nat) : Cell → Bool
  | none => a.s24 && i == a.planesW && row % 2 == 1
  | some (v, p) =>
    if i < a.planesW then
      if a.sense = .dual then
        if a.wfmt = fmtBin then (if i = 0 then v == 1 else v == 0)
        else (if i = 0 then v == 1 else v == 3)
      else v.testBit i
    else p.testBit (i - a.planesW)

/-- The heads of the columns. -/
def headsOf (cols : List (List Cell)) : List Cell := cols.map (fun l => l.headD none)

/-- A row word: bit `c` is column `c`. -/
def rowWord (bs : List Bool) : W32 := BitVec.ofNat 32 (bs.foldr (fun b n => b.toNat + 2 * n) 0)

/-- The rows of plane `i` of 32 columns, from row `r` on. -/
def planeRows (a : ArrayCfg) (i : Nat) : Nat → Nat → List (List Cell) → List (Nat × W32)
  | 0, _, _ => []
  | n + 1, r, cols =>
    (r, rowWord ((headsOf cols).map (cellBit a i r))) :: planeRows a i n (r + 1) (cols.map List.tail)

/-- The page writes of one macro's part of a weight block. -/
def macroWrites (a : ArrayCfg) (mc base : Nat) (cols : List (List Cell)) : List PageWrite :=
  (List.range a.pages).map (fun i =>
    { mc := mc, page := base + i, rows := planeRows a i 256 0 cols, tag := none, arr := none, ack := none })

/-- What a load makes of one 256 by 32 block: its cells, or the address of its first invalid byte. -/
inductive BlockOut where
  | good (cols : List (List Cell))
  | bad (addr : Nat)

/-- The columns of a block put together; the first bad one stands. -/
def joinCols (cs : List (Except Nat (List Cell))) : BlockOut :=
  cs.foldr (fun c acc =>
    match c, acc with
    | .error e, _ => .bad e
    | .ok _, .bad e => .bad e
    | .ok l, .good ls => .good (l :: ls)) (.good [])

/-- Geometry of an LDW: handle, K, first column and position. -/
structure LdwGeom where
  h : Handle
  kdim : Nat
  n0 : Nat
  k0 : Nat
  deriving DecidableEq, Repr

/-- Kept values of a row of a 2:4 tensor (R153). -/
def LdwGeom.kept (g : LdwGeom) : Nat := g.kdim / 2

/-- Bytes of the value part of a row. -/
def LdwGeom.valBytes (g : LdwGeom) (s24 : Bool) : Nat := g.h.rowLen (if s24 then g.kept else g.kdim)

/-- Bytes of a row (R25, R32, R153). -/
def LdwGeom.rowBytes (g : LdwGeom) (s24 : Bool) : Nat :=
  g.valBytes s24 + if s24 then ceilDiv g.kdim 8 else 0

/-- Columns in bounds (R222). -/
def LdwGeom.cols (g : LdwGeom) (s24 : Bool) : Nat := 64 * g.h.length / g.rowBytes s24

/-- First stored position and count of block `b` in the value part. -/
def LdwGeom.valPos (g : LdwGeom) (a : ArrayCfg) (b : Nat) : Nat × Nat :=
  let k := g.k0 + b * a.blockLen
  if a.s24 then (k / 2, min 256 (g.kept - k / 2)) else (k, min 256 (g.kdim - k))

/-- The ranges that block `b` of column `n` reads: values, and codes in 2:4 mode. -/
def LdwGeom.ranges (g : LdwGeom) (a : ArrayCfg) (b n : Nat) : List LoadRange :=
  let v := g.valPos a b
  if g.cols a.s24 ≤ n then []
  else
    let p := g.h.piece v.1 v.2
    let row := n * g.rowBytes a.s24
    ⟨g.h, row + p.1, p.2, 0⟩ ::
      if a.s24 then [⟨g.h, row + g.valBytes true + v.1 / 4, ceilDiv v.2 4, 0⟩] else []

/-- The position codes of a column's block: those of group `i` from the code bytes; none where R67 or R154 forbids. -/
def codePair (bs : List Byte) (i : Nat) : Option (Nat × Nat) :=
  let n := (bs.getD (i / 2) 0).toNat / 2 ^ (4 * (i % 2)) % 16
  if n % 4 < n / 4 then some (n % 4, n / 4) else none

/-- One column of block `b` from the bytes it read (R31, R33, R67, R154): its cells, or the address of the first invalid
byte. -/
def LdwGeom.column (g : LdwGeom) (a : ArrayCfg) (b n : Nat) (ds : List (List Byte)) : Except Nat (List Cell) :=
  let v := g.valPos a b
  if g.cols a.s24 ≤ n then .ok []
  else
    let vals := ds.headD []
    let codes := (ds.drop 1).headD []
    let row := g.h.base + n * g.rowBytes a.s24
    let vaddr := row + (g.h.piece v.1 v.2).1
    let caddr := row + g.valBytes true + v.1 / 4
    let len := if a.s24 then g.kept else g.kdim
    let elems := (List.range v.2).map (fun j => (j, g.h.codeAt len v.1 j vals))
    match elems.find? (fun e => e.2.isNone) with
    | some e => .error (vaddr + g.h.byteAt v.1 e.1)
    | none =>
      if a.s24 then
        match (List.range (v.2 / 2)).find? (fun i => (codePair codes i).isNone) with
        | some i => .error (caddr + i / 2)
        | none =>
          if v.1 + v.2 = g.kept ∧ v.2 / 2 % 2 = 1 ∧ (codes.getD (v.2 / 4) 0).toNat / 16 ≠ 0 then .error (caddr + v.2 / 4)
          else .ok (elems.map (fun e =>
            let cp := (codePair codes (e.1 / 2)).getD (0, 0)
            e.2.map (fun x => (x, if e.1 % 2 = 0 then cp.1 else cp.2))))
      else .ok (elems.map (fun e => e.2.map (fun x => (x, 0))))

/-- The checks of LDW FORM 0 against the setting (R155, R222, R329). -/
def ldwFormat (a : ArrayCfg) (h : Handle) : Bool :=
  !a.stoch && h.fmt == a.wfmt && (h.fmt == fmtBin || h.fmt == fmtTern || h.bits == a.wbits)
    && h.layout == (if a.s24 then 1 else 0) && !(a.s24 && h.tern5)

/-- Page writes of an LDW, in order, until the first 256 by 32 block that fails. -/
structure LdwPlan where
  writes : List PageWrite
  bad : Option Nat

/-- The plan of LDW FORM 0: blocks ascending, macros ascending within each (R33). `data` gives the bytes of block and
column. -/
def ldwPlan (g : LdwGeom) (a : ArrayCfg) (pag nblk : Nat) (data : List (Nat × Nat × List (List Byte))) : LdwPlan :=
  (List.range nblk).foldl (fun pl b =>
    let mine := (data.filter (fun e => e.1 == b)).map (·.2)
    (List.range 16).foldl (fun pl m =>
      match pl.bad with
      | some _ => pl
      | none =>
        let cols := ((mine.drop (32 * m)).take 32).map (fun e => g.column a b (g.n0 + e.1) e.2)
        match joinCols cols with
        | .bad e => { pl with bad := some e }
        | .good cs => { pl with writes := pl.writes ++ macroWrites a m (pag + b * a.pages) cs }) pl) ⟨[], none⟩

/-- Bytes read, cut back into the ranges of each block and column. -/
def cutData (g : LdwGeom) (a : ArrayCfg) : List (Nat × Nat) → List (List Byte) → List (Nat × Nat × List (List Byte))
  | [], _ => []
  | (b, n) :: ps, ds =>
    let k := (g.ranges a b (g.n0 + n)).length
    (b, n, ds.take k) :: cutData g a ps (ds.drop k)

/-- The block and column numbers of a load, in order. -/
def blockCols (nblk : Nat) : List (Nat × Nat) := (List.range nblk).flatMap (fun b => (List.range 512).map (fun n => (b, n)))

/-! ## Weight scales (R127 to R131, R222) -/

/-- A record of a scale load taken in: the container and, for a group to be rewritten, its element (R43, R45, R46, R129,
R130). -/
def weightRecord (a : ArrayCfg) (r : Nat) : Option (Nat × Option Int) :=
  if !recordOk false false r then none
  else if r / 2 ^ 24 ≠ 0 then some (r / 2 ^ 16, none)
  else
    match reencode false (a.sense == .xnor) a.wfmt a.wbits (r % 2 ^ 16) with
    | none => none
    | some (q, sc, re) => some (sc, if re then some q else none)

/-- A scale load: groups per column, first group, columns in bounds. -/
structure ScaleGeom where
  h : Handle
  kdim : Nat
  ng : Nat
  n0 : Nat
  g0 : Nat
  deriving DecidableEq, Repr

/-- Columns in bounds of FORM 1. -/
def ScaleGeom.cols (g : ScaleGeom) : Nat := 64 * g.h.length / (4 * g.ng)

/-- Records that block `b` of column `n` reads. -/
def ScaleGeom.count (g : ScaleGeom) (a : ArrayCfg) (b n : Nat) : Nat :=
  if g.cols ≤ n then 0 else min a.segs (g.ng - (g.g0 + a.segs * b))

/-- Offset of the first of them. -/
def ScaleGeom.off (g : ScaleGeom) (a : ArrayCfg) (b n : Nat) : Nat := 4 * (n * g.ng + g.g0 + a.segs * b)

/-- The entries of one column of a block: the container and the element to write, or the address of the first failing
record. -/
def ScaleGeom.column (g : ScaleGeom) (a : ArrayCfg) (b n : Nat) (bs : List Byte) :
    Except Nat (List (Nat × Option Int)) :=
  let recs := (List.range (g.count a b n)).map (fun j => (j, weightRecord a (leNat ((bs.drop (4 * j)).take 4))))
  match recs.find? (fun e => e.2.isNone) with
  | some e => .error (g.h.base + g.off a b n + 4 * e.1)
  | none =>
    .ok ((List.range a.segs).map (fun j => ((recs.getD j (0, none)).2).getD (0x7f00, none)))

/-- The rows of scale entry `e` for 32 columns. -/
def entryRows (e : Nat) (vs : List Nat) : List (Nat × W32) :=
  (List.range 16).map (fun b => (16 * (e % 16) + b, rowWord (vs.map (·.testBit b))))

/-- The stored element of a re-encoded group as a cell (R26, R30, R129). -/
def constCell (a : ArrayCfg) (q : Int) : Nat :=
  if a.wfmt = fmtBin then (if 0 < q then 1 else if q < 0 then 0 else 2) else unsignedBits (max 2 a.wbits) q

/-- Bit of weight plane `i` of a re-encoded element. A BIN zero sets neither mask. -/
def constBit (a : ArrayCfg) (i : Nat) (q : Int) : Bool :=
  if a.sense = .dual then (if i = 0 then decide (0 < q) else decide (q < 0))
  else (constCell a q).testBit i

/-- Stored rows of segment `j` of a block with `kv` positions in bounds. -/
def segRows (a : ArrayCfg) (j kv : Nat) : List Nat :=
  let d := if a.s24 then 2 else 1
  (List.range 256).filter (fun r => decide (j * a.group / d ≤ r ∧ r < (j + 1) * a.group / d ∧ r < kv / d))

/-- The page writes that rewrite the zero-range groups of one macro's part of a block: every row that changes, merged
with the bits the page holds. -/
def CoreState.rewrites (k : CoreState) (a : ArrayCfg) (mc base kv : Nat) (cols : List (List (Nat × Option Int))) :
    List PageWrite :=
  let hit (j : Nat) : Bool := cols.any (fun l => (l.getD j (0, none)).2.isSome)
  let rows := ((List.range a.segs).filter hit).flatMap (fun j => (segRows a j kv).map (fun r => (j, r)))
  if rows.isEmpty then []
  else
    (List.range a.planesW).map (fun i =>
      { mc := mc, page := base + i, tag := none, arr := none, ack := none,
        rows := rows.map (fun e =>
          let old := k.wmRow mc (base + i) e.2
          (e.2, rowWord ((cols.zip (List.range 32)).map (fun p =>
            match (p.1.getD e.1 (0, none)).2 with
            | some q => constBit a i q
            | none => old.getLsbD p.2)))) })

/-- A rewritten row would carry a bit in both the P and the N page of a pair (R31). -/
def pairClash (a : ArrayCfg) (ws : List PageWrite) : Bool :=
  a.sense == .dual &&
    (match ws with
      | p :: n :: _ => (p.rows.zip n.rows).any (fun e => (e.1.2 &&& e.2.2) != 0)
      | _ => false)

/-- The plan of LDW FORM 1 on one core: for each block and macro, the scale entries and the rewritten pages, until the
first failing record, or a page to be rewritten that is not LOADED. -/
structure ScalePlan where
  writes : List PageWrite
  bad : Option Nat
  status : Nat

/-- The plan of LDW FORM 1 (R128, R222). A page pair is checked as it is rewritten (R31); where the check fails, the log names
the macro's first record. -/
def CoreState.scalePlan (k : CoreState) (g : ScaleGeom) (a : ArrayCfg) (pag wag nblk : Nat)
    (data : List (Nat × Nat × List Byte)) : ScalePlan :=
  (List.range nblk).foldl (fun pl b =>
    let mine := (data.filter (fun e => e.1 == b)).map (·.2)
    (List.range 16).foldl (fun pl m =>
      if pl.status ≠ stOk then pl
      else
        let cols := ((mine.drop (32 * m)).take 32).map (fun e => g.column a b (g.n0 + e.1) e.2)
        match cols.find? (fun c => match c with | .error _ => true | .ok _ => false) with
        | some (.error e) => { pl with bad := some e, status := stMetadataInvalid }
        | _ =>
          let cs := cols.map (fun c => match c with | .ok l => l | .error _ => [])
          let base := wag + b * a.pages
          let kv := min a.blockLen (g.kdim - (g.g0 + a.segs * b) * a.group)
          let rw := k.rewrites a m base kv cs
          if 128 < base + a.pages ∧ !rw.isEmpty then { pl with status := stShapeInvalid }
          else if rw.any (fun p => (k.page p.mc p.page).st != .loaded) then { pl with status := stBadField }
          else if pairClash a rw then
            { pl with bad := some (g.h.base + g.off a b (g.n0 + 32 * m)), status := stMetadataInvalid }
          else
            let ents := (List.range a.segs).map (fun j =>
              let e := pag + a.segs * b + j
              ({ mc := m, page := e / 16, rows := entryRows e (cs.map (fun l => (l.getD j (0x7f00, none)).1)),
                 tag := none, arr := none, ack := none } : PageWrite))
            { pl with writes := pl.writes ++ rw ++ ents }) pl) ⟨[], none, stOk⟩

/-- Writes of one page put together, in the order of first mention. -/
def mergeWrites (ws : List PageWrite) : List PageWrite :=
  ws.foldl (fun acc w =>
    if acc.any (fun x => x.mc == w.mc && x.page == w.page) then
      acc.map (fun (x : PageWrite) => if x.mc = w.mc ∧ x.page = w.page then { x with rows := x.rows ++ w.rows } else x)
    else acc ++ [w]) []

/-- Page writes queued at a core, the last one raising an arrival counter for a multicast load: once per page set, the
set of a page being complete with its last write; `ack` names the multicast load that waits for them. -/
def CoreState.queueWrites (k : CoreState) (ws : List PageWrite) (arr : Option Nat) (ack : Option (Nat × Nat)) : CoreState :=
  let marked := (ws.zip (List.range ws.length)).map (fun p =>
    let last := !(ws.drop (p.2 + 1)).any (fun x => x.page == p.1.page)
    { p.1 with arr := if last then arr else none, ack := ack })
  { k with pageWrites := k.pageWrites ++ marked }

/-! ## LDW -/

/-- The fields that LDW and MCAST kind 1 share. -/
structure LdwWord where
  form : Nat
  handle : Nat
  sag : Nat
  pag : Nat
  nblk : Nat
  bnd : Nat
  wag : Nat
  refs : List Nat
  deriving DecidableEq, Repr

/-- The fields of an LDW word. WAG is read for FORM 1 alone. -/
def ldwWord (w : W64) : LdwWord where
  form := field w 7 6
  handle := field w 15 8
  sag := field w 19 16
  pag := field w 23 20
  nblk := field w 31 24
  bnd := field w 35 32
  wag := field w 50 47
  refs := [field w 19 16, field w 23 20, field w 40 37] ++ if field w 7 6 = 1 then [field w 50 47] else []

/-- The zero-map test of an LDW (R162, R163). -/
inductive ZbTest where
  | out
  | skip
  | go
  deriving DecidableEq, Repr

/-- ZB, ZAG and ZN of an LDW under SKIP. -/
def CoreState.zbTest (c : Nat) (k : CoreState) (skip : Bool) (w : W64) : ZbTest :=
  let z := agRef c k (field w 40 37)
  let n := field w 46 41 + 1
  if field w 36 36 = 0 ∨ !skip then .go
  else if !agIn z 1023 1 || decide (1024 < z.toNat + n) then .out
  else if (List.range n).all (fun i => k.zeroMap.getLsbD (z.toNat + i)) then .skip
  else .go

/-- A multicast load is outstanding until its targets have acknowledged it, which is when their page writes have been done
(R225); its number. -/
def State.mcastAck (s : State) (c : Nat) (mc done : Bool) : Option (Nat × Nat) × State :=
  if mc then
    let o := s.outstAdd c false false done
    (some (c, o.1), o.2)
  else (none, s)

/-- The cores that a load writes, its own (LDW) or those of a multicast, receive their page writes; a failing target's
status faults the issuing tile once each has what was checked before the failure (R33, R225).
The blocks that were checked are written, and the rest of the destination stays as it was: R33 leaves it undefined. DESIGN
CHOICE, log 63. -/
def State.ldwForm0 (s : State) (c : Nat) (a : ArrayCfg) (f : LdwWord) (targets : List Nat) (arr : Option Nat) (mc : Bool) :
    State :=
  let k := s.core c
  let h := k.handle c f.handle
  let kd := (k.reg c (CORE_BOUND f.bnd)).toNat
  let sag := agRef c k f.sag
  let pag := agRef c k f.pag
  if !h.valid then s.tileFault c stShapeInvalid 0
  else if !ldwFormat a h || (a.s24 && kd % 4 != 0) then s.tileFault c stBadField 0
  else
    let g : LdwGeom := ⟨h, kd, sag.toNat / kd, sag.toNat % kd⟩
    if sag < 0 || g.k0 % a.blockLen ≠ 0 || !agIn pag 127 1 || decide (128 < pag.toNat + f.nblk * a.pages) then
      s.tileFault c stShapeInvalid 0
    else
      let bcs := blockCols f.nblk
      let rs := bcs.flatMap (fun p => g.ranges a p.1 (g.n0 + p.2))
      match s.gatherRanges c 0 rs with
      | .wait t => t
      | .fail st t => t.tileFault c st 0
      | .ok ds t =>
        let pl := ldwPlan g a pag.toNat f.nblk (cutData g a bcs ds)
        let o := t.mcastAck c mc (targets.isEmpty || pl.writes.isEmpty)
        let t := targets.foldl (fun u p =>
          (u.modCore p (fun k => k.queueWrites pl.writes arr o.1)).countLoads p rs) o.2
        match pl.bad with
        | some e => t.loadInvalid c e
        | none => t.issueLoad c f.refs

/-- The scale load of LDW FORM 1 and MCAST kind 1 FORM 1. It waits for the page writes of earlier loads of its targets,
whose pages it may have to rewrite (log 16). -/
def State.ldwForm1 (s : State) (c : Nat) (a : ArrayCfg) (f : LdwWord) (targets : List Nat) (arr : Option Nat) (mc : Bool) :
    State :=
  let k := s.core c
  let h := k.handle c f.handle
  let kd := (k.reg c (CORE_BOUND f.bnd)).toNat
  let sag := agRef c k f.sag
  let pag := agRef c k f.pag
  let wag := agRef c k f.wag
  let ng := ceilDiv kd a.group
  let g : ScaleGeom := ⟨h, kd, ng, sag.toNat / ng, sag.toNat % ng⟩
  if !h.valid then s.tileFault c stShapeInvalid 0
  else if h.layout ≠ 0 then s.tileFault c stBadField 0
  else if sag < 0 || !agIn pag 2047 1 || !agIn wag 127 1 || decide (2048 < pag.toNat + a.segs * f.nblk) then
    s.tileFault c stShapeInvalid 0
  else if targets.any (fun p => !(s.core p).pageWrites.isEmpty) then s.stall c waitScoreboard none
  else
    let bcs := blockCols f.nblk
    let rs := bcs.map (fun p =>
      (⟨h, g.off a p.1 (g.n0 + p.2), 4 * g.count a p.1 (g.n0 + p.2), 0⟩ : LoadRange))
    match s.gatherRanges c 0 (rs.map (fun r => if r.n = 0 then { r with off := 0 } else r)) with
    | .wait t => t
    | .fail st t => t.tileFault c st 0
    | .ok ds t =>
      let data := (bcs.zip ds).map (fun e => (e.1.1, e.1.2, e.2))
      let o := t.mcastAck c mc targets.isEmpty
      let r := targets.foldl (fun (acc : Nat × Option Nat × State) p =>
        let pl := (acc.2.2.core p).scalePlan g a pag.toNat wag.toNat f.nblk data
        let u := (acc.2.2.modCore p (fun k => k.queueWrites (mergeWrites pl.writes) arr o.1)).countLoads p rs
        if acc.1 = stOk then (pl.status, pl.bad, u) else (acc.1, acc.2.1, u)) (stOk, none, o.2)
      match r.1 = stOk, r.2.1 with
      | _, some e => r.2.2.loadInvalid c e
      | _, none => if r.1 = stOk then r.2.2.issueLoad c f.refs else r.2.2.tileFault c r.1 0

/-- The frame of the three LDW forms: the setting, the bound, the zero-map test. -/
def State.ldw (s : State) (c : Nat) (w : W64) (f : ArrayCfg → State) : State :=
  let k := s.core c
  match k.arr with
  | none => s.tileFault c stBadField 0
  | some a =>
    if field w 7 6 ≠ 2 ∧ k.reg c (CORE_BOUND (field w 35 32)) = 0 then s.tileFault c stShapeInvalid 0
    else match k.zbTest c a.skip w with
    | .out => s.tileFault c stShapeInvalid 0
    | .skip => (s.cbump c CORE_SP_WSKIP 1).issueLoad c (ldwWord w).refs
    | .go => f a

/-- LDW FORM 0. -/
def execLdwWeights (c : Nat) (s : State) : Out :=
  s.inCores <|
  withTile .ldwWeights c s (fun w => s.ldw c w (fun a => s.ldwForm0 c a (ldwWord w) [c] none false))

/-- LDW FORM 1. -/
def execLdwScales (c : Nat) (s : State) : Out :=
  s.inCores <|
  withTile .ldwScales c s (fun w => s.ldw c w (fun a => s.ldwForm1 c a (ldwWord w) [c] none false))

/-! ## Generating loads (R114) -/

/-- The stream bits of 32 columns, row by row, at one step. `vs` holds a column's source values. -/
def streamRows (bip : Bool) (w r : Nat) : Nat → Nat → List (List Nat) → List (Nat × W32)
  | 0, _, _ => []
  | n + 1, row, cols =>
    (row, rowWord (cols.map (fun l => decide (r < streamThreshold bip w (l.headD 0))))) ::
      streamRows bip w r n (row + 1) (cols.map List.tail)

/-- The page writes of a generating load: one page set per step, tagged. The source values of column `n` are the 256
values packed from `32 * w * n` on (log 17). -/
def genWrites (a : ArrayCfg) (c pag gen dim t0 seed epoch : Nat) (bs : List Byte) : List PageWrite :=
  let cols := (List.range 512).map (fun n =>
    let col := (bs.drop (32 * a.wbits * n)).take (32 * a.wbits)
    (List.range 256).map (packedAt col a.wbits))
  (List.range a.chunk).flatMap (fun i =>
    let r := sobolOut seed dim ((t0 + i) % 1024)
    (List.range 16).map (fun m =>
      { mc := m, page := pag + i, rows := streamRows (a.wfmt == fmtScBip) a.wbits r 256 0 ((cols.drop (32 * m)).take 32),
        tag := some ⟨c, gen, dim, epoch, t0 + i⟩, arr := none, ack := none }))

/-- LDW FORM 2. -/
def State.ldwGen (s : State) (c : Nat) (w : W64) (a : ArrayCfg) : State :=
  let k := s.core c
  let n := 512 * 32 * a.wbits
  let sag := agRef c k (field w 19 16)
  let pag := agRef c k (field w 23 20)
  if !a.stoch then s.tileFault c stBadField 0
  else if !agIn sag (2 ^ 20 - n) 1 || !agIn pag 127 1 || decide (128 < pag.toNat + a.chunk) then
    s.tileFault c stShapeInvalid 0
  else
    match s.coreRead c 1 .am sag.toNat n with
    | .wait t => t.stall c waitPort none
    | .fail st t => t.tileFault c st 0
    | .ok bs t =>
      let gen := field w 50 47
      let ws := genWrites a c pag.toNat gen (field w 53 51) (16 * field w 59 54) (k.fld c (CORE_SG_STATE gen) 15 0)
        (k.fld c (CORE_SG_STATE gen) 31 16) bs
      (t.modCore c (fun k => k.queueWrites ws none none)).issueLoad c (ldwWord w).refs

/-- LDW FORM 2. -/
def execLdwGen (c : Nat) (s : State) : Out :=
  s.inCore c <|
  withTile .ldwGen c s (fun w => s.ldw c w (fun a => s.ldwGen c w a))

/-! ## LDA (R126, R129 to R131, R156 to R161, R223, R247, R248) -/

/-- The fields of LDA. -/
structure LdaWord where
  hp : Nat
  hr : Nat
  sag : Nat
  dag : Nat
  rag : Nat
  rows : Nat
  kblk : Nat
  bnd : Nat
  zag : Nat
  tk : Nat
  deriving DecidableEq, Repr

/-- The fields of an LDA word. -/
def ldaWord (w : W64) : LdaWord where
  hp := field w 13 6
  hr := field w 21 14
  sag := field w 25 22
  dag := field w 29 26
  rag := field w 33 30
  rows := field w 41 34 + 1
  kblk := field w 49 42 + 1
  bnd := field w 53 50
  zag := field w 57 54
  tk := field w 59 58

/-- The address-generator references of LDA. -/
def LdaWord.refs (f : LdaWord) : List Nat := [f.sag, f.dag, f.rag, f.zag]

/-- An item of an LDA: logical row, and first position. -/
structure LdaItem where
  row : Nat
  k : Nat
  deriving DecidableEq, Repr

/-- What an LDA works with: the setting, K, handles, first row and position. -/
structure LdaGeom where
  a : ArrayCfg
  kdim : Nat
  hp : Handle
  hslot : Handle
  hr : Handle
  r0 : Nat
  k0 : Nat
  deriving DecidableEq, Repr

/-- Groups of a row. -/
def LdaGeom.ng (g : LdaGeom) : Nat := ceilDiv g.kdim g.a.group

/-- The items in load order. -/
def LdaGeom.items (g : LdaGeom) (rows kblk : Nat) : List LdaItem :=
  (List.range rows).flatMap (fun r => (List.range kblk).map (fun b => ⟨g.r0 + r, g.k0 + b * g.a.blockLen⟩))

/-- Positions of an item in bounds along K. -/
def LdaGeom.kv (g : LdaGeom) (i : LdaItem) : Nat := min g.a.blockLen (g.kdim - i.k)

/-- 256-position blocks of a row of an RLZ tensor. -/
def LdaGeom.rlzBlocks (g : LdaGeom) : Nat := ceilDiv g.kdim 256

/-- Rows in bounds by the payload handle (R223). -/
def LdaGeom.srcRows (g : LdaGeom) : Nat :=
  if g.hp.layout = 2 then 64 * g.hp.length / (4 * g.rlzBlocks) else 64 * g.hp.length / g.hp.rowLen g.kdim

/-- Entries of an index handle (R247). -/
def Handle.entries (h : Handle) : Nat := 8 * h.length

/-- The source combination is one that R329 allows: the same format and width, a TERN source as SINT2, or a float source
that is quantised on its way in. -/
def ldaFormat (a : ArrayCfg) (h : Handle) : Bool :=
  let same := h.fmt == a.afmt && (h.fmt == fmtBin || h.fmt == fmtTern || h.bits == a.abits)
  let trit := h.fmt == fmtTern && a.afmt == fmtSint && a.abits == 2
  let flt := (h.fmt == fmtBf16 || h.fmt == fmtFp32) && !a.stoch
  (same || trit || flt) && (h.layout == 0 || h.layout == 4 || (h.layout == 2 && !flt && h.fmt != fmtBin && !a.stoch))

/-- The row of each item in the source: none for a padded row. `index` holds the index entries read, when gathered. -/
def physRow (rows : Nat) (index : Option (List Nat)) (first r : Nat) : Option Nat :=
  match index with
  | some es => (es[r - first]?)
  | none => if r < rows then some r else none

/-- An RLZ header passes R159: its width, RAW and NNZ. -/
def rlzHeader (w nb hd : Nat) : Option (Bool × Nat) :=
  let nnz := hd % 2 ^ 9
  if hd / 2 ^ 21 ≠ 0 ∨ hd / 2 ^ 9 % 2 ^ 6 ≠ 0 ∨ hd / 2 ^ 16 % 32 ≠ w then none
  else if hd / 2 ^ 15 % 2 = 1 then some (true, nnz)
  else if nb < nnz then none
  else some (false, nnz)

/-- Bytes of the body of a block (R157). -/
def rlzBody (w nb : Nat) (raw : Bool) (nnz : Nat) : Nat := if raw then ceilDiv (nb * w) 8 else nnz + ceilDiv (nnz * w) 8

/-- A compressed body expanded to `nb` elements; none where R159 forbids it. -/
def rlzExpand (tern : Bool) (w nb : Nat) (raw : Bool) (nnz : Nat) (bs : List Byte) : Option (List Nat) :=
  if raw then
    let vs := (List.range nb).map (packedAt bs w)
    if tern && vs.contains 2 then none else some vs
  else
    let runs := (bs.take nnz).map (·.toNat)
    let vals := (List.range nnz).map (packedAt (bs.drop nnz) w)
    if nb - nnz < runs.sum ∨ vals.contains 0 ∨ (tern && vals.contains 2) then none
    else
      let out := (runs.zip vals).flatMap (fun p => List.replicate p.1 0 ++ [p.2])
      some (out ++ List.replicate (nb - out.length) 0)

/-- The codes of an item, none where one is invalid, and the address of the byte of each; the address of an RLZ header that
fails, with its body, R159; `nnz0` says that every RLZ block of it had NNZ 0. -/
structure LdaData where
  codes : List (Option Nat)
  codeAt : Nat → Nat
  broken : Option Nat
  nnz0 : Bool

/-- Element width as the source holds it, a trit in 2 bits. -/
def Handle.elemW (h : Handle) : Nat := if h.fmt = fmtTern then 2 else h.width

/-- One activation group: its record re-encoded, and the codes of its elements (R43, R45, R46, R47, R129, R130). The Nat
counts clips, the Bool marks a NaN. -/
def actGroup (a : ArrayCfg) (h : Handle) (r : Nat) (codes : List Nat) : Option (Nat × List Nat × Nat × Bool) :=
  if !recordOk true false r then none
  else if r / 2 ^ 24 = 0 then
    match reencode true (a.afmt == fmtBin) a.afmt a.abits (r % 2 ^ 16) with
    | none => none
    | some (q, sc, re) =>
      some (sc * 2 ^ 16, if re then codes.map (fun _ =>
        if a.afmt = fmtBin then (if 0 < q then 1 else 0) else unsignedBits a.abits q) else codes, 0, false)
  else if h.fmt = fmtBf16 ∨ h.fmt = fmtFp32 then
    let os := codes.map (fun x => quantise a.afmt a.abits (r / 2 ^ 24) 0 (if h.fmt = fmtBf16 then bf16Widen x else x))
    some (r, os.map (·.bits), (os.filter (·.clip)).length, os.any (·.special))
  else some (r, codes, 0, false)

/-- One item built: plane vectors or packed source values, records, clips, all-zero; or the address that fails. -/
structure LdaBuilt where
  planes : List Byte
  recs : List Byte
  clips : Nat
  nan : Bool
  zero : Bool

/-- The bytes of the plane vectors of an item (R54); source values stay packed for a stochastic setting (log 18). -/
def planeVectors (a : ArrayCfg) (codes : List Nat) : List Byte :=
  if a.stoch then packBits a.abits (codes ++ List.replicate (256 - codes.length) 0)
  else
    (List.range a.abits).flatMap (fun j =>
      (List.range a.vec).map (fun b =>
        BitVec.ofNat 8 ((List.range 8).foldl (fun acc i => acc + ((codes.getD (8 * b + i) 0).testBit j).toNat * 2 ^ i) 0)))

/-- An item built from its codes and records. `recs` holds the records read, fewer than the segments at a K edge. -/
def LdaGeom.build (g : LdaGeom) (codes : List Nat) (recs : List Nat) : Except Nat LdaBuilt :=
  let a := g.a
  let r := (List.range a.segs).foldl
    (fun (acc : Except Nat (List Nat × List Byte × Nat × Bool)) j =>
      match acc with
      | .error e => .error e
      | .ok (cs, rs, n, b) =>
        let mine := (codes.drop (j * a.group)).take a.group
        match recs[j]? with
        | none => .ok (cs ++ mine, rs ++ leBytes 4 0x7f000000, n, b)
        | some x =>
          match actGroup a g.hp x mine with
          | none => .error j
          | some (x', cs', n', b') => .ok (cs ++ cs', rs ++ leBytes 4 x', n + n', b || b')) (.ok ([], [], 0, false))
  match r with
  | .error j => .error j
  | .ok (cs, rs, n, b) => .ok ⟨planeVectors a cs, rs, n, b, cs.all (· == 0)⟩

/-- The ranges of the payload of an item in source row `pr`, for a layout other than RLZ. -/
def LdaGeom.payRange (g : LdaGeom) (tk : Nat) (i : LdaItem) (pr : Nat) : LoadRange :=
  let p := g.hp.piece i.k (g.kv i)
  ⟨g.hp, pr * g.hp.rowLen g.kdim + p.1, p.2, tk⟩

/-- Records of an item. -/
def LdaGeom.recCount (g : LdaGeom) (i : LdaItem) : Nat := min g.a.segs (g.ng - i.k / g.a.group)

/-- The range of the records of an item, in record row `rr`. -/
def LdaGeom.recRange (g : LdaGeom) (tk : Nat) (i : LdaItem) (rr : Nat) : LoadRange :=
  ⟨g.hr, 4 * (rr * g.ng + i.k / g.a.group), 4 * g.recCount i, tk⟩

/-- The 256-position blocks of an item: number in the tensor, positions. -/
def LdaGeom.blocks (g : LdaGeom) (i : LdaItem) (pr : Nat) : List (Nat × Nat) :=
  (List.range (g.a.blockLen / 256)).filterMap (fun j =>
    let kb := i.k / 256 + j
    if kb < g.rlzBlocks then some (pr * g.rlzBlocks + kb, min 256 (g.kdim - 256 * kb)) else none)

/-- The codes of an item of a dense source. -/
def LdaGeom.dense (g : LdaGeom) (i : LdaItem) (pr : Nat) (bs : List Byte) : LdaData :=
  let codes := (List.range (g.kv i)).map (fun j => g.hp.codeAt g.kdim i.k j bs)
  ⟨codes, fun j => g.hp.base + pr * g.hp.rowLen g.kdim + (g.hp.piece i.k (g.kv i)).1 + g.hp.byteAt i.k j, none, false⟩

/-- The checked headers of an RLZ item, with each block's number and length; or the address of a bad header. -/
def LdaGeom.headers (g : LdaGeom) (bl : List (Nat × Nat)) (hs : List Nat) : List (Nat × Nat × Option (Bool × Nat)) :=
  (bl.zip hs).map (fun p => (p.1.1, p.1.2, rlzHeader g.hp.elemW p.1.2 p.2))

/-- An RLZ item expanded. -/
def LdaGeom.rlz (g : LdaGeom) (hd : List (Nat × Nat × Option (Bool × Nat))) (bodies : List (List Byte)) : LdaData :=
  let one (p : (Nat × Nat × Option (Bool × Nat)) × List Byte) : Option (List Nat) :=
    match p.1.2.2 with
    | none => none
    | some (raw, nnz) =>
      if nnz = 0 ∧ !raw then some (List.replicate p.1.2.1 0)
      else rlzExpand (g.hp.fmt == fmtTern) g.hp.elemW p.1.2.1 raw nnz p.2
  let bs := (hd.zip bodies).map (fun p => (p.1.1, one p))
  match bs.find? (fun b => b.2.isNone) with
  | some b => ⟨[], fun _ => 0, some (g.hp.base + 4 * b.1), false⟩
  | none => ⟨(bs.flatMap (fun b => b.2.getD [])).map some, fun _ => 0, none,
      hd.all (fun h => match h.2.2 with | some (_, n) => n == 0 | none => false)⟩

/-- The slot bytes a block costs (R160): whole rows of its body. -/
def LdaGeom.slotRange (g : LdaGeom) (tk : Nat) (h : Nat × Nat × Option (Bool × Nat)) : LoadRange :=
  let w := g.hp.elemW
  match h.2.2 with
  | some (raw, nnz) =>
    if nnz = 0 ∧ !raw then ⟨g.hslot, 0, 0, tk⟩
    else ⟨g.hslot, 32 * w * h.1, ceilDiv (rlzBody w h.2.1 raw nnz) 64 * 64, tk⟩
  | none => ⟨g.hslot, 0, 0, tk⟩

/-- Lists of a given shape cut out of one list. -/
def cutBy {α : Type} : List Nat → List α → List (List α)
  | [], _ => []
  | n :: ns, xs => xs.take n :: cutBy ns (xs.drop n)

/-- The items an LDA has read: data, records, and whether the row is padded. -/
structure LdaRead where
  data : LdaData
  recs : List Nat
  recAt : Nat
  padded : Bool

/-- The index entries of a gathered handle for the logical rows `r0` to `r0 + rows - 1`: rows of 8 entries read whole. -/
def State.readIndex (s : State) (c skip tk : Nat) (h : Handle) (r0 rows : Nat) : Reach (List Nat × Nat) :=
  let last := min (r0 + rows) h.entries
  let n := if last ≤ r0 then 0 else (last - 1) / 8 - r0 / 8 + 1
  let rs : List LoadRange := if n = 0 then [] else [⟨h, 64 * (r0 / 8), 64 * n, tk⟩]
  match s.gatherRanges c skip rs with
  | .ok ds t =>
    let bs := ds.headD []
    .ok ((List.range (last - r0)).map (fun i => leNat ((bs.drop (8 * (r0 % 8 + i))).take 3)), skip + (loadSlots rs).length)
      t
  | .wait t => .wait t
  | .fail st t => .fail st t

/-- The payload and the records of every item read: of an RLZ source whole header rows of 16 (R160). A row beyond the entries of
the records' own index has a padded row's records (R247). -/
def State.ldaRead (s : State) (c skip : Nat) (g : LdaGeom) (tk : Nat) (items : List LdaItem)
    (pidx ridx : Option (List Nat)) : Reach (List LdaRead) :=
  let prow (i : LdaItem) : Option Nat := physRow g.srcRows pidx g.r0 i.row
  let rrow (i : LdaItem) : Option Nat := physRow (2 ^ 32) ridx g.r0 i.row
  let live := items.filterMap (fun i => (prow i).map (fun r => (i, r)))
  let rlz := g.hp.layout == 2
  if pidx.isSome && live.any (fun e => decide (g.srcRows ≤ e.2)) then .fail stShapeInvalid s
  else
    let recRs := live.map (fun e =>
      match rrow e.1 with
      | some r => g.recRange tk e.1 r
      | none => ⟨g.hr, 0, 0, tk⟩)
    let hrows := (live.flatMap (fun e => (g.blocks e.1 e.2).map (fun b => b.1 / 16))).dedup
    let payRs := if rlz then hrows.map (fun r => (⟨g.hp, 64 * r, 64, tk⟩ : LoadRange))
      else live.map (fun e => g.payRange tk e.1 e.2)
    match s.gatherRanges c skip (payRs ++ recRs) with
    | .wait t => .wait t
    | .fail st t => .fail st t
    | .ok ds t =>
      let skip := skip + (loadSlots (payRs ++ recRs)).length
      let pay := ds.take payRs.length
      let recs := (ds.drop payRs.length).map (fun bs => (List.range (bs.length / 4)).map (fun j =>
        leNat ((bs.drop (4 * j)).take 4)))
      let head (b : Nat) : Nat := leNat ((((hrows.zip pay).find? (fun e => e.1 == b / 16)).map
        (fun e => (e.2.drop (4 * (b % 16))).take 4)).getD [])
      let heads := live.map (fun e => g.headers (g.blocks e.1 e.2) ((g.blocks e.1 e.2).map (fun b => head b.1)))
      let slotRs := if rlz then (heads.flatMap (fun l => l.map (g.slotRange tk))) else []
      match t.gatherRanges c skip slotRs with
      | .wait u => .wait u
      | .fail st u => .fail st u
      | .ok bodies u =>
        let data := if rlz then (heads.zip (cutBy (heads.map (·.length)) bodies)).map (fun p => g.rlz p.1 p.2)
          else (live.zip pay).map (fun p => g.dense p.1.1 p.1.2 p.2)
        let full := (live.zip (data.zip (recs.zip recRs))).map (fun p => (p.1.1, p.2))
        .ok (items.map (fun i =>
          match full.find? (fun e => e.1 == i) with
          | some (_, d, r, rr) => ⟨d, r, g.hr.base + rr.off, false⟩
          | none => ⟨⟨[], fun _ => 0, none, true⟩, [], 0, true⟩)) (u.countLoads c (payRs ++ recRs ++ slotRs))

/-- The codes of an item with those of its zero-range groups read as zeros, whatever bits they hold (R46). -/
def LdaRead.masked (a : ArrayCfg) (x : LdaRead) : List (Option Nat) :=
  (x.data.codes.zip (List.range x.data.codes.length)).map (fun p =>
    match x.recs[p.2 / a.group]? with
    | some r => if r / 2 ^ 24 = 0 then some (if a.sense = .xnor then p.1.getD 0 else 0) else p.1
    | none => p.1)

/-- One item written into AM; a bad code or record stops the load there (R33). -/
def State.ldaItem (s : State) (c : Nat) (g : LdaGeom) (dag rag zag i : Nat) (x : LdaRead) : Reach Unit :=
  let a := g.a
  let cs := x.masked a
  match x.data.broken.or ((cs.findIdx? (·.isNone)).map x.data.codeAt) with
  | some e => .fail stMetadataInvalid (s.logEvent 0x02 stMetadataInvalid (logSource 0 c) (BitVec.ofNat 64 e))
  | none =>
    let codes := cs.map (·.getD 0)
    match (if x.padded then .ok ⟨List.replicate (a.vec * a.abits) 0,
        (List.range a.segs).flatMap (fun _ => leBytes 4 0x7f000000), 0, false, true⟩ else g.build codes x.recs) with
    | .error j =>
      .fail stMetadataInvalid (s.logEvent 0x02 stMetadataInvalid (logSource 0 c) (BitVec.ofNat 64 (x.recAt + 4 * j)))
    | .ok b =>
      match s.coreWrite c 1 .am (dag + a.vec * a.abits * i) b.planes true with
      | .wait t => .wait t
      | .fail st t => .fail st t
      | .ok _ t =>
        match t.coreWrite c 1 .am (rag + 4 * a.segs * i) b.recs true with
        | .wait u => .wait u
        | .fail st u => .fail st u
        | .ok _ u =>
          let z := b.zero && (!a.s24 || x.data.nnz0)
          .ok () (u.modCore c (fun k =>
            let k := { k with report := { k.report with clips := k.report.clips + b.clips, nonfinite := k.report.nonfinite || b.nan } }
            if g.hp.layout = 2 then
              { k with zeroMap := if z then k.zeroMap ||| BitVec.twoPow 1024 (zag + i)
                       else k.zeroMap &&& ~~~(BitVec.twoPow 1024 (zag + i)) }
            else k))

/-- The items written in order, until one fails or waits. -/
def State.ldaItems (s : State) (c : Nat) (g : LdaGeom) (dag rag zag : Nat) (xs : List LdaRead) : Reach Unit :=
  (xs.zip (List.range xs.length)).foldl (fun (acc : Reach Unit) p =>
    match acc with
    | .ok _ v => v.ldaItem c g dag rag zag p.2 p.1
    | e => e) (.ok () s)

/-- LDA. A GATHER handle without an index handle after it faults with BAD_FIELD (log 63). -/
def State.lda (s : State) (c : Nat) (w : W64) : State :=
  let k := s.core c
  let f := ldaWord w
  match k.arr with
  | none => s.tileFault c stBadField 0
  | some a =>
    let kd := (k.reg c (CORE_BOUND f.bnd)).toNat
    let hp := k.handle c f.hp
    let hr := k.handle c f.hr
    let sag := agRef c k f.sag
    let dag := agRef c k f.dag
    let rag := agRef c k f.rag
    let zag := agRef c k f.zag
    let n := f.rows * f.kblk
    if kd = 0 ∨ !hp.valid ∨ !hr.valid then s.tileFault c stShapeInvalid 0
    else if !ldaFormat a hp || (hr.layout != 0 && hr.layout != 4) || (hp.layout == 4 && (k.handle c (f.hp + 1)).layout != 5)
      || (hr.layout == 4 && (k.handle c (f.hr + 1)).layout != 5) then s.tileFault c stBadField 0
    else
      let g : LdaGeom := ⟨a, kd, hp, k.handle c (f.hp + 1), hr, sag.toNat / kd, sag.toNat % kd⟩
      if sag < 0 || g.k0 % a.blockLen ≠ 0 || !agIn dag (2 ^ 20) a.vec || !agIn rag (2 ^ 20) 1
        || decide (2 ^ 20 < dag.toNat + a.vec * a.abits * n) || decide (2 ^ 20 < rag.toNat + 4 * a.segs * n)
        || (hp.layout == 2 && (!agIn zag 1023 1 || decide (1024 < zag.toNat + n))) then s.tileFault c stShapeInvalid 0
      else
        let items := g.items f.rows f.kblk
        match (if hp.layout = 4 then
            match s.readIndex c 0 f.tk (k.handle c (f.hp + 1)) g.r0 f.rows with
            | .ok (es, sk) t => .ok (some es, sk) t
            | .wait t => .wait t
            | .fail st t => .fail st t
          else (.ok (none, 0) s : Reach (Option (List Nat) × Nat))) with
        | .wait t => t
        | .fail st t => t.tileFault c st 0
        | .ok (pidx, sk) t =>
          match (if hr.layout = 4 then
              match t.readIndex c sk f.tk (k.handle c (f.hr + 1)) g.r0 f.rows with
              | .ok (es, sk) u => .ok (some es, sk) u
              | .wait u => .wait u
              | .fail st u => .fail st u
            else (.ok (none, sk) t : Reach (Option (List Nat) × Nat))) with
          | .wait u => u
          | .fail st u => u.tileFault c st 0
          | .ok (ridx, sk) u =>
            match u.ldaRead c sk g f.tk items pidx ridx with
            | .wait v => v
            | .fail st v => v.tileFault c st 0
            | .ok xs v =>
              match v.ldaItems c g dag.toNat rag.toNat zag.toNat xs with
              | .ok _ v => v.issueLoad c f.refs
              | .wait v => v.stall c waitPort none
              | .fail st v => v.tileFault c st 0

/-- LDA. -/
def execLda (c : Nat) (s : State) : Out :=
  s.inCores <|
  withTile .lda c s (fun w => s.lda c w)

/-! ## STO (R105, R195, R224) -/

/-- The rows of a store: offset and length of each. -/
def stoRows (off n : Nat) : List (Nat × Nat) := (List.range n).map (fun i => (off + 64 * i, 64))

/-- One row read from the source of a store: its slots waited on when first met, changed after their last byte. -/
def State.stoRead (s : State) (c : Nat) (h : Handle) (off n i tk : Nat) : Reach (List Byte) :=
  match h.spm with
  | none => .fail stBadField s
  | some m =>
    let fs := freshSlots h.base (stoRows off n) i
    match s.tagHeld c 1 m (h.readKind tk) fs.1 with
    | some t => .wait (s.stallTag c t none)
    | none =>
      match s.handleRead c 1 h (off + 64 * i) 64 with
      | .ok d t => .ok d t
      | .wait t => .wait (t.stall c waitPort none)
      | r => r

/-- The source slots that no later row will read. -/
def State.stoFree (s : State) (c : Nat) (h : Handle) (off n i tk : Nat) : State :=
  match h.spm with
  | none => s
  | some m => s.modCore c (fun k =>
      (freshSlots h.base (stoRows off n) i).2.foldl (fun k sl => k.tagAfter c m sl (h.readKind tk)) k)

/-- The rows of a store from row `i` on, `fuel` of them; `put` writes one row's data. A wait keeps what is done. -/
def State.stoGo (c : Nat) (hs : Handle) (sag n tk : Nat) (put : Nat → List Byte → State → Reach Unit) (done : State → State) :
    Nat → Nat → State → State
  | 0, _, s => done s
  | fuel + 1, i, s =>
    match s.stoRead c hs sag n i tk with
    | .wait t => t
    | .fail st t => t.tileFault c st 0
    | .ok d t =>
      match put i d t with
      | .wait u => u
      | .fail st u => u.tileFault c st 0
      | .ok _ u =>
        let u := (u.stoFree c hs sag n i tk).modCore c (fun k => { k with progress := i + 1 })
        State.stoGo c hs sag n tk put done fuel (i + 1) u

/-- A row of a plain store written at its destination. -/
def State.stoPut (c : Nat) (hd : Handle) (dag n : Nat) (arr : Option Nat) (i : Nat) (d : List Byte) (s : State) :
    Reach Unit :=
  match hd.spm.bind (fun m => s.tagHeld c 1 m hd.writeKind (freshSlots hd.base (stoRows dag n) i).1) with
  | some t => .wait (s.stallTag c t none)
  | none =>
    match s.handleWrite c hd (dag + 64 * i) d true arr with
    | .wait t => .wait (t.stall c waitPort none)
    | .fail st t => .fail st t
    | .ok _ t =>
      match hd.spm with
      | none => .ok () t
      | some m => .ok () (t.modCore c (fun k =>
          (freshSlots hd.base (stoRows dag n) i).2.foldl (fun k sl => k.tagAfter c m sl hd.writeKind) k))

/-- A row of a plain store to an RLZ handle: the blocks that it completes are compressed and written, header and body (R158).
The bytes of a block that is not complete yet are kept in `inBuf`. The pair is written without tags (log 63). -/
def State.stoRlz (c : Nat) (hd hslot : Handle) (dag : Nat) (i : Nat) (d : List Byte) (s : State) : Reach Unit :=
  let w := hd.elemW
  let kept := (s.core c).inBuf
  let buf := kept ++ d
  let first := dag + 64 * i - kept.length
  let n := buf.length / (32 * w)
  let r := (List.range n).foldl (fun (acc : Reach Unit) j => acc.bind fun _ t =>
      let b := rlzBlock w ((List.range 256).map (packedAt ((buf.drop (32 * w * j)).take (32 * w)) w))
      (t.handleWrite c hd ((first + 32 * w * j) / (32 * w) * 4) b.1 true none).bind fun _ t =>
        if b.2.isEmpty then .ok () t else t.handleWrite c hslot (first + 32 * w * j) b.2 true none)
    (.ok () s)
  match r with
  | .ok _ t => .ok () (t.modCore c (fun k => { k with inBuf := buf.drop (32 * w * n) }))
  | .wait t => .wait (t.stall c waitPort none)
  | .fail st t => .fail st t

/-- Bytes of a source element and of a target element of an atomic store; none where R105 refuses. -/
def stoWidths (aop : Nat) (hs hd : Handle) : Option (AtomOp × Bool × Bool × Nat × Nat) :=
  match aop with
  | 1 => some (.add32, false, false, 4, 4)
  | 2 => some (.add64, false, false, 8, 8)
  | 4 => some (.fadd32, false, false, 4, 4)
  | _ =>
    if (hs.fmt == fmtAcc16 || hs.fmt == fmtAcc32) && (hd.fmt == fmtAcc32 || hd.fmt == fmtAcc64) then
      some (.accadd, hs.fmt == fmtAcc32, hd.fmt == fmtAcc64, if hs.fmt = fmtAcc16 then 2 else 4,
        if hd.fmt = fmtAcc32 then 4 else 8)
    else none

/-- A row of an atomic store: one operation per element. -/
def State.stoAtoms (c : Nat) (hd : Handle) (dag : Nat) (op : AtomOp) (sw tw : Bool) (es et : Nat) (i : Nat) (d : List Byte)
    (s : State) : Reach Unit :=
  let n := 64 / es
  let r := (List.range n).foldl (fun (acc : Nat × State) j =>
    if acc.1 ≠ stOk then acc
    else acc.2.coreAtomic c hd (dag + et * (n * i + j)) op sw tw (leNat ((d.drop (es * j)).take es))) (stOk, s)
  if r.1 = stOk then .ok () r.2 else .fail r.1 r.2

/-- STO: the checks at issue, then row by row. A store to an RLZ handle covers whole blocks (R158). -/
def State.sto (s : State) (c : Nat) (w : W64) : State :=
  let k := s.core c
  let hs := k.handle c (field w 13 6)
  let hd := k.handle c (field w 25 18)
  let sag := agRef c k (field w 17 14)
  let dag := agRef c k (field w 29 26)
  let aop := field w 32 30
  let arr := if field w 33 33 = 1 then some (field w 39 34) else none
  let n := field w 57 42 + 1
  let refs := [field w 17 14, field w 29 26]
  let go (put : Nat → List Byte → State → Reach Unit) : State :=
    State.stoGo c hs sag.toNat n (field w 41 40) put (fun s => s.issue c refs) (n - k.progress) k.progress s
  if sag < 0 || dag < 0 || !hs.valid || !hd.valid then s.tileFault c stShapeInvalid 0
  else if hs.spm.isNone || (arr.isSome && aop != 0) then s.tileFault c stBadField 0
  else if aop = 0 then
    if arr.isSome && decide ((hd.base + dag.toNat) % 64 ≠ 0) then s.tileFault c stBadField 0
    else if hd.layout = 2 then
      let u := 32 * hd.elemW
      if arr.isSome then s.tileFault c stBadField 0
      else if !hs.covers sag.toNat (64 * n) || u = 0 || dag.toNat % u ≠ 0 || 64 * n % u ≠ 0 then s.tileFault c stShapeInvalid 0
      else go (State.stoRlz c hd (k.handle c (field w 25 18 + 1)) dag.toNat)
    else if !hs.covers sag.toNat (64 * n) || !hd.covers dag.toNat (64 * n) then s.tileFault c stShapeInvalid 0
    else go (State.stoPut c hd dag.toNat n arr)
  else
    match stoWidths aop hs hd with
    | none => s.tileFault c stBadField 0
    | some (op, sw, tw, es, et) =>
      if !hs.covers sag.toNat (64 * n) || !hd.covers dag.toNat (64 * n / es * et) then s.tileFault c stShapeInvalid 0
      else go (State.stoAtoms c hd dag.toNat op sw tw es et)

/-- STO with AOP 0. -/
def execSto (c : Nat) (s : State) : Out :=
  s.keepEdge <| s.keepFabric <| s.keepPower <|
  withTile .sto c s (fun w => s.arriving c [field w 17 14, field w 29 26] (field w 33 33 == 1) (fun s => s.sto c w))

/-- STO with an AOP. -/
def execStoAtomic (c : Nat) (s : State) : Out :=
  s.keepEdge <| s.keepFabric <| s.keepPower <|
  withTile .stoAtomic c s (fun w => s.sto c w)

/-! ## MCAST (R225, R251, R252) -/

/-- The active cores of a mask record. -/
def State.maskCores (s : State) (bs : List Byte) : List Nat :=
  (List.range 72).filter (fun p => (bs.getD (p / 8) 0).getLsbD (p % 8) && s.coreSt p == 0)

/-- The mask record of an MCAST. -/
def State.readMask (s : State) (c : Nat) (mag : Int) : Reach (List Nat) :=
  if !agIn mag (2 ^ 20 - 16) 16 then .fail stShapeInvalid s
  else
    match s.coreRead c 3 .am mag.toNat 16 with
    | .ok bs t => .ok (t.maskCores bs) t
    | .wait t => .wait (t.stall c waitPort none)
    | .fail st t => .fail st t

/-- The tag that a row of a multicast copy waits on in a target. -/
def State.mcastTag (s : State) (hd dag n i p : Nat) : Option TagWait :=
  let h := (s.core p).handle p hd
  h.spm.bind (fun m => s.tagHeld p 4 m h.writeKind (freshSlots h.base (stoRows dag n) i).1)

/-- What the port of a target makes of a row of a multicast copy: its bank group has to wake; the mesh port has no slot or not
its turn. -/
inductive McastPort where
  | wake (gs : List Nat)
  | turn
  | free
  deriving DecidableEq, Repr

/-- The port of a target at a row of a multicast copy. -/
def State.mcastPort (s : State) (hd dag i p : Nat) : McastPort :=
  let k := s.core p
  let h := k.handle p hd
  match h.spm with
  | none => .free
  | some m =>
    let off := h.base + dag + 64 * i
    let gs := k.groupsOf p m off 64
    if k.powerCheck p gs true = .waits then .wake gs
    else if (k.present p 4 m off 64).isNone then .turn
    else .free

/-- What an MCAST has written in a core, noted: rows and pages once, arrivals each (R252). -/
def CoreState.receive (kind n : Nat) (k : CoreState) : CoreState :=
  { k with received := (if kind < 3 then k.received.filter (· != (kind, n)) else k.received) ++ [(kind, n)] }

/-- A row of a multicast copy written into one target: its status. -/
def State.mcastPut (s : State) (hd dag n i p : Nat) (arr : Option Nat) (d : List Byte) : Nat × State :=
  let k := s.core p
  let h := k.handle p hd
  match h.spm with
  | none => (stBadField, s)
  | some m =>
    if !h.covers dag (64 * n) then (stShapeInvalid, s)
    else
      match s.coreWrite p 4 m (h.base + dag + 64 * i) d false with
      | .ok _ t =>
        let t := t.modCore p (fun k => ((freshSlots h.base (stoRows dag n) i).2.foldl
          (fun k sl => k.tagAfter p m sl h.writeKind) k).bump64 p CORE_MAP_LDG_LO 64
          |>.receive (if m = .am then 0 else 1) ((h.base + dag) / 64 + i))
        (stOk, match arr with | some a => (t.arriveInc p a 1).modCore p (·.receive 3 a) | none => t)
      | .wait t => (stStateRefused, t)
      | .fail st t => (st, t)

/-- The rows of a multicast copy from row `i` on: each lands in every target once none of them blocks it. -/
def State.mcastGo (c : Nat) (hs : Handle) (sag hd dag n : Nat) (arr : Option Nat) (targets : List Nat) (done : State → State) :
    Nat → Nat → State → State
  | 0, _, s => done s
  | fuel + 1, i, s =>
    match targets.findSome? (fun p => s.mcastTag hd dag n i p) with
    | some t => s.stallTag c t none
    | none =>
    if targets.any (fun p => match s.mcastPort hd dag i p with | .free => false | _ => true) then
      (targets.foldl (fun u p =>
        match s.mcastPort hd dag i p with
        | .wake gs => u.modCore p (·.wakeGroups p gs)
        | .turn => u.modCore p (·.contend p)
        | .free => u) s).stall c waitPort none
    else
      match s.handleRead c 1 hs (sag + 64 * i) 64 with
      | .wait t => t.stall c waitPort none
      | .fail st t => t.tileFault c st 0
      | .ok d t =>
        let r := targets.foldl (fun (acc : Nat × State) p =>
          let x := acc.2.mcastPut hd dag n i p arr d
          (if acc.1 = stOk then x.1 else acc.1, x.2)) (stOk, t)
        if r.1 ≠ stOk then r.2.tileFault c r.1 0
        else State.mcastGo c hs sag hd dag n arr targets done fuel (i + 1)
          (r.2.modCore c (fun k => { k with progress := i + 1 }))

/-- MCAST kind 0. -/
def State.mcastCopy (s : State) (c : Nat) (w : W64) : State :=
  let k := s.core c
  let hs := k.handle c (field w 14 7)
  let sag := agRef c k (field w 18 15)
  let dag := agRef c k (field w 41 38)
  let n := field w 57 42 + 1
  let arr := if field w 23 23 = 1 then some (field w 29 24) else none
  if sag < 0 || dag < 0 || !hs.covers sag.toNat (64 * n) then s.tileFault c stShapeInvalid 0
  else if hs.mem ≠ memLedge then s.tileFault c stBadField 0
  else
    match s.readMask c (agRef c k (field w 22 19)) with
    | .wait t => t
    | .fail st t => t.tileFault c st 0
    | .ok ps t =>
      if arr.isSome && ps.any (fun p => decide ((((t.core p).handle p (field w 37 30)).base + dag.toNat) % 64 ≠ 0)) then
        t.tileFault c stBadField 0
      else
        State.mcastGo c hs sag.toNat (field w 37 30) dag.toNat n arr ps
          (fun s => s.issue c [field w 18 15, field w 22 19, field w 41 38]) (n - k.progress) k.progress t

/-- MCAST kind 0. -/
def execMcastCopy (c : Nat) (s : State) : Out :=
  s.inCores <|
  withTile .mcastCopy c s (fun w =>
    s.arriving c [field w 18 15, field w 22 19, field w 41 38] (field w 23 23 == 1) (fun s => s.mcastCopy c w))

/-- The fields of MCAST kind 1 as those of an LDW. -/
def mcastWord (w : W64) : LdwWord where
  form := field w 30 30
  handle := field w 14 7
  sag := field w 18 15
  pag := field w 34 31
  nblk := field w 42 35
  bnd := field w 46 43
  wag := field w 50 47
  refs := [field w 18 15, field w 22 19, field w 34 31] ++ if field w 30 30 = 1 then [field w 50 47] else []

/-- MCAST kind 1. -/
def State.mcastLoad (s : State) (c : Nat) (w : W64) : State :=
  let k := s.core c
  let f := mcastWord w
  let arr := if field w 23 23 = 1 then some (field w 29 24) else none
  match k.arr with
  | none => s.tileFault c stBadField 0
  | some a =>
    if k.reg c (CORE_BOUND f.bnd) = 0 then s.tileFault c stShapeInvalid 0
    else if (k.handle c f.handle).valid && (k.handle c f.handle).mem != memLedge then s.tileFault c stBadField 0
    else
      match s.readMask c (agRef c k (field w 22 19)) with
      | .wait t => t
      | .fail st t => t.tileFault c st 0
      | .ok ps t => if f.form = 0 then t.ldwForm0 c a f ps arr true else t.ldwForm1 c a f ps arr true

/-- MCAST kind 1. -/
def execMcastLoad (c : Nat) (s : State) : Out :=
  s.inCores <|
  withTile .mcastLoad c s (fun w => s.arriving c (mcastWord w).refs (field w 23 23 == 1) (fun s => s.mcastLoad c w))

/-! ## Page writes and acknowledgements -/

/-- A pass in flight senses the page, or its closing will read it as a scale page: a write of a scale page waits past the
pass's retirement, until its closing is done (R65 names the sensing). DESIGN CHOICE, log 63. -/
def CoreState.senses (k : CoreState) (page : Nat) : Bool :=
  k.passes.any (fun p => (!p.retired && decide (p.firstPage ≤ page ∧ page < p.firstPage + p.npages)) || p.sag / 16 == page)

/-- A page write lands: its rows, then the CRC-32, the state LOADED and the tag (R53, R72, R114). A page that was not
LOADED reads 0 in the rows that the load does not write. DESIGN CHOICE, log 63. -/
def CoreState.landPage (k : CoreState) (w : PageWrite) : CoreState :=
  let k := if (k.page w.mc w.page).st = .loaded then k
    else (List.range 256).foldl (fun k r => k.setWmRow w.mc w.page r 0) k
  let k := w.rows.foldl (fun k r => k.setWmRow w.mc w.page r.1 r.2) k
  k.setPage w.mc w.page ⟨.loaded, crc32 (k.pageBytes w.mc w.page), w.tag⟩

/-- A page write of a multicast load has been done: the load is acknowledged once none of its page writes is left (R225). -/
def State.ackPage (s : State) (a : Option (Nat × Nat)) : State :=
  match a with
  | none => s
  | some (c, id) =>
    if (List.range 72).any (fun p => (s.core p).pageWrites.any (fun w => w.ack == a)) then s else s.outstDone c id

/-- LOAD_PAGE_WRITE: the oldest page write of the core's loads completes, once no pass senses the page and the macro has
its voltage. The time of the load counts as the page's first scrub (R74): DESIGN CHOICE, log 63. -/
def execLoadPageWrite (c : Nat) (s : State) : Out :=
  s.inCores <|
  let k := s.core c
  match k.pageWrites with
  | [] => .next s
  | w :: ws =>
    if k.senses w.page then .next (s.cbump c CORE_ARR_STALL 1)
    else if k.groupSt c (16 + w.mc) = 1 then .next (s.setCore c (k.wakeGroups c [16 + w.mc]))
    else if k.groupSt c (16 + w.mc) = 4 then .next s
    else
      let k := if w.ack.isSome then k.receive 2 (pageKey w.mc w.page) else k
      let s := s.setCore c { k.landPage w with
        pageWrites := ws, scrubAt := Tab.set (fun _ => 0) k.scrubAt (pageKey w.mc w.page) s.now }
      .next ((match w.arr with | some a => (s.arriveInc c a 1).modCore c (·.receive 3 a) | none => s).ackPage w.ack)

/-- WRITE_ACK: write or atomic `i` of the core, whose destination has acknowledged it, stops counting; an atomic operation
that has failed faults the tile. -/
def execWriteAck (c i : Nat) (s : State) : Out :=
  s.inCores <|
  let k := s.core c
  let gone := s.setCore c { k with outst := k.outst.eraseIdx i }
  match k.outst[i]? with
  | none => .next s
  | some o =>
    if o.done then .next gone
    else match s.atomResps.find? (fun r => r.src == .core c o.id) with
      | none => .next s
      | some r =>
        let t := { gone with atomResps := s.atomResps.erase r }
        .next (if r.status = stOk then t else t.tileFault c r.status 0)

end Sys2Proof.Machine
end

