-- ==== Sys2Proof/Machine/Spads.lean ====
section
/-!
DEFINITION. The ports of the scratchpads: the wheel and the round robin, waiting on tags, the gather buffer, remote
access, retention and the power states of bank groups (R182 to R201).
-/

namespace Sys2Proof.Machine

/-! ## Local accesses (R184 to R186, R191 to R193) -/

/-- An access at the ports: what is known of it, or all of it when it is new. -/
def CoreState.portOf (k : CoreState) (a : SpmAcc) : PortWait :=
  (k.queued.find? (fun q => q.acc == a)).getD ⟨a, 0, rowsOf a.off a.len, []⟩

/-- An access no longer queued. -/
def CoreState.dequeue (k : CoreState) (a : SpmAcc) : CoreState :=
  { k with queued := k.queued.filter (fun q => q.acc != a) }

/-- An access queued at the ports, at the place it has there. -/
def CoreState.enqueue (k : CoreState) (q : PortWait) : CoreState :=
  { k with queued := if k.queued.any (fun x => x.acc == q.acc)
      then k.queued.map (fun x => if x.acc = q.acc then q else x) else k.queued ++ [q] }

/-- The part of an access that lies in a row: its offset and its length. -/
def accRow (a : SpmAcc) (r : Nat) : Nat × Nat :=
  (max a.off (64 * r), min (a.off + a.len) (64 * r + 64) - max a.off (64 * r))

/-- A failing access of a client: the tile of the core faults (R186, R193, R200). The mesh port is no tile's client. -/
def State.accFail (s : State) (c : Nat) (a : SpmAcc) (st : Nat) : State :=
  if a.client = 4 then s else s.tileFault c st 0

/-- The bytes that a read has brought: the feeder's go to its plane buffer (R213), the others' leave the port. -/
def CoreState.deliver (c : Nat) (k : CoreState) (a : SpmAcc) (bs : List Byte) : CoreState :=
  if a.client = 0 then k.feed c a.off bs else { k with spmOut := bs }

/-- Rows of an access moved, one after the other; what it reads is kept until the last has come. The first failing status
ends it. -/
def State.accMove (s : State) (c : Nat) (q : PortWait) (rows : List Nat) : Nat × PortWait × State :=
  rows.foldl (fun x r =>
    if x.1 ≠ stOk then x
    else
      let a := q.acc
      let p := accRow a r
      let left := { x.2.1 with rest := x.2.1.rest.filter (· != r), waited := 0 }
      if a.write then
        let w := x.2.2.spmWrite c a.mem p.1 ((a.data.drop (p.1 - a.off)).take p.2) (a.client == 1)
        (w.1, left, w.2)
      else
        let w := x.2.2.spmRead c a.mem p.1 p.2
        if w.1 = stOk then
          (stOk, { left with got := Mem.write left.got p.1 w.2.1 }, w.2.2)
        else (w.1, left, w.2.2.spmFailed c)) (stOk, q, s)

/-- The rows left that the tag lets move: those of the first unfinished slot of a tagged access, all of another (R191). -/
def PortWait.ahead (q : PortWait) : List Nat :=
  if q.acc.tag = .none then q.rest else q.rest.filter (fun r => some (r / 32) == q.rest.head?.map (· / 32))

/-- An access waits at the tag of a slot: it has moved nothing of the slot yet, and the slot's tag, or one that goes first,
holds it (R191, R192). -/
def CoreState.portHeld (c : Nat) (k : CoreState) (q : PortWait) : Bool :=
  match q.rest.head? with
  | none => false
  | some r => (max q.acc.off (2048 * (r / 32))) / 64 == r
      && k.tagHolds c q.acc.mem (r / 32) q.acc.tag (tagRank q.acc.client) []

/-- The rows of an access that the ports serve in this cycle: in the client's slot in TIMED mode; in OPEN mode each bank by
itself, in its turn (R184, R185). The Bool says that a bank served another client first. -/
def CoreState.serve (c t : Nat) (k : CoreState) (q : PortWait) (rivals : List Nat) : List Nat × Bool :=
  let rows := k.portRows c q.acc.mem q.ahead
  if k.timed c then (if wheelOwner (k.reg c CORE_SPM_WHEEL) (t % 8) = q.acc.client then rows else [], false)
  else
    let mine := rows.filter (fun r =>
      let b := k.bankOf c q.acc.mem r
      firstInTurn (k.lastServed b) q.acc.client (rivals ++ k.asking c b))
    (mine, mine.length != rows.length)

/-- After rows of an access have moved: the slot's tag once its last byte has moved, and the end of the access, or its place
at the ports. -/
def State.accSettle (s : State) (c : Nat) (was q : PortWait) : State :=
  let slot := (was.rest.headD 0) / 32
  let s := if was.acc.tag ≠ .none ∧ !q.rest.any (fun r => r / 32 == slot) then
      s.modCore c (fun k => k.tagAfter c was.acc.mem slot was.acc.tag) else s
  s.modCore c (fun k =>
    if !q.rest.isEmpty then k.enqueue q
    else if q.acc.write then k.dequeue q.acc
    else (k.dequeue q.acc).deliver c q.acc (Mem.read q.got q.acc.off q.acc.len))

/-- SPM_ACCESS: an access presented in core cycle `t`, in which the clients of `rivals` ask for its banks beside those that
are queued. What is left of it stays queued, and is presented again. A write that its port has accepted is in flight when its
group closes, and is written; one that waits on a tag, or comes later, is refused (R200). The feeder fetches what it has
decoded ahead, and nothing else (R213). -/
def execSpmAccess (c t : Nat) (acc : SpmAcc) (rivals : List Nat) (s : State) : Out :=
  s.inCore c <|
  let s := s.modCore c (fun k => { k with cyc := max t k.cyc })
  let k := s.core c
  let q := k.portOf acc
  let gone (s : State) : State := s.modCore c (·.dequeue acc)
  if 4 < acc.client ∨ acc.len = 0 then .next s
  else if acc.client = 0 ∧ (acc.write ∨ !k.feedWanted c acc.off acc.len) then .next (gone s)
  else if 2 ^ 20 < acc.off + acc.len then .next ((gone s).accFail c acc stShapeInvalid)
  else
    let gs := (q.rest.flatMap (fun r => k.groupsOf c acc.mem (64 * r) 1)).dedup
    let flying := k.queued.any (fun x => x.acc == acc) && q.waited == 0
    match k.powerCheck c gs (acc.write && !flying) with
    | .refuse => .next ((gone (s.refuseAccess c)).accFail c acc stStateRefused)
    | .waits => .next (s.modCore c (fun k => (k.wakeGroups c gs).enqueue { q with waited := 0 }))
    | .ready =>
      if k.portHeld c q then
        .next (s.modCore c (fun k => (k.enqueue { q with waited := q.waited + 1 }).bump c CORE_SPM_FE_WAIT 1))
      else
        let v := k.serve c t q rivals
        let s := s.modCore c (fun k => if v.2 then k.bump c CORE_SPM_CONT 1 else k)
        let s := if k.timed c then s
          else s.modCore c (fun k => v.1.foldl (fun k r => k.turn (k.bankOf c acc.mem r) acc.client) k)
        let r := s.accMove c q v.1
        if r.1 ≠ stOk then .next ((gone r.2.2).accFail c acc r.1)
        else .next (r.2.2.accSettle c { q with waited := 0 } { r.2.1 with waited := 0 })

/-- SPM_ECC_WRITEBACK: a corrected word goes back to its bank, with good check bits (R186). -/
def execSpmEccWriteback (c : Nat) (mem : SpmMem) (word : Nat) (s : State) : Out :=
  s.inCore c <|
  let k := s.core c
  if k.writebacks.contains (mem, word) then
    let e := Tab.get noErr (k.errs mem) word
    let k := { k with writebacks := k.writebacks.filter (· != (mem, word)) }
    .next (s.setCore c (if correctable e then k.setSpm mem (k.bytes mem) (Tab.set noErr (k.errs mem) word 0) else k))
  else .next s

/-- GATHER_ENTRY_WRITE: entry `i` of the gather buffer goes to its bank; an uncorrectable partial word faults the tile
(R456). -/
def execGatherEntryWrite (c i : Nat) (s : State) : Out :=
  s.inCore c <|
  let r := s.gatherFlush c i
  .next (r.2.faultIf c r.1)

/-! ## Remote accesses (R183, R194, R195) -/

/-- A remote access answered. -/
def State.meshAnswer (s : State) (a : RemoteAcc) (st : Nat) (data : List Byte) : State :=
  { s with meshOut := s.meshOut ++ [⟨a.issuer, a.device, a.reqTag, st, data⟩] }

/-- The same request. -/
def sameReq (a b : RemoteAcc) : Bool := a.issuer == b.issuer && a.device == b.device && a.reqTag == b.reqTag

/-- The core forgets a waiting access. -/
def CoreState.meshForget (k : CoreState) (a : RemoteAcc) : CoreState :=
  { k with meshWait := k.meshWait.filter (fun w => !sameReq w.acc a) }

/-- A waiting access at its place in the order of arrival. -/
def CoreState.meshHold (k : CoreState) (w : MeshWait) : CoreState :=
  { k with meshWait := if k.meshWait.any (fun x => sameReq x.acc w.acc)
      then k.meshWait.map (fun x => if sameReq x.acc w.acc then w else x) else k.meshWait ++ [w] }

/-- The access without its first `n` bytes. -/
def meshRest (a : RemoteAcc) (n : Nat) : RemoteAcc :=
  { a with addr := a.addr + n, len := a.len - n, data := a.data.drop n, mask := a.mask.drop n }

/-- Bytes written by a remote access, under its mask when it has one: whole rows pass the gather buffer, parts enter it;
every row of an ARRIVE write raises its counter as it lands. -/
def State.meshWrite (s : State) (c : Nat) (m : SpmMem) (off : Nat) (a : RemoteAcc) (n : Nat) : Nat × State :=
  let r := if a.mask.isEmpty then s.spmWrite c m off (a.data.take n) false
    else
      let row := (s.core c).place c m (64 * (off / 64)) / 64
      let lead := off % 64
      s.gatherPut c m row (List.replicate lead 0 ++ a.data.take n)
        (List.replicate lead false ++ (a.mask.take n))
  let r := if r.1 = stOk then r.2.gatherProbe c m off n else r
  match a.arrive with
  | some i => (r.1, if r.1 = stOk then r.2.arriveInc c i (n / 64) else r.2)
  | none => r

/-- Bytes moved through the mesh port. -/
def State.meshMove (s : State) (c : Nat) (m : SpmMem) (off : Nat) (a : RemoteAcc) (n : Nat) : Nat × List Byte × State :=
  if a.write then
    let r := s.meshWrite c m off a n
    (r.1, [], r.2)
  else
    let r := s.spmRead c m off n
    if r.1 = stOk then r else (r.1, [], r.2.2.spmFailed c)

/-- Slot by slot, as a local access, in the mesh port's slots or turn (R194): what a slot's tag, an access that goes first, or
the port holds up waits there. -/
def State.meshSlots (c : Nat) (m : SpmMem) (waited : Nat) : Nat → Nat → RemoteAcc → List Byte → State → State
  | 0, _, a, got, s => (s.modCore c (·.meshForget a)).meshAnswer a stOk got
  | n + 1, off, a, got, s =>
    let len := remoteLen a
    if len = 0 then (s.modCore c (·.meshForget a)).meshAnswer a stOk got
    else
      let k := s.core c
      let slot := off / 2048
      let part := if a.tag = .none then len else min len (2048 - off % 2048)
      if k.tagHolds c m slot a.tag (tagRank 4) (k.meshWait.takeWhile (fun w => !sameReq w.acc a)) then
        s.setCore c ((k.meshHold ⟨a, got, waited + 1⟩).bump c CORE_SPM_FE_WAIT 1)
      else
        match k.present c 4 m off part with
        | none => s.setCore c ((k.meshHold ⟨a, got, 0⟩).contend c)
        | some k =>
          let r := (s.setCore c k).meshMove c m off a part
          if r.1 ≠ stOk then (r.2.2.modCore c (·.meshForget a)).meshAnswer a r.1 []
          else
            let t := r.2.2.modCore c (fun k => k.tagAfter c m slot a.tag)
            State.meshSlots c m 0 n (off + part) (meshRest a part) (got ++ r.2.1) t

/-- A remote access to a scratchpad of a core in service. -/
def State.meshSpm (s : State) (c : Nat) (m : SpmMem) (off : Nat) (a : RemoteAcc) : State :=
  let k := s.core c
  let known := k.meshWait.find? (fun w => sameReq w.acc a)
  let w := known.getD ⟨a, [], 0⟩
  let off := off + (w.acc.addr - a.addr)
  let len := remoteLen w.acc
  if 2 ^ 20 < off + len then s.meshAnswer a stBadField []
  else
    let gs := k.groupsOf c m off len
    let flying := known.isSome && w.waited == 0
    match k.powerCheck c gs (a.write && !flying) with
    | .refuse => ((s.refuseAccess c).modCore c (·.meshForget a)).meshAnswer a stStateRefused []
    | .waits => s.setCore c ((k.wakeGroups c gs).meshHold { w with waited := 0 })
    | .ready => State.meshSlots c m w.waited (len / 2048 + 2) off w.acc w.got s

/-- An ARRIVE write that does not cover whole aligned rows (R195). -/
def badArrive (a : RemoteAcc) : Bool :=
  a.arrive.isSome && (a.addr % 64 != 0 || a.data.length % 64 != 0 || !a.mask.isEmpty)

/-- An access through the window of R183. -/
def State.remoteSpm (acc : RemoteAcc) (s : State) : State :=
  if badArrive acc then s.meshAnswer acc stBadField []
  else
    match s.addrKind acc.addr with
    | .spm i m off =>
      match s.physOf i with
      | some c => s.meshSpm c m off acc
      | none => s.meshAnswer acc stStateRefused []
    | .wm i off =>
      match s.physOf i with
      | none => s.meshAnswer acc stStateRefused []
      | some c =>
        if acc.write ∨ 2 ^ 21 < off + acc.len then s.meshAnswer acc stBadField []
        else match s.wmPort c off acc.len with
          | .ok bs t => t.meshAnswer acc stOk bs
          | .wait t => t
          | .fail st t => t.meshAnswer acc st []
    | _ => s.meshAnswer acc stBadField []

/-- REMOTE_SPM_ACCESS. -/
def execRemoteSpmAccess (acc : RemoteAcc) (s : State) : Out :=
  s.inCores <|
  .next (s.remoteSpm acc)

/-! ## The limit of a tag wait (R193) -/

/-- A wait of `n` cycles at a tag of core `c` fails: counted there, the missing cycles included (log 1). -/
def State.tagExpired (s : State) (c n : Nat) : State :=
  (s.cbump c CORE_SPM_FE_TOCNT 1).cbump c CORE_SPM_FE_WAIT ((s.core c).fld c CORE_SPM_FE_TMO 31 0 + 1 - n)

/-- TAG_WAIT_TIMEOUT: a tag wait has lasted longer than the limit of the core whose tag it is and fails; 0 sets no limit. The
instruction at the pc, the drain in the epilogue, a queued local access, or a waiting remote one, in this order. -/
def execTagWaitTimeout (c : Nat) (s : State) : Out :=
  s.inCores <|
  let k := s.core c
  let lim (p : Nat) : Nat := (s.core p).fld p CORE_SPM_FE_TMO 31 0
  match (k.waitedFor waitTag).bind (fun n => k.tagWait.map (fun w => (n, w.owner))) with
  | some (n, p) =>
    if lim p = 0 then .next s
    else
      let t := s.tagExpired p n
      let t := if tileKind k.current = some .waitf then t.cbump c CORE_SEQ_SYNCWAIT (lim p + 1 - n) else t
      .next (t.tileFault c stTimeout 0)
  | none =>
    if lim c = 0 then .next s
    else
      match k.drainWait, k.drains with
      | some w, d :: _ =>
        .next (((s.tagExpired c w.waited).modCore c (fun k => { k with drains := k.drains.tail, paid := 0, drainWait := none })).tileFaultAt
          c d.pc stTimeout 0)
      | _, _ =>
        match k.queued.find? (fun q => decide (0 < q.waited)) with
        | some q => .next (((s.tagExpired c q.waited).modCore c (·.dequeue q.acc)).accFail c q.acc stTimeout)
        | none =>
          match k.meshWait.find? (fun w => decide (0 < w.waited)) with
          | some w =>
            .next ((((s.tagExpired c w.waited).modCore c (·.meshForget w.acc)).violation 11 (logSource 0 c)).meshAnswer
              w.acc stTimeout [])
          | none => .next s

/-! ## Retention and power (R198 to R201) -/

/-- The groups that a handle's bytes lie in. -/
def CoreState.handleGroups (c : Nat) (k : CoreState) (h : Handle) : List Nat :=
  let n := 64 * h.length
  if h.mem = memAm then k.groupsOf c .am h.base n
  else if h.mem = memPm then k.groupsOf c .pm h.base n
  else if h.mem = memWm then
    (List.range 16).filterMap (fun mc =>
      if h.base < (mc + 1) * 2 ^ 17 ∧ mc * 2 ^ 17 < h.base + n then some (16 + mc) else none)
  else []

/-- Every valid handle that covers bytes of the group allows retention, and there is one (R198). -/
def CoreState.retentionAllowed (c : Nat) (k : CoreState) (g : Nat) : Bool :=
  let hs := ((List.range 256).map (k.handle c)).filter (fun h => h.valid && (k.handleGroups c h).contains g)
  !hs.isEmpty && hs.all (fun h => h.power == 1 || h.power == 2)

/-- 10 µs in NCLK cycles. -/
def tenMicros : Nat := 12000

/-- RETENTION_ENTER: the core has been without a program for 10 µs (log 1); the group's gather-buffer entries are written and it goes to retention voltage. -/
def execRetentionEnter (c group : Nat) (s : State) : Out :=
  s.inCores <|
  let k := s.core c
  if k.quiet ∧ s.coreSt c = 0 ∧ group < 32 ∧ k.groupSt c group = 0 ∧ k.retentionAllowed c group then
    let r := (s.reach (k.idleSince + tenMicros)).gatherFlushGroup c group
    .next ((r.2.faultIf c r.1).modCore c (fun k => k.setGroupSt c group 1))
  else .next s

/-- RETENTION_SCRUB_WAKE: the core's retention controller wakes a retained macro for one scrub sweep of its LOADED pages,
whatever the scrub engine's own enable; the macro is in retention after it (R198). -/
def execRetentionScrubWake (c mc : Nat) (s : State) : Out :=
  s.inCore c <|
  let k := s.core c
  if mc < 16 ∧ k.groupSt c (16 + mc) = 1 then
    .next ((k.loadedPages.filter (fun p => p / 128 == mc)).foldl (fun s p => s.scrubOne c mc (p % 128)) s)
  else .next s

/-- A group's bytes zero with valid check bits, its tags EMPTY (R199). -/
def CoreState.zeroGroup (c : Nat) (k : CoreState) (g : Nat) : CoreState :=
  let m : SpmMem := if g < 8 then .am else .pm
  let lo := (g % 8) * 131072
  let keep (w : Nat) (a : Nat) : Bool := decide (a * w < lo ∨ lo + 131072 ≤ a * w)
  let k := k.setSpm m ((k.bytes m).filter (fun e => keep 1 e.1)) ((k.errs m).filter (fun e => keep 8 e.1))
  (List.range 512).foldl (fun k sl =>
    if (k.groupsOf c m (2048 * sl) 2048).contains g then k.setTag c m sl false else k) k

/-- GROUP_WAKE_DONE: the group is ON, zero-filled when it was OFF; a request that changed meanwhile acts now. -/
def execGroupWakeDone (c group : Nat) (s : State) : Out :=
  s.inCore c <|
  let k := s.core c
  if group < 32 ∧ k.groupSt c group = 4 then
    let n := Tab.get (fun _ => 0) k.wakeNote group
    let k := (k.setGroupSt c group 0).setWakeNote group 0
    let k := if n % 2 = 1 ∧ group < 16 then k.zeroGroup c group else k
    .next (s.setCore c (if n / 2 = 1 then k.requestGroup c group (k.groupReq c group) else k))
  else .next s

/-- Writes that a port has accepted still meet the group (R200). -/
def CoreState.writesTo (c : Nat) (k : CoreState) (group : Nat) : Bool :=
  k.queued.any (fun q => q.acc.write && q.waited == 0 &&
      q.rest.any (fun r => (k.groupsOf c q.acc.mem (64 * r) 1).contains group))
    || k.meshWait.any (fun w => w.acc.write && w.waited == 0 &&
      (k.groupsOf c (windowSpm w.acc.addr).1 (windowSpm w.acc.addr).2 (remoteLen w.acc)).contains group)

/-- BANK_GROUP_CLOSED: the last write has landed, the gather buffer's entries included; the group takes the state it was
asked for. -/
def execBankGroupClosed (c group : Nat) (s : State) : Out :=
  s.inCore c <|
  let k := s.core c
  if group < 32 ∧ k.groupSt c group = 3 ∧ ¬ (16 ≤ group ∧ k.pageWrites.any (fun w => w.mc == group - 16))
      ∧ !k.writesTo c group then
    let r := s.gatherFlushGroup c group
    let t := r.2.faultIf c r.1
    .next (t.modCore c (fun k =>
      match k.groupReq c group with
      | 1 => k.setGroupSt c group 1
      | 2 => k.powerOff c group
      | _ => k.setGroupSt c group 0))
  else .next s

end Sys2Proof.Machine
end

