-- ==== Sys2Proof/Machine/Queue.lean ====
section
/-!
DEFINITION. Queues and the private pairs: doorbells, the states of a queue, fetching of entries, completions, interrupts
(R260 to R274, R278, R289, R290, R458).
-/

namespace Sys2Proof.Machine

/-! ## Sources of commands -/

/-- The queue that a source's allocations count against (R289). -/
def srcQueue : Src → Nat
  | .queue q => q
  | _ => 0

/-- Order of the sources: queues ascending, then the service port, then the BMC. -/
def srcRank : Src → Nat
  | .queue q => q
  | .usb => 64
  | .bmc => 65

/-- The SOURCE of a record about a command's source: its queue, or the MP for a private pair (R416, R419). -/
def srcSource : Src → Nat
  | .queue q => logSource 9 q
  | _ => logSource 3 0

/-- States of a queue (R263). -/
abbrev qDisabled : Nat := 0
abbrev qActive : Nat := 1
abbrev qDraining : Nat := 2
abbrev qError : Nat := 3

/-- CMDQ_Q_STAT.STATE. -/
def State.qState (s : State) (q : Nat) : Nat := s.fld (CMDQ_Q_STAT q) 31 30

/-- The queue is REMOTE. -/
def State.qRemote (s : State) (q : Nat) : Bool := (s.reg (CMDQ_Q_CFG q)).getLsbD 30

/-- Entries of the submission ring and of the completion ring. -/
def State.sqSize (s : State) (q : Nat) : Nat := 2 ^ s.fld (CMDQ_Q_CFG q) 23 20
def State.cqSize (s : State) (q : Nat) : Nat := 2 ^ s.fld (CMDQ_Q_CFG q) 19 16

/-- Ring pointers: SQ head, SQ tail, CQ head, CQ tail. -/
def State.sqHead (s : State) (q : Nat) : Nat := s.fld (CMDQ_Q_PTR q) 27 16
def State.sqTail (s : State) (q : Nat) : Nat := s.fld (CMDQ_SQDB q) 11 0
def State.cqHead (s : State) (q : Nat) : Nat := s.fld (CMDQ_CQDB q) 11 0
def State.cqTail (s : State) (q : Nat) : Nat := s.fld (CMDQ_Q_PTR q) 11 0

/-- Location codes of the rings: 0 host, 1 device, 2 peer. -/
def State.sqLoc (s : State) (q : Nat) : Nat := s.fld (CMDQ_Q_CFG q) 29 28
def State.cqLoc (s : State) (q : Nat) : Nat := s.fld (CMDQ_Q_CFG q) 27 26

/-- The 64-bit base of a ring as written. -/
def State.sqBase (s : State) (q : Nat) : Nat := s.pair (CMDQ_Q_SQBASE_LO q) (CMDQ_Q_SQBASE_HI q)
def State.cqBase (s : State) (q : Nat) : Nat := s.pair (CMDQ_Q_CQBASE_LO q) (CMDQ_Q_CQBASE_HI q)

/-- A queue of the source stands in ERROR, so that completions are discarded (R263). -/
def State.srcFailed (s : State) : Src → Bool
  | .queue q => s.qState q == qError
  | _ => false

/-! ## Doorbells (R267) -/

/-- Steps from index `a` forward to `b` on a ring of `n`. -/
def ringDist (n a b : Nat) : Nat := (b + n - a) % n

/-- A new SQ tail is on the arc from the present tail to head - 1. -/
def State.sqAccepts (s : State) (q v : Nat) : Bool :=
  let n := s.sqSize q
  decide (v < n) && decide (ringDist n (s.sqTail q) v ≤ ringDist n (s.sqTail q) ((s.sqHead q + n - 1) % n))

/-- A new CQ head is on the arc from the present head to the CQ tail. -/
def State.cqAccepts (s : State) (q v : Nat) : Bool :=
  let n := s.cqSize q
  decide (v < n) && decide (ringDist n (s.cqHead q) v ≤ ringDist n (s.cqHead q) (s.cqTail q))

/-- A doorbell write ignored: a host protocol violation and a record of its own (R267, R416). -/
def State.doorbellIgnored (s : State) (q a : Nat) : State :=
  (s.violation 4 (logSource 9 q)).logEvent 0x0C 0 (logSource 9 q) (BitVec.ofNat 64 a)

/-- A write of CMDQ_SQDB[q]. -/
def State.writeSqdb (s : State) (a : Agent) (q : Nat) (v : W32) : State :=
  s.regWrite a (CMDQ_SQDB q) v (fun v s =>
    if s.qState q = qActive ∧ ¬ s.qRemote q ∧ s.sqAccepts q v.toNat then s.setReg (CMDQ_SQDB q) v
    else s.doorbellIgnored q (CMDQ_SQDB q))

/-- CMDQ_SQDB_WRITE. -/
def execCmdqSqdbWrite (a : Agent) (q : Nat) (v : W32) (s : State) : Out :=
  s.inRegs <|
  if q < 64 then .next (s.writeSqdb a q v) else .next s

/-- A write of CMDQ_CQDB[q]. -/
def State.writeCqdb (s : State) (a : Agent) (q : Nat) (v : W32) : State :=
  s.regWrite a (CMDQ_CQDB q) v (fun v s =>
    if s.qState q = qActive ∧ s.cqAccepts q v.toNat then s.setReg (CMDQ_CQDB q) v
    else s.doorbellIgnored q (CMDQ_CQDB q))

/-- CMDQ_CQDB_WRITE. -/
def execCmdqCqdbWrite (a : Agent) (q : Nat) (v : W32) (s : State) : Out :=
  s.inRegs <|
  if q < 64 then .next (s.writeCqdb a q v) else .next s

/-! ## Configuration and states of a queue (R263, R264, R278) -/

/-- A device-memory ring of `n` bytes lies wholly in tier 1 or tier 2. -/
def State.ringOk (s : State) (base n : Nat) : Bool :=
  let a := base % 2 ^ 48
  (s.addrKind a == .tier1 || s.addrKind a == .tier2) && s.inRegion a n

/-- The queues that are REMOTE and not DISABLED, but for `q`. -/
def State.remoteQueues (s : State) (q : Nat) : Nat :=
  ((List.range 64).filter (fun i => i != q && s.qRemote i && s.qState i != qDisabled)).length

/-- The configuration in the registers of queue `q` is valid. -/
def State.qValid (s : State) (q : Nat) : Bool :=
  let cfg := s.reg (CMDQ_Q_CFG q)
  let sz (n : Nat) : Bool := decide (1 ≤ n ∧ n ≤ 12)
  let sqb := s.sqBase q
  let cqb := s.cqBase q
  let remote := s.qRemote q
  sz (regField cfg 23 20) && sz (regField cfg 19 16) && sqb % 4096 == 0 && cqb % 4096 == 0
    && decide (s.sqLoc q ≤ 1) && decide (s.cqLoc q ≤ 2)
    && (s.sqLoc q != 1 || (sqb / 2 ^ 48 == 0 && s.ringOk sqb (64 * s.sqSize q)))
    && (s.cqLoc q != 1 || (cqb / 2 ^ 48 == 0 && s.ringOk cqb (16 * s.cqSize q)))
    && (s.cqLoc q != 2 || (remote && cqb / 2 ^ 62 == 0))
    && (!remote || (s.sqLoc q == 1 && s.cqLoc q == 2 && s.fld (CMDQ_Q_PEER q) 13 0 != s.fld FAB_ID 13 0
          && decide (s.remoteQueues q < 8)))

/-- The state and cause of a queue written. -/
def State.setQ (s : State) (q st cause : Nat) : State :=
  (s.setFld (CMDQ_Q_STAT q) 31 30 st).setFld (CMDQ_Q_STAT q) 29 27 cause

/-- A queue enters ERROR (R263): recorded, and CMDQ_EVT.QERR set. -/
def State.queueError (s : State) (q cause : Nat) : State :=
  ((s.setQ q qError cause).logEvent 0x0D 0 (logSource 9 q) (BitVec.ofNat 64 (q + cause * 64))).raiseEvt evtQerr

/-- A queue enabled: pointers zero, phase 1 (R263). -/
def State.activate (s : State) (q : Nat) : State :=
  let s := (((s.setQ q qActive 0).setReg (CMDQ_SQDB q) 0).setReg (CMDQ_CQDB q) 0).setReg (CMDQ_Q_PTR q) 0
  { s with phase := Tab.set (fun _ => true) s.phase q true, qEnding := s.qEnding.filter (· != q) }

/-- A write of CMDQ_Q_CFG (R263, R264). -/
def State.writeQCfg (s : State) (a : Agent) (q : Nat) (v : W32) : State :=
  s.regWrite a (CMDQ_Q_CFG q) v (fun v s =>
    let old := s.reg (CMDQ_Q_CFG q)
    if s.qState q = qDisabled then
      let s := s.setReg (CMDQ_Q_CFG q) v
      if !v.getLsbD 31 then s
      else if s.qValid q then s.activate q
      else (s.setFld (CMDQ_Q_CFG q) 31 31 0).setQ q qDisabled 4
    else if v.setWidth 31 ≠ old.setWidth 31 then s.violation 4 (logSource 9 q)
    else
      let s := s.setReg (CMDQ_Q_CFG q) v
      if v.getLsbD 31 then s
      else if s.qState q = qActive then s.setFld (CMDQ_Q_STAT q) 31 30 qDraining
      else if s.qState q = qError ∧ !s.qEnding.contains q then { s with qEnding := s.qEnding ++ [q] }
      else s)

/-- QUEUE_ENABLE: a write of CMDQ_Q_CFG with ENABLE 1. -/
def execQueueEnable (a : Agent) (q : Nat) (v : W32) (s : State) : Out :=
  s.inRegs <|
  if q < 64 then .next (s.writeQCfg a q (v ||| BitVec.twoPow 32 31)) else .next s

/-- QUEUE_DISABLE: a write of CMDQ_Q_CFG with ENABLE 0. -/
def execQueueDisable (a : Agent) (q : Nat) (v : W32) (s : State) : Out :=
  s.inRegs <|
  if q < 64 then .next (s.writeQCfg a q (v &&& ~~~ BitVec.twoPow 32 31)) else .next s

/-- Nothing of the queue is left: no entry fetched, no command in flight, no completion unposted. -/
def State.qIdle (s : State) (q : Nat) : Bool :=
  !s.fetched.any (fun e => e.src == .queue q) && !s.cmds.any (fun x => x.src == .queue q)
    && !s.posting.any (fun p => p.src == .queue q) && !s.pend.any (fun p => p.src == .queue q)

/-- QUEUE_DRAINED: the last completion of a DRAINING queue is posted, or the discarded commands of a queue whose ENABLE was
written 0 in ERROR have finished (R263). -/
def execQueueDrained (q : Nat) (s : State) : Out :=
  s.inRegs <|
  let ends := s.qState q == qDraining || (s.qState q == qError && s.qEnding.contains q)
  if decide (q < 64) && ends && s.qIdle q then
    .next { s.setFld (CMDQ_Q_STAT q) 31 30 qDisabled with qEnding := s.qEnding.filter (· != q) }
  else .next s

/-- A write of a base or peer register of a queue: ignored, with a violation, when it changes one that is not DISABLED
(R264). -/
def State.writeQBase (a : Nat) (q : Nat) (v : W32) (s : State) : State :=
  if s.qState q ≠ qDisabled then (if v = s.reg a then s else s.violation 4 (logSource 9 q)) else s.setReg a v

/-! ## Interrupts (R274) -/

/-- CMDQ_EVT_CLEAR: each 1 clears its event. -/
def execCmdqEvtClear (a : Agent) (v : W32) (s : State) : Out :=
  s.inCores <|
  .next (s.regWrite a CMDQ_EVT v (State.plainWrite CMDQ_EVT))

/-- A vector asks for a message. -/
def State.askVector (s : State) (v : Nat) : State :=
  if s.vecReq.contains v then s else { s with vecReq := s.vecReq ++ [v] }

/-- The vector of a queue. -/
def State.qVec (s : State) (q : Nat) : Nat := s.fld (CMDQ_Q_IRQ q) 21 16

/-- The unsignalled completions of a queue: count, and when the oldest was posted. -/
def State.unsigOf (s : State) (q : Nat) : Nat × Nat := Tab.get (fun _ => ((0 : Nat), (0 : Nat))) s.unsig q

/-- The unsignalled completions of a queue written. -/
def State.setUnsig (s : State) (q : Nat) (n : Nat × Nat) : State :=
  { s with unsig := Tab.set (fun _ => ((0 : Nat), (0 : Nat))) s.unsig q n }

/-- Every completion of every queue on the vector is signalled. -/
def State.signalled (s : State) (v : Nat) : State :=
  (List.range 64).foldl (fun s q => if s.qVec q = v then s.setUnsig q (0, 0) else s) s

/-- A completion of a queue has been posted: it counts, and may ask for the vector's message. Remote queues raise no
local interrupt. -/
def State.notePosted (s : State) (q : Nat) (now : Bool) : State :=
  if s.qRemote q then s
  else
    let u := s.unsigOf q
    let n := u.1 + 1
    let s := s.setUnsig q (n, if u.1 = 0 then s.now else u.2)
    let cthr := max 1 (s.fld (CMDQ_Q_IRQ q) 7 0)
    if (s.reg (CMDQ_Q_IRQ q)).getLsbD 31 ∧ (cthr ≤ n ∨ now) then s.askVector (s.qVec q) else s

/-- The pending bit of a vector written. -/
def State.setPba (s : State) (v : Nat) (b : Bool) : State := s.setFld (CMDQ_PBA (v / 32)) (v % 32) (v % 32) b.toNat

/-- MSIX_MESSAGE: a vector that asks sends one message; a masked one sets its pending bit instead (log 6). -/
def execMsixMessage (v : Nat) (s : State) : Out :=
  s.inRegs <|
  if v < 65 ∧ s.vecReq.contains v then
    let s := { s with vecReq := s.vecReq.filter (· != v) }
    if (s.reg (CMDQ_MSIX3 v)).getLsbD 0 then .next (s.setPba v true)
    else
      let s := (if v < 64 then s.signalled v else s).setPba v false
      .next { s with msixOut := s.msixOut ++ [v] }
  else .next s

/-- A write of the vector-control word of a vector: unmasking a pending vector sends its message (log 6). -/
def State.writeMsix3 (v : Nat) (w : W32) (s : State) : State :=
  let s := s.setReg (CMDQ_MSIX3 v) w
  if !w.getLsbD 0 && (s.reg (CMDQ_PBA (v / 32))).getLsbD (v % 32) then s.askVector v else s

/-- IRQ_AGE_EXPIRY: the oldest unsignalled completion of the queue is TTHR µs old (log 1). -/
def execIrqAgeExpiry (q : Nat) (s : State) : Out :=
  s.inRegs <|
  let t := s.fld (CMDQ_Q_IRQ q) 15 8
  let u := s.unsigOf q
  if q < 64 ∧ t ≠ 0 ∧ u.1 ≠ 0 ∧ (s.reg (CMDQ_Q_IRQ q)).getLsbD 31 then
    .next ((s.reach (u.2 + t * usNclk)).askVector (s.qVec q))
  else .next s

/-! ## Completions (R266, R269, R271, R272) -/

/-- A completion decided. -/
def State.post (s : State) (p : Posting) : State := { s with posting := s.posting ++ [p] }

/-- The 16 bytes of a completion entry. -/
def Posting.bytes (p : Posting) (phase : Bool) : List Byte :=
  leBytes 1 p.status ++ leBytes 1 p.detail ++ leBytes 2 p.tag
    ++ leBytes 2 (p.flags % 256 + p.interim.toNat * 256 + phase.toNat * 32768) ++ leBytes 2 p.sqhead
    ++ leBytes 8 p.result

/-- The first completion of a source in a list, and the others. -/
def takePosting (src : Src) : List Posting → Option (Posting × List Posting)
  | [] => none
  | p :: ps => if p.src = src then some (p, ps) else (takePosting src ps).map (fun r => (r.1, p :: r.2))

/-- Completions of a source in the pending buffer. -/
def State.pendOf (s : State) (src : Src) : Nat := (s.pend.filter (fun p => p.src == src)).length

/-- CCLK cycles that a queue's pending completions have waited and that are not counted yet (R272). -/
def State.pendWait (s : State) (q : Nat) : Nat :=
  if s.pendOf (.queue q) = 0 then 0 else s.now / 2 - Tab.get (fun _ => 0) s.pendFrom q / 2

/-- The wait of a queue's pending completions is counted up to now; a completion that starts to wait now does so from now. -/
def State.countPend (s : State) (q : Nat) : State :=
  let t := s.bump (CMDQ_Q_CQSTALL q) (s.pendWait q)
  { t with pendFrom := Tab.set (fun _ => 0) t.pendFrom q s.now }

/-- CMDQ_Q_STAT.PEND brought up to date. -/
def State.showPend (s : State) : Src → State
  | .queue q => s.setFld (CMDQ_Q_STAT q) 26 22 (s.pendOf (.queue q))
  | _ => s

/-- A function that cannot be written: the link is down, the function may not master the bus, or is not in D0 (R458). -/
def State.hostWritable (s : State) : Bool := s.pcieUp && s.busMaster && s.inD0

/-- The execution-class opcodes (R292). -/
def execClass (op : Nat) : Bool :=
  op == 0x20 || op == 0x30 || op == 0x31 || op == 0x32

/-- Execution-class commands that have passed stage 3 and have not posted their final completion. -/
def State.inFlight (s : State) : Nat := (s.cmds.filter (fun x => execClass x.op)).length

/-- A RESIDENT WM handle is valid (R292): entries are the same in every core in service. -/
def State.residentWm (s : State) : Bool :=
  match s.anyCore with
  | some c => (List.range 256).any (fun h =>
      let e := (s.core c).tableHandle c h
      e.valid && e.resident && e.mem == memWm)
  | none => false

/-- A quiescence request stands (R295, R408): until the waiting command has posted its final completion, whatever it still
waits for past check 7. -/
def State.quiesced (s : State) : Bool :=
  s.renumber || s.cmds.any (·.quiet) || s.fetched.any (fun e => e.deferred.isSome &&
    !execClass (e.bytes.headD 0).toNat && !([0x11, 0x12, 0x21, 0x34].contains (e.bytes.headD 0).toNat))

/-- A final completion STATE_REFUSED counts at its queue (R270). -/
def State.countRefused (s : State) (src : Src) (status : Nat) : State :=
  match src with
  | .queue q => if status = stStateRefused then s.bump (CMDQ_Q_REFUSED q) 1 else s
  | _ => s

/-- The status is an error: neither OK nor the warning RANGE_MISS_FINAL (R302, R308). -/
def isError (st : Nat) : Bool := st != stOk && st != stRangeMissFinal

/-- A final completion by which a command that has passed stage 3 ends: PARTIAL on a failure after an output (R309). -/
def State.finish (s : State) (id status detail result : Nat) : State :=
  match s.cmds.find? (fun x => x.id == id && !x.ended) with
  | none => s
  | some x =>
    let raised := if isError status && x.wrote then x.raised ||| 128 else x.raised
    let s := s.modCmd id (fun x =>
      { x with ended := true, status := status, detail := detail, result := result, raised := raised })
    (s.countRefused x.src status).post
      ⟨x.src, some id, status, detail, x.tag, raised, x.sqhead, result, false, x.flags.testBit 0, x.born, s.nextCmd⟩

/-- Written rows leave the atomic slices (R336). -/
def State.flushSlices (s : State) : State :=
  { s with slices := (s.slices.map (fun b => (b.1, b.2.filter (fun r => !r.written)))).filter (fun b => !b.2.isEmpty) }

/-- What a drain that has ended does before anything completes: for a soft reset the device leaves its rope (R428); written
rows leave the slices. -/
def State.drained (s : State) : State := (if s.softReset.isSome && s.isMember then s.quitRope else s).flushSlices

/-- GLB_STATE brought up to date (R292, R293): FAULTED, MAINTENANCE, BOOT and OFF stay. DRAINING ends when no
execution-class command is in flight: the written rows leave the slices and the DRAIN commands complete; a SOFT_RESET
then completes too and keeps the state until it applies (R428). -/
def State.settleDev (s : State) : State :=
  let s := s.setFld GLB_STATE 16 16 s.quiesced.toNat
  let rest := if s.residentWm then devLoaded else devReady
  if s.dev = devDraining then
    if s.inFlight = 0 then
      let s := (s.cmds.filter (fun x => (x.op == 0x04 || x.op == 0x05) && !x.ended)).foldl
        (fun s x => s.finish x.id stOk 0 0) s.drained
      if s.softReset.isNone then s.setFld GLB_STATE 2 0 rest else s
    else s
  else if s.dev = devReady ∨ s.dev = devLoaded ∨ s.dev = devRunning then
    s.setFld GLB_STATE 2 0 (if s.inFlight = 0 then rest else devRunning)
  else s

/-- A device-level fault (R293). -/
def State.devFault (s : State) (cause : Nat) : State :=
  if s.dev = devOff then s else (s.setFld GLB_STATE 15 8 cause).setFld GLB_STATE 2 0 devFaulted

/-- The live piton records; the units that they take: one each, of 4,096 (R409, log 21). -/
def State.pitonRecords (s : State) : Nat := s.fld RAS_PITON 31 16
def State.pitonSet (s : State) (n : Nat) : State := (s.setFld RAS_PITON 31 16 n).setFld RAS_PITON 12 0 (min 4096 n)

/-- A final completion has been posted: its command is no longer in flight, its piton record is freed, but for that of a
WEIGHT_LOAD whose handle holds its pages (R409), and what waits for it is brought up to date. -/
def State.posted (s : State) (p : Posting) : State :=
  if p.interim then s
  else
    let keeps := s.wloads.any (fun w => some w.cmd == p.id)
    let s := match p.src with
      | .queue q => s.sample 1 q ((s.now - p.born) / 2)
      | _ => s
    let s := match p.id with
      | some id => { s with
          softPosted := s.softPosted || s.cmds.any (fun x => x.id == id && x.op == 0x05),
          cmds := s.cmds.filter (fun x => x.id != id),
          disp := s.disp.filter (fun d => d.cmd != id) }
      | none => s
    (if keeps then s else s.pitonSet (s.pitonRecords - 1)).settleDev

/-- A completion written to a queue's ring, which is not full. -/
def State.ringPost (s : State) (q : Nat) (p : Posting) : State :=
  let tail := s.cqTail q
  let ph := Tab.get (fun _ => true) s.phase q
  let bytes := p.bytes ph
  let a := s.cqBase q + 16 * tail
  let done (s : State) : State :=
    let t := (tail + 1) % s.cqSize q
    let s := s.setFld (CMDQ_Q_PTR q) 11 0 t
    let s := if t = 0 then { s with phase := Tab.set (fun _ => true) s.phase q (!ph) } else s
    (s.posted p).notePosted q (!p.interim && p.irq)
  if s.cqLoc q = 0 then
    if s.hostWritable then done { s with hmem := Mem.write s.hmem a bytes }
    else (s.posted p).queueError q 2
  else if s.cqLoc q = 1 then done (s.memWrite (a % 2 ^ 48) bytes).2
  else
    let r := (writeMsgs (a % 2 ^ 48) bytes none).foldl (fun (acc : Nat × State) m =>
      let x := acc.2.remoteSend ⟨96 + Tab.get (fun i => i) s.serve (q % 4), none, m.1, 1, a / 2 ^ 48 % 2 ^ 14, m.2, .completion q, s.now⟩
      (if acc.1 = stOk then x.1 else acc.1, x.2)) (stOk, s)
    if r.1 = stOk then done r.2 else (r.2.posted p).queueError q 3

/-- Where the completions of a private pair wait. -/
def State.pairCq (s : State) : Src → List (List Byte)
  | .usb => s.usbCq
  | _ => s.bmcCq

/-- A message on the service port's bulk-in endpoint (R291): TYPE, COUNT, SEQ, STATUS, data. -/
def usbMessage (type count seq status : Nat) (data : List Byte) : List Byte :=
  leBytes 1 type ++ leBytes 1 count ++ leBytes 2 seq ++ leBytes 1 status ++ leBytes 11 0 ++ data

/-- A completion put into the ring of a private pair, and its agent told (R284, R290); the service port's is sent (R291). -/
def State.pairPost (s : State) (src : Src) (p : Posting) : State :=
  let key := srcRank src
  let n := Tab.get (fun _ => 0) s.pairPosted key
  let b := p.bytes (n / 16 % 2 == 0)
  let t := { s.posted p with pairPosted := Tab.set (fun _ => 0) s.pairPosted key (n + 1) }
  match src with
  | .usb => { s.sameRings t with
      usbCq := s.usbCq ++ [b], usbNotes := t.usbNotes + 1, usbOut := t.usbOut ++ [usbMessage 0x84 0 0 stOk b] }
  | _ => { s.sameRings t with bmcCq := s.bmcCq ++ [b] }

/-! ## Stage 2, checks 1 to 5 (R269, R270) -/

/-- Bytes of an entry as a number. -/
def entryNat (b : List Byte) (off n : Nat) : Nat := leNat ((b.drop off).take n)

/-- OPCODE, FLAGS, TAG, VER, PLEN. -/
def Entry.op (e : Entry) : Nat := entryNat e.bytes 0 1
def Entry.flags (e : Entry) : Nat := entryNat e.bytes 1 1
def Entry.tag (e : Entry) : Nat := entryNat e.bytes 2 2
def Entry.plen (e : Entry) : Nat := entryNat e.bytes 5 1

/-- Parameter word `i`; 0 at or past PLEN (R287). -/
def Entry.word (e : Entry) (i : Nat) : Nat := if i < e.plen then entryNat e.bytes (8 + 8 * i) 8 else 0

/-- The opcodes of R297. -/
def opcodes : List Nat := [0x01, 0x02, 0x03, 0x04, 0x05, 0x06, 0x07, 0x08, 0x09, 0x0A, 0x10, 0x11, 0x12, 0x13, 0x14, 0x15,
  0x20, 0x21, 0x22, 0x30, 0x31, 0x32, 0x33, 0x34, 0x40, 0x41, 0x50, 0x51, 0x52, 0x53, 0x54, 0x60, 0x61, 0x62, 0x63, 0x64,
  0x65, 0x70, 0x71, 0x72, 0x73]

/-- The first of checks 1 to 5 that fails: status and DETAIL. -/
def Entry.framing (e : Entry) : Option (Nat × Nat) :=
  if entryNat e.bytes 4 1 ≠ 1 then some (stMalformed, 1)
  else if 8 ≤ e.flags ∨ entryNat e.bytes 6 2 ≠ 0 then some (stMalformed, 2)
  else if 7 < e.plen then some (stMalformed, 3)
  else if (e.bytes.drop (8 + 8 * e.plen)).any (· != 0) then some (stMalformed, 4)
  else if !opcodes.contains e.op then some (stBadOpcode, 0)
  else none

/-- The head of a source at stage 2. -/
def State.head (s : State) (src : Src) : Option Entry := s.fetched.find? (fun e => e.src == src)

/-- Without the first entry of a source. -/
def dropHead (src : Src) : List Entry → List Entry
  | [] => []
  | e :: es => if e.src = src then es else e :: dropHead src es

/-- The head of a source leaves stage 2. -/
def State.popHead (s : State) (src : Src) : State := { s with fetched := dropHead src s.fetched }

/-- Commands of the source that have not posted their final completion, stage 2 apart. -/
def State.earlier (s : State) (src : Src) : Bool :=
  s.cmds.any (fun x => x.src == src) || s.posting.any (fun p => p.src == src && !p.interim)
    || s.pend.any (fun p => p.src == src && !p.interim)

/-- FENCE holds the entry at stage 2 (R268). -/
def State.fenced (s : State) (e : Entry) : Bool := e.flags.testBit 2 && s.earlier e.src

/-- PWR_CAP_STATUS.UNMET is set (R311, R388). -/
def State.capUnmet (s : State) : Bool := (s.reg PWR_CAP_STATUS).getLsbD 31

/-- A final completion with no interim one before it, of an entry at stage 2. -/
def State.complete (s : State) (e : Entry) (status detail result : Nat) : State :=
  (s.countRefused e.src status).post ⟨e.src, none, status, detail, e.tag, if s.capUnmet then 16 else 0, e.sqhead, result, false,
    e.flags.testBit 0, e.born, s.nextCmd⟩

/-- What a MALFORMED or BAD_OPCODE completion counts and records (R270). -/
def State.framingFault (s : State) (e : Entry) (st d : Nat) : State :=
  let q := srcQueue e.src
  let s := s.complete e st d 0
  let s := s.logEvent 0x0B st (srcSource e.src) (BitVec.ofNat 64 (q + e.index * 64 + e.op * 2 ^ 18 + d * 2 ^ 26))
  match e.src with
  | .queue q =>
    let s := s.bump (CMDQ_Q_MALFORMED q) 1
    if s.qRemote q then s.violation 5 (logSource 9 q) else s.violation 4 (logSource 9 q)
  | _ => s.violation 4 (logSource 3 0)

/-- Heads of a source that fail checks 1 to 5 complete; the first argument bounds them. -/
def State.settleHead (src : Src) : Nat → State → State
  | 0, s => s
  | n + 1, s =>
    match s.head src with
    | none => s
    | some e =>
      if s.fenced e then s
      else match e.framing with
        | none => s
        | some (st, d) => State.settleHead src n ((s.popHead src).framingFault e st d)

/-- The head of a source leaves stage 2; the entries behind it that fail checks 1 to 5 complete. -/
def State.leave (s : State) (src : Src) : State :=
  let s := s.popHead src
  State.settleHead src s.fetched.length s

/-! ## Fetch (R268, R289) -/

/-- CP `n` is in service. -/
def State.cpServing (s : State) (n : Nat) : Bool := s.fld RAS_CP (3 * n + 2) (3 * n) == 0

/-- The command processor whose turn covers a source: its own, or the MP (5) in BOOT and FAULTED (R19, R289). -/
def State.cpOf (s : State) (src : Src) : Nat :=
  if s.dev = devBoot ∨ s.dev = devFaulted then 5
  else
    let k := match src with
      | .queue q => q % 4
      | .usb => 0
      | .bmc => 1
    Tab.get (fun i => i) s.serve k

/-- A source is ready: the first of its entries at stage 2 waits neither for FENCE nor for check 7. -/
def State.ready (s : State) (src : Src) : Bool :=
  match s.head src with
  | some e => !s.fenced e && (e.deferred.isNone || e.passed)
  | none => false

/-- A command processor takes one entry from each ready source in turn, in ascending order after the one it took last
(R268). -/
def State.inTurn (s : State) (src : Src) : Bool :=
  let last := Tab.get (fun _ => 0) s.cpTurn (s.cpOf src)
  let d (x : Src) : Nat := (srcRank x + 66 - last) % 66
  s.fetched.all (fun e => s.cpOf e.src != s.cpOf src || !s.ready e.src || decide (d src ≤ d e.src))

/-- The command processor has turned to a source. -/
def State.tookTurn (s : State) (src : Src) : State :=
  { s with cpTurn := Tab.set (fun _ => 0) s.cpTurn (s.cpOf src) (srcRank src + 1) }

/-- The unit that serves a source is running: the MP in BOOT and FAULTED, otherwise a command processor (R19, R289, R431). -/
def State.served (s : State) (src : Src) : Bool :=
  let mp := decide (3 ≤ s.bootStep) && !s.mpDown
  if s.dev = devOff then false
  else if s.dev = devBoot then (match src with | .queue _ => false | _ => mp)
  else if s.dev = devFaulted then mp
  else
    decide (7 ≤ s.bootStep) &&
    let k := match src with
      | .queue q => q % 4
      | .usb => 0
      | .bmc => 1
    s.cpServing (Tab.get (fun i => i) s.serve k)

/-- A completion as it leaves a pending buffer: where the buffer has lost it, UNCORRECTABLE with its TAG, which the piton record
gives (R402); what else it says is free (log 57). -/
def State.unpend (s : State) (p : Posting) : Posting × State :=
  if s.badWords.contains (.completion p) then
    ({ p with status := stUncorrectable, detail := (Config.freeBits 8 s.free).toNat, flags := (Config.freeBits 8 (s.free + 1)).toNat,
              result := (Config.freeBits 64 (s.free + 2)).toNat },
     { s with free := s.free + 3, badWords := s.badWords.filter (· != .completion p) })
  else (p, s)

/-- The oldest completion of a source is posted; on a full ring it waits in the pending buffer, a counted
cycle; on a queue in ERROR it is discarded and logged. -/
def State.cqPost (src : Src) (s : State) : State :=
  match src with
  | .queue q =>
    let s := s.countPend q
    let oldest : Option (Posting × State) := match takePosting src s.pend with
      | some (p, r) => some (({ s with pend := r } : State).unpend p)
      | none => match takePosting src s.posting with
        | some (p, r) => some (p, { s with posting := r })
        | none => none
    s.sameRings (match oldest with
    | none => s
    | some (p, t) =>
      if s.qState q = qError then
        (((t.posted p).showPend src).logEvent 0x0D 0 (logSource 9 q)
          (BitVec.ofNat 64 (q + s.fld (CMDQ_Q_STAT q) 29 27 * 64)))
      else if (s.cqTail q + 1) % s.cqSize q = s.cqHead q then
        let s := s.bump (CMDQ_Q_CQSTALL q) 1
        if s.pendOf src < 16 then
          match takePosting src s.posting with
          | some (p', r) => (({ s with posting := r, pend := s.pend ++ [p'] } : State).showPend src)
          | none => s
        else s
      else ((t.ringPost q p).showPend src))
  | _ =>
    if 16 ≤ (s.pairCq src).length then s
    else match takePosting src s.posting with
      | some (p, r) => (({ s with posting := r } : State).pairPost src p)
      | none => s

/-- Heads of a source that no FENCE holds any more and that fail checks 1 to 5 complete, when the source is served. -/
def State.settleSrc (s : State) (src : Src) : State :=
  s.sameRings (if s.served src then State.settleHead src s.fetched.length s else s)

/-- CQ_POST: the oldest completion of the source is posted; the head that FENCE held behind it is looked at. -/
def execCqPost (src : Src) (s : State) : Out :=
  s.keepPins <| s.keepSecure <| s.keepFabric <| s.keepCores <|
  .next ((s.cqPost src).settleSrc src)

/-- The entry of a piton record when its entry is fetched (R409): one unit (log 21). -/
def State.pitonAdd (s : State) (n : Nat) : State := s.pitonSet (s.pitonRecords + n)

/-- `n` entries of a queue's ring read: their bytes, or none when the read fails. -/
def State.readRing (s : State) (q n : Nat) (fails : Bool) : Option (List (List Byte)) × State :=
  let at' (i : Nat) : Nat := s.sqBase q + 64 * ((s.sqHead q + i) % s.sqSize q)
  if s.sqLoc q = 0 then
    if fails || !s.pcieUp then (none, s)
    else (some ((List.range n).map (fun i => Mem.read s.hmem (at' i) 64)), s)
  else
    let r := (List.range n).foldl (fun (acc : Option (List (List Byte)) × State) i =>
      let x := acc.2.memRead (at' i % 2 ^ 48) 64
      (if x.1 = stOk then acc.1.map (· ++ [x.2.1]) else none, x.2.2)) (some [], s)
    (r.1, r.2)

/-- SQ_FETCH: up to 8 entries of a queue, in ring order, enter stage 2; a failed read sends the queue to ERROR. An entry
of a private pair enters stage 2 alike. -/
def execSqFetch (src : Src) (readFails : Bool) (s : State) : Out :=
  s.keepPins <| s.keepSecure <| s.inEdge <|
  if !s.served src then .next s
  else
    match src with
    | .queue q =>
      s.keepRings <|
      let n := min 8 (ringDist (s.sqSize q) (s.sqHead q) (s.sqTail q))
      if 63 < q ∨ s.qState q ≠ qActive ∨ n = 0 ∨ 16 ≤ s.pendOf src then .next (s.settleSrc src)
      else
        match s.readRing q n readFails with
        | (none, t) => .next (t.queueError q 1)
        | (some bs, t) =>
          let h := (s.sqHead q + n) % s.sqSize q
          let es := (List.range n).map (fun i =>
            Entry.mk src ((s.sqHead q + i) % s.sqSize q) h (bs.getD i []) none false false [] s.now)
          let t := (t.setFld (CMDQ_Q_PTR q) 27 16 h).pitonAdd n
          .next (State.settleHead src 8 { t with fetched := t.fetched ++ es })
    | _ =>
      if 16 ≤ (s.pairCq src).length then .next s
      else
        let ring := if src = .usb then s.usbSq else s.bmcSq
        let key := srcRank src
        let i := Tab.get (fun _ => 0) s.pairHead key
        let n := min 8 ring.length
        let h := (i + n) % 16
        let es := (List.range n).map (fun j => Entry.mk src ((i + j) % 16) h (ring.getD j []) none false false [] s.now)
        let s : State := if src = .usb then { s with usbSq := ring.drop 8 } else { s with bmcSq := ring.drop 8 }
        let s : State := { s with pairHead := Tab.set (fun _ => 0) s.pairHead key h }
        let t := s.pitonAdd es.length
        s.keepRings (.next (State.settleHead src 8 { t with fetched := t.fetched ++ es }))

end Sys2Proof.Machine
end

