-- ==== Sys2Proof/Machine/Stage2.lean ====
section
/-!
DEFINITION. Stage 2 and 3 of a command: the fields of an entry, device states and deferral, long operations and their
progress, and the data a command processor moves for a command (R20, R21, R269, R287, R288, R292 to R296, R312).
-/

namespace Sys2Proof.Machine

/-! ## Address words (R288) -/

/-- What an address word names. -/
inductive Place where
  | host (a : Nat)
  | dev (a : Nat)
  | remote (d a : Nat)
  deriving DecidableEq, Repr

/-- The place of an address word. -/
def placeOf (w : Nat) : Place :=
  if w.testBit 63 then .host (w % 2 ^ 63)
  else if w.testBit 62 then .remote (w / 2 ^ 48 % 2 ^ 14) (w % 2 ^ 48)
  else .dev (w % 2 ^ 48)

/-- The place names this device or the host. -/
def Place.isLocal : Place → Bool
  | .remote _ _ => false
  | _ => true

/-! ## Field checks (R269, R287) -/

/-- One field check: the entry offset of the field, the status when it fails, whether it holds. -/
abbrev Check := Nat × Nat × Bool

/-- The first failing field in byte order: status and DETAIL. -/
def firstBad (cs : List Check) : Option (Nat × Nat) :=
  cs.foldl (fun acc c =>
    if c.2.2 then acc
    else match acc with
      | some (st, d) => if c.1 < d then some (c.2.1, c.1) else some (st, d)
      | none => some (c.2.1, c.1)) none

/-- Entry offset of bit `lo` of word `i`. -/
def wordAt (i lo : Nat) : Nat := 8 + 8 * i + lo / 8

/-- A field of word `i` that starts at bit `lo` holds a value its table allows. -/
def okField (i lo : Nat) (b : Bool) : Check := (wordAt i lo, stBadField, b)

/-- The bits of each parameter word that the opcode tables name (R297). -/
def usedBits : Nat → List Nat
  | 0x01 => [1]
  | 0x02 => [2 ^ 22 - 1]
  | 0x03 => [2 ^ 22 - 1]
  | 0x08 => [2 ^ 5 - 1]
  | 0x09 => [2 ^ 64 - 1, 2 ^ 25 - 1]
  | 0x0A => [2 ^ 64 - 1, 2 ^ 32 - 1]
  | 0x10 => [2 ^ 62 - 1, 2 ^ 64 - 1 - 2 ^ 31, 2 ^ 10 - 1]
  | 0x11 => [2 ^ 8 - 1]
  | 0x12 => [2 ^ 8 - 1, 2 ^ 6 - 1]
  | 0x13 => [2 ^ 64 - 1, 2 ^ 64 - 1, 2 ^ 40 - 1, 2 ^ 33 - 1, 2 ^ 64 - 1, 2 ^ 64 - 1, 2 ^ 24 - 1]
  | 0x14 => [2 ^ 64 - 1, 2 ^ 40 - 1, 2 ^ 64 - 1]
  | 0x15 => [2 ^ 64 - 1, 2 ^ 64 - 1, 2 ^ 63 + 2 ^ 32 - 1]
  | 0x20 => [2 ^ 64 - 1, 2 ^ 8 - 1]
  | 0x21 => [2 ^ 8 - 1]
  | 0x22 => [2 ^ 16 - 1]
  | 0x30 => [2 ^ 64 - 1]
  | 0x31 => [2 ^ 64 - 1, 2 ^ 10 - 1]
  | 0x32 => [2 ^ 64 - 1, 2 ^ 30 - 2 ^ 16 + 2 ^ 13 - 1, 2 ^ 64 - 1, 2 ^ 64 - 1]
  | 0x33 => [2 ^ 8 - 1, 2 ^ 25 - 1, 2 ^ 64 - 1, 2 ^ 45 - 1, 2 ^ 64 - 1]
  | 0x34 => [2 ^ 8 - 1]
  | 0x40 => [2 ^ 10 - 1]
  | 0x41 => [2 ^ 5 - 1]
  | 0x50 => [3, 2 ^ 14 - 1]
  | 0x51 => [2 ^ 64 - 1]
  | 0x52 => [2 ^ 16 - 1, 2 ^ 64 - 1, 2 ^ 14 - 1]
  | 0x53 => [2 ^ 16 - 1]
  | 0x54 => [2 ^ 5 - 1]
  | 0x60 => [2 ^ 5 - 1, 2 ^ 64 - 1]
  | 0x61 => [2 ^ 14 - 1]
  | 0x62 => [2 ^ 7 - 1]
  | 0x63 => [2 ^ 7 - 1]
  | 0x64 => [2 ^ 23 - 1, 2 ^ 16 - 1, 2 ^ 64 - 1]
  | 0x65 => [2 ^ 8 - 1]
  | 0x70 => [2 ^ 64 - 1, 2 ^ 64 - 1, 2 ^ 16 - 1]
  | 0x71 => [1, 2 ^ 64 - 1, 2 ^ 16 - 1]
  | _ => []

/-- The reserved bits of every word are zero, byte by byte. -/
def Entry.rsvChecks (e : Entry) : List Check :=
  (List.range 7).flatMap (fun i =>
    let bad := e.word i &&& (2 ^ 64 - 1 - (usedBits e.op).getD i 0)
    (List.range 8).map (fun b => (wordAt i (8 * b), stBadField, bad / 2 ^ (8 * b) % 256 == 0)))

/-- The checks of an address word in word `i`: it names nothing that the map reserves; `isLocal` for a field marked Local,
`device` for one marked Device. -/
def State.addrChecks (s : State) (e : Entry) (i : Nat) (isLocal device : Bool) : List Check :=
  let w := e.word i
  let plain := !w.testBit 63 && !w.testBit 62
  [(wordAt i 56, stBadField, !(device && w.testBit 63)),
   (wordAt i 56, stBadField, !(isLocal && !w.testBit 63 && w.testBit 62)),
   (wordAt i 48, stBadField, !plain || w / 2 ^ 48 % 2 ^ 8 == 0),
   (wordAt i 56, stBadField, !plain || w / 2 ^ 56 % 2 ^ 6 == 0),
   (wordAt i 0, stBadField, match placeOf w with
     | .dev a => s.addrKind a != .reserved
     | _ => true)]

/-- The checks of a mask of logical cores in word `i`, byte by byte (R287, R303): it names none at or above ACTIVE. -/
def State.maskChecks (s : State) (e : Entry) (i : Nat) : List Check :=
  let bad := e.word i / 2 ^ s.active * 2 ^ s.active
  (List.range 8).map (fun b => (wordAt i (8 * b), stBadField, bad / 2 ^ (8 * b) % 256 == 0))

/-! ## What the device state makes of an opcode (R294, R295) -/

/-- The letters of R294. -/
inductive Gate where
  | accept
  | refuse
  | defer
  | maint
  | use
  deriving DecidableEq, Repr

/-- A row of the table of R294: the letters in BOOT, READY, LOADED, RUNNING, DRAINING, MAINTENANCE, FAULTED. -/
def gateRow (b r l run d m f : Gate) (dev : Nat) : Gate :=
  match dev with
  | 1 => b
  | 2 => r
  | 3 => l
  | 4 => run
  | 5 => d
  | 6 => m
  | 7 => f
  | _ => .refuse

/-- The table of R294. -/
def gateOf (op : Nat) : Nat → Gate :=
  if [0x01, 0x08, 0x40, 0x41].contains op then gateRow .accept .accept .accept .accept .accept .accept .accept
  else if [0x02, 0x03, 0x09, 0x0A, 0x51, 0x70, 0x71, 0x05].contains op then
    gateRow .refuse .accept .accept .accept .accept .accept .accept
  else if op = 0x04 then gateRow .refuse .accept .accept .accept .accept .refuse .refuse
  else if op = 0x06 then gateRow .refuse .accept .accept .defer .defer .accept .refuse
  else if op = 0x07 ∨ op = 0x60 then gateRow .refuse .refuse .refuse .refuse .refuse .maint .refuse
  else if op = 0x10 ∨ op = 0x33 then gateRow .refuse .accept .accept .accept .refuse .refuse .refuse
  else if [0x11, 0x12, 0x21, 0x34].contains op then gateRow .refuse .accept .accept .use .use .accept .refuse
  else if [0x13, 0x14, 0x15, 0x32].contains op then gateRow .refuse .accept .accept .accept .refuse .accept .refuse
  else if [0x20, 0x30, 0x31].contains op then gateRow .refuse .accept .accept .accept .refuse .refuse .refuse
  else if op = 0x22 ∨ op = 0x54 then gateRow .refuse .accept .accept .accept .accept .accept .refuse
  else if op = 0x50 then gateRow .refuse .accept .accept .refuse .refuse .accept .refuse
  else if op = 0x52 ∨ op = 0x53 then gateRow .refuse .accept .accept .defer .defer .accept .refuse
  else if op = 0x61 ∨ op = 0x62 then gateRow .refuse .accept .accept .defer .defer .maint .refuse
  else if [0x63, 0x64, 0x65].contains op then gateRow .refuse .refuse .refuse .accept .accept .accept .refuse
  else gateRow .refuse .refuse .refuse .refuse .refuse .refuse .refuse

/-- A command in flight uses the handle, the weights or the work list that the entry names. -/
def State.inUse (s : State) (e : Entry) : Bool :=
  let h := e.word 0 % 256
  if e.op = 0x34 then s.cmds.any (fun x => x.useLists.contains h || x.lists.contains h)
  else s.cmds.any (fun x => x.uses.contains h)

/-- What check 7 answers: pass, refuse, or wait. -/
def State.gate (s : State) (e : Entry) : Gate :=
  match gateOf e.op s.dev with
  | .refuse => .refuse
  | .defer => .defer
  | .maint => if s.inFlight = 0 then .accept else .defer
  | .use => if s.inUse e then .defer else .accept
  | .accept => if execClass e.op && s.quiesced then .defer else .accept

/-- A command refused for the device state (R269, R270). -/
def State.stateRefuse (s : State) (e : Entry) : State :=
  (s.complete e stStateRefused s.dev 0).violation 9 (srcSource e.src)

/-- What the body of a command answers at stage 3: it is done with the entry; it holds the entry at stage 2 until more of
what it reads has come. -/
inductive Ran where
  | done (s : State)
  | hold (s : State)

/-- The body of an opcode past check 7. -/
abbrev Body := Entry → State → Ran

/-- What check 6 makes of an entry: it waits for memory that it reads, or its own checks (DETAIL of a descriptor field is
0x80 and more) with the copy of what it has read. -/
inductive Checked where
  | wait (s : State)
  | done (cs : List Check) (copy : List Byte) (s : State)

/-- The checks of an opcode. -/
abbrev Checks := Entry → State → Checked

/-- Checks that read no memory. -/
def fields (f : Entry → State → List Check) : Checks := fun e s => .done (f e s) [] s

/-- No field has a check of its own. -/
def noFields : Checks := fields (fun _ _ => [])

/-- Piton records of commands past stage 3, and of pages that a WEIGHT_LOAD has written (R409). -/
def State.pitonHeld (s : State) : Nat :=
  s.cmds.length + (s.wloads.filter (fun w => !s.cmds.any (fun x => x.id == w.cmd))).length

/-- The body of an entry that has passed check 7, its entry taken from stage 2; put back at the head when it holds. It waits at
stage 3 for space in the piton store, each try a counted cycle (R409). -/
def State.runBody (s : State) (e : Entry) (body : Body) : State :=
  if 4096 ≤ s.pitonHeld then
    { s.bump RAS_PITON_WAIT 1 with fetched := { e with passed := true } :: (s.popHead e.src).fetched }
  else
  match body e (s.popHead e.src) with
  | .done t => (State.settleHead e.src t.fetched.length t).settleDev
  | .hold t => { t with fetched := { e with passed := true } :: t.fetched }

/-- What a failed check 6 counts: METADATA_INVALID its class, NOT_SECURE and AUTH_FAILED theirs (R419). -/
def State.fieldFault (s : State) (e : Entry) (st d : Nat) : State :=
  let s := s.complete e st d 0
  if st = stMetadataInvalid then s.violation 13 (srcSource e.src)
  else if st = stNotSecure ∨ st = stAuthFailed then s.violation 8 (srcSource e.src)
  else s

/-- Check 7 and the body. -/
def State.check7 (s : State) (e : Entry) (body : Body) : State :=
  if e.passed then s.runBody e body
  else
    match s.gate e with
    | .refuse => (s.popHead e.src).stateRefuse e |> fun t => State.settleHead e.src t.fetched.length t
    | .accept => s.runBody e body
    | _ =>
      let e' := { e with deferred := some s.deferNo, checked := true }
      ({ s.popHead e.src with fetched := e' :: (s.popHead e.src).fetched, deferNo := s.deferNo + 1 } : State).settleDev

/-- A command of an opcode at the head of a source's stage 2, when its command processor's turn comes to the source (R268): the
checks 6 and 7 in order, then its body. A command that waits (for FENCE, deferred, or for what it reads) stays. -/
def State.stage2 (s : State) (op : Nat) (src : Src) (checks : Checks) (body : Body) : State :=
  if !s.served src || !s.inTurn src then s
  else
    match s.head src with
    | none => s
    | some e =>
      if e.op ≠ op ∨ !s.ready src then s
      else
      let s := s.tookTurn src
      if e.checked || e.passed then s.check7 e body
      else
        match checks e s with
        | .wait t => t
        | .done cs copy t =>
          match firstBad (e.rsvChecks ++ cs) with
          | some (st, d) =>
            let t := (t.popHead src).fieldFault e st d
            State.settleHead src t.fetched.length t
          | none =>
            let e' := { e with checked := true, copy := copy }
            ({ t.popHead src with fetched := e' :: (t.popHead src).fetched } : State).check7 e' body

/-! ## Commands past stage 3 -/

/-- A command made, with nothing done. -/
def Entry.cmd (e : Entry) (id now : Nat) (quiet : Bool) (unit total : Nat) : Cmd where
  id := id
  src := e.src
  op := e.op
  flags := e.flags
  tag := e.tag
  sqhead := e.sqhead
  words := (List.range 7).map e.word
  layer := none
  chain := []
  past := []
  kept := []
  srcs := []
  stale := false
  raised := 0
  status := stOk
  failed := none
  detail := 0
  result := 0
  ended := false
  closing := false
  quiet := quiet
  acks := 0
  members := []
  lists := []
  uses := []
  useLists := []
  unit := unit
  total := total
  done := 0
  shown := 0
  layers := 0
  badLayer := 0xFFFF
  sum := 0
  shortest := 0
  longest := 0
  clips := 0
  amisses := 0
  stopped := false
  wrote := false
  nonreplay := false
  rounds := 0
  since := now
  nextProg := now
  born := e.born

/-- Progress units (R273). -/
abbrev unitPercent : Nat := 0
abbrev unitBytes : Nat := 1
abbrev unitDevices : Nat := 2
abbrev unitPages : Nat := 3
abbrev unitNone : Nat := 4

/-- The RESULT of an interim completion (R273). -/
def progressWord (unit v : Nat) : Nat := unit * 2 ^ 62 + v % 2 ^ 62

/-- An interim completion. -/
def State.interim (s : State) (x : Cmd) (status result : Nat) : State :=
  s.post ⟨x.src, some x.id, status, 0, x.tag, x.raised, x.sqhead, result, true, false, x.born, s.nextCmd⟩

/-- The numbers of commands that the state names. -/
def State.namedCmds (s : State) : List Nat :=
  s.cmds.map (·.id) ++ s.disp.map (·.cmd) ++ s.rings.flatMap (fun r => r.2.map (·.cmd)) ++ s.backlog.map (·.cmd) ++ s.driveCmds.map (·.cmd)
    ++ s.staging.map (·.cmd)

/-- The number of the next command: past every number in use. -/
def State.freshCmd (s : State) : Nat := s.namedCmds.foldl (fun n i => max n (i + 1)) s.nextCmd

/-- A command passes stage 3: a short one with no interim completion, a long one with ACCEPTED and its total (R312). A
deferred command keeps its quiescence request until its final completion is posted, but for MAINT_ENTER (R295). -/
def State.start (s : State) (e : Entry) (unit total : Nat) : Nat × State :=
  let id := s.freshCmd
  let deferred := e.deferred.isSome && !execClass e.op && !([0x11, 0x12, 0x21, 0x34, 0x06].contains e.op)
  let x := { e.cmd id s.now deferred unit total with raised := if s.capUnmet then 16 else 0 }
  let s : State := { s with nextCmd := id + 1, cmds := s.cmds ++ [x] }
  let s := if unit < unitNone then s.interim x stAccepted (progressWord unit total) else s
  (id, if execClass e.op then s.settleDev else s)

/-- Two ranges meet. -/
def meet (a b : Nat × Nat) : Bool := decide (a.1 < b.1 + b.2) && decide (b.1 < a.1 + a.2)

/-- A command is about to write device ranges: the sources of other commands that they meet are no longer intact (R413). -/
def State.noteWrites (s : State) (id : Nat) (rs : List (Nat × Nat)) : State :=
  { s with cmds := s.cmds.map (fun x =>
      if x.id != id && x.srcs.any (fun a => rs.any (meet a)) then { x with stale := true } else x) }

/-- A command reads device ranges (R409). -/
def State.noteSources (s : State) (id : Nat) (rs : List (Nat × Nat)) : State :=
  s.modCmd id (fun x => { x with srcs := x.srcs ++ rs })

/-- RESULT of an execution-class command (R297, R307). -/
def Cmd.execResult (x : Cmd) : Nat :=
  if x.op = 0x30 then
    x.shortest % 2 ^ 11 + x.longest % 2 ^ 11 * 2 ^ 11 + min x.clips (2 ^ 24 - 1) * 2 ^ 24 + min x.amisses (2 ^ 16 - 1) * 2 ^ 48
  else if x.op = 0x31 then x.layers % 2 ^ 16 + x.badLayer % 2 ^ 16 * 2 ^ 16
  else x.sum % 2 ^ 32

/-- A command by its id. -/
def State.cmd (s : State) (id : Nat) : Option Cmd := s.cmds.find? (fun x => x.id == id)

/-- The final status of a command is decided; it completes once what it waits for is acknowledged (R20). -/
def State.conclude (s : State) (id status detail result : Nat) : State :=
  match s.cmd id with
  | none => s
  | some x =>
    if x.acks = 0 then s.finish id status detail result
    else s.modCmd id (fun x => { x with closing := true, status := status, detail := detail, result := result })

/-- A write of a command is acknowledged, or has failed. -/
def State.cmdAck (s : State) (id status : Nat) : State :=
  let s := s.modCmd id (fun x => { x with
    acks := x.acks - 1, status := (if x.status = stOk then status else x.status), wrote := x.wrote || status == stOk })
  match s.cmd id with
  | some x => if x.closing && !x.ended && x.acks == 0 then s.finish id x.status x.detail x.result else s
  | none => s

/-- A short command that has run: its final completion. A deferred one is a command of its own until it is posted. -/
def State.short (s : State) (e : Entry) (status detail result : Nat) : State :=
  if e.deferred.isSome then
    let r := s.start e unitNone 0
    r.2.conclude r.1 status detail result
  else s.complete e status detail result

/-- A quota refusal (R279). -/
def State.quotaRefuse (s : State) (e : Entry) (d : Nat) : State :=
  (s.short e stQuota d 0).violation 10 (srcSource e.src)

/-! ## Progress (R273, R298, R312) -/

/-- What is done of a command: for a DRAIN, the commands in flight at acceptance that have completed. -/
def State.doneOf (s : State) (x : Cmd) : Nat :=
  if x.op = 0x04 then x.total - (x.members.filter (fun i => s.cmds.any (fun y => y.id == i))).length else x.done

/-- The progress value of a command, which never decreases. -/
def State.progressOf (s : State) (x : Cmd) : Nat :=
  let d := s.doneOf x
  max x.shown (if x.unit = unitPercent then (if x.total = 0 then 0 else 10000 * d / x.total) else d)

/-- Progress reported: the value stays the least of what is reported later. -/
def State.report (s : State) (x : Cmd) : Nat × State :=
  let v := s.progressOf x
  (progressWord x.unit v, s.modCmd x.id (fun y => { y with shown := v }))

/-- PROGRESS_INTERVAL: a running long command with PROG set, on a queue whose PROGMS is not 0, receives a PROGRESS interim
completion; PROGMS ms have passed since the last (log 1). -/
def execProgressInterval (id : Nat) (s : State) : Out :=
  s.inRegs <|
  match s.cmd id with
  | none => .next s
  | some x =>
    let ms := match x.src with
      | .queue q => s.fld (CMDQ_Q_CFG q) 15 8
      | _ => 0
    if x.ended ∨ unitNone ≤ x.unit ∨ ¬ x.flags.testBit 1 ∨ ms = 0 then .next s
    else
      let due := x.nextProg + ms * msNclk
      let s := (s.reach due).modCmd id (fun y => { y with nextProg := due })
      let r := s.report x
      .next (r.2.interim x stProgress r.1)

/-! ## Deferral (R296) -/

/-- The source of the earliest deferred command that check 7 now passes or refuses. -/
def State.dueDeferred (s : State) : Option Entry :=
  (s.fetched.filter (fun e => e.deferred.isSome && !e.passed && s.gate e != .defer)).foldl
    (fun acc e => match acc with
      | none => some e
      | some d => if e.deferred.getD 0 < d.deferred.getD 0 then some e else some d) none

/-! ## Data that a command processor moves for a command -/

/-- The ISSUER code of the unit that serves a source (R347). -/
def State.issuerOf (s : State) (src : Src) : Nat :=
  96 + Tab.get (fun i => i) s.serve (match src with
    | .queue q => q % 4
    | .usb => 0
    | .bmc => 1)

/-- A read by a command processor of another device's rows: those that have come, or READ messages and a wait. -/
def State.cpRead (s : State) (issuer dev a n : Nat) : Reach (List Byte) :=
  let rows := (List.range (if n = 0 then 0 else (a + n - 1) / 64 - a / 64 + 1)).map (fun i => dev * 2 ^ 42 + (a / 64 + i))
  let missing := rows.filter (fun r => !s.cpRows.contains r)
  match s.cpBad.find? (fun b => rows.contains b.1) with
  | some b => .fail b.2 { s with cpBad := s.cpBad.filter (fun b => !rows.contains b.1) }
  | none =>
  if missing.isEmpty then
    .ok (Mem.read s.cpIn (dev * 2 ^ 48 + a) n) { s with cpRows := s.cpRows.filter (fun r => !rows.contains r) }
  else if s.remoteReqs.any (fun r => r.src == .cpRead) then .wait s
  else
    let r := missing.foldl (fun (acc : Nat × State) row =>
      let x := acc.2.remoteSend ⟨issuer, none, 3, 1, dev, ⟨row % 2 ^ 42, 0, 0, []⟩, .cpRead, s.now⟩
      (if acc.1 = stOk then x.1 else acc.1, x.2)) (stOk, s)
    if r.1 = stOk then .wait r.2 else .fail r.1 r.2

/-- Bytes that an address word names, read by a command processor. A host read that cannot be made fails UNCORRECTABLE
(log 22). -/
def State.getData (s : State) (src : Src) (w n : Nat) : Reach (List Byte) :=
  match placeOf w with
  | .host a => if s.pcieUp ∧ s.busMaster then .ok (Mem.read s.hmem a n) s else .fail stUncorrectable s
  | .dev a => s.devRead a n
  | .remote d a => s.cpRead (s.issuerOf src) d a n

/-- The command has written output (R309). -/
def State.noteOutput (s : State) (id : Nat) : State := s.modCmd id (fun x => { x with wrote := true })

/-- Bytes written where an address word names, for command `id`: remote rows are acknowledged later (R20). A host write
that cannot be made is lost (log 22). -/
def State.putData (s : State) (src : Src) (id w : Nat) (data : List Byte) : Reach Unit :=
  if data.isEmpty then .ok () s
  else
  match placeOf w with
  | .host a =>
    .ok () (if s.pcieUp && s.busMaster then { s with hmem := Mem.write s.hmem a data }.noteOutput id else s)
  | .dev a => (s.devWrite a data).bind (fun _ t => .ok () (t.noteOutput id))
  | .remote d a =>
    let r := (writeMsgs a data none).foldl (fun (acc : Nat × State) m =>
      let x := acc.2.remoteSend ⟨s.issuerOf src, none, m.1, 1, d, m.2, .cmd id, s.now⟩
      if x.1 = stOk then (acc.1, x.2.modCmd id (fun y => { y with acks := y.acks + 1 }))
      else (if acc.1 = stOk then x.1 else acc.1, x.2)) (stOk, s)
    if r.1 = stOk then .ok () r.2 else .fail r.1 r.2

/-- A command whose effect is to write bytes to a destination and complete with a RESULT. -/
def State.deliver (s : State) (e : Entry) (w : Nat) (data : List Byte) (result : Nat) : Ran :=
  let r := s.start e unitNone 0
  match r.2.putData e.src r.1 w data with
  | .ok _ t => .done (t.conclude r.1 stOk 0 result)
  | .fail st t => .done (t.conclude r.1 st 0 0)
  | .wait _ => .hold s

/-! ## Handles (R196, R206, R279, R300) -/

/-- The handle table is the same in every core in service but for nothing: an entry as a core in service holds it. -/
def State.handle (s : State) (h : Nat) : Handle :=
  match s.anyCore with
  | some c => (s.core c).tableHandle c h
  | none => handleOf 0

/-- An entry written into every core that is not fenced. -/
def State.setHandles (s : State) (h : Nat) (e : Handle) : State :=
  (List.range 72).foldl (fun s c => if s.coreSt c = 2 then s else s.modCore c (fun k => k.setHandle c h e)) s

/-- Granules of 64 KiB that a ledge handle covers, by ledge granule number (1,024 per die). -/
def Handle.granules (h : Handle) : List Nat :=
  if h.mem = memLedge then
    (List.range (ceilDiv (64 * h.length) 65536)).map (fun i => (h.base - 0x8000000000) / 65536 + i)
  else []

end Sys2Proof.Machine
end

