-- ==== Sys2Proof/Machine/Mailbox.lean ====
section
/-!
DEFINITION. The mailboxes and the secure operations of channels 8 and 9 (R281 to R286, R433 to R437).
-/

namespace Sys2Proof.Machine

/-! ## Channels (R281, R282) -/

/-- States of a channel (MBX_STAT.STATE). -/
abbrev mbxFree : Nat := 0
abbrev mbxLocked : Nat := 1
abbrev mbxSent : Nat := 2
abbrev mbxAcked : Nat := 3
abbrev mbxTimedOut : Nat := 4

/-- Owner numbers. -/
def agentNo : Agent → Nat
  | .host => 1
  | .cp n => 2 + n
  | .mp => 7
  | .usb => 8
  | .bmc => 9

/-- The MBX_STAT fields of a channel. -/
def State.mbxSt (s : State) (ch : Nat) : Nat := s.fld (MBX_STAT ch) 31 28
def State.mbxOwner (s : State) (ch : Nat) : Nat := s.fld (MBX_STAT ch) 27 24
def State.mbxDest (s : State) (ch : Nat) : Nat := s.fld (MBX_STAT ch) 19 16

/-- State and owner of a channel written. -/
def State.setMbx (s : State) (ch st owner : Nat) : State :=
  ((s.setFld (MBX_STAT ch) 31 28 st).setFld (MBX_STAT ch) 27 24 owner).setReg (MBX_LOCK ch) (BitVec.ofNat 32 owner)

/-- RCODE and LEN of a channel written. -/
def State.setReply (s : State) (ch rcode len : Nat) : State :=
  (s.setFld (MBX_STAT ch) 15 8 rcode).setFld (MBX_STAT ch) 6 0 len

/-- The SOURCE of a mailbox record. -/
def mbxSource (ch : Nat) : Nat := logSource 10 ch

/-- A mailbox event recorded (R416). -/
def State.mbxLog (s : State) (ch agent : Nat) : State :=
  s.logEvent 0x0E 0 (mbxSource ch) (BitVec.ofNat 64 (ch + agent * 16))

/-- An agent is told of a message (event 0), an acknowledgement (1) or a timeout (2) (R284). -/
def State.mbxTell (s : State) (agent event : Nat) : State :=
  if agent = 1 then s.raiseEvt event
  else if agent = 8 then { s with usbNotes := s.usbNotes + 1 }
  else if agent = 9 then s
  else { s with mbxBell := Tab.set (fun _ => 0) s.mbxBell agent (Tab.get (fun _ => 0) s.mbxBell agent + 1) }

/-- A receiver that cannot take a message (R285). -/
def State.mbxDead (s : State) (agent : Nat) : Bool :=
  if agent = 1 then !s.pcieUp || s.d3hot
  else if agent = 7 then s.mpDown || decide (s.bootStep < 3) || (s.dev == devFaulted && s.fld GLB_STATE 15 8 == 4)
  else if agent = 8 then !s.usbUp
  else if agent = 9 then false
  else decide (s.bootStep < 6) || s.fld RAS_CP (3 * (agent - 2) + 2) (3 * (agent - 2)) == 2

/-- A read of MBX_LOCK: a FREE channel is taken, and 0 returned. -/
def State.mbxLockRead (s : State) (a : Agent) (ch : Nat) : W32 × State :=
  if !s.reads a (MBX_LOCK ch) then (0, s)
  else if s.mbxSt ch = mbxFree then (0, s.setMbx ch mbxLocked (agentNo a))
  else (BitVec.ofNat 32 (s.mbxOwner ch), s)

/-- MBX_LOCK_READ. -/
def execMbxLockRead (a : Agent) (ch : Nat) (s : State) : Out :=
  s.inRegs <|
  if ch < 10 then
    let r := s.mbxLockRead a ch
    .next (r.2.answer a r.1)
  else .next s

/-- A write of MBX_LOCK: 0 by the owner frees the channel, 0 by another counts; another value does nothing. -/
def State.mbxRelease (s : State) (a : Agent) (ch : Nat) (v : W32) : State :=
  s.regWrite a (MBX_LOCK ch) v (fun v s =>
    if v ≠ 0 then s
    else if s.mbxOwner ch = agentNo a then s.setMbx ch mbxFree 0
    else s.violation 2 (mbxSource ch))

/-- MBX_LOCK_RELEASE. -/
def execMbxLockRelease (a : Agent) (ch : Nat) (s : State) : Out :=
  s.inRegs <|
  if ch < 10 then .next (s.mbxRelease a ch 0) else .next s

/-- A mailbox write ignored for the channel's state (R283, R419). -/
def State.mbxIgnore (s : State) (a : Agent) (ch : Nat) : State := (s.mbxLog ch (agentNo a)).violation 6 (mbxSource ch)

/-- A receiver's write after TIMEOUT (R285). -/
def State.mbxLate (s : State) (ch : Nat) (ack : Bool) : State :=
  let s := (s.bump (MBX_LATE ch) 1).violation 7 (mbxSource ch)
  if ack && s.mbxOwner ch == 1 then s.raiseEvt evtMbxTmo else s

/-- A write of MBX_DATA: by the owner while LOCKED or ACKED, by the receiver while SENT. -/
def State.mbxData (s : State) (a : Agent) (ch i : Nat) (v : W32) : State :=
  s.regWrite a (MBX_DATA ch i) v (fun v s =>
    let st := s.mbxSt ch
    let me := agentNo a
    if ((st = mbxLocked ∨ st = mbxAcked) ∧ s.mbxOwner ch = me) ∨ (st = mbxSent ∧ s.mbxDest ch = me) then s.setReg (MBX_DATA ch i) v
    else if st = mbxTimedOut ∧ s.mbxDest ch = me then s.mbxLate ch false
    else s.mbxIgnore a ch)

/-- MBX_DATA_WRITE. -/
def execMbxDataWrite (a : Agent) (ch i : Nat) (v : W32) (s : State) : Out :=
  s.inRegs <|
  if ch < 10 ∧ i < 16 then .next (s.mbxData a ch i v) else .next s

/-- A read of MBX_DATA: 0 on a secure channel in use, but for its owner and the MP (R286). -/
def State.mbxDataRead (s : State) (a : Agent) (ch i : Nat) : W32 :=
  if !s.reads a (MBX_DATA ch i) then 0
  else if 8 ≤ ch ∧ s.mbxSt ch ≠ mbxFree ∧ s.mbxOwner ch ≠ agentNo a ∧ agentNo a ≠ 7 then 0
  else s.reg (MBX_DATA ch i)

/-! ## Messages (R283, R285, R286) -/

/-- The 64 bytes of a message buffer. -/
def State.mbxBytes (s : State) (ch : Nat) : List Byte := (List.range 16).flatMap (fun i => leBytes 4 (s.reg (MBX_DATA ch i)).toNat)

/-- The channel becomes ACKED, and its owner is told. -/
def State.mbxAcks (s : State) (ch rcode len : Nat) : State :=
  ((s.setFld (MBX_STAT ch) 31 28 mbxAcked).setReply ch rcode len).mbxTell (s.mbxOwner ch) evtMbxAck

/-- The MP answers a secure request: a reply of 64 bytes, or none; a refusal for security counts (R419). -/
def State.mpAnswer (s : State) (ch rcode : Nat) (reply : List Byte) : State :=
  let s := if reply.isEmpty then s else (List.range 16).foldl (fun s i =>
    s.setReg (MBX_DATA ch i) (BitVec.ofNat 32 (leNat ((reply.drop (4 * i)).take 4)))) s
  let s := s.mbxAcks ch rcode reply.length
  if rcode = stNotSecure ∨ rcode = stAuthFailed then s.violation 8 (mbxSource ch) else s

/-- The secure operations. -/
def secureOps : List Nat := [0x01, 0x02, 0x03, 0x04, 0x10, 0x11, 0x12]

/-- The channel becomes TIMEOUT, and its owner is told. -/
def State.mbxExpires (s : State) (ch : Nat) : State :=
  ((s.setFld (MBX_STAT ch) 31 28 mbxTimedOut).setFld (MBX_STAT ch) 15 8 stTimeout).mbxTell (s.mbxOwner ch) evtMbxTmo

/-- The answer to a secure request whose OP is not one of the secure operations: NOT_SECURE where it names an operation of the
command set (R286), BAD_FIELD where it names none (R436; log 31). -/
def otherOp (op : Nat) : Nat := if opcodes.contains op then stNotSecure else stBadField

/-- A write of MBX_SEND: on a secure channel a receiver other than the MP is answered at once, whatever its number (R286); a
secure request that names no secure operation too (log 31). -/
def State.mbxSend (s : State) (a : Agent) (ch : Nat) (v : W32) : State :=
  s.regWrite a (MBX_SEND ch) v (fun v s =>
    let dest := regField v 19 16
    let len := regField v 6 0
    if s.mbxSt ch ≠ mbxLocked ∨ s.mbxOwner ch ≠ agentNo a then s.mbxIgnore a ch
    else if 8 ≤ ch ∧ dest ≠ 7 then
      ((s.setFld (MBX_STAT ch) 19 16 dest).mbxAcks ch stBadField 0).violation 8 (mbxSource ch)
    else if dest = 0 ∨ 9 < dest ∨ len = 0 ∨ 64 < len then s.mbxIgnore a ch
    else
      let s := (s.setFld (MBX_STAT ch) 19 16 dest).setReply ch 0 len
      if s.mbxDead dest then s.mbxExpires ch
      else
        let s := s.setFld (MBX_STAT ch) 31 28 mbxSent
        let s : State := { s with mbxSince := Tab.set (fun _ => 0) s.mbxSince ch s.now }
        let s := s.mbxTell dest evtMbxMsg
        let op := entryNat (s.mbxBytes ch) 0 1
        if 8 ≤ ch ∧ ¬ secureOps.contains op then s.mpAnswer ch (otherOp op) []
        else s)

/-- MBX_SEND. -/
def execMbxSend (a : Agent) (ch : Nat) (v : W32) (s : State) : Out :=
  s.inRegs <|
  if ch < 10 then .next (s.mbxSend a ch v) else .next s

/-- A write of MBX_ACK. -/
def State.mbxAck (s : State) (a : Agent) (ch : Nat) (v : W32) : State :=
  s.regWrite a (MBX_ACK ch) v (fun v s =>
    let len := regField v 6 0
    if s.mbxSt ch = mbxSent ∧ s.mbxDest ch = agentNo a ∧ len ≤ 64 then s.mbxAcks ch (regField v 15 8) len
    else if s.mbxSt ch = mbxTimedOut ∧ s.mbxDest ch = agentNo a then s.mbxLate ch true
    else s.mbxIgnore a ch)

/-- MBX_ACK. -/
def execMbxAck (a : Agent) (ch : Nat) (v : W32) (s : State) : Out :=
  s.inRegs <|
  if ch < 10 then .next (s.mbxAck a ch v) else .next s

/-- 100 µs in NCLK cycles. -/
def mbxUnit : Nat := 120000

/-- MBX_TIMEOUT: the channel has been SENT for MBX_TMO; a limit of 0 never ends it (log 1). -/
def execMbxTimeout (ch : Nat) (s : State) : Out :=
  s.inRegs <|
  let lim := s.fld (MBX_TMO ch) 15 0
  if ch < 10 ∧ s.mbxSt ch = mbxSent ∧ lim ≠ 0 then
    .next ((s.reach (Tab.get (fun _ => 0) s.mbxSince ch + lim * mbxUnit)).mbxExpires ch)
  else .next s

/-- The channels of owners that enter reset return to FREE, each with a record (R285). -/
def State.mbxReset (s : State) (gone : Nat → Bool) : State :=
  (List.range 10).foldl (fun s ch =>
    if s.mbxSt ch ≠ mbxFree ∧ gone (s.mbxOwner ch) then (s.mbxLog ch (s.mbxOwner ch)).setMbx ch mbxFree 0 else s) s

/-- The MP enters reset: messages that wait for it end with TIMEOUT and a record each, and its channels are freed (R18,
R285). -/
def State.mpMail (s : State) : State :=
  let s := (List.range 10).foldl (fun s ch =>
    if s.mbxSt ch = mbxSent ∧ s.mbxDest ch = 7 then (s.mbxLog ch 7).mbxExpires ch else s) s
  s.mbxReset (· == 7)

/-! ## Images (R433 to R435) -/

/-- A field of an image. -/
def img (b : List Byte) (off n : Nat) : Nat := entryNat b off n

/-- Lowest bit of a stage's SVN floor in SEC_SVN. -/
def svnLo (stage : Nat) : Nat := 8 * (stage - 1)

/-- An image verifies for a stage (R434). -/
def State.imageOk (s : State) (stage : Nat) (b : List Byte) : Bool :=
  let len := img b 0x008 4
  let slot := img b 0x003 1
  let modulus := (b.drop 0x030).take 384
  let exp := (b.drop 0x00C).take 4
  b.length == 0x200 + len + 384 && len % 64 == 0 && decide (len ≤ 4 * 2 ^ 20 - 1024)
    && img b 0x000 2 == 1 && img b 0x005 1 == 0 && ((b.drop 0x1B0).take 80).all (· == 0)
    && img b 0x002 1 == stage && img b 0x006 2 == s.fld GLB_ID 31 16
    && decide (slot < 4) && (s.reg SEC_KEYSLOT).getLsbD (4 + slot) && !(s.reg SEC_KEYSLOT).getLsbD slot
    && Config.sha256 (modulus ++ exp) == Config.keyHash slot
    && Config.sha256 ((b.drop 0x200).take len) == (b.drop 0x010).take 32
    && Config.rsaVerify modulus (leNat exp) (b.take (0x200 + len)) (b.drop (0x200 + len))
    && decide (s.fld SEC_SVN (svnLo stage + 7) (svnLo stage) ≤ img b 0x004 1 ∧ img b 0x004 1 < 64)

/-- A slot of a stage in flash: 0 A, 1 B. -/
def State.image (s : State) (stage slot : Nat) : List Byte := Tab.get Config.flashImage s.flash (2 * stage + slot)

/-- The certificate area of the flash. -/
def State.certArea (s : State) : List Byte := Tab.get Config.flashImage s.flash 8

/-- The slot that a stage's selector names. -/
def State.activeSlot (s : State) (stage : Nat) : Nat := Tab.get (fun _ => 0) s.selector stage

/-- The active image of a stage; of stage 3 the recovery image that runs. -/
def State.activeImage (s : State) (stage : Nat) : List Byte :=
  if stage = 3 then s.recovery else s.image stage (s.activeSlot stage)

/-! ## Secure operations (R436, R437) -/

/-- The reply about an image: its SVN and its measurement. -/
def imageReply (b : List Byte) : List Byte := leBytes 1 (img b 0x004 1) ++ List.replicate 31 0 ++ (Config.sha256 b).take 32

/-- The fields of a secure request: ARG, LEN, ADDR. -/
def State.secArg (s : State) (ch : Nat) : Nat := entryNat (s.mbxBytes ch) 1 1
def State.secLen (s : State) (ch : Nat) : Nat := entryNat (s.mbxBytes ch) 4 4
def State.secAddr (s : State) (ch : Nat) : Nat := entryNat (s.mbxBytes ch) 8 8

/-- RSV bytes are zero. -/
def State.secRsv (s : State) (ch : Nat) : Bool :=
  entryNat (s.mbxBytes ch) 2 2 == 0 && entryNat (s.mbxBytes ch) 16 16 == 0

/-- LEN bytes at ADDR: in tier 1 or tier 2 of this device. None where they do not lie there. -/
def State.secData (s : State) (ch : Nat) : Option (Nat × List Byte × State) :=
  let w := s.secAddr ch
  let n := s.secLen ch
  if w / 2 ^ 48 ≠ 0 ∨ n = 0 then none
  else match s.addrKind w with
    | .tier1 | .tier2 => if s.inRegion w n then some (s.memRead w n) else none
    | _ => none

/-- The frame of a secure operation: the channel is SENT to the MP with this OP; RSV and ARG are checked. -/
def State.secureOp (s : State) (ch op : Nat) (argOk : Nat → Bool) (f : Nat → State → State) : State :=
  if (ch = 8 ∨ ch = 9) ∧ s.mbxSt ch = mbxSent ∧ entryNat (s.mbxBytes ch) 0 1 = op ∧ ¬ s.mbxDead 7 then
    if s.secRsv ch && argOk (s.secArg ch) then f (s.secArg ch) s else s.mpAnswer ch stBadField []
  else s

/-- An operation on the bytes at ADDR. -/
def State.withSecData (s : State) (ch : Nat) (f : List Byte → State → State) : State :=
  match s.secData ch with
  | none => s.mpAnswer ch stBadField []
  | some (st, b, t) => if st = stOk then f b t else t.mpAnswer ch st []

/-- FW_VERIFY. -/
def execFwVerify (ch : Nat) (s : State) : Out :=
  s.inRegs <|
  .next (s.secureOp ch 0x01 (fun a => decide (1 ≤ a ∧ a ≤ 3)) (fun a s => s.withSecData ch (fun b s =>
    if s.imageOk a b then s.mpAnswer ch stOk (imageReply b) else s.mpAnswer ch stAuthFailed [])))

/-- FW_WRITE: the inactive slot takes the image. -/
def execFwWrite (ch : Nat) (s : State) : Out :=
  s.keepRings <| s.keepPins <| s.inEdge <|
  .next (s.secureOp ch 0x02 (fun a => a == 1 || a == 2) (fun a s => s.withSecData ch (fun b s =>
    if s.imageOk a b then
      ({ s with flash := Tab.set Config.flashImage s.flash (2 * a + (1 - s.activeSlot a)) b } : State).mpAnswer ch stOk (imageReply b)
    else s.mpAnswer ch stAuthFailed [])))

/-- FW_ACTIVATE: the selector names the other slot, whose image verifies. -/
def execFwActivate (ch : Nat) (s : State) : Out :=
  s.keepRings <| s.keepPins <| s.inEdge <|
  .next (s.secureOp ch 0x03 (fun a => a == 1 || a == 2) (fun a s =>
    let other := 1 - s.activeSlot a
    let b := s.image a other
    if s.imageOk a b then
      ({ s with selector := Tab.set (fun _ => 0) s.selector a other } : State).mpAnswer ch stOk (imageReply b)
    else s.mpAnswer ch stAuthFailed []))

/-- FW_COMMIT: the stage's floor rises to its active image's SVN. -/
def execFwCommit (ch : Nat) (s : State) : Out :=
  s.inRegs <|
  .next (s.secureOp ch 0x04 (fun a => a == 1 || a == 2 || (a == 3 && (s.reg SEC_STAT).getLsbD 4)) (fun a s =>
    let b := s.activeImage a
    let lo := svnLo a
    (s.setFld SEC_SVN (lo + 7) lo (max (s.fld SEC_SVN (lo + 7) lo) (img b 0x004 1))).mpAnswer ch stOk (imageReply b)))

/-- An attestation key pair with its certificate generated (R431, R436). -/
def State.newAttestKey (s : State) : State := ({ s with akGen := s.akGen + 1 } : State).setFld SEC_STAT 5 5 1

/-- KEY_ATTEST_ROTATE. -/
def execKeyAttestRotate (ch : Nat) (s : State) : Out :=
  s.keepRings <| s.keepPins <| s.inEdge <|
  .next (s.secureOp ch 0x10 (fun a => a == 0) (fun _ s => s.newAttestKey.mpAnswer ch stOk (List.replicate 64 0)))

/-- Slots in use and not revoked. -/
def State.liveSlots (s : State) : List Nat :=
  (List.range 4).filter (fun k => (s.reg SEC_KEYSLOT).getLsbD (4 + k) && !(s.reg SEC_KEYSLOT).getLsbD k)

/-- KEY_REVOKE: not the last slot, nor one whose key signed an active image. -/
def execKeyRevoke (ch : Nat) (s : State) : Out :=
  s.inRegs <|
  .next (s.secureOp ch 0x11 (fun a => decide (a < 4)) (fun a s => s.withSecData ch (fun b s =>
    let others := s.liveSlots.filter (· != a)
    let signs := [1, 2, 3].any (fun st => !(s.activeImage st).isEmpty && img (s.activeImage st) 0x003 1 == a)
    if others.isEmpty || signs then s.mpAnswer ch stBadField []
    else if Config.revocationOk b a others then (s.setFld SEC_KEYSLOT a a 1).mpAnswer ch stOk (List.replicate 64 0)
    else s.mpAnswer ch stAuthFailed [])))

/-- The hash of the identity certificate in OTP. -/
def State.idHash (s : State) : List Byte := (List.range 8).flatMap (fun i => leBytes 4 (s.reg (SEC_IDHASH i)).toNat)

/-- CERT_WRITE: the certificate area takes bytes whose hash is the one in OTP. -/
def execCertWrite (ch : Nat) (s : State) : Out :=
  s.keepRings <| s.keepPins <| s.inEdge <|
  .next (s.secureOp ch 0x12 (fun a => a == 0) (fun _ s => s.withSecData ch (fun b s =>
    if Config.sha256 b = s.idHash then ({ s with flash := Tab.set Config.flashImage s.flash 8 b } : State).mpAnswer ch stOk (List.replicate 64 0)
    else s.mpAnswer ch stAuthFailed [])))

end Sys2Proof.Machine
end

