-- ==== Sys2Proof/Machine/Commands.lean ====
section
/-!
DEFINITION. Plardo commands: information, progress, abort, device state, the error log, violation counters, debug, and the
opcodes that only secure channels take (R109, R236, R292 to R303, R418, R419, R428).
-/

namespace Sys2Proof.Machine

/-! ## Information -/

/-- IDENTIFY. -/
def opIdentify : Body := fun e s =>
  .done (s.short e stOk 0
    (if e.word 0 % 2 = 0 then
      (s.reg GLB_ID).toNat + s.fld GLB_STEP 23 8 * 2 ^ 32 + s.dev * 2 ^ 48 + s.active * 2 ^ 56
    else s.pair GLB_SERIAL_LO GLB_SERIAL_HI))

/-- IDENTIFY. -/
def execIdentify (src : Src) (s : State) : Out :=
  s.inPower <|
  .next (s.stage2 0x01 src noFields opIdentify)

/-- The unit of a long opcode (R297). -/
def longUnit (op : Nat) : Option Nat :=
  if [0x04, 0x30, 0x31, 0x32, 0x60, 0x61].contains op then some unitPercent
  else if op = 0x13 ∨ op = 0x14 then some unitBytes
  else if op = 0x50 ∨ op = 0x52 then some unitDevices
  else if op = 0x15 ∨ op = 0x20 then some unitPages
  else none

/-- What PROGRESS and ABORT name: a command past stage 3, an entry at stage 2, or a completion not yet posted. -/
inductive Target where
  | cmd (x : Cmd)
  | entry (e : Entry)
  | decided

/-- The oldest command of a queue that carries a TAG and has not posted its final completion (R298): one past stage 3 that began
before a short one was decided is the older, and entries at stage 2 are the youngest. -/
def State.target (s : State) (q tag : Nat) : Option Target :=
  let src := Src.queue q
  let decided := (s.pend ++ s.posting).find? (fun p => p.src == src && p.tag == tag && !p.interim && p.id.isNone)
  match s.cmds.find? (fun x => x.src == src && x.tag == tag), decided with
  | some x, some p => some (if x.id < p.seq then .cmd x else .decided)
  | some x, none => some (.cmd x)
  | none, some _ => some .decided
  | none, none => (s.fetched.find? (fun e => e.src == src && e.tag == tag)).map .entry

/-- PROGRESS: no target, or one that is not a long operation, is a bad field (R298). -/
def opProgress : Body := fun e s =>
  match s.target (e.word 0 / 2 ^ 16 % 64) (e.word 0 % 2 ^ 16) with
  | some (.cmd x) =>
    if x.unit < unitNone then
      let r := s.report x
      .done (r.2.short e stOk 0 r.1)
    else .done (s.short e stBadField 8 0)
  | some (.entry d) =>
    match longUnit d.op with
    | some u => .done (s.short e stOk 0 (progressWord u 0))
    | none => .done (s.short e stBadField 8 0)
  | _ => .done (s.short e stBadField 8 0)

/-- PROGRESS. -/
def execProgress (src : Src) (s : State) : Out :=
  s.inPower <|
  .next (s.stage2 0x02 src noFields opProgress)

/-! ## The rings of the engines (R327) -/

/-- The ring of an engine. -/
def State.ringOf (s : State) (e : Nat) : List Seg := Tab.get (fun _ => []) s.rings e

/-- The descriptor of a segment, as MEM_DMA_DESC shows it (R328). -/
def Seg.desc (g : Seg) : List Byte :=
  leBytes 8 g.src ++ leBytes 8 g.dst ++ leBytes 8 g.len ++ leBytes 8 g.conv ++ leBytes 8 g.srec ++ leBytes 8 g.drec
    ++ leBytes 8 g.shape ++ leBytes 4 (g.kind + g.queue * 8) ++ leBytes 4 g.seq

/-- What MEM_DMA_BUSY and MEM_DMA_DESC show of an engine. -/
def State.showEngine (s : State) (e : Nat) : State :=
  let s := s.setFld MEM_DMA_BUSY e e (!(s.ringOf e).isEmpty).toNat
  match (s.ringOf e).head? with
  | some g => (List.range 16).foldl (fun s j =>
      s.setReg (MEM_DMA_DESC e j) (BitVec.ofNat 32 (entryNat g.desc (4 * j) 4))) s
  | none => (List.range 16).foldl (fun s j => s.setReg (MEM_DMA_DESC e j) 0) s

/-- The ring of an engine written. -/
def State.setRing (s : State) (e : Nat) (r : List Seg) : State :=
  ({ s with rings := Tab.set (fun _ => []) s.rings e r } : State).showEngine e

/-- What waits to be dealt goes, in segments of 256 pieces, to the engines in turn, as long as the ring of the next one holds fewer
than 16 descriptors (R327). The first argument bounds the segments. -/
def State.dealMore : Nat → State → State
  | 0, s => s
  | n + 1, s =>
    match s.backlog with
    | [] => s
    | g :: rest =>
      let e := (s.segEngine + 1) % 32
      if 16 ≤ (s.ringOf e).length then s
      else
        let s : State := { s with
          segEngine := e, segSeq := s.segSeq + 1,
          backlog := if g.count ≤ 256 then rest else { g with first := g.first + 256, count := g.count - 256 } :: rest }
        State.dealMore n (s.setRing e (s.ringOf e ++ [{ g with count := min 256 g.count, seq := s.segSeq, born := s.now }]))

/-- As much as the 32 rings have room for is dealt. -/
def State.dealOut (s : State) : State := s.dealMore 512

/-- A transfer of `pieces` pieces is cut into segments, which are dealt behind those that wait. -/
def State.deal (s : State) (g : Seg) (pieces : Nat) : State :=
  if pieces = 0 then s else ({ s with backlog := s.backlog ++ [{ g with first := 0, count := pieces }] } : State).dealOut

/-- The segments of a command leave the rings and the backlog, its pages the drives but for a Flush. -/
def State.dropSegs (s : State) (id : Nat) : State :=
  let s := (List.range 32).foldl (fun s e =>
    if (s.ringOf e).any (fun g => g.cmd == id) then s.setRing e ((s.ringOf e).filter (fun g => g.cmd != id)) else s) s
  ({ s with backlog := s.backlog.filter (fun g => g.cmd != id),
            driveCmds := s.driveCmds.filter (fun d => d.cmd != id || d.flush) } : State).dealOut

/-- A dispatch of the command runs or has not been sent. -/
def State.dispatching (s : State) (id : Nat) : Bool := s.disp.any (fun d => d.cmd == id && decide (d.st < 2))

/-- What a running command that ABORT names loses: dispatches not sent, batches not staged, transfers not made (R299). -/
def State.stopCmd (s : State) (id : Nat) : State :=
  let s := s.modCmd id (fun x => { x with stopped := true, layer := x.layer.map (fun l => { l with todo := [] }) })
  ({ s with disp := s.disp.filter (fun d => d.cmd != id || d.st != 0) } : State).dropSegs id

/-- A stopped command without a running dispatch completes ABORTED, with its own RESULT or the progress that it reached (R299,
R307). -/
def State.endStopped (s : State) (id : Nat) : State :=
  match s.cmd id with
  | some x =>
    if x.stopped && !x.ended && !x.closing && !s.dispatching id then
      s.conclude id stAborted 0 (if [0x30, 0x31, 0x32].contains x.op then x.execResult
        else if x.unit = unitNone then 0 else s.progressOf x)
    else s
  | none => s

/-! ## Device state (R292, R293, R428) -/

/-- DRAIN: the device drains; the command completes once no execution-class command is in flight, at once where none is. -/
def opDrain : Body := fun e s =>
  let ids := (s.cmds.filter (fun x => execClass x.op)).map (·.id)
  let r := s.start e unitPercent ids.length
  .done ((r.2.modCmd r.1 (fun x => { x with members := ids })).setFld GLB_STATE 2 0 devDraining)

/-- DRAIN. -/
def execDrain (src : Src) (s : State) : Out :=
  s.inPower <|
  .next (s.stage2 0x04 src noFields opDrain)

/-- SOFT_RESET (R428): the device drains; from FAULTED, and from MAINTENANCE with nothing in flight, the reset follows at
once. -/
def opSoftReset : Body := fun e s =>
  let r := s.start e unitNone 0
  let t : State := { r.2 with softReset := some e.src }
  if t.dev = devFaulted ∨ (t.dev = devMaint ∧ t.inFlight = 0) then .done (t.drained.conclude r.1 stOk 0 0)
  else .done (t.setFld GLB_STATE 2 0 devDraining)

/-- SOFT_RESET. -/
def execSoftReset (src : Src) (s : State) : Out :=
  s.inPower <|
  .next (s.stage2 0x05 src noFields opSoftReset)

/-- Maintenance entered: its quiescence request lifts (R295). -/
def opMaintEnter : Body := fun e s => .done ((s.setFld GLB_STATE 2 0 devMaint).short e stOk 0 0)

/-- MAINT_ENTER. -/
def execMaintEnter (src : Src) (s : State) : Out :=
  s.inPower <|
  .next (s.stage2 0x06 src noFields opMaintEnter)

/-- The state that follows MAINTENANCE. -/
def State.restState (s : State) : Nat := if s.residentWm then devLoaded else devReady

/-- MAINT_EXIT. -/
def opMaintExit : Body := fun e s => .done ((s.setFld GLB_STATE 2 0 s.restState).short e stOk 0 s.restState)

/-- MAINT_EXIT. -/
def execMaintExit (src : Src) (s : State) : Out :=
  s.inPower <|
  .next (s.stage2 0x07 src noFields opMaintExit)

/-! ## Violation counters and the error log (R418, R419) -/

/-- COUNTERS_READ. -/
def opCountersRead : Body := fun e s =>
  let c := e.word 0 % 16
  let v := s.pair (RAS_VIOL_LO c) (RAS_VIOL_HI c)
  let s := if (e.word 0).testBit 4 then s.setPair (RAS_VIOL_LO c) (RAS_VIOL_HI c) 0 else s
  .done (s.short e stOk 0 v)

/-- COUNTERS_READ. -/
def execCountersRead (src : Src) (s : State) : Out :=
  s.inPower <|
  .next (s.stage2 0x08 src noFields opCountersRead)

/-- WRAPPED of an ERRLOG_READ from index `i`. -/
def State.logWrapped (s : State) (i : Nat) : Bool :=
  match Tab.get (fun _ => none) s.logCopied i with
  | some r => r != s.logAt i
  | none => decide (i + 4096 < s.logCount)

/-- ERRLOG_READ: `n` records in index order from the first. -/
def opErrlogRead : Body := fun e s =>
  let i := e.word 1 % 2 ^ 12
  let n := e.word 1 / 2 ^ 12 % 2 ^ 13
  let idx := (List.range n).map (fun j => (i + j) % 4096)
  let w := s.logWrapped i
  match s.deliver e (e.word 0) (idx.flatMap (fun j => (s.logAt j).bytes)) ((i + n) % 4096 + n * 2 ^ 12 + w.toNat * 2 ^ 25) with
  | .done t =>
    .done { t with logCopied := idx.foldl (fun m j => Tab.set (fun _ => none) m j (some (s.logAt j))) s.logCopied }
  | .hold t => .hold t

/-- ERRLOG_READ. -/
def execErrlogRead (src : Src) (s : State) : Out :=
  s.keepEdge <| s.keepFabric <|
  .next (s.stage2 0x09 src (fields (fun e s =>
    let n := e.word 1 / 2 ^ 12 % 2 ^ 13
    okField 1 12 (decide (1 ≤ n ∧ n ≤ 4096)) :: s.addrChecks e 0 false false)) opErrlogRead)

/-! ## Opcodes of the secure channels (R269) -/

/-- FW_UPDATE: NOT_SECURE at check 6. -/
def execFwUpdate (src : Src) (s : State) : Out :=
  s.inPower <|
  .next (s.stage2 0x72 src (fields (fun _ _ => [(0, stNotSecure, false)])) (fun e s => .done (s.short e stNotSecure 0 0)))

/-- KEY_OP: NOT_SECURE at check 6. -/
def execKeyOp (src : Src) (s : State) : Out :=
  s.inPower <|
  .next (s.stage2 0x73 src (fields (fun _ _ => [(0, stNotSecure, false)])) (fun e s => .done (s.short e stNotSecure 0 0)))

/-! ## Debug (R109, R236, R303) -/

/-- The physical core that word 0 names is one of the part and in service (log 23). -/
def coreField (e : Entry) (s : State) : List Check := [okField 0 0 (e.word 0 % 128 < 72 && s.coreSt (e.word 0 % 128) == 0)]

/-- A command that waits for core `c` to enter DEBUG. -/
def Cmd.waitsDebug (c : Nat) (x : Cmd) : Bool :=
  (x.op == 0x63 || x.op == 0x65) && x.words.headD 0 % 128 == c && !x.ended && !x.closing

/-- DEBUG_HALT: completes with the PC once the core is in DEBUG. -/
def opDebugHalt : Body := fun e s =>
  let c := e.word 0 % 128
  let k := s.core c
  if k.seq = .debug then .done (s.short e stOk 0 k.nextIssue)
  else .done ((s.start e unitNone 0).2.modCore c (·.halt))

/-- DEBUG_HALT. -/
def execDebugHalt (src : Src) (s : State) : Out :=
  s.keepEdge <| s.keepFabric <| s.keepMem <|
  .next (s.stage2 0x63 src (fields coreField) opDebugHalt)

/-- A debug command of a core that is not in DEBUG: refused, a denied debug access (R303, R419). -/
def State.debugRefuse (s : State) (e : Entry) (c : Nat) : State :=
  (s.short e stStateRefused s.dev 0).violation 15 (logSource 0 c)

/-- DEBUG_ACC_READ: the words that exist of those named, ACM or belay set. -/
def opDebugAccRead : Body := fun e s =>
  let c := e.word 0 % 128
  let belay := (e.word 0).testBit 7
  let first := e.word 0 / 2 ^ 8 % 2 ^ 15
  let n := if belay then e.word 1 % 2 ^ 16 else min (e.word 1 % 2 ^ 16) (32768 - first)
  let k := s.core c
  if k.seq ≠ .debug then .done (s.debugRefuse e c)
  else
    let idx := (List.range n).map (first + ·)
    let bad := (idx.filter (fun w => k.accBad belay w)).length
    match s.deliver e (e.word 2) (idx.flatMap (fun w => leBytes 8 (k.debugWord belay w).toNat)) n with
    | .done t => .done (t.modCore c (·.bumpFld c CORE_ACC_ECC 31 16 bad))
    | .hold t => .hold t

/-- DEBUG_ACC_READ. -/
def execDebugAccRead (src : Src) (s : State) : Out :=
  s.keepEdge <| s.keepFabric <|
  .next (s.stage2 0x64 src (fields (fun e s => coreField e s ++ s.addrChecks e 2 false false)) opDebugAccRead)

/-- DEBUG_RESUME: RUN, or STEP, which completes with the PC once the step has retired. -/
def opDebugResume : Body := fun e s =>
  let c := e.word 0 % 128
  let k := s.core c
  if k.seq ≠ .debug then .done (s.debugRefuse e c)
  else if !(e.word 0).testBit 7 then .done ((s.modCore c (·.resume c)).short e stOk 0 k.nextIssue)
  else if k.loaded then .done ((s.start e unitNone 0).2.modCore c (·.step c))
  else .done (s.short e stOk 0 k.nextIssue)

/-- DEBUG_RESUME. -/
def execDebugResume (src : Src) (s : State) : Out :=
  s.keepEdge <| s.keepFabric <| s.keepMem <|
  .next (s.stage2 0x65 src (fields coreField) opDebugResume)

/-- DEBUG_ENTER: everything issued has retired; the core is in DEBUG, and the commands that wait for it complete. A core
that steps waits for its one instruction. -/
def execDebugEnter (c : Nat) (s : State) : Out :=
  s.inCores <|
  let k := s.core c
  if k.seq = .halting ∧ ¬ k.stepping ∧ ¬ k.halfPair ∧ k.passes.isEmpty ∧ k.drains.all (·.moved) ∧ k.pageWrites.isEmpty
      ∧ k.outst.all (fun o => o.atomic || o.remote || o.done) ∧ k.fault.isNone then
    let s := { s.setCore c { k with seq := .debug, stepping := false } with debugSeen := true }
    .next ((s.cmds.filter (Cmd.waitsDebug c)).foldl (fun s x => s.conclude x.id stOk 0 k.nextIssue) s)
  else .next s

end Sys2Proof.Machine
end

