-- ==== Sys2Proof/Machine/Alloc.lean ====
section
/-!
DEFINITION. Handles and work lists: allocation under quota, attributes, the work-list header (R196, R206, R253, R254,
R279, R300, R297).
-/

namespace Sys2Proof.Machine

/-! ## Space in use -/

/-- Ledge granules held: by valid handles, created work lists and staging buffers (R206): owning queue, first, count. -/
def State.heldGranules (s : State) : List (Nat × Nat × Nat) :=
  ((List.range 256).filterMap (fun h =>
    let e := s.handle h
    if e.valid ∧ e.mem = memLedge then some (e.queue, (e.base - 0x8000000000) / 65536, ceilDiv (64 * e.length) 65536)
    else none))
    ++ s.lists.filterMap (fun l => match l.2 with
      | some w => if w.dev.isNone then some (w.queue, (w.addr - 0x8000000000) / 65536, w.size) else none
      | none => none)
    ++ s.staging.map (fun g => (g.queue, g.first, g.count))

/-- Handles and granules that count against a queue. -/
def State.queueUse (s : State) (q : Nat) : Nat × Nat :=
  (((List.range 256).filter (fun h => (s.handle h).valid && (s.handle h).queue == q)).length,
    ((s.heldGranules.filter (fun g => g.1 == q)).map (·.2.2)).sum)

/-- CMDQ_Q_USE and MEM_LDG_ALLOC brought up to date. -/
def State.showUse (s : State) (q : Nat) : State :=
  let u := s.queueUse q
  let s := (s.setFld (CMDQ_Q_USE q) 8 0 u.1).setFld (CMDQ_Q_USE q) 27 16 u.2
  (List.range 2).foldl (fun s d =>
    let n := (s.heldGranules.map (fun g => min (g.2.1 + g.2.2) (1024 * (d + 1)) - max g.2.1 (1024 * d))).sum
    s.setFld (MEM_LDG_ALLOC d) 10 0 n) s

/-- The lowest run of `n` free ledge granules. -/
def State.freeGranules (s : State) (n : Nat) : Option Nat :=
  let held := s.heldGranules
  (List.range 2048).find? (fun g => decide (g + n ≤ 2048) &&
    held.all (fun e => decide (e.2.1 + e.2.2 ≤ g ∨ g + n ≤ e.2.1)))

/-- Quotas of a queue: handles, granules. -/
def State.quota (s : State) (q : Nat) : Nat × Nat := (s.fld (CMDQ_Q_QUOTA q) 8 0, s.fld (CMDQ_Q_QUOTA q) 27 16)

/-- The resource whose quota a request of `h` handles and `g` granules exceeds (R269, R279). -/
def State.overQuota (s : State) (q h g : Nat) : Option Nat :=
  let u := s.queueUse q
  let m := s.quota q
  if 0 < h ∧ m.1 < u.1 + h then some 1 else if 0 < g ∧ m.2 < u.2 + g then some 2 else none

/-! ## HANDLE_ALLOC (R300) -/

/-- Bytes of the memory that a handle's MEM names on this device, from its first address. -/
def State.memBounds (s : State) (mem : Nat) : Nat × Nat :=
  if mem = memAm ∨ mem = memPm then (0, 2 ^ 20)
  else if mem = memWm then (0, 2 ^ 21)
  else if mem = memLedge then (0x8000000000, 2 ^ 27)
  else if mem = memTier1 then (0, 0x2D00000000)
  else if mem = memTier2 then (0x20000000000, s.tier2Bytes)
  else if mem = memTier3 then (0x40000000000, s.tier3Bytes)
  else (0, 2 ^ 48)

/-- BITS as R196 has it: for TERN the storage form, else the width that R23 gives the format. -/
def Handle.bitsOk (h : Handle) : Bool :=
  if h.fmt = fmtTern then h.bits == 0 || h.bits == 2 || h.bits == 5
  else widthOk h.fmt h.bits

/-- An RLZ header handle needs UINT, SINT or TERN2 (R156). -/
def Handle.rlzOk (h : Handle) : Bool :=
  !(h.layout == 2 || h.layout == 3) || h.fmt == fmtUint || h.fmt == fmtSint || (h.fmt == fmtTern && h.bits != 5)

/-- Alignment of a base: a granule, a page, a tag slot, or a row (R206, R300). -/
def Handle.align (h : Handle) : Nat :=
  if h.mem = memLedge then 65536 else if h.mem = memWm then 1024
  else if (h.mem = memAm ∨ h.mem = memPm) ∧ h.tagMode ≠ 0 then 2048 else 64

/-- The slots of an RLZ header handle: 32w bytes for each 4-byte header, at the next aligned base after the headers (log 24). -/
def Handle.slots (h : Handle) : Handle :=
  { h with layout := 3, base := ceilDiv (h.base + 64 * h.length) h.align * h.align, length := 8 * fmtBits h.fmt h.bits * h.length }

/-- The handle of a HANDLE_ALLOC's words, and its bytes with the slots of an RLZ tensor. -/
def Entry.allocHandle (e : Entry) : Handle :=
  { handleOf (e.word 0 + e.word 1 * 2 ^ 64) with queue := srcQueue e.src, valid := true }
def Handle.bytes (h : Handle) : Nat :=
  if h.layout = 2 then h.slots.base + 64 * h.slots.length - h.base else 64 * h.length

/-- Granules of ledge memory of a handle, those of the headers and those of the slots of an RLZ tensor (R206, R279). -/
def Handle.granuleCount (h : Handle) : Nat :=
  if h.mem = memLedge then ceilDiv (64 * h.length) 65536 + (if h.layout = 2 then ceilDiv (64 * h.slots.length) 65536 else 0) else 0

/-- The bytes of its memory that a valid handle keeps from others: whole tag slots where it is tagged (R191, R300). -/
def Handle.taken (h : Handle) : Nat × Nat :=
  (h.base / h.align * h.align, ceilDiv (h.base + 64 * h.length) h.align * h.align)

/-- The fields of HANDLE_ALLOC. -/
def allocChecks (e : Entry) (s : State) : List Check :=
  let h := e.allocHandle
  let any := (e.word 2).testBit 8
  let auto := (e.word 2).testBit 9
  let b := s.memBounds h.mem
  [okField 0 48 (h.mem == memRemote || h.devid == 0),
   okField 1 0 (h.mem < 8), okField 1 4 (h.layout < 6), okField 1 17 (h.power != 3), okField 1 19 (h.tagMode != 3),
   okField 1 21 (fmtKnown h.fmt && h.rlzOk), okField 1 26 (h.bitsOk),
   okField 2 0 (any || h.layout != 2 || e.word 2 % 2 == 0), okField 2 9 (!auto || h.mem < 4),
   okField 0 0 (auto || (decide (b.1 ≤ h.base) && decide (h.base + h.bytes ≤ b.1 + b.2)
     && (h.mem != memLedge || h.base % 65536 == 0) && ((h.layout != 2 && h.layout != 3) || h.base % 64 == 0)))]

/-- The lowest base at which the whole buffer is free of every other valid handle of the memory (R300). -/
def State.autoBase (s : State) (h : Handle) : Option Nat :=
  let n := ceilDiv ({ h with base := 0 } : Handle).bytes h.align * h.align
  if h.mem = memLedge then (s.freeGranules (n / 65536)).map (fun g => 0x8000000000 + 65536 * g)
  else
    let b := s.memBounds h.mem
    let held := (((List.range 256).map s.handle).filter (fun e => e.valid && e.mem == h.mem)).map (·.taken)
    let ends := b.1 :: held.map (fun e => ceilDiv e.2 h.align * h.align)
    let ok (a : Nat) : Bool := decide (a + n ≤ b.1 + b.2) && held.all (fun e => decide (e.2 ≤ a ∨ a + n ≤ e.1))
    (ends.filter ok).foldl (fun acc a => match acc with
      | none => some a
      | some m => some (min m a)) none

/-- The number of a HANDLE_ALLOC: named, or the lowest free; an RLZ tensor takes an even one and the next. -/
def State.allocNumber (s : State) (h : Handle) (any : Bool) (n : Nat) : Option Nat :=
  let free (i : Nat) : Bool := !(s.handle i).valid && (h.layout != 2 || (i % 2 == 0 && !(s.handle (i + 1)).valid))
  if any then (List.range 256).find? free else if free n then some n else none

/-- The tags of the slots that a new scratchpad handle covers (R196). -/
def State.tagHandle (s : State) (h : Handle) : State :=
  match h.spm with
  | some m =>
    if h.tagMode = 0 then s
    else (List.range 72).foldl (fun s c => if s.coreSt c = 2 then s
      else s.modCore c (fun k => (slotsOf h.base h.bytes).foldl (fun k sl => k.setTag c m sl (h.tagMode == 2)) k)) s
  | none => s

/-- HANDLE_ALLOC: quotas, then a number and a place. -/
def opHandleAlloc : Body := fun e s =>
  let h := e.allocHandle
  let q := srcQueue e.src
  let auto := (e.word 2).testBit 9
  let gran := h.granuleCount
  match s.overQuota q (if h.layout = 2 then 2 else 1) gran with
  | some d => .done (s.quotaRefuse e d)
  | none =>
    match s.allocNumber h ((e.word 2).testBit 8) (e.word 2 % 256), (if auto then s.autoBase h else some h.base) with
    | some n, some b =>
      let h := { h with base := b }
      let clash := gran != 0 && s.heldGranules.any (fun g =>
        decide (g.2.1 < (b - 0x8000000000) / 65536 + gran ∧ (b - 0x8000000000) / 65536 < g.2.1 + g.2.2))
      if clash then .done (s.short e stNoResource 2 0)
      else
        let s := s.setHandles n h
        let s := if h.layout = 2 then s.setHandles (n + 1) h.slots else s
        .done (((s.tagHandle h).showUse q).short e stOk 0 (n + b * 256))
    | none, _ => .done (s.short e stNoResource 1 0)
    | _, none => .done (s.short e stNoResource (if h.mem = memLedge then 2 else 1) 0)

/-- HANDLE_ALLOC. -/
def execHandleAlloc (src : Src) (s : State) : Out :=
  s.keepEdge <| s.keepFabric <| s.keepMem <|
  .next (s.stage2 0x10 src (fields allocChecks) opHandleAlloc)

/-! ## HANDLE_FREE, HANDLE_ATTR -/

/-- The handle that word 0 names is valid (log 25). -/
def handleField (e : Entry) (s : State) : List Check := [okField 0 0 (s.handle (e.word 0 % 256)).valid]

/-- The groups that a freed handle with POWER_POLICY 2 covered and no other valid handle covers are turned OFF (R196). -/
def State.powerFreed (s : State) (h : Handle) : State :=
  if h.power ≠ 2 then s
  else (List.range 72).foldl (fun s c =>
    if s.coreSt c = 2 then s
    else
      let k := s.core c
      let others := ((List.range 256).map (k.tableHandle c)).filter (·.valid)
      ((k.handleGroups c h).filter (fun g => !others.any (fun o => (k.handleGroups c o).contains g))).foldl
        (fun s g => s.writeGroupReq c g 2) s) s

/-- The records of the weight loads of a handle are freed, and with them their piton records (R409). -/
def State.dropWloads (s : State) (n : Nat) : State :=
  let gone := s.wloads.filter (fun w => w.handle == n && !s.cmds.any (fun x => x.id == w.cmd))
  { s.pitonSet (s.pitonRecords - gone.length) with wloads := s.wloads.filter (fun w => w.handle != n) }

/-- A handle freed, with the slots of an RLZ tensor and the record of a weight load. -/
def State.freeHandle (s : State) (n : Nat) : State :=
  let h := s.handle n
  let slots := s.handle (n + 1)
  let s := s.setHandles n (handleOf 0)
  let s := if h.layout = 2 then s.setHandles (n + 1) (handleOf 0) else s
  let s := s.dropWloads n
  let s := s.powerFreed h
  (if h.layout = 2 then s.powerFreed slots else s).showUse h.queue

/-- HANDLE_FREE. -/
def opHandleFree : Body := fun e s => .done ((s.freeHandle (e.word 0 % 256)).short e stOk 0 0)

/-- HANDLE_FREE. -/
def execHandleFree (src : Src) (s : State) : Out :=
  s.keepEdge <| s.keepFabric <| s.keepMem <|
  .next (s.stage2 0x11 src (fields handleField) opHandleFree)

/-- HANDLE_ATTR. -/
def opHandleAttr : Body := fun e s =>
  let n := e.word 0 % 256
  let h := s.handle n
  let w := e.word 1
  let old := h.resident.toNat + h.retain.toNat * 2 + h.power * 4 + h.tagMode * 16
  .done ((s.setHandles n { h with resident := w.testBit 0, retain := w.testBit 1, power := w / 4 % 4, tagMode := w / 16 % 4 }).short
    e stOk 0 old)

/-- HANDLE_ATTR. -/
def execHandleAttr (src : Src) (s : State) : Out :=
  s.keepEdge <| s.keepFabric <| s.keepMem <|
  .next (s.stage2 0x12 src (fields (fun e s => handleField e s ++
    [okField 1 2 (e.word 1 / 4 % 4 != 3), okField 1 4 (e.word 1 / 16 % 4 != 3)])) opHandleAttr)

/-! ## Prediction (R180, R301) -/

/-- PRED_ENABLE: the layer predicts again, with an empty window. -/
def opPredEnable : Body := fun e s =>
  let l := e.word 0 % 2 ^ 16
  let off := s.preds.any (fun p => p.layer == l && p.off)
  let s : State := { s with preds := s.preds.map (fun p => if p.layer = l then { p with off := false, inactive := 0, misses := 0, queue := [] } else p) }
  .done (s.short e stOk 0 off.toNat)

/-- PRED_ENABLE. -/
def execPredEnable (src : Src) (s : State) : Out :=
  s.inPower <|
  .next (s.stage2 0x22 src noFields opPredEnable)

/-! ## Work lists (R253, R254) -/

/-- Entry `l` of CORE_WL written on every core that is not fenced: address, REMOTE with DEVID, VALID. -/
def State.setWl (s : State) (l v : Nat) : State :=
  (List.range 72).foldl (fun s c => if s.coreSt c = 2 then s
    else s.modCore c (fun k => (k.setReg c (CORE_WL (2 * l)) (BitVec.ofNat 32 v)).setReg c (CORE_WL (2 * l + 1))
      (BitVec.ofNat 32 (v / 2 ^ 32)))) s

/-- Bytes of a list: header, bitmap, owner array. -/
def listBytes (length : Nat) : Nat := 64 + ceilDiv length 64 * 8 + length

/-- The header of a new list (R253). -/
def listHeader (a length items itemsz resume q : Nat) : List Byte :=
  leBytes 4 0 ++ leBytes 4 length ++ leBytes 4 0 ++ leBytes 4 0 ++ leBytes 8 (a + 64)
    ++ leBytes 8 (a + 64 + ceilDiv length 64 * 8) ++ leBytes 8 items ++ leBytes 4 itemsz ++ leBytes 2 resume
    ++ leBytes 2 q ++ leBytes 16 0

/-- A list by number written. -/
def State.setList (s : State) (l : Nat) (w : Option WorkList) : State :=
  { s with lists := Tab.set (fun _ => none) s.lists l w }

/-- WORKLIST_DEFINE: a list attached, or created in free granules of ledge memory. -/
def opWorklistDefine : Body := fun e s =>
  let l := e.word 0 % 256
  let len := e.word 1 % 2 ^ 25
  let q := srcQueue e.src
  if e.word 4 ≠ 0 then
    if (s.list l).isSome then .done (s.short e stNoResource 1 0)
    else
    let a := e.word 4 % 2 ^ 48
    let d := e.word 4 / 2 ^ 48 % 2 ^ 14
    let s := s.setList l (some ⟨a, some d, len, q, 0, false⟩)
    .done ((s.setWl l (a + d * 2 ^ 48 + 3 * 2 ^ 62)).short e stOk 0 (e.word 4))
  else
    let n := ceilDiv (listBytes len) 65536
    match s.overQuota q 0 n with
    | some d => .done (s.quotaRefuse e d)
    | none =>
      if (s.list l).isSome then .done (s.short e stNoResource 1 0)
      else
      match s.freeGranules n with
      | none => .done (s.short e stNoResource 2 0)
      | some g =>
        let a := 0x8000000000 + 65536 * g
        let bytes := listHeader a len (e.word 2) (e.word 3 % 2 ^ 32) (e.word 3 / 2 ^ 32 % 2 ^ 13) q
          ++ List.replicate (ceilDiv len 64 * 8 + len) 0
        let s := (s.memWrite a bytes).2
        let s := (s.setList l (some ⟨a, none, len, q, n, false⟩)).setWl l (a + 2 ^ 63)
        .done ((s.showUse q).short e stOk 0 a)

/-- WORKLIST_DEFINE. -/
def execWorklistDefine (src : Src) (s : State) : Out :=
  s.keepEdge <| s.keepFabric <|
  .next (s.stage2 0x33 src (fields (fun e s =>
    [okField 1 0 (decide (1 ≤ e.word 1 ∧ e.word 1 ≤ 16777216)),
     okField 4 56 (e.word 4 == 0 || (!(e.word 4).testBit 63 && (e.word 4).testBit 62))]
    ++ s.addrChecks e 2 false true)) opWorklistDefine)

/-- WORKLIST_FREE: the counts are read, from the owning device for an attached list, and the list is gone. -/
def opWorklistFree : Body := fun e s =>
  let l := e.word 0 % 256
  match s.list l with
  | none => .done (s.short e stBadField 8 0)
  | some w =>
    let counts : Reach (List Byte) := match w.dev with
      | some d => s.cpRead (s.issuerOf e.src) d (w.addr + 8) 8
      | none =>
        let r := s.memRead (w.addr + 8) 8
        if s.atomFirst (w.addr + 8) 8 then .wait s else if r.1 = stOk then .ok r.2.1 r.2.2 else .fail r.1 r.2.2
    let free (t : State) : State := ((t.setList l none).setWl l 0).showUse w.queue
    match counts with
    | .wait t => .hold t
    | .fail st t => .done ((free t).short e st 0 0)
    | .ok b t => .done ((free t).short e stOk 0 (leNat b))

/-- WORKLIST_FREE. -/
def execWorklistFree (src : Src) (s : State) : Out :=
  s.keepEdge <| s.keepFabric <| s.keepMem <|
  .next (s.stage2 0x34 src (fields (fun e s => [okField 0 0 (s.list (e.word 0 % 256)).isSome])) opWorklistFree)

end Sys2Proof.Machine
end

