-- ==== Sys2Proof/Machine/Transfer.lean ====
section
/-!
DEFINITION. Transfers between memories: DMA_COPY, DMA_FILL, PAGE_XFER, the tier DMA engines with their conversions, the
drives, and the BAR2 window (R150, R151, R158, R159, R261, R323 to R331).
-/

namespace Sys2Proof.Machine

/-! ## What a transfer is (R297, R328, R329) -/

/-- The fields of DMA_COPY's word 3. -/
structure Conv where
  sfmt : Nat
  sbits : Nat
  slay : Nat
  dfmt : Nat
  dbits : Nat
  dlay : Nat
  asym : Bool
  g : Nat
  stern5 : Bool
  dtern5 : Bool
  deriving DecidableEq, Repr

/-- Word 3 taken apart. -/
def convOf (w : Nat) : Conv where
  sfmt := bitsOf w 4 0
  sbits := bitsOf w 9 5
  slay := bitsOf w 13 10
  dfmt := bitsOf w 18 14
  dbits := bitsOf w 23 19
  dlay := bitsOf w 27 24
  asym := w.testBit 28
  g := bitsOf w 30 29
  stern5 := w.testBit 31
  dtern5 := w.testBit 32

/-- The conversions of R329. -/
inductive Action where
  | copy
  | repack
  | quantise
  | dequantise
  | compress
  | expand
  deriving DecidableEq, Repr

/-- An integer format of the conversions. -/
def intFmt (f : Nat) : Bool := f == fmtUint || f == fmtSint || f == fmtBin || f == fmtTern
/-- A float format of the conversions. -/
def floatFmt (f : Nat) : Bool := f == fmtBf16 || f == fmtFp32

/-- The action of a combination; none for one that R329 does not list. -/
def Conv.action (c : Conv) : Option Action :=
  let w (f b : Nat) : Nat := fmtBits f b
  let sameFmt := c.sfmt == c.dfmt && w c.sfmt c.sbits == w c.dfmt c.dbits
  let rlz (f : Nat) (t5 : Bool) : Bool := f == fmtUint || f == fmtSint || (f == fmtTern && !t5)
  if !widthOk c.sfmt c.sbits || !widthOk c.dfmt c.dbits || decide (5 < c.slay) || decide (5 < c.dlay)
      || (c.stern5 && c.sfmt != fmtTern) || (c.dtern5 && c.dfmt != fmtTern) then none
  else if sameFmt && c.slay == c.dlay && c.stern5 == c.dtern5 then some .copy
  else if c.sfmt = fmtTern ∧ c.dfmt = fmtTern ∧ c.slay = 0 ∧ c.dlay = 0 then some .repack
  else if floatFmt c.sfmt && intFmt c.dfmt && c.slay == 0 && c.dlay == 0 && c.g != 0 then some .quantise
  else if intFmt c.sfmt && floatFmt c.dfmt && c.slay == 0 && c.dlay == 0 && c.g != 0 then some .dequantise
  else if sameFmt && c.slay == 0 && c.dlay == 2 && rlz c.sfmt c.stern5 && !c.dtern5 then some .compress
  else if sameFmt && c.slay == 2 && c.dlay == 0 && rlz c.sfmt false && !c.stern5 && !c.dtern5 then some .expand
  else none

/-- The source and the destination as a handle describes them. -/
def Conv.src (c : Conv) : Handle := { handleOf 0 with fmt := c.sfmt, bits := if c.stern5 then 5 else c.sbits }
def Conv.dst (c : Conv) : Handle := { handleOf 0 with fmt := c.dfmt, bits := if c.dtern5 then 5 else c.dbits }

/-- Group size along K. -/
def Conv.group (c : Conv) : Nat := 32 * 2 ^ (c.g - 1)

/-- Elements of a piece: at most 4 KiB of source, whole groups, whole RLZ blocks, whole bytes of either side. -/
def Conv.pieceLen (c : Conv) : Nat := if c.sfmt = fmtFp32 then 640 else 1280

/-- Bytes of a source row of `k` elements as W2 counts them: headers for an RLZ source. -/
def Conv.srcRow (c : Conv) (k : Nat) : Nat :=
  if c.action = some .expand then 4 * ceilDiv k 256 else c.src.rowLen k

/-- Pieces of a transfer of `n` source bytes with rows of `k` elements, and the bytes it reads (log 26). -/
def Conv.pieces (c : Conv) (n k : Nat) : Nat × Nat :=
  if c.action = some .copy then (ceilDiv n 4096, n)
  else
    let rows := n / c.srcRow k
    (rows * ceilDiv k c.pieceLen, rows * c.srcRow k)

/-! ## Steps that may wait -/

/-- Bytes that an engine reads where an address word names. Rows of another device stay with it until its piece is done. -/
def State.engineRead (s : State) (e w n : Nat) : Reach (List Byte) :=
  match placeOf w with
  | .host a => if s.pcieUp ∧ s.busMaster then .ok (Mem.read s.hmem a n) s else .fail stUncorrectable s
  | .dev a => s.devRead a n
  | .remote d a =>
    let rows := (List.range (if n = 0 then 0 else (a + n - 1) / 64 - a / 64 + 1)).map (fun i => d * 2 ^ 42 + (a / 64 + i))
    let missing := rows.filter (fun r => !s.dmaRows.contains (e, r))
    if missing.isEmpty then
      .ok (Mem.read s.dmaIn (d * 2 ^ 48 + a) n) s
    else if s.remoteReqs.any (fun r => r.src == .engine e) then .wait s
    else
      let r := missing.foldl (fun (acc : Nat × State) row =>
        let x := acc.2.remoteSend ⟨64 + e, none, 3, 2, d, ⟨row % 2 ^ 42, 0, 0, []⟩, .engine e, s.now⟩
        (if acc.1 = stOk then x.1 else acc.1, x.2)) (stOk, s)
      if r.1 = stOk then .wait r.2 else .fail r.1 r.2

/-- Bytes that an engine writes for command `id`. -/
def State.engineWrite (s : State) (e id w : Nat) (data : List Byte) : Reach Unit :=
  if data.isEmpty then .ok () s
  else
  match placeOf w with
  | .host a => .ok () (if s.pcieUp && s.busMaster then { s with hmem := Mem.write s.hmem a data }.noteOutput id else s)
  | .dev a => (s.devWrite a data).bind (fun _ t => .ok () (t.noteOutput id))
  | .remote d a =>
    let r := (writeMsgs a data none).foldl (fun (acc : Nat × State) m =>
      let x := acc.2.remoteSend ⟨64 + e, none, m.1, 2, d, m.2, .cmd id, s.now⟩
      if x.1 = stOk then (acc.1, x.2.modCmd id (fun y => { y with acks := y.acks + 1 }))
      else (if acc.1 = stOk then x.1 else acc.1, x.2)) (stOk, s)
    if r.1 = stOk then .ok () r.2 else .fail r.1 r.2

/-! ## Elements -/

/-- The value of an element's code. -/
def codeValue (f w code : Nat) : Int :=
  if f = fmtBin then (if code = 0 then -1 else 1)
  else if f = fmtTern then signed 2 code
  else if f = fmtSint then signed w code
  else code

/-- Elements, by two's complement code, packed as a row piece of the destination (R25, R31, R32). -/
def Handle.pack (h : Handle) (vs : List Nat) : List Byte :=
  if h.tern5 then
    (List.range (ceilDiv vs.length 5)).map (fun i =>
      BitVec.ofNat 8 (((vs.drop (5 * i)).take 5).foldr (fun v acc => (if v = 3 then 2 else v) + 3 * acc) 0))
  else packBits h.elemW vs

/-- A group quantised (R47, R150): none for a bad record. Clips, and whether a NaN was met. -/
def quantGroup (c : Conv) (r : Nat) (xs : List Nat) : Option (List Nat × Nat × Bool) :=
  if !recordOk true c.asym r then none
  else if r / 2 ^ 24 = 0 then some (xs.map (fun _ => 0), 0, false)
  else
    let os := xs.map (fun x => quantise c.dfmt (fmtBits c.dfmt c.dbits) (r / 2 ^ 24 % 256) (bf16Widen r)
      (if c.sfmt = fmtBf16 then bf16Widen x else x))
    some (os.map (·.bits), (os.filter (·.clip)).length, os.any (·.special))

/-! ## One piece (R327, R329, R330) -/

/-- What a piece did: bytes read, clipping events, whether a NaN was quantised. -/
abbrev PieceDone := Nat × Nat × Bool

/-- An invalid code or record met by an engine: its address logged (R33, R159). -/
def State.engineInvalid (s : State) (addr : Nat) : Reach PieceDone :=
  .fail stMetadataInvalid (s.logEvent 0x02 stMetadataInvalid (logSource 3 0) (BitVec.ofNat 64 addr))

/-- What a conversion has made of a piece, element by element up to the first bad code or record: clipping events, whether a
NaN was met, and the element at which it stops with the address to log. -/
structure Made where
  codes : List Nat
  clips : Nat
  nan : Bool
  bad : Option (Nat × Nat)

/-- Codes read, up to the first invalid one; `addrOf` gives the address of an element's byte. -/
def madeOf (codes : List (Option Nat)) (addrOf : Nat → Nat) : Made :=
  let ok := codes.takeWhile (·.isSome)
  ⟨ok.filterMap id, 0, false, if ok.length = codes.length then none else some (ok.length, addrOf ok.length)⟩

/-- Elements of a piece that starts at `k0` that stand although element `i` is bad: those of whole blocks of 256 before it (R33);
of TERN5 whole bytes. -/
def standing (h : Handle) (k0 i : Nat) : Nat :=
  let n := (k0 + i) / 256 * 256 - k0
  if h.tern5 then n / 5 * 5 else n

/-- Elements quantised group by group (R47, R150). -/
def quantPiece (c : Conv) (xs : List Nat) (recs : List Nat) (recAt : Nat) : Made :=
  ((List.range recs.length).zip recs).foldl (fun m r =>
    if m.bad.isSome then m
    else match quantGroup c r.2 ((xs.drop (c.group * r.1)).take c.group) with
      | none => { m with bad := some (c.group * r.1, recAt + 4 * r.1) }
      | some q => ⟨m.codes ++ q.1, m.clips + q.2.1, m.nan || q.2.2, none⟩) ⟨[], 0, false, none⟩

/-- Elements dequantised (R151): a zero-range group is its OFFSET whatever bits its payload holds (R46). -/
def dequantPiece (c : Conv) (codes : List (Option Nat)) (recs : List Nat) (addrOf : Nat → Nat) (recAt : Nat) : Made :=
  let rec' (i : Nat) : Nat := recs.getD (i / c.group) 0
  let one (i : Nat) (v : Option Nat) : Option Nat :=
    let r := rec' i
    if !recordOk false c.asym r then none
    else if r / 2 ^ 24 = 0 then some (dequantise c.dfmt 0 r)
    else v.map (fun v => dequantise c.dfmt (codeValue c.sfmt (fmtBits c.sfmt c.sbits) v) r)
  madeOf ((List.range codes.length).map (fun i => one i (codes.getD i none)))
    (fun i => if recordOk false c.asym (rec' i) then addrOf i else recAt + 4 * (i / c.group))

/-- Records of a piece. -/
def recWords (bs : List Byte) : List Nat := (List.range (bs.length / 4)).map (fun i => entryNat bs (4 * i) 4)

/-- Block `i` of an RLZ row piece expanded (R157, R159, R160): the codes, or nothing for a bad block, and the slot bytes read. -/
def State.rlzSlot (s : State) (e : Nat) (h : Handle) (nb head slot : Nat) : Reach (Option (List Nat) × Nat) :=
  match rlzHeader h.elemW nb head with
  | none => .ok (none, 0) s
  | some (raw, nnz) =>
    if nnz = 0 ∧ !raw then .ok (some (List.replicate nb 0), 0) s
    else
      let n := rlzBody h.elemW nb raw nnz
      (s.engineRead e slot n).bind fun bs s => .ok (rlzExpand (h.fmt == fmtTern) h.elemW nb raw nnz bs, ceilDiv n 64 * 64) s

/-- A piece of an RLZ source expanded, from whole header rows of 16 blocks (R160), block `b0` on: what it makes, and the bytes
read, each header row counted where its first block is. -/
def State.rlzPiece (s : State) (e : Nat) (g : Seg) (h : Handle) (k k0 n b0 : Nat) : Reach (Made × Nat) :=
  let nb := ceilDiv n 256
  (s.engineRead e (g.src + 64 * (b0 / 16)) (64 * ((b0 + nb - 1) / 16 - b0 / 16 + 1))).bind fun heads s =>
    let rows := ((List.range nb).filter (fun i => (b0 + i) % 16 == 0)).length
    (List.range nb).foldl (fun acc i => acc.bind fun x s =>
      if x.1.bad.isSome then .ok x s
      else
        (s.rlzSlot e h (min 256 (k - (k0 + 256 * i))) (entryNat heads (4 * (b0 % 16 + i)) 4)
            (g.srec + 32 * h.elemW * (b0 + i))).bind fun r s =>
          match r.1 with
          | some vs => .ok ({ x.1 with codes := x.1.codes ++ vs }, x.2 + r.2) s
          | none => .ok ({ x.1 with bad := some (256 * i, g.src + 4 * (b0 + i)) }, x.2) s)
      (.ok (⟨[], 0, false, none⟩, 64 * rows) s)

/-- What a piece has made is written, up to a bad block, whose address is logged; `put` writes the destination's side. -/
def State.landPiece (s : State) (h : Handle) (k0 bytes : Nat) (m : Made) (put : State → List Nat → Reach Unit) :
    Reach PieceDone :=
  match m.bad with
  | none => (put s m.codes).bind fun _ s => .ok (bytes, m.clips, m.nan) s
  | some (i, a) => (put s (m.codes.take (standing h k0 i))).bind fun _ s => s.engineInvalid a

/-- Piece `j` of a converting copy. -/
def State.convPiece (s : State) (e : Nat) (g : Seg) (act : Action) (j : Nat) : Reach PieceDone :=
  let c := convOf g.conv
  let k := g.shape % 2 ^ 24
  let ppr := ceilDiv k c.pieceLen
  let r := j / ppr
  let k0 := j % ppr * c.pieceLen
  let n := min c.pieceLen (k - k0)
  let hs := c.src
  let hd := c.dst
  let sp := hs.piece k0 n
  let src := g.src + r * hs.rowLen k + sp.1
  let dst := g.dst + r * hd.rowLen k + (hd.piece k0 n).1
  let ng := ceilDiv k c.group
  let srec := g.srec + 4 * (r * ng + k0 / c.group)
  let drec := g.drec + 4 * (r * ng + k0 / c.group)
  let nrec := 4 * ceilDiv n c.group
  let b0 := r * ceilDiv k 256 + k0 / 256
  let codes (bs : List Byte) : List (Option Nat) := (List.range n).map (fun i => hs.codeAt k k0 i bs)
  let addrOf (i : Nat) : Nat := src + hs.byteAt k0 i
  let put (s : State) (vs : List Nat) : Reach Unit := s.engineWrite e g.cmd dst (hd.pack vs)
  match act with
  | .copy => .ok (0, 0, false) s
  | .repack =>
    (s.engineRead e src sp.2).bind fun bs s => s.landPiece hd k0 sp.2 (madeOf (codes bs) addrOf) put
  | .quantise =>
    (s.engineRead e src sp.2).bind fun bs s => (s.engineRead e srec nrec).bind fun rb s =>
      s.landPiece hd k0 sp.2 (quantPiece c ((codes bs).filterMap id) (recWords rb) srec)
        (fun s vs => (put s vs).bind fun _ s => s.engineWrite e g.cmd drec (rb.take (4 * ceilDiv vs.length c.group)))
  | .dequantise =>
    (s.engineRead e src sp.2).bind fun bs s => (s.engineRead e srec nrec).bind fun rb s =>
      s.landPiece hd k0 sp.2 (dequantPiece c (codes bs) (recWords rb) addrOf srec)
        (fun s vs => s.engineWrite e g.cmd dst (packBits (fmtBits c.dfmt 0) vs))
  | .compress =>
    (s.engineRead e src sp.2).bind fun bs s =>
      s.landPiece hd k0 sp.2 (madeOf (codes bs) addrOf) (fun s vs =>
        (List.range (ceilDiv vs.length 256)).foldl (fun acc i => acc.bind fun _ s =>
          let blk := rlzBlock hd.elemW ((vs.drop (256 * i)).take 256)
          (s.engineWrite e g.cmd (g.dst + 4 * (b0 + i)) blk.1).bind fun _ s =>
            s.engineWrite e g.cmd (g.drec + 32 * hd.elemW * (b0 + i)) blk.2) (.ok () s))
  | .expand =>
    (s.rlzPiece e g hs k k0 n b0).bind fun x s => s.landPiece hd k0 x.2 x.1 put

/-- Piece `j` of a byte copy, or of a fill: up to 4 KiB. `total` is the transfer's length. -/
def State.bytePiece (s : State) (e : Nat) (g : Seg) (j total : Nat) : Reach PieceDone :=
  let n := min 4096 (total - 4096 * j)
  if g.kind = 1 then
    let pat := leBytes 8 g.srec
    (s.engineWrite e g.cmd (g.dst + 4096 * j) ((List.replicate (n / 8) pat).flatten)).bind fun _ s => .ok (n, 0, false) s
  else
    (s.engineRead e (g.src + 4096 * j) n).bind fun bs s =>
      (s.engineWrite e g.cmd (g.dst + 4096 * j) bs).bind fun _ s => .ok (n, 0, false) s

/-! ## The end of a transfer -/

/-- A segment of the command waits in some ring or to be dealt, or a drive works for it. -/
def State.transferring (s : State) (id : Nat) : Bool :=
  s.rings.any (fun r => r.2.any (fun g => g.cmd == id)) || s.backlog.any (fun g => g.cmd == id)
    || s.driveCmds.any (fun d => d.cmd == id)

/-- The RESULT of a transfer: bytes or pages, and clipping events for DMA_COPY (R297). -/
def Cmd.transferResult (x : Cmd) : Nat :=
  if x.op = 0x13 then x.done % 2 ^ 40 + min x.clips (2 ^ 24 - 1) * 2 ^ 40 else x.done

/-- The FAILED bit of the drive of a root port. -/
def State.driveFailed (s : State) (d : Nat) : Bool := (s.reg MEM_T3_STAT).getLsbD (8 * d + 2)

/-- Every drive that has been written and not yet flushed gets a Flush before its PAGE_XFER ends, whatever its status (R326). -/
def State.flushDrives (s : State) (x : Cmd) : State :=
  (x.members.filter (fun d => !s.driveFailed d)).foldl (fun s d => { s with driveCmds := s.driveCmds ++ [⟨d, 0, 0, true, true, x.id, s.now⟩] })
    (s.modCmd x.id (fun y => { y with members := [] }))

/-- A transfer with nothing left to move: the drives it wrote are flushed, then it completes. -/
def State.endTransfer (s : State) (id : Nat) : State :=
  match s.cmd id with
  | none => s
  | some x =>
    if s.transferring id || x.closing || x.ended then s
    else
      let due := !x.members.isEmpty && x.op == 0x15
      let s := if due then s.flushDrives x else s
      if due && s.transferring id then s
      else if x.stopped then s.endStopped id
      else s.conclude id x.status 0 x.transferResult

/-- A descriptor has failed: counted; its status becomes the command's, whose other segments are dropped (R331). -/
def State.failTransfer (s : State) (id st : Nat) : State :=
  let s := s.bump MEM_DMA_ERR 1
  let s := s.modCmd id (fun x => { x with status := if x.status = stOk then st else x.status })
  let s := if st = stMetadataInvalid then s.violation 13 (match s.cmd id with
    | some x => srcSource x.src
    | none => logSource 3 0) else s
  (s.dropSegs id).endTransfer id

/-! ## The drives (R323 to R326) -/

/-- The root port of the drive that holds tier-3 page `p` (R324). -/
def State.driveOf (s : State) (p : Nat) : Nat := s.drives.getD (p % max 1 s.drives.length) 0

/-- Where a tier-3 page lies on the drives in use (R324): on the p mod D-th of them, at its page ⌊p / D⌋, by root port and byte. -/
def State.diskAddr (s : State) (p : Nat) : Nat := s.driveOf p * 2 ^ 48 + 4096 * (p / max 1 s.drives.length)

/-- A page of a PAGE_XFER goes to its drive as one 4 KiB Read or Write; a FAILED drive fails it with TIMEOUT at once. -/
def State.pagePiece (s : State) (g : Seg) (j : Nat) : Reach PieceDone :=
  let out := g.kind == 3
  let t3 := (if out then g.dst else g.src) + 4096 * j
  let other := (if out then g.src else g.dst) + 4096 * j
  let page := (t3 - 0x40000000000) / 4096
  let d := s.driveOf page
  if s.driveFailed d then .fail stTimeout s
  else if 16 * 255 ≤ (s.driveCmds.filter (fun x => x.drive == d)).length then .wait s
  else .ok (0, 0, false) { s with driveCmds := s.driveCmds ++ [⟨d, t3, other, out, false, g.cmd, s.now⟩] }

/-- The first command at a drive, and the others. -/
def takeDrive (d : Nat) : List DriveCmd → Option (DriveCmd × List DriveCmd)
  | [] => none
  | x :: xs => if x.drive = d then some (x, xs) else (takeDrive d xs).map (fun r => (r.1, x :: r.2))

/-- The event of a drive (R416): its root port, and the page. -/
def State.logDrive (s : State) (d st page : Nat) : State :=
  s.logEvent 0x12 st (logSource 6 d) (BitVec.ofNat 64 page)

/-- NVME_COMPLETION: the oldest command of the drive completes. A Read's page is written to the other side, a Write's page
has reached the drive; a failing status ends the PAGE_XFER. -/
def execNvmeCompletion (drive : Nat) (ok : Bool) (s : State) : Out :=
  s.keepEdge <| s.keepFabric <| s.keepPower <|
  match takeDrive drive s.driveCmds with
  | none => .next s
  | some (x, rest) =>
    let t : State := { s with driveCmds := rest }
    if !ok then
      .next (((t.bumpFld MEM_T3_ERR 15 0 1).logDrive drive stUncorrectable ((x.page - 0x40000000000) / 4096)).failTransfer
        x.cmd stUncorrectable)
    else if x.flush then .next (t.endTransfer x.cmd)
    else if x.write then
      match t.devRead x.addr 4096 with
      | .ok bs t =>
        let t := { t with disks := Mem.write t.disks (t.diskAddr ((x.page - 0x40000000000) / 4096)) bs }
        .next ((t.modCmd x.cmd (fun y => { y with
          done := y.done + 1, wrote := true, members := if y.members.contains drive then y.members else y.members ++ [drive] })).endTransfer
            x.cmd)
      | .fail st t => .next (t.failTransfer x.cmd st)
      | .wait _ => .next s
    else
      match t.devWrite x.addr (Mem.read t.disks (t.diskAddr ((x.page - 0x40000000000) / 4096)) 4096) with
      | .ok _ t => .next ((t.modCmd x.cmd (fun y => { y with done := y.done + 1, wrote := true })).endTransfer x.cmd)
      | .fail st t => .next (t.failTransfer x.cmd st)
      | .wait _ => .next s

/-- A drive is marked FAILED. -/
def State.failDrive (s : State) (d : Nat) : State := s.setFld MEM_T3_STAT (8 * d + 2) (8 * d + 2) 1

/-- Every transfer with a command at a drive ends with a status. -/
def State.failDriveCmds (s : State) (d st : Nat) : State :=
  ((s.driveCmds.filter (fun x => x.drive == d)).map (·.cmd)).dedup.foldl (fun s id => s.failTransfer id st)
    { s with driveCmds := s.driveCmds.filter (fun x => x.drive != d) }

/-- NVME_CMD_TIMEOUT: the oldest command of the drive has been there for MEM_T3_TMO ms: it is aborted, the drive's
controller is reset, and the transfer ends (log 1). -/
def execNvmeCmdTimeout (drive : Nat) (s : State) : Out :=
  s.inRegs <|
  let ms := s.fld MEM_T3_TMO 15 0
  match takeDrive drive s.driveCmds with
  | none => .next s
  | some (x, rest) =>
    if ms = 0 then .next s
    else
      let s := ({ s with driveCmds := rest } : State)
      let s := (s.reach (x.since + ms * msNclk)).bumpFld MEM_T3_ERR 31 16 1
      .next ((s.logDrive drive stTimeout ((x.page - 0x40000000000) / 4096)).failTransfer x.cmd stTimeout)

/-- NVME_LINK_DOWN: the drive is FAILED until the next boot; what it holds of transfers times out. -/
def execNvmeLinkDown (drive : Nat) (s : State) : Out :=
  s.inRegs <|
  if drive < 4 ∧ (s.reg MEM_T3_STAT).getLsbD (8 * drive) ∧ ¬ s.driveFailed drive then
    .next (((s.failDrive drive).logDrive drive stTimeout 0).failDriveCmds drive stTimeout)
  else .next s

/-! ## The commands -/

/-- DMA_COPY's fields: address words, the conversion, the ranges, the overlap, the bases of RLZ arrays (R156, R287, R288, R329,
R330). -/
def copyChecks (e : Entry) (s : State) : List Check :=
  let c := convOf (e.word 3)
  let k := e.word 6 % 2 ^ 24
  let n := e.word 2
  let w0 := e.word 0
  let w1 := e.word 1
  let act := c.action
  let rows := n / max 1 (c.srcRow k)
  let dn := if act = some .copy then n else if act = some .compress then 4 * ceilDiv k 256 * rows else c.dst.rowLen k * rows
  let inside (w m : Nat) : Bool := match placeOf w with
    | .dev a => m == 0 || (s.addrKind a != .tier3 && s.inRegion a m)
    | _ => true
  let writable (w : Nat) : Bool := match placeOf w with
    | .dev a => (match s.addrKind a with
      | .wm _ _ => false
      | _ => true)
    | _ => true
  let rlz (lay : Nat) : Bool := lay == 2 || lay == 3
  let useS := act = some .quantise ∨ act = some .dequantise ∨ act = some .expand
  let useD := act = some .quantise ∨ act = some .compress
  let meet : Bool := w0 / 2 ^ 48 == w1 / 2 ^ 48 && decide (w0 < w1 + dn) && decide (w1 < w0 + n)
  s.addrChecks e 0 false false ++ s.addrChecks e 1 false false
    ++ (if useS then s.addrChecks e 4 false false else []) ++ (if useD then s.addrChecks e 5 false false else [])
    ++ [okField 0 0 (inside w0 n), okField 1 0 (inside w1 dn && writable w1), okField 1 0 (!meet),
        okField 0 0 (!rlz c.slay || w0 % 64 == 0), okField 1 0 (!rlz c.dlay || w1 % 64 == 0),
        okField 4 0 (act != some .expand || e.word 4 % 64 == 0), okField 5 0 (act != some .compress || e.word 5 % 64 == 0),
        okField 3 0 act.isSome, okField 6 0 (act == some .copy || decide (1 ≤ k))]

/-- Bytes that a transfer writes at its destination. -/
def landed (kind n conv k : Nat) : Nat :=
  let c := convOf conv
  let rows := n / max 1 (c.srcRow k)
  if kind ≠ 0 ∨ c.action = some .copy then n
  else if c.action = some .compress then 4 * ceilDiv k 256 * rows
  else c.dst.rowLen k * rows

/-- A transfer starts: its segments are dealt; one of nothing completes at once. -/
def State.startTransfer (s : State) (e : Entry) (unit total pieces : Nat) (g : Seg) : Ran :=
  let r := s.start e unit total
  let lands := match placeOf g.dst with
    | .dev a => [(a, landed g.kind g.len g.conv g.shape)]
    | _ => []
  .done (((r.2.noteWrites r.1 lands).deal { g with cmd := r.1, queue := srcQueue e.src } pieces).endTransfer r.1)

/-- DMA_COPY. -/
def opDmaCopy : Body := fun e s =>
  let c := convOf (e.word 3)
  let k := e.word 6 % 2 ^ 24
  let p := c.pieces (e.word 2) k
  s.startTransfer e unitBytes p.2 p.1
    ⟨0, 0, e.word 0, e.word 1, e.word 2, e.word 3, e.word 4, e.word 5, k, 0, 0, 0, 0, 0, 0, false⟩

/-- DMA_COPY. -/
def execDmaCopy (src : Src) (s : State) : Out :=
  s.inPower <|
  .next (s.stage2 0x13 src (fields copyChecks) opDmaCopy)

/-- DMA_FILL's fields (R331). -/
def fillChecks (e : Entry) (s : State) : List Check :=
  s.addrChecks e 0 false false ++
    [okField 0 0 (e.word 0 % 8 == 0), okField 1 0 (e.word 1 % 8 == 0),
     okField 0 0 (match placeOf (e.word 0) with
       | .dev a => e.word 1 == 0 || (s.addrKind a != .tier3 && s.inRegion a (e.word 1) &&
           (match s.addrKind a with
             | .wm _ _ => false
             | _ => true))
       | _ => true)]

/-- DMA_FILL. -/
def opDmaFill : Body := fun e s =>
  s.startTransfer e unitBytes (e.word 1) (ceilDiv (e.word 1) 4096)
    ⟨0, 1, 0, e.word 0, e.word 1, 0, e.word 2, 0, 0, 0, 0, 0, 0, 0, 0, false⟩

/-- DMA_FILL. -/
def execDmaFill (src : Src) (s : State) : Out :=
  s.inPower <|
  .next (s.stage2 0x14 src (fields fillChecks) opDmaFill)

/-- PAGE_XFER's fields. -/
def pageChecks (e : Entry) (s : State) : List Check :=
  let n := e.word 2 % 2 ^ 32
  let w0 := e.word 0
  let w1 := e.word 1
  let side (a : Nat) : Bool := match s.addrKind a with
    | .tier1 | .tier2 | .ledge _ _ => s.inRegion a (4096 * n)
    | _ => false
  s.addrChecks e 0 true true ++ s.addrChecks e 1 true true ++
    [okField 0 0 (w0 % 4096 == 0 && s.addrKind w0 == .tier3 && s.inRegion w0 (4096 * n)),
     okField 1 0 (w1 % 4096 == 0 && side w1)]

/-- PAGE_XFER. -/
def opPageXfer : Body := fun e s =>
  let n := e.word 2 % 2 ^ 32
  let out := (e.word 2).testBit 63
  s.startTransfer e unitPages n n
    ⟨0, if out then 3 else 2, if out then e.word 1 else e.word 0, if out then e.word 0 else e.word 1, 4096 * n,
      0, 0, 0, 0, 0, 0, 0, 0, 0, 0, false⟩

/-- PAGE_XFER. -/
def execPageXfer (src : Src) (s : State) : Out :=
  s.inPower <|
  .next (s.stage2 0x15 src (fields pageChecks) opPageXfer)

/-- The segment at the front of engine `e`'s ring, which has failed on its buffer, goes to the ring of the next engine (R402). -/
def State.reissueSeg (s : State) (e : Nat) (g : Seg) : State :=
  let n := (e + 1) % 32
  let s := (s.bump MEM_DMA_ERR 1).setRing e ((s.ringOf e).drop 1)
  (s.setRing n (s.ringOf n ++ [{ g with again := true }])).dealOut

/-- DMA_PIECE: the next piece of the segment at the front of engine `e`'s ring. Where the buffer of the engine is uncorrectable the
descriptor fails: it is issued once more, on the next engine, once the ring of that one has room (R402). -/
def execDmaPiece (e : Nat) (s : State) : Out :=
  s.keepEdge <| s.keepFabric <| s.keepPower <|
  match (s.ringOf e).head? with
  | none => .next s
  | some g =>
    let lost := s.badWords.contains (.engine e)
    if lost && !g.again && decide (16 ≤ (s.ringOf ((e + 1) % 32)).length) then .next s
    else
    let s : State := { s with badWords := s.badWords.filter (· != .engine e) }
    if lost && !g.again then
      .next (({ s with dmaRows := s.dmaRows.filter (fun x => x.1 != e) } : State).reissueSeg e g)
    else
    let j := g.first + g.done
    let r : Reach PieceDone :=
      if lost then .fail stUncorrectable s
      else if g.kind = 2 ∨ g.kind = 3 then s.pagePiece g j
      else if g.kind = 1 then s.bytePiece e g j g.len
      else match (convOf g.conv).action with
        | some .copy => s.bytePiece e g j g.len
        | some a => s.convPiece e g a j
        | none => .fail stBadField s
    let fresh (t : State) : State := { t with dmaRows := t.dmaRows.filter (fun x => x.1 != e) }
    match r with
    | .wait t => .next t
    | .fail st t => .next ((((fresh t).sample 2 e (t.now - g.born)).setRing e ((t.ringOf e).drop 1)).failTransfer g.cmd st)
    | .ok d t =>
      let t := (fresh t).modCmd g.cmd (fun x => { x with
        done := x.done + d.1, clips := x.clips + d.2.1, raised := if d.2.2 then x.raised ||| 4 else x.raised })
      let rest := (t.ringOf e).drop 1
      let t := if g.done + 1 = g.count then t.sample 2 e (t.now - g.born) else t
      let t := t.setRing e (if g.done + 1 = g.count then rest else { g with done := g.done + 1 } :: rest)
      .next (t.dealOut.endTransfer g.cmd)

/-! ## BAR2 (R261) -/

/-- The window lies wholly in the tier-1 payload, or wholly in the populated part of tier 2. -/
def State.winOk (s : State) : Bool :=
  let b := s.fld CMDQ_WIN 11 0
  b == 0 || b == 1 || (decide (0x20 ≤ b) && decide (b < 0x20 + s.tier2Bytes / 2 ^ 36))

/-- BAR2_ACCESS: an ordinary tier access, an Unsupported Request outside a valid window, Completer Abort on an
uncorrectable word. While an atomic operation on its bytes comes first it is not served yet (R332): it comes again. -/
def execBar2Access (x : Nat) (write : Bool) (n : Nat) (data : List Byte) (s : State) : Out :=
  s.keepEdge <| s.keepFabric <| s.keepPower <| s.keepCores <|
  let say (t : State) (st : Nat) (d : List Byte) : Out := .next { t with bar2Out := t.bar2Out ++ [(st, d)] }
  if !s.pathOpen .host || decide (s.bootStep < 4) then .next s
  else if !s.winOk || decide (2 ^ 36 < x + (if write then data.length else n)) then say s 1 []
  else
    let a := s.fld CMDQ_WIN 11 0 * 2 ^ 36 + x
    if s.atomFirst a (if write then data.length else n) then .next s
    else if write then
      let r := s.memWrite a data
      say r.2 (if r.1 = stOk then 0 else 2) []
    else
      let r := s.memRead a n
      say r.2.2 (if r.1 = stOk then 0 else 2) r.2.1

end Sys2Proof.Machine
end

