-- ==== Sys2Proof/Machine/Atomics.lean ====
section
/-!
DEFINITION. The atomic units: the slices of the tiers, the units of ledge memory, and TSET (R105, R205, R207, R255, R256,
R332 to R336).
-/

namespace Sys2Proof.Machine

/-! ## Answers on the fabric (R344, R346, R360) -/

/-- The answer to a request frame goes out: to the requesting unit of its sender, on the request's class. -/
def State.reply (s : State) (req : Frame) (ty row len aux : Nat) (payload : List Byte) : State :=
  { s with egress := s.egress ++ [⟨⟨ty, req.tc, 0, s.fld FAB_ID 13 0, req.src, req.issuer, 0, 0, [⟨row, len, aux, payload⟩]⟩, none, none, false, s.now⟩] }

/-- The 16 bytes of an atomic response (R334). -/
def atomResponse (st old : Nat) : List Byte := leBytes 8 st ++ leBytes 8 old

/-- An atomic request is answered: on the fabric, or to the unit of this device that sent it. -/
def State.atomAnswer (s : State) (r : AtomReq) (st old : Nat) : State :=
  match r.src with
  | .fabric _ f => s.reply f 6 st 0 ((f.msgs.map (·.aux)).headD 0 % 1024) (atomResponse st old)
  | src => { s with atomResps := s.atomResps ++ [⟨src, st, old⟩] }

/-! ## Applying an operation -/

/-- The first request that passes a test, in arrival order, and the others. -/
def takeAtom (p : AtomReq → Bool) : List AtomReq → Option (AtomReq × List AtomReq)
  | [] => none
  | r :: rs => if p r then some (r, rs) else (takeAtom p rs).map (fun x => (x.1, r :: x.2))

/-- An operation applied to memory: the old value is read, the new one written, the request answered. -/
def State.atomRun (s : State) (r : AtomReq) : State :=
  let n := atomBytes r.op r.tw
  let m := s.memRead r.addr n
  if m.1 ≠ stOk then m.2.2.atomAnswer r m.1 0
  else
    let x := atomApply r.op r.sw r.tw (leNat m.2.1) (r.operand % 2 ^ 64) r.compare
    (m.2.2.memWrite r.addr (leBytes n x.1)).2.atomAnswer r stOk x.2

/-! ## The slices of the tiers (R332 to R336) -/

/-- A row of a slice's buffer used: most recently. -/
def useRow (b : List SliceRow) (r : SliceRow) : List SliceRow := b.filter (fun x => x.row != r.row) ++ [r]

/-- An operation on a buffered row. -/
def State.sliceRun (s : State) (sl : Nat) (r : AtomReq) (e : SliceRow) : State :=
  let s := s.setPair MEM_ATOM_OPS_LO MEM_ATOM_OPS_HI (s.pair MEM_ATOM_OPS_LO MEM_ATOM_OPS_HI + 1)
  (s.setSlice sl (useRow (s.slice sl) { e with written := true, last := s.now })).atomRun r

/-- A miss: the row's read begins, into a free entry or the least recently used one, whose written row goes back first. An
entry whose own read is under way is not taken. -/
def State.sliceMiss (s : State) (sl row : Nat) : State :=
  let b := s.slice sl
  let e : SliceRow := ⟨row, false, true, s.now⟩
  if b.length < 64 then (s.bump MEM_ATOM_MISS 1).setSlice sl (b ++ [e])
  else
    match b.find? (fun x => !x.filling) with
    | some v => (s.bump MEM_ATOM_MISS 1).setSlice sl (b.filter (fun x => x != v) ++ [e])
    | none => s

/-- A row of a slice is uncorrectable, as read or in the buffer: it is not buffered, and every operation that waits on it fails
(R335, R402). -/
def State.sliceFail (s : State) (sl row : Nat) : State :=
  let waits := s.atoms.filter (fun r => r.addr / 64 == row)
  let s : State := { s with atoms := s.atoms.filter (fun r => r.addr / 64 != row) }
  let s := s.setSlice sl ((s.slice sl).filter (fun x => x.row != row))
  waits.foldl (fun s r => (s.bump MEM_ATOM_ERR 1).atomAnswer r stUncorrectable 0) s

/-- A row that the buffer of a slice holds is uncorrectable. -/
def State.rowBad (s : State) (row : Nat) : Bool :=
  Tab.get noErr s.rowErr row != 0 && !correctable (Tab.get noErr s.rowErr row)

/-- SLICE_ATOMIC_OP: the first operation, in arrival order, whose row is not being read: applied to a buffered row,
otherwise its row's read begins. -/
def execSliceAtomicOp (sl : Nat) (s : State) : Out :=
  s.keepEdge <| s.keepFabric <| s.keepPower <| s.keepCores <|
  let mine (r : AtomReq) : Bool := s.sliceOf r.addr == some sl &&
    !(s.slice sl).any (fun x => x.row == r.addr / 64 && x.filling)
  match takeAtom mine s.atoms with
  | none => .next s
  | some (r, rest) =>
    match (s.slice sl).find? (fun x => x.row == r.addr / 64) with
    | some e =>
      .next (if s.rowBad e.row then s.sliceFail sl e.row else ({ s with atoms := rest } : State).sliceRun sl r e)
    | none => .next (s.sliceMiss sl (r.addr / 64))

/-- SLICE_ROW_FILL: the oldest row being read has come; an uncorrectable one is not buffered, and every operation waiting
on it fails (R335). -/
def execSliceRowFill (sl : Nat) (s : State) : Out :=
  s.inRegs <|
  match (s.slice sl).find? (·.filling) with
  | none => .next s
  | some e =>
    let a := 64 * e.row
    let m := s.memRead a 64
    let s := m.2.2
    if m.1 = stOk then .next (s.setSlice sl ((s.slice sl).map (fun x => if x.row = e.row then { x with filling := false } else x)))
    else .next (s.sliceFail sl e.row)

/-- 100 µs in NCLK cycles. -/
def hundredMicros : Nat := 120000

/-- SLICE_IDLE_WRITEBACK: a written row without an access for 100 µs goes back and leaves the buffer (log 1). -/
def execSliceIdleWriteback (sl row : Nat) (s : State) : Out :=
  s.inRegs <|
  match (s.slice sl).find? (fun x => x.row == row && x.written && !x.filling) with
  | none => .next s
  | some e =>
    let s := s.reach (e.last + hundredMicros)
    .next (s.setSlice sl ((s.slice sl).filter (fun x => x.row != row)))

/-! ## The units of ledge memory (R207, R255, R256) -/

/-- The ledge die and bank of a device address (R205). -/
def State.ledgeBank (s : State) (a : Nat) : Option (Nat × Nat) :=
  match s.addrKind a with
  | .ledge d off => some (d, off / 64 % 32)
  | _ => none

/-- The owner byte of a claimed ticket below LENGTH (R254, R255): the claiming logical core + 1, or 0xFF for a remote
claim. It lands before the ticket returns. -/
def State.writeOwner (s : State) (r : AtomReq) (ticket : Nat) : State :=
  let len := leNat (Mem.read s.dmem (r.addr + 4) 4)
  let own := leNat (Mem.read s.dmem (r.addr + 0x18) 8)
  let put (v : Nat) : State := if ticket < len then (s.memWrite (own + ticket) [BitVec.ofNat 8 v]).2 else s
  match r.src with
  | .claim c _ _ => put (s.logicalOf c + 1)
  | .fabric _ _ =>
    if r.op = AtomOp.fetchAdd32 ∧ s.lists.any (fun l => match l.2 with
        | some w => w.addr == r.addr && w.dev.isNone
        | none => false) then put 0xFF
    else s
  | _ => s

/-- LEDGE_ATOMIC_OP: the bank's unit applies the first operation that has arrived for it. -/
def execLedgeAtomicOp (die bank : Nat) (s : State) : Out :=
  s.keepEdge <| s.keepFabric <| s.keepPower <| s.keepCores <|
  match takeAtom (fun r => r.op != AtomOp.tset && s.ledgeBank r.addr == some (die, bank)) s.atoms with
  | none => .next s
  | some (r, rest) =>
    let old := leNat (Mem.read s.dmem r.addr 4)
    .next ((({ s with atoms := rest } : State).writeOwner r old).atomRun r)

/-- A TSET applied: the bit set and DONE_COUNT raised, or a duplicate counted; the owner is rung when DONE_COUNT reaches
LENGTH. -/
def State.tsetRun (s : State) (r : AtomReq) : State :=
  let h := s.memRead r.addr 64
  let len := entryNat64 h.2.1 4
  let done := entryNat64 h.2.1 8
  let dup := entryNat64 h.2.1 12
  let q := leNat ((h.2.1.drop 0x2E).take 2) % 64
  if h.1 ≠ stOk then h.2.2.atomAnswer r h.1 0
  else
    let a := h.2.2.tsetByte r
    let m := h.2.2.memRead a 1
    let t := m.2.2
    let b := leNat m.2.1
    if r.operand < len ∧ m.1 ≠ stOk then t.atomAnswer r m.1 0
    else if r.operand < len ∧ ¬ b.testBit (r.operand % 8) then
      let t := (t.memWrite a [BitVec.ofNat 8 (b + 2 ^ (r.operand % 8))]).2
      let t := (t.memWrite (r.addr + 8) (leBytes 4 (done + 1))).2
      let t := if done + 1 = len then t.ring (.list r.addr) else t
      t.atomAnswer r stOk 0
    else
      let t := (t.memWrite (r.addr + 12) (leBytes 4 (dup + 1))).2
      (t.violation 1 (logSource 9 q)).atomAnswer r stOk 0
where
  /-- A 4-byte word of the header. -/
  entryNat64 (bs : List Byte) (off : Nat) : Nat := leNat ((bs.drop off).take 4)

/-- TSET: the unit that holds the bit applies the first TSET that has arrived for it. -/
def execTset (die bank : Nat) (s : State) : Out :=
  s.keepEdge <| s.keepFabric <| s.keepPower <| s.keepCores <|
  match takeAtom (fun r => r.op == AtomOp.tset && s.ledgeBank (s.tsetByte r) == some (die, bank)) s.atoms with
  | none => .next s
  | some (r, rest) => .next (({ s with atoms := rest } : State).tsetRun r)

end Sys2Proof.Machine
end

