-- ==== Sys2Proof/Machine/Control.lean ====
section
/-!
DEFINITION. The configuration instructions: SETP, SGSEED and BOUND (R23, R24, R35, R61, R69, R70, R112, R132, R234, R235).
-/

namespace Sys2Proof.Machine

/-- The setting that a SETP ARRAY word names. -/
def setpArrayOf (w : W64) : ArrayCfg where
  wfmt := field w 14 10
  wbits := field w 19 15
  afmt := field w 24 20
  abits := field w 29 25
  acc16 := field w 30 30 == 1
  g := field w 32 31
  s24 := field w 33 33 == 1
  skip := field w 34 34 == 1
  pord := field w 35 35 == 1
  clog := field w 38 37
  slog := field w 42 39

/-- The pairing is one of the table of R35. -/
def pairOk (wf af : Nat) : Bool :=
  let int (f : Nat) : Bool := f == fmtUint || f == fmtSint
  (int wf && int af) || (wf == fmtBin && (af == fmtBin || int af)) || (wf == fmtTern && (int af || af == fmtTern))
    || (wf == fmtScUni && af == fmtScUni) || (wf == fmtScBip && af == fmtScBip)

/-- The combination is one that R24, R35, R69 and R70 allow. -/
def ArrayCfg.ok (a : ArrayCfg) : Bool :=
  pairOk a.wfmt a.afmt && widthOk a.wfmt a.wbits && widthOk a.afmt a.abits
    && !(a.s24 && (a.g == 1 || a.wfmt == fmtBin || a.stoch)) && (!a.stoch || decide (4 ≤ a.slog ∧ a.slog ≤ 10))

/-- The change is one that R61 makes wait. -/
def setpWaits (old : Option ArrayCfg) (a : ArrayCfg) : Bool :=
  match old with
  | none => true
  | some o => !(o.g == a.g && o.acc16 == a.acc16 && o.wfmt == a.wfmt && o.wbits == a.wbits && o.afmt == a.afmt
      && o.abits == a.abits && o.s24 == a.s24)

/-- SETP ARRAY: the combination checked, ASYM refused, then a wait until the accumulate stage is empty; a
pass still in its array slot is waited for too, and counts. DESIGN CHOICE, log 63. -/
def execSetpArray (c : Nat) (s : State) : Out :=
  s.inCore c <|
  withTile .setpArray c s (fun w =>
    let k := s.core c
    let a := setpArrayOf w
    if !a.ok then s.tileFault c stBadField 0
    else if setpWaits k.arr a && !k.passes.isEmpty then s.stall c waitSetp (some CORE_ARR_STALL)
    else (s.setCore c { k with arr := some a }).issue c [])

/-- SETP AGA. -/
def execSetpAga (c : Nat) (s : State) : Out :=
  s.inCore c <|
  withTile .setpAga c s (fun w =>
    (s.modCore c (·.setAg (field w 12 10) ⟨field w 63 32, signed 19 (field w 31 13), 0, 0, 0, 0⟩)).issue c [])

/-- SETP AGB. -/
def execSetpAgb (c : Nat) (s : State) : Out :=
  s.inCore c <|
  withTile .setpAgb c s (fun w =>
    let i := field w 12 10
    (s.modCore c (fun k => k.setAg i { k.ag i with
      tsel := field w 15 13, period := field w 27 16, outer := signed 24 (field w 63 40), use := 0 })).issue c [])

/-- SETP DRAIN. -/
def execSetpDrain (c : Nat) (s : State) : Out :=
  s.inCore c <|
  withTile .setpDrain c s (fun w =>
    (s.modCore c (fun k => { k with
      drn := some ⟨signed 7 (field w 16 10), field w 17 17 == 1, field w 25 18, field w 33 26, field w 49 34⟩ })).issue c
      [])

/-- A STREAM pass or a generating load in flight uses the generator (R112). -/
def CoreState.genBusy (k : CoreState) (g : Nat) : Bool :=
  k.passes.any (fun p => !p.retired && p.gen == some g)
    || k.pageWrites.any (fun w => match w.tag with | some t => t.gen == g | none => false)

/-- SGSEED (R112). -/
def execSgseed (c : Nat) (s : State) : Out :=
  s.inCore c <|
  withTile .sgseed c s (fun w =>
    let k := s.core c
    let g := field w 9 6
    if k.genBusy g then s.stall c waitSetp (some CORE_ARR_STALL)
    else
      let ep := (k.fld c (CORE_SG_STATE g) 31 16 + 1) % 2 ^ 16
      (s.setCreg c (CORE_SG_STATE g) (BitVec.ofNat 32 (ep * 2 ^ 16 + field w 31 16))).issue c [])

/-- BOUND: the register takes the immediate, or a word of AM. -/
def execBoundWrite (c : Nat) (s : State) : Out :=
  s.inCore c <|
  withTile .bound c s (fun w =>
    let k := s.core c
    let b := field w 9 6
    if field w 10 10 = 0 then (s.setCreg c (CORE_BOUND b) (BitVec.ofNat 32 (field w 63 32))).issue c []
    else
      let r := field w 14 11
      let a := agRef c k r
      if !agIn a (2 ^ 20 - 4) 4 then s.tileFault c stShapeInvalid 0
      else
        match s.coreRead c 3 .am a.toNat 4 with
        | .wait t => t.stall c waitPort none
        | .fail st t => t.tileFault c st 0
        | .ok bs t => (t.setCreg c (CORE_BOUND b) (BitVec.ofNat 32 (leNat bs))).issue c [r])

end Sys2Proof.Machine
end

