-- ==== Sys2Proof/Machine/Layer.lean ====
section
/-!
DEFINITION. The layer descriptor: its fields, their checks, the shape of a layer and its tiles (R123, R132, R148, R149,
R154, R155, R175, R238 to R246, R258, R304 to R306).
-/

namespace Sys2Proof.Machine

/-! ## Fields (R306) -/

/-- A field by offset and bytes. -/
def Desc.at' (d : Desc) (off n : Nat) : Nat := entryNat d off n

/-- A FLAGS bit. -/
def Desc.flag (d : Desc) (i : Nat) : Bool := (d.at' 0x004 4).testBit i
abbrev Desc.routed (d : Desc) : Bool := d.flag 2
abbrev Desc.plist (d : Desc) : Bool := d.flag 3
abbrev Desc.pred (d : Desc) : Bool := d.flag 4
abbrev Desc.hac (d : Desc) : Bool := d.flag 5

/-- The handle numbers: HA, HAR, HW, HWS, HO, HOR, HOS, HSM, HP, HPS at index 0 to 9. -/
def Desc.hnd (d : Desc) (i : Nat) : Nat := d.at' (0x030 + i) 1

/-- PREC as a setting, with ABITS as given. -/
def Desc.prec (d : Desc) : ArrayCfg :=
  let p := d.at' 0x008 8
  { wfmt := bitsOf p 4 0, wbits := bitsOf p 9 5, afmt := bitsOf p 14 10, abits := bitsOf p 19 15, acc16 := p.testBit 20,
    g := bitsOf p 22 21, s24 := p.testBit 23, skip := d.flag 0, pord := d.flag 1, clog := bitsOf p 26 25, slog := bitsOf p 30 27 }

/-- PATH: 0 EPI, 1 RAW, 2 ATOMIC. -/
def Desc.path (d : Desc) : Nat := bitsOf (d.at' 0x043 1) 3 2
/-- Rows of an output tile. -/
def Desc.tr (d : Desc) : Nat := d.at' 0x01F 1 + 1
def Desc.cm (d : Desc) : Nat := d.at' 0x020 2
def Desc.cn (d : Desc) : Nat := d.at' 0x022 2
def Desc.ck (d : Desc) : Nat := d.at' 0x024 2
/-- ORDER at level 0 to 3. -/
def Desc.order (d : Desc) (l : Nat) : Nat := bitsOf (d.at' 0x01C 2) (3 * l + 2) (3 * l)
def Desc.fbObits (d : Desc) : Nat := d.at' 0x04A 1
def Desc.clip (d : Desc) : Nat := d.at' 0x048 2
def Desc.layerId (d : Desc) : Nat := d.at' 0x002 2

/-- The activation width in force: a zero ABITS is the input handle's width (R149). -/
def State.abits (s : State) (d : Desc) : Nat :=
  if d.prec.abits = 0 then (s.handle (d.hnd 0)).width else d.prec.abits

/-- The setting in force. -/
def State.layerCfg (s : State) (d : Desc) : ArrayCfg := { d.prec with abits := s.abits d }

/-- The precision field of R83: PREC [23:0] with a zero ABITS filled. -/
def State.precField (s : State) (d : Desc) : Nat :=
  let p := d.at' 0x008 8
  bitsOf p 14 0 + s.abits d * 2 ^ 15 + bitsOf p 23 20 * 2 ^ 20

/-- The handles that a layer reads, and those it writes. -/
def Desc.reads (d : Desc) : List Nat :=
  let float := 6 ≤ d.at' 0x040 1
  let stoch := d.prec.stoch
  [d.hnd 0, d.hnd 2] ++ (if stoch then [] else [d.hnd 1, d.hnd 3]) ++ (if d.flag 9 && !float then [d.hnd 6] else [])
    ++ (if d.flag 8 then [d.hnd 7] else []) ++ (if d.pred then [d.hnd 8, d.hnd 9] else [])
def Desc.writes (d : Desc) : List Nat :=
  if d.path = 2 then [] else if d.path = 0 ∧ d.at' 0x040 1 < 6 then [d.hnd 4, d.hnd 5] else [d.hnd 4]

/-! ## Dimensions (R244, R245) -/

/-- A dimension field takes its value from a bound. -/
def dimBound (v : Nat) : Option Nat := if 0xFFFFFFF0 ≤ v then some (v - 0xFFFFFFF0) else none

/-- Every size is fixed in the descriptor. -/
def Desc.fixed (d : Desc) : Bool := [0x010, 0x014, 0x018].all (fun o => (dimBound (d.at' o 4)).isNone)

/-- M, N, K under bound values. -/
def Desc.dims (d : Desc) (bounds : List W32) : Nat × Nat × Nat :=
  let v (o : Nat) : Nat := match dimBound (d.at' o 4) with
    | some b => (bounds.getD b 0).toNat
    | none => d.at' o 4
  (v 0x010, v 0x014, v 0x018)

/-- A bound source (R244): its value, the address of a word, or a bad one. -/
inductive BoundSrc where
  | value (v : W32)
  | word (a : Nat)
  | bad

/-- An 8-byte bound source taken apart. -/
def boundSrc (n : Nat) : BoundSrc :=
  if n.testBit 63 then (if n / 2 ^ 48 % 2 ^ 15 ≠ 0 ∨ n % 4 ≠ 0 then .bad else .word (n % 2 ^ 48))
  else if n / 2 ^ 48 % 2 ^ 15 ≠ 0 then .bad else .value (BitVec.ofNat 32 n)

/-- Reading the bound sources: their values; or a wait; or the status and the number of the source that ends it. -/
inductive Bounds where
  | ok (vs : List W32) (s : State)
  | wait (s : State)
  | bad (st i : Nat) (s : State)

/-- The bound sources from number `i` on, each memory bound read once: BAD_FIELD where one is reserved, unaligned or names what
cannot be reached, the status of its read where that fails otherwise (R244). -/
def State.readFrom (srcs : List Byte) : Nat → Nat → List W32 → State → Bounds
  | 0, _, vs, s => .ok vs s
  | n + 1, i, vs, s =>
    match boundSrc (entryNat srcs (8 * i) 8) with
    | .value v => State.readFrom srcs n (i + 1) (vs ++ [v]) s
    | .word a =>
      (match s.devRead a 4 with
        | .ok b t => State.readFrom srcs n (i + 1) (vs ++ [BitVec.ofNat 32 (leNat b)]) t
        | .wait t => .wait t
        | .fail st t => .bad (if st = stUncorrectable then st else stBadField) i t)
    | .bad => .bad stBadField i s

/-- The 16 bound values. -/
def State.readBounds (s : State) (srcs : List Byte) : Bounds := State.readFrom srcs 16 0 [] s

/-! ## Tiles (R238 to R240) -/

/-- N-blocks and K-blocks of a layer. -/
def nBlocks (n : Nat) : Nat := ceilDiv n 512
def kBlocks (a : ArrayCfg) (k : Nat) : Nat := ceilDiv k a.blockLen

/-- The three loops over M, N and K places in the order of a code, outermost first (R239). -/
def nestOf (code : Nat) (ms ns ks : List Nat) : List (Nat × Nat × Nat) :=
  match code with
  | 0 => ms.flatMap (fun i => ns.flatMap (fun j => ks.map (fun l => (i, j, l))))
  | 1 => ns.flatMap (fun j => ms.flatMap (fun i => ks.map (fun l => (i, j, l))))
  | 2 => ms.flatMap (fun i => ks.flatMap (fun l => ns.map (fun j => (i, j, l))))
  | 3 => ns.flatMap (fun j => ks.flatMap (fun l => ms.map (fun i => (i, j, l))))
  | 4 => ks.flatMap (fun l => ms.flatMap (fun i => ns.map (fun j => (i, j, l))))
  | _ => ks.flatMap (fun l => ns.flatMap (fun j => ms.map (fun i => (i, j, l))))

/-- The same over the first `m`, `n` and `k` places. -/
def nest (code m n k : Nat) : List (Nat × Nat × Nat) := nestOf code (List.range m) (List.range n) (List.range k)

/-- Core tiles of a ledge tile in ORDER.L2 order: whole units except at its edges (R238, R240). -/
def Desc.coreTiles (d : Desc) (t : LTile) : List LTile :=
  (nest (d.order 2) (ceilDiv t.ml d.cm) (ceilDiv t.nl d.cn) (ceilDiv t.kl d.ck)).map (fun p =>
    ⟨t.item, t.m0 + p.1 * d.cm, min d.cm (t.ml - p.1 * d.cm), t.n0 + p.2.1 * d.cn, min d.cn (t.nl - p.2.1 * d.cn),
      t.k0 + p.2.2 * d.ck, min d.ck (t.kl - p.2.2 * d.ck)⟩)

/-- Core tiles of a ledge tile counted. -/
def Desc.tileCount (d : Desc) (t : LTile) : Nat := ceilDiv t.ml d.cm * ceilDiv t.nl d.cn * ceilDiv t.kl d.ck

/-- N-blocks of a rotation block: more than one where RSIZE exceeds 9. -/
def Desc.spanN (d : Desc) : Nat := 2 ^ (d.at' 0x04B 1 % 16 - 9)

/-- Two core tiles hold chunks of one rotation block of one row (R138). -/
def Desc.sameBlock (d : Desc) (x y : LTile) : Bool :=
  x.item == y.item && x.m0 == y.m0 && x.n0 / d.spanN == y.n0 / d.spanN

/-- The logical cores of core tiles dealt to `a` cores: tile `j` of `t` goes to core j * a / t (R240); where a rotation block takes
more than one N-block, every tile goes with the first one that holds chunks of the same block (R138; log 27). -/
def Desc.deal (d : Desc) (a : Nat) (ts : List LTile) : List (Nat × LTile) :=
  let dealt := (ts.zip (List.range ts.length)).map (fun p => (p.2 * a / ts.length, p.1))
  if d.spanN ≤ 1 then dealt
  else dealt.map (fun p => (((dealt.find? (fun q => d.sameBlock q.2 p.2)).map (·.1)).getD p.1, p.2))

/-- The share of logical core `i` in the order of the deal. -/
def shareOf (dealt : List (Nat × LTile)) (i : Nat) : List LTile := (dealt.filter (fun p => p.1 == i)).map (·.2)

/-- A number put into an ascending list that does not hold it. -/
def insertKey (k : Nat) : List Nat → List Nat
  | [] => [k]
  | x :: xs => if k < x then k :: x :: xs else if k = x then x :: xs else x :: insertKey k xs

/-- A share in ORDER.L1 order, item by item (R240). -/
def Desc.inL1 (d : Desc) (ts : List LTile) : List LTile :=
  (ts.map (·.item)).eraseDups.flatMap (fun i =>
    let mine := ts.filter (·.item == i)
    let places (f : LTile → Nat) : List Nat := (mine.map f).foldr insertKey []
    (nestOf (d.order 1) (places (·.m0)) (places (·.n0)) (places (·.k0))).filterMap (fun p =>
      mine.find? (fun t => t.m0 == p.1 && t.n0 == p.2.1 && t.k0 == p.2.2)))

/-- Ledge tiles of `lm` rows, `ln` N-blocks and `lk` K-blocks, in ORDER.L3 order (R240). -/
def Desc.ledgeTiles (d : Desc) (m nb kb lm ln lk : Nat) : List LTile :=
  (nest (d.order 3) (ceilDiv m lm) (ceilDiv nb ln) (ceilDiv kb lk)).map (fun p =>
    ⟨0, p.1 * lm, min lm (m - p.1 * lm), p.2.1 * ln, min ln (nb - p.2.1 * ln), p.2.2 * lk, min lk (kb - p.2.2 * lk)⟩)

/-- Ledge tile sizes of the descriptor: LM, LN, LK, 0 taking all. -/
def Desc.ledgeSize (d : Desc) (m nb kb : Nat) : Nat × Nat × Nat :=
  let z (v all : Nat) : Nat := if v = 0 then max 1 all else v
  (z (d.at' 0x028 4) m, z (d.at' 0x026 2) nb, z (d.at' 0x02C 2) kb)

/-- Output tiles of a core tile that have an M, N or K edge (R248). -/
def Desc.edgesOf (d : Desc) (a : ArrayCfg) (m n k : Nat) (t : LTile) : Nat :=
  let rows := (List.range (ceilDiv t.ml d.tr)).map (fun i => t.m0 + i * d.tr)
  let nbs := (List.range t.nl).map (t.n0 + ·)
  let kEdge := decide (kBlocks a k ≤ t.k0 + t.kl) && k % a.blockLen != 0
  (rows.flatMap (fun r => nbs.filter (fun b => kEdge || decide (m < r + d.tr) || decide (n < 512 * (b + 1))))).length

/-! ## Shape checks (R241, R242, R245) -/

/-- Entry offsets of the descriptor's fields as DETAIL (R305). -/
def descDetail (off : Nat) : Nat := 0x80 + off / 4

/-- Output tiles live at once on a core (R241); none when K is split in a way it forbids. -/
def Desc.live (d : Desc) (kb kspan : Nat) : Option Nat :=
  let rg := ceilDiv d.cm d.tr
  let byOrder := match d.order 0 with
    | 0 => 1
    | 1 => 1
    | 2 => d.cn
    | 3 => rg
    | _ => rg * d.cn
  if d.path = 2 then some byOrder
  else if kspan < kb then none
  else if kb ≤ d.ck then some byOrder
  else if 2 ≤ d.order 1 then none
  else some (rg * d.cn)

/-- An EPI or RAW layer keeps each output's K on one core when `a` cores take core tiles (R240, R241). -/
def Desc.kTogether (d : Desc) (a : Nat) (ts : List LTile) : Bool :=
  let dealt := d.deal a ts
  d.path == 2 || dealt.all (fun x => dealt.all (fun y =>
    !(x.2.item == y.2.item && x.2.m0 == y.2.m0 && x.2.n0 == y.2.n0) || x.1 == y.1))

/-- The lengths that cutting `n` units into runs of `l` gives. -/
def cuts (n l : Nat) : List Nat := (if l ≤ n ∧ 0 < l then [l] else []) ++ (if n % l = 0 then [] else [n % l])

/-- The core tiles of each shape of ledge tile that sizes of LM, LN and LK give. -/
def Desc.shapes (d : Desc) (m nb kb : Nat) (sz : Nat × Nat × Nat) : List (List LTile) :=
  (cuts m sz.1).flatMap (fun ml => (cuts nb sz.2.1).flatMap (fun nl => (cuts kb sz.2.2).map (fun kl =>
    d.coreTiles ⟨0, 0, ml, 0, nl, 0, kl⟩)))

/-- The deals of a layer: one for each shape of ledge tile; one for a pointer list, here of one entry; for a routed layer one work
item, which a core takes whole (R166, R240, R246). -/
def Desc.deals (d : Desc) (m nb kb : Nat) : List (List LTile) :=
  if d.routed then [d.coreTiles ⟨0, 0, min m 4096, 0, min nb (d.at' 0x02E 2), 0, kb⟩]
  else if d.plist then [d.coreTiles ⟨0, 0, m, 0, nb, 0, kb⟩]
  else d.shapes m nb kb (d.ledgeSize m nb kb)

/-- Pages of a WM handle in each macro: WM offset 2^17 per macro, 1 KiB per page (log 28). -/
def Handle.wmPages (h : Handle) : Nat := ceilDiv (64 * h.length) 1024

/-- Pages per macro that RESIDENT handles other than `n` hold. -/
def State.residentPages (s : State) (n : Nat) : Nat :=
  ((List.range 256).map (fun i =>
    let h := s.handle i
    if i ≠ n ∧ h.valid ∧ h.resident ∧ h.mem = memWm then h.wmPages else 0)).sum

/-- Bytes of a scratchpad that valid handles hold which the layer does not use. -/
def State.otherBytes (s : State) (d : Desc) (mem : Nat) : Nat :=
  ((List.range 256).map (fun i =>
    let h := s.handle i
    if h.valid ∧ h.mem = mem ∧ ¬ (d.reads ++ d.writes).contains i then 64 * h.length else 0)).sum

/-- Regions of PM that a layer names: output scales, smoothing bytes, row and top-k records of 16 contexts, and the staging area of
16 contexts at CORE_RASP_STAGE of a core that rotates blocks of more than 512 columns (R137, R242). -/
def State.pmRegions (s : State) (d : Desc) (stage : Nat) : List (Nat × Nat) :=
  let ofHandle (i : Nat) : List (Nat × Nat) :=
    let h := s.handle (d.hnd i)
    if h.valid ∧ h.mem = memPm then [(h.base, 64 * h.length)] else []
  (if d.flag 9 then ofHandle 6 else []) ++ (if d.flag 8 then ofHandle 7 else [])
    ++ (if d.at' 0x060 1 = 0 then [] else [(64 * d.at' 0x066 2, 64 * 16)])
    ++ (if (d.at' 0x060 1).testBit 4 then [(64 * d.at' 0x068 2, 8 * (d.at' 0x061 1 + 1) * 16)] else [])
    ++ (if 1 < d.spanN then [(stage, 8 * 512 * d.spanN * 16)] else [])

/-- The regions lie in PM and none meets another. -/
def regionsApart : List (Nat × Nat) → Bool
  | [] => true
  | r :: rs => decide (r.1 + r.2 ≤ 2 ^ 20) && rs.all (fun q => decide (r.1 + r.2 ≤ q.1 ∨ q.1 + q.2 ≤ r.1)) && regionsApart rs

/-- Rows open at once (R89): the rows of a core tile when M lies inside N, else those of a row group. -/
def Desc.openRows (d : Desc) (nb : Nat) : Nat :=
  if d.at' 0x060 1 = 0 then 0
  else if 1 < nb ∧ [1, 3, 5].contains (d.order 0) then d.cm else min d.cm d.tr

/-- The PM of each of the first `a` logical cores holds what the layer places there. -/
def State.pmFits (s : State) (d : Desc) (a : Nat) : Bool :=
  (List.range a).all (fun i => match s.physOf i with
    | some p => regionsApart (s.pmRegions d (s.creg p CORE_RASP_STAGE).toNat)
    | none => true)

/-- The shape checks of a layer of `m`, `n`, `k` on `a` cores, its core tiles dealt as `deals`: the DETAIL of the first failing
field, in descriptor order. -/
def State.shapeBad (s : State) (d : Desc) (m n k a : Nat) (deals : List (List LTile)) : Option Nat :=
  let cfg := s.layerCfg d
  let lim := 2 ^ 24 - 1
  let nb := nBlocks n
  let kb := kBlocks cfg k
  let sz := d.ledgeSize m nb kb
  let share (ts : List LTile) : Nat :=
    if d.routed then ts.length else ((List.range a).map (fun i => (shareOf (d.deal a ts) i).length)).foldl max 0
  if lim < m then some (descDetail 0x010)
  else if lim < n then some (descDetail 0x014)
  else if k = 0 ∨ lim < k then some (descDetail 0x018)
  else if deals.all (·.isEmpty) then none
  else
    match d.live kb sz.2.2 with
    | none => some (descDetail (if sz.2.2 < kb then 0x02C else 0x01C))
    | some q =>
      let b := if deals.all (fun ts => decide (share ts ≤ 1)) then 1 else 2
      let hw := s.handle (d.hnd 2)
      let held := hw.valid && hw.resident && hw.mem == memWm
      let bw := if held then 1 else b
      let rpb := if cfg.acc16 then 8 else 4
      let acm := (q + 1) * ceilDiv d.tr rpb
      let wm := bw * (d.cn * d.ck * cfg.pages + ceilDiv (d.cn * d.ck * cfg.segs) 16)
      let am := b * d.cm * d.ck * ((if cfg.s24 then 64 else 32) * cfg.abits + 4 * cfg.segs)
      if !deals.all (d.kTogether a) then some (descDetail 0x01C)
      else if 32 - (if d.hac then d.at' 0x0A4 1 else 0) < acm then some (descDetail 0x01C)
      else if 128 - s.residentPages (if held then d.hnd 2 else 256) < wm then some (descDetail 0x024)
      else if 2 ^ 20 - s.otherBytes d memAm < am then some (descDetail 0x020)
      else if !s.pmFits d a then some (descDetail 0x066)
      else if 16 < d.openRows nb then some (descDetail 0x020)
      else none

/-! ## Field checks (R305, R306) -/

/-- One check of a descriptor field. -/
def descCheck (off st : Nat) (b : Bool) : Check := (descDetail off, st, b)

/-- A descriptor field holds a value its table allows. -/
def descOk (off : Nat) (b : Bool) : Check := descCheck off stBadField b

/-- Bytes of the descriptor are zero, one check per byte. -/
def Desc.zero (d : Desc) (off n : Nat) : List Check := (List.range n).map (fun i => descOk (off + i) (d.at' (off + i) 1 == 0))

/-- An ADDR field, by its failing byte: its reserved bits are zero, it names nothing reserved, and what `ok` asks holds. -/
def State.descAddr (s : State) (d : Desc) (off : Nat) (ok : Nat → Bool) : List Check :=
  let w := d.at' off 8
  [descOk (off + 6) (w.testBit 63 || w.testBit 62 || w / 2 ^ 48 % 2 ^ 14 == 0),
   descOk off (ok w && (match placeOf w with
     | .dev a => s.addrKind a != .reserved
     | _ => true))]

/-- Handles with the index or slots handle that each of them takes along (R156, R247). -/
def State.withNext (s : State) (hs : List Nat) : List Nat :=
  hs.flatMap (fun h => if (s.handle h).layout = 2 ∨ (s.handle h).layout = 4 then [h, h + 1] else [h])

/-- Where a handle's bytes lie for an address word: device, or none for this one, address, bytes; a scratchpad's in the window of
every core (R183). -/
def Handle.places (h : Handle) : List (Option Nat × Nat × Nat) :=
  let window (off n : Nat) : List (Option Nat × Nat × Nat) :=
    (List.range 64).map (fun i => (none, 0x9000000000 + i * 0x800000 + off, n))
  if !h.valid then []
  else if h.mem = memAm then window h.base (64 * h.length)
  else if h.mem = memPm then window (0x100000 + h.base) (64 * h.length)
  else if h.mem = memWm then window 0x200000 0x200000
  else if h.mem = memRemote then [(some h.devid, h.base, 64 * h.length)]
  else [(none, h.base, 64 * h.length)]

/-- `n` bytes where an ADDR word names overlap an input of the layer (R148). -/
def State.meetsInput (s : State) (d : Desc) (w n : Nat) : Bool :=
  let at' : Option (Option Nat × Nat) := match placeOf w with
    | .dev a => some (none, a)
    | .remote v a => some (some v, a)
    | .host _ => none
  match at' with
  | none => false
  | some p => ((s.withNext d.reads).flatMap (fun h => (s.handle h).places)).any (fun q =>
      q.1 == p.1 && decide (p.2 < q.2.1 + q.2.2 ∧ q.2.1 < p.2 + n))

/-- A fallback area of a layer of `m` rows and `n` columns overlaps an input of it: the DETAIL (R148). -/
def State.fallbackBad (s : State) (d : Desc) (m n : Nat) : Option Nat :=
  if d.fbObits = 0 then none
  else if s.meetsInput d (d.at' 0x050 8) (m * ceilDiv (n * d.fbObits) 8) then some (descDetail 0x050)
  else if s.meetsInput d (d.at' 0x058 8) ((s.handle (d.hnd 5)).length * 64) then some (descDetail 0x058)
  else none

/-- A used handle lies in tier 3 (R325). -/
def State.tier3Used (s : State) (d : Desc) : List Check :=
  (List.range 10).map (fun i => descOk (0x030 + i)
    (!(d.reads ++ d.writes).contains (d.hnd i) || !((s.handle (d.hnd i)).valid && (s.handle (d.hnd i)).mem == memTier3)))

/-- The first part of the checks: header, precision, sizes, handles. -/
def State.descChecksA (s : State) (d : Desc) : List Check :=
  let p := d.at' 0x008 8
  let cfg := s.layerCfg d
  let ha := s.handle (d.hnd 0)
  let hw := s.handle (d.hnd 2)
  let intA := decide (ha.fmt < 6)
  [descOk 0x000 (d.at' 0x000 2 == 1), descOk 0x004 (d.at' 0x004 4 / 2 ^ 10 == 0),
   descOk 0x008 cfg.ok, descOk 0x00B (!p.testBit 24), descOk 0x00B (!p.testBit 31), descOk 0x00C (p / 2 ^ 32 == 0),
   descOk 0x008 (d.prec.abits == 0 || !ha.valid || !intA || ha.width == d.prec.abits),
   descCheck 0x010 stShapeInvalid ((dimBound (d.at' 0x010 4)).isSome || decide (d.at' 0x010 4 < 2 ^ 24)),
   descCheck 0x014 stShapeInvalid ((dimBound (d.at' 0x014 4)).isSome || decide (d.at' 0x014 4 < 2 ^ 24)),
   descCheck 0x018 stShapeInvalid ((dimBound (d.at' 0x018 4)).isSome || decide (1 ≤ d.at' 0x018 4 ∧ d.at' 0x018 4 < 2 ^ 24)),
   descOk 0x018 (!cfg.s24 || (dimBound (d.at' 0x018 4)).isSome || d.at' 0x018 4 % 4 == 0),
   descOk 0x01C (d.at' 0x01C 2 / 2 ^ 12 == 0 && (List.range 4).all (fun l => decide (d.order l < 6))),
   descOk 0x01E (decide (d.at' 0x01E 1 ≤ 64)), descOk 0x01F (decide (d.tr ≤ if cfg.acc16 then 256 else 128)),
   descOk 0x020 (d.cm != 0), descOk 0x022 (d.cn != 0), descOk 0x024 (d.ck != 0),
   descOk 0x02E (!d.routed || d.at' 0x02E 2 != 0),
   descOk 0x032 (!hw.valid || ((hw.layout == 1) == cfg.s24 && !(cfg.s24 && hw.tern5)))]
    ++ s.tier3Used d ++ d.zero 0x03A 6

/-- The second part: output, requantiser, range misses, the rasp unit, the epilogue. -/
def State.descChecksB (s : State) (d : Desc) : List Check :=
  let ofmt := d.at' 0x040 1
  let obits := d.at' 0x041 1
  let float := ofmt == fmtBf16 || ofmt == fmtFp32
  let fb := d.fbObits
  let epi := d.path == 0
  let tb (o : Nat) : Bool := decide (d.at' o 1 < 64 ∨ 192 ≤ d.at' o 1)
  let st := d.at' 0x060 1
  [descOk 0x040 (fmtKnown ofmt && (!epi || (ofmt < 4 || float))),
   descOk 0x041 (widthOk ofmt obits),
   descOk 0x042 (!epi || float || decide (1 ≤ d.at' 0x042 1 ∧ d.at' 0x042 1 ≤ 0xFE)),
   descOk 0x043 (d.path != 3 && d.at' 0x043 1 / 32 == 0 && (!d.routed || d.path == 2)),
   descOk 0x044 (tb 0x044), descOk 0x045 (tb 0x045),
   descOk 0x048 (decide (d.clip ≤ 4096)),
   descOk 0x04A (fb == 0 || ((ofmt == fmtUint || ofmt == fmtSint) && decide (obits < fb ∧ fb ≤ 16) && d.path != 2)),
   descOk 0x04B (d.at' 0x04B 1 < 16 && (d.at' 0x04B 1 == 0 || decide (6 ≤ d.at' 0x04B 1 ∧ d.at' 0x04B 1 ≤ 12))),
   descOk 0x060 (decide (st < 32)), descOk 0x061 (decide (d.at' 0x061 1 < 64))]
    ++ (if fb = 0 then [] else
      s.descAddr d 0x050 (fun _ => true) ++ s.descAddr d 0x058 (fun _ => true)
        ++ (if d.fixed then (match s.fallbackBad d (d.dims []).1 (d.dims []).2.1 with
          | some det => [(det, stBadField, false)]
          | none => []) else []))
    ++ d.zero 0x04C 4 ++ d.zero 0x06A 6

/-- The third part: routing, pointer lists, HAC, prediction, streams, bounds. -/
def State.descChecksC (s : State) (d : Desc) : List Check :=
  let stoch := d.prec.stoch
  let ofmt := d.at' 0x040 1
  let atomic := d.path == 2
  let th := d.at' 0x0A4 1
  (if d.routed then s.descAddr d 0x070 (fun w => w % 16 == 0) ++ [descOk 0x078 (decide (d.at' 0x078 2 < 4096)),
        descCheck 0x070 stMetadataInvalid ((List.range (d.at' 0x078 2 + 1)).all (fun e =>
          d.at' (512 + 16 * e + 6) 2 == 0 && d.at' (512 + 16 * e + 12) 4 == 0))] else [])
    ++ (if d.plist then s.descAddr d 0x088 (fun w => w % 64 == 0) ++ [
        descOk 0x090 (decide (1 ≤ d.at' 0x090 4 ∧ d.at' 0x090 4 ≤ 65536))] else [])
    ++ (if atomic || d.hac then s.descAddr d 0x098 (fun _ => true) ++ [descOk 0x09F (!(d.at' 0x098 8).testBit 63),
        descOk 0x0A0 (d.at' 0x0A0 4 % 64 == 0)] else [])
    ++ (if d.hac then [descOk 0x0A4 (decide (1 ≤ th ∧ th + d.at' 0x0A5 1 ≤ 32)), descOk 0x0A5 (decide (d.at' 0x0A5 1 < 32))] else [])
    ++ (if d.pred then [descOk 0x040 (ofmt == fmtUint || ofmt == fmtSint || ofmt == fmtTern),
        descOk 0x0B8 (decide (d.at' 0x0B8 1 ≤ 10)), descOk 0x0B9 (decide (d.at' 0x0B9 1 ≤ 1)),
        descOk 0x0BA (decide (d.at' 0x0BA 2 ≤ 1024))] else [])
    ++ (if stoch then [descOk 0x0C5 (d.at' 0x0C5 1 < 64), descOk 0x0C6 (d.at' 0x0C6 1 < 64), descOk 0x0C8 (decide (d.at' 0x0C8 4 < 2 ^ 31))]
      else d.zero 0x0C4 3 ++ [descOk 0x0C8 (d.at' 0x0C8 4 == 0)])
    ++ d.zero 0x07A 6 ++ d.zero 0x094 4 ++ d.zero 0x0A6 10 ++ d.zero 0x0BC 4 ++ d.zero 0x0C7 1 ++ d.zero 0x0CC 52
    ++ (List.range 16).map (fun i => descOk (0x106 + 8 * i) (d.at' (0x106 + 8 * i) 2 % 2 ^ 15 == 0)) ++ d.zero 0x180 128

/-- The core count of R240. -/
def State.layerCores (s : State) (d : Desc) : Nat :=
  if d.at' 0x01E 1 = 0 then s.active else min (d.at' 0x01E 1) s.active

/-- The checks of a descriptor at stage 2, the shape among them when every size is fixed (R243); a pointer list's deal is known when
its entries are read (R246). -/
def State.descChecks (s : State) (d : Desc) : List Check :=
  let cs := s.descChecksA d ++ s.descChecksB d ++ s.descChecksC d
  match firstBad cs with
  | some _ => cs
  | none =>
    if d.fixed then
      let dm := d.dims []
      let deals := if d.plist then [] else d.deals dm.1 (nBlocks dm.2.1) (kBlocks (s.layerCfg d) dm.2.2)
      match s.shapeBad d dm.1 dm.2.1 dm.2.2 (s.layerCores d) deals with
      | some x => [(x, stShapeInvalid, false)]
      | none => []
    else []

/-- A descriptor read from where an address word names: tier 1, tier 2 or host memory, 64-byte aligned (R304). -/
def State.readDesc (s : State) (src : Src) (w : Nat) : Reach Desc :=
  if w % 64 ≠ 0 then .fail stBadField s
  else
    match placeOf w with
    | .host _ => s.getData src w 512
    | .dev a =>
      if w / 2 ^ 48 % 2 ^ 14 ≠ 0 then .fail stBadField s
      else match s.addrKind a with
        | .tier1 | .tier2 => if s.inRegion a 512 then s.getData src w 512 else .fail stBadField s
        | _ => .fail stBadField s
    | .remote _ _ => .fail stBadField s

end Sys2Proof.Machine
end

