-- ==== Sys2Proof/Machine/Program.lean ====
section
/-!
DEFINITION. The programs of a layer on one core: the passes, clears and drains that they must issue and in which order, their settings,
the test that programs do that, and plain programs that do (R123, R162, R178, R218 to R221, R233, R234, R238 to R241, R248, R249,
R259).
-/

namespace Sys2Proof.Machine

/-! ## Words by their fields -/

/-- Fields of an instruction word with the values that they hold: high bit, low bit, value. -/
abbrev Pins := List (Nat × Nat × Nat)

/-- A word holds the fields. -/
def meets (w : W64) (ps : Pins) : Bool := ps.all (fun p => field w p.1 p.2.1 == p.2.2)

/-- The word that holds the fields and is zero elsewhere. -/
def wordOf (ps : Pins) : W64 := BitVec.ofNat 64 ((ps.map (fun p => p.2.2 * 2 ^ p.2.1)).sum)

/-! ## What a core has to do -/

/-- A core's share of a layer: the setting in force, the rows of each item, N and K, the PATH, whether ZB is set (R162), whether it
is the predictor's, its core tiles in ORDER.L1 order, and the blocks that are not computed. -/
structure Share where
  desc : Desc
  cfg : ArrayCfg
  rows : List (Nat × Nat)
  cols : Nat
  depth : Nat
  path : Nat
  zb : Bool
  predictor : Bool
  tiles : List LTile
  plan : List (Nat × Bool)
  deriving DecidableEq, Repr

/-- An output tile of a share (R238): its item, first row, rows that run, rows in bounds, N-block, columns in bounds. -/
structure OutTile where
  item : Nat
  row : Nat
  run : Nat
  inb : Nat
  nb : Nat
  nv : Nat
  deriving DecidableEq, Repr

/-- A pass of a share: the number of its output tile, its row there, Kv, the step offset of a stream, CHK, and whether it is the
tile's first and last. -/
structure PassReq where
  tile : Nat
  row : Nat
  kv : Nat
  t0 : Nat
  chk : Bool
  first : Bool
  last : Bool
  deriving DecidableEq, Repr

/-- ACM blocks of an output tile (R238). -/
def Share.extent (w : Share) : Nat := ceilDiv w.desc.tr (if w.cfg.acc16 then 8 else 4)

/-- Core tiles that take the same output tiles over one K span are one after another; an ATOMIC layer drains after each of them
(R241, R259). -/
def Share.spans (w : Share) : List LTile → List (List LTile)
  | [] => []
  | t :: ts =>
    match w.spans ts with
    | (u :: us) :: rest =>
      if w.path ≠ 2 ∧ t.item = u.item ∧ t.m0 = u.m0 ∧ t.n0 = u.n0 then (t :: u :: us) :: rest else [t] :: (u :: us) :: rest
    | r => [t] :: r

/-- Output tiles of a core tile, row group by row group. A group at the M edge runs its padded rows too (R249). -/
def Share.outsOf (w : Share) (t : LTile) : List OutTile :=
  let m := ((w.rows.find? (fun r => r.1 == t.item)).map (·.2)).getD 0
  (List.range (ceilDiv t.ml w.desc.tr)).flatMap (fun g => (List.range t.nl).map (fun j =>
    let r := t.m0 + g * w.desc.tr
    let left := if m ≤ t.m0 + t.ml then w.desc.cm - g * w.desc.tr else t.ml - g * w.desc.tr
    let run := min w.desc.tr left
    ⟨t.item, r, run, min run (m - r), t.n0 + j, min 512 (w.cols - 512 * (t.n0 + j))⟩))

/-- Both halves of a row of an N-block that hold columns are skipped blocks (R178). -/
def Share.rowSkipped (w : Share) (o : OutTile) (r : Nat) : Bool :=
  ([2 * o.nb, 2 * o.nb + 1].filter (fun b => decide (256 * b < w.cols))).all (fun b => w.plan.contains ((o.row + r) * 2 ^ 16 + b, false))

/-- The rows of an output tile that run passes, ascending (R239): none when every row in bounds is skipped. -/
def Share.rowsRun (w : Share) (o : OutTile) : List Nat :=
  if (List.range o.inb).all (w.rowSkipped o) then []
  else (List.range o.run).filter (fun r => decide (o.inb ≤ r) || !w.rowSkipped o r)

/-- Steps in a page set, and chunks of a stream; one of any other layer (R115). -/
def Share.chunkSteps (w : Share) : Nat := if w.cfg.stoch then 16 * 2 ^ w.cfg.clog else 0
def Share.chunks (w : Share) : Nat := if w.cfg.stoch then 2 ^ w.cfg.slog / (16 * 2 ^ w.cfg.clog) else 1

/-- CHKMASK places a checkpoint at a prefix (R119, R123). -/
def Share.checkAt (w : Share) (l : Nat) : Bool :=
  w.cfg.afmt == fmtScBip && (List.range 6).any (fun j =>
    (w.desc.at' 0x0C6 1).testBit j && decide (16 ≤ l) && l * 2 ^ (j + 1) == 2 ^ w.cfg.slog)

/-- The steps of a span in order: its core tile, chunk, row group, N-block and K-block. The chunks of a stream are an outer part of
the K loop (log 27). -/
def Share.steps (w : Share) (span : List LTile) : List (Nat × Nat × Nat × Nat × Nat) :=
  match span with
  | [t] =>
    (nest (w.desc.order 0) (ceilDiv t.ml w.desc.tr) t.nl (w.chunks * t.kl)).map (fun p => (0, p.2.2 / t.kl, p.1, p.2.1, p.2.2 % t.kl))
  | _ =>
    (List.range w.chunks).flatMap (fun c => (span.zip (List.range span.length)).flatMap (fun t =>
      (nest (w.desc.order 0) (ceilDiv t.1.ml w.desc.tr) t.1.nl t.1.kl).map (fun p => (t.2, c, p.1, p.2.1, p.2.2))))

/-- The passes of a span whose output tiles count from `base`: at each step those of the row group, in ascending row order. -/
def Share.spanPasses (w : Share) (base : Nat) (span : List LTile) : List PassReq :=
  let outs := (span.head?.map w.outsOf).getD []
  (w.steps span).flatMap (fun p =>
    match span[p.1]?, outs[p.2.2.1 * ((span.head?.map (·.nl)).getD 0) + p.2.2.2.1]? with
    | some t, some o =>
      let rs := w.rowsRun o
      let k := t.k0 + p.2.2.2.2
      rs.map (fun r =>
        let ends := decide (p.1 + 1 = span.length) && decide (p.2.2.2.2 + 1 = t.kl) && rs.getLast? == some r
        ⟨base + p.2.2.1 * t.nl + p.2.2.2.1, r, min w.cfg.blockLen (w.depth - k * w.cfg.blockLen), p.2.1 * w.chunkSteps,
          ends && w.checkAt ((p.2.1 + 1) * w.chunkSteps),
          decide (p.1 = 0) && decide (p.2.1 = 0) && decide (p.2.2.2.2 = 0) && rs.head? == some r,
          ends && decide (p.2.1 + 1 = w.chunks)⟩)
    | _, _ => [])

/-- The output tiles of a share, span after span. -/
def Share.outs (w : Share) : List OutTile := (w.spans w.tiles).flatMap (fun sp => (sp.head?.map w.outsOf).getD [])

/-- The passes of a share in order. -/
def Share.passes (w : Share) : List PassReq :=
  ((w.spans w.tiles).foldl (fun (acc : Nat × List PassReq) sp =>
    (acc.1 + ((sp.head?.map w.outsOf).getD []).length, acc.2 ++ w.spanPasses acc.1 sp)) (0, [])).2

/-- The output tiles that run no pass, in order: drained all the same, as zeros (R178). -/
def Share.bare (w : Share) : List Nat :=
  ((w.outs.zip (List.range w.outs.length)).filter (fun o => (w.rowsRun o.1).isEmpty)).map (·.2)

/-! ## The fields that the specification gives -/

/-- The generators and dimensions of SGSEL and SGDIM: activation, weight (R123). -/
def Share.gens (w : Share) : Nat × Nat := (w.desc.at' 0x0C4 1 % 16, w.desc.at' 0x0C4 1 / 16)
def Share.dims (w : Share) : Nat × Nat := (w.desc.at' 0x0C5 1 % 8, w.desc.at' 0x0C5 1 / 8 % 8)

/-- A pass. -/
def Share.passPins (w : Share) (p : PassReq) : Pins :=
  if w.cfg.stoch then
    [(5, 0, 0x0A), (25, 22, w.gens.1), (28, 26, w.dims.1), (29, 29, p.chk.toNat), (31, 30, 0), (41, 37, w.extent - 1), (49, 42, p.row),
     (57, 50, p.kv - 1), (63, 58, p.t0 / 16)]
  else
    [(5, 0, if w.cfg.s24 then 0x09 else 0x08), (26, 26, w.zb.toNat), (36, 32, w.extent - 1), (44, 37, p.row), (53, 45, p.kv - 1),
     (63, 54, 0)]

/-- The base block of a compute word. -/
def Share.blockOf (w : Share) (x : W64) : Nat := if w.cfg.stoch then field x 36 32 else field x 31 27

/-- An ACLR. -/
def Share.clearPins (w : Share) : Pins :=
  [(5, 0, 0x10), (16, 16, w.cfg.acc16.toNat), (23, 17, w.desc.at' 0x044 1 % 128), (63, 24, 0)]

/-- A drain of an output tile from row `r` on. -/
def Share.drainPins (w : Share) (o : OutTile) (r : Nat) : Pins :=
  [(5, 0, 0x11), (15, 11, w.extent - 1), (23, 16, r), (40, 32, o.nv - 1), (48, 48, 0), (50, 49, w.path), (63, 63, 0)]

/-- SETP ARRAY, from PREC with ABITS filled (R149). -/
def Share.arrayPins (w : Share) : Pins :=
  let a := w.cfg
  [(5, 0, 0x28), (9, 6, 0), (14, 10, a.wfmt), (19, 15, a.wbits), (24, 20, a.afmt), (29, 25, a.abits), (30, 30, a.acc16.toNat),
   (32, 31, a.g), (33, 33, a.s24.toNat), (34, 34, a.skip.toNat), (35, 35, a.pord.toNat), (36, 36, 0), (38, 37, a.clog),
   (42, 39, a.slog), (63, 43, 0)]

/-- SETP DRAIN: OTBP and TW; the output handles, or the stride of an ATOMIC target. The predictor's are the firmware's. -/
def Share.settingPins (w : Share) : Pins :=
  let d := w.desc
  [(5, 0, 0x28), (9, 6, 3), (16, 10, d.at' 0x045 1 % 128), (17, 17, ((d.at' 0x043 1).testBit 4).toNat), (63, 50, 0)]
    ++ (if w.predictor then [] else if w.path = 2 then [(49, 34, d.at' 0x0A0 4 / 64 % 2 ^ 16)]
        else [(25, 18, d.hnd 4), (33, 26, d.hnd 5)])

/-- AEPI in its two forms (R306). -/
def Share.epiPins (w : Share) (form : Nat) : Pins :=
  let d := w.desc
  if form = 0 then
    [(5, 0, 0x12), (6, 6, 0), (11, 7, d.at' 0x060 1 % 32), (12, 12, (d.flag 6).toNat), (18, 13, d.at' 0x061 1 % 64), (19, 19, (d.flag 7).toNat),
     (31, 20, 0), (47, 32, d.at' 0x062 2), (63, 48, 0)]
  else
    [(5, 0, 0x12), (6, 6, 1), (15, 7, 0), (31, 16, d.at' 0x064 2), (45, 32, d.at' 0x066 2 % 2 ^ 14), (59, 46, d.at' 0x068 2 % 2 ^ 14),
     (63, 60, 0)]

/-- The SGSEEDs with which every program begins (R123). -/
def Share.seedPins (w : Share) : List Pins :=
  let seed (g o : Nat) : Pins := [(5, 0, 0x29), (9, 6, g), (15, 10, 0), (31, 16, w.desc.at' o 2), (63, 32, 0)]
  if !w.cfg.stoch then []
  else seed w.gens.1 0x0C0 :: (if w.gens.2 = w.gens.1 then [] else [seed w.gens.2 0x0C2])

/-- A word that a program of the share may hold, where it stands aside: loads, multicasts and their synchronisation, address
generators, loops, END; the pinned settings; generating loads of the weight generator and dimension. -/
def Share.wordOk (w : Share) (x : W64) : Bool :=
  match field x 5 0 with
  | 0x01 => if field x 7 6 = 2 then meets x [(50, 47, w.gens.2), (53, 51, w.dims.2)] else w.zb || field x 36 36 == 0
  | 0x02 | 0x04 | 0x08 | 0x09 | 0x0A | 0x10 | 0x11 | 0x18 | 0x1A | 0x1C | 0x20 | 0x22 | 0x29 => true
  | 0x12 => meets x (w.epiPins (field x 6 6))
  | 0x19 => field x 7 6 == 1
  | 0x21 => w.cfg.stoch
  | 0x28 => (match field x 9 6 with
    | 0 => meets x w.arrayPins
    | 1 | 2 => true
    | 3 => meets x w.settingPins
    | _ => false)
  | _ => false

/-! ## What a program issues -/

/-- The words that a program issues in order from `pc` on, its loops run and no BR taken, up to END; none when it does not come to
END in so many words. -/
def issues (bounds : List W32) (ws : List W64) : Nat → Nat → List LoopLevel → Option (List W64)
  | 0, _, _ => none
  | fuel + 1, pc, st =>
    match ws[pc]? with
    | none => none
    | some x =>
      if field x 5 0 = 0x22 then (if st.isEmpty then some [x] else none)
      else if field x 5 0 = 0x20 then
        let last := field x 23 11
        let n := if field x 6 6 = 1 then (bounds.getD (field x 10 7) 0).toNat else field x 63 32
        if 4 ≤ st.length ∨ last ≤ pc then none
        else if n = 0 then
          let p := nextPc last st
          issues bounds ws fuel p.1 p.2
        else issues bounds ws fuel (pc + 1) (⟨pc + 1, last, n⟩ :: st)
      else
        let p := nextPc pc st
        (issues bounds ws fuel p.1 p.2).map (x :: ·)

/-- A share as far as its words have come: the settings made in this program, the passes and the tiles without a pass that are left,
the ACM blocks that are clear and no tile's, and the tiles that hold blocks: tile, base block, rows drained, whether the
drains so far have cleared. -/
structure Walk where
  arr : Bool
  drn : Bool
  epi0 : Bool
  epi1 : Bool
  todo : List PassReq
  bare : List Nat
  clean : List Nat
  live : List (Nat × Nat × Nat × Bool)
  deriving DecidableEq, Repr

/-- The blocks of a tile at a base block. -/
def Share.blocks (w : Share) (b : Nat) : List Nat := (List.range w.extent).map (b + ·)

/-- A tile takes clean blocks. -/
def Walk.take (w : Share) (k : Walk) (t b : Nat) : Option Walk :=
  if (w.blocks b).all k.clean.contains then
    some { k with clean := k.clean.filter (fun x => !(w.blocks b).contains x), live := k.live ++ [(t, b, 0, true)] }
  else none

/-- A drain of the tile that holds block `b`: its rows from the first that is left; the last drain frees the blocks. -/
def Walk.drain (w : Share) (outs : List OutTile) (k : Walk) (x : W64) (t b : Nat) : Option Walk :=
  match k.live.find? (fun q => q.1 == t), outs[t]? with
  | some q, some o =>
    let r := q.2.2.1
    let n := field x 27 24 + 1
    let clr := q.2.2.2 && field x 47 47 == 1
    let rest := k.live.filter (fun y => y.1 != t)
    if meets x (w.drainPins o r) && decide (r < o.inb) && decide (r + n ≤ o.run) && field x 31 28 + 1 == min n (o.inb - r)
        && k.todo.all (fun p => p.tile != t) then
      if o.inb ≤ r + n then some { k with live := rest, clean := if clr then k.clean ++ w.blocks b else k.clean }
      else some { k with live := rest ++ [(t, b, r + n, clr)] }
    else none
  | _, _ => none

/-- One word issued; none where the share does not allow it there. -/
def Walk.step (w : Share) (outs : List OutTile) (k : Walk) (x : W64) : Option Walk :=
  match field x 5 0 with
  | 0x28 => some { k with arr := k.arr || field x 9 6 == 0, drn := k.drn || field x 9 6 == 3 }
  | 0x12 => some { k with epi0 := k.epi0 || field x 6 6 == 0, epi1 := k.epi1 || field x 6 6 == 1 }
  | 0x10 =>
    let bs := (List.range (field x 15 11 + 1)).map (field x 10 6 + ·)
    if meets x w.clearPins && bs.all (fun b => decide (b < 32) && k.live.all (fun q => !(w.blocks q.2.1).contains b)) then
      some { k with clean := k.clean.filter (fun b => !bs.contains b) ++ bs }
    else none
  | 0x11 =>
    let b := field x 10 6
    if !k.drn || (w.path == 0 && !(k.epi0 && k.epi1)) then none
    else match k.live.find? (fun q => q.2.1 == b) with
      | some q => k.drain w outs x q.1 b
      | none => (match k.bare with
        | [] => none
        | t :: ts => (Walk.take w { k with bare := ts } t b).bind (fun k => k.drain w outs x t b))
  | 0x08 | 0x09 | 0x0A =>
    (match k.todo with
      | [] => none
      | p :: ps =>
        if !k.arr || !meets x (w.passPins p) then none
        else match k.live.find? (fun q => q.1 == p.tile) with
          | some q => if q.2.1 = w.blockOf x then some { k with todo := ps } else none
          | none => if p.first then Walk.take w { k with todo := ps } p.tile (w.blockOf x) else none)
  | _ => some k

/-- The walk over the words of one program. -/
def Walk.run (w : Share) (outs : List OutTile) : List W64 → Walk → Option Walk
  | [], k => some k
  | x :: xs, k => (k.step w outs x).bind (Walk.run w outs xs)

/-- A program has the form of the share's: at most 8,192 words, each allowed, the SGSEEDs first and no other. -/
def Share.formOk (w : Share) (ws : List W64) : Bool :=
  let n := w.seedPins.length
  decide (ws.length ≤ 8192) && ws.all w.wordOk && ((ws.take n).zip w.seedPins).all (fun p => meets p.1 p.2) && decide (n ≤ ws.length)
    && (ws.drop n).all (fun x => field x 5 0 != 0x29)

/-- Programs that together do a share: every pass in order, each tile's blocks clear before its first pass, each tile drained after its
last. -/
def Share.follows (w : Share) (bounds : List W32) (programs : List (List W64)) : Bool :=
  let outs := w.outs
  let ps := w.passes
  let fuel := 8192 * (ps.length + 16 * outs.length + 8192)
  let start : Walk := ⟨false, false, false, false, ps, w.bare, [], []⟩
  let r := programs.foldl (fun (acc : Option Walk) ws => acc.bind (fun k =>
    if !w.formOk ws then none
    else (issues bounds ws fuel 0 []).bind (fun xs =>
      Walk.run w outs xs { k with arr := false, drn := false, epi0 := false, epi1 := false }))) (some start)
  match r with
  | some k => !programs.isEmpty && k.todo.isEmpty && k.bare.isEmpty && k.live.isEmpty
  | none => false

/-! ## Plain programs -/

/-- The base blocks that plain programs use in turn: whole extents outside the HAC's blocks. -/
def Share.bases (w : Share) : List Nat :=
  let lo := w.desc.at' 0x0A5 1
  let hi := if w.desc.hac then lo + w.desc.at' 0x0A4 1 else lo
  ((List.range (32 / max 1 w.extent)).map (· * w.extent)).filter (fun b => decide (b + w.extent ≤ lo ∨ hi ≤ b ∨ hi ≤ lo))

/-- The base block of an output tile by its number. -/
def Share.baseOf (w : Share) (t : Nat) : Nat := w.bases.getD (t % max 1 w.bases.length) 0

/-- The clear of a tile's blocks, and the drains of its rows, at most 16 each. -/
def Share.clearWord (w : Share) (t : Nat) : W64 := wordOf (w.clearPins ++ [(10, 6, w.baseOf t), (15, 11, w.extent - 1)])
def Share.drainWords (w : Share) (t : Nat) (o : OutTile) : List W64 :=
  (List.range (ceilDiv o.inb 16)).map (fun i =>
    let n := min 16 (o.inb - 16 * i)
    wordOf (w.drainPins o (16 * i) ++ [(10, 6, w.baseOf t), (27, 24, n - 1), (31, 28, n - 1)]))

/-- A pass of a plain program. -/
def Share.passWord (w : Share) (p : PassReq) : W64 :=
  wordOf (w.passPins p ++ [if w.cfg.stoch then (36, 32, w.baseOf p.tile) else (31, 27, w.baseOf p.tile)])

/-- The words of the share in order. -/
def Share.words (w : Share) : List W64 :=
  let outs := w.outs
  let drains (t : Nat) : List W64 := ((outs[t]?).map (w.drainWords t)).getD []
  w.passes.flatMap (fun p =>
    (if p.first then [w.clearWord p.tile] else []) ++ [w.passWord p] ++ (if p.last then drains p.tile else []))
    ++ w.bare.flatMap (fun t => w.clearWord t :: drains t)

/-- The settings with which a plain program begins. -/
def Share.prologue (w : Share) : List W64 :=
  ((w.seedPins ++ [w.arrayPins, w.settingPins]) ++ (if w.path = 0 then [w.epiPins 0, w.epiPins 1] else [])).map wordOf

/-- Words cut into programs; the first argument bounds them. -/
def cutPrograms (head : List W64) (n : Nat) : Nat → List W64 → List (List W64)
  | 0, _ => []
  | _, [] => []
  | fuel + 1, ws => (head ++ ws.take n ++ [wordOf [(5, 0, 0x22)]]) :: cutPrograms head n fuel (ws.drop n)

/-- Plain programs of a share: its words with every field that the specification leaves open zero. They stand where the free value is
no expansion of the share (log 27). -/
def Share.plain (w : Share) : List (List W64) :=
  cutPrograms w.prologue (8191 - w.prologue.length) (w.words.length + 1) w.words

/-- The programs of a share: the firmware's. The item of a routed round is one program (R167). -/
def Share.programs (w : Share) (ctx : Config.ProgCtx) : List (List W64) :=
  let f := Config.layerPrograms ctx
  if w.follows ctx.bounds f && (!w.desc.routed || w.predictor || f.length == 1) then f else w.plain

end Sys2Proof.Machine
end

