-- ==== Sys2Proof/Machine/Layers.lean ====
section
/-!
DEFINITION. The execution-class commands: what LAYER_RUN, LAYER_CHAIN and TILE_RUN read, and the dispatch of programs to cores (R83,
R120, R123, R144, R146, R149, R169, R175 to R178, R211, R238 to R246, R251, R304 to R306).
-/

namespace Sys2Proof.Machine

/-! ## Reading layers at stage 2 (R304) -/

/-- A descriptor with the routing table that it names after it, and the status of reading them. -/
def State.readLayer (s : State) (src : Src) (w : Nat) : Reach (Nat × Desc) :=
  match s.readDesc src w with
  | .wait t => .wait t
  | .fail st t => .ok (st, []) t
  | .ok d t =>
    if Desc.routed d && decide (Desc.at' d 0x078 2 < 4096) then
      match t.getData src (Desc.at' d 0x070 8) (16 * (Desc.at' d 0x078 2 + 1)) with
      | .ok b t => .ok (stOk, d ++ b) t
      | .wait t => .wait t
      | .fail st t => .ok (st, []) t
    else .ok (stOk, d) t

/-- A layer may yet rerun, and writes one of the handles. -/
def Desc.mayRewrite (d : Desc) (hs : List Nat) : Bool := decide (d.clip < 4096) && d.writes.any hs.contains

/-- A command that reads the handles is held (R146): another command runs a layer that may yet rewrite one of them, or one of the
commands before number `before` has such a layer in its chain to come. -/
def State.consumerHeld (s : State) (hs : List Nat) (before : Nat) : Bool :=
  s.cmds.any (fun x => !x.ended && ((match x.layer with
    | some l => l.desc.mayRewrite hs
    | none => false) || (decide (x.id < before) && x.chain.any (fun l => l.1 == stOk && Desc.mayRewrite l.2 hs))))

/-- LAYER_RUN's reads and checks. -/
def layerChecks : Checks := fun e s =>
  let cs := s.addrChecks e 0 true false
  match firstBad cs with
  | some _ => .done cs [] s
  | none =>
    match s.readLayer e.src (e.word 0) with
    | .wait t => .wait t
    | .fail st t => .done [(wordAt 0 0, st, false)] [] t
    | .ok (st, d) t =>
      if st ≠ stOk then .done [(wordAt 0 0, st, false)] [] t
      else if t.consumerHeld (Desc.reads d) t.nextCmd then .wait t
      else .done (t.descChecks d) d t

/-- Layers of a chain as bytes: status, length, bytes of each. -/
def chainCopy (ls : List (Nat × List Byte)) : List Byte :=
  ls.flatMap (fun l => leBytes 1 l.1 ++ leBytes 4 l.2.length ++ l.2)

/-- And back; the first argument bounds them. -/
def chainOf : Nat → List Byte → List (Nat × List Byte)
  | 0, _ => []
  | n + 1, b =>
    let len := entryNat b 1 4
    (entryNat b 0 1, (b.drop 5).take len) :: chainOf n (b.drop (5 + len))

/-- The layers that an array of descriptor addresses names. -/
def State.readChain (src : Src) : List Nat → State → Reach (List (Nat × List Byte))
  | [], s => .ok [] s
  | w :: ws, s =>
    match s.readLayer src w with
    | .ok l t => (match State.readChain src ws t with
      | .ok ls t => .ok (l :: ls) t
      | .wait t => .wait t
      | .fail st t => .fail st t)
    | .wait t => .wait t
    | .fail st t => .fail st t

/-- LAYER_CHAIN's reads and checks: each layer is checked when its turn comes (R302). -/
def chainChecks : Checks := fun e s =>
  let cs := s.addrChecks e 0 true false
  let n := e.word 1 + 1
  match firstBad cs with
  | some _ => .done cs [] s
  | none =>
    match s.getData e.src (e.word 0) (8 * n) with
    | .wait t => .wait t
    | .fail st t => .done [(wordAt 0 0, st, false)] [] t
    | .ok b t =>
      match State.readChain e.src ((List.range n).map (fun i => entryNat b (8 * i) 8)) t with
      | .wait t => .wait t
      | .fail st t => .done [(wordAt 0 0, st, false)] [] t
      | .ok ls t => if ls.any (fun l => t.consumerHeld (Desc.reads l.2) t.nextCmd) then .wait t else .done [] (chainCopy ls) t

/-! ## Programs and settings (R211, R306) -/

/-- Handles and work lists that a program names (R294). -/
def progUses (ws : List W64) : List Nat × List Nat :=
  let hs (w : W64) : List Nat := match field w 5 0 with
    | 0x01 => [field w 15 8]
    | 0x02 => [field w 13 6, field w 21 14]
    | 0x03 => [field w 13 6, field w 25 18]
    | 0x04 => if field w 6 6 = 0 then [field w 14 7, field w 37 30] else [field w 14 7]
    | 0x28 => if field w 9 6 = 3 then [field w 25 18, field w 33 26] else []
    | _ => []
  let ls (w : W64) : List Nat := match field w 5 0 with
    | 0x1B => [field w 13 6]
    | 0x19 => if field w 7 6 = 2 then [field w 28 21] else []
    | _ => []
  ((ws.flatMap hs).eraseDups, (ws.flatMap ls).eraseDups)

/-- Handles that a program stores to: by STO, and by the drains of SETP. -/
def progStores (ws : List W64) : List Nat :=
  (ws.flatMap (fun w => match field w 5 0 with
    | 0x03 => [field w 25 18]
    | 0x28 => if field w 9 6 = 3 then [field w 25 18, field w 33 26] else []
    | _ => [])).eraseDups

/-- The words of a program from its bytes. -/
def progWords (b : List Byte) (n : Nat) : List W64 := (List.range n).map (fun i => BitVec.ofNat 64 (entryNat b (8 * i) 8))

/-- The registers that a command processor writes for a dispatch of a layer (R120, R123, R144, R169, R175, R306). -/
def State.layerConfig (s : State) (l : Layer) : List (Nat × W32) :=
  let d := l.desc
  let n (v : Nat) : W32 := BitVec.ofNat 32 v
  let out := d.at' 0x043 1
  let ofmt := d.at' 0x040 1
  let pm (i : Nat) : Nat := (s.handle (d.hnd i)).base % 2 ^ 20
  let thr := d.at' 0x0C8 4
  let home := d.at' 0x098 8
  [(CORE_RQ_CFG, n (ofmt % 32 + (if 6 ≤ ofmt then 0 else l.obits % 32) * 2 ^ 5 + (d.flag 9).toNat * 2 ^ 10 + d.at' 0x042 1 * 2 ^ 12
     + out % 4 * 2 ^ 20)),
   (CORE_RQ_OSCALE, n (d.at' 0x046 2)), (CORE_RQ_OSADDR, n (if d.flag 9 then pm 6 else 0)), (CORE_RQ_LIMIT, n d.clip),
   (CORE_RASP_CFG, n (d.at' 0x04B 1 % 16 + (d.flag 8).toNat * 16)), (CORE_RASP_SMADDR, n (if d.flag 8 then pm 7 else 0)),
   (CORE_SP_HAC_CFG, n (d.hac.toNat + d.at' 0x0A5 1 % 32 * 2 + d.at' 0x0A4 1 % 64 * 2 ^ 6 + (out.testBit 4).toNat * 2 ^ 12
     + d.at' 0x045 1 % 128 * 2 ^ 13)),
   (CORE_SP_HAC_HOME_LO, n home), (CORE_SP_HAC_HOME_HI, n (home / 2 ^ 32 % 2 ^ 30 + (home.testBit 62).toNat * 2 ^ 31)),
   (CORE_SP_HAC_STRIDE, n (d.at' 0x0A0 4))]
    ++ (if d.pred then [(CORE_SP_PRED_THR, n (d.at' 0x0B0 4)), (CORE_SP_PRED_MARGIN, n (d.at' 0x0B4 4))] else [])
    ++ (if d.prec.stoch then [(CORE_SG_EXIT_THR, n (if thr = 0 then 0x7FFFFFFF else thr))] else [])

/-! ## Dispatch (R211) -/

/-- Prediction is off for a layer (R180). -/
def State.predOff (s : State) (layer : Nat) : Bool := s.preds.any (fun p => p.layer == layer && p.off)

/-- The predicted-inactive blocks of a layer that its tiles skip or audit now: none once prediction is off, but for a rerun, which
uses those of the first run (R177, R180, R181). -/
def State.planNow (s : State) (l : Layer) : List (Nat × Bool) :=
  if l.predicting ∨ (s.predOff l.desc.layerId ∧ ¬ l.rerun) then [] else l.plan

/-- The blocks that its drains skip or audit, by drain-handle offset (R177, R178). -/
def State.planOf (s : State) (l : Layer) : List (Nat × Bool) :=
  (s.planNow l).map (fun p => (p.1 / 2 ^ 16 * ceilDiv (l.n * l.obits) 8 + p.1 % 2 ^ 16 * (32 * l.obits), p.2))

/-- The window of a layer's prediction has closed and has not been judged: nothing more of the layer is dispatched until it is
(R180). -/
def State.windowDue (s : State) (l : Layer) : Bool :=
  l.desc.pred && s.preds.any (fun p => p.layer == l.desc.layerId && decide (1024 ≤ p.inactive))

/-- The mask record of some logical cores: the physical cores that have their numbers, at [71:0] of 16 bytes (R12, R251). -/
def State.maskRecord (s : State) (m : Nat) : List Byte :=
  leBytes 16 (((List.range 64).map (fun i => match s.physOf i with
    | some p => if m.testBit i then 2 ^ p else 0
    | none => 0)).sum)

/-- A dispatch loaded into a core: its program, ENTRY, bounds, registers and mask records; then the doorbell. The first one of a run
on the core opens its windows (R145). -/
def State.send (s : State) (d : Dispatch) (p : Nat) : State :=
  let first := !s.disp.any (fun e => e.cmd == d.cmd && e.phys == p && decide (1 ≤ e.st))
  let k := s.core p
  let k := (d.program.zip (List.range d.program.length)).foldl
    (fun k w => k.setImem w.2 w.1) k
  let k := k.setReg p CORE_SEQ_ENTRY (BitVec.ofNat 32 d.entry)
  let k := (d.bounds.zip (List.range 16)).foldl (fun k b => k.setReg p (CORE_BOUND b.2) b.1) k
  let k := d.config.foldl (fun k c => k.setReg p c.1 c.2) k
  let k := (k.bump p CORE_MAP_TILES d.tiles).bump p CORE_MAP_EDGE d.edges
  let l := (s.cmd d.cmd).bind (·.layer)
  let on := (l.map (·.predicting)).getD false
  let k := if first ∧ l.isSome then k.setReg p CORE_RQ_WIN 0 else k
  let t := s.setCore p { k with
    doorbell := some (d.cmd, d.ticket),
    arrSkip := d.arrived,
    ownEdges := l.isNone,
    predOn := on,
    skipMap := if on ∧ first then [] else k.skipMap,
    outCols := (l.map (fun l => if on then 0 else l.n)).getD 0,
    rebound := d.rebind,
    received := if first ∧ ¬ d.reissued then [] else k.received,
    predPlan := (l.map s.planOf).getD [] }
  d.masks.foldl (fun t m => (t.spmWrite p .am (m.1 % 2 ^ 20) (t.maskRecord m.2) false).2) t

/-- The core that can take a dispatch now: in service, with no program and no doorbell. -/
def State.coreFor (s : State) (d : Dispatch) : Option Nat :=
  match s.physOf d.logical with
  | some p =>
    let k := s.core p
    if k.loaded ∨ k.doorbell.isSome then none else some p
  | none => none

/-- Every pending dispatch whose core can take it is sent, the first pending one of each logical number (R240). -/
def State.pump (s : State) : State :=
  (List.range s.disp.length).foldl (fun s j =>
    match s.disp[j]? with
    | none => s
    | some d =>
      if d.st ≠ 0 ∨ d.held.isSome ∨ (((s.cmd d.cmd).bind (·.layer)).map s.windowDue).getD false ∨ (s.disp.take j).any (fun e => e.logical == d.logical && e.st == 0) then s
      else
        match s.coreFor d with
        | none => s
        | some p => { s.send d p with disp := s.disp.set j { d with st := 1, phys := p } }) s

/-- A dispatch of a program as it comes from a command, with nothing set. -/
def mkDispatch (cmd logical : Nat) (program : List W64) (entry : Nat) (bounds : List W32) : Dispatch where
  cmd := cmd
  logical := logical
  program := program
  entry := entry
  bounds := bounds
  config := []
  rebind := []
  masks := []
  work := []
  part := 0
  ticket := none
  tiles := 0
  edges := 0
  batch := 1
  held := none
  st := 0
  phys := 0
  reissued := false
  arrived := 0
  counted := false

/-- A dispatch of a layer to a core is held when the layer waits behind a format barrier and has not passed it there. -/
def State.heldSince (s : State) (id : Nat) (l : Layer) (i : Nat) : Option Nat :=
  if l.barrier && !s.disp.any (fun d => d.cmd == id && d.logical == i && d.held.isNone) then some s.now else none

/-! ## The programs of a layer -/

/-- The setting of a run of a layer: the predictor's weights are BIN or SINT4 and dense (R175). -/
def State.runCfg (s : State) (l : Layer) : ArrayCfg :=
  let a := s.layerCfg l.desc
  if !l.predicting then a
  else if l.desc.at' 0x0B9 1 = 0 then { a with wfmt := fmtBin, wbits := 1, s24 := false }
  else { a with wfmt := fmtSint, wbits := 4, s24 := false }

/-- The columns of a run: the predictor has one for each block of 256 (R175). -/
def Layer.runCols (l : Layer) : Nat := if l.predicting then ceilDiv l.n 256 else l.n

/-- Rows of a pointer-list entry: its own, or the descriptor's (R246). -/
def Layer.entryRows (l : Layer) (i : Nat) : Nat :=
  let m := entryNat (l.entries.getD i []) 0x30 4
  if l.entries.isEmpty ∨ m = 0 then l.m else m

/-- What core tiles are for the core that takes them; `rows` gives the rows of an item. -/
def State.shareFor (s : State) (l : Layer) (rows : Nat → Nat) (mine : List LTile) : Share where
  desc := l.desc
  cfg := s.runCfg l
  rows := (mine.map (·.item)).eraseDups.map (fun i => (i, rows i))
  cols := l.runCols
  depth := l.k
  path := if l.predicting then 1 else l.desc.path
  zb := l.desc.flag 0 && (s.handle (l.desc.hnd 0)).layout == 2
  predictor := l.predicting
  tiles := l.desc.inL1 mine
  plan := s.planNow l

/-- What the firmware's programs of a share may depend on. -/
def State.progCtx (s : State) (l : Layer) (i : Nat) (tiles : List LTile) (staged : Option Nat) : Config.ProgCtx where
  desc := l.desc
  bounds := l.bounds
  abits := s.abits l.desc
  obits := l.obits
  predictor := l.predicting
  core := i
  tiles := tiles.map (fun t => [t.item, t.m0, t.ml, t.n0, t.nl, t.k0, t.kl])
  plan := s.planNow l
  staged := staged

/-- Core tiles of one item or of several as dispatches to a logical core, one for each of their programs. The first carries the mask
records and the counts. -/
def State.dispatches (s : State) (id : Nat) (l : Layer) (i : Nat) (rows : Nat → Nat) (mine : List LTile) (staged : Option Nat)
    (masks : List Nat) : List Dispatch :=
  let w := s.shareFor l rows mine
  let ctx := s.progCtx l i w.tiles staged
  let ps := w.programs ctx
  (ps.zip (List.range ps.length)).map (fun p =>
    let one {α : Type} (x none' : α) : α := if p.2 = 0 then x else none'
    { mkDispatch id i p.1 0 l.bounds with
      config := s.layerConfig l
      masks := one ((masks.zip (List.range masks.length)).map (fun m => (16 * (Config.maskPlace ctx m.2 % 2 ^ 16), m.1))) []
      work := mine
      part := p.2
      tiles := if l.predicting then 0 else one mine.length 0
      edges := if l.predicting then 0
        else one ((mine.map (fun t => l.desc.edgesOf w.cfg (rows t.item) l.n l.k t)).sum) 0
      batch := l.batch
      held := s.heldSince id l i })

/-- The cores of a deal that need each piece of its weights and of its activations, as logical masks: those whose lowest core is `i`
issues (R167, R251). -/
def dealMasks (dealt : List (Nat × LTile)) (i : Nat) : List Nat :=
  let of (key : LTile → Nat × Nat × Nat) : List Nat :=
    (dealt.map (fun p => key p.2)).eraseDups.filterMap (fun q =>
      let cs := ((dealt.filter (fun p => key p.2 == q)).map (·.1)).foldr insertKey []
      if cs.head? = some i then some ((cs.map (2 ^ ·)).sum) else none)
  of (fun t => (t.item, t.n0, t.k0)) ++ of (fun t => (t.item, t.m0, t.k0))

/-- The memory and device that an ADDR names, for a handle (R147, R246). -/
def rebase (h : Handle) (w rows : Nat) : Handle :=
  match placeOf w with
  | .remote d a => { h with base := a, devid := d, mem := memRemote, length := rows }
  | .dev a =>
    { h with base := a, devid := 0, length := rows, mem := (if a < 0x2D00000000 then memTier1
      else if 0x8000000000 ≤ a ∧ a < 0x8008000000 then memLedge
      else if 0x20000000000 ≤ a ∧ a < 0x40000000000 then memTier2 else h.mem) }
  | .host _ => h

/-- The handles of entry `i` of a pointer list, by index of the descriptor's handle: where USE is set, the descriptor's handle at the
entry's address, with the length that the entry's rows take (R246). -/
def State.entryHandle (s : State) (l : Layer) (i j : Nat) : Handle :=
  let h := s.handle (l.desc.hnd j)
  let a := entryNat (l.entries.getD i []) (8 * j) 8
  let m := l.entryRows i
  let ng := ceilDiv l.k (s.layerCfg l.desc).group
  let bytes := match j with
    | 0 => m * h.rowLen l.k
    | 1 => m * 4 * ng
    | 4 => m * ceilDiv (l.n * l.obits) 8
    | 5 => m * 4 * ceilDiv l.n (32 * 2 ^ (l.desc.at' 0x043 1 % 4))
    | _ => 64 * h.length
  if l.entries.isEmpty ∨ 6 ≤ j ∨ !a.testBit 63 then h else rebase h (a % 2 ^ 48) (ceilDiv bytes 64)

/-- The handles that stand for the descriptor's in a program of entry `i` (log 27). -/
def State.entryBinds (s : State) (l : Layer) (i : Nat) : List (Nat × Nat) :=
  if l.entries.isEmpty then []
  else (List.range 6).filterMap (fun j =>
    if (entryNat (l.entries.getD i []) (8 * j) 8).testBit 63 then some (l.desc.hnd j, (s.entryHandle l i j).bits128) else none)

/-- Core tiles dealt to the cores of a layer as dispatches, entry by entry of a pointer list (R240, R246). -/
def State.shareOut (s : State) (id : Nat) (l : Layer) (tiles : List LTile) (staged : Option Nat) : List Dispatch :=
  let dealt := l.desc.deal l.cores tiles
  (List.range l.cores).flatMap (fun i =>
    let mine := shareOf dealt i
    (mine.map (·.item)).eraseDups.flatMap (fun j =>
      (s.dispatches id l i l.entryRows (mine.filter (·.item == j)) staged
        (if staged.isSome then dealMasks (dealt.filter (fun p => p.2.item == j)) i else [])).map
        (fun d => { d with rebind := s.entryBinds l j })))

/-- The ledge address of the staging buffer that a batch of a command reads. -/
def State.stagedAt (s : State) (id batch : Nat) : Option Nat :=
  (s.staging.find? (fun g => g.cmd == id && g.batch == batch)).map (fun g => 0x8000000000 + 65536 * g.first)

/-- Prediction has gone off for a layer: the shares that no core has begun compute every block (R180). -/
def State.reshare (s : State) (id : Nat) (l : Layer) : State :=
  let open' (d : Dispatch) : Bool := !l.desc.routed && d.cmd == id && d.st == 0 &&
    s.disp.any (fun e => e.cmd == id && e.logical == d.logical && e.work == d.work && e.part == 0 && e.st == 0)
  { s with disp := s.disp.flatMap (fun d =>
      if !open' d then [d]
      else if d.part ≠ 0 then []
      else (s.dispatches id l d.logical l.entryRows d.work (s.stagedAt id d.batch) []).map (fun e =>
        { e with rebind := d.rebind, masks := if e.part = 0 then d.masks else [], batch := d.batch, held := d.held })) }

end Sys2Proof.Machine
end

