-- ==== Sys2Proof/Machine/Staging.lean ====
section
/-!
DEFINITION. The batches of a layer: staging in ledge memory, ledge tiles, the rounds of a routed layer, pointer lists, and how a layer
begins (R83, R164 to R168, R198, R240, R244 to R247, R251, R258, R302 to R308).
-/

namespace Sys2Proof.Machine

/-- The layer of a command changed. -/
def State.modLayer (s : State) (id : Nat) (f : Layer → Layer) : State :=
  s.modCmd id (fun x => { x with layer := x.layer.map f })

/-! ## Failing -/

/-- The status of a fault that came in a CCLK cycle on a logical core: it stands where no earlier one does (R308). -/
def Cmd.failAt (st cycle core : Nat) (x : Cmd) : Cmd :=
  let stands := x.status == stOk || (match x.failed with
    | some f => decide (cycle < f.1 ∨ (cycle = f.1 ∧ core < f.2))
    | none => false)
  if stands then { x with status := st, failed := some (cycle, core) } else x

/-- A command has failed after stage 3. -/
def State.noteStatus (s : State) (id st : Nat) : State :=
  let s := s.modCmd id (Cmd.failAt st (s.now / 2) 64)
  if st = stMetadataInvalid then s.violation 13 (((s.cmd id).map (fun y => srcSource y.src)).getD 0) else s

/-- A command has failed at a time: nothing more of it is dispatched. -/
def State.failSince (s : State) (id st time core : Nat) : State :=
  let s := s.modCmd id (fun x => { x.failAt st (time / 2) core with layer := x.layer.map (fun l => { l with todo := [] }) })
  { s with disp := s.disp.filter (fun d => d.cmd != id || d.st != 0) }

/-- A command fails now. -/
def State.failCmd (s : State) (id st : Nat) : State := s.failSince id st s.now 64

/-- METADATA_INVALID of a command: counted (R419). -/
def State.metaFault (s : State) (id : Nat) : State :=
  match s.cmd id with
  | some x => (s.failCmd id stMetadataInvalid).violation 13 (srcSource x.src)
  | none => s

/-! ## What a ledge tile takes (R251, R258) -/

/-- A handle lies in the tiers. -/
def Handle.tiered (h : Handle) : Bool := h.valid && (h.mem == memTier1 || h.mem == memTier2)

/-- `cnt` bytes from byte `off` of each row of `len` bytes, rows as listed, as far as the handle holds them. -/
def Handle.rowPieces (h : Handle) (rows : List Nat) (len off cnt : Nat) : List (Nat × Nat) :=
  rows.filterMap (fun r => if r * len + off + cnt ≤ 64 * h.length ∧ 0 < cnt then some (h.base + r * len + off, cnt) else none)

/-- Positions `k0` to `k0 + kn - 1` of dense rows of `k`. -/
def Handle.densePieces (h : Handle) (rows : List Nat) (k k0 kn : Nat) : List (Nat × Nat) :=
  let p := h.piece k0 kn
  h.rowPieces rows (h.rowLen k) p.1 p.2

/-- The rows that an index handle names for logical rows; none past its entries (R247). -/
def State.indexRows (s : State) (h : Handle) (rows : List Nat) : List Nat :=
  rows.filterMap (fun r => if 8 * (r + 1) ≤ 64 * h.length then some (leNat (Mem.read s.dmem (h.base + 8 * r) 3)) else none)

/-- Pieces of device memory, address and length, that rows of an activation tensor take from tiers 1 and 2: dense rows; the headers
and slots of the blocks of an RLZ tensor; the index entries of a gathered one and the rows that they name. `hn` is the handle
after `h`. -/
def State.actPieces (s : State) (h hn : Handle) (rows : List Nat) (k k0 kn : Nat) : List (Nat × Nat) :=
  if h.layout = 2 then
    let nb := ceilDiv k 256
    let b0 := k0 / 256
    let n := ceilDiv (k0 + kn) 256 - b0
    let w := h.width
    (if h.tiered then h.rowPieces rows (4 * nb) (4 * b0) (4 * n) else [])
      ++ (if hn.tiered then hn.rowPieces rows (32 * w * nb) (32 * w * b0) (32 * w * n) else [])
  else if h.layout = 4 then
    (if hn.tiered then hn.rowPieces rows 8 0 8 else []) ++ (if h.tiered then h.densePieces (s.indexRows hn rows) k k0 kn else [])
  else if h.layout = 0 ∧ h.tiered then h.densePieces rows k k0 kn
  else []

/-- The group records of rows of an activation tensor, gathered where their handle is. -/
def State.recPieces (s : State) (h hn : Handle) (rows : List Nat) (len : Nat) : List (Nat × Nat) :=
  if h.layout = 4 then
    (if hn.tiered then hn.rowPieces rows 8 0 8 else []) ++ (if h.tiered then h.rowPieces (s.indexRows hn rows) len 0 len else [])
  else if h.tiered then h.rowPieces rows len 0 len
  else []

/-- The pieces of a ledge tile, its handles by index of the descriptor's handle: weights that no RESIDENT handle holds, activations,
and the records of both. Rows of a 2:4 tensor are taken whole. -/
def State.piecesOf (s : State) (l : Layer) (hd : Nat → Handle) (t : LTile) : List (Nat × Nat) :=
  let d := l.desc
  let cfg := s.layerCfg d
  let k0 := t.k0 * cfg.blockLen
  let kn := min (l.k - k0) (t.kl * cfg.blockLen)
  let ng := ceilDiv l.k cfg.group
  let n0 := 512 * t.n0
  let cols := (List.range (min (l.n - n0) (512 * t.nl))).map (n0 + ·)
  let rows := (List.range t.ml).map (t.m0 + ·)
  let hw := hd 2
  let next (i : Nat) : Handle := s.handle (d.hnd i + 1)
  (if !hw.tiered then []
    else if cfg.s24 then hw.rowPieces cols (LdwGeom.rowBytes ⟨hw, l.k, 0, 0⟩ true) 0 (LdwGeom.rowBytes ⟨hw, l.k, 0, 0⟩ true)
    else hw.densePieces cols l.k k0 kn)
    ++ (if (hd 3).tiered then (hd 3).rowPieces cols (4 * ng) 0 (4 * ng) else [])
    ++ s.actPieces (hd 0) (next 0) rows l.k k0 kn ++ s.recPieces (hd 1) (next 1) rows (4 * ng)

/-- Addresses of the token-list entries of a chunk: expert, address and count, in expert order. -/
def chunkRuns (experts : List (Nat × Nat)) (chunk : Nat) : List (Nat × Nat × Nat) :=
  ((experts.zip (List.range experts.length)).foldl (fun (acc : Nat × List (Nat × Nat × Nat)) x =>
    let lo := max acc.1 (4096 * chunk)
    let hi := min (acc.1 + x.1.2) (4096 * (chunk + 1))
    (acc.1 + x.1.2, if lo < hi then acc.2 ++ [(x.2, x.1.1 + 8 * (lo - acc.1), hi - lo)] else acc.2)) (0, [])).2

/-- Chunks and slices of a routed layer (R166). -/
def Layer.chunks (l : Layer) : Nat := ceilDiv (l.experts.map (·.2)).sum 4096
def Layer.slices (l : Layer) : Nat := ceilDiv (nBlocks l.n) (l.desc.at' 0x02E 2)

/-- The first N-block of a slice and how many it has. -/
def Layer.slice (l : Layer) (i : Nat) : Nat × Nat :=
  let n := l.desc.at' 0x02E 2
  (i * n, min n (nBlocks l.n - i * n))

/-- The work items of a routed layer in rounds of up to A (R167). -/
def Layer.rounds (l : Layer) : List LTile :=
  let n := l.chunks * l.slices
  (List.range (ceilDiv n l.cores)).map (fun r => ⟨r * l.cores, 0, min l.cores (n - r * l.cores), 0, 0, 0, 0⟩)

/-- The pieces of a round: the weights of each (expert, slice) pair once, at WBASE + e * WSTRIDE (R164, R167). Their records and the
gathered rows are read by the cores (log 29). -/
def State.roundPieces (s : State) (l : Layer) (r : LTile) : List (Nat × Nat) :=
  let kb := kBlocks (s.layerCfg l.desc) l.k
  let pairs := ((List.range r.ml).flatMap (fun i => let item := r.item + i
    (chunkRuns l.experts (item % l.chunks)).map (fun x => (x.1, item / l.chunks)))).eraseDups
  pairs.flatMap (fun p =>
    let o := p.1 * l.desc.at' 0x080 8
    let hw := s.handle (l.desc.hnd 2)
    s.piecesOf l (fun j => if j = 2 then { hw with base := hw.base + o, length := hw.length - o / 64 } else handleOf 0)
      ⟨0, 0, 0, (l.slice p.2).1, (l.slice p.2).2, 0, kb⟩)

/-- The pieces of a batch: of a ledge tile, of a round, or of every entry of a pointer list. -/
def State.tilePieces (s : State) (l : Layer) (t : LTile) : List (Nat × Nat) :=
  let d := l.desc
  if d.routed then s.roundPieces l t
  else if d.plist then
    ((List.range l.entries.length).flatMap (fun i =>
      s.piecesOf l (s.entryHandle l i) ⟨i, 0, l.entryRows i, 0, nBlocks l.n, 0, kBlocks (s.layerCfg d) l.k⟩)).eraseDups
  else s.piecesOf l (fun j => s.handle (d.hnd j)) t

/-- Granules of a batch's staging buffer. -/
def State.tileGranules (s : State) (l : Layer) (t : LTile) : Nat := ceilDiv ((s.tilePieces l t).map (·.2)).sum 65536

/-- Two buffers of `g` granules fit the queue's free quota and the free granules. -/
def State.twoFit (s : State) (q g : Nat) : Option (Nat × Nat) :=
  if (s.overQuota q 0 (2 * g)).isSome then none
  else
    match s.freeGranules g with
    | none => none
    | some a =>
      let t : State := { s with staging := s.staging ++ [⟨0, q, a, g, 0, none⟩] }
      (t.freeGranules g).map (fun b => (a, b))

/-- A size halved to whole units of `c` (R238, R258). -/
def halved (n c : Nat) : Nat := ceilDiv (ceilDiv n 2) c * c

/-- Sizes halved until two ledge tiles fit: LN, then LM, then LK of an ATOMIC layer; none when one core tile does not. The
first argument bounds the halvings. -/
def State.fitTiles (s : State) (q : Nat) (l : Layer) : Nat → Nat × Nat × Nat → Option ((Nat × Nat × Nat) × Nat × Nat × Nat)
  | 0, _ => none
  | fuel + 1, sz =>
    let d := l.desc
    let nb := nBlocks l.n
    let kb := kBlocks (s.layerCfg d) l.k
    let g := s.tileGranules l ⟨0, 0, min sz.1 l.m, 0, min sz.2.1 nb, 0, min sz.2.2 kb⟩
    let together := (d.shapes l.m nb kb sz).all (d.kTogether l.cores)
    match (if together then s.twoFit q g else none) with
    | some b => some (sz, b.1, b.2, g)
    | none =>
      if d.cn < sz.2.1 then s.fitTiles q l fuel (sz.1, halved sz.2.1 d.cn, sz.2.2)
      else if d.cm < sz.1 then s.fitTiles q l fuel (halved sz.1 d.cm, sz.2)
      else if d.path = 2 ∧ d.ck < sz.2.2 then s.fitTiles q l fuel (sz.1, sz.2.1, halved sz.2.2 d.ck)
      else none

/-- Two staging buffers of `g` granules for a command. -/
def State.addStaging (s : State) (id q a b g : Nat) : State :=
  ({ s with staging := s.staging ++ [⟨id, q, a, g, 0, none⟩, ⟨id, q, b, g, 0, none⟩] } : State).showUse q

/-- The batches of a layer and its staging buffers: ledge tiles, rounds, or one batch of a whole pointer list. Where two buffers do not
fit, or nothing lies in the tiers, each core loads its own operands (R258). -/
def State.planBatches (s : State) (q : Nat) (id : Nat) (l : Layer) : Layer × State :=
  let d := l.desc
  let nb := nBlocks l.n
  let kb := kBlocks (s.layerCfg d) l.k
  let sz := d.ledgeSize l.m nb kb
  let given (ts : List LTile) : Layer × State :=
    let g := (ts.map (s.tileGranules l)).foldl max 0
    let l := { l with todo := ts, staged := false }
    if g = 0 then (l, s)
    else match s.twoFit q g with
      | some b => ({ l with staged := true }, s.addStaging id q b.1 b.2 g)
      | none => (l, s)
  let plain (sz : Nat × Nat × Nat) : List LTile := d.ledgeTiles l.m nb kb sz.1 sz.2.1 sz.2.2
  if d.routed then given l.rounds
  else if d.plist then given [⟨0, 0, l.m, 0, nb, 0, kb⟩]
  else if (s.tilePieces l ⟨0, 0, l.m, 0, nb, 0, kb⟩).isEmpty then ({ l with todo := plain sz, staged := false }, s)
  else
    match s.fitTiles q l 128 sz with
    | none => ({ l with todo := plain sz, staged := false }, s)
    | some (sz', a, b, g) => ({ l with todo := plain sz', staged := true }, s.addStaging id q a b g)

/-! ## Staging and dispatching a batch -/

/-- A dispatch of a batch has not finished. -/
def State.batchOpen (s : State) (id b : Nat) : Bool := s.disp.any (fun d => d.cmd == id && d.batch == b && decide (d.st < 2))

/-- The pieces of a batch copied into ledge memory from an address. -/
def State.copyPieces : List (Nat × Nat) → Nat → State → Reach Unit
  | [], _, s => .ok () s
  | p :: ps, a, s =>
    (s.devRead p.1 p.2).bind (fun b t =>
      let r := t.memWrite a b
      if t.atomFirst a p.2 then .wait t
      else if r.1 = stOk then State.copyPieces ps (a + p.2) r.2 else .fail r.1 r.2)

/-- The next batch of a command put into a free staging buffer: its ledge address, none for a layer that stages nothing. It waits for
a buffer whose batch has finished, or for memory. -/
def State.stageBatch (s : State) (id : Nat) (l : Layer) (t : LTile) : Reach (Option Nat) :=
  if !l.staged then
    if 2 ≤ ((List.range (l.batch + 1)).filter (s.batchOpen id)).length then .wait s else .ok none s
  else
    match s.staging.find? (fun g => g.cmd == id && (g.batch == 0 || !s.batchOpen id g.batch)) with
    | none => .wait s
    | some g =>
      let a := 0x8000000000 + 65536 * g.first
      (State.copyPieces (s.tilePieces l t) a s).bind (fun _ u =>
        .ok (some a) { u with staging := u.staging.map (fun x => if x = g then { g with batch := l.batch + 1, tile := some t } else x) })

/-- The next ledge tile of a command, or its pointer list, staged and dispatched when a buffer is free (R240, R258). After the good
entries of a list the faulty one ends the command (R246). -/
def State.stageNext (s : State) (id : Nat) : State :=
  match (s.cmd id).bind (·.layer) with
  | none => s
  | some l =>
    match l.todo with
    | [] => s
    | t :: rest =>
      match s.stageBatch id l t with
      | .wait u => u
      | .fail st u => u.failCmd id st
      | .ok a u =>
        let l' := { l with todo := rest, batch := l.batch + 1 }
        let u := u.modLayer id (fun _ => l')
        let d := l.desc
        let tiles := if d.plist then (List.range l.entries.length).flatMap (fun i =>
            d.coreTiles ⟨i, 0, l.entryRows i, 0, nBlocks l.n, 0, kBlocks (u.layerCfg d) l.k⟩)
          else d.coreTiles t
        let u := ({ u with disp := u.disp ++ u.shareOut id l' tiles a } : State).pump
        if l.badEntry then u.noteStatus id stMetadataInvalid else u

/-! ## Routed layers (R164 to R168) -/

/-- A token-list entry taken apart: row and gate (R165). -/
def tokenEntry (m n : Nat) : Option (Nat × Nat) :=
  let g := bitsOf n 47 32
  if m ≤ n % 2 ^ 24 ∨ bitsOf n 31 24 ≠ 0 ∨ n / 2 ^ 48 ≠ 0 ∨ !scaleOk g ∨ scaleExp g = 0 then none else some (n % 2 ^ 24, g)

/-- The entries of a chunk read and checked. -/
def State.readChunk (m : Nat) : List (Nat × Nat × Nat) → State → Reach Unit
  | [], s => .ok () s
  | r :: rs, s =>
    (s.devRead r.2.1 (8 * r.2.2)).bind (fun b t =>
      if (List.range r.2.2).any (fun i => (tokenEntry m (entryNat b (8 * i) 8)).isNone) then .fail stMetadataInvalid t
      else State.readChunk m rs t)

/-- The chunks of work items read and checked up to the first that fails: the items before it, and its status (R165). -/
def State.readItems (l : Layer) : List Nat → State → Reach (List Nat × Nat)
  | [], s => .ok ([], stOk) s
  | i :: is, s =>
    match State.readChunk l.m (chunkRuns l.experts (i % l.chunks)) s with
    | .wait t => .wait t
    | .fail st t => .ok ([], st) t
    | .ok _ t => (State.readItems l is t).bind (fun r u => .ok (i :: r.1, r.2) u)

/-- The core tiles of a work item: the segments of its chunk in expert order, each over the item's slice (R166). -/
def State.itemTiles (s : State) (l : Layer) (item : Nat) : List LTile :=
  let sl := l.slice (item / l.chunks)
  (chunkRuns l.experts (item % l.chunks)).flatMap (fun r =>
    l.desc.coreTiles ⟨r.1, 0, r.2.2, sl.1, sl.2, 0, kBlocks (s.layerCfg l.desc) l.k⟩)

/-- The rows of an expert's segment in a work item. -/
def Layer.segmentRows (l : Layer) (item expert : Nat) : Nat :=
  (((chunkRuns l.experts (item % l.chunks)).find? (fun r => r.1 == expert)).map (·.2.2)).getD 0

/-- The next round staged and dispatched: item `i` of it to logical core `i`, up to the first whose chunk is faulty (R165, R167). -/
def State.roundNext (s : State) (id : Nat) : State :=
  match (s.cmd id).bind (·.layer) with
  | none => s
  | some l =>
    match l.todo with
    | [] => s
    | r :: rest =>
      match State.readItems l ((List.range r.ml).map (r.item + ·)) s with
      | .wait t => t
      | .fail st t => t.failCmd id st
      | .ok (items, st) t =>
        match t.stageBatch id l r with
        | .wait u => u
        | .fail st u => u.failCmd id st
        | .ok a u =>
          let l' := { l with todo := if st = stOk then rest else [], batch := l.batch + 1 }
          let u := u.modLayer id (fun _ => l')
          let dealt := (items.zip (List.range items.length)).flatMap (fun p => (u.itemTiles l p.1).map (fun t => (p.2, t)))
          let ds := (items.zip (List.range items.length)).flatMap (fun p =>
            (u.dispatches id l' p.2 (l.segmentRows p.1) (u.itemTiles l p.1) a (if a.isSome then dealMasks dealt p.2 else [])).map
              (fun d => { d with tiles := if d.part = 0 then 1 else 0 }))
          let u := ({ u with disp := u.disp ++ ds } : State).pump
          if st = stOk then u else u.noteStatus id st

/-! ## Pointer lists (R246) -/

/-- An entry of a pointer list is good. -/
def State.entryOk (s : State) (e : List Byte) : Bool :=
  let f (o : Nat) : Nat := entryNat e o 8
  [0x00, 0x08, 0x10, 0x18, 0x20, 0x28].all (fun o =>
    bitsOf (f o) 62 48 == 0 && (!(f o).testBit 63 || s.addrKind (f o % 2 ^ 48) != .reserved))
    && entryNat e 0x34 12 == 0 && decide (entryNat e 0x30 4 < 2 ^ 24)

/-- The good entries of a pointer list up to the first faulty one, and whether there is one. -/
def State.goodEntries (s : State) : List (List Byte) → List (List Byte) × Bool
  | [] => ([], false)
  | e :: es =>
    if s.entryOk e then
      let r := s.goodEntries es
      (e :: r.1, r.2)
    else ([], true)

/-- The entries of a layer's pointer list, read as its core tiles are dispatched. -/
def State.readEntries (s : State) (src : Src) (d : Desc) : Reach (List (List Byte) × Bool) :=
  if !d.plist then .ok ([], false) s
  else (s.getData src (d.at' 0x088 8) (64 * d.at' 0x090 4)).bind (fun b t =>
    .ok (t.goodEntries ((List.range (d.at' 0x090 4)).map (fun i => (b.drop (64 * i)).take 64))) t)

/-! ## A layer begins (stages 4 and 5) -/

/-- A layer made, with nothing decided. -/
def mkLayer (d : Desc) (index cores obits : Nat) : Layer where
  desc := d
  index := index
  bounds := []
  m := 0
  n := 0
  k := 0
  cores := cores
  predicting := false
  todo := []
  batch := 0
  obits := obits
  barrier := false
  plan := []
  experts := []
  entries := []
  badEntry := false
  staged := false
  missed := false
  rerun := false
  judged := false

/-- Groups that the handles of a command cover wake (R198). -/
def State.wakeHandles (s : State) (hs : List Nat) : State :=
  (List.range 72).foldl (fun s c =>
    if s.coreSt c ≠ 0 then s
    else s.modCore c (fun k => hs.foldl (fun k h =>
      let e := k.handle c h
      if e.valid then k.wakeGroups c (k.handleGroups c e) else k) k)) s

/-- The prediction state of a layer's identity, with the limits of its last descriptor and every handle it was loaded through. -/
def State.notePred (s : State) (d : Desc) (h : Nat) : State :=
  let sh := d.at' 0x0B8 1
  let lim := d.at' 0x0BA 2
  if s.preds.any (fun p => p.layer == d.layerId) then
    { s with preds := s.preds.map (fun p => if p.layer = d.layerId then
        { p with shift := sh, limit := lim, handles := insertKey h p.handles } else p) }
  else { s with preds := s.preds ++ [⟨d.layerId, 0, 0, [], sh, lim, false, [h]⟩] }

/-- Flags raised for a command. -/
def State.raise (s : State) (id f : Nat) : State := s.modCmd id (fun x => { x with raised := x.raised ||| f })

/-- Core tiles, or work items, of a layer. -/
def State.layerTotal (s : State) (l : Layer) : Nat :=
  let t (i m : Nat) : LTile := ⟨i, 0, m, 0, nBlocks l.n, 0, kBlocks (s.layerCfg l.desc) l.k⟩
  if l.desc.routed then l.chunks * l.slices
  else if l.desc.plist then ((List.range l.entries.length).map (fun i => l.desc.tileCount (t i (l.entryRows i)))).sum
  else l.desc.tileCount (t 0 l.m)

/-- The layer's sizes and tables under bound values and the entries of its pointer list. -/
def State.sizedLayer (s : State) (d : Desc) (index : Nat) (bounds : List W32) (entries : List (List Byte) × Bool) : Layer :=
  let dm := d.dims bounds
  let e := d.at' 0x078 2 + 1
  { mkLayer d index (s.layerCores d) (fmtBits (d.at' 0x040 1) (d.at' 0x041 1)) with
    bounds := bounds, m := dm.1, n := dm.2.1, k := dm.2.2, entries := entries.1, badEntry := entries.2,
    experts := if d.routed then (List.range e).map (fun i => (d.at' (512 + 16 * i) 6, d.at' (512 + 16 * i + 8) 4)) else [] }

/-- The layer of a descriptor as far as its bounds and its pointer list can be read now; nothing is read for good. -/
def State.peekLayer (s : State) (src : Src) (d : Desc) : Layer :=
  let vs := match s.readBounds (d.drop 0x100) with
    | .ok vs _ => vs
    | _ => []
  s.sizedLayer d 0 vs (match s.readEntries src d with
    | .ok es _ => es
    | _ => ([], false))

/-- The deals of a layer whose pointer list has been read (R240, R246). -/
def State.dealsOf (s : State) (l : Layer) : List (List LTile) :=
  let nb := nBlocks l.n
  let kb := kBlocks (s.layerCfg l.desc) l.k
  if l.desc.plist ∧ ¬ l.desc.routed then
    [(List.range l.entries.length).flatMap (fun i => l.desc.coreTiles ⟨i, 0, l.entryRows i, 0, nb, 0, kb⟩)]
  else l.desc.deals l.m nb kb

/-- The logical cores to which a layer is dispatched, its predictor included (R229). -/
def State.membersOf (s : State) (l : Layer) (deals : List (List LTile)) : List Nat :=
  let p := if l.predicting then
      [l.desc.coreTiles ⟨0, 0, l.m, 0, nBlocks (ceilDiv l.n 256), 0, kBlocks (s.runCfg l) l.k⟩] else []
  (List.range l.cores).filter (fun i =>
    if l.desc.routed then decide (i < l.chunks * l.slices)
    else (deals ++ p).any (fun ts => !(shareOf (l.desc.deal l.cores ts) i).isEmpty))

/-- The first batch of a run: the predictor's, a round, a pointer list's, or a ledge tile. -/
def State.runLayer (s : State) (id : Nat) : State :=
  match s.cmd id, (s.cmd id).bind (·.layer) with
  | some x, some l =>
    let d := l.desc
    if l.predicting then
      let l' := { l with batch := l.batch + 1 }
      let s := s.modLayer id (fun _ => l')
      let t : LTile := ⟨0, 0, l.m, 0, nBlocks l.runCols, 0, kBlocks (s.runCfg l) l.k⟩
      ({ s with disp := s.disp ++ s.shareOut id l' (d.coreTiles t) none } : State).pump
    else
      let p := s.planBatches (srcQueue x.src) id l
      let s := p.2.modLayer id (fun _ => p.1)
      if d.routed then s.roundNext id else s.stageNext id
  | _, _ => s

/-- The device ranges of handles that lie in the tiers or in ledge memory. -/
def State.rangesOf (s : State) (hs : List Nat) : List (Nat × Nat) :=
  hs.filterMap (fun h =>
    let e := s.handle h
    if e.valid && (e.mem == memTier1 || e.mem == memTier2 || e.mem == memLedge) then some (e.base, 64 * e.length) else none)

/-- What comes of beginning a layer: it runs; it has ended at once, with a status and DETAIL; it waits for memory and begins later. -/
inductive Begun where
  | runs (s : State)
  | ended (st det : Nat) (s : State)
  | waits (s : State)

/-- A layer that has passed its checks becomes its command's: its prediction state, its barrier against the queue's last layer, its
members, its first batch. -/
def State.layerStart (s : State) (id : Nat) (x : Cmd) (l : Layer) (deals : List (List LTile)) : State :=
  let d := l.desc
  let key := srcRank x.src
  let prec := s.precField d
  let bar := match Tab.get (fun _ => none) s.lastLayer key with
    | some (p, _, _) => p != prec || decide (d.clip < 4096)
    | none => false
  let off := d.pred && s.predOff d.layerId
  let s := if d.pred then s.notePred d (d.hnd 2) else s
  let s := if off then s.raise id 32 else s
  let l := { l with barrier := bar, predicting := d.pred && !off }
  let s : State := { s.modCmd id (fun x => { x with layer := some l, members := s.membersOf l deals,
                                                    uses := s.withNext (d.reads ++ d.writes).eraseDups }) with
    lastLayer := Tab.set (fun _ => none) s.lastLayer key (some (prec, id, decide (d.clip < 4096))),
    disp := s.disp.filter (fun e => e.cmd != id) }
  let s := (s.noteWrites id (s.rangesOf d.writes)).noteSources id (s.rangesOf (s.withNext d.reads))
  (s.wakeHandles (s.withNext (d.reads ++ d.writes))).runLayer id

/-- A layer begins under its bound values: those kept from an earlier run of the command, or read now (R243 to R246). -/
def State.layerBegin (s : State) (id : Nat) (d : Desc) (index : Nat) : Begun :=
  match s.cmd id with
  | none => .waits s
  | some x =>
    match (match x.kept.find? (fun b => b.1 == index) with
      | some b => Bounds.ok b.2 s
      | none => s.readBounds (d.drop 0x100)) with
    | .wait t => .waits t
    | .bad st i t => .ended st (if st = stBadField then descDetail (0x100 + 8 * i) else 0) t
    | .ok vs t =>
      match t.readEntries x.src d with
      | .wait u => .waits u
      | .fail st u => .ended st 0 u
      | .ok es u =>
        let u := u.modCmd id (fun x => { x with kept := x.kept.filter (fun b => b.1 != index) ++ [(index, vs)] })
        let l := u.sizedLayer d index vs es
        let deals := u.dealsOf l
        match u.shapeBad d l.m l.n l.k l.cores deals with
        | some det => .ended stShapeInvalid det u
        | none =>
          if l.desc.prec.s24 && l.k % 4 != 0 then .ended stBadField (descDetail 0x018) u
          else match u.fallbackBad d l.m l.n with
            | some det => .ended stBadField det u
            | none =>
              if deals.all (·.isEmpty) then .ended (if l.badEntry then stMetadataInvalid else stOk) 0 u
              else .runs (u.layerStart id x l deals)

end Sys2Proof.Machine
end

