-- ==== Sys2Proof/Machine/Replay.lean ====
section
/-!
DEFINITION. Replay: what a lost core or a lost staged copy means for the dispatches of a command (R257, R402, R409 to R414).
-/

namespace Sys2Proof.Machine

/-- The arrival-increment instructions of a core's program that are acknowledged, and whether one has issued and is not
(R412). -/
def CoreState.arrAcked (k : CoreState) : List (Nat × Nat) :=
  k.arrOpen.filter (fun r => k.outst.all (fun o => o.done || decide (o.id < r.1) || decide (r.2 ≤ o.id)))

/-- The program that a core runs has sent a side effect that no replay may repeat (R411, R412). -/
def CoreState.sideSent (k : CoreState) : Bool := k.accSent || decide (k.arrAcked.length < k.arrOpen.length)

/-- A handle names a core's own AM or PM. -/
def State.localHandle (s : State) (h : Nat) : Bool :=
  let e := s.handle h
  e.valid && (e.mem == memAm || e.mem == memPm)

/-- A dispatch leaves output in its core's AM or PM (R410). -/
def State.keepsLocal (s : State) (d : Dispatch) : Bool := (progStores d.program).any s.localHandle

/-- The sources of a layer are intact: none lies in a core's own AM or PM, and pages in WM have a recorded load (R413). -/
def State.layerIntact (s : State) (d : Desc) : Bool :=
  (s.withNext d.reads).all (fun h => !s.localHandle h && (!((s.handle h).valid && (s.handle h).mem == memWm) || s.wloads.any (fun w => w.handle == h)))

/-- The outputs of a command's layer meet its own inputs. -/
def State.selfMeets (s : State) (x : Cmd) : Bool :=
  match x.layer with
  | some l => (s.rangesOf l.desc.writes).any (fun a => (s.rangesOf (s.withNext l.desc.reads)).any (meet a))
  | none => false

/-- The INFO of a replay record (R416): queue, TAG. -/
def replayInfo (x : Cmd) (round : Nat) : W64 :=
  BitVec.ofNat 64 (srcQueue x.src % 64 + x.tag % 2 ^ 16 * 2 ^ 16 + round % 4 * 2 ^ 32)

/-- A replay that cannot be: the command fails with a status once what runs has ended. -/
def State.noReplay (s : State) (x : Cmd) (st : Nat) : State :=
  let s := if st = stNonreplayable then s.bump RAS_NONREPLAY 1 else s
  (s.logEvent 0x08 st (srcSource x.src) (replayInfo x 0)).failCmd x.id st

/-- A replay round begins: at most 3 (R414). -/
def State.round (s : State) (x : Cmd) : State :=
  let s := (s.bump RAS_REPLAY 1).logEvent 0x07 0 (srcSource x.src) (replayInfo x (x.rounds + 1))
  s.modCmd x.id (fun y => { y with rounds := y.rounds + 1, raised := y.raised ||| 2 })

/-- A dispatch to be sent again from its ENTRY, to a logical core, its first arrival-increment instructions retired. -/
def Dispatch.again (d : Dispatch) (logical arrived : Nat) (counted : Bool) : Dispatch :=
  { d with st := 0, phys := 0, logical := logical, reissued := true, arrived := arrived, counted := d.counted || counted }

/-- The ticket register that a program's CLAIM on a list names, and the instruction that follows it. -/
def claimOf (ws : List W64) (l : Nat) : Option (Nat × Nat) :=
  (List.range ws.length).findSome? (fun i => match ws[i]? with
    | some w => if field w 5 0 = 0x1B ∧ field w 13 6 = l then some (field w 15 14, i + 1) else none
    | none => none)

/-- The open tickets of logical core `i` on the lists of a command (R257): of a list of this device by its owner array and
bitmap; of an attached list by what the core's program has claimed (R254). List, ticket. -/
def State.openTickets (s : State) (x : Cmd) (i : Nat) (k : CoreState) : List (Nat × Nat) :=
  x.lists.flatMap (fun l =>
    match Tab.get (fun _ => none) s.lists l with
    | none => []
    | some w =>
      match w.dev with
      | some _ => (k.tickets.filter (fun t => t.1 == l)).map (fun t => (l, t.2.2))
      | none =>
        let word (off n : Nat) : Nat := leNat (Mem.read s.dmem (w.addr + off) n)
        let bit (t : Nat) : Bool := (leNat (Mem.read s.dmem (word 0x10 8 + t / 8) 1)).testBit (t % 8)
        ((List.range (min (word 0 4) (word 4 4))).filter (fun t =>
          leNat (Mem.read s.dmem (word 0x18 8 + t) 1) == i + 1 && !bit t)).map (fun t => (l, t)))

/-- Where a reissued ticket of a list resumes: the RESUME of the header (R257); for an attached list, whose header is another
device's, the instruction after the program's CLAIM. -/
def State.resumeOf (s : State) (l after : Nat) : Nat :=
  match Tab.get (fun _ => none) s.lists l with
  | some w => if w.dev.isNone then leNat (Mem.read s.dmem (w.addr + 0x2C) 2) % 2 ^ 13 else after
  | none => after

/-- What a running dispatch becomes: one for every open ticket, with the ticket preloaded and ENTRY at RESUME; the dispatch from
its ENTRY when no ticket is open. -/
def State.reissue (s : State) (x : Cmd) (d : Dispatch) (logical : Nat) (k : CoreState) : List Dispatch :=
  let ts := (s.openTickets x d.logical k).filterMap (fun t => (claimOf d.program t.1).map (fun c => (c.1, s.resumeOf t.1 c.2, t.2)))
  let base := d.again logical k.arrAcked.length false
  if ts = [] then [base]
  else ts.map (fun t => { base with entry := t.2.1, ticket := some (t.1, t.2.2) })

/-- The chain goes back to its earliest layer with intact sources (R413). -/
def State.chainBack (s : State) (x : Cmd) : Option State :=
  match (List.range x.past.length).find? (fun j => match x.past[j]? with
      | some (st, d) => st == stOk && s.layerIntact d
      | none => false) with
  | none => none
  | some j =>
    let s := s.round x
    let s : State := { s with disp := s.disp.filter (fun d => d.cmd != x.id || d.st == 1), staging := s.staging.filter (fun g => g.cmd != x.id) }
    some (s.modCmd x.id (fun y => { y with
      layer := none, chain := y.past.drop j ++ y.chain, past := y.past.take j, layers := j, shown := s.progressOf x, done := 0 }))

/-- A record that a replay of the command needs is lost (R402): its own, or that of a WEIGHT_LOAD whose pages it uses (R410). -/
def State.recordLost (s : State) (x : Cmd) : Bool :=
  s.badWords.contains (.piton x.id) || s.wloads.any (fun w => x.uses.contains w.handle && s.badWords.contains (.piton w.cmd))

/-- A core is lost for a command: core `c`, which had logical number `i`, with the status of what went wrong. Its running
dispatches, and finished ones whose output it held, are sent again to logical core `j`, or the command fails (R410 to
R414). `ended` says that the completion of the running one has already come. -/
def State.loseCore (s : State) (x : Cmd) (c i status : Nat) (k : CoreState) (j : Option Nat) : State :=
  let mine (d : Dispatch) : Bool := d.cmd == x.id && d.phys == c
  let ended := s.completes.any (fun e => e.core == c && e.cmd == some x.id && e.status == stOk)
  let running (d : Dispatch) : Bool := mine d && d.st == 1 && !ended
  let lost (d : Dispatch) : Bool := mine d && (d.st == 2 || (d.st == 1 && ended)) && s.keepsLocal d
  let s := if s.disp.any running && k.doorbell.isNone && k.report.wrote then
      s.modCmd x.id (fun y => { y with wrote := true })
    else s
  if !s.disp.any (fun d => running d || lost d) then s
  else if x.ended ∨ x.closing ∨ isFailed x.status ∨ x.stopped then
    { s with disp := s.disp.filter (fun d => !running d) }
  else if s.recordLost x then ({ s with disp := s.disp.filter (fun d => !running d) } : State).noReplay x stUncorrectable
  else if s.disp.any running && k.doorbell.isNone && k.sideSent then
    ({ s with disp := s.disp.map (fun d => if running d then { d with st := 3 } else d) } : State).noReplay x stNonreplayable
  else if x.wrote && s.selfMeets x then
    ({ s with disp := s.disp.filter (fun d => !running d) } : State).noReplay x stNonreplayable
  else if 3 ≤ x.rounds then ({ s with disp := s.disp.filter (fun d => !running d) } : State).noReplay x status
  else
    let intact := !x.stale && (match x.layer with
      | some l => s.layerIntact l.desc
      | none => true)
    if !intact then
      let t : State := { s with disp := s.disp.filter (fun d => !running d) }
      match (if x.op = 0x31 ∧ ¬ x.stale then t.chainBack x else none) with
      | some u => u
      | none => t.noReplay x stUncorrectable
    else
      match j with
      | none => ({ s with disp := s.disp.filter (fun d => !running d) } : State).noReplay x status
      | some j =>
        let s := s.round x
        let redo (d : Dispatch) : List Dispatch :=
          if running d then s.reissue x d j k else if lost d then [d.again j 0 true] else [d]
        let s : State := { s with
          completes := s.completes.filter (fun e => !(e.core == c && e.cmd == some x.id)) }
        if j = i then { s with disp := s.disp.flatMap redo }
        else
          let moved (d : Dispatch) : Bool := running d || lost d
          { s with disp := s.disp.filter (fun d => !moved d) ++ (s.disp.filter moved).flatMap redo }
where
  /-- The status is an error (R308). -/
  isFailed (st : Nat) : Bool := st != stOk && st != stRangeMissFinal

/-- The staging buffer that a dispatch reads holds an uncorrectable word (R402). -/
def State.badStaging (s : State) (d : Dispatch) : Option Staging :=
  s.staging.find? (fun g => g.cmd == d.cmd && g.batch == d.batch && s.ledgeErr.any (fun e =>
    decide (0x8000000000 + 65536 * g.first ≤ 8 * e.1) && decide (8 * e.1 < 0x8000000000 + 65536 * (g.first + g.count))
      && e.2 != 0 && !correctable e.2))

/-- A tile has read an uncorrectable word of a staged copy: the copy is staged again from its tier and the dispatch is sent
again; no core is fenced (R402, R410). None when this is not what happened. -/
def State.restage (s : State) (x : Cmd) (d : Dispatch) (status : Nat) (k : CoreState) : Option (Reach Unit) :=
  match x.layer, s.badStaging d with
  | some l, some g =>
    match g.tile with
    | none => none
    | some t =>
      if status ≠ stUncorrectable ∨ !l.staged then none
      else if s.recordLost x then some (.ok () (s.noReplay x stUncorrectable))
      else if k.sideSent then some (.ok () (s.noReplay x stNonreplayable))
      else if 3 ≤ x.rounds then some (.ok () (s.noReplay x status))
      else
        some (match State.copyPieces (s.tilePieces l t) (0x8000000000 + 65536 * g.first) s with
          | .wait u => .wait u
          | .fail st u => .ok () (u.noReplay x st)
          | .ok _ u =>
            let s := u.round x
            .ok () { s with disp := s.disp.map (fun e => if e = d then d.again d.logical k.arrAcked.length false else e) })
  | _, _ => none

/-- What MCASTs had written in core `a` written again in core `p`: rows of the scratchpads, with the tags of tagged slots FULL, pages,
and arrivals (R252). The bytes are those that core `a` had received (log 27). -/
def State.receiveAgain (s : State) (a p : Nat) : State :=
  let k := s.core a
  let row (m : SpmMem) (r : Nat) (s : State) : State :=
    let s := (s.spmWrite p m (64 * r) ((List.range 64).map (fun i => k.spmByte a m (64 * r + i))) true).2
    if ((List.range 256).map s.handle).any (fun h => h.valid && h.spm == some m && h.tagMode != 0
        && decide (h.base ≤ 64 * r ∧ 64 * r < h.base + 64 * h.length)) then s.modCore p (fun q => q.setTag p m (r / 32) true)
    else s
  (k.received.foldl (fun s e => match e.1 with
    | 0 => row .am e.2 s
    | 1 => row .pm e.2 s
    | 2 =>
      let mc := e.2 / 128
      let pg := e.2 % 128
      s.modCore p (fun q => q.landPage ⟨mc, pg, (List.range 256).map (fun r => (r, k.wmRow mc pg r)), (k.page mc pg).tag, none, none⟩)
    | _ => s.arriveInc p e.2 1) s).modCore p (fun q => { q with received := k.received })

end Sys2Proof.Machine
end

