-- ==== Sys2Proof/Machine/LayerRun.lean ====
section
/-!
DEFINITION. The end of dispatches, layers and execution-class commands, and the commands of a layer's steps (R83, R146,
R147, R167, R177, R180, R181, R230, R233, R256, R258, R302, R303, R307 to R309).
-/

namespace Sys2Proof.Machine

/-! ## The end of a command -/

/-- The staging buffers of a command are freed. -/
def State.freeStaging (s : State) (id : Nat) : State :=
  let qs := (s.staging.filter (fun g => g.cmd == id)).map (·.queue)
  qs.foldl State.showUse { s with staging := s.staging.filter (fun g => g.cmd != id) }

/-- An execution-class command ends: staging freed, PARTIAL on a failure after an output (R309). -/
def State.endExec (s : State) (id st det : Nat) : State :=
  let s := s.freeStaging id
  match s.cmd id with
  | none => s
  | some x =>
    s.conclude id st det x.execResult

/-- A layer of a chain has ended: layers completed, and the layer that sets STATUS. -/
def State.noteLayer (s : State) (id st index : Nat) : State :=
  s.modCmd id (fun x => { x with
    layers := if isError st then x.layers else x.layers + 1,
    badLayer := if isError st ∨ (st ≠ stOk ∧ x.badLayer = 0xFFFF) then index else x.badLayer,
    layer := none,
    status := stOk,
    failed := none })

/-- The STATUS of a chain in which no layer failed. -/
def Cmd.chainStatus (x : Cmd) : Nat := if x.badLayer = 0xFFFF then stOk else stRangeMissFinal

/-- The layers of a chain begin in order until one runs, one fails, or none is left (R302); a layer whose inputs another layer may yet
rewrite waits, as does one that waits for memory (R146). The first argument bounds them. -/
def State.chainGo (id : Nat) : Nat → State → State
  | 0, s => s
  | fuel + 1, s =>
    match s.cmd id with
    | none => s
    | some x =>
      match x.chain with
      | [] => s.endExec id x.chainStatus 0
      | (st, d) :: rest =>
        let index := x.words.getD 1 0 - rest.length
        let next (s : State) : State := s.modCmd id (fun y => { y with chain := rest, past := y.past ++ [(st, d)] })
        let after (s : State) (st det : Nat) : State :=
          let t := (next s).noteLayer id st index
          if isError st then t.endExec id st det else State.chainGo id fuel t
        if st ≠ stOk then after s st 0
        else if s.consumerHeld (Desc.reads d) id then s
        else match firstBad (s.descChecks d) with
          | some b => after s b.1 b.2
          | none => (match s.layerBegin id d index with
            | .runs t => next t
            | .ended st det t => after t st det
            | .waits t => t)

/-- The layer that a command runs has ended. -/
def State.layerEnd (s : State) (id st det : Nat) : State :=
  match s.cmd id, (s.cmd id).bind (·.layer) with
  | some x, some l =>
    let s := if l.desc.pred && s.predOff l.desc.layerId then s.raise id 32 else s
    if x.op = 0x31 then
      let s := (s.freeStaging id).noteLayer id st l.index
      if isError st then s.endExec id st det else State.chainGo id (x.chain.length + 1) s
    else s.endExec id st det
  | _, _ => s.endExec id st det

/-- Every local work list that the command has claimed from is done (R256). -/
def State.listsDone (s : State) (x : Cmd) : Bool :=
  x.lists.all (fun l => match s.list l with
    | some w => w.done || w.dev.isSome
    | none => true)

/-- A range miss that a rerun will answer (R147). -/
def Layer.reruns (l : Layer) : Bool := l.missed && l.desc.fbObits != 0 && !l.rerun

/-- A layer with a range miss that a rerun will answer dispatches nothing more (R147). -/
def State.stopForRerun (s : State) (id : Nat) : State :=
  match (s.cmd id).bind (·.layer) with
  | some l =>
    if l.reruns then
      ({ s with disp := s.disp.filter (fun d => d.cmd != id || d.st != 0) } : State).modLayer id (fun l => { l with todo := [] })
    else s
  | none => s

/-- A core has raised RANGE_MISS in a run of a layer. -/
def State.rangeMissed (s : State) (id : Nat) : State :=
  (s.modLayer id (fun l => { l with missed := true })).stopForRerun id

/-- At the end of a layer each core that ran it judges its partial window (R145). -/
def State.judgeWindows (s : State) (id : Nat) (l : Layer) : State :=
  let cs := ((s.disp.filter (fun d => d.cmd == id && d.st == 2)).map (·.phys)).eraseDups
  let s := s.modLayer id (fun l => { l with judged := true })
  cs.foldl (fun s c =>
    let k := s.core c
    if l.desc.clip < 4096 ∧ l.desc.clip * k.fld c CORE_RQ_WIN 27 16 < k.fld c CORE_RQ_WIN 12 0 * 4096 then
      (s.setCore c (k.bump c CORE_RQ_MISS 1)).rangeMissed id
    else s) s

/-- A command looked at after an event: it ends when nothing of it is left to run. -/
def State.settleCmd (s : State) (id : Nat) : State :=
  match s.cmd id with
  | none => s
  | some x =>
    if x.ended ∨ x.closing then s
    else if x.stopped ∧ [0x13, 0x14, 0x15].contains x.op then s.endTransfer id
    else if x.stopped then (if s.dispatching id then s else (s.freeStaging id).endStopped id)
    else if s.dispatching id then s
    else if isError x.status then s.layerEnd id x.status 0
    else
      match x.layer with
      | none =>
        if x.op = 0x32 ∧ s.listsDone x then s.endExec id stOk 0
        else if x.op = 0x31 ∧ !x.chain.isEmpty then State.chainGo id (x.chain.length + 1) s
        else s
      | some l =>
        if l.predicting || !l.todo.isEmpty || s.windowDue l || !s.listsDone x then s
        else
          let t := if l.judged then s else s.judgeWindows id l
          match (t.cmd id).bind (·.layer) with
          | some l => if l.reruns then t else t.layerEnd id (if l.missed then stRangeMissFinal else stOk) 0
          | none => t

/-- Every command looked at. -/
def State.settleCmds (s : State) : State := (s.cmds.map (·.id)).foldl State.settleCmd s

/-- The commands that wait to begin a layer looked at. -/
def State.settleWaiting (s : State) : State :=
  ((s.cmds.filter (fun x => x.op == 0x31 && x.layer.isNone)).map (·.id)).foldl State.settleCmd s

/-! ## The commands -/

/-- ABORT. -/
def opAbort : Body := fun e s =>
  match s.target (e.word 0 / 2 ^ 16 % 64) (e.word 0 % 2 ^ 16) with
  | some (.cmd x) =>
    if x.ended ∨ x.closing ∨ x.stopped then .done (s.short e stOk 0 0)
    else .done (((s.stopCmd x.id).settleCmd x.id).settleWaiting.short e stOk 0 1)
  | some (.entry d) =>
    let rest := s.fetched.filter (fun f => f != d)
    .done (({ s with fetched := rest } : State).complete d stAborted 0 0 |>.short e stOk 0 1)
  | _ => .done (s.short e stOk 0 0)

/-- ABORT. -/
def execAbort (src : Src) (s : State) : Out :=
  s.keepEdge <| s.keepFabric <|
  .next (s.stage2 0x03 src noFields opAbort)


/-- LAYER_RUN past check 7. -/
def opLayerRun : Body := fun e s =>
  let d := e.copy
  match s.readBounds (d.drop 0x100) with
  | .wait t => .hold t
  | b =>
    let r := s.start e unitPercent (match b with
      | .ok _ _ => s.layerTotal (s.peekLayer e.src d)
      | _ => 0)
    match r.2.layerBegin r.1 d 0 with
    | .runs t => .done (t.settleCmd r.1)
    | .ended st det t => .done (t.endExec r.1 st det)
    | .waits _ => .hold s

/-- LAYER_RUN. -/
def execLayerRun (src : Src) (s : State) : Out :=
  s.keepEdge <| s.keepFabric <|
  .next (s.stage2 0x30 src layerChecks opLayerRun)

/-- LAYER_CHAIN past check 7: every handle of the chain wakes its groups (R198), and the layers begin. -/
def opLayerChain : Body := fun e s =>
  let ls := chainOf (e.word 1 + 1) e.copy
  let total := (ls.map (fun l => if l.1 = stOk then s.layerTotal (s.peekLayer e.src l.2) else 0)).sum
  let r := s.start e unitPercent total
  let t := r.2.modCmd r.1 (fun x => { x with chain := ls })
  let t := t.wakeHandles (t.withNext (ls.flatMap (fun l => if l.1 = stOk then Desc.reads l.2 ++ Desc.writes l.2 else [])).eraseDups)
  .done (State.chainGo r.1 (ls.length + 1) t |>.settleCmd r.1)

/-- LAYER_CHAIN. -/
def execLayerChain (src : Src) (s : State) : Out :=
  s.keepEdge <| s.keepFabric <|
  .next (s.stage2 0x31 src chainChecks opLayerChain)

/-- TILE_RUN's reads and checks. -/
def tileChecks : Checks := fun e s =>
  let n := e.word 1 % 2 ^ 13
  let bnds := (e.word 1).testBit 29
  let cs := s.addrChecks e 0 true false ++ (if bnds then s.addrChecks e 3 false false else [])
    ++ okField 1 0 (n != 0) :: s.maskChecks e 2
  match firstBad cs with
  | some _ => .done cs [] s
  | none =>
    match s.getData e.src (e.word 0) (8 * n) with
    | .wait t => .wait t
    | .fail st t => .done [(wordAt 0 0, st, false)] [] t
    | .ok p t =>
      if t.consumerHeld (progUses (progWords p n)).1 t.nextCmd then .wait t
      else if !bnds then .done [] p t
      else match t.getData e.src (e.word 3) 128 with
        | .wait t => .wait t
        | .fail st t => .done [(wordAt 3 0, st, false)] [] t
        | .ok b t => .done [] (p ++ b) t

/-- TILE_RUN past check 7: one dispatch for every logical core of the mask. -/
def opTileRun : Body := fun e s =>
  let n := e.word 1 % 2 ^ 13
  let ws := progWords e.copy n
  let cores := (List.range 64).filter (e.word 2).testBit
  let u := progUses ws
  match (if (e.word 1).testBit 29 then s.readBounds (e.copy.drop (8 * n)) else .ok [] s) with
  | .wait t => .hold t
  | .bad st _ t =>
    let r := t.start e unitPercent cores.length
    .done (r.2.conclude r.1 st (if st = stBadField then wordAt 3 0 else 0) 0)
  | .ok bs t =>
    let r := t.start e unitPercent cores.length
    let t := r.2.modCmd r.1 (fun x => { x with members := cores, uses := r.2.withNext u.1, useLists := u.2 })
    let ds := cores.map (fun i => { mkDispatch r.1 i ws (e.word 1 / 2 ^ 16 % 2 ^ 13) bs with tiles := 1 })
    let t := (t.noteWrites r.1 (t.rangesOf (progStores ws))).noteSources r.1 (t.rangesOf (t.withNext u.1))
    .done (({ t.wakeHandles (t.withNext u.1) with disp := t.disp ++ ds } : State).pump.settleCmd r.1)

/-- TILE_RUN. -/
def execTileRun (src : Src) (s : State) : Out :=
  s.keepEdge <| s.keepFabric <|
  .next (s.stage2 0x32 src tileChecks opTileRun)

/-! ## Doorbells of the cores -/

/-- COMPLETION_DOORBELL: a SIGNAL's value adds to its command's sum; a list that has reached its LENGTH is done. -/
def execCompletionDoorbell (i : Nat) (s : State) : Out :=
  s.keepEdge <| s.keepFabric <| s.keepPower <|
  match s.doorbells[i]? with
  | none => .next s
  | some d =>
    let s := { s with doorbells := s.doorbells.eraseIdx i }
    match d with
    | .signal _ (some id) v => .next (s.modCmd id (fun x => { x with sum := x.sum + v }))
    | .signal _ none _ => .next s
    | .list a =>
      let s : State := { s with lists := s.lists.map (fun l => (l.1, l.2.map (fun w =>
        if w.addr = a ∧ w.dev.isNone then { w with done := true } else w))) }
      .next s.settleCmds

/-- Tile counts added to a window until it closes (R180); the rest waits for the close. -/
def PredState.pour : List (Nat × Nat) → PredState → PredState
  | [], p => { p with queue := [] }
  | t :: ts, p =>
    if 1024 ≤ p.inactive then { p with queue := t :: ts }
    else PredState.pour ts { p with inactive := p.inactive + t.1, misses := p.misses + t.2 }

/-- What a finished dispatch reports, added to its command (R122, R145, R177 to R181, R307). -/
def State.mergeReport (s : State) (x : Cmd) (d : Dispatch) (r : DispatchReport) : State :=
  let l := x.layer
  let first := (l.map (fun l => !l.rerun)).getD true && !d.counted
  let s := s.modCmd x.id (fun y => { y with
    raised := y.raised ||| (if r.nonfinite then 4 else 0) ||| (if r.corr then 8 else 0) ||| (if r.bound then 64 else 0),
    wrote := y.wrote || r.wrote,
    shortest := if r.shortest = 0 then y.shortest else if y.shortest = 0 then r.shortest else min y.shortest r.shortest,
    longest := max y.longest r.longest,
    clips := if d.counted then y.clips else y.clips + r.clips,
    amisses := if first then y.amisses + r.amisses else y.amisses,
    done := if d.counted then y.done else y.done + d.tiles,
    layer := y.layer.map (fun l => { l with missed := l.missed || r.rangeMiss }) })
  match l with
  | some l =>
    if first && l.desc.pred then
      { s with preds := s.preds.map (fun p => if p.layer = l.desc.layerId then PredState.pour (p.queue ++ r.blocks) p else p) }
    else s
  | none => s

/-- DISPATCH_COMPLETE: a finished dispatch is marked and reported. A failing status stops its command's dispatch; one of a
core that is to be fenced is left to its fence, and one that read a lost staged copy is sent again (R402, R410). A completion that no running dispatch expects is dropped (R181). -/
def execDispatchComplete (i : Nat) (s : State) : Out :=
  s.keepEdge <| s.keepFabric <| s.keepPower <|
  match s.completes[i]? with
  | none => .next s
  | some e =>
    let s := { s with completes := s.completes.eraseIdx i }
    match e.cmd.bind s.cmd, s.disp.findIdx? (fun d => some d.cmd == e.cmd && d.phys == e.core && d.st == 1) with
    | some x, some j =>
      match s.disp[j]? with
      | none => .next s
      | some d =>
        if e.status ≠ stOk ∧ s.fenceDue.any (fun f => f.1 == e.core) then .next s
        else match (if e.status = stOk then none else s.restage x d e.status (s.core e.core)) with
        | some (.wait t) => .next { t with completes := t.completes ++ [e] }
        | some (.ok _ t) | some (.fail _ t) => .next (t.pump.settleCmd x.id).settleWaiting
        | none =>
          let s := ({ s with disp := s.disp.set j { d with st := 2 } } : State).mergeReport x d e.report
          let s := if e.status = stOk then s else s.failSince x.id e.status e.time d.logical
          .next ((s.stopForRerun x.id).pump.settleCmd x.id).settleWaiting
    | _, _ => .next s.pump

/-! ## The steps of a layer -/

/-- FORMAT_BARRIER_RELEASE: every contribution of the earlier commands of the source has retired on core `c`; the held
dispatch goes, and the idle cycles count (R83). -/
def execFormatBarrierRelease (c : Nat) (s : State) : Out :=
  s.inCores <|
  let k := s.core c
  let i := s.logicalOf c
  match s.disp.findIdx? (fun d => d.logical == i && d.held.isSome && d.st == 0) with
  | none => .next s
  | some j =>
    match s.disp[j]? with
    | none => .next s
    | some d =>
      let old := (s.disp.take j).any (fun e => e.logical == i && e.cmd != d.cmd && decide (e.st < 2))
      if s.coreSt c ≠ 0 ∨ old ∨ k.loaded ∨ k.doorbell.isSome ∨ ¬ k.retired ∨ ¬ k.settled then .next s
      else
        let idle := s.now - max (d.held.getD s.now) k.idleSince
        let s : State := { s with disp := s.disp.map (fun e => if e.cmd = d.cmd ∧ e.logical = i then { e with held := none } else e) }
        .next (s.cbump c CORE_ACC_FBAR idle).pump

/-- LAYER_RERUN: the dispatched tiles of a layer that has missed have finished; the output handles are rebound and the
whole layer runs again at FB_OBITS (R147). -/
def execLayerRerun (id : Nat) (s : State) : Out :=
  s.keepEdge <| s.keepFabric <| s.keepPower <|
  match s.cmd id, (s.cmd id).bind (·.layer) with
  | some x, some l =>
    if x.ended ∨ x.closing ∨ x.stopped ∨ isError x.status ∨ ¬ l.reruns ∨ s.dispatching id then .next s
    else
      let d := l.desc
      let fb := d.fbObits
      let ho := s.handle (d.hnd 4)
      let hr := s.handle (d.hnd 5)
      let s := s.setHandles (d.hnd 4) { rebase ho (d.at' 0x050 8) (ceilDiv (l.m * ceilDiv (l.n * fb) 8) 64) with bits := fb }
      let s := s.setHandles (d.hnd 5) (rebase hr (d.at' 0x058 8) hr.length)
      let s := (s.freeStaging id).raise id 1
      let s := s.modCmd id (fun x => { x with
        clips := 0, shown := s.progressOf x, done := 0,
        layer := some { l with rerun := true, missed := false, judged := false, obits := fb, predicting := false } })
      let s : State := { s with disp := s.disp.filter (fun e => e.cmd != id) }
      .next ((s.runLayer id).settleCmd id)
  | _, _ => .next s

/-- RANGE_MISS_WINDOW: the oldest closed window raises RANGE_MISS when its clips exceed its limit; the layer whose tile the core runs
dispatches nothing more if a rerun will answer (R145, R147). -/
def execRangeMissWindow (c : Nat) (s : State) : Out :=
  s.keepEdge <| s.keepFabric <| s.keepPower <|
  let k := s.core c
  match k.rangeWindows with
  | [] => .next s
  | (clips, limit) :: ws =>
    let k := { k with rangeWindows := ws }
    if limit < 4096 ∧ limit < clips then
      let t := s.setCore c { k.bump c CORE_RQ_MISS 1 with report := { k.report with rangeMiss := true } }
      .next (match k.dispatch with
        | some id => t.rangeMissed id
        | none => t)
    else .next (s.setCore c k)

/-- ROUTED_ROUND: every item of the round has retired; the next round is dispatched (R167). -/
def execRoutedRound (id : Nat) (s : State) : Out :=
  s.keepEdge <| s.keepFabric <| s.keepPower <|
  match s.cmd id, (s.cmd id).bind (·.layer) with
  | some x, some l =>
    if x.ended ∨ x.closing ∨ x.stopped ∨ !l.desc.routed ∨ l.predicting ∨ isError x.status ∨ s.dispatching id then .next s
    else .next ((s.roundNext id).settleCmd id)
  | _, _ => .next s

/-- LEDGE_TILE_STAGE: the next ledge tile is staged while the cores work on the present one (R258); a chain whose next layer waited
for memory tries again. -/
def execLedgeTileStage (id : Nat) (s : State) : Out :=
  s.keepEdge <| s.keepFabric <| s.keepPower <|
  match s.cmd id, (s.cmd id).bind (·.layer) with
  | some x, some l =>
    if x.ended ∨ x.closing ∨ x.stopped ∨ l.desc.routed ∨ l.predicting ∨ isError x.status ∨ l.reruns then .next s
    else .next ((s.stageNext id).settleCmd id)
  | _, _ => .next (s.settleCmd id)

/-- The predicted-inactive blocks of a layer in row order, block order within a row: the 1 bits of the skip maps that the cores which ran
its predictor have written in PM (R176, R177). -/
def State.inactiveBlocks (s : State) (id : Nat) (l : Layer) : List Nat :=
  (((s.disp.filter (fun d => d.cmd == id)).map (·.phys)).eraseDups.flatMap (fun c =>
    let k := s.core c
    (k.skipMap.filter (fun b =>
      let a := Config.skipMapBit c b.1 b.2 % 2 ^ 23
      (k.spmByte c .pm (a / 8)).getLsbD (a % 8) && decide (b.1 < l.m ∧ b.2 < ceilDiv l.n 256))).map
      (fun b => b.1 * 2 ^ 16 + b.2))).foldr insertKey []

/-- PRED_SKIP_MAP_READ: the predictor has run; inactive blocks are numbered, audits chosen, and the layer itself starts
(R177). -/
def execPredSkipMapRead (id : Nat) (s : State) : Out :=
  s.keepEdge <| s.keepFabric <| s.keepPower <|
  match s.cmd id, (s.cmd id).bind (·.layer) with
  | some x, some l =>
    if x.ended ∨ x.closing ∨ x.stopped ∨ !l.predicting ∨ isError x.status ∨ s.dispatching id then .next s
    else
      let bs := s.inactiveBlocks id l
      let a := 2 ^ l.desc.at' 0x0B8 1
      let plan := (bs.zip (List.range bs.length)).map (fun p => (p.1, p.2 % a == a - 1))
      let s := s.modLayer id (fun l => { l with predicting := false, plan := plan })
      .next ((s.runLayer id).settleCmd id)
  | _, _ => .next s

/-- PRED_WINDOW_CLOSE: 1,024 predicted-inactive blocks have come; prediction goes off for the layer when the estimate exceeds its limit,
tiles not yet dispatched compute every block, and the commands that run the layer carry PRED_DISABLED (R180). The counts that
waited go on into the next window. -/
def execPredWindowClose (layer : Nat) (s : State) : Out :=
  s.keepEdge <| s.keepFabric <| s.keepPower <|
  match s.preds.find? (fun p => p.layer == layer) with
  | none => .next s
  | some p =>
    if p.inactive < 1024 then .next s
    else
      let off := decide (p.limit < p.misses * 2 ^ p.shift) && decide (p.limit < 1024)
      let s : State := { s with preds := s.preds.map (fun q => if q.layer = layer then
        PredState.pour q.queue { q with inactive := q.inactive - 1024, misses := 0, off := q.off || off } else q) }
      let s := if !off then s
        else s.cmds.foldl (fun s x => match x.layer with
          | some l => if l.desc.pred ∧ l.desc.layerId = layer ∧ !x.ended then (s.raise x.id 32).reshare x.id l else s
          | none => s) s
      .next s.pump.settleCmds

end Sys2Proof.Machine
end

