-- ==== Sys2Proof/Machine/Fabric.lean ====
section
/-!
DEFINITION. Frames on the fabric: ports and their buffers, routing, forwarding, receiving, retry, protocol violations
(R338 to R356, R367, R369).
-/

namespace Sys2Proof.Machine

/-! ## Ports -/

/-- A port. -/
def State.port (s : State) (p : Nat) : PortState := Tab.get (fun _ => PortState.reset) s.ports p

/-- A port changed. -/
def State.modPort (s : State) (p : Nat) (f : PortState → PortState) : State :=
  { s with ports := Tab.set (fun _ => PortState.reset) s.ports p (f (s.port p)) }

/-- FAB_DISC.PHASE. -/
def State.phaseOf (s : State) : Nat := s.fld FAB_DISC 17 16

/-- The dimension of a port, and whether its direction is + (R338). -/
def portDim (p : Nat) : Nat := p / 8
def portPlus (p : Nat) : Bool := p / 4 % 2 == 0

/-- The ports of a direction. -/
def dirPorts (d : Nat) (plus : Bool) : List Nat := (List.range 4).map (fun b => 8 * d + (if plus then 0 else 4) + b)

/-- The UP ports of a direction. -/
def State.upPorts (s : State) (d : Nat) (plus : Bool) : List Nat := (dirPorts d plus).filter (fun p => s.portSt p == pUp)

/-- A port sends something on its link. -/
def State.wire (s : State) (p : Nat) (w : Wire) : State := { s with fabOut := s.fabOut ++ [(p, w)] }

/-! ## Frames (R344 to R346, R349) -/

/-- Bytes of payload of a frame. -/
def frameBytes (f : Frame) : Nat := (f.msgs.map (fun m => m.payload.length)).sum

/-- Flits of a frame: its header and the data flits of every message. -/
def frameFlits (f : Frame) : Nat := 1 + (f.msgs.map (fun m => ceilDiv m.payload.length 32)).sum

/-- The input buffer that a frame fills: TC * 2 + VC. -/
def frameBuf (f : Frame) : Nat := 2 * f.tc + f.vc

/-- The flits of an input buffer. -/
def bufFlits (b : Nat) : Nat := [32, 32, 64, 64, 448, 448, 224, 224].getD b 0

/-- The management code of a frame. -/
def mgmtCode (f : Frame) : Nat :=
  match f.msgs with
  | m :: _ => m.row % 256
  | [] => 0

/-- A count kept by buffer. -/
def bufCount (t : Tab Nat) (b : Nat) : Nat := Tab.get (fun _ => 0) t b

/-- The sideband of a codeword: the last SEQ received good, and what it reports (R343). -/
def State.sideband (s : State) (p : Nat) (nak : Bool) (buf credits : Nat) : State :=
  s.wire p (.side (((s.port p).rxSeq + 1023) % 1024) nak buf credits)

/-- Flits leave an input buffer: their credits go back (R349). -/
def State.release (s : State) (p buf n : Nat) : State :=
  (s.modPort p (fun x => { x with rxUsed := Tab.set (fun _ => 0) x.rxUsed buf (bufCount x.rxUsed buf - n) })).sideband
    p false buf n

/-! ## Routing (R351 to R356) -/

/-- Flits that a sender may still put into a buffer of the peer. -/
def State.creditsOf (s : State) (p buf : Nat) : Nat := bufFlits buf - bufCount (s.port p).txUsed buf

/-- Of the ports that hold the credits, the one with the most; the lowest bundle on a tie (R354). -/
def State.pickPort (s : State) (ps : List Nat) (buf need : Nat) : Option Nat :=
  (ps.filter (fun p => decide (need ≤ s.creditsOf p buf))).foldl (fun acc p =>
    match acc with
    | none => some p
    | some q => if s.creditsOf q buf < s.creditsOf p buf then some p else some q) none

/-- The port carries the frame in its state: an UP port carries all; hellos go on every trained port; the identity exchange
also on ports in IDCHECK and QUARANTINE; START also where the exchange that it begins runs (R363, R371, R439). -/
def State.carries (s : State) (p : Nat) (f : Frame) : Bool :=
  let st := s.portSt p
  let code := mgmtCode f
  st == pUp || (f.ty == 11 && (s.port p).trained &&
    (code == 1 || ((code == 0x0A || code == 0x0B) && (st == pIdCheck || st == pQuarantine)) || (code == 2 && st == pIdCheck)))

/-- The frame is routed full-adaptively (R355). -/
def State.adaptive (s : State) (f : Frame) : Bool := (s.reg FAB_ROUTE).getLsbD 0 && decide (2 ≤ f.tc)

/-- The next hop of a transit or outgoing frame in a dimension: the ports, and whether the hop is the dateline link. -/
def State.hopIn (s : State) (d dst : Nat) : Option (List Nat × Bool) :=
  let c := coordAt s.devId d
  (s.wayIn d c (coordAt dst d)).map (fun plus =>
    (s.upPorts d plus, (if plus then c else (c + s.fabSize d - 1) % s.fabSize d) == s.fabSize d - 1))

/-- The directions of a dimension, true for +, that reduce the distance to a device (R355): the shorter way; at equal distance both,
+ first (log 53); the other where a link of the shorter is broken. -/
def State.waysTo (s : State) (d dst : Nat) : List Bool :=
  let c := coordAt s.devId d
  let t := coordAt dst d
  let n := s.fabSize d
  let open' (plus : Bool) : Bool := !(if plus then linksPlus n c t else linksMinus n c t).any (fun l => s.broken.contains (d, l))
  if (linksPlus n c t).length = (linksMinus n c t).length then [true, false].filter open'
  else (s.wayIn d c t).toList

/-- The frame came on a link of dimension `d` on VC1. -/
def cameOnVc1 (e : Egress) (d : Nat) : Bool :=
  match e.port with
  | some q => portDim q == d && e.frame.vc == 1
  | none => false

/-- The output port and channel that a waiting frame would leave on now; none while it must wait. -/
def State.hopOf (s : State) (e : Egress) : Option (Nat × Nat) :=
  let f := e.frame
  let n := frameFlits f
  match e.out with
  | some p => if s.carries p f && decide (n ≤ s.creditsOf p (2 * f.tc)) then some (p, 0) else none
  | none =>
    if s.phaseOf ≠ 0 ∧ f.tc ≠ 0 then none
    else
      match s.firstDim f.dst with
      | none => none
      | some d =>
        if s.adaptive f then
          if e.esc || f.vc == 1 then
            match s.hopIn d f.dst with
            | none => none
            | some (ps, _) =>
              (s.pickPort ps (2 * f.tc + 1) (if cameOnVc1 e d then n else max 50 n)).map (fun p => (p, 1))
          else
            ((List.range 4).findSome? (fun d' =>
              if coordAt s.devId d' = coordAt f.dst d' then none
              else (s.waysTo d' f.dst).findSome? (fun plus => s.pickPort (s.upPorts d' plus) (2 * f.tc) n))).map (fun p => (p, 0))
        else
          match s.hopIn d f.dst with
          | none => none
          | some (ps, dateline) =>
            let vc := if cameOnVc1 e d || dateline then 1 else 0
            (s.pickPort ps (2 * f.tc + vc) n).map (fun p => (p, vc))

/-- TC0 before TC1 before TC2 and TC3. -/
def classRank (tc : Nat) : Nat := min tc 2

/-- Frames of a class in a round (R351): 0 acts as 1. -/
def State.weight (s : State) (tc : Nat) : Nat :=
  max 1 (if tc = 2 then s.fld FAB_ROUTE 11 8 else s.fld FAB_ROUTE 19 16)

/-- Another waiting frame must leave on the port first: one of a higher class, or of the other of TC2 and TC3 when the
frame's class has had its frames of the round. -/
def State.outranked (s : State) (i : Nat) (f : Frame) (p : Nat) : Bool :=
  let x := s.port p
  let spent := decide (s.weight f.tc ≤ (if f.tc = 2 then x.round2 else x.round3))
  (List.range s.egress.length).any (fun j =>
    match s.egress[j]? with
    | none => false
    | some e =>
      j != i && (s.hopOf e).map (·.1) == some p &&
        (decide (classRank e.frame.tc < classRank f.tc)
          || (decide (2 ≤ f.tc) && decide (2 ≤ e.frame.tc) && e.frame.tc != f.tc && spent)))

/-- The retry buffer of a port takes one more frame: 64 KiB, 511 frames (R348). -/
def PortState.holds (x : PortState) (n : Nat) : Bool :=
  decide (x.retry.length < 511) && decide (((x.retry.map frameFlits).sum + n) * 32 ≤ 65536)

/-- A frame of a class counted in the round; a round ends when both classes have had their frames, or the other class has
nothing to send. -/
def State.countRound (s : State) (p tc : Nat) : State :=
  if tc < 2 then s
  else
    let x := s.port p
    let spent := decide (s.weight tc ≤ (if tc = 2 then x.round2 else x.round3))
    let x := if spent then { x with round2 := 0, round3 := 0 } else x
    s.modPort p (fun _ => if tc = 2 then { x with round2 := x.round2 + 1 } else { x with round3 := x.round3 + 1 })

/-- A frame leaves on a port: HOPS, SEQ and VC rewritten, credits used, kept for retry; the buffer it leaves gives its
credits back. -/
def State.depart (s : State) (e : Egress) (p vc : Nat) : State :=
  let x := s.port p
  let f : Frame := { e.frame with vc := vc, hops := e.frame.hops + 1, seq := x.txSeq }
  let buf := frameBuf f
  let n := frameFlits f
  let s := s.countRound p f.tc
  let s := s.modPort p (fun x => { x with
    txSeq := (x.txSeq + 1) % 1024, retry := x.retry ++ [f],
    txUsed := Tab.set (fun _ => 0) x.txUsed buf (bufCount x.txUsed buf + n) })
  let s := s.setPair (PORT_TXB_LO p) (PORT_TXB_HI p) ((s.pair (PORT_TXB_LO p) (PORT_TXB_HI p) + frameBytes f) % 2 ^ 64)
  let s := s.wire p (.frame f)
  match e.port with
  | some q => (s.sample 3 q (s.now - e.since)).release q (frameBuf e.frame) n
  | none => s

/-- The messages of a frame for this device go to the units of their addresses (R358). -/
def State.arrive (s : State) (port : Option Nat) (f : Frame) : State :=
  f.msgs.foldl (fun s m =>
    { s with inbox := s.inbox ++ [⟨s.arrivals, port, { f with msgs := [m] }⟩], arrivals := s.arrivals + 1 }) s

/-- FRAME_FORWARD: waiting frame `i` leaves on the port that routing picks, once the port holds credits for all of it, no
frame of a higher class waits for the port, and the retry buffer has room; one for this device itself is handed over. -/
def execFrameForward (i : Nat) (s : State) : Out :=
  s.inFabric <|
  match s.egress[i]? with
  | none => .next s
  | some e =>
    let rest : State := { s with egress := s.egress.eraseIdx i }
    if e.out.isNone ∧ e.frame.dst = s.devId then .next (rest.arrive none e.frame)
    else match s.hopOf e with
      | none => .next s
      | some (p, vc) =>
        if s.outranked i e.frame p || !(s.port p).holds (frameFlits e.frame) then .next s
        else .next (rest.depart e p vc)

/-- VC1_ESCALATE: an adaptive frame has found no VC0 credits in any direction that it may take for 64 NCLK cycles (log 1),
and moves to VC1 for good. -/
def execVc1Escalate (i : Nat) (s : State) : Out :=
  s.inRegs <|
  match s.egress[i]? with
  | none => .next s
  | some e =>
    if e.out.isNone && s.adaptive e.frame && !e.esc && e.frame.vc == 0 && e.frame.dst != s.devId && s.phaseOf == 0
        && (s.hopOf e).isNone then
      .next (({ s with egress := s.egress.set i { e with esc := true } } : State).reach (e.since + 64))
    else .next s

/-! ## The link (R343, R348) -/

/-- The frames of a retry buffer that an ACK does not cover. -/
def dropAcked (ack : Nat) (fs : List Frame) : List Frame :=
  if fs.any (fun f => f.seq == ack) then (fs.dropWhile (fun f => f.seq != ack)).drop 1 else fs

/-- CODEWORD_SIDEBAND: an ACK frees what it covers; returned credits free a buffer of the peer. -/
def execCodewordSideband (p ack crclass credits : Nat) (s : State) : Out :=
  s.inFabric <|
  if 31 < p ∨ 7 < crclass ∨ 63 < credits then .next s
  else .next (s.modPort p (fun x => { x with
    retry := dropAcked ack x.retry,
    txUsed := Tab.set (fun _ => 0) x.txUsed crclass (bufCount x.txUsed crclass - credits) }))

/-! ## Receiving (R348, R369) -/

/-- The classes that a type may have. -/
def classOk (f : Frame) : Bool :=
  if f.ty ≤ 4 ∨ f.ty = 7 then f.tc == 1 || f.tc == 2
  else if f.ty ≤ 6 then f.tc == 3
  else if f.ty ≤ 10 then f.tc == 1
  else f.tc == 0

/-- Management codes of one hop, and those that are routed to a device. -/
def oneHop (code : Nat) : Bool := [0x01, 0x03, 0x0A, 0x0B].contains code
def routedCode (code : Nat) : Bool := [0x07, 0x10, 0x13, 0x16].contains code

/-- Half of a ring in every dimension (R342). -/
def State.diameter (s : State) : Nat := s.fabSize 0 / 2 + s.fabSize 1 / 2 + s.fabSize 2 / 2 + s.fabSize 3 / 2

/-- A frame with a good CRC breaks protocol (R369). -/
def State.frameBad (s : State) (p : Nat) (f : Frame) : Bool :=
  let code := mgmtCode f
  decide (11 < f.ty) || f.msgs.isEmpty || decide (3 < f.msgs.length) || !classOk f || decide (102 < f.issuer)
    || ((f.ty == 1 || f.ty == 2) && f.msgs.any (fun m => m.aux / 64 % 8 != 0))
    || decide (bufFlits (frameBuf f) < bufCount (s.port p).rxUsed (frameBuf f) + frameFlits f)
    || ((s.reg FAB_ID).getLsbD 31 && decide (s.diameter < f.hops))
    || (if f.ty = 11 then (if oneHop code then f.dst != 0 else routedCode code && !s.fabConfigured f.dst)
        else !s.fabConfigured f.dst)

/-- The answer to a message that is refused: its status, no data (R358, R369). -/
def State.refuseMsg (s : State) (f : Frame) (m : Msg) (st : Nat) : State :=
  if f.ty = 1 ∨ f.ty = 2 ∨ f.ty = 10 then s.reply f 7 (1 + st * 2 ^ 16) 0 0 []
  else if f.ty = 3 then s.reply f 4 st 0 (m.aux % 1024) []
  else if f.ty = 5 then s.reply f 6 st 0 (m.aux % 1024) (atomResponse st 0)
  else if f.ty = 8 then s.reply f 9 st 0 (m.aux % 1024) []
  else s

/-- A frame that breaks protocol is dropped, answered and counted. -/
def State.breakProtocol (s : State) (p : Nat) (f : Frame) : State :=
  let s := if s.fabConfigured f.src && f.ty != 10 then f.msgs.foldl (fun s m => s.refuseMsg f m stBadField) s else s
  let s := (s.bump (PORT_VIOL p) 1).modPort p (fun x => { x with viols := x.viols ++ [s.now] })
  let fits := decide (bufCount (s.port p).rxUsed (frameBuf f) + frameFlits f ≤ bufFlits (frameBuf f))
  (s.violation 5 (logSource 8 p)).sideband p false (frameBuf f) (if fits then frameFlits f else 0)

/-- A port takes frames: it is trained and has signal. -/
def State.listening (s : State) (p : Nat) : Bool :=
  decide (p < 32) && (s.port p).trained && s.portSt p != pDisabled && s.portSt p != pDown && s.portSt p != pDegraded

/-- A frame that is in order and keeps protocol enters its buffer: a message of this device or of one hop leaves it at once,
a frame in transit waits in the switch. The content of a management message arrives as the command of its code. -/
def State.accept (s : State) (p : Nat) (f : Frame) : State :=
  let b := frameBuf f
  let n := frameFlits f
  let s := s.modPort p (fun x => { x with rxUsed := Tab.set (fun _ => 0) x.rxUsed b (bufCount x.rxUsed b + n) })
  let s := s.setPair (PORT_RXB_LO p) (PORT_RXB_HI p) ((s.pair (PORT_RXB_LO p) (PORT_RXB_HI p) + frameBytes f) % 2 ^ 64)
  if f.ty = 11 ∧ (¬ routedCode (mgmtCode f) ∨ mgmtCode f = 7 ∨ f.dst = s.devId) then s.release p b n
  else if f.dst = s.devId then (s.release p b n).arrive (some p) f
  else (({ s with egress := s.egress ++ [⟨f, some p, none, false, s.now⟩] } : State)).sideband p false 0 0

/-- FRAME_RECEIVE: a bad CRC or a SEQ out of order is answered with NAK, and everything is then discarded until the expected
frame; IDLE is only checked; a frame that the state of the port does not carry is dropped. -/
def execFrameReceive (p : Nat) (f : Frame) (crcOk : Bool) (s : State) : Out :=
  s.inFabric <|
  let x := s.port p
  if !s.listening p then .next s
  else if x.discard ∧ f.seq ≠ x.rxSeq then .next s
  else if !crcOk then
    .next (((s.bump (PORT_CRC p) 1).modPort p (fun x => { x with discard := true })).sideband p true 0 0)
  else if f.ty = 0 then .next s
  else if f.seq ≠ x.rxSeq then .next ((s.modPort p (fun x => { x with discard := true })).sideband p true 0 0)
  else
    let s := s.modPort p (fun x => { x with rxSeq := (x.rxSeq + 1) % 1024, discard := false })
    if !s.carries p f then .next (s.sideband p false (frameBuf f) (frameFlits f))
    else if s.frameBad p f then .next (s.breakProtocol p f)
    else .next (s.accept p f)

end Sys2Proof.Machine
end

