-- ==== Sys2Proof/Machine/Witness.lean ====
section
/-!
DEFINITION. Witness reports: suspects, reports held and merged, the collector (R372 to R374).
-/

namespace Sys2Proof.Machine

/-- Evidence bits (R372). -/
abbrev evHello : Nat := 1
abbrev evLink : Nat := 2
abbrev evTimeout : Nat := 4
abbrev evIdentity : Nat := 8
abbrev evDegraded : Nat := 16

/-- One report into another on the same suspect (R373). -/
def mergeRep (a b : WitnessRec) : WitnessRec :=
  { a with evidence := a.evidence ||| b.evidence, count := min (a.count + b.count) 0xFFFF }

/-- The same suspect. -/
def sameSuspect (a b : WitnessRec) : Bool := a.kind == b.kind && a.port == b.port && a.id == b.id

/-- Merged into the held report on the same suspect, if one is held. -/
def mergeInto (r : WitnessRec) (hs : List WitHold) : Option (List WitHold) :=
  if hs.any (fun h => sameSuspect h.rep r) then
    some (hs.map (fun h => if sameSuspect h.rep r then { h with rep := mergeRep h.rep r } else h))
  else none

/-- The 64 bytes of a report. -/
def witBytes (r : WitnessRec) : List Byte :=
  leBytes 1 r.kind ++ leBytes 1 r.port ++ leBytes 2 r.id ++ leBytes 1 r.evidence ++ leBytes 1 0 ++ leBytes 2 r.count
    ++ leBytes 2 r.first ++ List.replicate 54 0

/-- FAB_ROOT names a collector. -/
def State.hasCollector (s : State) : Bool := (s.reg FAB_ROOT).getLsbD 15
def State.collector (s : State) : Nat := s.fld FAB_ROOT 13 0
def State.isCollector (s : State) : Bool := s.hasCollector && s.collector == s.devId

/-- A report written to this device's error log (R374, R416). -/
def State.logWitness (s : State) (r : WitnessRec) : State :=
  s.logEvent 0x10 0 (logSource 3 0)
    (BitVec.ofNat 64 (r.id % 2 ^ 14 + r.port % 32 * 2 ^ 14 + r.evidence % 32 * 2 ^ 19 + r.count % 2 ^ 16 * 2 ^ 24))

/-- The collector takes a report: merged into the suspect's record that is open, or a new one. -/
def State.collectRep (s : State) (r : WitnessRec) : State :=
  match mergeInto r s.collect with
  | some cs => { s with collect := cs }
  | none => { s with collect := s.collect ++ [⟨r, s.now⟩] }

/-- A report made here: merged into a held one, taken by the collector that this device is, written here when the suspect is
the collector or there is none (log 32), or sent toward the collector. -/
def State.makeReport (s : State) (kind port id evidence : Nat) : State :=
  let r : WitnessRec := ⟨kind, port, id, evidence, 1, s.devId⟩
  if !s.hasCollector || id == s.collector then s.logWitness r
  else if s.isCollector then (s.bump FAB_WIT_SENT 1).collectRep r
  else match mergeInto r s.holds with
    | some hs => { (s.bump FAB_WIT_SENT 1).bump FAB_WIT_MERGED 1 with holds := hs }
    | none => (s.bump FAB_WIT_SENT 1).sendMgmt none s.collector 0x07 (witBytes r)

/-- The suspects without one. -/
def dropSuspect (kind port id : Nat) (xs : List Suspect) : List Suspect :=
  xs.filter (fun x => !(x.kind == kind && x.port == port && x.id == id))

/-- Evidence against a suspect: reported when it is gained first; within the 1 ms window of a report it is gathered. -/
def State.accuse (s : State) (kind port id bit : Nat) : State :=
  match s.suspects.find? (fun x => x.kind == kind && x.port == port && x.id == id) with
  | none =>
    ({ s with suspects := s.suspects ++ [⟨kind, port, id, bit, 0, some s.now⟩] } : State).makeReport kind port id bit
  | some x =>
    if x.told &&& bit ≠ 0 then s
    else
      let others := dropSuspect kind port id s.suspects
      match x.opened with
      | some _ => { s with suspects := others ++ [{ x with told := x.told ||| bit, gained := x.gained ||| bit }] }
      | none =>
        ({ s with suspects := others ++ [{ x with told := x.told ||| bit, opened := some s.now }] } : State).makeReport
          kind port id bit

/-- A suspect has recovered: its bits may be reported again. -/
def State.recovered (s : State) (kind port id : Nat) : State :=
  { s with suspects := s.suspects.map (fun x =>
      if x.kind == kind && x.port == port && x.id == id then { x with told := 0 } else x) }

/-- A port of this device as a suspect: the peer's port on its link. -/
def State.accusePort (s : State) (p bit : Nat) : State :=
  s.accuse 1 (s.fld (PORT_STAT p) 12 8) (s.fld (PORT_STAT p) 29 16) bit

/-- The port is out of the fabric: LOST or DOWN. -/
def State.portGone (s : State) (p : Nat) : Bool := s.portSt p == pLost || s.portSt p == pDown

/-- Evidence against the peer's port, and against its device too when every port toward it is LOST or DOWN. -/
def State.accuseLink (s : State) (p bit : Nat) : State :=
  let id := s.fld (PORT_STAT p) 29 16
  let toward := (List.range 32).filter (fun q => (s.reg (PORT_STAT q)).getLsbD 13 && s.fld (PORT_STAT q) 29 16 == id)
  let s' := s.accusePort p bit
  if (s.reg (PORT_STAT p)).getLsbD 13 && toward.all (fun q => s.portGone q) then s'.accuse 0 0 id bit else s'

/-- WITNESS: a report reaches this device: the collector takes it; any other device merges it into a held report, or holds
it. -/
def execWitness (p : Nat) (r : WitnessRec) (s : State) : Out :=
  s.inFabric <|
  if 31 < p ∨ s.portSt p ≠ pUp ∨ ¬ s.hasCollector then .next s
  else if s.isCollector then .next (s.collectRep r)
  else match mergeInto r s.holds with
    | some hs => .next { s.bump FAB_WIT_MERGED 1 with holds := hs }
    | none => .next { s with holds := s.holds ++ [⟨r, s.now⟩] }

/-- 1 ms and 1.5 ms windows; the 10 µs of a hold. -/
def witHold : Nat := 10 * usNclk
def witWindow : Nat := msNclk
def witCollect : Nat := 1500 * usNclk

/-- WITNESS_HOLD_EXPIRY: a report has been held for 10 µs (log 1) and goes on toward the collector. -/
def execWitnessHoldExpiry (i : Nat) (s : State) : Out :=
  s.inFabric <|
  match s.holds[i]? with
  | none => .next s
  | some h =>
    .next ((({ s with holds := s.holds.eraseIdx i } : State).reach (h.since + witHold)).sendMgmt none s.collector 0x07
      (witBytes h.rep))

/-- WITNESS_COLLECT_EXPIRY: 1.5 ms after the first report on a suspect (log 1) the collector writes one record. -/
def execWitnessCollectExpiry (i : Nat) (s : State) : Out :=
  s.inFabric <|
  match s.collect[i]? with
  | none => .next s
  | some h =>
    .next (((({ s with collect := s.collect.eraseIdx i } : State).reach (h.since + witCollect)).logWitness h.rep).raiseEvt
      evtWitness)

/-- WITNESS_WINDOW_EXPIRY: the 1 ms window of a suspect ends (log 1): what was gained in it is reported, which opens the next
window. -/
def execWitnessWindowExpiry (i : Nat) (s : State) : Out :=
  s.inFabric <|
  match s.suspects[i]? with
  | none => .next s
  | some x =>
    match x.opened with
    | none => .next s
    | some t =>
      let s := s.reach (t + witWindow)
      let others := dropSuspect x.kind x.port x.id s.suspects
      if x.gained = 0 then
        .next { s with suspects := if x.told = 0 then others else others ++ [{ x with opened := none }] }
      else
        .next (({ s with suspects := others ++ [{ x with gained := 0, opened := some s.now }] } : State).makeReport
          x.kind x.port x.id x.gained)

end Sys2Proof.Machine
end

