-- ==== Sys2Proof/Machine/Messages.lean ====
section
/-!
DEFINITION. Messages of the fabric at their target and at their issuer (R275, R276, R346, R347, R357 to R362).
-/

namespace Sys2Proof.Machine

/-! ## Requests that end (R347, R361) -/

/-- A request leaves the list of those without an answer: its tag is free, and the oldest request of its issuer that waits
for a tag is issued. -/
def State.endReq (s : State) (r : RemoteReq) : State :=
  let s : State := { s with remoteReqs := s.remoteReqs.erase r }
  if r.tag.isNone then s
  else
    let s := s.setFld FAB_TAGS 15 0 (s.fld FAB_TAGS 15 0 - 1)
    match s.remoteReqs.find? (fun x => x.issuer == r.issuer && tagged x.ty && x.tag.isNone) with
    | some w => ({ s with remoteReqs := s.remoteReqs.erase w } : State).remoteIssue w
    | none => s

/-- Key of the first row that a request names. -/
def RemoteReq.row (r : RemoteReq) : Nat := r.dev * 2 ^ 42 + r.msg.row

/-- The unit that waits for a request learns that it has failed. A completion fails only when its peer is unreachable; any other
answer means that the device has issued the write, which is then whole (R271, R458). -/
def State.reqFailed (s : State) (r : RemoteReq) (st : Nat) : State :=
  match r.src with
  | .load c => s.tileFault c st 0
  | .store c id => (s.outstDone c id).tileFault c st 0
  | .atom src => { s with atomResps := s.atomResps ++ [⟨src, st, 0⟩] }
  | .engine e =>
    match (s.ringOf e).head? with
    | some g => s.failTransfer g.cmd st
    | none => s
  | .completion q =>
    if st = stFabricUnreachable ∧ (s.qState q = qActive ∨ s.qState q = qDraining) then s.queueError q 3 else s
  | .cpRead => { s with cpBad := s.cpBad ++ [(r.row, st)] }
  | .cmd id => s.cmdAck id st

/-- The unit that waits for a request learns that it is done: rows read go where it looks for them. -/
def State.reqDone (s : State) (r : RemoteReq) (data : List Byte) : State :=
  let at' := r.dev * 2 ^ 48 + 64 * r.msg.row
  let rows := (List.range (data.length / 64)).map (fun i => r.row + i)
  match r.src with
  | .load c => s.modCore c (fun k => { k with
      remoteIn := Mem.write k.remoteIn at' data, remoteRows := k.remoteRows ++ rows })
  | .store c id => s.outstDone c id
  | .atom _ => s
  | .engine e => { s with dmaIn := Mem.write s.dmaIn at' data, dmaRows := s.dmaRows ++ rows.map (fun x => (e, x)) }
  | .completion _ => s
  | .cpRead => { s with cpIn := Mem.write s.cpIn at' data, cpRows := s.cpRows ++ rows }
  | .cmd id => s.cmdAck id stOk

/-- REMOTE_TIMEOUT: no answer within FAB_RTMO of sending (log 1): the request fails, and this device is a witness. One that still
waits for its tag has not been sent. -/
def execRemoteTimeout (i : Nat) (s : State) : Out :=
  s.keepEdge <| s.keepPower <| s.keepMem <|
  let us := s.fld FAB_RTMO 15 0
  match s.remoteReqs[i]? with
  | none => .next s
  | some r =>
    if us = 0 ∨ (tagged r.ty ∧ r.tag.isNone) then .next s
    else
      let s := (s.reach (r.since + us * usNclk)).bump FAB_UNREACH 1
      .next (((s.endReq r).reqFailed r stFabricUnreachable).accuse 0 0 r.dev evTimeout)

/-! ## Messages at their target (R358 to R360) -/

/-- Message `i` of those that have come, when it has the type. -/
def withMsg (ty i : Nat) (s : State) (f : Arrived → Msg → State) : Out :=
  match s.inbox[i]? with
  | none => .next s
  | some a =>
    match a.frame.msgs with
    | m :: _ => if a.frame.ty = ty then .next (f a m) else .next s
    | [] => .next s

/-- A message has been taken. -/
def State.took (s : State) (a : Arrived) : State := { s with inbox := s.inbox.erase a }

/-- The answer to a write. -/
def State.wackFor (s : State) (f : Frame) (st : Nat) : State := s.reply f 7 (1 + st * 2 ^ 16) 0 0 []

/-- Runs of set bits of a byte mask: offset and length. -/
def maskRuns (mask : List Bool) : List (Nat × Nat) :=
  (List.range mask.length).filterMap (fun i =>
    if mask.getD i false && (i == 0 || !mask.getD (i - 1) false) then some (i, ((mask.drop i).takeWhile id).length) else none)

/-- Bytes written under a mask to a tier or to ledge memory. -/
def State.maskWrite (s : State) (a : Nat) (data : List Byte) (mask : List Bool) : Nat × State :=
  (maskRuns mask).foldl (fun acc r =>
    let x := acc.2.memWrite (a + r.1) ((data.drop r.1).take r.2)
    (if acc.1 = stOk then x.1 else acc.1, x.2)) (stOk, s)

/-- An access of a message to AM, PM or WM, at the owner's mesh port: it stays until the port has answered. -/
def State.serveMesh (s : State) (a : Arrived) (acc : RemoteAcc) : State :=
  let mine (x : MeshAns) : Bool := x.issuer == acc.issuer && x.device == acc.device && x.reqTag == acc.reqTag
  let t := if s.meshOut.any mine then s else s.remoteSpm acc
  match t.meshOut.find? mine with
  | none => t
  | some x =>
    let t := ({ t with meshOut := t.meshOut.erase x } : State).took a
    if acc.write then t.wackFor a.frame x.status
    else t.reply a.frame 4 x.status (acc.len / 64 - 1) (acc.reqTag % 1024) (if x.status = stOk then x.data else [])

/-- A write at its target: 64-byte rows, or one row under a mask; it stays while an atomic operation on the bytes comes first
(R207, R332). -/
def State.serveWrite (s : State) (a : Arrived) (m : Msg) (data : List Byte) (mask : List Bool) : State :=
  let f := a.frame
  let addr := 64 * m.row
  let arrive := m.aux.testBit 10
  let produce := m.aux.testBit 9
  let bad := (s.took a).wackFor f stBadField
  if s.dev = devFaulted then (s.took a).wackFor f stStateRefused
  else if data.isEmpty || !s.inRegion addr data.length then bad
  else match s.addrKind addr with
    | .tier1 | .tier2 | .ledge _ _ =>
      if arrive || produce then bad
      else if s.atomFirst addr data.length then s
      else
        let r := if mask.isEmpty then (s.took a).memWrite addr data else (s.took a).maskWrite addr data mask
        r.2.wackFor f r.1
    | .spm _ _ _ =>
      s.serveMesh a ⟨f.issuer, f.src, 1024 + a.no, addr, true, data.length, data, mask,
        if arrive then some (m.aux % 64) else none, if produce then .produce else .none⟩
    | .wm _ _ => bad
    | _ => bad

/-- WRITE: whole rows delivered to the unit of the address; WACK once they are visible. -/
def execWriteMsg (i : Nat) (s : State) : Out :=
  s.keepEdge <| s.keepFabric <| s.keepPower <|
  withMsg 1 i s (fun a m =>
    s.serveWrite a m (if m.payload.length = 64 * (m.len + 1) then m.payload else []) [])

/-- WRITE_P: one row under its byte mask. -/
def execWriteP (i : Nat) (s : State) : Out :=
  s.keepEdge <| s.keepFabric <| s.keepPower <|
  withMsg 2 i s (fun a m =>
    s.serveWrite a m (if m.payload.length = 72 ∧ m.len = 0 then m.payload.take 64 else [])
      ((List.range 64).map (fun b => (leNat (m.payload.drop 64)).testBit b)))

/-- READ: rows read, answered by one READ_RESP. -/
def execReadMsg (i : Nat) (s : State) : Out :=
  s.inCores <|
  withMsg 3 i s (fun a m =>
    let f := a.frame
    let addr := 64 * m.row
    let n := 64 * (m.len + 1)
    let consume := m.aux.testBit 10
    let tag := m.aux % 1024
    let fail (st : Nat) : State := (s.took a).reply f 4 st m.len tag []
    if s.dev = devFaulted then fail stStateRefused
    else if !s.inRegion addr n then fail stBadField
    else match s.addrKind addr with
      | .tier1 | .tier2 | .ledge _ _ =>
        if consume then fail stBadField
        else if s.atomFirst addr n then s
        else
          let r := (s.took a).memRead addr n
          r.2.2.reply f 4 r.1 m.len tag r.2.1
      | .spm _ _ _ => s.serveMesh a ⟨f.issuer, f.src, tag, addr, false, n, [], [], none, if consume then .consume else .none⟩
      | .wm _ _ =>
        if consume then fail stBadField
        else s.serveMesh a ⟨f.issuer, f.src, tag, addr, false, n, [], [], none, .none⟩
      | _ => fail stBadField)

/-- ATOMIC: the request joins those of the unit of its address, which answers it. -/
def execAtomic (i : Nat) (s : State) : Out :=
  s.inRegs <|
  withMsg 5 i s (fun a m =>
    let w := entryNat m.payload 0 8
    let t := s.took a
    let refuse (st : Nat) : State := t.refuseMsg a.frame m st
    if s.dev = devFaulted then refuse stStateRefused
    else match atomOp (bitsOf w 51 48) with
      | none => refuse stBadField
      | some op =>
        let addr := bitsOf w 47 0
        let tw := w.testBit 53
        if m.payload.length ≠ 24 ∨ w / 2 ^ 54 ≠ 0 ∨ ¬ s.atomTargetOk addr op tw then refuse stBadField
        else t.sendAtom ⟨addr, op, w.testBit 52, tw, entryNat m.payload 8 8, entryNat m.payload 16 8,
          .fabric (a.port.getD 0) a.frame, s.now⟩)

/-! ## Answers at their issuer (R347, R360, R361) -/

/-- A late or unknown answer is dropped and counted. -/
def State.lateAnswer (s : State) (a : Arrived) : State :=
  (s.bump FAB_LATE 1).violation 12 (logSource 8 (a.port.getD 0))

/-- The request that a tagged answer ends. -/
def State.askedBy (s : State) (a : Arrived) (ty tag : Nat) : Option RemoteReq :=
  s.remoteReqs.find? (fun r => r.issuer == a.frame.issuer && r.dev == a.frame.src && r.ty == ty && r.tag == some tag)

/-- A tagged answer: the request ends, and its sender is no longer suspect for it. -/
def State.answered (s : State) (a : Arrived) (ty tag : Nat) (f : RemoteReq → State → State) : State :=
  let t := s.took a
  match t.askedBy a ty tag with
  | none => t.lateAnswer a
  | some r => f r ((t.endReq r).recovered 0 0 r.dev)

/-- READ_RESP: rows, or a failing status, for the unit that asked. -/
def execReadResp (i : Nat) (s : State) : Out :=
  s.keepEdge <| s.keepPower <| s.keepMem <|
  withMsg 4 i s (fun a m =>
    s.answered a 3 (m.aux % 1024) (fun r s =>
      if m.row % 256 = stOk then s.reqDone r m.payload else s.reqFailed r (m.row % 256)))

/-- ATOMIC_RESP: status and old value for the unit that asked. -/
def execAtomicResp (i : Nat) (s : State) : Out :=
  s.inFabric <|
  withMsg 6 i s (fun a m =>
    s.answered a 5 (m.aux % 1024) (fun r s =>
      match r.src with
      | .atom src => { s with atomResps := s.atomResps ++ [⟨src, m.row % 256, entryNat m.payload 8 8⟩] }
      | _ => s))

/-- The oldest `n` writes of an issuer to a device. -/
def State.oldWrites (s : State) (issuer dev n : Nat) : List RemoteReq :=
  (s.remoteReqs.filter (fun r => r.issuer == issuer && r.dev == dev && !tagged r.ty)).take n

/-- WACK: one or more writes acknowledged, the oldest first. -/
def execWack (i : Nat) (s : State) : Out :=
  s.keepEdge <| s.keepPower <| s.keepMem <|
  withMsg 7 i s (fun a m =>
    let st := m.row / 2 ^ 16 % 256
    let t := s.took a
    let rs := t.oldWrites a.frame.issuer a.frame.src (m.row % 2 ^ 16)
    if rs.isEmpty then t.lateAnswer a
    else rs.foldl (fun s r =>
      let s := s.endReq r
      if st = stOk then s.reqDone r [] else s.reqFailed r st) (t.recovered 0 0 a.frame.src))

/-! ## Remote queues (R275, R276, R362) -/

/-- Why a submission is refused; 0 when it is accepted. -/
def State.qsubmitReason (s : State) (q src : Nat) : Nat :=
  if s.qState q ≠ qActive then 1
  else if !s.qRemote q then 2
  else if s.fld (CMDQ_Q_PEER q) 13 0 ≠ src then 3
  else if (s.sqTail q + 1) % s.sqSize q = s.sqHead q then 4
  else 0

/-- QSUBMIT: the entry is written at the queue's tail, or refused with a reason. -/
def execQsubmit (i : Nat) (s : State) : Out :=
  s.keepEdge <| s.keepFabric <| s.keepPower <| s.keepCores <|
  withMsg 8 i s (fun a m =>
    let q := m.row % 64
    let t := s.took a
    let say (t : State) (r : Nat) : State := t.reply a.frame 9 r 0 (m.aux % 1024) []
    if s.dev = devFaulted then say t stStateRefused
    else if m.payload.length ≠ 64 then say t stBadField
    else
      let r := s.qsubmitReason q a.frame.src
      if r = 0 ∧ s.atomFirst (s.sqBase q % 2 ^ 48 + 64 * s.sqTail q) 64 then s
      else if r = 0 then
        let t := (t.memWrite (s.sqBase q % 2 ^ 48 + 64 * s.sqTail q) m.payload).2
        say (t.setReg (CMDQ_SQDB q) (BitVec.ofNat 32 ((s.sqTail q + 1) % s.sqSize q))) 0
      else say (if r = 4 then t else t.violation 5 (logSource 9 q)) r)

/-- QACK: the answer to a submission of this device; it submits none of its own accord (R357), so one that no request
waits for is unknown. -/
def execQack (i : Nat) (s : State) : Out :=
  s.keepEdge <| s.keepPower <| s.keepMem <|
  withMsg 9 i s (fun a m =>
    s.answered a 8 (m.aux % 1024) (fun r s => if m.row % 256 = 0 then s.reqDone r [] else s.reqFailed r (m.row % 256)))

/-- CQDB: a remote queue's head moves as by a doorbell write of its peer. -/
def execCqdb (i : Nat) (s : State) : Out :=
  s.inRegs <|
  withMsg 10 i s (fun a m =>
    let q := m.row % 64
    let h := m.row / 64 % 4096
    let t := s.took a
    if s.dev = devFaulted then t.wackFor a.frame stStateRefused
    else if s.qState q = qActive ∧ s.qRemote q ∧ s.fld (CMDQ_Q_PEER q) 13 0 = a.frame.src ∧ s.cqAccepts q h then
      (t.setReg (CMDQ_CQDB q) (BitVec.ofNat 32 h)).wackFor a.frame stOk
    else (t.doorbellIgnored q (CMDQ_CQDB q)).wackFor a.frame stBadField)

end Sys2Proof.Machine
end

