-- ==== Sys2Proof/Machine/Ports.lean ====
section
/-!
DEFINITION. Fabric ports: training, lanes, signal, hellos, retrains, broken links, PORT_RESET (R339, R354, R356, R363, R368,
R370, R371, R430).
-/

namespace Sys2Proof.Machine

/-! ## Broken links (R356) -/

/-- FAB_BROKEN shows the first broken link of each ring. -/
def State.showBroken (s : State) : State :=
  (List.range 4).foldl (fun s d =>
    s.setFld FAB_BROKEN (8 * d + 7) (8 * d) (match s.broken.find? (fun b => b.1 == d) with
      | some b => 128 + b.2
      | none => 0)) s

/-- A report of a link goes both ways around its ring, or one way. -/
def State.floodRing (s : State) (code d coord : Nat) (ways : List Bool) : State :=
  ways.foldl (fun s plus =>
    match s.upPorts d plus with
    | p :: _ => s.sendMgmt (some p) 0 code (leBytes 1 d ++ leBytes 1 coord)
    | [] => s) s

/-- The link of a direction, by the coordinate whose + link it is. -/
def State.linkOf (s : State) (d : Nat) (plus : Bool) : Nat :=
  let c := coordAt s.devId d
  if plus then c else (c + s.fabSize d - 1) % s.fabSize d

/-- A link is broken, or back: recorded, and told on. -/
def State.linkBroken (s : State) (d coord : Nat) (ways : List Bool) : State :=
  if s.broken.contains (d, coord) then s
  else (({ s with broken := s.broken ++ [(d, coord)] } : State).showBroken).floodRing 0x08 d coord ways
def State.linkBack (s : State) (d coord : Nat) (ways : List Bool) : State :=
  if s.broken.contains (d, coord) then
    (({ s with broken := s.broken.erase (d, coord) } : State).showBroken).floodRing 0x09 d coord ways
  else s

/-- After a port has changed: every port of its direction out of service breaks the link; one UP again mends it. -/
def State.checkLink (s : State) (p : Nat) : State :=
  let d := portDim p
  let plus := portPlus p
  if !(s.reg FAB_ID).getLsbD 31 || s.phaseOf != 0 || decide (s.fabSize d < 2) then s
  else if (s.upPorts d plus).isEmpty then s.linkBroken d (s.linkOf d plus) [true, false]
  else s.linkBack d (s.linkOf d plus) [true, false]

/-- LINK_DOWN: the flood of a broken link passes once around the ring. -/
def execLinkDown (p dim coord : Nat) (s : State) : Out :=
  s.inFabric <|
  if 31 < p ∨ 3 < dim ∨ 15 < coord ∨ portDim p ≠ dim ∨ s.portSt p ≠ pUp then .next s
  else .next (s.linkBroken dim coord [!portPlus p])

/-- LINK_UP. -/
def execLinkUp (p dim coord : Nat) (s : State) : Out :=
  s.inFabric <|
  if 31 < p ∨ 3 < dim ∨ 15 < coord ∨ portDim p ≠ dim ∨ s.portSt p ≠ pUp then .next s
  else .next (s.linkBack dim coord [!portPlus p])

/-! ## States of a port -/

/-- A PORT_RESET ends when its port leaves TRAINING. -/
def State.endPortReset (s : State) (p : Nat) : State :=
  (s.cmds.filter (fun x => x.op == 0x54 && x.words.headD 0 % 32 == p && !x.ended && !x.closing)).foldl
    (fun s x => s.conclude x.id stOk 0 (s.portSt p)) s

/-- A port takes a state; DEGRADED, QUARANTINE and MISWIRED are recorded. -/
def State.portTo (s : State) (p st : Nat) : State :=
  let old := s.portSt p
  if old = st then s
  else
    let s := s.setFld (PORT_STAT p) 3 0 st
    let s := if st = pDegraded ∨ st = pQuarantine ∨ st = pMiswired then
        s.logEvent 0x0F 0 (logSource 8 p) (BitVec.ofNat 64 st) else s
    let s := if old = pUp ∨ st = pUp then s.checkLink p else s
    if old = pTraining then s.endPortReset p else s

/-- A port becomes DEGRADED: its retry buffer is lost. -/
def State.degrade (s : State) (p : Nat) : State :=
  ((s.modPort p (fun x => { x with degraded := true, trained := false, retry := [] })).portTo p pDegraded).accusePort p
    evDegraded

/-- The retry buffer is sent again from its first frame (R348, R370); one that is uncorrectable is discarded, and the port becomes
DEGRADED (R402). -/
def State.resend (s : State) (p : Nat) : State :=
  if s.badWords.contains (.retry p) && !(s.port p).retry.isEmpty then
    ({ s with badWords := s.badWords.filter (· != .retry p) } : State).degrade p
  else (s.port p).retry.foldl (fun s f => s.wire p (.frame f)) s

/-- NAK_RECEIVE: the codeword is filled with IDLE, and the frames after ACK go out again. -/
def execNakReceive (p ack : Nat) (s : State) : Out :=
  s.inFabric <|
  if 31 < p ∨ ¬ (s.port p).trained then .next s
  else
    let s := (s.bump (PORT_RETRY p) 1).modPort p (fun x => { x with retry := dropAcked ack x.retry, naks := x.naks ++ [s.now] })
    .next ((s.wire p .idle).resend p)

/-- Retrains of a port in the last 1 s, this one among them. -/
def State.noteRetrain (s : State) (p : Nat) : State :=
  (s.bumpFld (PORT_RETRAIN p) 15 8 1).modPort p (fun x => { x with
    retrains := x.retrains.filter (fun t => decide (s.now < t + 1000 * msNclk)) ++ [s.now] })

/-- A port retrains; the third time within 1 s it becomes DEGRADED. -/
def State.retrain (s : State) (p : Nat) : State :=
  let s := s.noteRetrain p
  if 3 ≤ s.recentRetrains p then s.degrade p
  else (s.modPort p (fun x => { x with trained := false, naks := [], viols := [] })).portTo p pTraining

/-- The port is trained and has signal. -/
def State.linked (s : State) (p : Nat) : Bool := s.listening p

/-- PORT_TRAINED: training ends: no bad lane, the spare in place of one, the spare bad, or the port DEGRADED for a second.
What its retry buffer holds is sent again. -/
def execPortTrained (p : Nat) (badLanes : List Nat) (s : State) : Out :=
  s.inFabric <|
  let bad := (List.range 5).filter badLanes.contains
  if 31 < p ∨ s.portSt p ≠ pTraining ∨ (s.port p).trained then .next s
  else
    let s := s.setFld (PORT_STAT p) 6 4 (if bad.contains 4 then 7 else match bad with
      | l :: _ => l + 1
      | [] => 0)
    if 2 ≤ bad.length then .next (s.degrade p)
    else .next ((s.modPort p (fun x => { x with trained := true, discard := false, heard := s.now })).resend p)

/-- LANE_SPARE: an active lane has exceeded the symbol error ratio: the port retrains with the spare in its place, or is
DEGRADED when the spare is in use or has failed. -/
def execLaneSpare (p lane : Nat) (s : State) : Out :=
  s.inFabric <|
  let sp := s.fld (PORT_STAT p) 6 4
  let active := if lane < 4 then sp != lane + 1 else lane == 4 && decide (1 ≤ sp ∧ sp ≤ 4)
  if !s.linked p || !active then .next s
  else if sp = 0 then .next (s.retrain p)
  else .next (s.degrade p)

/-- PORT_SIGNAL_LOSS: the port is DOWN; one that was UP makes this device a witness. -/
def execPortSignalLoss (p : Nat) (s : State) : Out :=
  s.inFabric <|
  if 31 < p ∨ [pDisabled, pDown, pDegraded].contains (s.portSt p) then .next s
  else
    let up := s.portSt p == pUp
    let s := (s.modPort p (fun x => { x with trained := false })).portTo p pDown
    .next (if up then s.accuseLink p evLink else s)

/-- PORT_SIGNAL_RETURN: the peer is back: the port trains. -/
def execPortSignalReturn (p : Nat) (s : State) : Out :=
  s.inFabric <|
  if p < 32 ∧ (s.portSt p = pDown ∨ s.portSt p = pLost) then
    .next ((s.modPort p (fun x => { x with trained := false })).portTo p pTraining)
  else .next s

/-- PORT_RETRAIN: the NAKs or the violations of the last 1 ms have reached their limit; 0 sets none. -/
def execPortRetrain (p : Nat) (s : State) : Out :=
  s.inFabric <|
  let x := s.port p
  let recent (ts : List Nat) : Nat := (ts.filter (fun t => decide (s.now ≤ t + msNclk))).length
  let nl := s.fld (PORT_LIMITS p) 15 0
  let vl := s.fld (PORT_LIMITS p) 31 16
  if s.linked p && ((nl != 0 && decide (nl ≤ recent x.naks)) || (vl != 0 && decide (vl ≤ recent x.viols))) then
    .next (s.retrain p)
  else .next s

/-- A write of PORT_CTRL. -/
def State.writePortCtrl (s : State) (a : Agent) (p : Nat) (v : W32) : State :=
  s.regWrite a (PORT_CTRL p) v (fun v s =>
    let s := s.setReg (PORT_CTRL p) v
    if !v.getLsbD 0 then (s.modPort p (fun x => { x with trained := false })).portTo p pDisabled
    else if s.portSt p = pDisabled then s.portTo p (if (s.port p).degraded then pDegraded else pTraining)
    else s)

/-- PORT_CTRL_WRITE. -/
def execPortCtrlWrite (a : Agent) (p : Nat) (v : W32) (s : State) : Out :=
  s.inFabric <|
  if p < 32 then .next (s.writePortCtrl a p v) else .next s

/-- PORT_RESET: the port leaves service, loses its retry buffer and its latched states, and trains; the command ends with
the state that the port then reaches. -/
def opPortReset : Body := fun e s =>
  let p := e.word 0 % 32
  let r := s.start e unitNone 0
  let s := (r.2.noteRetrain p).modPort p (fun x => { x with
    trained := false, degraded := false, failedId := false, badAssign := false, retry := [], txSeq := 0, rxSeq := 0,
    discard := false, txUsed := [], rxUsed := [], naks := [], viols := [], asked := none })
  if (s.reg (PORT_CTRL p)).getLsbD 0 then
    .done (if s.portSt p = pTraining then s else s.portTo p pTraining)
  else .done (s.endPortReset p)

/-- PORT_RESET commands that have waited 100 ms for their port complete with the state that it is in (R430). -/
def State.lateResets (s : State) : State :=
  (s.cmds.filter (fun x => x.op == 0x54 && !x.ended && !x.closing && decide (x.since + 100 * msNclk ≤ s.now))).foldl
    (fun s x => s.conclude x.id stOk 0 (s.portSt (x.words.headD 0 % 32))) s

/-- PORT_RESET. -/
def execPortReset (src : Src) (s : State) : Out :=
  s.keepEdge <| s.keepMem <| s.keepCores <|
  .next (s.stage2 0x54 src noFields opPortReset)

/-- FABRIC_STATUS: the first 64 bytes of each port's registers as they read. -/
def opFabricStatus : Body := fun e s =>
  s.deliver e (e.word 0) ((List.range 32).flatMap (fun p =>
    (List.range 16).flatMap (fun j => leBytes 4 (s.live (PORT_CTRL p + 4 * j)).toNat))) 2048

/-- FABRIC_STATUS. -/
def execFabricStatus (src : Src) (s : State) : Out :=
  s.keepEdge <| s.keepFabric <|
  .next (s.stage2 0x51 src (fields (fun e s => s.addrChecks e 0 false false)) opFabricStatus)

/-! ## Hellos (R363) -/

/-- The serial number of this device. -/
def State.serialNo (s : State) : Nat := s.pair GLB_SERIAL_LO GLB_SERIAL_HI

/-- The 64 bytes of this device's hello on a port. -/
def State.helloBytes (s : State) (p : Nat) : List Byte :=
  let inWave := s.phaseOf != 0
  leBytes 8 s.serialNo ++ leBytes 2 (s.devId + ((s.reg FAB_ID).getLsbD 31).toNat * 2 ^ 15) ++ leBytes 1 p
    ++ leBytes 1 ((inWave && s.wave.candHost).toNat + inWave.toNat * 2 + ((s.reg FAB_ROUTE).getLsbD 0).toNat * 4)
    ++ leBytes 2 (s.fld FAB_DISC 31 20) ++ leBytes 2 0 ++ leBytes 8 (if inWave then s.wave.cand else s.serialNo)
    ++ leBytes 8 0 ++ s.idHash

/-- HELLO_SEND: 100 µs after the last (log 1), every trained port sends a hello. -/
def execHelloSend (p : Nat) (s : State) : Out :=
  s.inFabric <|
  if !s.linked p then .next s
  else
    let s := (s.reach ((s.port p).said + 100 * usNclk))
    .next ((s.modPort p (fun x => { x with said := s.now })).sendMgmt (some p) 0 0x01 (s.helloBytes p))

/-- The directions are opposite and the bundles equal. -/
def wiredRight (p : Nat) (h : HelloRec) : Bool := decide (h.port < 32) && h.port / 4 == (p / 4) ^^^ 1 && h.port % 4 == p % 4

/-- The hash recorded for a port's peer. -/
def State.peerHash (s : State) (p : Nat) : List Byte := (List.range 8).flatMap (fun j => leBytes 4 (s.reg (PORT_PEER_HASH p j)).toNat)

/-- A port enters QUARANTINE: an error-log record and a witness report (R371, R372). -/
def State.quarantine (s : State) (p : Nat) : State :=
  if s.portSt p = pQuarantine then s else (s.portTo p pQuarantine).accusePort p evIdentity

/-- An identity exchange begins on a port (R439): IDCHECK, and a challenge with a nonce that nothing determines (log 7). -/
def State.challenge (s : State) (p : Nat) : State :=
  let nonce := leBytes 32 (Config.freeBits 256 s.free).toNat
  let s : State := { s with free := s.free + 1 }
  let s := (s.portTo p pIdCheck).modPort p (fun x => { x with nonce := nonce, asked := some s.now, passed := false })
  s.sendMgmt (some p) 0 0x0A (nonce ++ leBytes 8 s.serialNo)

/-- A better root candidate (R364). -/
def Wave.beats (w : Wave) (h : HelloRec) : Bool :=
  (h.candHost && !w.candHost) || (h.candHost == w.candHost && decide (h.cand.toNat < w.cand))

/-- What a good hello does to a port. -/
def State.goodHello (s : State) (p : Nat) (h : HelloRec) : State :=
  let x := s.port p
  let st := s.portSt p
  let s := (s.recovered 1 (s.fld (PORT_STAT p) 12 8) (s.fld (PORT_STAT p) 29 16)).recovered 0 0 (s.fld (PORT_STAT p) 29 16)
  if x.badAssign then s.portTo p pMiswired
  else if st = pIdCheck then s
  else if st = pQuarantine ∨ x.failedId ∨ (x.recorded ∧ h.certHash ≠ s.peerHash p) then s.quarantine p
  else
    let s := s.portTo p pUp
    if s.phaseOf ≠ 0 ∧ s.wave.requireId ∧ ¬ x.passed then s.challenge p else s

/-- HELLO: a hello on a trained port: its peer, the port's state, and in an election the root candidate. -/
def execHello (p : Nat) (h : HelloRec) (s : State) : Out :=
  s.inFabric <|
  if !s.linked p then .next s
  else
    let s := s.modPort p (fun x => { x with hello := some h, heard := s.now })
    let s := s.setFld (PORT_STAT p) 12 8 h.port
    let s := if h.valid then (s.setFld (PORT_STAT p) 29 16 h.devid).setFld (PORT_STAT p) 13 13 1 else s
    if !wiredRight p h then .next (s.portTo p pMiswired)
    else
      let s := s.goodHello p h
      if s.phaseOf = 1 ∧ h.inWave ∧ h.epoch = s.fld FAB_DISC 31 20 ∧ s.wave.beats h then
        .next { s with wave := { s.wave with candHost := h.candHost, cand := h.cand.toNat, since := s.now } }
      else .next s

/-- HELLO_TIMEOUT: no hello for 1 ms (log 1): the port is LOST, and this device a witness. -/
def execHelloTimeout (p : Nat) (s : State) : Out :=
  s.inFabric <|
  if !s.linked p || s.portSt p == pLost then .next s
  else .next (((s.reach ((s.port p).heard + msNclk)).portTo p pLost).accuseLink p evHello)

end Sys2Proof.Machine
end

