-- ==== Sys2Proof/Machine/Discovery.lean ====
section
/-!
DEFINITION. Discovery of the torus and the identity exchange (R364 to R368, R439, R440).
-/

namespace Sys2Proof.Machine

/-! ## Waves -/

/-- The coordinate of a dimension, and a position with it changed. -/
def coordOf (c : Coord) : Nat → Nat
  | 0 => c.x
  | 1 => c.y
  | 2 => c.z
  | _ => c.w
def setCoord (c : Coord) (d v : Nat) : Coord :=
  match d with
  | 0 => { c with x := v }
  | 1 => { c with y := v }
  | 2 => { c with z := v }
  | _ => { c with w := v }

/-- The device ID of a position (R342). -/
def idOf (c : Coord) : Nat := 1024 * c.x + 64 * c.y + 8 * c.z + c.w

/-- The largest size of a dimension (R341). -/
def maxSize (d : Nat) : Nat := if d < 2 then 16 else 8

/-- The fields of a position, one byte each (log 34). -/
def coordBytes (c : Coord) : List Byte := leBytes 1 c.x ++ leBytes 1 c.y ++ leBytes 1 c.z ++ leBytes 1 c.w

/-- This device's own FABRIC_DISCOVER commands. -/
def State.discoverCmds (s : State) : List Cmd := s.cmds.filter (fun x => x.op == 0x50 && !x.ended && !x.closing)

/-- The wave changed. -/
def State.modWave (s : State) (f : Wave → Wave) : State := { s with wave := f s.wave }

/-- The device joins a wave: a candidate of its own, START on every other UP port, the identity exchange where it is asked
for. -/
def State.joinWave (s : State) (epoch : Nat) (initiator : Nat) (root requireId : Bool) (from' : Option Nat) : State :=
  let mine := s.discoverCmds.any (fun x => (x.words.headD 0).testBit 0)
  let s := ((s.setFld FAB_DISC 31 20 epoch).setFld FAB_DISC 17 16 1).setFld FAB_DISC 14 0 0
  let s : State := { s with wave := { Wave.reset with candHost := mine, cand := s.serialNo, since := s.now, requireId := requireId } }
  let s := (List.range 32).foldl (fun s p => s.modPort p (fun x => { x with
    assign := none, badAssign := false, passed := false, answered := false, asked := none })) s
  let ups := (List.range 32).filter (fun p => s.portSt p == pUp)
  let s := (ups.filter (fun p => some p != from')).foldl (fun s p =>
    s.sendMgmt (some p) 0 0x02 (leBytes 2 epoch ++ leBytes 8 initiator ++ leBytes 1 (root.toNat + requireId.toNat * 2))) s
  if requireId then
    ((List.range 32).filter (fun p => s.portSt p == pUp || s.portSt p == pQuarantine)).foldl (fun s p => s.challenge p) s
  else s

/-- FABRIC_DISCOVER: the next epoch begins here. -/
def opFabricDiscover : Body := fun e s =>
  let r := s.start e unitDevices (e.word 1 % 2 ^ 14)
  .done (r.2.joinWave ((s.fld FAB_DISC 31 20 + 1) % 4096) s.serialNo ((e.word 0).testBit 0) ((e.word 0).testBit 1) none)

/-- FABRIC_DISCOVER. -/
def execFabricDiscover (src : Src) (s : State) : Out :=
  s.keepEdge <| s.keepMem <| s.keepCores <|
  .next (s.stage2 0x50 src noFields opFabricDiscover)

/-- The device takes part in waves (R364). -/
def State.takesPart (s : State) : Bool := s.dev == devReady || s.dev == devLoaded || s.dev == devMaint

/-- The port carries discovery. -/
def State.discovers (s : State) (p : Nat) : Bool := decide (p < 32) && (s.portSt p == pUp || s.portSt p == pIdCheck)

/-- START: a higher epoch is joined and told on; others are ignored. -/
def execStartWave (p epoch : Nat) (serial : W64) (root requireId : Bool) (s : State) : Out :=
  s.inFabric <|
  if s.discovers p && s.takesPart && decide (epoch < 4096) && decide (s.fld FAB_DISC 31 20 < epoch) then
    .next (s.joinWave epoch serial.toNat root requireId (some p))
  else .next s

/-- ASSIGN on every UP port of a + direction: the position of the neighbour there. -/
def State.assignOut (s : State) (c : Coord) : State :=
  (List.range 4).foldl (fun s d => (s.upPorts d true).foldl (fun s p =>
    s.sendMgmt (some p) 0 0x03 (leBytes 2 (s.fld FAB_DISC 31 20) ++ coordBytes (setCoord c d (coordOf c d + 1))
      ++ leBytes 1 s.wave.requireId.toNat)) s) s

/-! ## Configuration (R366, R368) -/

/-- The peer of a port recorded: its serial and hash. -/
def State.recordPeer (s : State) (p : Nat) : State :=
  match (s.port p).hello with
  | none => s
  | some h =>
    let s := s.setPair (PORT_PEER_SER_LO p) (PORT_PEER_SER_HI p) h.serial.toNat
    let s := (List.range 8).foldl (fun s j =>
      s.setReg (PORT_PEER_HASH p j) (BitVec.ofNat 32 (entryNat h.certHash (4 * j) 4))) s
    s.modPort p (fun x => { x with recorded := true })

/-- CONFIG at this device: identity, shape, mode and root; peers recorded; a port in QUARANTINE for its hash alone is UP
again where the wave asks for no exchange. -/
def State.configure (s : State) (devid : Nat) (shape : Coord) (mode : Bool) (collector : Nat) (root : Bool) : State :=
  let s := (s.setFld FAB_ID 31 31 1).setFld FAB_ID 13 0 devid
  let s := s.setReg FAB_SHAPE (BitVec.ofNat 32 (shape.x % 32 + shape.y % 32 * 2 ^ 16 + shape.z % 16 * 2 ^ 24 + shape.w % 16 * 2 ^ 28))
  let s := s.setFld FAB_ROUTE 0 0 mode.toNat
  let s := s.setReg FAB_ROOT (BitVec.ofNat 32 (collector % 2 ^ 14 + root.toNat * 2 ^ 14 + 2 ^ 15))
  let s : State := ({ s with broken := [] } : State).showBroken
  (List.range 32).foldl (fun s p =>
    if s.portSt p = pUp then s.recordPeer p
    else if s.portSt p = pQuarantine ∧ ¬ (s.port p).failedId ∧ ¬ s.wave.requireId then (s.recordPeer p).portTo p pUp
    else s) s

/-- Every FABRIC_DISCOVER of this device completes. -/
def State.endDiscover (s : State) (ok : Bool) (found : Nat) : State :=
  s.discoverCmds.foldl (fun s x =>
    (s.modCmd x.id (fun y => { y with done := found })).conclude x.id (if ok then stOk else stFabricUnreachable) 0 found) s

/-- W1 of the root's command; 0 where it has none. -/
def State.expected (s : State) : Nat :=
  match s.discoverCmds with
  | x :: _ => x.words.getD 1 0 % 2 ^ 14
  | [] => 0

/-- The shape that the root has found: recorded sizes; 1 where a dimension has none. -/
def State.shapeFound (s : State) : Coord :=
  let sz (d : Nat) : Nat := match s.wave.sizes.find? (fun e => e.1 == d) with
    | some e => e.2
    | none => 1
  ⟨sz 0, sz 1, sz 2, sz 3⟩

/-- Found equals the shape, and what the command expects. -/
def State.waveOk (s : State) : Bool :=
  let c := s.shapeFound
  let found := s.fld FAB_DISC 14 0
  found == c.x * c.y * c.z * c.w && (s.expected == 0 || s.expected == found)

/-- The root's discovery ends once every found device has acknowledged. -/
def State.finishWave (s : State) : State :=
  (s.endDiscover s.waveOk (s.fld FAB_DISC 14 0)).setFld FAB_DISC 17 16 0

/-- CONFIG to the children in the tree: epoch, shape, mode, collector, found, status, REQUIRE_ID (log 34). -/
def State.configOut (s : State) (shape : Coord) (mode : Bool) (collector found : Nat) (ok requireId : Bool) : State :=
  s.wave.children.foldl (fun s p =>
    s.sendMgmt (some p) 0 0x05 (leBytes 2 (s.fld FAB_DISC 31 20) ++ coordBytes shape ++ leBytes 1 mode.toNat
      ++ leBytes 2 collector ++ leBytes 2 found ++ leBytes 1 ok.toNat ++ leBytes 1 requireId.toNat)) s

/-- The root's wave ends: CONFIG goes down the tree. -/
def State.sendConfig (s : State) : State :=
  let shape := s.shapeFound
  let found := s.fld FAB_DISC 14 0
  let ok := s.waveOk
  let s := (s.configure 0 shape Config.routeMode 0 true).setFld FAB_DISC 17 16 3
  let s := (s.modWave (fun w => { w with acks := 1, configAt := s.now })).configOut shape Config.routeMode 0 found ok
    s.wave.requireId
  if s.wave.acks = found then s.finishWave else s

/-- The count of devices found at the root; reaching the expected number ends the wave. -/
def State.countJoin (s : State) : State :=
  let n := min (s.fld FAB_DISC 14 0 + 1) (2 ^ 15 - 1)
  let s := (s.setFld FAB_DISC 14 0 n).modWave (fun w => { w with lastJoin := s.now })
  let s := s.discoverCmds.foldl (fun s x => s.modCmd x.id (fun y => { y with done := n })) s
  if s.expected ≠ 0 ∧ s.expected = n then s.sendConfig else s

/-- ELECTION_END: the candidate has not changed for 5 ms (log 1); a device that holds itself is the root, takes the origin and
sends ASSIGN. -/
def execElectionEnd (s : State) : Out :=
  s.inFabric <|
  if s.phaseOf ≠ 1 then .next s
  else
    let s := (s.reach (s.wave.since + 5 * msNclk)).setFld FAB_DISC 17 16 2
    if s.wave.cand = s.serialNo then
      let o : Coord := ⟨0, 0, 0, 0⟩
      .next (((s.modWave (fun w => { w with root := true, coords := some o })).assignOut o).countJoin)
    else .next s

/-- The dimensions in which two positions differ. -/
def differs (a b : Coord) : List Nat := (List.range 4).filter (fun d => coordOf a d != coordOf b d)

/-- An ASSIGN makes its port MISWIRED. -/
def State.badWire (s : State) (p : Nat) : State := (s.modPort p (fun x => { x with badAssign := true })).portTo p pMiswired

/-- ASSIGN: on a port of a - direction, in the wave joined, and after the identity exchange where the root asks for it. -/
def execAssign (p epoch : Nat) (xyzw : Coord) (requireId : Bool) (s : State) : Out :=
  s.inFabric <|
  let x := s.port p
  if 31 < p ∨ s.portSt p ≠ pUp ∨ portPlus p ∨ s.phaseOf = 0 ∨ s.phaseOf = 3 ∨ epoch ≠ s.fld FAB_DISC 31 20
      ∨ (requireId ∧ ¬ x.passed) then .next s
  else
    let s := s.modPort p (fun x => { x with assign := if x.assign.isNone then some xyzw else x.assign })
    match s.wave.coords with
    | none =>
      if (List.range 4).any (fun d => decide (maxSize d ≤ coordOf xyzw d)) then .next (s.badWire p)
      else
        let s := s.setFld FAB_DISC 17 16 2
        let s := s.modWave (fun w => { w with coords := some xyzw, parent := some p })
        .next ((s.sendMgmt (some p) 0 0x04 (leBytes 8 s.serialNo ++ coordBytes xyzw)).assignOut xyzw)
    | some c =>
      match differs c xyzw with
      | [] => .next s
      | [d] =>
        if d = portDim p ∧ coordOf c d = 0 then
          .next (s.modWave (fun w => { w with sizes := w.sizes.filter (fun e => e.1 != d) ++ [(d, coordOf xyzw d)] }))
        else .next (s.badWire p)
      | _ => .next (s.badWire p)

/-- JOIN: counted at the root, passed up elsewhere; its port leads to a child. -/
def execJoin (p : Nat) (serial : W64) (xyzw : Coord) (s : State) : Out :=
  s.inFabric <|
  if 31 < p ∨ s.portSt p ≠ pUp ∨ s.phaseOf ≠ 2 then .next s
  else
    let s := s.modWave (fun w => { w with children := if w.children.contains p then w.children else w.children ++ [p] })
    if s.wave.root then .next s.countJoin
    else match s.wave.parent with
      | some q => .next (s.sendMgmt (some q) 0 0x04 (leBytes 8 serial.toNat ++ coordBytes xyzw))
      | none => .next s

/-- WAVE_END: no JOIN for 10 ms (log 1) ends the root's wave. -/
def execWaveEnd (s : State) : Out :=
  s.inFabric <|
  if s.wave.root ∧ s.phaseOf = 2 then .next (s.reach (s.wave.lastJoin + 10 * msNclk)).sendConfig else .next s

/-- CONFIG: this device is configured, tells its children, and acknowledges to its parent; its own command completes. -/
def execConfig (p epoch : Nat) (shape : Coord) (mode : Bool) (collector found : Nat) (ok requireId : Bool) (s : State) : Out :=
  s.inFabric <|
  match s.wave.coords with
  | none => .next s
  | some c =>
    if 31 < p ∨ s.portSt p ≠ pUp ∨ s.phaseOf ≠ 2 ∨ s.wave.root ∨ epoch ≠ s.fld FAB_DISC 31 20 ∨ s.wave.parent ≠ some p then .next s
    else
      let s := (s.configure (idOf c) shape mode collector false).setFld FAB_DISC 14 0 found
      let s := (s.configOut shape mode collector found ok requireId).sendMgmt (some p) 0 0x06
        (leBytes 8 s.serialNo ++ leBytes 2 (idOf c))
      .next ((s.endDiscover ok found).setFld FAB_DISC 17 16 0)

/-- CONFIG_ACK: counted at the root, passed up elsewhere. -/
def execConfigAck (p : Nat) (serial : W64) (devid : Nat) (s : State) : Out :=
  s.inFabric <|
  if 31 < p ∨ s.portSt p ≠ pUp then .next s
  else if s.wave.root then
    if s.phaseOf ≠ 3 then .next s
    else
      let s := s.modWave (fun w => { w with acks := w.acks + 1 })
      .next (if s.wave.acks = s.fld FAB_DISC 14 0 then s.finishWave else s)
  else match s.wave.parent with
    | some q => .next (s.sendMgmt (some q) 0 0x06 (leBytes 8 serial.toNat ++ leBytes 2 devid))
    | none => .next s

/-- CONFIG_TIMEOUT: 10 ms after CONFIG (log 1) the root completes with the acknowledgements it has. -/
def execConfigTimeout (s : State) : Out :=
  s.inRegs <|
  if s.wave.root ∧ s.phaseOf = 3 then .next (s.reach (s.wave.configAt + 10 * msNclk)).finishWave else .next s

/-! ## The identity exchange (R439, R440) -/

/-- What a proof signs: nonce, the serials and ports of the challenger and of the prover (log 34). -/
def idMessage (nonce : List Byte) (ser ser' port port' : Nat) : List Byte :=
  Config.sha256 (nonce ++ leBytes 8 ser ++ leBytes 8 ser' ++ leBytes 1 port ++ leBytes 1 port')

/-- Bytes of an RSA-3072 signature. -/
def sigBytes : Nat := 384

/-- A proof sent in 256-byte messages, each with its index at byte 0. -/
def State.sendSegments (s : State) (p : Nat) (proof : List Byte) : State :=
  (List.range (ceilDiv proof.length 255)).foldl (fun s i =>
    s.sendMgmt (some p) 0 0x0B (leBytes 1 i ++ (proof.drop (255 * i)).take 255)) s

/-- Both checks of a port have passed: it is UP again. -/
def State.bothPassed (s : State) (p : Nat) : State :=
  if s.portSt p = pIdCheck ∧ (s.port p).passed ∧ (s.port p).answered then s.portTo p pUp else s

/-- ID_CHALLENGE: answered with the identity certificate and a signature by the identity key. -/
def execIdChallenge (p : Nat) (nonce : List Byte) (serial : W64) (s : State) : Out :=
  s.inFabric <|
  if !s.linked p || s.mpDown then .next s
  else
    let sig := Config.sign 0 (idMessage nonce serial.toNat s.serialNo (s.fld (PORT_STAT p) 12 8) p)
    let s := s.sendSegments p (s.certArea ++ sig)
    .next ((s.modPort p (fun x => { x with answered := true })).bothPassed p)

/-- A proof verifies: the chain, the hash and serial of the peer's hello, the signature. -/
def State.proofOk (s : State) (p : Nat) (proof : List Byte) : Bool :=
  match (s.port p).hello with
  | none => false
  | some h =>
    let cert := proof.take (proof.length - sigBytes)
    let sig := proof.drop (proof.length - sigBytes)
    Config.certChains cert && Config.sha256 cert == h.certHash && Config.certSerial cert == h.serial
      && Config.certVerify cert (idMessage (s.port p).nonce s.serialNo h.serial.toNat p h.port) sig

/-- An exchange fails: counted, QUARANTINE. -/
def State.idFails (s : State) (p : Nat) : State :=
  ((s.bumpFld SEC_IDCHK 31 16 1).modPort p (fun x => { x with failedId := true, asked := none })).quarantine p

/-- ID_PROOF: the proof of an open challenge. A proof is what its segments carry together. -/
def execIdProof (p : Nat) (proof : List Byte) (_serial : W64) (s : State) : Out :=
  s.inFabric <|
  if !s.linked p || (s.port p).asked.isNone then .next s
  else if s.proofOk p proof then
    let s := (s.bumpFld SEC_IDCHK 15 0 1).modPort p (fun x => { x with passed := true, asked := none, failedId := false })
    .next (s.bothPassed p)
  else .next (s.idFails p)

/-- ID_EXCHANGE_TIMEOUT: a proof is not complete 200 ms after the challenge (log 1). -/
def execIdExchangeTimeout (p : Nat) (s : State) : Out :=
  s.inFabric <|
  match (s.port p).asked with
  | some t => if 31 < p then .next s else .next ((s.reach (t + 200 * msNclk)).idFails p)
  | none => .next s

end Sys2Proof.Machine
end

