-- ==== Sys2Proof/Machine/Power.lean ====
section
/-!
DEFINITION. Power control: operating points, the estimator and bubbles, moves, boost, caps, the regulator alert, thermal
steps (R376 to R390, R447, R448), and the floods of pace messages (R393), which a member of a rope starts from here.

Powers are in units of 0.1 W, voltages of points in mV.
-/

namespace Sys2Proof.Machine

/-! ## Operating points (R377, R378) -/

/-- `n` of a point. -/
def opN (j : Nat) : Nat := [24, 22, 20, 18, 15, 12, 9, 6].getD j 6

/-- VDDC of a point. -/
def opMv (j : Nat) : Nat := [800, 770, 740, 710, 670, 630, 590, 550].getD j 550

/-- The dynamic power of a point, relative to others: frequency times voltage squared. -/
def opRel (j : Nat) : Nat := opN j * opMv j * opMv j

/-- The clocks run: the device is powered and its root PLL has locked (R376). -/
def State.clocked (s : State) : Bool := s.dev != devOff && decide (1 ≤ s.bootStep)

/-- The bubble count. -/
def State.kNow (s : State) : Nat := s.fld PWR_OP_STAT 13 8

/-- Fields of PWR_OP_CTRL. -/
def State.opField (s : State) : Nat := s.fld PWR_OP_CTRL 2 0
def State.fixedMode (s : State) : Bool := (s.reg PWR_OP_CTRL).getLsbD 3
def State.boostOn (s : State) : Bool := (s.reg PWR_OP_CTRL).getLsbD 4

/-- Boost applies. -/
def State.boosting (s : State) : Bool := (s.reg PWR_OP_STAT).getLsbD 30

/-- The forced state of a regulator alert (R389). -/
def State.forced (s : State) : Bool := (s.reg PWR_CAP_STATUS).getLsbD 30

/-- PWR_CAP_STATUS.THERMAL. -/
def State.thermal (s : State) : Bool := (s.reg PWR_CAP_STATUS).getLsbD 29

/-- The effective cap. -/
def State.capNow (s : State) : Nat := 10 * s.fld PWR_CAP_STATUS 9 0

/-- The active cores. -/
def State.activeCores (s : State) : List Nat := (List.range 72).filter (fun c => s.coreSt c == 0)

/-- Every active core's swallower set. -/
def State.setN (s : State) (f : Nat → Nat) : State :=
  s.activeCores.foldl (fun s c => s.modCore c (·.setFld c CORE_CLK 20 16 (f c))) s

/-- The sum of the active cores' n. -/
def State.nSum (s : State) : Nat := (s.activeCores.map (fun c => regField (s.creg c CORE_CLK) 20 16)).sum

/-- The device runs at a point for a reason (PWR_OP_STAT.CAUSE); FIXBROKEN clears at the fixed point. -/
def State.setPoint (s : State) (j cause : Nat) : State :=
  let s := (s.setFld PWR_OP_STAT 2 0 j).setFld PWR_OP_STAT 22 20 cause
  let s := s.setFld PWR_OP_STAT 30 30 0
  let s := if j = s.opField then s.setFld PWR_CAP_STATUS 28 28 0 else s
  s.setN (fun _ => opN j)

/-- The MP commands the voltage of a point (R447). -/
def State.command (s : State) (v : Nat) : State := s.modPwr (fun x => { x with busy := some (v, s.now) })

/-- The reason of a point that cap and OP field chose: fixed, OP limit, or cap. -/
def State.causeFor (s : State) (j : Nat) : Nat :=
  if j = s.opField then (if s.fixedMode then 4 else if j = 0 then 0 else 5) else 0

/-- 105 °C, 102 °C and 115 °C in units of 0.25 °C. -/
abbrev tStep : Nat := 420
abbrev tClear : Nat := 408
abbrev tTrip : Nat := 460

/-! ## Pace floods (R393) -/

/-- A member that lowers floods PACE_DOWN with its new point and the cause (R396). -/
def State.floodDown (s : State) (j cause : Nat) : State :=
  if s.isMember then
    let s := s.bump PWR_ROPE_DOWN 1
    let s := s.setFld PWR_ROPE_STAT 26 24 (max (s.fld PWR_ROPE_STAT 26 24) j)
    let s : State := { s with rope := { s.rope with
      downSeen := true, rise := s.rope.rise.map (fun r => (r.1, max r.2 j)) } }
    s.flood s.ropeId 0x12 (leBytes 1 j ++ leBytes 1 cause)
  else s

/-! ## Prediction (R385) -/

/-- The relative dynamic power of the device now, and at boost: cores at FMAX_N count with their own frequency. -/
def State.boostRel (s : State) : Nat :=
  let cs := s.activeCores
  if cs.isEmpty then 24 * 850 * 850
  else (cs.map (fun c => regField (s.creg c CORE_CLK) 28 24)).sum * 850 * 850 / cs.length
def State.relNow (s : State) : Nat := if s.boosting then s.boostRel else opRel s.opNow

/-- The predicted power at a relative dynamic power is at most `num` hundredths of the effective cap. -/
def State.fits (s : State) (num rel : Nat) : Bool :=
  let x := s.pwr
  decide (100 * ((x.p - x.d) * x.duD * s.relNow + x.duN * rel) ≤ num * s.capNow * x.duD * s.relNow)

/-- The highest point, no higher than OP, whose prediction meets the cap; OP7 when none does. -/
def State.capPoint (s : State) : Nat :=
  ((List.range 8).find? (fun j => decide (s.opField ≤ j) && s.fits 100 (opRel j))).getD 7

/-- The point that the operating-point logic wants: in fixed mode the point that OP names. -/
def State.wanted (s : State) : Nat := if s.fixedMode then s.opField else s.capPoint

/-- The conditions of boost (R379); none without the MP (R17). -/
def State.boostOk (s : State) : Bool :=
  s.boostOn && !s.fixedMode && !s.isMember && s.opNow == 0 && !s.forced && !s.mpDown
    && s.pwr.temps.all (fun t => decide (t.2 < 380)) && s.fits 95 s.boostRel

/-! ## Moves (R384, R385) -/

/-- A move down: the frequency falls at the next period boundary; a rise under way is abandoned. -/
def State.moveDown (s : State) (j : Nat) : State :=
  ((s.modPwr (fun x => { x with pend := some j, boost := false })).setMove 1 j)

/-- A move up has begun: its voltage first. -/
def State.moveUp (s : State) (v : Nat) : State := (s.command v).setMove 2 (if v = 8 then 0 else v)

/-- k has been 0 for 1 ms. -/
def State.calm (s : State) : Bool :=
  match s.pwr.zeroAt with
  | some t => decide (t + msNclk ≤ s.now)
  | none => false

/-- The MP chooses a target and begins a move where one is due. In a rope only the OP field lowers at once, and only an
agreed rise raises (R396, R397, R399). -/
def State.choose (s : State) : State :=
  if s.mpDown || s.forced then s
  else
    let j := s.pwr.pend.getD s.opNow
    let up := s.opNow - 1
    let want := if s.isMember then max s.opNow s.opField else s.wanted
    if j < want then (s.moveDown want).floodDown want 0
    else if s.pwr.move ≠ 0 then s
    else if s.isMember then
      match s.rope.rise with
      | some r => if r.2 < s.opNow ∧ s.pwr.volt ≠ r.2 then s.moveUp r.2
                  else if s.pwr.volt ≠ s.opNow ∧ s.opNow ≤ r.2 then (s.command s.opNow).setMove 1 s.opNow else s
      | none => if s.pwr.volt ≠ s.opNow then (s.command s.opNow).setMove 1 s.opNow else s
    else if want < s.opNow ∧ s.calm ∧ ¬ s.thermal ∧ s.fits 95 (opRel up) then s.moveUp up
    else if s.boosting then s
    else if s.pwr.volt ≠ s.opNow then (s.command s.opNow).setMove 1 s.opNow
    else if s.boostOk then s.moveUp 8
    else s.setFld PWR_OP_STAT 26 24 want

/-- OP_TARGET_SET: within 10 µs of a change of the effective cap, OP or FIXED. -/
def execOpTargetSet (s : State) : Out :=
  s.inPower <|
  match s.pwr.changed with
  | none => .next s
  | some _ => if s.mpDown then .next s else .next ((s.modPwr (fun x => { x with changed := none })).choose)

/-- OP_REEVALUATE: each 100 µs (log 1). -/
def execOpReevaluate (s : State) : Out :=
  s.inPower <|
  if !s.clocked || s.mpDown then .next s
  else
    let s := s.reach (s.pwr.evalAt + 100 * usNclk)
    .next ((s.modPwr (fun x => { x with evalAt := s.now })).choose)

/-- A rise agreed in a rope reaches its frequency: at the member's epoch boundary, or once its voltage has settled after it
(R399). None is taken while the MP is down (R17). -/
def State.applyRise (s : State) : State :=
  match s.rope.rise with
  | none => s
  | some r =>
    if s.mpDown then s else
    let s : State := { s with rope := { s.rope with rise := none, riseDue := false } }
    let s := s.setFld PWR_ROPE_STAT 26 24 r.2
    if r.2 < s.opNow then (s.setPoint r.2 3).setMove 0 r.2 else s.setMove 0 s.opNow

/-- VDDC_SETTLED: the commanded voltage stands (R384, R447). -/
def execVddcSettled (s : State) : Out :=
  s.keepEdge <| s.keepFabric <| s.keepMem <|
  match s.pwr.busy with
  | none => .next s
  | some (v, _) =>
    let s := s.modPwr (fun x => { x with volt := v, busy := none })
    if s.mpDown then .next s
    else if s.pwr.move = 2 then
      if s.isMember then .next (if s.rope.riseDue then s.applyRise else s)
      else if v = 8 then .next (s.modPwr (fun x => { x with boost := true }))
      else .next (s.modPwr (fun x => { x with pend := some v }))
    else if s.pwr.move = 1 ∧ s.pwr.pend.isNone then .next (s.setMove 0 s.opNow)
    else .next s

/-- VOLTAGE_MOVE_TIMEOUT: 500 µs after the command (R448, log 1). -/
def execVoltageMoveTimeout (s : State) : Out :=
  s.inPower <|
  match s.pwr.busy with
  | none => .next s
  | some (_, t) =>
    if s.mpDown then .next s
    else
      let s := s.reach (t + 500 * usNclk)
      let s := s.modPwr (fun x => { x with busy := none, boost := false, pend := if x.move = 2 then none else x.pend })
      .next (s.setMove 0 s.opNow)

/-! ## The period boundary (R381 to R383, R388) -/

/-- The event-log source of power control (R416). -/
def powerSource : Nat := logSource 11 0

/-- The point that a boundary brings: a pending move, or a thermal step where that is lower (R390). While the MP is down no
step is taken and the registers hold (R17). -/
def State.boundaryPoint (s : State) : State :=
  if s.mpDown then s
  else
  let op := s.opNow
  let cap := s.pwr.pend.getD op
  let steps := s.pwr.step
  let th := if steps ∧ op < 7 then op + 1 else op
  let s := if steps then
      (s.modPwr (fun x => { x with step := false })).setFld
        PWR_CAP_STATUS 29 29 (s.pwr.temps.any (fun t => decide (tClear ≤ t.2))).toNat |>.logEvent 0x11 0 powerSource 2
    else s
  let j := if steps then max cap th else cap
  let s := s.modPwr (fun x => { x with pend := none })
  if j = op then s
  else
    let s := s.setPoint j (if cap < th ∧ steps then 1 else s.causeFor j)
    if op < j then (s.command j).setMove 1 j else s.setMove 0 j

/-- Boost begins or ends at a boundary (R379); while the MP is down the cores keep what they obey (R17). -/
def State.boundaryBoost (s : State) : State :=
  let lower (s : State) : State := (s.command s.opNow).setMove 1 s.opNow
  if s.mpDown then s
  else if s.boosting ∧ ¬ s.boostOk then
    lower ((s.setFld PWR_OP_STAT 30 30 0).setN (fun _ => opN s.opNow))
  else if s.pwr.boost then
    let s := s.modPwr (fun x => { x with boost := false })
    if s.boostOk then
      (((s.setFld PWR_OP_STAT 30 30 1).setN (fun c => regField (s.creg c CORE_CLK) 28 24))).setMove 0 0
    else lower s
  else s

/-- `k_need` (R383). -/
def State.kNeed (s : State) : Nat :=
  let x := s.pwr
  let pd := (x.p - x.d) * x.duD + x.duN
  let c := s.capNow * x.duD
  if pd ≤ c then 0 else if x.duN = 0 then 60 else min 60 (ceilDiv (64 * (pd - c)) x.duN)

/-- The cap is unmet, or met again (R388, R398). -/
def State.unmetCheck (s : State) (op k : Nat) : State :=
  let p := s.pwr.p
  if op = 7 ∧ k = 60 ∧ s.capNow < p then
    let s := s.setFld PWR_CAP_STATUS 25 16 (p / 10)
    if s.capUnmet then s
    else
      let s := (s.setFld PWR_CAP_STATUS 31 31 1).bump PWR_UNMET_CNT 1
      let s := ((s.raiseEvt evtCapUnmet).logEvent 0x11 0 powerSource 0)
      let s : State := { s with cmds := s.cmds.map (fun x => { x with raised := x.raised ||| 16 }) }
      s.floodFloor true
  else if s.capUnmet ∧ p ≤ s.capNow then (s.setFld PWR_CAP_STATUS 31 31 0).floodFloor false
  else s

/-- The level samples of a period (R420): supplies free, temperatures as last read, power. -/
def State.levelSamples (s : State) : State :=
  let s := (List.range 8).foldl (fun (s : State) i =>
    ({ s with free := s.free + 1 } : State).sample 5 i (Config.freeBits 16 s.free).toNat) s
  let s := (List.range 88).foldl (fun s i => s.sample 6 i (Tab.get (fun _ => 0) s.pwr.temps i)) s
  let s := s.sample 6 127 (s.fld PWR_THERM 9 0)
  (s.sample 7 0 (s.reg PWR_EST).toNat).sample 7 1 (s.reg PWR_DEMAND).toNat

/-- ESTIMATION_PERIOD: P and D are free (log 7); then point, boost, demand, UNMET, fixed-mode counts, bubbles, samples. -/
def execEstimationPeriod (s : State) : Out :=
  s.keepEdge <| s.keepFabric <| s.keepMem <|
  if !s.clocked then .next s
  else
    let s := s.reach (s.pwr.period + 2048)
    let p := (Config.freeBits 16 s.free).toNat
    let d := min p (Config.freeBits 16 (s.free + 1)).toNat
    let op := s.opNow
    let k := s.kNow
    let s : State := { s with free := s.free + 2 }
    let s := s.modPwr (fun x => { x with p := p, d := d, duN := 64 * d, duD := 64 - k, period := s.now })
    let excess := decide (s.capNow < p)
    let lost := s.fixedMode && (decide (0 < k) || op != s.opField)
    let s := if lost then s.bump PWR_FIXLOSS 1 else s
    let s := s.modPwr (fun x => { x with k60 := if s.fixedMode && k == 60 && excess then x.k60 + 1 else 0 })
    let n := s.nSum
    let s := s.boundaryPoint.boundaryBoost
    let n' := s.nSum
    let s := if n = 0 then s else s.modPwr (fun x => { x with duN := x.duN * n', duD := x.duD * n })
    let s := s.setReg PWR_EST (BitVec.ofNat 32 p)
    let s := s.setReg PWR_DEMAND (BitVec.ofNat 32 (min 65535 (p - d + s.pwr.duN / s.pwr.duD)))
    let s := s.unmetCheck op k
    let k' := if s.forced then max 48 s.pwr.floor else max s.pwr.floor (min 60 (max s.kNeed (k - 4)))
    let s := s.setFld PWR_OP_STAT 13 8 k'
    let s := s.modPwr (fun x => { x with
      zeroAt := if k' = 0 then some (x.zeroAt.getD s.now) else none,
      busyAt := if k' = 0 then none else some (x.busyAt.getD s.now) })
    .next s.levelSamples

/-- FIXED_BREAK: 64 such periods; one point down at the next boundary (R380). -/
def execFixedBreak (s : State) : Out :=
  s.inPower <|
  if s.fixedMode ∧ 64 ≤ s.pwr.k60 ∧ s.opNow < 7 ∧ ¬ s.mpDown ∧ ¬ s.forced then
    let s := (s.setFld PWR_CAP_STATUS 28 28 1).logEvent 0x11 0 powerSource 3
    let s := s.modPwr (fun x => { x with k60 := x.k60 - 64 })
    .next ((s.moveDown (s.opNow + 1)).floodDown (s.opNow + 1) 0)
  else .next s

/-! ## Caps and points written (R380, R386) -/

/-- The effective cap follows the two; the MP owes a new target when it changes. -/
def State.capsChanged (s : State) : State :=
  let c := min (s.fld PWR_CAP 9 0) (s.fld PWR_BUDGET 9 0)
  if c = s.fld PWR_CAP_STATUS 9 0 then s
  else (s.setFld PWR_CAP_STATUS 9 0 c).modPwr (fun x => { x with changed := some (x.changed.getD s.now) })

/-- A cap within 220 to 700 W. -/
def capValid (w : Nat) : Bool := decide (220 ≤ w ∧ w ≤ 700)

/-- A register cap written. -/
def State.writeCap (s : State) (r w : Nat) : State :=
  if capValid w then (s.setReg r (BitVec.ofNat 32 w)).capsChanged else s.rsvWrite

/-- PWR_CAP written through BAR0. -/
def State.writePwrCap (s : State) (a : Agent) (v : W32) : State :=
  s.regWrite a PWR_CAP v (fun v s => s.writeCap PWR_CAP v.toNat)

/-- PWR_CAP_WRITE. -/
def execPwrCapWrite (a : Agent) (v : W32) (s : State) : Out :=
  s.inPower <|
  .next (s.writePwrCap a v)

/-- PWR_BUDGET written: by the budget paths (R386). -/
def State.writePwrBudget (s : State) (a : Agent) (v : W32) : State :=
  s.regWrite a PWR_BUDGET v (fun v s =>
    match a with
    | .host => s.hostViolation
    | .usb => s.writeCap PWR_BUDGET v.toNat
    | .bmc => s.writeCap PWR_BUDGET v.toNat
    | _ => s)

/-- PWR_BUDGET_WRITE. -/
def execPwrBudgetWrite (a : Agent) (v : W32) (s : State) : Out :=
  s.inPower <|
  .next (s.writePwrBudget a v)

/-- PWR_OP_CTRL takes a setting; a change of OP or FIXED owes a new target. -/
def State.setOpCtrl (s : State) (v : W32) : State :=
  let old := s.reg PWR_OP_CTRL
  let s := s.setReg PWR_OP_CTRL v
  let s := if s.opNow = s.opField then s.setFld PWR_CAP_STATUS 28 28 0 else s
  if regField old 3 0 = regField v 3 0 then s
  else s.modPwr (fun x => { x with changed := some (x.changed.getD s.now) })

/-- PWR_OP_CTRL written through BAR0. -/
def State.writeOpCtrl (s : State) (a : Agent) (v : W32) : State := s.regWrite a PWR_OP_CTRL v (fun v s => s.setOpCtrl v)

/-- PWR_OP_CTRL_WRITE. -/
def execPwrOpCtrlWrite (a : Agent) (v : W32) (s : State) : Out :=
  s.inPower <|
  .next (s.writeOpCtrl a v)

/-- POWER_CAP_SET: the host cap on a queue, the rack budget on a private pair (R386). -/
def opPowerCapSet : Body := fun e s =>
  let r := match e.src with
    | .queue _ => PWR_CAP
    | _ => PWR_BUDGET
  let old := s.fld r 9 0
  .done (((s.setReg r (BitVec.ofNat 32 (e.word 0 % 1024))).capsChanged).short e stOk 0 old)

/-- POWER_CAP_SET. -/
def execPowerCapSet (src : Src) (s : State) : Out :=
  s.inPower <|
  .next (s.stage2 0x40 src (fields (fun e _ => [okField 0 0 (capValid (e.word 0 % 1024))])) opPowerCapSet)

/-- OP_SET (R380). -/
def opOpSet : Body := fun e s =>
  let old := (s.reg PWR_OP_CTRL).toNat
  .done ((s.setOpCtrl (BitVec.ofNat 32 (e.word 0 % 32))).short e stOk 0 old)

/-- OP_SET. -/
def execOpSet (src : Src) (s : State) : Out :=
  s.inPower <|
  .next (s.stage2 0x41 src noFields opOpSet)

/-! ## Regulator alert (R389) -/

/-- PWR_ALERT: PWR_ALERT_N falls. -/
def execPwrAlert (s : State) : Out :=
  s.keepEdge <| s.keepFabric <| s.keepMem <|
  if !s.clocked || s.pwr.alertLow then .next s
  else
    let s := ((s.setFld PWR_CAP_STATUS 30 30 1).bump PWR_ALERTS 1).logEvent 0x11 0 powerSource 1
    let s := s.modPwr (fun x => { x with
      alertLow := true, alertRose := none, pend := none, boost := false, zeroAt := none,
      busyAt := some (x.busyAt.getD s.now) })
    let s := ((s.setPoint 7 2).setFld PWR_OP_STAT 13 8 48).setMove 0 7
    let s : State := { s with rope := { s.rope with rise := none, riseDue := false } }
    .next (s.floodDown 7 2)

/-- PWR_ALERT_RELEASE: PWR_ALERT_N rises; the hold begins. -/
def execPwrAlertRelease (s : State) : Out :=
  s.inPower <|
  if s.pwr.alertLow then .next (s.modPwr (fun x => { x with alertLow := false, alertRose := some s.now })) else .next s

/-- ALERT_HOLD_EXPIRY: 1 ms after the release (log 1). -/
def execAlertHoldExpiry (s : State) : Out :=
  s.inPower <|
  match s.pwr.alertRose with
  | none => .next s
  | some t =>
    let s := s.reach (t + msNclk)
    .next ((s.modPwr (fun x => { x with alertRose := none })).setFld PWR_CAP_STATUS 30 30 0)

/-! ## Thermal limits (R390) -/

/-- A sensor's reading, in units of 0.25 °C; PWR_THERM shows the hottest, the lowest sensor on a tie. -/
def State.read88 (s : State) (sensor reading : Nat) : State :=
  let t := Tab.set (fun _ => 0) s.pwr.temps sensor (reading % 1024)
  let h := (List.range 88).foldl (fun h i => if Tab.get (fun _ => 0) t h < Tab.get (fun _ => 0) t i then i else h) 0
  (s.modPwr (fun x => { x with temps := t })).setReg PWR_THERM (BitVec.ofNat 32 (h * 2 ^ 16 + Tab.get (fun _ => 0) t h))

/-- A thermal step is due at the next boundary; a member floods the point that it brings. -/
def State.stepDue (s : State) : State :=
  let s := s.modPwr (fun x => { x with step := true, hotAt := some s.now })
  if s.opNow < 7 ∧ ¬ s.mpDown then s.floodDown (max (s.pwr.pend.getD 0) (s.opNow + 1)) 1 else s

/-- THERMAL_STEP: a sensor reaches 105 °C. -/
def execThermalStep (sensor reading : Nat) (s : State) : Out :=
  s.inPower <|
  if 88 ≤ sensor ∨ reading < tStep ∨ 1024 ≤ reading ∨ ¬ s.clocked then .next s
  else
    let s := s.read88 sensor reading
    .next (if s.pwr.hotAt.isNone then s.stepDue else s)

/-- THERMAL_REPEAT: a sensor has stayed there for 1 ms since the last step (log 1). At OP7 the floor rises by 8; no step is taken
while the MP is down (R17). -/
def execThermalRepeat (sensor reading : Nat) (s : State) : Out :=
  s.inPower <|
  match s.pwr.hotAt with
  | none => .next s
  | some t =>
    if 88 ≤ sensor ∨ reading < tStep ∨ 1024 ≤ reading ∨ ¬ s.clocked then .next s
    else
      let s := (s.reach (t + msNclk)).read88 sensor reading
      let s := if s.opNow = 7 ∧ ¬ s.mpDown then s.modPwr (fun x => { x with floor := min 60 (x.floor + 8) }) else s
      .next s.stepDue

/-- THERMAL_CLEAR: a sensor reads below 105 °C; the condition ends once every one reads below 102 °C. -/
def execThermalClear (sensor reading : Nat) (s : State) : Out :=
  s.inPower <|
  if 88 ≤ sensor ∨ tStep ≤ reading ∨ ¬ s.clocked then .next s
  else
    let s := s.read88 sensor reading
    let s := if s.pwr.temps.all (fun t => decide (t.2 < tStep)) then s.modPwr (fun x => { x with hotAt := none }) else s
    if s.pwr.temps.all (fun t => decide (t.2 < tClear)) then
      .next ((s.modPwr (fun x => { x with floor := 0 })).setFld PWR_CAP_STATUS 29 29 0)
    else .next s

end Sys2Proof.Machine
end

