-- ==== Sys2Proof/Machine/Ropes.lean ====
section
/-!
DEFINITION. Ropes: joining, epochs, lowering, floors, raising, leaving and lost members (R392 to R400).

A pace message is a command that carries its header and fields; a flood is forwarded by every device that receives its
first copy.
-/

namespace Sys2Proof.Machine

/-- The rope point. -/
def State.ropePoint (s : State) : Nat := s.fld PWR_ROPE_STAT 26 24

/-- A ROPE_JOIN waits. -/
def State.joining (s : State) : Bool := s.rope.joinAt.isSome

/-- The member's permitted point (R392). -/
def State.permitted (s : State) : Nat :=
  max s.capPoint (if s.thermal || s.forced || s.mpDown then s.opNow else 0)

/-- A flood arrives: none for a copy of one seen within 1 ms; else it is forwarded and known (R393). -/
def State.floodIn (s : State) (h : PaceHdr) (code : Nat) (fields : List Byte) : Option State :=
  let seen := s.rope.seen.filter (fun x => decide (s.now < x.2.2.2 + msNclk))
  if seen.any (fun x => x.1 == h.rope && x.2.1 == h.origin && x.2.2.1 == h.seq) then none
  else
    let s := s.modRope (fun r => { r with seen := seen ++ [(h.rope, h.origin, h.seq, s.now)] })
    some (s.floodOn h.port code (paceHead h.rope h.origin h.seq ++ fields))

/-- The header is of the rope that this device is a member of. -/
def State.inRope (s : State) (h : PaceHdr) : Bool := s.isMember && s.ropeId == h.rope

/-- The ROPE_JOIN that waits. -/
def State.joinCmd (s : State) : Option Cmd := s.cmds.find? (fun x => x.op == 0x52 && !x.ended)

/-- A join ends with a status. -/
def State.endJoin (s : State) (status result : Nat) : State :=
  let s := s.modRope (fun r => { r with joinAt := none, forms := [] })
  match s.joinCmd with
  | some x => s.conclude x.id status 0 result
  | none => s

/-- A join refused here; a joiner ends ROPE_REFUSED. -/
def State.refused (s : State) : State :=
  if s.joining then ((s.modRope (fun r => { r with list := [] })).setReg PWR_ROPE_STAT 0).endJoin stRopeRefused 0 else s

/-- A ROPE_REFUSE flood for a rope, with its reason: 1 list mismatch, 2 already in a rope, 3 device FAULTED (R393). -/
def State.floodRefuse (s : State) (rope reason : Nat) : State := s.flood rope 0x18 (leBytes 1 reason)

/-- A lower point takes effect: at the next 48-pulse boundary (R377, R396); then the voltage, if the MP runs. -/
def State.paceApply (s : State) (j : Nat) : State :=
  let s := s.modRope (fun r => { r with rise := r.rise.map (fun x => (x.1, max x.2 j)) })
  if s.opNow < j then
    let s := (s.modPwr (fun x => { x with pend := x.pend.filter (fun p => decide (j < p)), boost := false })).setPoint j 3
    if s.mpDown then s.setMove 0 j else (s.command j).setMove 1 j
  else s

/-- A rise is agreed: the member raises its voltage, as far as heat and alert allow (R384, R399). -/
def State.plan (s : State) (epoch point : Nat) : State :=
  let point := if s.thermal || s.forced then max point s.opNow else point
  if s.opNow ≤ point then s
  else
    let s := s.modRope (fun r => { r with rise := some (epoch, point), riseDue := false })
    if s.mpDown || s.pwr.move != 0 then s else s.moveUp point

/-- A vote for an epoch: kept by the leader, sent to it by others (R399). -/
def State.vote (s : State) (epoch : Nat) : State :=
  let p := s.permitted
  if s.leads then s.modRope (fun r => { r with votes := r.votes ++ [(s.devId, epoch, p)] })
  else
    (s.modRope (fun r => { r with seq := (r.seq + 1) % 2 ^ 16 })).sendMgmt none (s.fld PWR_ROPE_LEADER 13 0) 0x13
      (paceHead s.ropeId s.devId s.rope.seq ++ leBytes 4 epoch ++ leBytes 1 p)

/-- A member's epoch boundary (R394, R395, R399): registers, an agreed rise, a lower point, the vote. -/
def State.boundary (s : State) (epoch leader point count : Nat) : State :=
  let s := s.setReg PWR_ROPE_EPOCH (BitVec.ofNat 32 epoch)
  let s := s.setReg PWR_ROPE_LEADER (BitVec.ofNat 32 (count % 2 ^ 15 * 2 ^ 16 + leader % 2 ^ 14))
  let s := s.setFld PWR_ROPE_STAT 26 24 point
  let s := s.modRope (fun r => { r with syncAt := s.now, downSeen := false, examined := false })
  let s := match s.rope.rise with
    | some (e, j) =>
      if e ≤ epoch then
        if s.pwr.busy.isNone ∧ s.pwr.volt ≤ j ∨ s.opNow ≤ j then s.applyRise else s.modRope (fun r => { r with riseDue := true })
      else s
    | none => s
  let s := s.setFld PWR_ROPE_STAT 26 24 point
  (s.paceApply point).vote epoch

/-- The leader floods ROPE_SYNC and passes its own boundary. -/
def State.sync (s : State) (epoch point : Nat) : State :=
  let n := s.rope.members.length
  let s := s.flood s.ropeId 0x11 (leBytes 4 epoch ++ leBytes 1 point ++ leBytes 2 n)
  s.boundary epoch s.devId point n

/-- The device becomes a member of the rope that its join names, at the first ROPE_SYNC. -/
def State.enterRope (s : State) (lead : Bool) (point : Nat) : State :=
  let s := (s.setFld PWR_ROPE_STAT 31 31 1).setFld PWR_ROPE_STAT 30 30 lead.toNat
  let s := s.modRope (fun r => { r with
    members := r.list, votes := [], missed := [], floors := [], rise := none, riseDue := false })
  let s := s.endJoin stOk point
  if point < s.opNow then s.plan 1 point else s

/-- The forms of a rope at its lowest member: a mismatch refuses it; with all of them the device leads (R394). -/
def State.formsCheck (s : State) (hash : List Byte) : State :=
  if !s.joining then s
  else
    let r := s.rope
    let rope := s.ropeId
    let fs := r.forms.filter (fun f => f.hdr.rope == rope)
    let bad := fs.any (fun f => f.listHash != hash || f.members != r.list.length || !r.list.contains f.hdr.origin)
    let come := r.list.filter (fun d => fs.any (fun f => f.hdr.origin == d))
    let s := match s.joinCmd with
      | some x => s.modCmd x.id (fun y => { y with done := come.length })
      | none => s
    if bad then (s.floodRefuse rope 1).refused
    else if come.length < r.list.length then s
    else
      let p := min 7 (fs.foldl (fun m f => max m f.point) 0)
      (s.enterRope true p).sync 0 p

/-- The hash of a member list (R393). -/
def listHash (l : List Nat) : List Byte := Config.sha256 (l.flatMap (leBytes 2))

/-- ROPE_JOIN past its checks: the entry's copy holds the list. -/
def opRopeJoin : Body := fun e s =>
  let rope := e.word 0 % 2 ^ 16
  if s.isMember || s.joining then .done ((s.floodRefuse rope 2).short e stRopeRefused 0 0)
  else
    let l := (List.range (e.copy.length / 2)).map (fun i => leNat ((e.copy.drop (2 * i)).take 2))
    let r := s.start e unitDevices l.length
    let s := r.2.setReg PWR_ROPE_STAT (BitVec.ofNat 32 rope)
    let s := s.modRope (fun x => { x with list := l, members := [], joinAt := some s.now })
    let s : State := { s with ropeList := l }
    let h := listHash l
    if lowestId l = s.devId then
      let f : RopeForm := ⟨⟨rope, s.devId, s.rope.seq, 32⟩, l.length, h, s.permitted⟩
      .done ((s.modRope (fun x => { x with forms := x.forms ++ [f] })).formsCheck h)
    else
      .done ((s.modRope (fun x => { x with seq := (x.seq + 1) % 2 ^ 16 })).sendMgmt none (lowestId l) 0x10
        (paceHead rope s.devId s.rope.seq ++ leBytes 2 l.length ++ h ++ leBytes 1 s.permitted))

/-- The checks of ROPE_JOIN: the list is read, ascends without repeats, and holds this device (R394). -/
def ropeJoinChecks : Checks := fun e s =>
  let n := e.word 2 % 2 ^ 14 + 1
  let field := okField 2 0 (decide (2 ≤ n)) :: s.addrChecks e 1 false false
  match firstBad field with
  | some _ => .done field [] s
  | none =>
    match s.getData e.src (e.word 1) (2 * n) with
    | .wait t => .wait t
    | .fail st t => .done [(wordAt 1 0, st, false)] [] t
    | .ok b t =>
      let l := (List.range n).map (fun i => leNat ((b.drop (2 * i)).take 2))
      let ok := (l.zip (l.drop 1)).all (fun p => decide (p.1 < p.2)) && l.contains t.devId
      .done [okField 1 0 ok] b t

/-- ROPE_JOIN. -/
def execRopeJoin (src : Src) (s : State) : Out :=
  s.keepEdge <| s.keepFabric <| s.keepMem <|
  .next (s.stage2 0x52 src ropeJoinChecks opRopeJoin)

/-- ROPE_FORM: kept by the device it reaches, which refuses when it is in a rope or FAULTED (R394). -/
def execRopeForm (f : RopeForm) (s : State) : Out :=
  s.keepEdge <| s.keepFabric <| s.keepMem <|
  if s.isMember || (s.joining && s.ropeId != f.hdr.rope) then .next (s.floodRefuse f.hdr.rope 2)
  else if s.dev = devFaulted then .next (s.floodRefuse f.hdr.rope 3)
  else
    let s := s.modRope (fun r => { r with
      forms := r.forms.filter (fun g => g.hdr.rope != f.hdr.rope || g.hdr.origin != f.hdr.origin) ++ [f] })
    .next (s.formsCheck (listHash s.rope.list))

/-- ROPE_SYNC. -/
def execRopeSync (h : PaceHdr) (epoch point members : Nat) (s : State) : Out :=
  s.keepEdge <| s.keepFabric <| s.keepMem <|
  let epoch := epoch % 2 ^ 32
  let point := min 7 point
  match s.floodIn h 0x11 (leBytes 4 epoch ++ leBytes 1 point ++ leBytes 2 members) with
  | none => .next s
  | some s =>
    if s.joining ∧ s.ropeId = h.rope then .next ((s.enterRope false point).boundary epoch h.origin point members)
    else if !s.inRope h then .next s
    else if s.leads ∧ s.devId < h.origin then .next s
    else .next ((s.setFld PWR_ROPE_STAT 30 30 0).boundary epoch h.origin point members)

/-- ROPE_EPOCH_TICK: 1 ms of the leader's clock (log 1). -/
def execRopeEpochTick (s : State) : Out :=
  s.keepEdge <| s.keepFabric <| s.keepMem <|
  if !s.leads then .next s
  else
    let s := s.reach (s.rope.syncAt + msNclk)
    let e := ((s.reg PWR_ROPE_EPOCH).toNat + 1) % 2 ^ 32
    let p := match s.rope.rise with
      | some (e', j) => if e' ≤ e then min j s.ropePoint else s.ropePoint
      | none => s.ropePoint
    .next (s.sync e p)

/-- PACE_DOWN. -/
def execPaceDown (h : PaceHdr) (point cause : Nat) (s : State) : Out :=
  s.keepEdge <| s.keepFabric <| s.keepMem <|
  let point := min 7 point
  match s.floodIn h 0x12 (leBytes 1 point ++ leBytes 1 cause) with
  | none => .next s
  | some s =>
    if !s.inRope h then .next s
    else
      let s := (s.bump PWR_ROPE_FOLLOW 1).modRope (fun r => { r with downSeen := true })
      let s := s.setFld PWR_ROPE_STAT 26 24 (max s.ropePoint point)
      .next ((s.paceApply point).sample 4 0 (12 - s.now % 12))

/-- PACE_VOTE: the leader keeps it. -/
def execPaceVote (h : PaceHdr) (epoch point : Nat) (s : State) : Out :=
  s.inPower <|
  if s.leads ∧ s.inRope h ∧ s.rope.members.contains h.origin then
    .next (s.modRope (fun r => { r with
      votes := r.votes.filter (fun v => v.1 != h.origin || v.2.1 != epoch % 2 ^ 32) ++ [(h.origin, epoch % 2 ^ 32, min 7 point)] }))
  else .next s

/-- VOTE_EXAMINE: 300 µs after the leader's boundary (log 1). -/
def execVoteExamine (s : State) : Out :=
  s.inPower <|
  if !s.leads || s.rope.examined then .next s
  else
    let s := s.reach (s.rope.syncAt + 300 * usNclk)
    let e := (s.reg PWR_ROPE_EPOCH).toNat
    let r := s.rope
    let votes := r.votes.filter (fun v => v.2.1 == e)
    let voted (d : Nat) : Bool := votes.any (fun v => v.1 == d)
    let missed := r.members.foldl (fun t d =>
      Tab.set (fun _ => 0) t d (if voted d then 0 else Tab.get (fun _ => 0) t d + 1)) r.missed
    let low := votes.foldl (fun m v => max m v.2.2) 0
    let up := r.members.all voted && decide (low < s.ropePoint) && r.floors.isEmpty && !r.downSeen
    let s := s.modRope (fun r => { r with examined := true, missed := missed, votes := [] })
    if up then
      let e' := (e + 1) % 2 ^ 32
      .next ((s.flood s.ropeId 0x14 (leBytes 4 e' ++ leBytes 1 low)).plan e' low)
    else .next s

/-- PACE_UP. -/
def execPaceUp (h : PaceHdr) (epoch point : Nat) (s : State) : Out :=
  s.inPower <|
  let epoch := epoch % 2 ^ 32
  let point := min 7 point
  match s.floodIn h 0x14 (leBytes 4 epoch ++ leBytes 1 point) with
  | none => .next s
  | some s => .next (if s.inRope h then s.plan epoch point else s)

/-- The floors that stand, with FLOOR (R398). -/
def State.setFloors (s : State) (fl : List Nat) : State :=
  (s.modRope (fun r => { r with floors := fl })).setFld PWR_ROPE_STAT 29 29 (!fl.isEmpty).toNat

/-- PACE_FLOOR. -/
def execPaceFloor (h : PaceHdr) (set : Bool) (s : State) : Out :=
  s.inPower <|
  match s.floodIn h 0x15 (leBytes 1 set.toNat) with
  | none => .next s
  | some s =>
    .next (if s.inRope h then
      s.setFloors (s.rope.floors.filter (· != h.origin) ++ (if set then [h.origin] else [])) else s)

/-- A device is no longer a member, as this member knows it. -/
def State.without (s : State) (d : Nat) : State :=
  (s.modRope (fun r => { r with
    members := r.members.filter (· != d), votes := r.votes.filter (fun v => v.1 != d),
    missed := r.missed.filter (fun v => v.1 != d) })).setFloors (s.rope.floors.filter (· != d))

/-- A device that leaves or fails during a join refuses it (R394). -/
def State.refuseJoin (s : State) (reason : Nat) : State :=
  if s.joining then (s.floodRefuse s.ropeId reason).refused else s

/-- ROPE_LEAVE: a rope that the device is not in is a bad field. -/
def opRopeLeave : Body := fun e s =>
  if s.ropeId ≠ e.word 0 % 2 ^ 16 ∨ ¬ (s.isMember ∨ s.joining) then .done (s.short e stBadField (wordAt 0 0) 0)
  else if s.joining then .done ((s.refuseJoin 2).short e stOk 0 0)
  else .done (s.quitRope.short e stOk 0 0)

/-- ROPE_LEAVE. -/
def execRopeLeave (src : Src) (s : State) : Out :=
  s.inPower <|
  .next (s.stage2 0x53 src noFields opRopeLeave)

/-- ROPE_LEAVE as a message: the leader counts the member out; the lowest that remains leads after a leader that left. -/
def execRopeLeaveMsg (h : PaceHdr) (s : State) : Out :=
  s.inPower <|
  if !s.inRope h then .next s
  else
    let was := s.fld PWR_ROPE_LEADER 13 0
    let s := s.without h.origin
    .next (if h.origin = was ∧ lowestId s.rope.members = s.devId then s.setFld PWR_ROPE_STAT 30 30 1 else s)

/-- A device is dropped: this one returns to local control, or counts it out. -/
def State.drop (s : State) (d : Nat) : State := if d = s.devId then s.leaveRope true else s.without d

/-- ROPE_DROP. -/
def execRopeDrop (h : PaceHdr) (device : Nat) (s : State) : Out :=
  s.inPower <|
  match s.floodIn h 0x17 (leBytes 2 device) with
  | none => .next s
  | some s => .next (if s.inRope h then s.drop device else s)

/-- ROPE_REFUSE. -/
def execRopeRefuse (h : PaceHdr) (reason : Nat) (s : State) : Out :=
  s.inPower <|
  match s.floodIn h 0x18 (leBytes 1 reason) with
  | none => .next s
  | some s =>
    let s := s.modRope (fun r => { r with forms := r.forms.filter (fun f => f.hdr.rope != h.rope) })
    .next (if s.joining ∧ s.ropeId = h.rope then s.refused else s)

/-- ROPE_CAP_MOVE: 1 ms of bubbles at every boundary (log 1); a floor of its own keeps its bubbles (R397, R398). -/
def execRopeCapMove (s : State) : Out :=
  s.inPower <|
  match s.pwr.busyAt with
  | none => .next s
  | some t =>
    if !s.isMember || s.mpDown || s.forced || s.rope.floors.contains s.devId then .next s
    else
      let s := s.reach (t + msNclk)
      let s := s.modPwr (fun x => { x with busyAt := some s.now })
      let j := s.capPoint
      .next (if max s.opNow (s.pwr.pend.getD 0) < j then (s.moveDown j).floodDown j 0 else s)

/-- MEMBER_DROP: 16 consecutive votes missed. -/
def execMemberDrop (device : Nat) (s : State) : Out :=
  s.inPower <|
  if s.leads ∧ s.rope.members.contains device ∧ device ≠ s.devId ∧ 16 ≤ Tab.get (fun _ => 0) s.rope.missed device then
    .next ((s.flood s.ropeId 0x17 (leBytes 2 device)).without device)
  else .next s

/-- LEADER_LOST: 4 ms without ROPE_SYNC (log 1); the lowest that remains leads. -/
def execLeaderLost (s : State) : Out :=
  s.keepEdge <| s.keepFabric <| s.keepMem <|
  if !s.isMember || s.leads then .next s
  else
    let s := s.reach (s.rope.syncAt + 4 * msNclk)
    let others := s.rope.members.filter (· != s.devId)
    let led := s.fld PWR_ROPE_LEADER 13 0
    let lost := if others.contains led then led else lowestId others
    let s := if lost < s.devId ∨ lost = led then s.without lost else s
    if lowestId s.rope.members = s.devId then
      .next ((s.setFld PWR_ROPE_STAT 30 30 1).sync (((s.reg PWR_ROPE_EPOCH).toNat + 1) % 2 ^ 32) s.ropePoint)
    else .next (s.modRope (fun r => { r with syncAt := s.now }))

/-- ROPE_JOIN_TIMEOUT: 100 ms (R394, log 1). -/
def execRopeJoinTimeout (s : State) : Out :=
  s.inPower <|
  match s.rope.joinAt with
  | none => .next s
  | some t =>
    let s := (s.reach (t + 100 * msNclk)).modRope (fun r => { r with list := [] })
    .next ((s.setReg PWR_ROPE_STAT 0).endJoin stFabricUnreachable 0)

end Sys2Proof.Machine
end

