-- ==== Sys2Proof/Machine/Weights.lean ====
section
/-!
DEFINITION. Resident weights: WEIGHT_LOAD, WEIGHT_UNLOAD, and the placing of a recorded load on a core (R52, R67, R128, R301,
R408 to R410).
-/

namespace Sys2Proof.Machine

/-! ## Placement (R301, log 28) -/

/-- The (N-block, K-block) pairs that logical core `i` uses, in order of first use. -/
def State.coreBlocks (s : State) (l : Layer) (i : Nat) : List (Nat × Nat) :=
  let d := l.desc
  let nb := nBlocks l.n
  let kb := kBlocks (s.layerCfg d) l.k
  let sz := d.ledgeSize l.m nb kb
  let deals := if d.plist then s.dealsOf l else (d.ledgeTiles l.m nb kb sz.1 sz.2.1 sz.2.2).map d.coreTiles
  (deals.flatMap (fun ts => (shareOf (d.deal l.cores ts) i).flatMap (fun t =>
    (List.range t.nl).flatMap (fun j => (List.range t.kl).map (fun k => (t.n0 + j, t.k0 + k)))))).eraseDups

/-- First page of a WM handle in every macro. -/
def Handle.firstPage (h : Handle) : Nat := h.base % 2 ^ 17 / 1024

/-- Pages per macro that `n` blocks and their scales take. -/
def blockPages (a : ArrayCfg) (n : Nat) : Nat := n * a.pages + ceilDiv (n * a.segs) 16

/-- Bytes of a source handle: those fetched ahead from another device, or a read of this device's memory. -/
def State.sourceRead (s : State) (h : Handle) (ahead : Option (List Byte)) (off n : Nat) : Nat × List Byte × State :=
  if n = 0 then (stOk, [], s)
  else if !h.covers off n then (stShapeInvalid, [], s)
  else
    match ahead with
    | some b => (stOk, (b.drop off).take n, s)
    | none =>
      if !(h.mem == memLedge || h.mem == memTier1 || h.mem == memTier2) then (stBadField, [], s)
      else match s.devRead (h.base + off) n with
        | .ok b t => (stOk, b, t)
        | .wait t => (stUncorrectable, [], t)
        | .fail st t => (st, [], t)

/-- Ranges of a source read in order, until one fails. -/
def State.sourceRanges (h : Handle) (ahead : Option (List Byte)) : List (Nat × Nat) → State → Nat × List (List Byte) × State
  | [], s => (stOk, [], s)
  | r :: rs, s =>
    let x := s.sourceRead h ahead r.1 r.2
    if x.1 ≠ stOk then (x.1, [], x.2.2)
    else
      let y := State.sourceRanges h ahead rs x.2.2
      (y.1, x.2.1 :: y.2.1, y.2.2)

/-- Page writes that land on a core, and when their pages were written. -/
def State.landAll (s : State) (p : Nat) (ws : List PageWrite) : State :=
  (mergeWrites ws).foldl (fun s w => s.modCore p (fun k =>
    { k.landPage w with scrubAt := Tab.set (fun _ => 0) k.scrubAt (pageKey w.mc w.page) s.now })) s

/-- A load that an invalid code or record stops: its address logged (R33). -/
def State.weightInvalid (s : State) (addr : Nat) : Nat × List (Nat × Nat) × State :=
  (stMetadataInvalid, [], s.logEvent 0x02 stMetadataInvalid (logSource 3 0) (BitVec.ofNat 64 addr))

/-- The sources of a weight load: handles, and what has been fetched ahead. -/
structure WSource where
  w : Handle
  wahead : Option (List Byte)
  r : Handle
  rahead : Option (List Byte)

/-- The weights of one block, block `idx` of the core's list, placed on core `p`. -/
def State.placeBlock (s : State) (p : Nat) (a : ArrayCfg) (k base : Nat) (src : WSource) (idx : Nat) (b : Nat × Nat) :
    Nat × List (Nat × Nat) × State :=
  let g : LdwGeom := ⟨src.w, k, 512 * b.1, b.2 * a.blockLen⟩
  let bcs := blockCols 1
  let rs := (bcs.flatMap (fun q => g.ranges a q.1 (g.n0 + q.2))).map (fun r => (r.off, r.n))
  let x := State.sourceRanges src.w src.wahead rs s
  if x.1 ≠ stOk then (x.1, [], x.2.2)
  else
    let pl := ldwPlan g a (base + idx * a.pages) 1 (cutData g a bcs x.2.1)
    let t := x.2.2.landAll p pl.writes
    match pl.bad with
    | some e => t.weightInvalid e
    | none => (stOk, pl.writes.map (fun w => (w.mc, w.page)), t)

/-- Its scales, in the scale pages behind the core's `n` blocks. -/
def State.placeScales (s : State) (p : Nat) (a : ArrayCfg) (k base n : Nat) (src : WSource) (idx : Nat) (b : Nat × Nat) :
    Nat × List (Nat × Nat) × State :=
  let ng := ceilDiv k a.group
  let g : ScaleGeom := ⟨src.r, k, ng, 512 * b.1, b.2 * a.segs⟩
  let bcs := blockCols 1
  let rs := bcs.map (fun q =>
    let c := 4 * g.count a q.1 (g.n0 + q.2)
    (if c = 0 then 0 else g.off a q.1 (g.n0 + q.2), c))
  let x := State.sourceRanges src.r src.rahead rs s
  if x.1 ≠ stOk then (x.1, [], x.2.2)
  else
    let data := (bcs.zip x.2.1).map (fun e => (e.1.1, e.1.2, e.2))
    let pl := (x.2.2.core p).scalePlan g a (16 * (base + n * a.pages) + a.segs * idx) (base + idx * a.pages) 1 data
    let t := x.2.2.landAll p pl.writes
    match pl.bad with
    | some e => t.weightInvalid e
    | none => if pl.status = stOk then (stOk, pl.writes.map (fun w => (w.mc, w.page)), t) else (pl.status, [], t)

/-- Blocks in order, until one fails; the pages written. -/
def placeEach (f : State → Nat → Nat × Nat → Nat × List (Nat × Nat) × State) (bs : List ((Nat × Nat) × Nat)) (s : State) :
    Nat × List (Nat × Nat) × State :=
  bs.foldl (fun acc b =>
    if acc.1 ≠ stOk then acc
    else
      let r := f acc.2.2 b.2 b.1
      (r.1, acc.2.1 ++ r.2.1, r.2.2)) (stOk, [], s)

/-- The weights and scales of a layer for logical core `i`, placed on physical core `p` through a WM handle: a status, and
the pages written. -/
def State.placeCore (s : State) (h : Handle) (l : Layer) (src : WSource) (i p : Nat) : Nat × List (Nat × Nat) × State :=
  let a := s.layerCfg l.desc
  let bs := s.coreBlocks l i
  let ibs := bs.zip (List.range bs.length)
  let base := h.firstPage
  let need := blockPages a bs.length
  if h.wmPages < need ∨ 128 < base + need then (stShapeInvalid, [], s)
  else if (List.range 16).any (fun mc => let st := (s.core p).groupSt p (16 + mc); st == 2 || st == 3) && !bs.isEmpty then (stStateRefused, [], s)
  else
    let x := placeEach (fun s idx b => s.placeBlock p a l.k base src idx b) ibs s
    if x.1 ≠ stOk then x
    else
      let y := placeEach (fun s idx b => s.placeScales p a l.k base bs.length src idx b) ibs x.2.2
      (y.1, (x.2.1 ++ y.2.1).eraseDups, y.2.2)

/-! ## WEIGHT_LOAD -/

/-- WEIGHT_LOAD's reads and checks. -/
def weightChecks : Checks := fun e s =>
  let h := s.handle (e.word 1 % 256)
  let cs := s.addrChecks e 0 true false ++ [okField 1 0 (h.valid && h.mem == memWm)]
  match firstBad cs with
  | some _ => .done cs [] s
  | none =>
    match s.readLayer e.src (e.word 0) with
    | .wait t => .wait t
    | .fail st t => .done [(wordAt 0 0, st, false)] [] t
    | .ok (st, d) t =>
      if st ≠ stOk then .done [(wordAt 0 0, st, false)] [] t
      else if t.consumerHeld [Desc.hnd d 2, Desc.hnd d 3] t.nextCmd then .wait t
      else
        let own := [descOk 0x008 (!(Desc.prec d).stoch), descOk 0x032 (ldwFormat (t.layerCfg d) (t.handle (Desc.hnd d 2))),
          descOk 0x033 ((t.handle (Desc.hnd d 3)).layout == 0)]
        .done (t.descChecks d ++ own) d t

/-- What a weight load reads from another device first. -/
def State.aheadOf (s : State) (src : Src) (h : Handle) : Reach (Option (List Byte)) :=
  if h.mem ≠ memRemote then .ok none s
  else match s.cpRead (s.issuerOf src) h.devid h.base (64 * h.length) with
    | .ok b t => .ok (some b) t
    | .wait t => .wait t
    | .fail st t => .fail st t

/-- Every core of a layer loaded through a WM handle: pages as (logical core, page key, CRC-32). -/
def State.placeAll (s : State) (h : Handle) (l : Layer) (src : WSource) : Nat × List (Nat × Nat × W32) × State :=
  (List.range l.cores).foldl (fun acc i =>
    if acc.1 ≠ stOk then acc
    else match acc.2.2.physOf i with
      | none => acc
      | some p =>
        let r := acc.2.2.placeCore h l src i p
        (r.1, acc.2.1 ++ r.2.1.map (fun w => (i, pageKey w.1 w.2, ((r.2.2.core p).page w.1 w.2).crc)), r.2.2)) (stOk, [], s)

/-- Pages that a weight load writes, the total of its progress. -/
def State.weightTotal (s : State) (l : Layer) : Nat :=
  16 * ((List.range l.cores).map (fun i => blockPages (s.layerCfg l.desc) (s.coreBlocks l i).length)).sum

/-- The first of the pages of a handle that core `p` fills with `n` blocks which an unfinished pass still senses, and the groups of its
macros that are in retention or waking. -/
def CoreState.loadBlocked (a : ArrayCfg) (h : Handle) (n p : Nat) (k : CoreState) : Bool × List Nat :=
  ((List.range (blockPages a n)).any (fun i => k.senses (h.firstPage + i)),
   if n = 0 then [] else ((List.range 16).map (16 + ·)).filter (fun g => k.groupSt p g == 1 || k.groupSt p g == 4))

/-- A weight load waits: a core has a pass that senses one of its pages, each try a counted cycle (R65), or macros in retention, which it
wakes, or waking (R198). None when it may write. -/
def State.loadWaits (s : State) (h : Handle) (l : Layer) : Option State :=
  let cs := (List.range l.cores).filterMap (fun i => (s.physOf i).map (fun p =>
    (p, (s.core p).loadBlocked (s.layerCfg l.desc) h (s.coreBlocks l i).length p)))
  if cs.all (fun c => !c.2.1 && c.2.2.isEmpty) then none
  else some (cs.foldl (fun s c =>
    let s := if c.2.1 then s.cbump c.1 CORE_ARR_STALL 1 else s
    if c.2.2.isEmpty then s else s.modCore c.1 (fun k => k.wakeGroups c.1 c.2.2)) s)

/-- The sources of a weight load on this device wait for atomic operations before it. -/
def State.sourceWaits (s : State) (hs : List Handle) : Bool := hs.any (fun h => h.mem != memRemote && s.atomFirst h.base (64 * h.length))

/-- WEIGHT_LOAD with its sources and its layer read: every core's pages written, the handle RESIDENT. -/
def State.loadWeights (s : State) (e : Entry) (ws : WSource) (l : Layer) : Ran :=
  let d := e.copy
  let n := e.word 1 % 256
  let r := s.start e unitPages (s.weightTotal l)
  let id := r.1
  match r.2.shapeBad d l.m l.n l.k l.cores (s.dealsOf l) with
  | some det => .done (r.2.conclude id stShapeInvalid det 0)
  | none =>
    match s.loadWaits (s.handle n) l with
    | some t => .hold t
    | none =>
      let s := r.2.modCmd id (fun x => { x with uses := s.withNext [Desc.hnd d 2, Desc.hnd d 3, n] })
      let h := s.handle n
      let x := s.placeAll h l ws
      let t := x.2.2.modCmd id (fun y => { y with done := x.2.1.length, wrote := !x.2.1.isEmpty })
      if x.1 ≠ stOk then
        let t := if x.2.1.isEmpty then t else t.raise id 128
        let t := if x.1 = stMetadataInvalid then t.violation 13 (srcSource e.src) else t
        .done (t.conclude id x.1 0 x.2.1.length)
      else
        let t := (t.setHandles n { h with resident := true }).dropWloads n
        let t : State := { t with wloads := t.wloads ++ [⟨n, id, d, x.2.1⟩] }
        let t := if Desc.pred d then t.notePred d n else t
        .done (t.conclude id stOk 0 x.2.1.length)

/-- WEIGHT_LOAD past check 7: what its sources on other devices hold is fetched, the bounds are read. -/
def opWeightLoad : Body := fun e s =>
  let d := e.copy
  let hw := s.handle (Desc.hnd d 2)
  let hr := s.handle (Desc.hnd d 3)
  let ended (t : State) (st det : Nat) : Ran :=
    let r := t.start e unitPages 0
    .done (r.2.conclude r.1 st det 0)
  if s.sourceWaits [hw, hr] then .hold s
  else
    match s.aheadOf e.src hw with
    | .wait t => .hold t
    | .fail st t => ended t st 0
    | .ok a t =>
      match t.aheadOf e.src hr with
      | .wait t => .hold t
      | .fail st t => ended t st 0
      | .ok b t =>
        match t.readBounds (d.drop 0x100) with
        | .wait t => .hold t
        | .bad st i t => ended t st (if st = stBadField then descDetail (0x100 + 8 * i) else 0)
        | .ok vs t =>
          match t.readEntries e.src d with
          | .wait t => .hold t
          | .fail st t => ended t st 0
          | .ok es t => t.loadWeights e ⟨hw, a, hr, b⟩ (t.sizedLayer d 0 vs es)

/-- WEIGHT_LOAD. -/
def execWeightLoad (src : Src) (s : State) : Out :=
  s.keepEdge <| s.keepFabric <| s.keepMem <|
  .next (s.stage2 0x20 src weightChecks opWeightLoad)

/-! ## WEIGHT_UNLOAD -/

/-- The pages of a WM handle on a core, by key: every page that the handle covers and that is not EMPTY. -/
def CoreState.handlePages (k : CoreState) (h : Handle) : List (Nat × Nat) :=
  (List.range 16).flatMap (fun mc => (List.range (min h.wmPages (128 - h.firstPage))).filterMap (fun i =>
    if (k.page mc (h.firstPage + i)).st = .empty then none else some (mc, h.firstPage + i)))

/-- A page made EMPTY. -/
def CoreState.emptyPage (k : CoreState) (mc page : Nat) : CoreState :=
  let k := (List.range 256).foldl (fun k r => k.setWmRow mc page r 0) k
  k.setPage mc page PageEntry.reset

/-- Every core's pages of a handle made EMPTY, counted. -/
def State.emptyHandle (s : State) (h : Handle) : Nat × State :=
  (List.range 72).foldl (fun acc p =>
    if acc.2.coreSt p ≠ 0 then acc
    else
      let ps := (acc.2.core p).handlePages h
      (acc.1 + ps.length, acc.2.modCore p (fun k => ps.foldl (fun k w => k.emptyPage w.1 w.2) k))) (0, s)

/-- WEIGHT_UNLOAD past check 7: the pages EMPTY, the handle free, prediction on again for its layers (R301). -/
def opWeightUnload : Body := fun e s =>
  let n := e.word 0 % 256
  let r := s.emptyHandle (s.handle n)
  let t : State := { r.2.freeHandle n with preds := r.2.preds.map (fun p =>
    if p.handles.contains n then { p with off := false, inactive := 0, misses := 0, queue := [] } else p) }
  .done (t.short e stOk 0 r.1)

/-- WEIGHT_UNLOAD. -/
def execWeightUnload (src : Src) (s : State) : Out :=
  s.keepEdge <| s.keepFabric <| s.keepMem <|
  .next (s.stage2 0x21 src (fields (fun e s =>
    let h := s.handle (e.word 0 % 256)
    [okField 0 0 (h.valid && h.mem == memWm)])) opWeightUnload)

/-! ## Recorded loads placed again (R408, R410) -/

/-- The source of a recorded load as it is now: what lies on another device is not fetched again (log 28). -/
def State.recordSource (s : State) (d : Desc) : WSource := ⟨s.handle (Desc.hnd d 2), none, s.handle (Desc.hnd d 3), none⟩

/-- The layer of a recorded load. -/
def State.recordLayer (s : State) (w : WLoad) : Layer := s.peekLayer .usb w.desc

/-- A spare refilled from the recorded loads of logical core `i`: a page whose CRC-32 differs is FAULTY (R410). -/
def State.refill (s : State) (i p : Nat) : State :=
  s.wloads.foldl (fun s w =>
    let l := s.recordLayer w
    let r := s.placeCore (s.handle w.handle) l (s.recordSource w.desc) i p
    r.2.1.foldl (fun s q =>
      let k := s.core p
      let crc := (w.pages.find? (fun e => e.1 == i && e.2.1 == pageKey q.1 q.2)).map (·.2.2)
      if crc = some (k.page q.1 q.2).crc then s else s.markFaulty p q.1 q.2 1) r.2.2) s

/-- Some core has a macro in retention or waking that a recorded load fills: it is woken first. None when none has. -/
def State.recordsWait (s : State) : Option State :=
  s.wloads.findSome? (fun w => s.loadWaits (s.handle w.handle) (s.recordLayer w))

/-- Every RESIDENT handle placed again for the present core count (R408). -/
def State.replaceAll (s : State) : State :=
  s.wloads.foldl (fun s w =>
    let h := s.handle w.handle
    let s := (s.emptyHandle h).2
    let l := s.recordLayer w
    let r := s.placeAll h l (s.recordSource w.desc)
    { r.2.2 with wloads := r.2.2.wloads.map (fun x => if x.handle = w.handle then { x with pages := r.2.1 } else x) }) s

end Sys2Proof.Machine
end

