-- ==== Sys2Proof/Machine/Reliability.lean ====
section
/-!
DEFINITION. Fencing, spares, cairn records, heartbeats, the replacement of processors, patrols, self-test, repair, core
reset, renumbering, and the deferred commands that a state change lets go (R5, R13, R19, R203, R204, R208, R296, R402 to R408,
R415, R423, R424, R429).
-/

namespace Sys2Proof.Machine

/-! ## Fencing (R405, R406) -/

/-- The spares that may replace core `c`: those of its own die while it has one free (R13). -/
def State.sparesFor (s : State) (c : Nat) : List Nat :=
  let free := (List.range 72).filter (fun p => s.coreSt p == 1)
  let near := free.filter (fun p => dieOf p == dieOf c)
  if near.isEmpty then free else near

/-- The spare taken: the one named, where it may be taken; else the lowest. -/
def State.pickSpare (s : State) (c : Nat) (want : Option Nat) : Option Nat :=
  match want with
  | some p => if (s.sparesFor c).contains p then some p else (s.sparesFor c).head?
  | none => (s.sparesFor c).head?

/-- CORE_ID.STATE and LOGICAL written. -/
def State.setId (s : State) (c st lg : Nat) : State :=
  (s.modCore c (fun k => (k.setFld c CORE_ID 17 16 st).setFld c CORE_ID 14 8 lg))

/-- A cairn record (R407). -/
def cairnRecord (cause logical succ boots status : Nat) : Nat :=
  1 + cause % 4 * 2 + logical % 128 * 2 ^ 3 + succ % 128 * 2 ^ 10 + boots % 2 ^ 15 * 2 ^ 17 + status % 256 * 2 ^ 32

/-- The lowest logical number in service other than `i`. -/
def State.survivor (s : State) (i : Nat) : Option Nat := (List.range 64).find? (fun j => j != i && (s.physOf j).isSome)

/-- Dispatches that wait for a logical number without a core go behind those of a survivor (R410). -/
def State.moveWaiting (s : State) (i : Nat) : State :=
  match s.survivor i with
  | none => s
  | some j =>
    let w (d : Dispatch) : Bool := d.st == 0 && d.logical == i
    { s with disp := s.disp.filter (fun d => !w d) ++ (s.disp.filter w).map (fun d => { d with logical := j }) }

/-- A core is fenced (R5, R13, R406): requests that wait at its router are refused, CORE_ID and GLB_CORES are updated, the
fence is recorded, and what the commands lose is replayed. The core keeps its registers; nothing of it runs. -/
def State.fence (s : State) (c cause : Nat) (want : Option Nat) : State :=
  let s : State := { s with
    fenceDue := s.fenceDue.filter (fun e => e.1 != c), sparing := s.sparing.filter (fun x => x.spare != c) }
  if s.coreSt c = 2 then s
  else
    let k := s.core c
    let served := s.coreSt c == 0
    let lg := if served then s.logicalOf c else 0x7F
    let succ := if served then s.pickSpare c want else none
    let st := if cause = 1 then stUncorrectable else 0
    let s := k.meshWait.foldl (fun s w => s.meshAnswer w.acc stStateRefused []) s
    let s := (s.cmds.filter (Cmd.waitsDebug c)).foldl (fun s x => s.conclude x.id stStateRefused s.dev 0) s
    let s := s.setCore c { CoreState.reset with regs := k.regs, repaired := k.repaired }
    let s := s.setId c 2 0x7F
    let s := s.setFld GLB_CORES 22 16 (s.fld GLB_CORES 22 16 + 1)
    let s := match succ with
      | some p => ((s.setId p 0 lg).modCore p (fun k => { k with joining := true })).setFld GLB_CORES 14 8 (s.fld GLB_CORES 14 8 - 1)
      | none => if served then s.setFld GLB_CORES 6 0 (s.active - 1) else s.setFld GLB_CORES 14 8 (s.fld GLB_CORES 14 8 - 1)
    let sn := succ.getD 0x7F
    let s := s.setReg RAS_FENCE (BitVec.ofNat 32 (min 255 (s.fld RAS_FENCE 31 24 + 1) * 2 ^ 24 + cause * 2 ^ 16 + sn * 2 ^ 8 + c))
    let s := s.logEvent 0x06 st (logSource 0 c) (BitVec.ofNat 64 (c + sn * 2 ^ 7 + cause * 2 ^ 14))
    let s : State := { s with
      cairnDue := s.cairnDue ++ [(c, cairnRecord cause lg sn (s.reg SEC_BOOTS).toNat st)],
      sparing := s.sparing ++ (match succ with
        | some p => [⟨p, lg, c, st⟩]
        | none => []),
      renumber := s.renumber || (served && succ.isNone) }
    let j := if succ.isSome then some lg else s.survivor lg
    let s := s.cmds.foldl (fun s x => s.loseCore x c lg stUncorrectable k j) s
    let s := if served && succ.isNone then s.moveWaiting lg else s
    s.pump.settleCmds.settleDev

/-- CORE_FENCE: a core whose fence is due; after a tile's fault, once it is reported (R214). -/
def execCoreFence (c cause : Nat) (spare : Option Nat) (s : State) : Out :=
  s.keepEdge <| s.keepFabric <|
  if s.fenceDue.contains (c, cause) ∧ (s.core c).fault.isNone then .next (s.fence c cause spare) else .next s

/-- A spare that enters service: as a core after a core reset, with the handle table and the work lists, at the present
point (R199, R406). -/
def CoreState.entering (c now n : Nat) (k : CoreState) : CoreState :=
  let kept (off : Nat) : Bool := off == CORE_ID || (decide (0x10000 ≤ off) && decide (off < 0x11000))
    || (decide (0x30000 ≤ off) && decide (off < 0x31000)) || off == CORE_SPM_SPARES || off == CORE_CLK
  ({ CoreState.reset with regs := k.regs.filter (fun r => kept r.1), repaired := k.repaired, idleSince := now }).setFld c CORE_CLK
    20 16 n

/-- SPARE_IN_SERVICE: the spare passes its quick test, is refilled and takes what waits for it; or is fenced in turn. -/
def execSpareInService (c : Nat) (pass : Bool) (s : State) : Out :=
  s.keepEdge <| s.keepFabric <|
  match s.sparing.find? (fun x => x.spare == c) with
  | none => .next s
  | some x =>
    if pass then
      let s : State := { s with sparing := s.sparing.filter (fun y => y.spare != c) }
      let s := s.setCore c ((s.core c).entering c s.now (opN s.opNow))
      .next (((s.refill x.logical c).receiveAgain x.fenced c).pump.settleCmds)
    else .next (s.fence c 2 none)

/-- CAIRN_PROGRAM: the MP writes a cairn record into OTP (R407). -/
def execCairnProgram (c : Nat) (s : State) : Out :=
  s.inRegs <|
  match s.cairnDue.find? (fun x => x.1 == c) with
  | none => .next s
  | some x =>
    if s.mpDown then .next s
    else
      .next (({ s with cairnDue := s.cairnDue.filter (fun y => y.1 != c) } : State).setPair (RAS_CAIRN c 0) (RAS_CAIRN c 1) x.2)

/-! ## Heartbeats (R405) -/

/-- Command processor `cp` has dispatched to core `c`. -/
def State.dispatchedBy (s : State) (cp c : Nat) : Bool :=
  s.disp.any (fun d => d.st == 1 && d.phys == c && (match s.cmd d.cmd with
    | some x => s.issuerOf x.src == 96 + cp
    | none => false))

/-- HEARTBEAT_POLL: POLL_US have passed since the last (log 1); the responder answers, or a poll is missed. -/
def execHeartbeatPoll (cp c : Nat) (answered : Bool) (s : State) : Out :=
  s.inRegs <|
  if !s.cpServing cp || !s.dispatchedBy cp c || s.coreSt c != 0 then .next s
  else
    let last := Tab.get (fun _ => 0) s.polled c
    let s := s.reach (last + max 1 (s.fld RAS_WDOG 15 0) * usNclk)
    let n := if answered then 0 else Tab.get (fun _ => 0) s.polls c + 1
    .next { s with polls := Tab.set (fun _ => 0) s.polls c n, polled := Tab.set (fun _ => 0) s.polled c s.now }

/-- HEARTBEAT_MISS: MISS polls in a row; the fence takes effect at once. -/
def execHeartbeatMiss (c : Nat) (spare : Option Nat) (s : State) : Out :=
  s.keepEdge <| s.keepFabric <|
  if s.coreSt c = 0 ∧ max 1 (s.fld RAS_WDOG 19 16) ≤ Tab.get (fun _ => 0) s.polls c then
    .next (({ s with polls := Tab.set (fun _ => 0) s.polls c 0 } : State).fence c 3 spare)
  else .next s

/-! ## Processors (R402, R415) -/

/-- A device-level fault; a join under way fails (R293, R394). -/
def State.enterFaulted (s : State) (cause : Nat) : State := (s.devFault cause).refuseJoin 3

/-- CP_WATCHDOG_EXPIRY: the command processor is failed; CP4, or the lowest that runs, takes its queues. -/
def execCpWatchdogExpiry (cp : Nat) (s : State) : Out :=
  s.inPower <|
  if 4 < cp ∨ ¬ s.cpServing cp then .next s
  else
    let s := s.setFld RAS_CP (3 * cp + 2) (3 * cp) 2
    let next := if s.fld RAS_CP 14 12 = 1 then some 4 else (List.range 5).find? s.cpServing
    match next with
    | none => .next (s.enterFaulted 2)
    | some n =>
      let s := s.setFld RAS_CP (3 * n + 2) (3 * n) 0
      let serve := (List.range 4).foldl (fun t q =>
        if Tab.get (fun i => i) t q = cp then Tab.set (fun i => i) t q n else t) s.serve
      .next (({ s with serve := serve } : State).logEvent 0x09 0 (logSource 2 cp) (BitVec.ofNat 64 (cp + n * 8)))

/-- MP_FAULT: the MP stops while the planes go on; once its firmware is loaded it runs again, else the device is FAULTED and
the MP stays in reset (R17, R402). -/
def execMpFault (event : MpEvent) (s : State) : Out :=
  s.inPower <|
  match event with
  | .stops => if s.mpDown ∨ s.bootStep < 3 then .next s else .next (State.mpMail { s with mpDown := true, mpReload := true })
  | .reloaded => if s.mpReload then .next { s with mpDown := false, mpReload := false } else .next s
  | .reloadFails => if s.mpReload then .next (({ s with mpReload := false } : State).enterFaulted 4) else .next s

/-! ## Patrol (R403, R404) -/

/-- The patrol engines (log 37): a core's, a ledge die's, tier 1's, tier 2's. -/
def patrolSource (e : Nat) : Nat := logSource 13 e

/-- An uncorrectable row found. -/
def State.patrolUe (s : State) (e a : Nat) : State :=
  (s.bump RAS_SCRUB_UE 1).logEvent 0x03 stUncorrectable (patrolSource e) (BitVec.ofNat 64 a)

/-- The patrol of a range of device memory that is ECC units: corrected units are written back. -/
def State.patrolMem (s : State) (e a n : Nat) : State :=
  let us := s.eccUnits a n
  let bad := us.any (fun u => s.unitErr a u != 0 && !correctable (s.unitErr a u))
  let ce := us.filter (fun u => correctable (s.unitErr a u))
  let s := match s.eccReg a with
    | some r => s.bumpFld r 15 0 ce.length
    | none => s
  let s := ce.foldl (fun s u => s.setUnitErr a u 0) (s.noteLedge a ce)
  if bad then s.patrolUe e a else s

/-- The patrol of a row of AM or PM. -/
def State.patrolSpm (s : State) (c : Nat) (m : SpmMem) (row : Nat) : State :=
  let k := s.core c
  let ws := (List.range 8).map (fun i => 8 * row + i)
  let err (w : Nat) : W64 := Tab.get noErr (k.errs m) w
  let bad := ws.any (fun w => err w != 0 && !correctable (err w))
  let ce := ws.filter (fun w => correctable (err w))
  let k' := ce.foldl (fun k w => k.setSpm m (k.bytes m) (Tab.set noErr (k.errs m) w 0)) k
  let s := s.setCore c (k'.bumpFld c CORE_SPM_ECC 15 0 ce.length)
  let s := ce.foldl (fun s _ => s.noteRowError c (match m with
    | .am => 0
    | .pm => 1) row) s
  if bad then s.patrolUe c (row * 64) else s

/-- PATROL_SCRUB_ROW: a row of a memory whose patrol runs. -/
def execPatrolScrubRow (r : PatrolRow) (s : State) : Out :=
  s.keepEdge <| s.keepFabric <| s.keepPower <|
  let cfg := s.reg RAS_SCRUB_CFG
  match r with
  | .spm c m row =>
    if cfg.getLsbD 29 && decide (c < 72) && s.coreSt c == 0 && decide (row < 16384)
        && (s.core c).groupSt c (spmGroup m (64 * row)) == 0 then .next (s.patrolSpm c m row)
    else .next s
  | .ledge die row =>
    if cfg.getLsbD 30 && decide (die < 2) && decide (row < 1048576) then
      .next (s.patrolMem (72 + die) (0x8000000000 + die * 0x4000000 + 64 * row) 64)
    else .next s
  | .tier1 row =>
    if cfg.getLsbD 31 && decide (64 * row < 0x2D00000000) then .next (s.patrolMem 74 (64 * row) 64) else .next s
  | .tier2 row =>
    if cfg.getLsbD 31 && decide (64 * row < s.tier2Bytes) then .next (s.patrolMem 75 (0x20000000000 + 64 * row) 64)
    else .next s

/-- PATROL_OVERRUN: logged once per sweep. -/
def execPatrolOverrun (engine age : Nat) (s : State) : Out :=
  s.inRegs <|
  .next (s.logEvent 0x04 0 (patrolSource (engine % 2 ^ 12)) (BitVec.ofNat 64 age))

/-! ## Repair (R203, R204, R208) -/

/-- The bank or page of a candidate, by kind: a bank of AM or PM, a page of WM for rows, for columns. -/
def RepairCand.place (r : RepairCand) : Nat :=
  if r.kind < 2 then r.index / 1024 else if r.kind = 2 then r.index / 256 else r.index / 32

/-- Repairs of a kind that a core has had in a bank or page. -/
def CoreState.repairsIn (k : CoreState) (kind place : Nat) : Nat :=
  (k.repaired.filter (fun r => r.kind == kind && r.place == place)).length

/-- Free spares that the fuses leave in every bank or page (log 4): for a column, 1 or 0. -/
def fusedSpares (kind : Nat) : Nat :=
  match kind with
  | 0 => regField Config.spmSpares 31 24
  | 1 => regField Config.spmSpares 23 16
  | 2 => regField Config.spmSpares 15 8
  | _ => if regField Config.spmSpares 7 0 = 0 then 0 else 1

/-- CORE_SPM_SPARES follows the repairs. -/
def CoreState.showSpares (c : Nat) (k : CoreState) : CoreState :=
  let worst (kind : Nat) : Nat := (k.repaired.filter (fun r => r.kind == kind)).foldl (fun m r => max m (k.repairsIn kind r.place)) 0
  let cols := (k.repaired.filter (fun r => r.kind == 3)).length
  k.setReg c CORE_SPM_SPARES (BitVec.ofNat 32 ((fusedSpares 0 - worst 0) * 2 ^ 24 + (fusedSpares 1 - worst 1) * 2 ^ 16
    + (fusedSpares 2 - worst 2) * 2 ^ 8 + min 255 ((16 * regField Config.spmSpares 7 0 - cols) / 16)))

/-- The content of a repaired row or column lies in its spare, corrected. -/
def CoreState.mend (k : CoreState) (r : RepairCand) : CoreState :=
  let k := { k with rowErrs := k.rowErrs.filter (fun e => e.1 != errKey r.kind r.index) }
  let spm (m : SpmMem) : CoreState := (List.range 8).foldl (fun k i =>
    let w := 8 * r.index + i
    if correctable (Tab.get noErr (k.errs m) w) then k.setSpm m (k.bytes m) (Tab.set noErr (k.errs m) w 0) else k) k
  match r.kind with
  | 0 => spm .am
  | 1 => spm .pm
  | 2 => if isPow2 (Tab.get noErr k.wmErr r.index).toNat then { k with wmErr := Tab.set noErr k.wmErr r.index 0 } else k
  | _ => (List.range 256).foldl (fun k i =>
      let w := r.index / 32 * 256 + i
      if Tab.get noErr k.wmErr w = BitVec.twoPow 64 (r.index % 32) then { k with wmErr := Tab.set noErr k.wmErr w 0 } else k) k

/-- One candidate of a core repaired, or left pending with the attempt logged (R204). -/
def State.repairOne (s : State) (c : Nat) (r : RepairCand) : Bool × State :=
  let k := s.core c
  if k.repairsIn r.kind r.place < fusedSpares r.kind ∧ s.fieldRepairs < 1024 then
    let k := { k.mend r with repaired := k.repaired ++ [r], repairs := k.repairs.filter (· != r) }
    let s : State := { s.setCore c (k.showSpares c) with fieldRepairs := s.fieldRepairs + 1 }
    (true, s.logEvent 0x05 0 (logSource 0 c) (BitVec.ofNat 64 r.index))
  else (false, s.logEvent 0x05 0 (logSource 0 c) (BitVec.ofNat 64 (2 ^ 63 + r.index)))

/-- The candidates of a core at a quiescent point. -/
def State.repairCore (s : State) (c : Nat) : Nat × State :=
  (s.core c).repairs.foldl (fun acc r =>
    let x := acc.2.repairOne c r
    (acc.1 + x.1.toNat, x.2)) (0, s)

/-- Ledge row `r` lies in a bank of a die (R205). -/
def State.inBank (s : State) (die bank r : Nat) : Bool :=
  match s.addrKind (64 * r) with
  | .ledge d off => d == die && off / 64 % 32 == bank
  | _ => false

/-- A ledge bank is to be replaced: its row spares are exhausted and it has a new repair candidate (R208; log 51). -/
def State.bankDue (s : State) (die bank : Nat) : Bool :=
  decide (Config.ledgeRowSpares (32 * die + bank)
    < (s.ledgeRows.filter (fun e => s.inBank die bank e.1 && decide (Config.ledgeRepairThr ≤ e.2))).length)

/-- A ledge bank replaced (R208): corrected words copied, uncorrectable ones written 0 and logged. Whether it was, whether a
word was hit. -/
def State.replaceBank (s : State) (die bank : Nat) : Bool × Bool × State :=
  let r := MEM_LDG_STAT die
  let source := logSource 7 (32 * die + bank)
  if s.fld r 3 0 = 0 ∨ 1024 ≤ s.fieldRepairs then
    (false, false, s.logEvent 0x05 0 source (BitVec.ofNat 64 (2 ^ 63 + 32 * die + bank)))
  else
    let mine (w : Nat) : Bool := s.inBank die bank (w / 8)
    let hit := s.ledgeErr.filter (fun e => mine e.1 && e.2 != 0 && !correctable e.2)
    let s : State := { s with
      ledgeErr := s.ledgeErr.filter (fun e => !mine e.1), fieldRepairs := s.fieldRepairs + 1
      ledgeRows := s.ledgeRows.filter (fun e => !s.inBank die bank e.1) }
    let s := hit.foldl (fun s e =>
      ({ s with dmem := Mem.write s.dmem (8 * e.1) (List.replicate 8 0) } : State).logEvent 0x02 stUncorrectable source
        (BitVec.ofNat 64 (8 * e.1))) s
    let s := (s.setFld r 3 0 (s.fld r 3 0 - 1)).setFld r 7 4 (s.fld r 7 4 + 1)
    let s := (s.setFld r 12 8 bank).setFld r 31 31 (!hit.isEmpty).toNat
    (true, !hit.isEmpty, s.logEvent 0x05 0 source (BitVec.ofNat 64 (32 * die + bank)))

/-- A ROW_REPAIR under way. Each core that it still names and that is quiet is repaired, by itself (R203); a bank is looked at
once no core of its die has a tile program loaded, and replaced where that is due (R208). It ends when nothing is left. -/
def State.repairGo (s : State) (x : Cmd) : State :=
  let w := x.words.headD 0
  if w % 4 = 2 then
    let die := w / 4 % 128
    let bank := w / 2 ^ 9 % 32
    if (List.range 36).any (fun i => (s.core (die * 36 + i)).loaded) then s
    else
      let y := if s.bankDue die bank then s.replaceBank die bank else (false, false, s)
      let t := if y.2.1 then y.2.2.raise x.id 128 else y.2.2
      (t.modCmd x.id (fun y => { y with done := 1 })).conclude x.id stOk 0 y.1.toNat
  else
    let now := x.members.filter (fun c => (s.core c).quiet)
    let rest := x.members.filter (fun c => !(s.core c).quiet)
    let y := now.foldl (fun acc c =>
      let z := acc.2.repairCore c
      (acc.1 + z.1, z.2)) (0, s)
    let t := y.2.modCmd x.id (fun z => { z with
      members := rest, result := z.result + y.1
      done := if rest.isEmpty then z.total else z.done + (now.map (fun c => (s.core c).repairs.length)).sum })
    if rest.isEmpty then t.conclude x.id stOk 0 (x.result + y.1) else t

/-- ROW_REPAIR past its checks. -/
def opRowRepair : Body := fun e s =>
  let scope := e.word 0 % 4
  let cores := if scope = 0 then s.activeCores else if scope = 1 then [e.word 0 / 4 % 128] else []
  let r := s.start e unitPercent (if scope = 2 then 1 else (cores.map (fun c => (s.core c).repairs.length)).sum)
  .done (match (r.2.modCmd r.1 (fun y => { y with members := cores })).cmd r.1 with
    | some x => (r.2.modCmd r.1 (fun y => { y with members := cores })).repairGo x
    | none => r.2)

/-- The ROW_REPAIRs under way go on. -/
def State.repairsGo (s : State) : State :=
  (s.cmds.filter (fun x => x.op == 0x61 && !x.ended)).foldl State.repairGo s

/-- ROW_REPAIR: those under way go on, then one at stage 2 begins. -/
def execRowRepair (src : Src) (s : State) : Out :=
  s.keepEdge <| s.keepFabric <|
  .next (s.repairsGo.stage2 0x61 src (fields (fun e s =>
    let n := e.word 0 / 4 % 128
    [okField 0 0 (e.word 0 % 4 != 3),
     okField 0 2 (match e.word 0 % 4 with
       | 1 => decide (n < 72) && s.coreSt n == 0
       | 2 => decide (n < 2)
       | _ => true)])) opRowRepair)

/-! ## Core reset (R426, R429) -/

/-- A core after a core reset: configuration and counters cleared but for CORE_ID; handle table, work lists, AM, PM and WM
kept. -/
def CoreState.coreReset (c now : Nat) (k : CoreState) : CoreState :=
  { k.entering c now (k.fld c CORE_CLK 20 16) with
    am := k.am, pm := k.pm, amErr := k.amErr, pmErr := k.pmErr, wm := k.wm, wmErr := k.wmErr, pages := k.pages,
    imem := k.imem, bad := k.freshPlanes.bad, scrubAt := k.scrubAt, sweep := now, joining := k.joining }

/-- CORE_RESET. -/
def opCoreReset : Body := fun e s =>
  let c := e.word 0 % 128
  .done ((s.modCore c (·.coreReset c s.now)).short e stOk 0 0)

/-- CORE_RESET. -/
def execCoreReset (src : Src) (s : State) : Out :=
  s.keepEdge <| s.keepFabric <| s.keepMem <|
  .next (s.stage2 0x62 src (fields coreField) opCoreReset)

/-! ## Renumbering (R408) -/

/-- The lowest logical number below ACTIVE that no core holds takes the core with the highest number; as often as one is
missing. -/
def State.fillNumber (s : State) : State :=
  match (List.range s.active).find? (fun i => (s.physOf i).isNone) with
  | none => s
  | some i =>
    match (List.range 72).foldl (fun (m : Option Nat) c =>
        if s.coreSt c = 0 ∧ s.active ≤ s.logicalOf c ∧ ((m.map s.logicalOf).getD 0 ≤ s.logicalOf c) then some c else m) none with
    | none => s
    | some c => s.setId c 0 i

/-- CORE_RENUMBER: in READY or LOADED the numbers run from 0 to ACTIVE − 1 again, RESIDENT weights are placed again, and the
request lifts. -/
def execCoreRenumber (s : State) : Out :=
  s.keepEdge <| s.keepFabric <| s.keepMem <|
  if s.renumber ∧ (s.dev = devReady ∨ s.dev = devLoaded) then
    let t := (List.range 72).foldl (fun s _ => s.fillNumber) s
    match t.recordsWait with
    | some u => .next u
    | none => .next ({ t.replaceAll with renumber := false }.settleDev)
  else .next s

/-! ## Self-test (R423) -/

/-- The codes of units in event 0x13 (log 38): core, scratchpads of a core, ledge die, tier, port. -/
def State.testFailed (s : State) (unit : Nat) : State := s.logEvent 0x13 0 (logSource 3 0) (BitVec.ofNat 64 unit)

/-- A core's memories after a self-test: every page EMPTY, what AM, PM and ACM held destroyed (log 3). -/
def CoreState.tested (k : CoreState) (spads : Bool) : CoreState :=
  { k with
    am := [], pm := [], amErr := [], pmErr := [], wm := [], wmErr := [], pages := [], acm := [], acmErr := [],
    imem := if spads then [] else k.imem,
    bad := k.bad.filter (fun w => match w with
      | .handle _ => true
      | .imem _ => !spads
      | _ => false) }

/-- A scratchpad test that fails makes a repair candidate, its row free (log 38); with no spare the core is fenced. -/
def State.spadFailed (s : State) (c : Nat) : State :=
  let k := s.core c
  let r : RepairCand := ⟨0, (Config.freeBits 14 s.free).toNat⟩
  let s : State := { s with free := s.free + 1 }
  if fusedSpares 0 ≤ k.repairsIn 0 r.place then s.fence c 2 none
  else if k.repairs.length < 8 then
    (s.setCore c { k with repairs := k.repairs ++ [r] }).logEvent 0x01 0 (logSource 0 c) (BitVec.ofNat 64 r.index)
  else s.logEvent 0x01 0 (logSource 0 c) (BitVec.ofNat 64 (2 ^ 63 + r.index))

/-- A mask of the bits listed. -/
def maskOf (l : List Nat) : Nat := l.eraseDups.foldl (fun m i => m + 2 ^ i) 0

/-- SELF_TEST past its checks, with what it finds. -/
def opSelfTest (f : SelfTestResult) : Body := fun e s =>
  let sel (i : Nat) : Bool := (e.word 0).testBit i
  let cores := (List.range 64).filterMap (fun i => if (e.word 1).testBit i then s.physOf i else none)
  let ports := if sel 4 then (List.range 32).filter (fun p => s.portSt p == pUp) else []
  let pick (on : Bool) (all l : List Nat) : List Nat := if on then all.filter (l.contains ·) else []
  let fc := pick (sel 0) cores f.cores
  let fs := pick (sel 1) cores f.spads
  let fl := pick (sel 2) [0, 1] f.ledge
  let ft := pick (sel 3) [1, 2, 3] f.tiers
  let fp := pick (sel 4) ports f.ports
  let total := cores.length * ((sel 0).toNat + (sel 1).toNat) + 2 * (sel 2).toNat + 3 * (sel 3).toNat + ports.length
  let r := s.start e unitPercent total
  let s := if sel 0 || sel 1 then cores.foldl (fun s c => s.modCore c (·.tested (sel 1))) r.2 else r.2
  let s : State := if sel 2 then
      { s with dmem := s.dmem.filter (fun x => decide (x.1 < 0x8000000000) || decide (0x8008000000 ≤ x.1)), ledgeErr := [] }
    else s
  let s := (List.range 3).foldl (fun s k => s.setReg (RAS_ST_CORE k)
    (BitVec.ofNat 32 (maskOf ((fc ++ fs).filterMap (fun c => if c / 32 = k then some (c % 32) else none))))) s
  let s := s.setReg RAS_ST_PORT (BitVec.ofNat 32 (maskOf fp))
  let s := s.setReg RAS_ST_MISC (BitVec.ofNat 32 (maskOf (fl ++ ft.map (· + 1))))
  let s := fc.foldl (fun s c => (s.testFailed c).fence c 2 none) s
  let s := fs.foldl (fun s c => if s.coreSt c = 0 then (s.testFailed (128 + c)).spadFailed c else s.testFailed (128 + c)) s
  let s := fl.foldl (fun s d =>
    let b := (Config.freeBits 5 s.free).toNat
    (({ s with free := s.free + 1 } : State).testFailed (256 + d) |>.replaceBank d b).2.2) s
  let s := ft.foldl (fun s t => s.testFailed (260 + t)) s
  let s := fp.foldl (fun s p => (s.testFailed (264 + p)).degrade p) s
  .done ((s.modCmd r.1 (fun y => { y with done := total })).conclude r.1 stOk 0
    (fc.length + fs.length + fl.length + ft.length + fp.length))

/-- SELF_TEST: in MAINTENANCE only; the mask names logical cores in service. -/
def execSelfTest (src : Src) (failed : SelfTestResult) (s : State) : Out :=
  s.keepEdge <|
  .next (s.stage2 0x60 src (fields (fun e s => s.maskChecks e 1)) (opSelfTest failed))

/-! ## Deferred commands (R296) -/

/-- The body of an opcode that may be deferred; a self-test runs by its own command, which brings its findings. -/
def deferredBody (op : Nat) : Option Body :=
  match op with
  | 0x06 => some opMaintEnter
  | 0x07 => some opMaintExit
  | 0x11 => some opHandleFree
  | 0x12 => some opHandleAttr
  | 0x20 => some opWeightLoad
  | 0x21 => some opWeightUnload
  | 0x30 => some opLayerRun
  | 0x31 => some opLayerChain
  | 0x32 => some opTileRun
  | 0x34 => some opWorklistFree
  | 0x52 => some opRopeJoin
  | 0x53 => some opRopeLeave
  | 0x61 => some opRowRepair
  | 0x62 => some opCoreReset
  | _ => none

/-- One deferred command, checked again. -/
def State.recheck (s : State) (e : Entry) : State :=
  match s.gate e with
  | .refuse =>
    let t := (s.popHead e.src).stateRefuse e
    (State.settleHead e.src t.fetched.length t).settleDev
  | .accept =>
    match deferredBody e.op with
    | some b => s.runBody e b
    | none => { s with fetched := s.fetched.map (fun x => if x = e then { e with passed := true } else x) }
  | _ => s

/-- Deferred commands that the state now accepts or refuses, in the order in which they were deferred; the first argument
bounds them. -/
def State.recheckAll : Nat → State → State
  | 0, s => s
  | n + 1, s =>
    match s.dueDeferred with
    | none => s
    | some e => State.recheckAll n (s.recheck e)

/-- DEFERRED_RECHECK. -/
def execDeferredRecheck (s : State) : Out :=
  s.keepEdge <| s.keepFabric <|
  .next (State.recheckAll s.fetched.length s)

end Sys2Proof.Machine
end

