-- ==== Sys2Proof/Machine/Boot.lean ====
section
/-!
DEFINITION. Resets, boot and pins: what each reset kind keeps (R425 to R428), the boot steps (R431, R432), power sequencing and
thermal trip (R391, R444, R445, R450), training and drive bring-up (R316, R320, R324), the host link and the service port's link
(R3, R285, R458).
-/

namespace Sys2Proof.Machine

/-! ## Cold reset (R426) -/

/-- Registers in OTP or flash. -/
def keptCold (a : Nat) : Bool :=
  [SEC_BOOTS, SEC_SVN, SEC_KEYSLOT, MEM_LDG_STAT 0, MEM_LDG_STAT 1].contains a
    || decide (SEC_IDHASH 0 ≤ a ∧ a ≤ SEC_IDHASH 7) || decide (RAS_CAIRN 0 0 ≤ a ∧ a ≤ RAS_CAIRN 71 1)

/-- A core after a cold reset: its field repairs only. -/
def CoreState.cold (c : Nat) (k : CoreState) : CoreState := ({ CoreState.reset with repaired := k.repaired } : CoreState).showSpares c

/-- The cores that cairn records fence. -/
def State.cairnFenced (s : State) : List Nat := (List.range 72).filter (fun c => (s.reg (RAS_CAIRN c 0)).getLsbD 0)

/-- The cairn records applied to CORE_ID, GLB_CORES and RAS_FENCE (R4, R407): a successor that is not fenced itself takes the
logical number; numbers run on without a gap (R408). -/
def State.applyCairn (s : State) : State :=
  let fenced := s.cairnFenced
  let s := fenced.foldl (fun s c => s.setId c 2 0x7F) s
  let s := fenced.foldl (fun s c =>
    let p := s.fld (RAS_CAIRN c 0) 16 10
    if p < 72 ∧ s.coreSt p = 1 then s.setId p 0 (s.fld (RAS_CAIRN c 0) 9 3) else s) s
  let count (st : Nat) : Nat := ((List.range 72).filter (fun c => s.coreSt c == st)).length
  let s := s.setReg GLB_CORES (BitVec.ofNat 32 (fenced.length * 2 ^ 16 + count 1 * 2 ^ 8 + count 0))
  let s := s.setFld RAS_FENCE 31 24 (min 255 fenced.length)
  fenced.foldl (fun s _ => s.fillNumber) s

/-- All four dies reset: the device is OFF. OTP, flash, tier-3 data and what lies outside the device are kept; memory that the
specification leaves undefined reads as unwritten (log 3). A fence whose cairn record is not yet in OTP is lost, as R407 says of
power, whatever the cause of the reset (log 39). -/
def State.coldReset (s : State) : State :=
  let t : State := { State.reset with
    pending := s.pending
    free := s.free
    hmem := s.hmem
    msixOut := s.msixOut
    fabOut := s.fabOut
    usbOut := s.usbOut
    usbNotes := s.usbNotes
    bar2Out := s.bar2Out
    readData := s.readData
    flash := s.flash
    selector := s.selector
    akGen := s.akGen
    fieldRepairs := s.fieldRepairs
    disks := s.disks
    regs := s.regs.filter (fun r => keptCold r.1)
    cores := (s.cores.filter (fun e => !e.2.repaired.isEmpty)).map (fun e => (e.1, e.2.cold e.1))
    boot := { BootState.reset with sysRstLow := s.boot.sysRstLow, perstLow := s.boot.perstLow, tripped := s.boot.tripped } }
  let t := (t.setFld (MEM_LDG_STAT 0) 31 31 0).setFld (MEM_LDG_STAT 1) 31 31 0
  t.applyCairn.setFld GLB_STATE 2 0 devOff

/-! ## Warm and soft reset (R426, R428) -/

/-- The handle entries of a core that a soft reset keeps: RETAIN entries, and the slots of an RLZ tensor whose headers are
kept. -/
def CoreState.retained (c : Nat) (k : CoreState) : List Nat :=
  (List.range 256).filter (fun n =>
    let h := k.tableHandle c n
    let r := if h.layout = 3 then k.tableHandle c (n - 1) else h
    h.valid && r.valid && r.retain)

/-- The entries of a table whose keys lie in one of the ranges. -/
def keepIn {α : Type} (rs : List (Nat × Nat)) (t : Tab α) : Tab α :=
  t.filter (fun e => rs.any (fun r => decide (r.1 ≤ e.1 ∧ e.1 < r.2)))

/-- A core after a soft reset: the contents under RETAIN handles are kept. -/
def CoreState.softened (c now n : Nat) (k : CoreState) : CoreState :=
  let kept := k.retained c
  let hs := kept.map (k.tableHandle c)
  let spm (m : SpmMem) (p : Nat) : Bool :=
    let o := spmOff (k.grouped c m) p
    hs.any (fun h => h.mem == (match m with
      | .am => memAm
      | .pm => memPm) && decide (h.base ≤ o ∧ o < h.base + 64 * h.length))
  let pages := (hs.filter (fun h => h.mem == memWm)).flatMap (fun h => (List.range 16).map (fun mc =>
    (pageKey mc h.firstPage, pageKey mc (min 128 (h.firstPage + h.wmPages)))))
  let rows := pages.map (fun r => (256 * r.1, 256 * r.2))
  ({ CoreState.reset with
    regs := k.regs.filter (fun r => r.1 == CORE_ID || r.1 == CORE_CLK || r.1 == CORE_SPM_SPARES
      || (decide (0x10000 ≤ r.1) && decide (r.1 < 0x11000) && kept.contains ((r.1 - 0x10000) / 16)))
    am := k.am.filter (fun e => spm .am e.1)
    amErr := k.amErr.filter (fun e => spm .am (8 * e.1))
    pm := k.pm.filter (fun e => spm .pm e.1)
    pmErr := k.pmErr.filter (fun e => spm .pm (8 * e.1))
    wm := keepIn rows k.wm
    wmErr := keepIn rows k.wmErr
    pages := keepIn pages k.pages
    bad := k.bad.filter (fun w => match w with
      | .handle h => kept.contains h
      | .page p => pages.any (fun r => decide (r.1 ≤ p ∧ p < r.2))
      | _ => false)
    scrubAt := keepIn pages k.scrubAt
    sweep := now
    repaired := k.repaired
    idleSince := now } : CoreState).setFld c CORE_CLK 20 16 n

/-- A core after a warm reset: nothing but its identity, its clock and its repairs. -/
def CoreState.warmed (c now n : Nat) (k : CoreState) : CoreState :=
  ({ CoreState.reset with
    regs := k.regs.filter (fun r => r.1 == CORE_ID || r.1 == CORE_CLK || r.1 == CORE_SPM_SPARES)
    sweep := now
    repaired := k.repaired
    idleSince := now } : CoreState).setFld c CORE_CLK 20 16 n

/-- Every core in service or spare changed; a fenced core is not touched. -/
def State.eachCore (s : State) (f : Nat → CoreState → CoreState) : State :=
  (List.range 72).foldl (fun s c => if s.coreSt c = 2 then s else s.modCore c (f c)) s

/-- Registers whose address satisfies a test take their cold-reset values. -/
def State.clearRegs (s : State) (p : Nat → Bool) : State := { s with regs := s.regs.filter (fun r => !p r.1) }

/-- Everything that cores, command processors, tier DMA engines, atomic slices, queues and the piton store hold beyond
registers and memories is gone; the private pairs keep their rings (R290). -/
def State.haltEngines (s : State) : State :=
  { s with
    atoms := []
    atomResps := []
    doorbells := []
    completes := []
    barriers := []
    lists := []
    cmds := []
    vecReq := []
    remoteReqs := []
    imemLatch := []
    fetched := []
    posting := []
    pend := []
    pendFrom := []
    qEnding := []
    cpTurn := []
    phase := []
    unsig := []
    softReset := none
    softPosted := false
    serve := []
    cpIn := []
    cpRows := []
    cpBad := []
    disp := []
    lastLayer := []
    preds := []
    staging := []
    rings := []
    backlog := []
    badWords := s.badWords.filter (fun w => match w with
      | .retry _ => true
      | _ => false)
    segEngine := 31
    segSeq := 0
    slices := []
    driveCmds := []
    dmaIn := []
    dmaRows := []
    polls := []
    polled := []
    sparing := []
    debugSeen := false }

/-- A register of the CMDQ block; of the blocks on the link die. -/
def inCmdq (a : Nat) : Bool := decide (0x100000 ≤ a) && decide (a < 0x200000)
def onLinkDie (a : Nat) : Bool :=
  inCmdq a || (decide (0x600000 ≤ a) && decide (a < 0x800000) && a != MEM_LDG_STAT 0 && a != MEM_LDG_STAT 1)

/-- A quota register. -/
def isQuota (a : Nat) : Bool := inCmdq a && a % 0x1000 / 0x40 < 64 && decide (0x101000 ≤ a) && decide (a < 0x102000) && a % 0x40 == 0x24

/-- The widest reset applied is recorded, and the device is in BOOT with steps from `step` on ended (R427, R431). -/
def State.enterBoot (s : State) (kind step : Nat) : State :=
  let s : State := { s with bootStep := step }
  ((s.setFld SEC_STAT 7 6 kind).setFld GLB_STATE 15 8 0).setFld GLB_STATE 2 0 devBoot

/-- The device soft reset (R426, R428): entries of stopped commands are gone, RETAIN handles and what lies under them stay. -/
def State.softResetNow (s : State) : State :=
  let n := opN s.opNow
  let keep := match s.anyCore with
    | some c => (s.core c).retained c
    | none => []
  let ledge := (keep.map s.handle).filter (fun h => h.mem == memLedge) |>.map (fun h => (h.base, h.base + 64 * h.length))
  let inLedge (a : Nat) : Bool := decide (0x8000000000 ≤ a) && decide (a < 0x8008000000)
  let stays (a : Nat) : Bool := !inLedge a || ledge.any (fun r => decide (r.1 ≤ a ∧ a < r.2))
  let s := (s.flushSlices.mbxReset (fun o => decide (2 ≤ o ∧ o ≤ 6))).haltEngines
  let s := s.eachCore (fun c => CoreState.softened c s.now n)
  let s : State := { s with
    dmem := s.dmem.filter (fun e => stays e.1)
    ledgeErr := s.ledgeErr.filter (fun e => stays (8 * e.1))
    wloads := s.wloads.filter (fun w => keep.contains w.handle)
    rope := { RopeState.reset with seq := s.rope.seq, seen := s.rope.seen }
    boot := { s.boot with kind := 2, memTodo := false, driveTodo := false, keyTodo := false } }
  let s := s.clearRegs (fun a => (inCmdq a && !isQuota a) || a == RAS_CP || a == RAS_PITON || a == MEM_DMA_BUSY
    || (decide (MEM_DMA_DESC 0 0 ≤ a) && decide (a ≤ MEM_DMA_DESC 31 15)) || a == PWR_ROPE_STAT)
  let s := ((s.setFld FAB_TAGS 15 0 0).setFld GLB_STATE 16 16 0).pitonSet s.wloads.length
  ((List.range 64).foldl State.showUse s).enterBoot 2 4

/-- SOFT_RESET_APPLY: the completion of a SOFT_RESET has been posted. -/
def execSoftResetApply (s : State) : Out :=
  s.keepRings <| s.keepSecure <| s.keepFabric <|
  if s.softReset.isSome ∧ s.softPosted then .next s.softResetNow else .next s

/-- The link die and the compute dies enter warm reset (R426): written rows leave the slices first (R336); tiers 1 and 2
refresh themselves. -/
def State.warmReset (s : State) : State :=
  let n := opN s.opNow
  let s := (s.flushSlices.mbxReset (fun o => decide (1 ≤ o ∧ o ≤ 6))).haltEngines
  let s := s.eachCore (fun c => CoreState.warmed c s.now n)
  let s : State := { s with
    dmem := s.dmem.filter (fun e => decide (e.1 < 0x8000000000) || decide (0x8008000000 ≤ e.1))
    ledgeErr := []
    ledgeRows := []
    wloads := []
    latches := []
    egress := []
    inbox := []
    ports := []
    broken := []
    wave := Wave.reset
    suspects := []
    holds := []
    collect := []
    rope := RopeState.reset
    drives := []
    ropeList := []
    pcieUp := false
    busMaster := false
    inD0 := true
    d3hot := false
    bootStep := min s.bootStep 3
    boot := { s.boot with
      kind := if s.dev = devBoot then min s.boot.kind 1 else 1
      memTodo := true
      driveTodo := true
      keyTodo := s.dev == devBoot && s.boot.keyTodo } }
  (s.clearRegs (fun a => onLinkDie a || a == RAS_CP || a == RAS_PITON || a == PWR_ROPE_STAT || a == PWR_ROPE_EPOCH
    || a == PWR_ROPE_LEADER)).setFld GLB_STATE 16 16 0

/-! ## Boot (R431) -/

/-- A stage's measurement recorded, and the SVN of the image it runs (R434, R438). -/
def State.measure (s : State) (stage : Nat) (image : List Byte) : State :=
  let h := Config.sha256 image
  (List.range 8).foldl (fun s i => s.setReg (SEC_MEAS stage i) (BitVec.ofNat 32 (leNat ((h.drop (4 * i)).take 4))))
    { s with svns := Tab.set (fun _ => 0) s.svns stage (img image 0x004 1) }

/-- The slot from which a stage boots: the active one where it verifies, else the other where that does. -/
def State.bootSlot (s : State) (stage : Nat) : Option Nat :=
  let a := s.activeSlot stage
  if s.imageOk stage (s.image stage a) then some a
  else if s.imageOk stage (s.image stage (1 - a)) then some (1 - a)
  else none

/-- Step 3: the MP runs its image from a slot (2 in recovery); it enables the first regulator group (R444). -/
def State.mpStart (s : State) (slot stage : Nat) (image : List Byte) : State :=
  let s := s.setReg SEC_BOOTS (s.reg SEC_BOOTS + 1)
  let s := (s.measure stage image).setFld SEC_STAT 1 0 slot
  { s with mpDown := false, bootStep := 3, boot := { s.boot with vrEn := 1 } }

/-- Steps 1 and 2: OTP unreadable ends the boot; with no MP image that verifies, or with RECOVERY_N low, the ROM waits for a
recovery image (R432). -/
def execRootPllLock (otpOk : Bool) (s : State) : Out :=
  s.keepRings <| s.inEdge <|
  if s.dev ≠ devBoot ∨ s.bootStep ≠ 0 then .next s
  else if !otpOk then .next (({ s with mpDown := true } : State).devFault 5)
  else if s.boot.recoveryMode then .next { s with bootStep := 1, mpDown := true }
  else match s.bootSlot 1 with
    | some k => .next (s.mpStart k 1 (s.image 1 k))
    | none =>
      .next (({ s with bootStep := 1, mpDown := true, boot := { s.boot with recoveryMode := true } } : State).devFault 4)

/-- RECOVERY_IMAGE: verified and run, or answered AUTH_FAILED on the bulk-in endpoint, one byte (log 34). -/
def execRecoveryImage (image : List Byte) (s : State) : Out :=
  s.keepRings <| s.inEdge <|
  if s.dev = devOff ∨ ¬ s.boot.recoveryMode ∨ s.bootStep ≠ 1 then .next s
  else if image.length ≤ 4194304 ∧ s.imageOk 3 image then
    let s : State := { s with recovery := image, boot := { s.boot with recoveryMode := false } }
    .next (((s.setFld SEC_STAT 4 4 1).enterBoot 0 1).mpStart 2 3 image)
  else .next { s with usbOut := s.usbOut ++ [leBytes 1 stAuthFailed] }

/-- Step 4 has ended: the endpoint is released, and every enabled port waits for signal. -/
def State.railsUp (s : State) : State :=
  (List.range 32).foldl (fun s p => if (s.reg (PORT_CTRL p)).getLsbD 0 then s.setFld (PORT_STAT p) 3 0 pDown else s)
    { s with bootStep := 4 }

/-- VR_PG_RISE: the next group is enabled; after the last, step 4 has ended. -/
def execVrPgRise (k : Nat) (s : State) : Out :=
  s.keepRings <| s.keepSecure <| s.inEdge <|
  let b := s.boot
  if s.dev = devBoot ∧ s.bootStep = 3 ∧ k < 3 ∧ k < b.vrEn ∧ ¬ b.vrPg.contains k then
    let s : State := { s with boot := { b with vrPg := b.vrPg ++ [k], vrEn := min 3 (k + 2) } }
    .next (if k = 2 then s.railsUp else s)
  else .next s

/-- A core that holds contents under a RETAIN handle, which a test would destroy (R424). -/
def CoreState.holdsRetained (c : Nat) (k : CoreState) : Bool := (k.retained c).any (fun n => (k.tableHandle c n).mem != memLedge)

/-- Step 7: every free spare and every core in service is tested, but after a soft reset those that hold RETAIN contents;
which fail is free (log 38). Those that fail are fenced, spares first, so that none of them is taken (R424). -/
def State.coreTest (s : State) : State :=
  let tested := (List.range 72).filter (fun c => s.coreSt c == 1 ||
    (s.coreSt c == 0 && !(s.boot.kind == 2 && (s.core c).holdsRetained c)))
  let bad := tested.filter (fun c => Config.freeBits 1 (s.free + c) == 1)
  let spares := bad.filter (fun c => s.coreSt c == 1)
  let cores := bad.filter (fun c => s.coreSt c == 0)
  let s : State := { s with free := s.free + 72 }
  let s := (List.range 3).foldl (fun s k => s.setReg (RAS_ST_CORE k)
    (BitVec.ofNat 32 (maskOf (bad.filterMap (fun c => if c / 32 = k then some (c % 32) else none))))) s
  (spares ++ cores).foldl (fun s c => s.fence c 2 none) s

/-- Steps 6 and 7: the command processors start from an image that verifies, with a record where it is not the active slot's
(log 39); then the core test. -/
def State.startCps (s : State) : State :=
  match s.bootSlot 2 with
  | none => s.devFault 1
  | some k =>
    let s := if k = s.activeSlot 2 then s else s.logEvent 0x13 stAuthFailed (logSource 3 0) (BitVec.ofNat 64 2)
    let s := ((s.measure 2 (s.image 2 k)).setFld SEC_STAT 3 2 k).clearRegs (fun a => a == RAS_CP)
    ({ s with serve := [], bootStep := 7 } : State).coreTest

/-- The boot steps that no command of the table ends: 6 and 7, and 10 once every parallel step has ended and no spare is on
its way (log 39). -/
def State.bootWork (s : State) : State :=
  if s.dev = devBoot ∧ 4 ≤ s.bootStep ∧ ¬ s.mpDown then
    let s := if s.bootStep < 7 then s.startCps else s
    if s.dev = devBoot ∧ ¬ s.boot.memTodo ∧ ¬ s.boot.driveTodo ∧ ¬ s.boot.keyTodo ∧ s.sparing.isEmpty then
      ({ s with bootStep := 10 } : State).setFld GLB_STATE 2 0 s.restState
    else s
  else s

/-- The block idles for one NCLK cycle: a boot goes on, a PORT_RESET that has waited 100 ms ends (log 1). -/
def State.idle (s : State) : State := s.bootWork.tick.lateResets

/-- The MP runs a parallel boot step. -/
def State.bootStepOpen (s : State) : Bool := s.dev == devBoot && decide (4 ≤ s.bootStep) && !s.mpDown

/-- ATTEST_KEY_READY: step 5, on a cold boot only. -/
def execAttestKeyReady (s : State) : Out :=
  s.keepRings <| s.keepFabric <|
  if s.bootStepOpen ∧ s.boot.keyTodo then
    .next ({ s.newAttestKey with boot := { s.boot with keyTodo := false } } : State).bootWork
  else .next s

/-- The population is one that R320 lists, trained. -/
def tier2Valid (r : TrainResult) : Bool :=
  r.tier2Ok && ((r.nch == 4 && r.dpc == 1) || (r.nch == 8 && (r.dpc == 1 || r.dpc == 2))) && [32, 64, 96, 128].contains r.gib

/-- MEMORY_TRAINING_DONE: steps 8 and 9; a tier-1 channel that fails faults the device, any tier-2 failure disables tier 2. -/
def execMemoryTrainingDone (r : TrainResult) (s : State) : Out :=
  s.keepRings <| s.keepFabric <|
  if s.bootStepOpen ∧ s.boot.memTodo then
    let ok := (List.range 24).filter (fun c => r.channels.contains c)
    let all := ok.length == 24
    let s := s.setReg MEM_T1_STAT (BitVec.ofNat 32 (all.toNat * 2 ^ 31 + maskOf ok))
    let s := s.setReg MEM_T2_STAT (if tier2Valid r then
      BitVec.ofNat 32 (2 ^ 31 + r.nch * 2 ^ 24 + r.dpc * 2 ^ 22 + r.gib * 2 ^ 14 + r.nch * r.dpc * r.gib) else 0)
    let s : State := { s with boot := { s.boot with memTodo := false } }
    .next (if all then s.bootWork else s.devFault 3)
  else .next s

/-- The drives in use of those that came ready: the largest of 1, 2 and 4 that there are, lowest ports first (R324). -/
def drivesUsed (l : List Drive) : List Drive :=
  let ready := (List.range 4).filterMap (fun p => l.find? (fun d => d.port == p && d.ready))
  ready.take (if 4 ≤ ready.length then 4 else if 2 ≤ ready.length then 2 else ready.length)

/-- C3: drives in use times the smallest namespace, rounded down to 1 GiB, at most 4 TiB. -/
def capacity3 (l : List Drive) : Nat :=
  match l with
  | [] => 0
  | d :: ds => min (2 ^ 42) (l.length * ds.foldl (fun m x => min m x.bytes) d.bytes / 2 ^ 30 * 2 ^ 30)

/-- DRIVE_BRINGUP_END: step 9; the generation that a drive's link has negotiated is free (log 7). -/
def execDriveBringupEnd (drives : List Drive) (s : State) : Out :=
  s.keepRings <| s.keepFabric <|
  if s.bootStepOpen ∧ s.boot.driveTodo then
    let used := drivesUsed drives
    let v := (List.range 4).foldl (fun v p =>
      match drives.find? (fun d => d.port == p) with
      | some d => v + 2 ^ (8 * p) * (1 + d.ready.toNat * 2 + (used.any (fun u => u.port == p)).toNat * 8
          + 16 * ((Config.freeBits 8 (s.free + p)).toNat % 5 + 1))
      | none => v) 0
    let s := s.setReg MEM_T3_STAT (BitVec.ofNat 32 v)
    let s := s.setReg MEM_T3_PAGES (BitVec.ofNat 32 (capacity3 used / 4096))
    .next ({ s with free := s.free + 4, drives := used.map (·.port), boot := { s.boot with driveTodo := false } } : State).bootWork
  else .next s

/-! ## Pins and power (R391, R425, R444, R445, R450) -/

/-- SYS_RST_ASSERT: a cold reset, whatever else is under way. -/
def execSysRstAssert (s : State) : Out :=
  let t := s.coldReset
  .next { t with boot := { t.boot with sysRstLow := true } }

/-- SYS_RST_RELEASE: released early, boot is undefined; with the clocks stopped by THERMTRIP_N nothing boots. -/
def execSysRstRelease (recoveryLow conditionsMet : Bool) (s : State) : Out :=
  s.keepRings <| s.keepSecure <| s.inEdge <|
  if !s.boot.sysRstLow then .next s
  else if s.boot.tripped then .next { s with boot := { s.boot with sysRstLow := false } }
  else if !conditionsMet then .fault .bootUndefined
  else
    let s : State := { s with now := 0, boot := { s.boot with sysRstLow := false, recoveryMode := recoveryLow } }
    .next (s.enterBoot 0 0)

/-- PERST_ASSERT: a warm reset, which abandons a soft reset; until the rails are up only the pin changes. -/
def execPerstAssert (s : State) : Out :=
  s.keepRings <| s.keepSecure <|
  if s.boot.perstLow then .next s
  else
    let s : State := { s with boot := { s.boot with perstLow := true } }
    .next (if s.dev ≠ devOff ∧ 4 ≤ s.bootStep then s.warmReset else s)

/-- PERST_RELEASE: the boot goes on from step 4, whose rails are up (R431). -/
def execPerstRelease (s : State) : Out :=
  s.keepRings <| s.keepSecure <| s.inEdge <|
  if !s.boot.perstLow then .next s
  else
    let s : State := { s with boot := { s.boot with perstLow := false } }
    .next (if s.dev = devOff then s
      else if s.bootStep = 3 ∧ s.boot.vrPg.length = 3 then (s.enterBoot s.boot.kind 3).railsUp
      else if s.dev = devFaulted ∧ s.bootStep < 4 then s.enterBoot s.boot.kind s.bootStep
      else s)

/-- VR_PG_FALL: unbidden, it is a loss of package power. -/
def execVrPgFall (k : Nat) (s : State) : Out :=
  if k < s.boot.vrEn ∧ s.boot.vrPg.contains k then .next s.coldReset else .next s

/-- REFCLK_LOSS: held in cold reset until SYS_RST_N is taken low and high again. -/
def execRefclkLoss (s : State) : Out := if s.dev = devOff then .next s else .next s.coldReset

/-- THERMTRIP: every clock stops and the rails go; THERMTRIP_N stays low until power is removed. -/
def execThermtrip (sensor reading : Nat) (s : State) : Out :=
  if sensor < 88 ∧ tTrip ≤ reading ∧ s.dev ≠ devOff then
    let t := s.coldReset
    .next { t with boot := { t.boot with tripped := true } }
  else .next s

/-- PACKAGE_POWER_LOSS: THERMTRIP_N is released, and SYS_RST_N is low by its pull-down. -/
def execPackagePowerLoss (s : State) : Out :=
  let t := s.coldReset
  .next { t with boot := { t.boot with tripped := false, sysRstLow := true } }

/-! ## Links (R3, R285, R458) -/

/-- PCIE_LINK_UP: once the endpoint is released and PERST_N is high. -/
def execPcieLinkUp (s : State) : Out :=
  s.keepRings <| s.keepSecure <| s.inEdge <|
  if s.dev ≠ devOff ∧ 4 ≤ s.bootStep ∧ ¬ s.boot.perstLow then .next { s with pcieUp := true } else .next s

/-- PCIE_LINK_DOWN. -/
def execPcieLinkDown (s : State) : Out :=
  s.keepRings <| s.keepSecure <| s.inEdge <|
  .next { s with pcieUp := false }

/-- PCIE_CONFIG_WRITE: Bus Master Enable and the D-state. -/
def execPcieConfigWrite (busMaster d0 d3hot : Bool) (s : State) : Out :=
  s.keepRings <| s.keepSecure <| s.inEdge <|
  if s.pcieUp then .next { s with busMaster := busMaster, inD0 := d0, d3hot := d3hot && !d0 } else .next s

/-- USB_CONFIGURATION_CHANGE. -/
def execUsbConfigurationChange (configured suspended : Bool) (s : State) : Out :=
  s.keepRings <| s.keepSecure <| s.inEdge <|
  if s.dev = devOff then .next s else .next { s with usbUp := configured && !suspended }

/-- BMC_INT_N is low: a message or a completion awaits the BMC, or an event bit is set (R290, R450). -/
def State.bmcIntLow (s : State) : Bool :=
  !s.bmcCq.isEmpty || s.reg CMDQ_EVT != 0 || (List.range 10).any (fun ch => s.mbxSt ch == mbxSent && s.mbxDest ch == 9)

end Sys2Proof.Machine
end

