-- ==== Sys2Proof/Machine/Attest.lean ====
section
/-!
DEFINITION. Attestation reports and certificates (R297, R438).
-/

namespace Sys2Proof.Machine

/-- The words of registers, little-endian. -/
def State.regBytes (s : State) (l : List Nat) : List Byte := l.flatMap (fun a => leBytes 4 (s.reg a).toNat)

/-- The 40 bytes of a stage: measurement, SVN, VALID. A stage that has not been measured, the ROM among them, is not valid
(log 30). -/
def State.stageBytes (s : State) (k : Nat) : List Byte :=
  let words := (List.range 8).map (SEC_MEAS k)
  let on := words.any (fun a => s.reg a != 0)
  s.regBytes words ++ leBytes 1 (Tab.get (fun _ => 0) s.svns k) ++ leBytes 1 on.toNat ++ leBytes 6 0

/-- The fused spare map: a bit per core. -/
def spareMap : Nat := maskOf Config.spareCores

/-- Bytes 0x000 to 0x1FF of the report. -/
def State.reportBody (s : State) (nonce : List Byte) : List Byte :=
  let last := s.fld SEC_STAT 7 6
  let flags := s.fld SEC_STAT 4 4 + s.debugSeen.toNat * 2 + s.wave.requireId.toNat * 4 + (last == 1).toNat * 8 + (last == 2).toNat * 16
  leBytes 2 1 ++ leBytes 2 0x380 ++ leBytes 4 flags ++ s.regBytes [GLB_SERIAL_LO, GLB_SERIAL_HI] ++ nonce
    ++ s.regBytes [GLB_ID, GLB_STEP, SEC_BOOTS, GLB_CORES]
    ++ (List.range 4).flatMap s.stageBytes
    ++ (List.range 32).map (fun i => Config.fuseByte i spareMap (s.reg SEC_KEYSLOT).toNat (s.reg SEC_SVN).toNat)
    ++ s.regBytes [FAB_ID, FAB_SHAPE, FAB_ROUTE, FAB_ROOT]
    ++ hash32 ((List.range 32).flatMap (fun p => s.regBytes ((List.range 8).map (PORT_PEER_HASH p))))
    ++ leBytes 2 s.ropeId ++ leBytes 2 (s.fld PWR_ROPE_LEADER 30 16) ++ leBytes 1 (s.fld PWR_ROPE_STAT 26 24)
    ++ leBytes 1 (s.fld PWR_ROPE_STAT 31 28) ++ leBytes 2 0
    ++ (if s.ropeList = [] then leBytes 32 0 else hash32 (s.ropeList.flatMap (leBytes 2)))
    ++ (if s.fld SEC_STAT 5 5 = 1 then hash32 (Config.attestCert s.akGen) else leBytes 32 0)
    ++ leBytes 136 0
where
  /-- The 32 bytes of a hash. -/
  hash32 (b : List Byte) : List Byte := (Config.sha256 b ++ leBytes 32 0).take 32

/-- The report with its signature by the attestation key. -/
def State.report896 (s : State) (nonce : List Byte) : List Byte :=
  let body := s.reportBody nonce
  body ++ (Config.sign s.akGen body ++ leBytes sigBytes 0).take sigBytes

/-- ATTEST: the MP reads the nonce and signs; while it is down the command waits. -/
def opAttest : Body := fun e s =>
  if s.mpDown then .hold s
  else
    match s.getData e.src (e.word 0) 32 with
    | .wait t => .hold t
    | .fail st t => .done (t.short e st 0 0)
    | .ok nonce t => t.deliver e (e.word 1) (t.report896 nonce) 896

/-- ATTEST. -/
def execAttest (src : Src) (s : State) : Out :=
  s.keepEdge <| s.keepFabric <|
  .next (s.stage2 0x70 src (fields (fun e s =>
    s.addrChecks e 0 true false ++ s.addrChecks e 1 false false ++ [okField 2 0 (decide (896 ≤ e.word 2 % 2 ^ 16))])) opAttest)

/-- The certificate that W0 names: the identity certificate only where its hash is the one in OTP. -/
def State.certOf (s : State) (e : Entry) : List Byte := if e.word 0 % 2 = 0 then s.certArea else Config.attestCert s.akGen

/-- CERT_READ: an identity certificate that does not match its hash is refused. -/
def opCertRead : Body := fun e s =>
  let b := s.certOf e
  if e.word 0 % 2 = 0 ∧ Config.sha256 b ≠ s.idHash then .done (s.short e stAuthFailed 0 0)
  else if e.word 2 % 2 ^ 16 < b.length then .done (s.short e stBadField (wordAt 2 0) 0)
  else s.deliver e (e.word 1) b b.length

/-- CERT_READ. -/
def execCertRead (src : Src) (s : State) : Out :=
  s.keepEdge <| s.keepFabric <|
  .next (s.stage2 0x71 src (fields (fun e s => s.addrChecks e 1 false false)) opCertRead)

end Sys2Proof.Machine
end

