-- ==== Sys2Proof/Machine/Telemetry.lean ====
section
/-!
DEFINITION. Monitor channels as registers and command (R420 to R422), and the clearing of violation counters (R419).
-/

namespace Sys2Proof.Machine

/-- The edges of a channel do not decrease. -/
def State.edgesRise (s : State) (c : Nat) : Bool := (List.range 14).all (fun i => decide (s.telEdge c i ≤ s.telEdge c (i + 1)))

/-- The live state of a channel cleared. -/
def State.telClear (s : State) (c : Nat) : State := s.setTel c TelLive.reset

/-- TEL_CH_CFG written: CLR acts; the configuration is written while EN is 0, and EN is written while it is 1, to end it
(log 35); EN is refused over decreasing edges (R421). -/
def State.writeTelCfg (s : State) (a : Agent) (c : Nat) (v : W32) : State :=
  s.regWrite a (TEL_CH_CFG c) v (fun v s =>
    let s := if v.getLsbD 30 then s.telClear c else s
    let v := setField v 30 30 0
    if (s.reg (TEL_CH_CFG c)).getLsbD 31 then
      (if v.getLsbD 31 then s.rsvWrite else s.setFld (TEL_CH_CFG c) 31 31 0)
    else if v.getLsbD 31 && !s.edgesRise c then s.rsvWrite
    else s.setReg (TEL_CH_CFG c) v)

/-- TEL_CH_CFG_WRITE. -/
def execTelChCfgWrite (a : Agent) (ch : Nat) (v : W32) (s : State) : Out :=
  s.inRegs <|
  if ch < 32 then .next (s.writeTelCfg a ch v) else .next s

/-- An edge register written: ignored as reserved while EN is 1. -/
def State.writeTelEdge (s : State) (a : Agent) (c j : Nat) (v : W32) : State :=
  s.regWrite a (TEL_CH_EDGE c j) v (fun v s =>
    if (s.reg (TEL_CH_CFG c)).getLsbD 31 then s.rsvWrite else s.setReg (TEL_CH_EDGE c j) v)

/-- TEL_CH_CLR: a write whose CLR is 1 and that changes nothing else. -/
def execTelChClr (a : Agent) (ch : Nat) (s : State) : Out :=
  s.inRegs <|
  if ch < 32 then .next (s.regWrite a (TEL_CH_CFG ch) 0x40000000#32 (fun _ s => s.telClear ch)) else .next s

/-- The live state of a channel copied into its registers (R422). -/
def State.snap (s : State) (c : Nat) : State :=
  let t := s.telAt c
  let s := (s.setReg (TEL_CH_MIN c) (BitVec.ofNat 32 t.min)).setReg (TEL_CH_MAX c) (BitVec.ofNat 32 (min t.max (2 ^ 32 - 1)))
  let s := s.setPair (TEL_CH_COUNT_LO c) (TEL_CH_COUNT_HI c) t.count
  (List.range 16).foldl (fun s i => s.setReg (TEL_CH_BIN c i) (BitVec.ofNat 32 (t.bins.getD i 0))) s

/-- The channels that a mask names. -/
def channels (m : Nat) : List Nat := (List.range 32).filter (fun c => m.testBit c)

/-- TEL_SNAP written. -/
def State.writeTelSnap (s : State) (a : Agent) (v : W32) : State :=
  s.regWrite a TEL_SNAP v (fun v s => (channels v.toNat).foldl State.snap s)

/-- TEL_SNAP. -/
def execTelSnap (a : Agent) (v : W32) (s : State) : Out :=
  s.inRegs <|
  .next (s.writeTelSnap a v)

/-- The 128 bytes of a channel's registers. -/
def State.telBytes (s : State) (c : Nat) : List Byte :=
  (List.range 32).flatMap (fun i => leBytes 4 (s.reg (TEL_CH_CFG c + 4 * i)).toNat)

/-- TELEMETRY_READ: snapshots of every channel of the mask, then their registers. -/
def opTelemetryRead : Body := fun e s =>
  let cs := channels (e.word 1 % 2 ^ 32)
  let s := cs.foldl State.snap s
  s.deliver e (e.word 0) (cs.flatMap s.telBytes) (128 * cs.length)

/-- TELEMETRY_READ. -/
def execTelemetryRead (src : Src) (s : State) : Out :=
  s.keepEdge <| s.keepFabric <|
  .next (s.stage2 0x0A src (fields (fun e s => s.addrChecks e 0 false false)) opTelemetryRead)

/-- RAS_VIOL_CLR written: each 1 clears the counter of its class (R419). -/
def State.writeViolClr (s : State) (a : Agent) (v : W32) : State :=
  s.regWrite a RAS_VIOL_CLR v (fun v s =>
    ((List.range 16).filter (fun c => v.toNat.testBit c)).foldl (fun s c => s.setPair (RAS_VIOL_LO c) (RAS_VIOL_HI c) 0) s)

/-- RAS_VIOL_CLR. -/
def execRasViolClr (a : Agent) (v : W32) (s : State) : Out :=
  s.inRegs <|
  .next (s.writeViolClr a v)

end Sys2Proof.Machine
end

