-- ==== Sys2Proof/Machine/Access.lean ====
section
/-!
DEFINITION. Register accesses by address (R6, R451 to R455), each with the effect of the register it reaches, and the two
private pairs: the BMC command window and the requests of the service port (R289 to R291).
-/

namespace Sys2Proof.Machine

/-! ## The BMC command window (R290) -/

/-- GLB_BMC_CTRL written: SUBMIT copies the entry built to the ring's tail, or is refused; POP removes the oldest completion. -/
def State.writeBmcCtrl (s : State) (a : Agent) (v : W32) : State :=
  if a ≠ .bmc then s.sameRings (if s.pathOpen a then s.rsvWrite else s)
  else s.regWrite a GLB_BMC_CTRL v (fun v s =>
    let s : State := if !v.getLsbD 0 then s
      else if 15 ≤ s.bmcSq.length then s.setFld GLB_BMC_STAT 0 0 1
      else ({ s with bmcSq := s.bmcSq ++ [s.regBytes ((List.range 16).map GLB_BMC_SQE)] } : State).setFld GLB_BMC_STAT 0 0 0
    if v.getLsbD 1 then { s with bmcCq := s.bmcCq.drop 1 } else s)

/-- GLB_BMC_SUBMIT. -/
def execGlbBmcSubmit (a : Agent) (s : State) : Out :=
  s.keepPins <| s.keepSecure <| s.inEdge <|
  .next (s.writeBmcCtrl a 1)

/-- GLB_BMC_POP. -/
def execGlbBmcPop (a : Agent) (s : State) : Out :=
  s.keepPins <| s.keepSecure <| s.inEdge <|
  .next (s.writeBmcCtrl a 2)

/-- The rest of the window written: only the BMC writes it. -/
def State.writeWindow (s : State) (a : Agent) (addr : Nat) (v : W32) : State :=
  if a ≠ .bmc then (if s.pathOpen a then s.rsvWrite else s) else s.regWrite a addr v (State.plainWrite addr)

/-! ## Writes and reads by address -/

/-- A write into CORE[c]. The handle table and the work-list table count a write as one to a reserved field (R196, R254). -/
def State.writeCore (s : State) (a : Agent) (c off : Nat) (v : W32) : State :=
  let addr := coreAddr c off
  if off = CORE_SEQ_CTRL then s.writeSeqCtrl a c v
  else if CORE_BOUND 0 ≤ off ∧ off ≤ CORE_BOUND 15 then s.writeBound a c ((off - CORE_BOUND 0) / 4) v
  else if off = CORE_ACC_DBG_CTRL then s.writeDbgCtrl a c v
  else if off = CORE_RQ_LIMIT then s.writeRqLimit a c v
  else if off = CORE_SP_HAC_CFG then s.writeHacCfg a c v
  else if off = CORE_SPM_MODE then s.writeSpmMode a c v
  else if off = CORE_SPM_WHEEL then s.writeSpmWheel a c v
  else if off = CORE_SPM_PWR_REQ0 then s.writePwrReq a c false v
  else if off = CORE_SPM_PWR_REQ1 then s.writePwrReq a c true v
  else if CORE_SPM_ARRIVE 0 ≤ off ∧ off ≤ CORE_SPM_ARRIVE 63 then s.writeArrive a c ((off - CORE_SPM_ARRIVE 0) / 4) v false
  else if CORE_IMEM 0 ≤ off ∧ off < CORE_WL 0 then s.writeImem a c ((off - CORE_IMEM 0) / 8) (off % 8 == 4) v
  else if (CORE_HT 0 ≤ off ∧ off < CORE_HT 1024) ∨ (CORE_WL 0 ≤ off ∧ off < CORE_WL 512) then s.regWrite a addr v (fun _ s => s.rsvWrite)
  else s.regWrite a addr v (State.plainWrite addr)

/-- A write into the CMDQ block. -/
def State.writeCmdq (s : State) (a : Agent) (addr : Nat) (v : W32) : State :=
  let q := (addr - CMDQ_Q_CFG 0) / 0x40
  let o := addr % 0x40
  if addr < CMDQ_SQDB 64 then
    (if addr % 8 = 0 then s.writeSqdb a ((addr - CMDQ_SQDB 0) / 8) v else s.writeCqdb a ((addr - CMDQ_SQDB 0) / 8) v)
  else if CMDQ_Q_CFG 0 ≤ addr ∧ addr < CMDQ_Q_CFG 64 ∧ o = 0 then s.writeQCfg a q v
  else if CMDQ_Q_CFG 0 ≤ addr ∧ addr < CMDQ_Q_CFG 64 ∧ 0x10 ≤ o ∧ o ≤ 0x20 then s.regWrite a addr v (State.writeQBase addr q)
  else if CMDQ_MSIX0 0 ≤ addr ∧ addr < CMDQ_MSIX0 65 ∧ addr % 16 = 12 then
    s.regWrite a addr v (State.writeMsix3 ((addr - CMDQ_MSIX0 0) / 16))
  else s.regWrite a addr v (State.plainWrite addr)

/-- A write into the MBX block. -/
def State.writeMbx (s : State) (a : Agent) (addr : Nat) (v : W32) : State :=
  let ch := (addr - MBX_LOCK 0) / 0x100
  let o := addr % 0x100
  if 10 ≤ ch then s.regWrite a addr v (State.plainWrite addr)
  else if o = 0 then s.mbxRelease a ch v
  else if o = 4 then s.mbxSend a ch v
  else if o = 0x0C then s.mbxAck a ch v
  else if 0x40 ≤ o ∧ o < 0x80 then s.mbxData a ch ((o - 0x40) / 4) v
  else s.regWrite a addr v (State.plainWrite addr)

/-- A write into the TEL block. -/
def State.writeTel (s : State) (a : Agent) (addr : Nat) (v : W32) : State :=
  let c := (addr - TEL_CH_CFG 0) / 0x80
  let o := addr % 0x80
  if addr = TEL_SNAP then s.writeTelSnap a v
  else if addr < TEL_CH_CFG 0 ∨ 31 < c then s.regWrite a addr v (State.plainWrite addr)
  else if o = 0 then s.writeTelCfg a c v
  else if 0x20 ≤ o ∧ o < 0x40 then s.writeTelEdge a c ((o - 0x20) / 4) v
  else s.regWrite a addr v (State.plainWrite addr)

/-- A 32-bit write by an agent; an unaligned one is ignored and counts in class 4 (R452). -/
def State.writeReg (s : State) (a : Agent) (addr : Nat) (v : W32) : State :=
  if addr = GLB_BMC_CTRL then s.writeBmcCtrl a v
  else s.sameRings <|
    if addr % 4 ≠ 0 then (if s.pathOpen a then s.hostViolation else s)
    else match blockOf addr with
    | .core c off => s.writeCore a c off v
    | .cmdq => s.writeCmdq a addr v
    | .mbx => s.writeMbx a addr v
    | .tel => s.writeTel a addr v
    | .glb =>
      if GLB_BMC_SQE 0 ≤ addr ∧ addr ≤ GLB_BMC_STAT then s.writeWindow a addr v
      else s.regWrite a addr v (State.plainWrite addr)
    | .pwr =>
      if addr = PWR_CAP then s.writePwrCap a v
      else if addr = PWR_BUDGET then s.writePwrBudget a v
      else if addr = PWR_OP_CTRL then s.writeOpCtrl a v
      else s.regWrite a addr v (State.plainWrite addr)
    | .fab =>
      if PORT_CTRL 0 ≤ addr ∧ addr < PORT_CTRL 32 ∧ addr % 0x80 = 0 then s.writePortCtrl a ((addr - PORT_CTRL 0) / 0x80) v
      else s.regWrite a addr v (State.plainWrite addr)
    | _ => if addr = RAS_VIOL_CLR then s.writeViolClr a v else s.regWrite a addr v (State.plainWrite addr)

/-- A 32-bit read by an agent, with what the read does. -/
def State.readReg (s : State) (a : Agent) (addr : Nat) : W32 × State :=
  if addr % 4 ≠ 0 then (0, if s.pathOpen a then s.hostViolation else s)
  else match blockOf addr with
    | .core c off =>
      if CORE_IMEM 0 ≤ off ∧ off < CORE_WL 0 then s.imemRead a c ((off - CORE_IMEM 0) / 8) (off % 8 == 4) else s.plainRead a addr
    | .mbx =>
      let ch := (addr - MBX_LOCK 0) / 0x100
      let o := addr % 0x100
      if 10 ≤ ch then s.plainRead a addr
      else if o = 0 then s.mbxLockRead a ch
      else if 0x40 ≤ o ∧ o < 0x80 then (s.mbxDataRead a ch ((o - 0x40) / 4), s)
      else s.plainRead a addr
    | .cmdq =>
      let q := (addr - CMDQ_Q_CFG 0) / 0x40
      (if q < 64 ∧ addr = CMDQ_Q_CQSTALL q then s.countPend q else s).plainRead a addr
    | .ras =>
      if RAS_LOG 0 ≤ addr ∧ addr < RAS_LOG 0 + 0x20000 then s.logRead a ((addr - RAS_LOG 0) / 32) ((addr - RAS_LOG 0) % 32 / 4)
      else s.plainRead a addr
    | _ => s.plainRead a addr

/-- Accesses of one register that fall in one NCLK cycle (R8): a read, with no value, returns what stood before any write;
the writes are applied in the order of their agents, and the last stands. -/
def State.sameCycle (s : State) (addr : Nat) (xs : List (Agent × Option W32)) : State :=
  let reads := xs.filter (fun x => x.2.isNone)
  let t := reads.foldl (fun t x => (t.readReg x.1 addr).2.answer x.1 (s.readReg x.1 addr).1) s
  ((List.range 9).flatMap (fun n => xs.filter (fun x => agentCode x.1 == n))).foldl (fun t x =>
    match x.2 with
    | some v => t.writeReg x.1 addr v
    | none => t) t

/-- REGISTER_WRITE, with the accesses of other agents that reach the register in the same NCLK cycle. -/
def execRegisterWrite (a : Agent) (addr : Nat) (v : RegWrite) (s : State) : Out :=
  s.keepPins <| s.keepSecure <| s.keepMem <|
  .next (s.sameCycle addr ((a, some v.value) :: v.rivals))

/-! ## The service port (R291) -/

/-- Fields of a request: TYPE, COUNT, SEQ, OFFSET. -/
def reqType (r : List Byte) : Nat := entryNat r 0 1
def reqCount (r : List Byte) : Nat := entryNat r 1 1
def reqSeq (r : List Byte) : Nat := entryNat r 2 2
def reqOffset (r : List Byte) : Nat := entryNat r 4 4

/-- A request is well formed. -/
def reqOk (r : List Byte) : Bool :=
  let n := reqCount r
  decide (16 ≤ r.length) && entryNat r 8 8 == 0 &&
    (match reqType r with
      | 1 => decide (1 ≤ n ∧ n ≤ 64) && r.length == 16
      | 2 => decide (1 ≤ n ∧ n ≤ 64) && r.length == 16 + 4 * n
      | 3 => n == 0 && r.length == 80
      | _ => false)

/-- The response to a request. -/
def State.respond (s : State) (r : List Byte) (status : Nat) (data : List Byte) : State :=
  { s with usbOut := s.usbOut ++ [usbMessage (reqType r + 0x80) (reqCount r) (reqSeq r) status data] }

/-- The registers that a request reads, ascending. -/
def State.usbReads (s : State) (a : Nat) : Nat → List Byte × State
  | 0 => ([], s)
  | n + 1 =>
    let x := s.readReg .usb a
    let y := x.2.usbReads (a + 4) n
    (leBytes 4 x.1.toNat ++ y.1, y.2)

/-- The service port's function answers: the device is powered, and the ROM does not wait for a recovery image (R432). -/
def State.usbOpen (s : State) : Bool := s.dev != devOff && !s.boot.recoveryMode

/-- A request of a type; one of a reserved type is answered wherever it is sent. -/
def State.usbRequest (s : State) (type : Nat) (r : List Byte) (f : State → State) : State :=
  if !s.usbOpen || (reqType r != type && [1, 2, 3].contains (reqType r)) then s
  else if reqOk r then f s
  else s.respond r stBadField []

/-- USB_REGISTER_READ. -/
def execUsbRegisterRead (req : List Byte) (s : State) : Out :=
  s.inCores <|
  .next (s.usbRequest 1 req (fun s =>
    let x := s.usbReads (reqOffset req) (reqCount req)
    x.2.respond req stOk x.1))

/-- USB_REGISTER_WRITE. -/
def execUsbRegisterWrite (req : List Byte) (s : State) : Out :=
  s.keepPins <| s.keepSecure <| s.keepMem <|
  .next (s.usbRequest 2 req (fun s =>
    ((List.range (reqCount req)).foldl (fun s i =>
      s.writeReg .usb (reqOffset req + 4 * i) (BitVec.ofNat 32 (entryNat req (16 + 4 * i) 4))) s).respond req stOk []))

/-- USB_SUBMIT: an entry enters the ring, or is refused while 15 wait. -/
def execUsbSubmit (req : List Byte) (s : State) : Out :=
  s.keepPins <| s.keepSecure <| s.inEdge <|
  .next (s.usbRequest 3 req (fun s =>
    if 15 ≤ s.usbSq.length then s.respond req stNoResource []
    else ({ s with usbSq := s.usbSq ++ [req.drop 16] } : State).respond req stOk []))

/-- USB_COMPLETION_ACK: the oldest completion leaves the ring. -/
def execUsbCompletionAck (s : State) : Out :=
  s.keepPins <| s.keepSecure <| s.inEdge <|
  .next { s with usbCq := s.usbCq.drop 1 }

end Sys2Proof.Machine
end

