-- ==== Sys2Proof/Machine/Dispatch.lean ====
section
/-! DEFINITION. One arm per command: a direct call of its meaning. -/

namespace Sys2Proof.Machine

/-- The effect of a command. -/
def exec (i : Instr) (s : State) : Host.Outcome State Fault Refusal :=
  match i with
  | .ldwWeights c => Sys2Proof.Machine.execLdwWeights c s
  | .ldwScales c => Sys2Proof.Machine.execLdwScales c s
  | .ldwGen c => Sys2Proof.Machine.execLdwGen c s
  | .lda c => Sys2Proof.Machine.execLda c s
  | .sto c => Sys2Proof.Machine.execSto c s
  | .stoAtomic c => Sys2Proof.Machine.execStoAtomic c s
  | .mcastCopy c => Sys2Proof.Machine.execMcastCopy c s
  | .mcastLoad c => Sys2Proof.Machine.execMcastLoad c s
  | .pass c => Sys2Proof.Machine.execPass c s
  | .pass24 c => Sys2Proof.Machine.execPass24 c s
  | .stream c => Sys2Proof.Machine.execStream c s
  | .aclr c => Sys2Proof.Machine.execAclr c s
  | .adrainEpi c => Sys2Proof.Machine.execAdrainEpi c s
  | .adrainRaw c => Sys2Proof.Machine.execAdrainRaw c s
  | .adrainAtomic c => Sys2Proof.Machine.execAdrainAtomic c s
  | .adrainList c => Sys2Proof.Machine.execAdrainList c s
  | .aepiForm0 c => Sys2Proof.Machine.execAepiForm0 c s
  | .aepiForm1 c => Sys2Proof.Machine.execAepiForm1 c s
  | .waitf c => Sys2Proof.Machine.execWaitf c s
  | .waitc c => Sys2Proof.Machine.execWaitc c s
  | .claim c => Sys2Proof.Machine.execClaim c s
  | .claimTicket c => Sys2Proof.Machine.execClaimTicket c s
  | .barrier c => Sys2Proof.Machine.execBarrier c s
  | .signalDoorbell c => Sys2Proof.Machine.execSignalDoorbell c s
  | .signalArrive c => Sys2Proof.Machine.execSignalArrive c s
  | .signalTicket c => Sys2Proof.Machine.execSignalTicket c s
  | .loopInstr c => Sys2Proof.Machine.execLoopInstr c s
  | .br c => Sys2Proof.Machine.execBr c s
  | .endProgram c => Sys2Proof.Machine.execEndProgram c s
  | .setpArray c => Sys2Proof.Machine.execSetpArray c s
  | .setpAga c => Sys2Proof.Machine.execSetpAga c s
  | .setpAgb c => Sys2Proof.Machine.execSetpAgb c s
  | .setpDrain c => Sys2Proof.Machine.execSetpDrain c s
  | .sgseed c => Sys2Proof.Machine.execSgseed c s
  | .boundWrite c => Sys2Proof.Machine.execBoundWrite c s
  | .coreDispatch c => Sys2Proof.Machine.execCoreDispatch c s
  | .passRetire c => Sys2Proof.Machine.execPassRetire c s
  | .passClosing c => Sys2Proof.Machine.execPassClosing c s
  | .adrainTransfer c => Sys2Proof.Machine.execAdrainTransfer c s
  | .epilogueDrain c => Sys2Proof.Machine.execEpilogueDrain c s
  | .rowClose c => Sys2Proof.Machine.execRowClose c s
  | .rangeMissWindow c => Sys2Proof.Machine.execRangeMissWindow c s
  | .checkpointTest c rows cols => Sys2Proof.Machine.execCheckpointTest c rows cols s
  | .loadPageWrite c => Sys2Proof.Machine.execLoadPageWrite c s
  | .scrubPage c mc page => Sys2Proof.Machine.execScrubPage c mc page s
  | .scrubAgeExceeded c => Sys2Proof.Machine.execScrubAgeExceeded c s
  | .hacSpill c => Sys2Proof.Machine.execHacSpill c s
  | .tileFaultReport c => Sys2Proof.Machine.execTileFaultReport c s
  | .debugEnter c => Sys2Proof.Machine.execDebugEnter c s
  | .writeAck c idx => Sys2Proof.Machine.execWriteAck c idx s
  | .tagWaitTimeout c => Sys2Proof.Machine.execTagWaitTimeout c s
  | .waitcTimeout c => Sys2Proof.Machine.execWaitcTimeout c s
  | .barrierTimeout c => Sys2Proof.Machine.execBarrierTimeout c s
  | .spmAccess c t acc rivals => Sys2Proof.Machine.execSpmAccess c t acc rivals s
  | .spmEccWriteback c mem word => Sys2Proof.Machine.execSpmEccWriteback c mem word s
  | .gatherEntryWrite c idx => Sys2Proof.Machine.execGatherEntryWrite c idx s
  | .remoteSpmAccess acc => Sys2Proof.Machine.execRemoteSpmAccess acc s
  | .retentionEnter c group => Sys2Proof.Machine.execRetentionEnter c group s
  | .retentionScrubWake c mc => Sys2Proof.Machine.execRetentionScrubWake c mc s
  | .groupWakeDone c group => Sys2Proof.Machine.execGroupWakeDone c group s
  | .bankGroupClosed c group => Sys2Proof.Machine.execBankGroupClosed c group s
  | .coreSeqHalt a c => Sys2Proof.Machine.execCoreSeqHalt a c s
  | .coreSeqStep a c => Sys2Proof.Machine.execCoreSeqStep a c s
  | .coreSeqRun a c => Sys2Proof.Machine.execCoreSeqRun a c s
  | .coreImemWrite a c idx high v => Sys2Proof.Machine.execCoreImemWrite a c idx high v s
  | .coreImemRead a c idx high => Sys2Proof.Machine.execCoreImemRead a c idx high s
  | .coreBoundWrite a c b v => Sys2Proof.Machine.execCoreBoundWrite a c b v s
  | .coreArrScrubCtrlWrite a c v => Sys2Proof.Machine.execCoreArrScrubCtrlWrite a c v s
  | .coreAccDbgCtrlWrite a c v => Sys2Proof.Machine.execCoreAccDbgCtrlWrite a c v s
  | .coreSpmModeWrite a c v => Sys2Proof.Machine.execCoreSpmModeWrite a c v s
  | .coreSpmWheelWrite a c v => Sys2Proof.Machine.execCoreSpmWheelWrite a c v s
  | .spmModeApply c => Sys2Proof.Machine.execSpmModeApply c s
  | .coreSpmPwrReqWrite a c high v => Sys2Proof.Machine.execCoreSpmPwrReqWrite a c high v s
  | .coreSpmArriveWrite a c idx v inc => Sys2Proof.Machine.execCoreSpmArriveWrite a c idx v inc s
  | .coreRqLimitWrite a c v => Sys2Proof.Machine.execCoreRqLimitWrite a c v s
  | .coreSpHacCfgWrite a c v => Sys2Proof.Machine.execCoreSpHacCfgWrite a c v s
  | .latchedPairRead a addr => Sys2Proof.Machine.execLatchedPairRead a addr s
  | .rasLogRead a idx word => Sys2Proof.Machine.execRasLogRead a idx word s
  | .registerWrite a addr v => Sys2Proof.Machine.execRegisterWrite a addr v s
  | .cmdqSqdbWrite a q v => Sys2Proof.Machine.execCmdqSqdbWrite a q v s
  | .cmdqCqdbWrite a q v => Sys2Proof.Machine.execCmdqCqdbWrite a q v s
  | .queueEnable a q v => Sys2Proof.Machine.execQueueEnable a q v s
  | .queueDisable a q v => Sys2Proof.Machine.execQueueDisable a q v s
  | .queueDrained q => Sys2Proof.Machine.execQueueDrained q s
  | .cmdqEvtClear a v => Sys2Proof.Machine.execCmdqEvtClear a v s
  | .sqFetch src readFails => Sys2Proof.Machine.execSqFetch src readFails s
  | .cqPost src => Sys2Proof.Machine.execCqPost src s
  | .msixMessage v => Sys2Proof.Machine.execMsixMessage v s
  | .irqAgeExpiry q => Sys2Proof.Machine.execIrqAgeExpiry q s
  | .progressInterval id => Sys2Proof.Machine.execProgressInterval id s
  | .completionDoorbell idx => Sys2Proof.Machine.execCompletionDoorbell idx s
  | .dispatchComplete idx => Sys2Proof.Machine.execDispatchComplete idx s
  | .formatBarrierRelease c => Sys2Proof.Machine.execFormatBarrierRelease c s
  | .layerRerun id => Sys2Proof.Machine.execLayerRerun id s
  | .routedRound id => Sys2Proof.Machine.execRoutedRound id s
  | .ledgeTileStage id => Sys2Proof.Machine.execLedgeTileStage id s
  | .predSkipMapRead id => Sys2Proof.Machine.execPredSkipMapRead id s
  | .predWindowClose layer => Sys2Proof.Machine.execPredWindowClose layer s
  | .deferredRecheck => Sys2Proof.Machine.execDeferredRecheck s
  | .coreRenumber => Sys2Proof.Machine.execCoreRenumber s
  | .identify src => Sys2Proof.Machine.execIdentify src s
  | .progress src => Sys2Proof.Machine.execProgress src s
  | .abort src => Sys2Proof.Machine.execAbort src s
  | .drain src => Sys2Proof.Machine.execDrain src s
  | .softReset src => Sys2Proof.Machine.execSoftReset src s
  | .softResetApply => Sys2Proof.Machine.execSoftResetApply s
  | .maintEnter src => Sys2Proof.Machine.execMaintEnter src s
  | .maintExit src => Sys2Proof.Machine.execMaintExit src s
  | .countersRead src => Sys2Proof.Machine.execCountersRead src s
  | .errlogRead src => Sys2Proof.Machine.execErrlogRead src s
  | .telemetryRead src => Sys2Proof.Machine.execTelemetryRead src s
  | .powerCapSet src => Sys2Proof.Machine.execPowerCapSet src s
  | .opSet src => Sys2Proof.Machine.execOpSet src s
  | .handleAlloc src => Sys2Proof.Machine.execHandleAlloc src s
  | .handleFree src => Sys2Proof.Machine.execHandleFree src s
  | .handleAttr src => Sys2Proof.Machine.execHandleAttr src s
  | .dmaCopy src => Sys2Proof.Machine.execDmaCopy src s
  | .dmaFill src => Sys2Proof.Machine.execDmaFill src s
  | .pageXfer src => Sys2Proof.Machine.execPageXfer src s
  | .weightLoad src => Sys2Proof.Machine.execWeightLoad src s
  | .weightUnload src => Sys2Proof.Machine.execWeightUnload src s
  | .predEnable src => Sys2Proof.Machine.execPredEnable src s
  | .layerRun src => Sys2Proof.Machine.execLayerRun src s
  | .layerChain src => Sys2Proof.Machine.execLayerChain src s
  | .tileRun src => Sys2Proof.Machine.execTileRun src s
  | .worklistDefine src => Sys2Proof.Machine.execWorklistDefine src s
  | .worklistFree src => Sys2Proof.Machine.execWorklistFree src s
  | .fabricDiscover src => Sys2Proof.Machine.execFabricDiscover src s
  | .fabricStatus src => Sys2Proof.Machine.execFabricStatus src s
  | .ropeJoin src => Sys2Proof.Machine.execRopeJoin src s
  | .ropeLeave src => Sys2Proof.Machine.execRopeLeave src s
  | .portReset src => Sys2Proof.Machine.execPortReset src s
  | .selfTest src failed => Sys2Proof.Machine.execSelfTest src failed s
  | .rowRepair src => Sys2Proof.Machine.execRowRepair src s
  | .coreReset src => Sys2Proof.Machine.execCoreReset src s
  | .debugHalt src => Sys2Proof.Machine.execDebugHalt src s
  | .debugAccRead src => Sys2Proof.Machine.execDebugAccRead src s
  | .debugResume src => Sys2Proof.Machine.execDebugResume src s
  | .attest src => Sys2Proof.Machine.execAttest src s
  | .certRead src => Sys2Proof.Machine.execCertRead src s
  | .fwUpdate src => Sys2Proof.Machine.execFwUpdate src s
  | .keyOp src => Sys2Proof.Machine.execKeyOp src s
  | .glbBmcSubmit a => Sys2Proof.Machine.execGlbBmcSubmit a s
  | .glbBmcPop a => Sys2Proof.Machine.execGlbBmcPop a s
  | .usbRegisterRead req => Sys2Proof.Machine.execUsbRegisterRead req s
  | .usbRegisterWrite req => Sys2Proof.Machine.execUsbRegisterWrite req s
  | .usbSubmit req => Sys2Proof.Machine.execUsbSubmit req s
  | .usbCompletionAck => Sys2Proof.Machine.execUsbCompletionAck s
  | .mbxLockRead a ch => Sys2Proof.Machine.execMbxLockRead a ch s
  | .mbxLockRelease a ch => Sys2Proof.Machine.execMbxLockRelease a ch s
  | .mbxDataWrite a ch idx v => Sys2Proof.Machine.execMbxDataWrite a ch idx v s
  | .mbxSend a ch v => Sys2Proof.Machine.execMbxSend a ch v s
  | .mbxAck a ch v => Sys2Proof.Machine.execMbxAck a ch v s
  | .mbxTimeout ch => Sys2Proof.Machine.execMbxTimeout ch s
  | .fwVerify ch => Sys2Proof.Machine.execFwVerify ch s
  | .fwWrite ch => Sys2Proof.Machine.execFwWrite ch s
  | .fwActivate ch => Sys2Proof.Machine.execFwActivate ch s
  | .fwCommit ch => Sys2Proof.Machine.execFwCommit ch s
  | .keyAttestRotate ch => Sys2Proof.Machine.execKeyAttestRotate ch s
  | .keyRevoke ch => Sys2Proof.Machine.execKeyRevoke ch s
  | .certWrite ch => Sys2Proof.Machine.execCertWrite ch s
  | .bar2Access x write n data => Sys2Proof.Machine.execBar2Access x write n data s
  | .dmaPiece e => Sys2Proof.Machine.execDmaPiece e s
  | .sliceAtomicOp sl => Sys2Proof.Machine.execSliceAtomicOp sl s
  | .sliceRowFill sl => Sys2Proof.Machine.execSliceRowFill sl s
  | .sliceIdleWriteback sl row => Sys2Proof.Machine.execSliceIdleWriteback sl row s
  | .ledgeAtomicOp die bank => Sys2Proof.Machine.execLedgeAtomicOp die bank s
  | .tset die bank => Sys2Proof.Machine.execTset die bank s
  | .nvmeCompletion drive ok => Sys2Proof.Machine.execNvmeCompletion drive ok s
  | .nvmeCmdTimeout drive => Sys2Proof.Machine.execNvmeCmdTimeout drive s
  | .nvmeLinkDown drive => Sys2Proof.Machine.execNvmeLinkDown drive s
  | .frameReceive p f crcOk => Sys2Proof.Machine.execFrameReceive p f crcOk s
  | .nakReceive p ack => Sys2Proof.Machine.execNakReceive p ack s
  | .frameForward idx => Sys2Proof.Machine.execFrameForward idx s
  | .vc1Escalate idx => Sys2Proof.Machine.execVc1Escalate idx s
  | .writeMsg idx => Sys2Proof.Machine.execWriteMsg idx s
  | .writeP idx => Sys2Proof.Machine.execWriteP idx s
  | .readMsg idx => Sys2Proof.Machine.execReadMsg idx s
  | .readResp idx => Sys2Proof.Machine.execReadResp idx s
  | .atomic idx => Sys2Proof.Machine.execAtomic idx s
  | .atomicResp idx => Sys2Proof.Machine.execAtomicResp idx s
  | .wack idx => Sys2Proof.Machine.execWack idx s
  | .qsubmit idx => Sys2Proof.Machine.execQsubmit idx s
  | .qack idx => Sys2Proof.Machine.execQack idx s
  | .cqdb idx => Sys2Proof.Machine.execCqdb idx s
  | .remoteTimeout idx => Sys2Proof.Machine.execRemoteTimeout idx s
  | .helloSend p => Sys2Proof.Machine.execHelloSend p s
  | .hello p h => Sys2Proof.Machine.execHello p h s
  | .helloTimeout p => Sys2Proof.Machine.execHelloTimeout p s
  | .portSignalLoss p => Sys2Proof.Machine.execPortSignalLoss p s
  | .portTrained p badLanes => Sys2Proof.Machine.execPortTrained p badLanes s
  | .laneSpare p lane => Sys2Proof.Machine.execLaneSpare p lane s
  | .portRetrain p => Sys2Proof.Machine.execPortRetrain p s
  | .portCtrlWrite a p v => Sys2Proof.Machine.execPortCtrlWrite a p v s
  | .startWave p epoch serial root requireId => Sys2Proof.Machine.execStartWave p epoch serial root requireId s
  | .electionEnd => Sys2Proof.Machine.execElectionEnd s
  | .assign p epoch xyzw requireId => Sys2Proof.Machine.execAssign p epoch xyzw requireId s
  | .join p serial xyzw => Sys2Proof.Machine.execJoin p serial xyzw s
  | .waveEnd => Sys2Proof.Machine.execWaveEnd s
  | .config p epoch shape mode collector found ok requireId => Sys2Proof.Machine.execConfig p epoch shape mode collector found ok requireId s
  | .configAck p serial devid => Sys2Proof.Machine.execConfigAck p serial devid s
  | .configTimeout => Sys2Proof.Machine.execConfigTimeout s
  | .linkDown p dim coord => Sys2Proof.Machine.execLinkDown p dim coord s
  | .linkUp p dim coord => Sys2Proof.Machine.execLinkUp p dim coord s
  | .witness p r => Sys2Proof.Machine.execWitness p r s
  | .witnessHoldExpiry idx => Sys2Proof.Machine.execWitnessHoldExpiry idx s
  | .witnessCollectExpiry idx => Sys2Proof.Machine.execWitnessCollectExpiry idx s
  | .idChallenge p nonce serial => Sys2Proof.Machine.execIdChallenge p nonce serial s
  | .idProof p proof serial => Sys2Proof.Machine.execIdProof p proof serial s
  | .idExchangeTimeout p => Sys2Proof.Machine.execIdExchangeTimeout p s
  | .estimationPeriod => Sys2Proof.Machine.execEstimationPeriod s
  | .fixedBreak => Sys2Proof.Machine.execFixedBreak s
  | .opTargetSet => Sys2Proof.Machine.execOpTargetSet s
  | .opReevaluate => Sys2Proof.Machine.execOpReevaluate s
  | .vddcSettled => Sys2Proof.Machine.execVddcSettled s
  | .voltageMoveTimeout => Sys2Proof.Machine.execVoltageMoveTimeout s
  | .pwrCapWrite a v => Sys2Proof.Machine.execPwrCapWrite a v s
  | .pwrBudgetWrite a v => Sys2Proof.Machine.execPwrBudgetWrite a v s
  | .pwrOpCtrlWrite a v => Sys2Proof.Machine.execPwrOpCtrlWrite a v s
  | .pwrAlert => Sys2Proof.Machine.execPwrAlert s
  | .alertHoldExpiry => Sys2Proof.Machine.execAlertHoldExpiry s
  | .thermalStep sensor reading => Sys2Proof.Machine.execThermalStep sensor reading s
  | .thermalRepeat sensor reading => Sys2Proof.Machine.execThermalRepeat sensor reading s
  | .thermalClear sensor reading => Sys2Proof.Machine.execThermalClear sensor reading s
  | .thermtrip sensor reading => Sys2Proof.Machine.execThermtrip sensor reading s
  | .ropeForm f => Sys2Proof.Machine.execRopeForm f s
  | .ropeSync h epoch point members => Sys2Proof.Machine.execRopeSync h epoch point members s
  | .ropeEpochTick => Sys2Proof.Machine.execRopeEpochTick s
  | .paceDown h point cause => Sys2Proof.Machine.execPaceDown h point cause s
  | .paceVote h epoch point => Sys2Proof.Machine.execPaceVote h epoch point s
  | .voteExamine => Sys2Proof.Machine.execVoteExamine s
  | .paceUp h epoch point => Sys2Proof.Machine.execPaceUp h epoch point s
  | .paceFloor h set => Sys2Proof.Machine.execPaceFloor h set s
  | .ropeLeaveMsg h => Sys2Proof.Machine.execRopeLeaveMsg h s
  | .ropeDrop h device => Sys2Proof.Machine.execRopeDrop h device s
  | .ropeRefuse h reason => Sys2Proof.Machine.execRopeRefuse h reason s
  | .ropeCapMove => Sys2Proof.Machine.execRopeCapMove s
  | .memberDrop device => Sys2Proof.Machine.execMemberDrop device s
  | .leaderLost => Sys2Proof.Machine.execLeaderLost s
  | .ropeJoinTimeout => Sys2Proof.Machine.execRopeJoinTimeout s
  | .heartbeatPoll cp c answered => Sys2Proof.Machine.execHeartbeatPoll cp c answered s
  | .heartbeatMiss c spare => Sys2Proof.Machine.execHeartbeatMiss c spare s
  | .coreFence c cause spare => Sys2Proof.Machine.execCoreFence c cause spare s
  | .spareInService c pass => Sys2Proof.Machine.execSpareInService c pass s
  | .cairnProgram c => Sys2Proof.Machine.execCairnProgram c s
  | .cpWatchdogExpiry cp => Sys2Proof.Machine.execCpWatchdogExpiry cp s
  | .mpFault event => Sys2Proof.Machine.execMpFault event s
  | .patrolScrubRow where_ => Sys2Proof.Machine.execPatrolScrubRow where_ s
  | .patrolOverrun engine age => Sys2Proof.Machine.execPatrolOverrun engine age s
  | .telSnap a v => Sys2Proof.Machine.execTelSnap a v s
  | .telChCfgWrite a ch v => Sys2Proof.Machine.execTelChCfgWrite a ch v s
  | .telChClr a ch => Sys2Proof.Machine.execTelChClr a ch s
  | .rasViolClr a v => Sys2Proof.Machine.execRasViolClr a v s
  | .sysRstAssert => Sys2Proof.Machine.execSysRstAssert s
  | .sysRstRelease recoveryLow conditionsMet => Sys2Proof.Machine.execSysRstRelease recoveryLow conditionsMet s
  | .perstAssert => Sys2Proof.Machine.execPerstAssert s
  | .perstRelease => Sys2Proof.Machine.execPerstRelease s
  | .vrPgRise k => Sys2Proof.Machine.execVrPgRise k s
  | .vrPgFall k => Sys2Proof.Machine.execVrPgFall k s
  | .refclkLoss => Sys2Proof.Machine.execRefclkLoss s
  | .rootPllLock otpOk => Sys2Proof.Machine.execRootPllLock otpOk s
  | .memoryTrainingDone r => Sys2Proof.Machine.execMemoryTrainingDone r s
  | .attestKeyReady => Sys2Proof.Machine.execAttestKeyReady s
  | .driveBringupEnd drives => Sys2Proof.Machine.execDriveBringupEnd drives s
  | .recoveryImage image => Sys2Proof.Machine.execRecoveryImage image s
  | .pwrAlertRelease => Sys2Proof.Machine.execPwrAlertRelease s
  | .packagePowerLoss => Sys2Proof.Machine.execPackagePowerLoss s
  | .codewordSideband p ack crclass credits => Sys2Proof.Machine.execCodewordSideband p ack crclass credits s
  | .pcieLinkDown => Sys2Proof.Machine.execPcieLinkDown s
  | .pcieLinkUp => Sys2Proof.Machine.execPcieLinkUp s
  | .pcieConfigWrite busMaster d0 d3hot => Sys2Proof.Machine.execPcieConfigWrite busMaster d0 d3hot s
  | .usbConfigurationChange configured suspended => Sys2Proof.Machine.execUsbConfigurationChange configured suspended s
  | .portSignalReturn p => Sys2Proof.Machine.execPortSignalReturn p s
  | .witnessWindowExpiry idx => Sys2Proof.Machine.execWitnessWindowExpiry idx s

end Sys2Proof.Machine
end

