-- ==== Sys2Proof/Safety.lean ====
section
/-!
DEFINITION. The terms in which claims are stated: a safe run, a command that completes, an instruction that stands at a
core's program counter, a queue entry that a command processor accepts.
-/

namespace Sys2Proof

/-- The step goes on. -/
def stepsOn (s : Machine.State) : Prop := ∃ t, Machine.step s = .next t

/-- A run of `n` steps goes on throughout. -/
def runsOn : Nat → Machine.State → Prop
  | 0, _ => True
  | n + 1, s => ∃ t, Machine.step s = .next t ∧ runsOn n t

end Sys2Proof

namespace Sys2Proof.Machine

/-- The command completes: it answers a next state, of which `P` holds. -/
def Gives (i : Instr) (s : State) (P : State → Prop) : Prop := ∃ t, exec i s = .next t ∧ P t

/-- The word stands at the pc of a core that may issue, holds nothing back and has no checkpoint to test (R120), is an
instruction of the kind, and passes the checks of R209; no word of the core's small memories is uncorrectable (R402). -/
abbrev Issues (s : State) (c : Nat) (kind : TileKind) (w : W64) : Prop :=
  (s.core c).canIssue = true ∧ (s.core c).accHeld = none ∧ (s.core c).imemAt (s.core c).pc = w ∧
    tileKind w = some kind ∧ tileReserved w = false ∧ (s.core c).checkDue = false ∧ (s.core c).bad = []

/-- A core with the counting and the going on that an issue brings; its own effect is `k`. -/
abbrev CoreState.passed (c : Nat) (k : CoreState) : CoreState := (k.issued c).goOn c

/-- The write reaches its register and sets no reserved bit, and `u` is what its writable bits hold. -/
abbrev Writes (s : State) (a : Agent) (addr : Nat) (v u : W32) : Prop :=
  ∃ r, s.writeWay a addr = .row r ∧ v &&& r.rsv = 0 ∧ v &&& r.wmask = u

/-- The 64 bytes of an entry pass checks 1 to 5. -/
abbrev Framed (bytes : List Byte) : Prop := (⟨.usb, 0, 0, bytes, none, false, false, [], 0⟩ : Entry).framing = none

/-- The flags that a command starts with (R311). -/
abbrev State.newFlags (s : State) : Nat := if s.capUnmet then 16 else 0

/-- The final completion, decided in `s`, of an entry for which no interim one was posted. -/
abbrev Entry.answer (e : Entry) (s : State) (status detail result : Nat) : Posting :=
  ⟨e.src, none, status, detail, e.tag, s.newFlags, e.sqhead, result, false, e.flags.testBit 0, e.born, s.nextCmd⟩

/-- The ACCEPTED completion of a long command that starts in `s`. -/
abbrev Entry.accepted (e : Entry) (s : State) (unit total : Nat) : Posting :=
  ⟨e.src, some s.freshCmd, stAccepted, 0, e.tag, s.newFlags, e.sqhead, progressWord unit total, true, false, e.born, s.freshCmd + 1⟩

/-- The final completion of a command that starts in `s`. -/
abbrev Entry.final (e : Entry) (s : State) (status detail result : Nat) : Posting :=
  ⟨e.src, some s.freshCmd, status, detail, e.tag, s.newFlags, e.sqhead, result, false, e.flags.testBit 0, e.born,
    s.freshCmd + 1⟩

/-- Between `s` and `t` the completions `ps` are decided, in this order, behind those that were decided before. -/
abbrev Decides (s t : State) (ps : List Posting) : Prop := ∃ more, t.posting = s.posting ++ more ∧ ps.Sublist more

/-- The entry stands at the head of its source at stage 2, looked at for the first time, no FENCE holds it, and it is the turn of
its source (R268). -/
abbrev AtHead (s : State) (src : Src) (op : Nat) (e : Entry) : Prop :=
  s.served src = true ∧ s.inTurn src = true ∧ s.head src = some e ∧ e.op = op ∧ s.fenced e = false ∧ e.deferred = none ∧ e.checked = false ∧
    e.passed = false

/-- The entry passes check 6, which reads `copy` and leaves `u`, and check 7; the piton store has space for it (R409); it is the
last of its source that waits. -/
abbrev Accepts (s : State) (src : Src) (op : Nat) (checks : Checks) (e : Entry) (copy : List Byte) (u : State) : Prop :=
  AtHead s src op e ∧ (∃ cs, checks e (s.tookTurn src) = .done cs copy u ∧ firstBad (e.rsvChecks ++ cs) = none) ∧
    u.gate e = .accept ∧ u.pitonHeld < 4096 ∧ (u.popHead src).head src = none

/-- No unit of device memory that the bytes touch holds an error, and no transfer of them over the GDDR6 links fails four
times (R319). -/
abbrev Clean (s : State) (a n : Nat) : Prop :=
  (∀ u ∈ s.eccUnits a n, s.unitErr a u = 0) ∧
    (s.addrKind a = .tier1 → ∀ u ∈ s.eccUnits a n, Tab.get (fun _ => 0) s.edcFaults u < 4)

/-- Class `c` of the violation counters has counted one more in `t` than in `s` (R419). -/
abbrev Counted (s t : State) (c : Nat) : Prop :=
  t.pair (RAS_VIOL_LO c) (RAS_VIOL_HI c) = min (s.pair (RAS_VIOL_LO c) (RAS_VIOL_HI c) + 1) (2 ^ 64 - 1)

/-- A well-formed operation `op` with argument `a` waits on secure channel `ch` for the MP (R286, R436). -/
abbrev Asked (s : State) (ch op a : Nat) : Prop :=
  (ch = 8 ∨ ch = 9) ∧ s.mbxSt ch = mbxSent ∧ entryNat (s.mbxBytes ch) 0 1 = op ∧ s.mbxDead 7 = false ∧ s.secRsv ch = true ∧
    s.secArg ch = a

/-- Channel `ch` is ACKED with a reply code. -/
abbrev Replied (t : State) (ch rcode : Nat) : Prop := t.mbxSt ch = mbxAcked ∧ t.fld (MBX_STAT ch) 15 8 = rcode

/-- The opcode, the source and the field checks of a command that stands in an entry of a queue. -/
def queueOp : Instr → Option (Nat × Src × (Entry → State → List Check))
  | .identify q => some (0x01, q, fun _ _ => [])
  | .progress q => some (0x02, q, fun _ _ => [])
  | .abort q => some (0x03, q, fun _ _ => [])
  | .drain q => some (0x04, q, fun _ _ => [])
  | .softReset q => some (0x05, q, fun _ _ => [])
  | .maintEnter q => some (0x06, q, fun _ _ => [])
  | .maintExit q => some (0x07, q, fun _ _ => [])
  | .countersRead q => some (0x08, q, fun _ _ => [])
  | .handleAlloc q => some (0x10, q, allocChecks)
  | .handleFree q => some (0x11, q, handleField)
  | .dmaCopy q => some (0x13, q, copyChecks)
  | .dmaFill q => some (0x14, q, fillChecks)
  | .pageXfer q => some (0x15, q, pageChecks)
  | .predEnable q => some (0x22, q, fun _ _ => [])
  | .opSet q => some (0x41, q, fun _ _ => [])
  | .fabricDiscover q => some (0x50, q, fun _ _ => [])
  | .ropeLeave q => some (0x53, q, fun _ _ => [])
  | .portReset q => some (0x54, q, fun _ _ => [])
  | .coreReset q => some (0x62, q, coreField)
  | .debugHalt q => some (0x63, q, coreField)
  | .debugResume q => some (0x65, q, coreField)
  | _ => none

/-! ## Frames -/

/-- The parts of the machine that whole families of commands leave alone: the queue and the rings of the private pairs; pins,
links, boot and drives; flash and keys; fabric ports, discovery and witness reports; power control and the rope; device and
host memory; every core; every core but one. -/
inductive Part where
  | rings
  | pins
  | secure
  | fabric
  | power
  | mem
  | cores
  | others (c : Nat)
  deriving DecidableEq, Repr

/-- A part is in `t` as it is in `s`. -/
def Part.Same (s t : State) : Part → Prop
  | .rings => t.pending = s.pending ∧ t.usbSq = s.usbSq ∧ t.usbCq = s.usbCq ∧ t.bmcSq = s.bmcSq ∧ t.bmcCq = s.bmcCq
  | .pins => t.busMaster = s.busMaster ∧ t.inD0 = s.inD0 ∧ t.d3hot = s.d3hot ∧ t.pcieUp = s.pcieUp ∧ t.usbUp = s.usbUp ∧
      t.drives = s.drives ∧ t.boot = s.boot ∧ t.bootStep = s.bootStep
  | .secure => t.selector = s.selector ∧ t.flash = s.flash ∧ t.akGen = s.akGen ∧ t.recovery = s.recovery ∧ t.svns = s.svns
  | .fabric => t.ports = s.ports ∧ t.fabOut = s.fabOut ∧ t.wave = s.wave ∧ t.broken = s.broken ∧ t.suspects = s.suspects ∧
      t.holds = s.holds ∧ t.collect = s.collect ∧ t.arrivals = s.arrivals
  | .power => t.pwr = s.pwr ∧ t.rope = s.rope ∧ t.ropeList = s.ropeList
  | .mem => t.dmem = s.dmem ∧ t.hmem = s.hmem ∧ t.disks = s.disks ∧ t.rowErr = s.rowErr
  | .cores => t.cores = s.cores
  | .others c => ∀ d, d ≠ c → t.core d = s.core d

/-- What a command of each kind leaves as it was, whatever it meets. -/
def leaves : Instr → List Part
  | .ldwWeights _ | .ldwScales _ | .lda _ | .mcastCopy _ | .mcastLoad _ | .claim _ | .claimTicket _ | .barrier _
  | .signalDoorbell _ | .signalArrive _ | .signalTicket _ | .endProgram _ | .loadPageWrite _ | .scrubAgeExceeded _
  | .hacSpill _ | .tileFaultReport _ | .debugEnter _ | .writeAck _ _ | .tagWaitTimeout _ | .remoteSpmAccess _
  | .retentionEnter _ _ | .latchedPairRead _ _ | .cmdqEvtClear _ _ | .formatBarrierRelease _ | .usbRegisterRead _
  | .readMsg _ =>
    [.rings, .pins, .secure, .fabric, .power, .mem]
  | .ldwGen c | .pass c | .pass24 c | .stream c | .aclr c | .adrainEpi c | .adrainRaw c | .adrainAtomic c
  | .adrainList c | .aepiForm0 c | .aepiForm1 c | .waitf c | .waitc c | .loopInstr c | .br c | .setpArray c
  | .setpAga c | .setpAgb c | .setpDrain c | .sgseed c | .boundWrite c | .coreDispatch c | .passRetire c
  | .passClosing c | .adrainTransfer c | .rowClose c | .checkpointTest c _ _ | .scrubPage c _ _ | .waitcTimeout c
  | .barrierTimeout c | .spmAccess c _ _ _ | .spmEccWriteback c _ _ | .gatherEntryWrite c _ | .retentionScrubWake c _
  | .groupWakeDone c _ | .bankGroupClosed c _ | .coreSeqHalt _ c | .coreSeqStep _ c | .coreSeqRun _ c
  | .coreImemWrite _ c _ _ _ | .coreBoundWrite _ c _ _ | .coreArrScrubCtrlWrite _ c _ | .coreAccDbgCtrlWrite _ c _
  | .coreSpmModeWrite _ c _ | .coreSpmWheelWrite _ c _ | .spmModeApply c | .coreSpmPwrReqWrite _ c _ _
  | .coreSpmArriveWrite _ c _ _ _ | .coreRqLimitWrite _ c _ | .coreSpHacCfgWrite _ c _ =>
    .others c :: [.rings, .pins, .secure, .fabric, .power, .mem]
  | .sto _ | .stoAtomic _ | .epilogueDrain _ | .rangeMissWindow _ | .completionDoorbell _ | .dispatchComplete _
  | .layerRerun _ | .routedRound _ | .ledgeTileStage _ | .predSkipMapRead _ | .predWindowClose _ | .dmaPiece _
  | .nvmeCompletion _ _ | .writeMsg _ | .writeP _ | .patrolScrubRow _ =>
    [.rings, .pins, .secure, .fabric, .power]
  | .coreImemRead _ _ _ _ | .rasLogRead _ _ _ | .cmdqSqdbWrite _ _ _ | .cmdqCqdbWrite _ _ _ | .queueEnable _ _ _
  | .queueDisable _ _ _ | .queueDrained _ | .msixMessage _ | .irqAgeExpiry _ | .progressInterval _ | .mbxLockRead _ _
  | .mbxLockRelease _ _ | .mbxDataWrite _ _ _ _ | .mbxSend _ _ _ | .mbxAck _ _ _ | .mbxTimeout _ | .fwVerify _
  | .fwCommit _ | .keyRevoke _ | .sliceRowFill _ | .sliceIdleWriteback _ _ | .nvmeCmdTimeout _ | .nvmeLinkDown _
  | .vc1Escalate _ | .atomic _ | .cqdb _ | .configTimeout | .heartbeatPoll _ _ _ | .cairnProgram _
  | .patrolOverrun _ _ | .telSnap _ _ | .telChCfgWrite _ _ _ | .telChClr _ _ | .rasViolClr _ _ =>
    [.rings, .pins, .secure, .fabric, .power, .mem, .cores]
  | .sqFetch _ _ | .glbBmcSubmit _ | .glbBmcPop _ | .usbSubmit _ | .usbCompletionAck =>
    [.pins, .secure, .fabric, .power, .mem, .cores]
  | .registerWrite _ _ _ | .usbRegisterWrite _ =>
    [.pins, .secure, .mem]
  | .cqPost _ =>
    [.pins, .secure, .fabric, .cores]
  | .deferredRecheck | .abort _ | .errlogRead _ | .telemetryRead _ | .layerRun _ | .layerChain _ | .tileRun _
  | .worklistDefine _ | .fabricStatus _ | .rowRepair _ | .debugAccRead _ | .attest _ | .certRead _
  | .heartbeatMiss _ _ | .coreFence _ _ _ | .spareInService _ _ =>
    [.rings, .pins, .secure, .fabric]
  | .coreRenumber | .handleAlloc _ | .handleFree _ | .handleAttr _ | .weightLoad _ | .weightUnload _
  | .worklistFree _ | .ropeJoin _ | .coreReset _ | .debugHalt _ | .debugResume _ | .estimationPeriod | .vddcSettled
  | .pwrAlert | .ropeForm _ | .ropeSync _ _ _ _ | .ropeEpochTick | .paceDown _ _ _ | .leaderLost =>
    [.rings, .pins, .secure, .fabric, .mem]
  | .identify _ | .progress _ | .drain _ | .softReset _ | .maintEnter _ | .maintExit _ | .countersRead _
  | .powerCapSet _ | .opSet _ | .dmaCopy _ | .dmaFill _ | .pageXfer _ | .predEnable _ | .ropeLeave _ | .fwUpdate _
  | .keyOp _ | .fixedBreak | .opTargetSet | .opReevaluate | .voltageMoveTimeout | .pwrCapWrite _ _
  | .pwrBudgetWrite _ _ | .pwrOpCtrlWrite _ _ | .alertHoldExpiry | .thermalStep _ _ | .thermalRepeat _ _
  | .thermalClear _ _ | .paceVote _ _ _ | .voteExamine | .paceUp _ _ _ | .paceFloor _ _ | .ropeLeaveMsg _
  | .ropeDrop _ _ | .ropeRefuse _ _ | .ropeCapMove | .memberDrop _ | .ropeJoinTimeout | .cpWatchdogExpiry _
  | .mpFault _ | .pwrAlertRelease =>
    [.rings, .pins, .secure, .fabric, .mem, .cores]
  | .softResetApply =>
    [.rings, .secure, .fabric]
  | .fabricDiscover _ | .portReset _ =>
    [.rings, .pins, .secure, .mem, .cores]
  | .selfTest _ _ =>
    [.rings, .pins, .secure]
  | .fwWrite _ | .fwActivate _ | .keyAttestRotate _ | .certWrite _ =>
    [.rings, .pins, .fabric, .power, .mem, .cores]
  | .bar2Access _ _ _ _ | .sliceAtomicOp _ | .ledgeAtomicOp _ _ | .tset _ _ | .qsubmit _ =>
    [.rings, .pins, .secure, .fabric, .power, .cores]
  | .frameReceive _ _ _ | .nakReceive _ _ | .frameForward _ | .atomicResp _ | .helloSend _ | .hello _ _
  | .helloTimeout _ | .portSignalLoss _ | .portTrained _ _ | .laneSpare _ _ | .portRetrain _ | .portCtrlWrite _ _ _
  | .startWave _ _ _ _ _ | .electionEnd | .assign _ _ _ _ | .join _ _ _ | .waveEnd | .config _ _ _ _ _ _ _ _
  | .configAck _ _ _ | .linkDown _ _ _ | .linkUp _ _ _ | .witness _ _ | .witnessHoldExpiry _
  | .witnessCollectExpiry _ | .idChallenge _ _ _ | .idProof _ _ _ | .idExchangeTimeout _ | .codewordSideband _ _ _ _
  | .portSignalReturn _ | .witnessWindowExpiry _ =>
    [.rings, .pins, .secure, .power, .mem, .cores]
  | .readResp _ | .wack _ | .qack _ | .remoteTimeout _ =>
    [.rings, .pins, .secure, .power, .mem]
  | .thermtrip _ _ | .sysRstAssert | .vrPgFall _ | .refclkLoss | .packagePowerLoss =>
    []
  | .sysRstRelease _ _ | .perstRelease | .vrPgRise _ | .pcieLinkDown | .pcieLinkUp | .pcieConfigWrite _ _ _
  | .usbConfigurationChange _ _ =>
    [.rings, .secure, .fabric, .power, .mem, .cores]
  | .perstAssert =>
    [.rings, .secure]
  | .rootPllLock _ | .recoveryImage _ =>
    [.rings, .fabric, .power, .mem, .cores]
  | .memoryTrainingDone _ | .attestKeyReady | .driveBringupEnd _ =>
    [.rings, .fabric]

/-! ## The invariant -/

/-- The rings of the private pairs hold at most 15 entries and 16 completions (R290); the regulator groups in range are three
different ones at most (R444); the drives in use are none, one, two or four (R324). -/
def State.Inv (s : State) : Prop :=
  s.usbSq.length ≤ 15 ∧ s.bmcSq.length ≤ 15 ∧ s.usbCq.length ≤ 16 ∧ s.bmcCq.length ≤ 16 ∧
    s.boot.vrPg.Nodup ∧ (∀ k ∈ s.boot.vrPg, k < 3) ∧ s.boot.vrEn ≤ 3 ∧ s.drives.length ∈ [0, 1, 2, 4]

/-- The core of a tile instruction that reads and writes no memory of the core. -/
def sequencing : Instr → Option Nat
  | .setpArray c | .setpAga c | .setpAgb c | .setpDrain c | .sgseed c | .loopInstr c | .br c | .waitc c => some c
  | _ => none

end Sys2Proof.Machine
end

