-- ==== Sys2Proof/Certificates/Slice0/Obligations.lean ====
section
/-!
DEFINITION. The statements for the provers, from the numbered rules of spec/. `Gives i s P`: the command completes in a state
of which P holds. Where a statement names a model function it names the one its meaning uses.
-/

open Sys2Proof Sys2Proof.Machine

/-! ## The block -/

/-- A step runs the command at the front of the queue, on the state with the rest of the queue. On an empty queue it goes on;
that it then lets one cycle pass is the model's choice (log 1). -/
def Obligations.StepRunsFrontCommand : Prop :=
  (∀ (s : State) (i : Instr) (rest : List Instr),
     step { s with pending := i :: rest } = exec i { s with pending := rest }) ∧
  (∀ (s : State), s.pending = [] → (∃ t, step s = .next t) ∧
     (s.dev ≠ devBoot → (∀ x ∈ s.cmds, x.op ≠ 0x54) → step s = .next { s with now := s.now + 1 }))

/-! ## Tile instructions: issue -/

/-- An issued instruction raises the issue count, ends a wait and a step, and the sequencer goes on: to the next address, back
to the start of the innermost body that ends there and has turns left, past the levels that are spent; an enabled breakpoint
at the address reached stops issue. Nothing else of the core changes. An opcode that R209 does not list faults the tile with BAD_OPCODE, a reserved bit or value with BAD_FIELD, an uncorrectable word
with UNCORRECTABLE and a fence; the fault names the instruction's address and the sequencer stays there. Stated of END's and PASS's
commands, and of STO's for a handle; every tile instruction's command has the same frame. -/
def Obligations.IssueGoesOn : Prop :=
  (∀ (c : Nat) (k : CoreState),
     (CoreState.passed c k).pc = (nextPc k.pc k.loops).1 ∧
     (CoreState.passed c k).loops = (nextPc k.pc k.loops).2 ∧
     (CoreState.passed c k).issueCount c = (k.issueCount c + 1) % 2 ^ 64 ∧
     (CoreState.passed c k).wait = 0 ∧ (CoreState.passed c k).waited = 0 ∧ (CoreState.passed c k).stepping = false ∧
     (∀ l ls, nextPc l.last (l :: ls) = if 1 < l.left then (l.start, { l with left := l.left - 1 } :: ls) else nextPc l.last ls) ∧
     (∀ pc, nextPc pc [] = ((pc + 1) % 8192, [])) ∧
     (∀ pc l ls, pc ≠ l.last → nextPc pc (l :: ls) = ((pc + 1) % 8192, l :: ls)) ∧
     (k.seq = .running → k.stepping = false →
       (CoreState.passed c k).seq = if k.breakAt c (nextPc k.pc k.loops).1 then SeqState.halting else SeqState.running) ∧
     (∀ off, off ≠ CORE_SEQ_ISSUE_LO → off ≠ CORE_SEQ_ISSUE_HI → (CoreState.passed c k).reg c off = k.reg c off) ∧
     (CoreState.passed c k).am = k.am ∧ (CoreState.passed c k).pm = k.pm ∧ (CoreState.passed c k).wm = k.wm ∧
     (CoreState.passed c k).acm = k.acm ∧ (CoreState.passed c k).pages = k.pages ∧ (CoreState.passed c k).ags = k.ags ∧
     (CoreState.passed c k).arr = k.arr ∧ (CoreState.passed c k).drn = k.drn ∧ (CoreState.passed c k).aepi = k.aepi ∧
     (CoreState.passed c k).passes = k.passes ∧ (CoreState.passed c k).drains = k.drains ∧
     (CoreState.passed c k).ctxs = k.ctxs ∧ (CoreState.passed c k).exitC = k.exitC ∧ (CoreState.passed c k).doneC = k.doneC) ∧
  (∀ (s : State) (c : Nat), (s.core c).canIssue = true → (s.core c).accHeld = none →
     let k := s.core c
     let w := k.imemAt k.pc
     let faulted (st : Nat) (t : State) : Prop := (t.core c).fault = some ⟨st, k.pc, 0, t.now⟩ ∧ (t.core c).pc = k.pc
     (.imem k.pc ∉ k.bad → tileKind w = none → Gives (.endProgram c) s (faulted stBadOpcode) ∧ Gives (.pass c) s (faulted stBadOpcode)) ∧
     (.imem k.pc ∉ k.bad → tileKind w ≠ none → tileReserved w = true →
       Gives (.endProgram c) s (faulted stBadField) ∧ Gives (.pass c) s (faulted stBadField)) ∧
     (.imem k.pc ∈ k.bad →
       Gives (.endProgram c) s (fun t => faulted stUncorrectable t ∧ t.fenceDue.any (fun f => f.1 == c) = true) ∧
       Gives (.pass c) s (fun t => faulted stUncorrectable t ∧ t.fenceDue.any (fun f => f.1 == c) = true)) ∧
     (.imem k.pc ∉ k.bad → tileKind w = some .sto → tileReserved w = false → k.checkDue = false → k.rebound = [] →
       (.handle (field w 13 6) ∈ k.bad ∨ .handle (field w 25 18) ∈ k.bad) →
       Gives (.sto c) s (fun t => faulted stUncorrectable t ∧ t.fenceDue.any (fun f => f.1 == c) = true)))

/-! ## Tile instructions: configuration -/

/-- SETP, SGSEED and BOUND write what they name, issue, and change nothing else; `u` is what the read of a bound in AM leaves (R184 to
R186). -/
def Obligations.ConfigurationInstructionsWrite : Prop :=
  ∀ (s : State) (c : Nat) (w : W64),
    (Issues s c .setpArray w → (setpArrayOf w).ok = true →
      ((s.core c).passes = [] ∨ setpWaits (s.core c).arr (setpArrayOf w) = false) →
      exec (.setpArray c) s = .next (s.setCore c (CoreState.passed c { s.core c with arr := some (setpArrayOf w) }))) ∧
    (Issues s c .setpAga w →
      exec (.setpAga c) s = .next (s.setCore c (CoreState.passed c
        ((s.core c).setAg (field w 12 10) ⟨field w 63 32, signed 19 (field w 31 13), 0, 0, 0, 0⟩)))) ∧
    (Issues s c .setpAgb w →
      exec (.setpAgb c) s = .next (s.setCore c (CoreState.passed c
        ((s.core c).setAg (field w 12 10) ⟨((s.core c).ag (field w 12 10)).base, ((s.core c).ag (field w 12 10)).stride,
          field w 27 16, signed 24 (field w 63 40), field w 15 13, 0⟩)))) ∧
    (Issues s c .setpDrain w →
      exec (.setpDrain c) s = .next (s.setCore c (CoreState.passed c { s.core c with
        drn := some ⟨signed 7 (field w 16 10), field w 17 17 == 1, field w 25 18, field w 33 26, field w 49 34⟩ }))) ∧
    (Issues s c .sgseed w → (s.core c).genBusy (field w 9 6) = false →
      exec (.sgseed c) s = .next (s.setCore c (CoreState.passed c ((s.core c).setReg c (CORE_SG_STATE (field w 9 6))
        (BitVec.ofNat 32 (((s.core c).fld c (CORE_SG_STATE (field w 9 6)) 31 16 + 1) % 2 ^ 16 * 2 ^ 16 + field w 31 16)))))) ∧
    (Issues s c .bound w → field w 10 10 = 0 →
      exec (.boundWrite c) s = .next (s.setCore c (CoreState.passed c
        ((s.core c).setReg c (CORE_BOUND (field w 9 6)) (BitVec.ofNat 32 (field w 63 32)))))) ∧
    (Issues s c .bound w → field w 10 10 = 1 → agIn (agRef c (s.core c) (field w 14 11)) (2 ^ 20 - 4) 4 = true →
      ∀ bs u, s.coreRead c 3 .am (agRef c (s.core c) (field w 14 11)).toNat 4 = .ok bs u →
        exec (.boundWrite c) s = .next (u.setCore c (CoreState.passed c
          (agStep (field w 14 11) ((u.core c).setReg c (CORE_BOUND (field w 9 6)) (BitVec.ofNat 32 (leNat bs)))))))

/-- A combination that the pairing and width rules do not allow faults the tile with BAD_FIELD; a change that R61 makes wait waits
while any pass has not closed. The setting in force stays in both. -/
def Obligations.SetpArrayRefusesAndWaits : Prop :=
  ∀ (s : State) (c : Nat) (w : W64), Issues s c .setpArray w →
    ((setpArrayOf w).ok = false →
      Gives (.setpArray c) s (fun t => (t.core c).fault = some ⟨stBadField, (s.core c).pc, 0, t.now⟩ ∧ (t.core c).arr = (s.core c).arr)) ∧
    ((setpArrayOf w).ok = true → (s.core c).passes ≠ [] → setpWaits (s.core c).arr (setpArrayOf w) = true →
      Gives (.setpArray c) s (fun t => (t.core c).arr = (s.core c).arr ∧ (t.core c).pc = (s.core c).pc ∧
        (t.core c).wait = waitSetp ∧ (t.core c).waited = (s.core c).waited + 1 ∧
        (t.core c).reg c CORE_ARR_STALL = satAdd ((s.core c).reg c CORE_ARR_STALL) 1)) ∧
    (∀ a : ArrayCfg, a.ok = true → pairOk a.wfmt a.afmt = true ∧ widthOk a.wfmt a.wbits = true ∧ widthOk a.afmt a.abits = true ∧
      (a.s24 = true → a.g ≠ 1 ∧ a.wfmt ≠ fmtBin ∧ a.wfmt ≠ fmtScUni ∧ a.wfmt ≠ fmtScBip) ∧
      ((a.wfmt = fmtScUni ∨ a.wfmt = fmtScBip) → 4 ≤ a.slog ∧ a.slog ≤ 10))

/-! ## Tile instructions: control -/

/-- LOOP. -/
def Obligations.LoopInstruction : Prop :=
  ∀ (s : State) (c : Nat) (w : W64) (n : Nat), Issues s c .loop w →
    n = (if field w 6 6 = 1 then ((s.core c).reg c (CORE_BOUND (field w 10 7))).toNat else field w 63 32) →
    ((s.core c).loops.length < 4 → (s.core c).pc < field w 23 11 →
      (∀ l ∈ (s.core c).loops.head?, field w 23 11 ≤ l.last) →
      (n ≠ 0 → Gives (.loopInstr c) s (fun t =>
        t = s.setCore c (t.core c) ∧ (t.core c).pc = (s.core c).pc + 1 ∧
        (t.core c).loops = ⟨(s.core c).pc + 1, field w 23 11, n⟩ :: (s.core c).loops ∧ (t.core c).exitC = (s.core c).exitC)) ∧
      (n = 0 → Gives (.loopInstr c) s (fun t =>
        t = s.setCore c (t.core c) ∧ (t.core c).pc = (nextPc (field w 23 11) (s.core c).loops).1 ∧
        (t.core c).loops = (nextPc (field w 23 11) (s.core c).loops).2 ∧ (t.core c).exitC = (s.core c).exitC))) ∧
    ((4 ≤ (s.core c).loops.length ∨ field w 23 11 ≤ (s.core c).pc ∨ (∃ l ∈ (s.core c).loops.head?, l.last < field w 23 11)) →
      Gives (.loopInstr c) s (fun t => (t.core c).fault = some ⟨stBadField, (s.core c).pc, 0, t.now⟩ ∧
        (t.core c).loops = (s.core c).loops ∧ (t.core c).pc = (s.core c).pc))

/-- BR: conditions 0 always, 1 EXIT, 2 not EXIT, 3 DONE, 4 not DONE. -/
def Obligations.BranchInstruction : Prop :=
  ∀ (s : State) (c : Nat) (w : W64), Issues s c .br w →
    let k := s.core c
    let taken := [true, k.exitC, !k.exitC, k.doneC, !k.doneC].getD (field w 9 6) false
    Gives (.br c) s (fun t =>
      t = s.setCore c (t.core c) ∧
      (t.core c).exitC = (if field w 9 6 = 1 ∨ field w 9 6 = 2 then false else k.exitC) ∧ (t.core c).doneC = k.doneC ∧
      (taken = true → (t.core c).pc = field w 22 10 ∧
        (t.core c).loops = k.loops.filter (fun l => decide (l.start ≤ field w 22 10 ∧ field w 22 10 ≤ l.last))) ∧
      (taken = false → (t.core c).pc = (nextPc k.pc k.loops).1 ∧ (t.core c).loops = (nextPc k.pc k.loops).2))

/-- END. -/
def Obligations.EndInstruction : Prop :=
  ∀ (s : State) (c : Nat) (w : W64), Issues s c .endProgram w →
    let k := s.core c
    (k.loops = [] → k.drains = [] → k.closing = [] → k.rangeWindows = [] → (∀ i < 16, k.chunkMask i = 0) → k.validWays = [] → k.spills = [] →
      k.outst = [] → k.gather = [] →
      Gives (.endProgram c) s (fun t => (t.core c).loaded = false ∧ (t.core c).passes = k.passes ∧
        t.completes = s.completes ++ [⟨c, k.dispatch, stOk, k.report, s.now⟩] ∧ t.barriers = s.barriers ∧ t.cmds = s.cmds)) ∧
    (k.loops ≠ [] → Gives (.endProgram c) s (fun t => (t.core c).fault = some ⟨stBadField, k.pc, 0, t.now⟩ ∧
      (t.core c).loaded = true ∧ t.completes = s.completes))

/-- WAITC and WAITF. -/
def Obligations.WaitInstructions : Prop :=
  ∀ (s : State) (c : Nat) (w : W64),
    (Issues s c .waitc w →
      let r := (s.core c).reg c (CORE_SPM_ARRIVE (field w 11 6))
      (field w 63 32 ≤ r.toNat → exec (.waitc c) s = .next (s.setCore c (CoreState.passed c
        (if field w 12 12 = 1 then (s.core c).setReg c (CORE_SPM_ARRIVE (field w 11 6)) (BitVec.ofNat 32 (r.toNat - field w 63 32))
         else s.core c)))) ∧
      (r.toNat < field w 63 32 → Gives (.waitc c) s (fun t => (t.core c).pc = (s.core c).pc ∧ (t.core c).wait = waitArrival ∧
        (t.core c).waited = (s.core c).waited + 1 ∧ (t.core c).reg c (CORE_SPM_ARRIVE (field w 11 6)) = r ∧
        (t.core c).reg c CORE_SEQ_SYNCWAIT = satAdd ((s.core c).reg c CORE_SEQ_SYNCWAIT) 1))) ∧
    (Issues s c .waitf w → field w 27 19 = 0 → (s.core c).progress = 0 →
      let m := if field w 6 6 = 0 then SpmMem.am else SpmMem.pm
      let want := field w 7 7 == 1
      ((s.core c).tagFull c m (field w 18 10) = want →
        exec (.waitf c) s = .next (s.setCore c (CoreState.passed c { (if field w 9 8 = 0 then s.core c
          else (s.core c).setTag c m (field w 18 10) (field w 9 8 == 2)) with progress := 1 }))) ∧
      ((s.core c).tagFull c m (field w 18 10) ≠ want → Gives (.waitf c) s (fun t => (t.core c).pc = (s.core c).pc ∧
        (t.core c).wait = waitTag ∧ (t.core c).tagFull c m (field w 18 10) = (s.core c).tagFull c m (field w 18 10))))

/-- The synchronisation instructions that reach beyond their core. -/
def Obligations.SynchronisationInstructions : Prop :=
  ∀ (s : State) (c : Nat) (w : W64),
    let k := s.core c
    (Issues s c .claim w → k.claim = none → bitsOf (k.wl c (field w 13 6)) 63 63 = 1 → bitsOf (k.wl c (field w 13 6)) 62 62 = 0 →
      Gives (.claim c) s (fun t => (t.core c).claim = some (field w 13 6, field w 15 14) ∧ (t.core c).pc = k.pc ∧
        (t.core c).wait = waitClaim ∧ (t.core c).reg c CORE_MAP_CLAIM = satAdd (k.reg c CORE_MAP_CLAIM) 1 ∧
        t.atoms = s.withAtom ⟨bitsOf (k.wl c (field w 13 6)) 47 0, .fetchAdd32, false, false, 1, 0,
          .claim c (field w 13 6) (field w 15 14), s.now⟩)) ∧
    (∀ l tr old rest, s.atomResps = ⟨.claim c l tr, stOk, old⟩ :: rest → k.claim = some (l, tr) → k.accHeld = none → tr < 4 →
      Gives (.claimTicket c) s (fun t => t.atomResps = rest ∧ (t.core c).claim = none ∧ (t.core c).pc = (nextPc k.pc k.loops).1 ∧
        (t.core c).reg c (CORE_SEQ_TR tr) = BitVec.ofNat 32 old ∧
        (t.core c).doneC = decide (s.listLength (k.wl c l) l ≤ old % 2 ^ 32))) ∧
    (Issues s c .barrier w → k.barrier = none → k.settled = true → k.gather = [] →
      (∀ m ∈ s.members c, m = s.logicalOf c ∨
        m ∈ (Tab.get (fun _ => ((0 : Nat), ([] : List Nat))) s.barriers (k.barrierKey c (field w 9 6))).2) →
      Gives (.barrier c) s (fun t => (t.core c).pc = (nextPc k.pc k.loops).1 ∧ (t.core c).barrier = none ∧
        Tab.get (fun _ => ((0 : Nat), ([] : List Nat))) t.barriers (k.barrierKey c (field w 9 6)) =
          ((Tab.get (fun _ => ((0 : Nat), ([] : List Nat))) s.barriers (k.barrierKey c (field w 9 6))).1 + 1, []))) ∧
    (Issues s c .signalDoorbell w → k.settled = true → k.gather = [] →
      Gives (.signalDoorbell c) s (fun t => t.doorbells = s.doorbells ++ [.signal c k.dispatch (field w 63 32)] ∧
        t.core c = CoreState.passed c k)) ∧
    (∀ p, Issues s c .signalArrive w → k.settled = true → k.gather = [] → k.arrSkip = 0 → s.physOf (field w 14 8) = some p → p ≠ c →
      field w 14 8 < s.active →
      ((s.core p).reg p (CORE_SPM_ARRIVE (field w 20 15))).toNat + field w 63 32 < 2 ^ 32 →
      Gives (.signalArrive c) s (fun t => (t.core c).pc = (nextPc k.pc k.loops).1 ∧
        ((t.core p).reg p (CORE_SPM_ARRIVE (field w 20 15))).toNat =
          ((s.core p).reg p (CORE_SPM_ARRIVE (field w 20 15))).toNat + field w 63 32)) ∧
    (Issues s c .signalTicket w → k.ticketMsg = none → bitsOf (k.wl c (field w 28 21)) 63 63 = 1 →
      bitsOf (k.wl c (field w 28 21)) 62 62 = 0 → k.settled = true → k.gather = [] →
      Gives (.signalTicket c) s (fun t => (t.core c).pc = (nextPc k.pc k.loops).1 ∧ (t.core c).outst = [⟨k.nextOut, true, false, false⟩] ∧
        t.atoms = s.withAtom ⟨bitsOf (k.wl c (field w 28 21)) 47 0, .tset, false, false,
          (k.reg c (CORE_SEQ_TR (field w 30 29))).toNat, 0, .core c k.nextOut, s.now⟩))

/-- Dispatch, the report of a fault, and the timeouts of waits. -/
def Obligations.DispatchFaultAndTimeouts : Prop :=
  ∀ (s : State) (c : Nat),
    let k := s.core c
    (∀ id, k.doorbell = some (id, none) → k.loaded = false → s.coreSt c = 0 →
      Gives (.coreDispatch c) s (fun t => (t.core c).loaded = true ∧ (t.core c).doorbell = none ∧ (t.core c).dispatch = some id ∧
        (t.core c).pc = k.fld c CORE_SEQ_ENTRY 12 0 ∧ (t.core c).ags = [] ∧ (t.core c).loops = [] ∧ (t.core c).arr = none ∧
        (t.core c).drn = none ∧ (t.core c).exitC = false ∧ (t.core c).doneC = false ∧
        (∀ j < 4, (t.core c).reg c (CORE_SEQ_TR j) = 0) ∧ (∀ b < 16, (t.core c).reg c (CORE_BOUND b) = k.reg c (CORE_BOUND b)) ∧
        (t.core c).aepi = k.aepi ∧ (t.core c).ctxs = k.ctxs ∧ (t.core c).acm = k.acm)) ∧
    (∀ f, k.fault = some f → k.retired = true → k.outst = [] → k.spills = [] →
      Gives (.tileFaultReport c) s (fun t => t.completes = s.completes ++ [⟨c, k.dispatch, f.status, k.report, f.time⟩] ∧
        (t.core c).loaded = false ∧ (t.core c).fault = none ∧
        (t.core c).reg c CORE_SEQ_FAULT = BitVec.ofNat 32 (2 ^ 31 + f.status % 256 * 2 ^ 16 + f.pc % 2 ^ 13))) ∧
    (k.waitedFor waitArrival ≠ none → (k.reg c CORE_SPM_FE_TMO).toNat ≠ 0 → k.accHeld = none →
      Gives (.waitcTimeout c) s (fun t => (t.core c).fault = some ⟨stTimeout, k.pc, 0, t.now⟩)) ∧
    (k.waitedFor waitBarrier ≠ none → tileKind (k.imemAt k.pc) = some .barrier → k.accHeld = none →
      (k.reg c CORE_SEQ_BAR_TMO).toNat ≠ 0 →
      Gives (.barrierTimeout c) s (fun t => (t.core c).fault = some ⟨stTimeout, k.pc, 0, t.now⟩ ∧ (t.core c).barrier = none))

/-! ## Tile instructions: the array -/

/-- PASS, PASS2:4 and STREAM enter a pass, or are skipped. -/
def Obligations.ComputeInstructionsEnterThePass : Prop :=
  ∀ (s : State) (c : Nat) (w : W64) (i : Instr) (kind : TileKind) (op24 stream : Bool) (p : PassWord),
    ((i = .pass c ∧ kind = .pass ∧ op24 = false ∧ stream = false ∧ p = passWord w) ∨
      (i = .pass24 c ∧ kind = .pass24 ∧ op24 = true ∧ stream = false ∧ p = passWord w) ∨
      (i = .stream c ∧ kind = .stream ∧ op24 = false ∧ stream = true ∧ p = streamWord w)) →
    Issues s c kind w →
    let k := s.core c
    (∀ a recs bs, passGate c k op24 stream p = .go → k.arr = some a →
      k.feederHas (agRef c k p.rag).toNat (4 * a.segs) = some recs → (passRecords a recs).all scaleOk8 = true →
      k.feederHas (agRef c k p.vag).toNat a.amBytes = some bs →
      Gives i s (fun t => ∃ pr : PassRec, (t.core c).passes = k.passes ++ [pr] ∧
        pr.base = p.block ∧ pr.ext = p.ext ∧ pr.row = p.row ∧ pr.segs = a.segs ∧ pr.retired = false ∧
        pr.ascales = passRecords a recs ∧ pr.sag = (agRef c k p.sag).toNat ∧
        pr.tallies = passTallies a k (agRef c k p.pag).toNat p.kv bs (if stream then streamBits c k a p bs else []) ∧
        pr.slot = slotCycles a (zeroPlanes a p.kv bs (if stream then streamBits c k a p bs else [])) ∧
        (t.core c).pc = (nextPc k.pc k.loops).1 ∧ (t.core c).acm = k.acm ∧ (t.core c).wm = k.wm ∧ (t.core c).am = k.am)) ∧
    (∀ a, passGate c k op24 stream p = .go → k.arr = some a →
      (k.feederHas (agRef c k p.rag).toNat (4 * a.segs) = none ∨ k.feederHas (agRef c k p.vag).toNat a.amBytes = none) →
      Gives i s (fun t => (t.core c).passes = k.passes ∧ (t.core c).pc = k.pc ∧ (t.core c).wait = waitPlane)) ∧
    (passGate c k op24 stream p = .skip →
      exec i s = .next (s.setCore c (CoreState.passOver c (agSteps (p.refs stream) (k.bump c CORE_SP_BSKIP 1).fedOut))))

/-- Retirement and closing. -/
def Obligations.PassRetiresAndCloses : Prop :=
  ∀ (s : State) (c : Nat),
    let k := s.core c
    (∀ a p b, k.passes = a ++ p :: b → (∀ q ∈ a, q.retired = true) → p.retired = false →
      Gives (.passRetire c) s (fun t => (t.core c).passes = a ++ { p with retired := true } :: b ∧ (t.core c).acm = k.acm ∧
        (t.core c).reg c CORE_ARR_PASS_LO = BitVec.ofNat 32 ((k.reg c CORE_ARR_PASS_LO).toNat + 1) ∧
        (t.core c).reg c CORE_ARR_CYC_LO = BitVec.ofNat 32 ((k.reg c CORE_ARR_CYC_LO).toNat + p.slot))) ∧
    (∀ p ps k', k.passes = p :: ps → p.retired = true → closePass c p k = (k', false) →
      exec (.passClosing c) s = .next (s.setCore c { k' with
        passes := ps, checks := k'.checks ++ (p.check.map (fun l => (p.base, p.ext, l))).toList })) ∧
    (∀ p col, p.segs = 1 → k.acmErrAt (p.base + p.row / rowsPerBlock p.acc16)
        (if p.acc16 then (p.row % rowsPerBlock p.acc16 * 512 + col) / 2 else p.row % rowsPerBlock p.acc16 * 512 + col) = 0 →
      col < 512 →
      (closeEntry c k p col).2 = false ∧
      ∃ v : AV, v = accAdd (if p.acc16 then 16 else 32)
          (k.acmEntry p.acc16 (p.base + p.row / rowsPerBlock p.acc16) (p.row % rowsPerBlock p.acc16 * 512 + col))
          (accFit (if p.acc16 then 16 else 32) (partialTerm (p.tallies.getD col 0) (k.scaleAt (p.sag / 16) (p.sag % 16) col)
            (p.ascales.getD 0 0) (k.blockTag c (p.base + p.row / rowsPerBlock p.acc16)).2.2)) ∧
        (closeEntry c k p col).1.acm =
          (k.setAcmEntry p.acc16 (p.base + p.row / rowsPerBlock p.acc16) (p.row % rowsPerBlock p.acc16 * 512 + col) v).acm)

/-! ## Tile instructions: accumulators -/

/-- ACLR. -/
def Obligations.AclrClearsItsExtent : Prop :=
  ∀ (s : State) (c : Nat) (w : W64), Issues s c .aclr w → (s.core c).holds c w = false →
    extentPast (drainBlocks w).1 (drainBlocks w).2 = false → (s.core c).inHac c (drainBlocks w).1 (drainBlocks w).2 = false →
    (s.core c).passOn (drainBlocks w).1 (drainBlocks w).2 = false → (s.core c).drainOn (drainBlocks w).1 (drainBlocks w).2 = false →
    ((s.closeAll c).core c).fault = none →
    Gives (.aclr c) s (fun t => (t.core c).pc = (nextPc (s.core c).pc (s.core c).loops).1 ∧
      (∀ b, (drainBlocks w).1 ≤ b → b ≤ (drainBlocks w).1 + (drainBlocks w).2 →
        (t.core c).reg c (CORE_ACC_TAG b) = aclrTag w ∧ (∀ a e, e < rowsPerBlock a * 512 → (t.core c).acmEntry a b e = .fin 0)) ∧
      (∀ b < 32, ¬ ((drainBlocks w).1 ≤ b ∧ b ≤ (drainBlocks w).1 + (drainBlocks w).2) →
        (t.core c).reg c (CORE_ACC_TAG b) = ((s.closeAll c).core c).reg c (CORE_ACC_TAG b) ∧
        (∀ a e, e < rowsPerBlock a * 512 → (t.core c).acmEntry a b e = ((s.closeAll c).core c).acmEntry a b e)))

/-- ADRAIN and AEPI at issue. -/
def Obligations.DrainsTakeTheirPlace : Prop :=
  ∀ (s : State) (c : Nat) (w : W64),
    let k := s.core c
    let e := drainBlocks w
    let enters (t : State) (cfg : DrainCfg) (bytes : Nat) : Prop :=
      ∃ d : Drain, (t.core c).drains = k.drains ++ [d] ∧ d.word = w ∧ d.pc = k.pc ∧ d.cfg = cfg ∧ d.aepi = k.aepi ∧ d.bytes = bytes ∧
        d.moved = false ∧ d.rows = [] ∧ d.nbase = (agRef c k (field w 54 51)).toNat * 512 ∧
        d.aag = (agRef c k (field w 58 55)).toNat ∧ d.rag = (agRef c k (field w 62 59)).toNat ∧
        (t.core c).belayUsed = k.belayUsed + bytes ∧ (t.core c).pc = (nextPc k.pc k.loops).1 ∧ (t.core c).acm = k.acm
    (∀ cfg (i : Instr) (kind : TileKind),
      ((i = .adrainEpi c ∧ kind = .adrainEpi ∧ ctxFits w = true) ∨
        (i = .adrainRaw c ∧ kind = .adrainRaw ∧ ((k.handle c cfg.dh).valid = false ∨ (k.handle c cfg.dh).fmt = fmtAcc16 ∨
          (k.handle c cfg.dh).fmt = fmtAcc32)) ∨
        (i = .adrainAtomic c ∧ kind = .adrainAtomic)) →
      Issues s c kind w → k.holds c w = false → k.drn = some cfg → drainAgsOk c k w false = true → extentPast e.1 e.2 = false →
      k.inHac c e.1 e.2 = false → k.untagged c e.1 e.2 = none → field w 27 24 + 1 ≤ (k.drained c w).length →
      k.passOn e.1 e.2 = false → k.drainOn e.1 e.2 = false → k.belayUsed + k.drainBytes c (k.drained c w) ≤ 65536 →
      Gives i s (fun t => enters t cfg (k.drainBytes c (k.drained c w)))) ∧
    (∀ cfg, Issues s c .adrainList w → k.holds c w = false → k.drn = some cfg → field w 27 24 = 0 → field w 40 32 ≤ 63 →
      drainAgsOk c k w true = true → ctxFits w = true → Gives (.adrainList c) s (fun t => enters t cfg 0)) ∧
    (Issues s c .aepi0 w → exec (.aepiForm0 c) s = .next (s.setCore c (CoreState.passed c { k with aepi := { k.aepi with
      stages := field w 11 7, rebase := field w 12 12 == 1, k := field w 18 13 + 1, score := field w 19 19 == 1,
      lscale := field w 47 32 } }))) ∧
    (Issues s c .aepi1 w → exec (.aepiForm1 c) s = .next (s.setCore c (CoreState.passed c { k with aepi := { k.aepi with
      kref := signed 16 (field w 31 16), statbase := field w 45 32, tkbase := field w 59 46 } })))

/-- The belay set, the epilogue, row closes, windows and checkpoints. -/
def Obligations.DrainsRunAndRowsClose : Prop :=
  ∀ (s : State) (c : Nat),
    let k := s.core c
    (∀ d rows, k.drains.find? (fun d => !d.moved) = some d → field d.word 48 48 = 0 → k.passes = [] →
      (k.drained c d.word).map (fun r => k.takeRow c r.1 r.2) = rows.map some →
      Gives (.adrainTransfer c) s (fun t => (t.core c).fault = k.fault ∧ (field d.word 47 47 = 0 → (t.core c).acm = k.acm) ∧
        (field d.word 47 47 = 1 → ∀ r ∈ k.drained c d.word, ∀ col < 512,
          (t.core c).acmEntry (k.blockTag c r.1).2.1 r.1 (r.2 * 512 + col) = .fin 0) ∧
        (t.core c).drains = setUnmoved (fun d => { d with moved := true, rows := rows }) k.drains)) ∧
    (∀ d ds x, k.drains = d :: ds → d.moved = true → d.isList = true → d.rq ≠ [] → k.closing = [] → drainCtxFault k d = none →
      k.ctx d.ctxBase = some x → d.aepi.on 5 = true →
      Gives (.epilogueDrain c) s (fun t => (t.core c).drains = ds ∧ (t.core c).closing = d.closings ∧
        (t.core c).ctx d.ctxBase = some (d.list.foldl (listOffer d.aepi) x))) ∧
    (∀ d ds u n, k.drains = d :: ds → d.moved = true → d.isList = false → d.rq ≠ [] → k.closing = [] → drainCtxFault k d = none →
      s.drainRows c d d.done (d.rows.drop d.done) = (.done u, n) →
      Gives (.epilogueDrain c) s (fun t => (t.core c).drains = (u.core c).drains.tail ∧
        (t.core c).closing = (u.core c).closing ++ d.closings ∧ (t.core c).ctxs = (u.core c).ctxs ∧ t.dmem = u.dmem)) ∧
    (∀ r rest x u, k.closing = r :: rest → k.ctx r.ctx = some x → r.inBounds = true → r.aepi.on 5 = false →
      s.coreWrite c 2 .pm (64 * r.aepi.statbase + 64 * r.ctx) (rowRecord r.aepi x) false = .ok () u →
      Gives (.rowClose c) s (fun t => (t.core c).closing = (u.core c).closing.tail ∧ (t.core c).ctx r.ctx = none ∧
        (t.core c).pm = (u.core c).pm ∧ (t.core c).gather = (u.core c).gather)) ∧
    (∀ clips limit ws, k.rangeWindows = (clips, limit) :: ws →
      (limit < 4096 → limit < clips → Gives (.rangeMissWindow c) s (fun t => t.core c = { k.bump c CORE_RQ_MISS 1 with
        rangeWindows := ws, report := { k.report with rangeMiss := true } })) ∧
      (¬ (limit < 4096 ∧ limit < clips) → exec (.rangeMissWindow c) s = .next (s.setCore c { k with rangeWindows := ws }))) ∧
    (∀ a base ext l cs rows cols, k.arr = some a → k.passes = [] → k.checks = (base, ext, l) :: cs →
      Gives (.checkpointTest c rows cols) s (fun t => (t.core c).checks = cs ∧ (t.core c).acm = k.acm ∧
        (t.core c).exitC = (k.exitC || k.extentSettled c base ext rows cols a.slog l) ∧
        (k.extentSettled c base ext rows cols a.slog l = true → ∀ j < 8 * (ext + 1),
          Tab.get (fun _ => 0) (t.core c).exitShift (8 * base + j) = a.slog - Nat.log2 l)))

/-! ## Tile instructions: movement -/

/-- LDW, and the completion of a page write. -/
def Obligations.WeightLoadsQueueAndLand : Prop :=
  ∀ (s : State) (c : Nat) (w : W64),
    let k := s.core c
    let f := ldwWord w
    let kd := (k.reg c (CORE_BOUND f.bnd)).toNat
    let h := k.handle c f.handle
    let sag := agRef c k f.sag
    let pag := agRef c k f.pag
    let wag := agRef c k f.wag
    (∀ a ds v, Issues s c .ldwWeights w → k.arr = some a → k.zbTest c a.skip w = .go → kd ≠ 0 → h.valid = true → ldwFormat a h = true →
      (a.s24 = true → kd % 4 = 0) → 0 ≤ sag → sag.toNat % kd % a.blockLen = 0 → agIn pag 127 1 = true →
      pag.toNat + f.nblk * a.pages ≤ 128 →
      let g : LdwGeom := ⟨h, kd, sag.toNat / kd, sag.toNat % kd⟩
      s.gatherRanges c 0 ((blockCols f.nblk).flatMap (fun p => g.ranges a p.1 (g.n0 + p.2))) = .ok ds v → (v.core c).accHeld = none →
      (ldwPlan g a pag.toNat f.nblk (cutData g a (blockCols f.nblk) ds)).bad = none →
      Gives (.ldwWeights c) s (fun t => (t.core c).pc = (nextPc (v.core c).pc (v.core c).loops).1 ∧ (t.core c).wm = (v.core c).wm ∧
        (t.core c).pages = (v.core c).pages ∧ (t.core c).pageWrites =
          ((v.core c).queueWrites (ldwPlan g a pag.toNat f.nblk (cutData g a (blockCols f.nblk) ds)).writes none none).pageWrites)) ∧
    (∀ a ds v, Issues s c .ldwScales w → k.arr = some a → k.zbTest c a.skip w = .go → kd ≠ 0 → h.valid = true → h.layout = 0 → 0 ≤ sag →
      agIn pag 2047 1 = true → agIn wag 127 1 = true → pag.toNat + a.segs * f.nblk ≤ 2048 → k.pageWrites = [] →
      let ng := ceilDiv kd a.group
      let g : ScaleGeom := ⟨h, kd, ng, sag.toNat / ng, sag.toNat % ng⟩
      let rs := (blockCols f.nblk).map (fun p => (⟨h, g.off a p.1 (g.n0 + p.2), 4 * g.count a p.1 (g.n0 + p.2), 0⟩ : LoadRange))
      let data := ((blockCols f.nblk).zip ds).map (fun e => (e.1.1, e.1.2, e.2))
      s.gatherRanges c 0 (rs.map (fun r => if r.n = 0 then { r with off := 0 } else r)) = .ok ds v → (v.core c).accHeld = none →
      ((v.core c).scalePlan g a pag.toNat wag.toNat f.nblk data).bad = none →
      ((v.core c).scalePlan g a pag.toNat wag.toNat f.nblk data).status = stOk →
      Gives (.ldwScales c) s (fun t => (t.core c).pc = (nextPc (v.core c).pc (v.core c).loops).1 ∧ (t.core c).wm = (v.core c).wm ∧
        (t.core c).pageWrites = ((v.core c).queueWrites
          (mergeWrites ((v.core c).scalePlan g a pag.toNat wag.toNat f.nblk data).writes) none none).pageWrites)) ∧
    (∀ a bs v, Issues s c .ldwGen w → k.arr = some a → k.zbTest c a.skip w = .go → a.stoch = true →
      agIn sag (2 ^ 20 - 512 * 32 * a.wbits) 1 = true → agIn pag 127 1 = true → pag.toNat + a.chunk ≤ 128 →
      s.coreRead c 1 .am sag.toNat (512 * 32 * a.wbits) = .ok bs v → (v.core c).accHeld = none →
      Gives (.ldwGen c) s (fun t => (t.core c).pc = (nextPc (v.core c).pc (v.core c).loops).1 ∧
        (t.core c).pageWrites = ((v.core c).queueWrites (genWrites a c pag.toNat (field w 50 47) (field w 53 51) (16 * field w 59 54)
          (k.fld c (CORE_SG_STATE (field w 50 47)) 15 0) (k.fld c (CORE_SG_STATE (field w 50 47)) 31 16) bs) none none).pageWrites)) ∧
    (∀ kind a, (kind = TileKind.ldwWeights ∨ kind = .ldwScales) → Issues s c kind w → k.arr = some a → kd = 0 →
      Gives (if kind = .ldwWeights then .ldwWeights c else .ldwScales c) s (fun t =>
        (t.core c).fault = some ⟨stShapeInvalid, k.pc, 0, s.now⟩ ∧ (t.core c).pageWrites = k.pageWrites)) ∧
    (∀ (p : PageWrite) (ws : List PageWrite), k.pageWrites = p :: ws → p.arr = none → k.senses p.page = false →
      k.groupSt c (16 + p.mc) ≠ 1 → k.groupSt c (16 + p.mc) ≠ 4 →
      (p.ack = none → exec (.loadPageWrite c) s = .next (s.setCore c { k.landPage p with
        pageWrites := ws, scrubAt := Tab.set (fun _ => 0) k.scrubAt (pageKey p.mc p.page) s.now })) ∧
      (∀ d id o, p.ack = some (d, id) → o ∈ (s.core d).outst → o.id = id → ws.all (fun x => x.ack != p.ack) = true →
        (∀ q, q ≠ c → (s.core q).pageWrites.all (fun x => x.ack != p.ack) = true) →
        Gives (.loadPageWrite c) s (fun t => (t.core c).pageWrites = ws ∧ (t.core c).wm = (k.landPage p).wm ∧
          (t.core c).pages = (k.landPage p).pages ∧ { o with done := true } ∈ (t.core d).outst)) ∧
      ((k.landPage p).page p.mc p.page).st = .loaded ∧ ((k.landPage p).page p.mc p.page).tag = p.tag ∧
      ((k.landPage p).page p.mc p.page).crc = crc32 ((k.landPage p).pageBytes p.mc p.page))

/-- LDA, STO, MCAST. Stores and multicast copies are stated of one row: the rows of a longer one follow one another. -/
def Obligations.MovementInstructionsMove : Prop :=
  ∀ (s : State) (c : Nat) (w : W64),
    let k := s.core c
    (∀ a xs u v, Issues s c .lda w → k.arr = some a →
      let f := ldaWord w
      let kd := (k.reg c (CORE_BOUND f.bnd)).toNat
      let hp := k.handle c f.hp
      let hr := k.handle c f.hr
      let sag := agRef c k f.sag
      let dag := agRef c k f.dag
      let rag := agRef c k f.rag
      let zag := agRef c k f.zag
      let g : LdaGeom := ⟨a, kd, hp, k.handle c (f.hp + 1), hr, sag.toNat / kd, sag.toNat % kd⟩
      kd ≠ 0 → hp.valid = true → hr.valid = true → ldaFormat a hp = true → hr.layout = 0 →
      (hp.layout = 4 → (k.handle c (f.hp + 1)).layout = 5) →
      (hp.layout = 2 → agIn zag 1023 1 = true ∧ zag.toNat + f.rows * f.kblk ≤ 1024) → 0 ≤ sag →
      g.k0 % a.blockLen = 0 → agIn dag (2 ^ 20) a.vec = true → agIn rag (2 ^ 20) 1 = true →
      dag.toNat + a.vec * a.abits * (f.rows * f.kblk) ≤ 2 ^ 20 → rag.toNat + 4 * a.segs * (f.rows * f.kblk) ≤ 2 ^ 20 →
      (if hp.layout = 4 then ∃ es sk x, s.readIndex c 0 f.tk (k.handle c (f.hp + 1)) g.r0 f.rows = .ok (es, sk) x ∧
          x.ldaRead c sk g f.tk (g.items f.rows f.kblk) (some es) none = .ok xs u
        else s.ldaRead c 0 g f.tk (g.items f.rows f.kblk) none none = .ok xs u) →
      u.ldaItems c g dag.toNat rag.toNat zag.toNat xs = .ok () v → (v.core c).accHeld = none →
      Gives (.lda c) s (fun t => (t.core c).pc = (nextPc (v.core c).pc (v.core c).loops).1 ∧ (t.core c).am = (v.core c).am ∧
        (t.core c).gather = (v.core c).gather ∧ (t.core c).zeroMap = (v.core c).zeroMap ∧ (t.core c).report = (v.core c).report)) ∧
    (∀ d v u, Issues s c .sto w → field w 32 30 = 0 → field w 33 33 = 0 → field w 57 42 = 0 → k.progress = 0 →
      let hs := k.handle c (field w 13 6)
      let hd := k.handle c (field w 25 18)
      let sag := agRef c k (field w 17 14)
      let dag := agRef c k (field w 29 26)
      0 ≤ sag → 0 ≤ dag → hs.valid = true → hd.valid = true → hs.spm ≠ none → hs.covers sag.toNat 64 = true →
      s.stoRead c hs sag.toNat 1 0 (field w 41 40) = .ok d v →
      (if hd.layout = 2 then 0 < hd.elemW ∧ dag.toNat % (32 * hd.elemW) = 0 ∧ 64 % (32 * hd.elemW) = 0 ∧
          State.stoRlz c hd (k.handle c (field w 25 18 + 1)) dag.toNat 0 d v = .ok () u
        else hd.covers dag.toNat 64 = true ∧ State.stoPut c hd dag.toNat 1 none 0 d v = .ok () u) →
      (u.core c).accHeld = none →
      Gives (.sto c) s (fun t => (t.core c).pc = (nextPc (u.core c).pc (u.core c).loops).1 ∧ (t.core c).am = (u.core c).am ∧
        (t.core c).pm = (u.core c).pm ∧ t.dmem = u.dmem ∧ t.remoteReqs = u.remoteReqs)) ∧
    (∀ d v u op sw tw es et, Issues s c .stoAtomic w → field w 33 33 = 0 → field w 57 42 = 0 → k.progress = 0 →
      let hs := k.handle c (field w 13 6)
      let hd := k.handle c (field w 25 18)
      let sag := agRef c k (field w 17 14)
      let dag := agRef c k (field w 29 26)
      0 ≤ sag → 0 ≤ dag → hs.valid = true → hd.valid = true → hs.spm ≠ none → stoWidths (field w 32 30) hs hd = some (op, sw, tw, es, et) →
      hs.covers sag.toNat 64 = true → hd.covers dag.toNat (64 / es * et) = true →
      s.stoRead c hs sag.toNat 1 0 (field w 41 40) = .ok d v →
      State.stoAtoms c hd dag.toNat op sw tw es et 0 d v = .ok () u → (u.core c).accHeld = none →
      Gives (.stoAtomic c) s (fun t => (t.core c).pc = (nextPc (u.core c).pc (u.core c).loops).1 ∧ t.atoms = u.atoms ∧
        (t.core c).outst = (u.core c).outst)) ∧
    (∀ d ps v x u, Issues s c .mcastCopy w → field w 23 23 = 0 → field w 57 42 = 0 → k.progress = 0 →
      let hs := k.handle c (field w 14 7)
      let sag := agRef c k (field w 18 15)
      let dag := agRef c k (field w 41 38)
      0 ≤ sag → 0 ≤ dag → hs.covers sag.toNat 64 = true → hs.mem = memLedge →
      s.readMask c (agRef c k (field w 22 19)) = .ok ps v → (∀ p ∈ ps, v.mcastTag (field w 37 30) dag.toNat 1 0 p = none) →
      (∀ p ∈ ps, v.mcastPort (field w 37 30) dag.toNat 0 p = .free) →
      v.handleRead c 1 hs sag.toNat 64 = .ok d x →
      ps.foldl (fun (acc : Nat × State) p =>
        let y := acc.2.mcastPut (field w 37 30) dag.toNat 1 0 p none d
        (if acc.1 = stOk then y.1 else acc.1, y.2)) (stOk, x) = (stOk, u) → (u.core c).accHeld = none →
      Gives (.mcastCopy c) s (fun t => (t.core c).pc = (nextPc (u.core c).pc (u.core c).loops).1 ∧
        (∀ p, p ≠ c → t.core p = u.core p) ∧ (t.core c).am = (u.core c).am ∧ (t.core c).pm = (u.core c).pm)) ∧
    (∀ a ps ds v x, Issues s c .mcastLoad w → field w 23 23 = 0 → k.arr = some a →
      let f := mcastWord w
      let kd := (k.reg c (CORE_BOUND f.bnd)).toNat
      let h := k.handle c f.handle
      let sag := agRef c k f.sag
      let pag := agRef c k f.pag
      let g : LdwGeom := ⟨h, kd, sag.toNat / kd, sag.toNat % kd⟩
      let pl := ldwPlan g a pag.toNat f.nblk (cutData g a (blockCols f.nblk) ds)
      f.form = 0 → kd ≠ 0 → h.valid = true → h.mem = memLedge → ldwFormat a h = true → (a.s24 = true → kd % 4 = 0) → 0 ≤ sag →
      sag.toNat % kd % a.blockLen = 0 → agIn pag 127 1 = true → pag.toNat + f.nblk * a.pages ≤ 128 →
      s.readMask c (agRef c k (field w 22 19)) = .ok ps v →
      v.gatherRanges c 0 ((blockCols f.nblk).flatMap (fun p => g.ranges a p.1 (g.n0 + p.2))) = .ok ds x → (x.core c).accHeld = none →
      pl.bad = none → pl.writes ≠ [] → ps.Nodup →
      Gives (.mcastLoad c) s (fun t => (t.core c).pc = (nextPc (x.core c).pc (x.core c).loops).1 ∧
        (∀ p ∈ ps, (t.core p).pageWrites = ((x.core p).queueWrites pl.writes none (some (c, (x.core c).nextOut))).pageWrites) ∧
        (∀ p, p ∉ ps → (t.core p).pageWrites = (x.core p).pageWrites) ∧
        (t.core c).outst = (x.core c).outst ++ [⟨(x.core c).nextOut, false, false, ps.isEmpty⟩])) ∧
    (∀ a ps v u, Issues s c .mcastLoad w → field w 23 23 = 0 → k.arr = some a → (mcastWord w).form = 1 →
      k.reg c (CORE_BOUND (mcastWord w).bnd) ≠ 0 → (k.handle c (mcastWord w).handle).valid = true →
      (k.handle c (mcastWord w).handle).mem = memLedge → s.readMask c (agRef c k (field w 22 19)) = .ok ps v →
      u = v.ldwForm1 c a (mcastWord w) ps none true →
      Gives (.mcastLoad c) s (fun t => t.cores = u.cores))

/-- Scrub, spill, acknowledgement, age. -/
def Obligations.ScrubSpillAndAcknowledge : Prop :=
  ∀ (s : State) (c : Nat),
    let k := s.core c
    (∀ mc page, (k.reg c CORE_ARR_SCRUB_CTRL).getLsbD 0 = true → s.coreSt c = 0 → mc < 16 → page < 128 → k.groupSt c (16 + mc) = 0 →
      (k.page mc page).st = .loaded → (∀ r < 256, k.wmFlips mc page r = 0) →
      crc32 (k.pageBytes mc page) = (k.page mc page).crc →
      Gives (.scrubPage c mc page) s (fun t => (t.core c).wm = k.wm ∧ (t.core c).pages = k.pages ∧
        Tab.get (fun _ => 0) (t.core c).scrubAt (pageKey mc page) = s.now)) ∧
    (k.loadedPages ≠ [] → k.agedSweep = false →
      Gives (.scrubAgeExceeded c) s (fun t => (t.core c).agedSweep = true ∧ t.now = max s.now (k.oldestScrub s.now + tenMs + 1200) ∧
        (t.core c).wm = k.wm ∧ (t.core c).pages = k.pages)) ∧
    (∀ w ws u, k.spills = w :: ws → (s.modCore c (fun k => { k with spills := ws })).hacSend c w = (stOk, u) →
      Gives (.hacSpill c) s (fun t => t.core c = u.core c ∧ t.atoms = u.atoms)) ∧
    (∀ i o r, k.outst[i]? = some o → o.done = false → s.atomResps.find? (fun r => r.src == .core c o.id) = some r → r.status = stOk →
      Gives (.writeAck c i) s (fun t => (t.core c).outst = k.outst.eraseIdx i ∧ t.atomResps = s.atomResps.erase r ∧
        (t.core c).fault = k.fault)) ∧
    (∀ i o, k.outst[i]? = some o → o.done = true →
      Gives (.writeAck c i) s (fun t => (t.core c).outst = k.outst.eraseIdx i ∧ t.atomResps = s.atomResps))

/-! ## Scratchpads -/

/-- Local accesses. -/
def Obligations.ServedAccessMoves : Prop :=
  ∀ (s : State) (c t0 : Nat) (a : SpmAcc) (rivals : List Nat),
    let k : CoreState := { s.core c with cyc := max t0 (s.core c).cyc }
    let q := k.portOf a
    let gs := (q.rest.flatMap (fun r => k.groupsOf c a.mem (64 * r) 1)).dedup
    a.client ≤ 4 → a.len ≠ 0 → a.off + a.len ≤ 2 ^ 20 → (a.client = 0 → a.write = false ∧ k.feedWanted c a.off a.len = true) →
    k.powerCheck c gs (a.write && !(k.queued.any (fun x => x.acc == a) && q.waited == 0)) = .ready →
    (k.portHeld c q = true →
      Gives (.spmAccess c t0 a rivals) s (fun t => (t.core c).queued = (k.enqueue { q with waited := q.waited + 1 }).queued ∧
        (t.core c).am = k.am ∧ (t.core c).pm = k.pm)) ∧
    (k.portHeld c q = false → ∀ q' x,
      let v := k.serve c t0 q rivals
      let k1 := if v.2 then k.bump c CORE_SPM_CONT 1 else k
      let u := s.setCore c (if k1.timed c then k1 else v.1.foldl (fun k r => k.turn (k.bankOf c a.mem r) a.client) k1)
      (k.timed c = true → wheelOwner (k.reg c CORE_SPM_WHEEL) (t0 % 8) ≠ a.client → v.1 = []) ∧
      (u.accMove c q v.1 = (stOk, q', x) →
        (q'.rest ≠ [] → Gives (.spmAccess c t0 a rivals) s (fun t => (t.core c).queued = ((x.core c).enqueue { q' with waited := 0 }).queued ∧
          (t.core c).am = (x.core c).am ∧ (t.core c).pm = (x.core c).pm ∧ (t.core c).spmOut = (x.core c).spmOut)) ∧
        (q'.rest = [] → a.write = true → Gives (.spmAccess c t0 a rivals) s (fun t => (t.core c).am = (x.core c).am ∧
          (t.core c).pm = (x.core c).pm ∧ (t.core c).queued = ((x.core c).dequeue a).queued)) ∧
        (q'.rest = [] → a.write = false → a.client ≠ 0 → Gives (.spmAccess c t0 a rivals) s (fun t =>
          (t.core c).spmOut = Mem.read q'.got a.off a.len ∧ (t.core c).am = (x.core c).am ∧ (t.core c).pm = (x.core c).pm)) ∧
        (q'.rest = [] → a.client = 0 → a.tag = .none → Gives (.spmAccess c t0 a rivals) s (fun t =>
          t.core c = ((x.core c).dequeue a).feed c a.off (Mem.read q'.got a.off a.len)))))

/-- The events of a core's scratchpads. -/
def Obligations.ScratchpadEvents : Prop :=
  ∀ (s : State) (c : Nat),
    let k := s.core c
    (∀ m word, (m, word) ∈ k.writebacks → correctable (Tab.get noErr (k.errs m) word) = true →
      Gives (.spmEccWriteback c m word) s (fun t => (t.core c).bytes m = k.bytes m ∧
        Tab.get noErr ((t.core c).errs m) word = 0 ∧ (∀ w, w ≠ word → Tab.get noErr ((t.core c).errs m) w = Tab.get noErr (k.errs m) w) ∧
        (m, word) ∉ (t.core c).writebacks)) ∧
    (∀ i g, k.gather[i]? = some g → k.meetsBadWord g = false →
      Gives (.gatherEntryWrite c i) s (fun t => (t.core c).gather = k.gather.eraseIdx i ∧
        (∀ j < 64, Mem.byte ((t.core c).bytes g.mem) (64 * g.row + j) =
          if g.mask.getD j false then g.data.getD j 0 else Mem.byte (k.bytes g.mem) (64 * g.row + j)) ∧
        (∀ a, ¬ (64 * g.row ≤ a ∧ a < 64 * g.row + 64) → Mem.byte ((t.core c).bytes g.mem) a = Mem.byte (k.bytes g.mem) a))) ∧
    (∀ a i m off bs k' v, s.addrKind a.addr = .spm i m off → s.physOf i = some c → a.write = false → a.arrive = none → a.tag = .none →
      a.len ≠ 0 → off + a.len ≤ 2 ^ 20 → k.meshWait = [] → k.powerCheck c (k.groupsOf c m off a.len) false = .ready →
      k.present c 4 m off a.len = some k' → (s.setCore c k').spmRead c m off a.len = (stOk, bs, v) →
      Gives (.remoteSpmAccess a) s (fun t => t.meshOut = v.meshOut ++ [⟨a.issuer, a.device, a.reqTag, stOk, bs⟩] ∧
        (t.core c).am = (v.core c).am ∧ (t.core c).pm = (v.core c).pm)) ∧
    (∀ g, k.quiet = true → s.coreSt c = 0 → g < 32 → k.groupSt c g = 0 → k.retentionAllowed c g = true → k.gather = [] →
      Gives (.retentionEnter c g) s (fun t => (t.core c).groupSt c g = 1 ∧ t.now = max s.now (k.idleSince + tenMicros) ∧
        (t.core c).am = k.am ∧ (t.core c).pm = k.pm ∧ (t.core c).wm = k.wm)) ∧
    (∀ mc, mc < 16 → k.groupSt c (16 + mc) = 1 →
      (∀ p ∈ k.loadedPages, p / 128 ≠ mc) → exec (.retentionScrubWake c mc) s = .next s) ∧
    (∀ mc page, mc < 16 → k.groupSt c (16 + mc) = 1 → page < 128 →
      k.loadedPages = [pageKey mc page] → (∀ r < 256, k.wmFlips mc page r = 0) →
      crc32 (k.pageBytes mc page) = (k.page mc page).crc →
      Gives (.retentionScrubWake c mc) s (fun t => (t.core c).groupSt c (16 + mc) = 1 ∧ (t.core c).pages = k.pages ∧
        Tab.get (fun _ => 0) (t.core c).scrubAt (pageKey mc page) = s.now)) ∧
    (∀ g, g < 32 → k.groupSt c g = 4 → Tab.get (fun _ => 0) k.wakeNote g = 0 →
      Gives (.groupWakeDone c g) s (fun t => (t.core c).groupSt c g = 0 ∧ (t.core c).am = k.am ∧ (t.core c).pm = k.pm)) ∧
    (∀ g, g < 16 → k.groupSt c g = 3 → k.gather = [] → k.writesTo c g = false → k.groupReq c g ≠ 3 →
      Gives (.bankGroupClosed c g) s (fun t => (t.core c).groupSt c g = k.groupReq c g ∧ (t.core c).am = k.am ∧
        (t.core c).pm = k.pm)) ∧
    (∀ x, k.waitedFor waitTag ≠ none → k.tagWait = some x → ((s.core x.owner).reg x.owner CORE_SPM_FE_TMO).toNat ≠ 0 →
        k.accHeld = none →
      Gives (.tagWaitTimeout c) s (fun t => (t.core c).fault = some ⟨stTimeout, k.pc, 0, t.now⟩))

/-! ## Registers of a core -/

/-- Debug control. DEBUG_HALT, DEBUG_ACC_READ, DEBUG_RESUME. -/
def Obligations.DebugControl : Prop :=
  (∀ (s : State) (a : Agent) (c : Nat),
     let k := s.core c
     (Writes s a (coreAddr c CORE_SEQ_CTRL) 1 1 →
       (k.seq ≠ .debug → exec (.coreSeqHalt a c) s = .next (s.setCore c { k with seq := .halting })) ∧
       (k.seq = .debug → exec (.coreSeqHalt a c) s = .next (s.setCore c k))) ∧
     (Writes s a (coreAddr c CORE_SEQ_CTRL) 2 2 → k.loaded = true →
       (k.seq = .debug → exec (.coreSeqStep a c) s =
         .next (s.setCore c { k.setReg c CORE_ACC_DBG_CTRL 0 with seq := .halting, stepping := true })) ∧
       (k.seq ≠ .debug → exec (.coreSeqStep a c) s = .next (s.setCore c k))) ∧
     (Writes s a (coreAddr c CORE_SEQ_CTRL) 4 4 →
       (k.seq = .debug → exec (.coreSeqRun a c) s = .next (s.setCore c { k.setReg c CORE_ACC_DBG_CTRL 0 with
         seq := if k.loaded then .running else .idle })) ∧
       (k.seq ≠ .debug → exec (.coreSeqRun a c) s = .next (s.setCore c k))) ∧
     (k.seq = .halting → k.stepping = false → k.accHeld = none → k.passes = [] → (∀ d ∈ k.drains, d.moved = true) →
       k.pageWrites = [] → k.fault = none →
       Gives (.debugEnter c) s (fun t => (t.core c).seq = .debug ∧ t.debugSeen = true ∧ (t.core c).pc = k.pc ∧ (t.core c).acm = k.acm))) ∧
  (∀ (s : State) (src : Src) (e : Entry),
     let c := e.word 0 % 128
     let k := s.core c
     (Accepts s src 0x63 (fields coreField) e [] (s.tookTurn src) →
       (k.seq = .debug → Gives (.debugHalt src) s (fun t => t.core c = k ∧ Decides s t [e.answer s stOk 0 k.curPc])) ∧
       (k.seq ≠ .debug → Gives (.debugHalt src) s (fun t => t.core c = { k with seq := .halting } ∧
         ∃ x, t.cmd s.freshCmd = some x ∧ x.tag = e.tag ∧ x.src = src ∧ x.ended = false))) ∧
     (Accepts s src 0x64 (fields (fun e s => coreField e s ++ s.addrChecks e 2 false false)) e [] (s.tookTurn src) →
       (k.seq ≠ .debug → Gives (.debugAccRead src) s (fun t => t.core c = k ∧ Decides s t [e.answer s stStateRefused s.dev 0])) ∧
       (k.seq = .debug → (e.word 0).testBit 7 = false → s.pcieUp = true → s.busMaster = true → (e.word 2).testBit 63 = true →
         let first := e.word 0 / 2 ^ 8 % 2 ^ 15
         let n := min (e.word 1 % 2 ^ 16) (32768 - first)
         Gives (.debugAccRead src) s (fun t => Decides s t [e.final s stOk 0 n] ∧ (t.core c).acm = k.acm ∧
           t.hmem = Mem.write s.hmem (e.word 2 % 2 ^ 63)
             ((List.range n).flatMap (fun j => leBytes 8 (k.debugWord false (first + j)).toNat))))) ∧
     (Accepts s src 0x65 (fields coreField) e [] (s.tookTurn src) →
       (k.seq ≠ .debug → Gives (.debugResume src) s (fun t => t.core c = k ∧ Decides s t [e.answer s stStateRefused s.dev 0])) ∧
       (k.seq = .debug → (e.word 0).testBit 7 = false → Gives (.debugResume src) s (fun t => Decides s t [e.answer s stOk 0 k.curPc] ∧
         (t.core c).seq = if k.loaded then SeqState.running else SeqState.idle)) ∧
       (k.seq = .debug → (e.word 0).testBit 7 = true → k.loaded = true → Gives (.debugResume src) s (fun t =>
         (t.core c).seq = .halting ∧ (t.core c).stepping = true ∧ (t.core c).pc = k.pc))))

/-- The instruction memory and BOUND, from outside. -/
def Obligations.InstructionMemoryAccess : Prop :=
  ∀ (s : State) (a : Agent) (c i : Nat) (v : W32), i < 8192 →
    let k := s.core c
    let w (h : Nat) : Nat := coreAddr c (CORE_IMEM (2 * i + h))
    (Writes s a (w 0) v v → (k.loaded = false ∨ k.seq = .debug) →
      exec (.coreImemWrite a c i false v) s =
        .next (s.setCore c { k with imemHeld := Tab.set (fun _ => none) k.imemHeld (agentCode a) (some (i, v)) })) ∧
    (∀ l, Writes s a (w 1) v v → (k.loaded = false ∨ k.seq = .debug) →
      Tab.get (fun _ => none) k.imemHeld (agentCode a) = some (i, l) →
      Gives (.coreImemWrite a c i true v) s (fun t => (t.core c).imemAt i = v.setWidth 64 <<< 32 ||| l.setWidth 64 ∧
        (∀ j, j ≠ i → (t.core c).imemAt j = k.imemAt j) ∧ Tab.get (fun _ => none) (t.core c).imemHeld (agentCode a) = none)) ∧
    (∀ h : Bool, Writes s a (w h.toNat) v v → k.loaded = true → k.seq ≠ .debug →
      Gives (.coreImemWrite a c i h v) s (fun t => t.core c = k ∧
        Counted s t 4)) ∧
    (s.reads a (w 0) = true → c < 72 →
      Gives (.coreImemRead a c i false) s (fun t => Tab.get (fun _ => 0) t.readData (agentCode a) = s.live (w 0) ∧
        Tab.get (fun _ => none) t.imemLatch (agentCode a * 128 + c) = some (i, s.live (w 0 + 4)) ∧ t.cores = s.cores)) ∧
    (∀ b < 16, Writes s a (coreAddr c (CORE_BOUND b)) v v →
      ((k.seq = .debug ∨ a = .mp ∨ ∃ n, a = .cp n) →
        exec (.coreBoundWrite a c b v) s = .next (s.setCore c (k.setReg c (CORE_BOUND b) v))) ∧
      (k.seq ≠ .debug → (a = .host ∨ a = .usb) →
        Gives (.coreBoundWrite a c b v) s (fun t => t.core c = k ∧
          Counted s t 4)))

/-- Deferred mode and wheel writes. -/
def Obligations.ModeAndWheelAreDeferred : Prop :=
  ∀ (s : State) (a : Agent) (c : Nat) (v u : W32),
    let k := s.core c
    let busy : Prop := k.loaded = true ∨ k.queued ≠ [] ∨ k.meshWait ≠ []
    (Writes s a (coreAddr c CORE_SPM_MODE) v u →
      (busy → exec (.coreSpmModeWrite a c v) s = .next (s.setCore c { k with modePend := some u }) ∧
        regField (({ k with modePend := some u } : CoreState).live c CORE_SPM_MODE) 8 8 = 1) ∧
      (¬ busy → Gives (.coreSpmModeWrite a c v) s (fun t =>
        (t.core c).reg c CORE_SPM_MODE = u &&& 7#32 ∧ (t.core c).modePend = none))) ∧
    (Writes s a (coreAddr c CORE_SPM_WHEEL) v u → (∀ i < 8, wheelOwner u i ≠ 5 ∧ wheelOwner u i ≠ 6) →
      (busy → exec (.coreSpmWheelWrite a c v) s = .next (s.setCore c { k with wheelPend := some u }) ∧
        regField (({ k with wheelPend := some u } : CoreState).live c CORE_SPM_MODE) 8 8 = 1) ∧
      (¬ busy → Gives (.coreSpmWheelWrite a c v) s (fun t =>
        (t.core c).reg c CORE_SPM_WHEEL = u ∧ (t.core c).wheelPend = none))) ∧
    (¬ busy → (k.modePend ≠ none ∨ k.wheelPend ≠ none) →
      Gives (.spmModeApply c) s (fun t => (t.core c).modePend = none ∧ (t.core c).wheelPend = none ∧
        regField ((t.core c).live c CORE_SPM_MODE) 8 8 = 0 ∧
        (t.core c).reg c CORE_SPM_MODE = (match k.modePend with | some m => m &&& 7#32 | none => k.reg c CORE_SPM_MODE) ∧
        (t.core c).reg c CORE_SPM_WHEEL = (match k.wheelPend with | some x => x | none => k.reg c CORE_SPM_WHEEL))) ∧
    (busy → exec (.spmModeApply c) s = .next (s.setCore c k))

/-- Control registers of a core. Requested power states: one group changes. -/
def Obligations.CoreControlWrites : Prop :=
  (∀ (s : State) (a : Agent) (c : Nat) (v u : W32),
     let k := s.core c
     (Writes s a (coreAddr c CORE_ARR_SCRUB_CTRL) v u →
       exec (.coreArrScrubCtrlWrite a c v) s = .next (s.setCore c (k.setReg c CORE_ARR_SCRUB_CTRL u))) ∧
     (Writes s a (coreAddr c CORE_ACC_DBG_CTRL) v u →
       (k.seq = .debug → exec (.coreAccDbgCtrlWrite a c v) s = .next (s.setCore c (k.setReg c CORE_ACC_DBG_CTRL u))) ∧
       (k.seq ≠ .debug → Gives (.coreAccDbgCtrlWrite a c v) s (fun t => t.core c = k ∧
         Counted s t 15))) ∧
     (∀ i < 64, Writes s a (coreAddr c (CORE_SPM_ARRIVE i)) v u →
       Gives (.coreSpmArriveWrite a c i v false) s (fun t => (t.core c).reg c (CORE_SPM_ARRIVE i) = u)) ∧
     (Writes s a (coreAddr c CORE_RQ_LIMIT) v u →
       exec (.coreRqLimitWrite a c v) s = .next (s.setCore c ((k.setReg c CORE_RQ_LIMIT u).setReg c CORE_RQ_WIN 0))) ∧
     (Writes s a (coreAddr c CORE_SP_HAC_CFG) v u →
       (k.validWays = [] → Gives (.coreSpHacCfgWrite a c v) s (fun t =>
         (t.core c).reg c CORE_SP_HAC_CFG = u ∧ (t.core c).ways = [] ∧ regField ((t.core c).reg c CORE_SP_HAC_STAT) 30 30 = 0)) ∧
       (k.validWays ≠ [] → Gives (.coreSpHacCfgWrite a c v) s (fun t =>
         (t.core c).reg c CORE_SP_HAC_CFG = k.reg c CORE_SP_HAC_CFG ∧ (t.core c).ways = k.ways ∧
         regField ((t.core c).reg c CORE_SP_HAC_STAT) 30 30 = 1)))) ∧
  (∀ (s : State) (a : Agent) (c g q : Nat) (v : W32), g < 16 → q < 3 →
     Writes s a (coreAddr c CORE_SPM_PWR_REQ0) v v →
     let k := s.core c
     (∀ j < 16, j ≠ g → regField v (2 * j + 1) (2 * j) = k.groupReq c j ∧ (regField v (2 * j + 1) (2 * j) = 0 ∨ k.fineGroup c j = false) ∧
       regField v (2 * j + 1) (2 * j) ≠ 3) →
     regField v (2 * g + 1) (2 * g) = q →
     (q ≠ k.groupReq c g → (q = 0 ∨ k.fineGroup c g = false) →
       Gives (.coreSpmPwrReqWrite a c false v) s (fun t => (t.core c).groupReq c g = q ∧
         (k.groupSt c g = 0 → q ≠ 0 → (t.core c).groupSt c g = 3) ∧
         (k.groupSt c g = 1 → q = 0 → (t.core c).groupSt c g = 4) ∧
         (k.groupSt c g = 1 → q = 2 → (t.core c).groupSt c g = 2) ∧
         (k.groupSt c g = 2 → q = 0 → (t.core c).groupSt c g = 4) ∧
         (k.groupSt c g = 3 → q = 0 → (t.core c).groupSt c g = 0))) ∧
     (q ≠ 0 → k.fineGroup c g = true →
       Gives (.coreSpmPwrReqWrite a c false v) s (fun t => (t.core c).groupReq c g = k.groupReq c g ∧
         (t.core c).groupSt c g = k.groupSt c g ∧
         (t.core c).reg c CORE_SPM_REFUSED = satAdd (k.reg c CORE_SPM_REFUSED) 1)))

/-! ## Registers of the device -/

/-- REGISTER_WRITE on a register that no other row describes. Latched reads. -/
def Obligations.PlainRegisterWrites : Prop :=
  (∀ (s : State) (a : Agent) (addr : Nat) (v : W32), addr % 4 = 0 → (blockOf addr = .sec ∨ blockOf addr = .mem) → agentCode a < 9 →
     (∀ r : RegRow, s.writeWay a addr = .row r → v &&& r.rsv = 0 →
       Gives (.registerWrite a addr ⟨v, []⟩) s (fun t =>
         t.reg addr = (match r.acc with
           | .rw => (s.reg addr &&& ~~~ r.wmask) ||| (v &&& r.wmask)
           | .w1c => s.reg addr &&& ~~~ (v &&& r.wmask)
           | .w1s => s.reg addr ||| (v &&& r.wmask)
           | _ => s.reg addr) ∧
         (∀ b, b ≠ addr → t.reg b = s.reg b) ∧ t.cores = s.cores ∧ t.log = s.log)) ∧
     (s.writeWay a addr = .unnamed →
       Gives (.registerWrite a addr ⟨v, []⟩) s (fun t => t.reg addr = s.reg addr ∧ t.cores = s.cores ∧
         Counted s t 3)) ∧
     (∀ (b : Agent) (w : W32) (r : RegRow), agentCode b < 9 → agentCode b ≠ agentCode a → s.writeWay a addr = .row r → r.acc = .rw →
       v &&& r.rsv = 0 →
       (s.writeWay b addr = .row r → w &&& r.rsv = 0 → Gives (.registerWrite a addr ⟨v, [(b, some w)]⟩) s (fun t =>
         t.reg addr = (s.reg addr &&& ~~~ r.wmask) ||| ((if agentCode a < agentCode b then w else v) &&& r.wmask))) ∧
       (s.reads b addr = true → isLow addr = false → isLow (addr - 4) = false → rcMask addr = 0 → Gives (.registerWrite a addr ⟨v, [(b, none)]⟩) s (fun t =>
         Tab.get (fun _ => 0) t.readData (agentCode b) = s.live addr ∧
         t.reg addr = (s.reg addr &&& ~~~ r.wmask) ||| (v &&& r.wmask))))) ∧
  (∀ (s : State) (a : Agent) (lo : Nat),
     (s.reads a lo = true → isLow lo = true → (blockOf lo = .tel ∨ blockOf lo = .mem ∨ blockOf lo = .ras) →
       Gives (.latchedPairRead a lo) s (fun t => Tab.get (fun _ => 0) t.readData (agentCode a) = s.live lo ∧
         Tab.get (fun _ => none) t.latches (latchKey a lo) = some (s.live (lo + 4)) ∧ t.regs = s.regs ∧ t.cores = s.cores)) ∧
     (∀ v, s.reads a (lo + 4) = true → isLow (lo + 4) = false → isLow lo = true →
       Tab.get (fun _ => none) s.latches (latchKey a lo) = some v →
       Gives (.latchedPairRead a (lo + 4)) s (fun t => Tab.get (fun _ => 0) t.readData (agentCode a) = v ∧
         Tab.get (fun _ => none) t.latches (latchKey a lo) = none ∧ t.regs = s.regs)) ∧
     (∀ i < 4096, s.reads a (RAS_LOG (8 * i)) = true →
       Gives (.rasLogRead a i 0) s (fun t => Tab.get (fun _ => 0) t.readData (agentCode a) = (s.logAt i).word 0 ∧
         Tab.get (fun _ => none) t.logLatch (agentCode a) = some (i, s.logAt i))) ∧
     (∀ i w r, i < 4096 → 0 < w → w < 8 → s.reads a (RAS_LOG (8 * i + w)) = true →
       Tab.get (fun _ => none) s.logLatch (agentCode a) = some (i, r) →
       Gives (.rasLogRead a i w) s (fun t => Tab.get (fun _ => 0) t.readData (agentCode a) = r.word w ∧ t.logLatch = s.logLatch)))

/-! ## Queues -/

/-- Doorbells. States of a queue; device events. -/
def Obligations.Doorbells : Prop :=
  (∀ (s : State) (a : Agent) (q : Nat) (v u : W32), q < 64 →
     (Writes s a (CMDQ_SQDB q) v u →
       (s.qState q = qActive → s.qRemote q = false → s.sqAccepts q u.toNat = true →
         exec (.cmdqSqdbWrite a q v) s = .next (s.setReg (CMDQ_SQDB q) u)) ∧
       ((s.qState q ≠ qActive ∨ s.qRemote q = true ∨ s.sqAccepts q u.toNat = false) →
         Gives (.cmdqSqdbWrite a q v) s (fun t => t.reg (CMDQ_SQDB q) = s.reg (CMDQ_SQDB q) ∧
           Counted s t 4))) ∧
     (Writes s a (CMDQ_CQDB q) v u →
       (s.qState q = qActive → s.cqAccepts q u.toNat = true →
         exec (.cmdqCqdbWrite a q v) s = .next (s.setReg (CMDQ_CQDB q) u)) ∧
       ((s.qState q ≠ qActive ∨ s.cqAccepts q u.toNat = false) →
         Gives (.cmdqCqdbWrite a q v) s (fun t => t.reg (CMDQ_CQDB q) = s.reg (CMDQ_CQDB q) ∧
           Counted s t 4)))) ∧
  (∀ (s : State) (a : Agent) (q : Nat) (v u : W32), q < 64 →
     (Writes s a (CMDQ_Q_CFG q) (v ||| BitVec.twoPow 32 31) u → u.getLsbD 31 = true → s.qState q = qDisabled →
       ((s.setReg (CMDQ_Q_CFG q) u).qValid q = true →
         Gives (.queueEnable a q v) s (fun t => t.qState q = qActive ∧ t.reg (CMDQ_Q_CFG q) = u ∧ t.sqTail q = 0 ∧ t.sqHead q = 0 ∧
           t.cqHead q = 0 ∧ t.cqTail q = 0 ∧ Tab.get (fun _ => true) t.phase q = true)) ∧
       ((s.setReg (CMDQ_Q_CFG q) u).qValid q = false →
         Gives (.queueEnable a q v) s (fun t => t.qState q = qDisabled ∧ t.fld (CMDQ_Q_STAT q) 29 27 = 4 ∧
           (t.reg (CMDQ_Q_CFG q)).getLsbD 31 = false))) ∧
     (Writes s a (CMDQ_Q_CFG q) (v &&& ~~~ BitVec.twoPow 32 31) u → s.qState q = qActive →
       u.setWidth 31 = (s.reg (CMDQ_Q_CFG q)).setWidth 31 →
       Gives (.queueDisable a q v) s (fun t => t.qState q = qDraining ∧ t.reg (CMDQ_Q_CFG q) = u ∧
         t.reg (CMDQ_Q_PTR q) = s.reg (CMDQ_Q_PTR q) ∧ t.fetched = s.fetched)) ∧
     (s.qState q = qDraining → s.qIdle q = true →
       Gives (.queueDrained q) s (fun t => t.qState q = qDisabled ∧ t.reg (CMDQ_Q_CFG q) = s.reg (CMDQ_Q_CFG q))) ∧
     (s.qState q = qDraining → s.qIdle q = false → Gives (.queueDrained q) s (fun t => t.qState q = qDraining)) ∧
     (Writes s a CMDQ_EVT v u →
       Gives (.cmdqEvtClear a v) s (fun t => t.reg CMDQ_EVT = s.reg CMDQ_EVT &&& ~~~ u ∧
         (∀ b, b ≠ CMDQ_EVT → t.reg b = s.reg b))))

/-- Fetch and posting, on a queue in host memory. -/
def Obligations.FetchAndPost : Prop :=
  ∀ (s : State) (q : Nat), q < 64 →
    let n := min 8 (ringDist (s.sqSize q) (s.sqHead q) (s.sqTail q))
    (s.served (.queue q) = true → s.qState q = qActive → n ≠ 0 → s.pendOf (.queue q) < 16 → s.sqLoc q = 0 → s.pcieUp = true →
      (∀ i < n, Framed (Mem.read s.hmem (s.sqBase q + 64 * ((s.sqHead q + i) % s.sqSize q)) 64)) →
      (∀ e ∈ s.fetched, e.src = .queue q → e.framing = none) →
      Gives (.sqFetch (.queue q) false) s (fun t => t.sqHead q = (s.sqHead q + n) % s.sqSize q % 2 ^ 12 ∧
        t.fetched.length = s.fetched.length + n ∧
        (∀ i < n, ∃ e, t.fetched[s.fetched.length + i]? = some e ∧ e.src = .queue q ∧
          e.bytes = Mem.read s.hmem (s.sqBase q + 64 * ((s.sqHead q + i) % s.sqSize q)) 64))) ∧
    (s.served (.queue q) = true → s.qState q = qActive → n ≠ 0 → s.pendOf (.queue q) < 16 → s.sqLoc q = 0 →
      Gives (.sqFetch (.queue q) true) s (fun t => t.qState q = qError ∧ t.fld (CMDQ_Q_STAT q) 29 27 = 1 ∧ t.fetched = s.fetched)) ∧
    (∀ p r, takePosting (.queue q) s.pend = none → takePosting (.queue q) s.posting = some (p, r) → s.qState q = qActive →
      (s.cqTail q + 1) % s.cqSize q ≠ s.cqHead q → s.cqLoc q = 0 → s.hostWritable = true → s.head (.queue q) = none →
      s.dev ≠ devDraining →
      Gives (.cqPost (.queue q)) s (fun t => t.posting = r ∧
        t.hmem = Mem.write s.hmem (s.cqBase q + 16 * s.cqTail q) (p.bytes (Tab.get (fun _ => true) s.phase q)) ∧
        t.cqTail q = (s.cqTail q + 1) % s.cqSize q % 2 ^ 12 ∧
        Tab.get (fun _ => true) t.phase q =
          (if (s.cqTail q + 1) % s.cqSize q = 0 then !Tab.get (fun _ => true) s.phase q else Tab.get (fun _ => true) s.phase q) ∧
        (p.interim = true → t.cmds = s.cmds) ∧
        (p.interim = false → ∀ id, p.id = some id → t.cmds = s.cmds.filter (fun x => x.id != id)))) ∧
    (s.qState q = qActive → (s.cqTail q + 1) % s.cqSize q = s.cqHead q → s.head (.queue q) = none →
      takePosting (.queue q) s.posting ≠ none →
      Gives (.cqPost (.queue q)) s (fun t => t.hmem = s.hmem ∧
        t.reg (CMDQ_Q_CQSTALL q) = satAdd (s.reg (CMDQ_Q_CQSTALL q)) 1)) ∧
    (∀ p r, takePosting (.queue q) s.pend = some (p, r) → s.qState q = qActive →
      (s.cqTail q + 1) % s.cqSize q ≠ s.cqHead q → s.cqLoc q = 0 → s.hostWritable = true → s.head (.queue q) = none →
      s.dev ≠ devDraining →
      let p' := (({ s with pend := r } : State).unpend p).1
      Gives (.cqPost (.queue q)) s (fun t => t.pend = r ∧ p'.tag = p.tag ∧ (.completion p ∉ s.badWords → p' = p) ∧
        (.completion p ∈ s.badWords → p'.status = stUncorrectable) ∧
        t.hmem = Mem.write s.hmem (s.cqBase q + 16 * s.cqTail q) (p'.bytes (Tab.get (fun _ => true) s.phase q))))

/-- Interrupts and progress. -/
def Obligations.InterruptsAndProgress : Prop :=
  ∀ (s : State),
    (∀ v < 64, v ∈ s.vecReq → (s.reg (CMDQ_MSIX3 v)).getLsbD 0 = false →
      Gives (.msixMessage v) s (fun t => t.msixOut = s.msixOut ++ [v] ∧ v ∉ t.vecReq ∧
        (∀ q < 64, s.qVec q = v → t.unsigOf q = (0, 0)) ∧ (∀ q < 64, s.qVec q ≠ v → t.unsigOf q = s.unsigOf q))) ∧
    (∀ v < 65, v ∈ s.vecReq → (s.reg (CMDQ_MSIX3 v)).getLsbD 0 = true →
      Gives (.msixMessage v) s (fun t => t.msixOut = s.msixOut ∧ v ∉ t.vecReq ∧ (t.reg (CMDQ_PBA (v / 32))).getLsbD (v % 32) = true)) ∧
    (∀ q < 64, s.fld (CMDQ_Q_IRQ q) 15 8 ≠ 0 → (s.unsigOf q).1 ≠ 0 → (s.reg (CMDQ_Q_IRQ q)).getLsbD 31 = true →
      Gives (.irqAgeExpiry q) s (fun t => s.qVec q ∈ t.vecReq ∧
        t.now = max s.now ((s.unsigOf q).2 + s.fld (CMDQ_Q_IRQ q) 15 8 * usNclk))) ∧
    (∀ id x q, s.cmd id = some x → x.src = .queue q → x.ended = false → x.unit < unitNone → x.flags.testBit 1 = true →
      s.fld (CMDQ_Q_CFG q) 15 8 ≠ 0 →
      Gives (.progressInterval id) s (fun t => t.now = max s.now (x.nextProg + s.fld (CMDQ_Q_CFG q) 15 8 * msNclk) ∧
        ∃ p, t.posting = s.posting ++ [p] ∧ p.status = stProgress ∧ p.interim = true ∧ p.tag = x.tag ∧ p.src = x.src))

/-! ## Commands of the queues -/

/-- What a queue command answers before its own effect. FW_UPDATE and KEY_OP. -/
def Obligations.QueueChecksInOrder : Prop :=
  (∀ (s : State) (i : Instr) (op : Nat) (src : Src) (f : Entry → State → List Check) (e : Entry), queueOp i = some (op, src, f) →
     ((s.served src = false ∨ s.inTurn src = false ∨ s.head src = none ∨ s.ready src = false ∨
         (∃ h, s.head src = some h ∧ h.op ≠ op)) → exec i s = .next s) ∧
     (AtHead s src op e →
       (∀ st d, firstBad (e.rsvChecks ++ f e s) = some (st, d) → Gives i s (fun t => Decides s t [e.answer s st d 0])) ∧
       (firstBad (e.rsvChecks ++ f e s) = none → s.gate e = .refuse →
         Gives i s (fun t => Decides s t [e.answer s stStateRefused s.dev 0])) ∧
       (firstBad (e.rsvChecks ++ f e s) = none → s.gate e = .defer →
         Gives i s (fun t => ∃ h, t.head src = some h ∧ h.bytes = e.bytes ∧ h.deferred = some s.deferNo ∧ t.deferNo = s.deferNo + 1)))) ∧
  (∀ (s : State) (src : Src) (e : Entry), (s.popHead src).head src = none →
     let refused (t : State) : Prop := Decides s t [e.answer s stNotSecure 0 0] ∧ t.cores = s.cores ∧ t.dmem = s.dmem ∧
       Counted s t 8
     (AtHead s src 0x72 e → Gives (.fwUpdate src) s refused) ∧ (AtHead s src 0x73 e → Gives (.keyOp src) s refused))

/-- IDENTIFY, PROGRESS, COUNTERS_READ, OP_SET, POWER_CAP_SET. -/
def Obligations.InformationCommandsAnswer : Prop :=
  ∀ (s : State) (src : Src) (e : Entry),
    let answered (r : Nat) (t : State) : Prop := Decides s t [e.answer s stOk 0 r] ∧ t.cores = s.cores ∧ t.hmem = s.hmem
    (Accepts s src 0x01 noFields e [] (s.tookTurn src) → Gives (.identify src) s (answered (if e.word 0 % 2 = 0 then
      (s.reg GLB_ID).toNat + s.fld GLB_STEP 23 8 * 2 ^ 32 + s.dev * 2 ^ 48 + s.active * 2 ^ 56
      else s.pair GLB_SERIAL_LO GLB_SERIAL_HI))) ∧
    (∀ x, Accepts s src 0x02 noFields e [] (s.tookTurn src) → (s.popHead src).target (e.word 0 / 2 ^ 16 % 64) (e.word 0 % 2 ^ 16) = some (.cmd x) →
      x.unit < unitNone →
      Gives (.progress src) s (answered (progressWord x.unit ((s.popHead src).progressOf x)))) ∧
    (Accepts s src 0x08 noFields e [] (s.tookTurn src) →
      let c := e.word 0 % 16
      Gives (.countersRead src) s (fun t => answered (s.pair (RAS_VIOL_LO c) (RAS_VIOL_HI c)) t ∧
        t.pair (RAS_VIOL_LO c) (RAS_VIOL_HI c) = if (e.word 0).testBit 4 then 0 else s.pair (RAS_VIOL_LO c) (RAS_VIOL_HI c))) ∧
    (Accepts s src 0x41 noFields e [] (s.tookTurn src) →
      Gives (.opSet src) s (fun t => answered (s.reg PWR_OP_CTRL).toNat t ∧ t.reg PWR_OP_CTRL = BitVec.ofNat 32 (e.word 0 % 32))) ∧
    (Accepts s src 0x40 (fields (fun e _ => [okField 0 0 (capValid (e.word 0 % 1024))])) e [] (s.tookTurn src) →
      let r := match src with
        | .queue _ => PWR_CAP
        | _ => PWR_BUDGET
      Gives (.powerCapSet src) s (fun t => answered (s.fld r 9 0) t ∧ t.fld r 9 0 = e.word 0 % 1024 ∧
        t.fld PWR_CAP_STATUS 9 0 = min (t.fld PWR_CAP 9 0) (t.fld PWR_BUDGET 9 0)))

/-- ERRLOG_READ, TELEMETRY_READ, FABRIC_STATUS, CERT_READ, ATTEST, each to host memory. -/
def Obligations.DataCommandsDeliver : Prop :=
  ∀ (s : State) (src : Src) (e : Entry), s.pcieUp = true → s.busMaster = true →
    let sends (w : Nat) (data : List Byte) (r : Nat) (t : State) : Prop :=
      t.hmem = Mem.write s.hmem (w % 2 ^ 63) data ∧ Decides s t [e.final s stOk 0 r]
    (Accepts s src 0x09 (fields (fun e s => okField 1 12 (decide (1 ≤ e.word 1 / 2 ^ 12 % 2 ^ 13 ∧ e.word 1 / 2 ^ 12 % 2 ^ 13 ≤ 4096)) ::
        s.addrChecks e 0 false false)) e [] (s.tookTurn src) → (e.word 0).testBit 63 = true →
      let i := e.word 1 % 2 ^ 12
      let n := e.word 1 / 2 ^ 12 % 2 ^ 13
      Gives (.errlogRead src) s (sends (e.word 0) ((List.range n).flatMap (fun j => (s.logAt ((i + j) % 4096)).bytes))
        ((i + n) % 4096 + n * 2 ^ 12 + (s.logWrapped i).toNat * 2 ^ 25))) ∧
    (Accepts s src 0x0A (fields (fun e s => s.addrChecks e 0 false false)) e [] (s.tookTurn src) → (e.word 0).testBit 63 = true →
      let u := (channels (e.word 1 % 2 ^ 32)).foldl State.snap (s.popHead src)
      Gives (.telemetryRead src) s (sends (e.word 0) ((channels (e.word 1 % 2 ^ 32)).flatMap u.telBytes)
        (128 * (channels (e.word 1 % 2 ^ 32)).length))) ∧
    (Accepts s src 0x51 (fields (fun e s => s.addrChecks e 0 false false)) e [] (s.tookTurn src) → (e.word 0).testBit 63 = true →
      Gives (.fabricStatus src) s (sends (e.word 0) ((List.range 32).flatMap (fun p =>
        (List.range 16).flatMap (fun j => leBytes 4 (s.live (PORT_CTRL p + 4 * j)).toNat))) 2048)) ∧
    (Accepts s src 0x71 (fields (fun e s => s.addrChecks e 1 false false)) e [] (s.tookTurn src) → (e.word 1).testBit 63 = true →
      (e.word 0 % 2 = 0 → Config.sha256 (s.certOf e) = s.idHash) → (s.certOf e).length ≤ e.word 2 % 2 ^ 16 →
      Gives (.certRead src) s (sends (e.word 1) (s.certOf e) (s.certOf e).length)) ∧
    (Accepts s src 0x70 (fields (fun e s => s.addrChecks e 0 true false ++ s.addrChecks e 1 false false ++
        [okField 2 0 (decide (896 ≤ e.word 2 % 2 ^ 16))])) e [] (s.tookTurn src) → (e.word 0).testBit 63 = true → (e.word 1).testBit 63 = true →
      s.mpDown = false →
      Gives (.attest src) s (sends (e.word 1) (s.report896 (Mem.read s.hmem (e.word 0 % 2 ^ 63) 32)) 896))

/-- DRAIN, SOFT_RESET and its application, MAINT_ENTER, MAINT_EXIT, ABORT. -/
def Obligations.DeviceStateCommands : Prop :=
  ∀ (s : State) (src : Src) (e : Entry),
    (Accepts s src 0x04 noFields e [] (s.tookTurn src) →
      (s.inFlight ≠ 0 → Gives (.drain src) s (fun t => t.dev = devDraining ∧ t.cores = s.cores ∧
        Decides s t [e.accepted s unitPercent s.inFlight])) ∧
      (s.inFlight = 0 → s.softReset = none → Gives (.drain src) s (fun t =>
        t.dev = (if s.residentWm then devLoaded else devReady) ∧
        Decides s t [e.accepted s unitPercent 0, e.final s stOk 0 0]))) ∧
    (Accepts s src 0x05 noFields e [] (s.tookTurn src) →
      (s.inFlight ≠ 0 → s.dev ≠ devFaulted → Gives (.softReset src) s (fun t => t.dev = devDraining ∧ t.softReset = some src)) ∧
      (s.dev = devFaulted → Gives (.softReset src) s (fun t => t.softReset = some src ∧ Decides s t [e.final s stOk 0 0]))) ∧
    (s.softReset.isSome = true → s.softPosted = true →
      Gives .softResetApply s (fun t => t.dev = devBoot ∧ t.bootStep = 4 ∧ t.fld SEC_STAT 7 6 = 2 ∧ t.cmds = [] ∧ t.fetched = [] ∧
        t.posting = [] ∧ t.pend = [] ∧ t.softReset = none ∧ (∀ q < 64, t.qState q = qDisabled))) ∧
    (Accepts s src 0x06 noFields e [] (s.tookTurn src) →
      Gives (.maintEnter src) s (fun t => t.dev = devMaint ∧ t.cores = s.cores ∧ Decides s t [e.answer s stOk 0 0])) ∧
    (Accepts s src 0x07 noFields e [] (s.tookTurn src) →
      Gives (.maintExit src) s (fun t => t.dev = s.restState ∧ t.cores = s.cores ∧ Decides s t [e.answer s stOk 0 s.restState])) ∧
    (Accepts s src 0x03 noFields e [] (s.tookTurn src) →
      let tgt := (s.popHead src).target (e.word 0 / 2 ^ 16 % 64) (e.word 0 % 2 ^ 16)
      (tgt = none → Gives (.abort src) s (fun t => Decides s t [e.answer s stOk 0 0])) ∧
      (∀ x, tgt = some (.cmd x) → x.ended = false → x.closing = false → x.stopped = false →
        Gives (.abort src) s (fun t => Decides s t [e.answer s stOk 0 1] ∧ (∀ d ∈ t.disp, d.cmd = x.id → d.st ≠ 0))) ∧
      (∀ d, tgt = some (.entry d) →
        Gives (.abort src) s (fun t => Decides s t [d.answer s stAborted 0 0, e.answer s stOk 0 1])))

/-- SELF_TEST, CORE_RESET, CORE_RENUMBER, DEFERRED_RECHECK. -/
def Obligations.MaintenanceCommands : Prop :=
  ∀ (s : State) (src : Src) (e : Entry),
    (Accepts s src 0x60 (fields (fun e s => s.maskChecks e 1)) e [] (s.tookTurn src) →
      Gives (.selfTest src ⟨[], [], [], [], []⟩) s (fun t => (∀ k < 3, t.reg (RAS_ST_CORE k) = 0) ∧ t.reg RAS_ST_PORT = 0 ∧
        t.reg RAS_ST_MISC = 0 ∧ (∃ total, Decides s t [e.accepted s unitPercent total, e.final s stOk 0 0]) ∧
        (∀ i < 64, ∀ c, (e.word 0).testBit 0 = true → (e.word 1).testBit i = true → s.physOf i = some c →
          (t.core c).acm = [] ∧ (t.core c).pages = [] ∧ (t.core c).am = []))) ∧
    (Accepts s src 0x62 (fields coreField) e [] (s.tookTurn src) →
      let c := e.word 0 % 128
      Gives (.coreReset src) s (fun t => t.core c = (s.core c).coreReset c s.now ∧ (∀ d, d ≠ c → t.core d = s.core d) ∧
        Decides s t [e.answer s stOk 0 0])) ∧
    (∀ c i, s.renumber = true → (s.dev = devReady ∨ s.dev = devLoaded) → s.wloads = [] → c < 72 → s.coreSt c = 0 →
      s.active ≤ s.logicalOf c → (∀ d < 72, s.coreSt d = 0 → d ≠ c → s.logicalOf d < s.active) → i < s.active →
      (s.physOf i) = none → (∀ j < s.active, j ≠ i → s.physOf j ≠ none) → (s.core c).joining = false → s.active ≤ 64 →
      Gives .coreRenumber s (fun t => t.renumber = false ∧ t.logicalOf c = i ∧ t.physOf i = some c ∧
        (∀ d, d ≠ c → t.core d = s.core d))) ∧
    (s.fetched = [e] → e.deferred.isSome = true → e.passed = false → s.pitonHeld < 4096 →
      (e.op = 0x06 → s.gate e = .accept → Gives .deferredRecheck s (fun t => t.dev = devMaint ∧ Decides s t [e.final s stOk 0 0])) ∧
      (s.gate e = .refuse → Gives .deferredRecheck s (fun t => t.fetched = [] ∧ Decides s t [e.answer s stStateRefused s.dev 0])) ∧
      (s.gate e = .defer → exec .deferredRecheck s = .next s))

/-- HANDLE_ALLOC, HANDLE_FREE, HANDLE_ATTR, PRED_ENABLE, WORKLIST_DEFINE, WORKLIST_FREE, WEIGHT_UNLOAD. -/
def Obligations.HandleAndListCommands : Prop :=
  ∀ (s : State) (src : Src) (e : Entry), srcQueue src < 64 →
    let p := (s.tookTurn src).popHead src
    (Accepts s src 0x10 (fields allocChecks) e [] (s.tookTurn src) →
      let h := e.allocHandle
      let auto := (e.word 2).testBit 9
      let gran := h.granuleCount
      (∀ d, s.overQuota (srcQueue src) (if h.layout = 2 then 2 else 1) gran = some d →
        Gives (.handleAlloc src) s (fun t => Decides s t [e.answer s stQuota d 0] ∧ t.cores = s.cores)) ∧
      (∀ n b, s.overQuota (srcQueue src) (if h.layout = 2 then 2 else 1) gran = none →
        s.allocNumber h ((e.word 2).testBit 8) (e.word 2 % 256) = some n →
        (if auto then s.autoBase h else some h.base) = some b →
        (gran ≠ 0 → s.heldGranules.all (fun g => decide ((b - 0x8000000000) / 65536 + gran ≤ g.2.1 ∨
          g.2.1 + g.2.2 ≤ (b - 0x8000000000) / 65536)) = true) → b < 2 ^ 48 →
        Gives (.handleAlloc src) s (fun t => Decides s t [e.answer s stOk 0 (n + b * 256)] ∧
          (∀ c < 72, s.coreSt c ≠ 2 → (t.core c).handle c n = { h with base := b })))) ∧
    (Accepts s src 0x11 (fields handleField) e [] (s.tookTurn src) →
      Gives (.handleFree src) s (fun t => Decides s t [e.answer s stOk 0 0] ∧
        (∀ c < 72, s.coreSt c ≠ 2 → ((t.core c).handle c (e.word 0 % 256)).valid = false))) ∧
    (Accepts s src 0x12 (fields (fun e s => handleField e s ++
        [okField 1 2 (e.word 1 / 4 % 4 != 3), okField 1 4 (e.word 1 / 16 % 4 != 3)])) e [] (s.tookTurn src) →
      let h := s.handle (e.word 0 % 256)
      let w := e.word 1
      Gives (.handleAttr src) s (fun t =>
        Decides s t [e.answer s stOk 0 (h.resident.toNat + h.retain.toNat * 2 + h.power * 4 + h.tagMode * 16)] ∧
        (∀ c < 72, s.coreSt c ≠ 2 → (t.core c).handle c (e.word 0 % 256) =
          { h with resident := w.testBit 0, retain := w.testBit 1, power := w / 4 % 4, tagMode := w / 16 % 4 }))) ∧
    (Accepts s src 0x22 noFields e [] (s.tookTurn src) →
      let l := e.word 0 % 2 ^ 16
      Gives (.predEnable src) s (fun t =>
        Decides s t [e.answer s stOk 0 (s.preds.any (fun q => q.layer == l && q.off)).toNat] ∧
        t.preds.length = s.preds.length ∧ (∀ q ∈ t.preds, q.layer = l → q.off = false ∧ q.inactive = 0 ∧ q.misses = 0 ∧ q.queue = []) ∧
        (∀ q, q.layer ≠ l → (q ∈ t.preds ↔ q ∈ s.preds)))) ∧
    (∀ g, Accepts s src 0x33 (fields (fun e s =>
        [okField 1 0 (decide (1 ≤ e.word 1 ∧ e.word 1 ≤ 16777216)),
         okField 4 56 (e.word 4 == 0 || (!(e.word 4).testBit 63 && (e.word 4).testBit 62))]
        ++ s.addrChecks e 2 false true)) e [] (s.tookTurn src) → s.list (e.word 0 % 256) = none → e.word 4 = 0 →
      let len := e.word 1 % 2 ^ 25
      let n := ceilDiv (listBytes len) 65536
      let a := 0x8000000000 + 65536 * g
      s.overQuota (srcQueue src) 0 n = none → s.freeGranules n = some g →
      Gives (.worklistDefine src) s (fun t => Decides s t [e.answer s stOk 0 a] ∧
        t.list (e.word 0 % 256) = some ⟨a, none, len, srcQueue src, n, false⟩ ∧
        t.dmem = (p.memWrite a (listHeader a len (e.word 2) (e.word 3 % 2 ^ 32) (e.word 3 / 2 ^ 32 % 2 ^ 13) (srcQueue src)
          ++ List.replicate (ceilDiv len 64 * 8 + len) 0)).2.dmem ∧
        (∀ c < 72, s.coreSt c ≠ 2 → (t.core c).wl c (e.word 0 % 256) = a + 2 ^ 63))) ∧
    (∀ w b u, Accepts s src 0x34 (fields (fun e s => [okField 0 0 (s.list (e.word 0 % 256)).isSome])) e [] (s.tookTurn src) →
      s.list (e.word 0 % 256) = some w → w.dev = none → p.atomFirst (w.addr + 8) 8 = false → p.memRead (w.addr + 8) 8 = (stOk, b, u) →
      Gives (.worklistFree src) s (fun t => Decides s t [e.answer s stOk 0 (leNat b)] ∧ t.list (e.word 0 % 256) = none)) ∧
    (Accepts s src 0x21 (fields (fun e s => [okField 0 0 ((s.handle (e.word 0 % 256)).valid && (s.handle (e.word 0 % 256)).mem == memWm)]))
        e [] (s.tookTurn src) →
      Gives (.weightUnload src) s (fun t => Decides s t [e.answer s stOk 0 (p.emptyHandle (s.handle (e.word 0 % 256))).1] ∧
        (∀ c < 72, s.coreSt c ≠ 2 → ((t.core c).handle c (e.word 0 % 256)).valid = false) ∧
        (∀ q ∈ t.preds, q.handles.contains (e.word 0 % 256) = true → q.off = false ∧ q.inactive = 0)))

/-- DMA_COPY, DMA_FILL, PAGE_XFER, WEIGHT_LOAD. -/
def Obligations.TransferCommandsStart : Prop :=
  ∀ (s : State) (src : Src) (e : Entry),
    let eng := (s.segEngine + 1) % 32
    let dealt (i : Instr) (unit total pieces kind from' dst len : Nat) : Prop :=
      (1 ≤ pieces → pieces ≤ 256 → s.backlog = [] → (s.ringOf eng).length < 16 →
        Gives i s (fun t => Decides s t [e.accepted s unit total] ∧ ∃ g, t.ringOf eng = s.ringOf eng ++ [g] ∧ g.cmd = s.freshCmd ∧
          g.kind = kind ∧ g.src = from' ∧ g.dst = dst ∧ g.len = len ∧ g.first = 0 ∧ g.count = pieces ∧ g.done = 0)) ∧
      (1 ≤ pieces → 16 ≤ (s.ringOf eng).length →
        Gives i s (fun t => Decides s t [e.accepted s unit total] ∧ t.rings = s.rings ∧ ∃ g, t.backlog = s.backlog ++ [g] ∧
          g.cmd = s.freshCmd ∧ g.kind = kind ∧ g.src = from' ∧ g.dst = dst ∧ g.len = len ∧ g.first = 0 ∧ g.count = pieces)) ∧
      (pieces = 0 → Gives i s (fun t => Decides s t [e.accepted s unit total, e.final s stOk 0 0] ∧ t.rings = s.rings))
    (Accepts s src 0x13 (fields copyChecks) e [] (s.tookTurn src) →
      let z := (convOf (e.word 3)).pieces (e.word 2) (e.word 6 % 2 ^ 24)
      dealt (.dmaCopy src) unitBytes z.2 z.1 0 (e.word 0) (e.word 1) (e.word 2)) ∧
    (Accepts s src 0x14 (fields fillChecks) e [] (s.tookTurn src) →
      dealt (.dmaFill src) unitBytes (e.word 1) (ceilDiv (e.word 1) 4096) 1 0 (e.word 0) (e.word 1)) ∧
    (Accepts s src 0x15 (fields pageChecks) e [] (s.tookTurn src) →
      let n := e.word 2 % 2 ^ 32
      let out := (e.word 2).testBit 63
      dealt (.pageXfer src) unitPages n n (if out then 3 else 2) (if out then e.word 1 else e.word 0)
        (if out then e.word 0 else e.word 1) (4096 * n)) ∧
    (∀ d u bs v es y x, Accepts s src 0x20 weightChecks e d u →
      let p := u.popHead src
      let n := e.word 1 % 256
      let hw := p.handle (Desc.hnd d 2)
      let hr := p.handle (Desc.hnd d 3)
      hw.mem ≠ memRemote → hr.mem ≠ memRemote → p.sourceWaits [hw, hr] = false → p.readBounds (d.drop 0x100) = .ok bs v →
      v.readEntries src d = .ok es y →
      let l := y.sizedLayer d 0 bs es
      let r := y.start { e with checked := true, copy := d } unitPages (y.weightTotal l)
      let z := r.2.modCmd r.1 (fun x => { x with uses := y.withNext [Desc.hnd d 2, Desc.hnd d 3, n] })
      r.2.shapeBad d l.m l.n l.k l.cores (y.dealsOf l) = none → y.loadWaits (y.handle n) l = none →
      z.placeAll (z.handle n) l ⟨hw, none, hr, none⟩ = (stOk, x) →
      Gives (.weightLoad src) s (fun t =>
        Decides y t [e.accepted y unitPages (y.weightTotal l), e.final y stOk 0 x.1.length] ∧
        (∃ w ∈ t.wloads, w.handle = n ∧ w.desc = d ∧ w.pages = x.1) ∧
        (∀ c < 72, t.coreSt c ≠ 2 → ((t.core c).handle c n).resident = true)))

/-- LAYER_RUN, LAYER_CHAIN, TILE_RUN. -/
def Obligations.LayerCommandsStart : Prop :=
  ∀ (s : State) (src : Src) (e : Entry),
    (∀ d u bs v, Accepts s src 0x30 layerChecks e d u →
      let p := u.popHead src
      p.readBounds (d.drop 0x100) = .ok bs v →
      let total := p.layerTotal (p.peekLayer src d)
      let r := p.start { e with checked := true, copy := d } unitPercent total
      (∀ x, r.2.layerBegin r.1 d 0 = .runs x → Gives (.layerRun src) s (fun t => Decides u t [e.accepted u unitPercent total])) ∧
      (∀ st det x, r.2.layerBegin r.1 d 0 = .ended st det x → Gives (.layerRun src) s (fun t => t.disp = x.disp ∧
        Decides u t [e.accepted u unitPercent total, e.final u st det 0])) ∧
      (v = p → Desc.plist d = false →
        let l := p.sizedLayer d 0 bs ([], false)
        p.shapeBad d l.m l.n l.k l.cores (p.dealsOf l) = none → (l.desc.prec.s24 = true → l.k % 4 = 0) →
        p.fallbackBad d l.m l.n = none → (∀ i < 16, ∃ x, boundSrc (entryNat (d.drop 0x100) (8 * i) 8) = .value x) →
        (l.m = 0 ∨ l.n = 0 → Gives (.layerRun src) s (fun t => t.disp = u.disp ∧
          Decides u t [e.accepted u unitPercent total, e.final u stOk 0 0])) ∧
        ((p.dealsOf l).all (·.isEmpty) = false → Gives (.layerRun src) s (fun t =>
          Tab.get (fun _ => none) t.lastLayer (srcRank src) = some (p.precField d, u.freshCmd, decide (Desc.clip d < 4096)))))) ∧
    (∀ c u, Accepts s src 0x31 chainChecks e c u →
      Gives (.layerChain src) s (fun t => ∃ total, Decides u t [e.accepted u unitPercent total])) ∧
    (∀ pb u, Accepts s src 0x32 tileChecks e pb u → (e.word 1).testBit 29 = false →
      let n := e.word 1 % 2 ^ 13
      let cores := (List.range 64).filter (e.word 2).testBit
      (cores = [] → Gives (.tileRun src) s (fun t => Decides u t [e.accepted u unitPercent 0, e.final u stOk 0 0])) ∧
      (cores ≠ [] → Gives (.tileRun src) s (fun t => Decides u t [e.accepted u unitPercent cores.length] ∧
        (∀ i ∈ cores, ∀ c, u.physOf i = some c → (u.core c).loaded = false → (u.core c).doorbell = none →
          (∀ d ∈ u.disp, d.logical ≠ i ∨ d.st ≠ 0) →
          (t.core c).doorbell = some (u.freshCmd, none) ∧ (t.core c).fld c CORE_SEQ_ENTRY 12 0 = e.word 1 / 2 ^ 16 % 2 ^ 13 ∧
          (∀ j < n, (t.core c).imemAt j = BitVec.ofNat 64 (entryNat pb (8 * j) 8))))))

/-- The events of execution-class commands. -/
def Obligations.LayerEvents : Prop :=
  ∀ (s : State),
    (∀ i c id v, s.doorbells[i]? = some (.signal c (some id) v) →
      Gives (.completionDoorbell i) s (fun t => t.doorbells = s.doorbells.eraseIdx i ∧
        t.cmds = s.cmds.map (fun x => if x.id = id then { x with sum := x.sum + v } else x))) ∧
    (∀ i a l w, s.doorbells[i]? = some (.list a) → (∀ x ∈ s.cmds, x.ended = true ∨ x.closing = true) → s.list l = some w → w.addr = a →
      w.dev = none →
      Gives (.completionDoorbell i) s (fun t => t.doorbells = s.doorbells.eraseIdx i ∧ t.list l = some { w with done := true })) ∧
    (∀ c id x d r tm, s.completes = [⟨c, some id, stOk, r, tm⟩] → s.disp = [d] → d.cmd = id → d.phys = c → d.st = 1 → s.cmd id = some x →
      x.op = 0x32 → x.layer = none → x.ended = false → x.closing = false → x.stopped = false → x.status = stOk → x.lists = [] → x.acks = 0 →
      Gives (.dispatchComplete 0) s (fun t => t.completes = [] ∧ ∃ p, Decides s t [p] ∧ p.src = x.src ∧ p.id = some id ∧ p.status = stOk ∧
        p.tag = x.tag ∧ p.result = x.sum % 2 ^ 32)) ∧
    (∀ c id x d r st tm, s.completes = [⟨c, some id, st, r, tm⟩] → st ≠ stOk → st ≠ stRangeMissFinal → s.disp = [d] → d.cmd = id →
      d.phys = c → d.st = 1 → s.cmd id = some x → x.op = 0x32 → x.layer = none → x.ended = false → x.closing = false →
      x.stopped = false → x.status = stOk → x.failed = none → x.acks = 0 → (∀ f ∈ s.fenceDue, f.1 ≠ c) →
      ({ s with completes := [] } : State).restage x d st (s.core c) = none →
      Gives (.dispatchComplete 0) s (fun t => t.completes = [] ∧ ∃ p, Decides s t [p] ∧ p.src = x.src ∧ p.id = some id ∧ p.status = st ∧
        p.tag = x.tag)) ∧
    (∀ c d, s.disp = [d] → d.logical = s.logicalOf c → d.held.isSome = true → d.st = 0 → s.coreSt c = 0 →
      s.physOf (s.logicalOf c) = some c → (s.core c).loaded = false → (s.core c).doorbell = none → (s.core c).retired = true →
      (s.core c).settled = true → (((s.cmd d.cmd).bind (·.layer)).map s.windowDue).getD false = false →
      Gives (.formatBarrierRelease c) s (fun t => t.disp = [{ d with held := none, st := 1, phys := c }] ∧
        (t.core c).doorbell = some (d.cmd, d.ticket))) ∧
    (∀ id x l, s.cmd id = some x → x.layer = some l → x.op = 0x30 → x.ended = false → x.closing = false → x.stopped = false →
      isError x.status = false → s.dispatching id = false →
      (l.reruns = true → Gives (.layerRerun id) s (fun t => ∃ y k, t.cmd id = some y ∧ y.layer = some k ∧ k.rerun = true ∧
        k.obits = l.desc.fbObits ∧ y.raised.testBit 0 = true)) ∧
      (∀ r rest items st y a z, l.desc.routed = true → l.predicting = false → l.todo = r :: rest →
        State.readItems l ((List.range r.ml).map (r.item + ·)) s = .ok (items, st) y → y.stageBatch id l r = .ok a z →
        Gives (.routedRound id) s (fun t => ∃ y k, t.cmd id = some y ∧ y.layer = some k ∧ k.batch = l.batch + 1 ∧
          (k.todo = rest ∨ k.todo = []))) ∧
      (l.predicting = true → Gives (.predSkipMapRead id) s (fun t => ∃ y k, t.cmd id = some y ∧ y.layer = some k ∧
        k.predicting = false ∧ k.plan = ((s.inactiveBlocks id l).zip (List.range (s.inactiveBlocks id l).length)).map
          (fun p => (p.1, p.2 % 2 ^ l.desc.at' 0x0B8 1 == 2 ^ l.desc.at' 0x0B8 1 - 1))))) ∧
    (∀ id x l t0 rest a u, s.cmd id = some x → x.layer = some l → x.op = 0x30 → x.ended = false → x.closing = false →
      x.stopped = false → isError x.status = false → l.desc.routed = false → l.predicting = false → l.reruns = false →
      l.todo = t0 :: rest → s.stageBatch id l t0 = .ok a u →
      Gives (.ledgeTileStage id) s (fun t => ∃ y k, t.cmd id = some y ∧ y.layer = some k ∧ k.batch = l.batch + 1 ∧ k.todo = rest)) ∧
    (∀ layer p, s.preds.find? (fun p => p.layer == layer) = some p → 1024 ≤ p.inactive → (∀ x ∈ s.cmds, x.chain = []) →
      let off := decide (p.limit < p.misses * 2 ^ p.shift) && decide (p.limit < 1024)
      Gives (.predWindowClose layer) s (fun t => t.preds = s.preds.map (fun q => if q.layer = layer then
          PredState.pour q.queue { q with inactive := q.inactive - 1024, misses := 0, off := q.off || off } else q) ∧
        (off = true → ∀ x ∈ s.cmds, ∀ l, x.layer = some l → l.desc.pred = true → l.desc.layerId = layer → x.ended = false →
          ∃ y ∈ t.cmds, y.id = x.id ∧ y.raised.testBit 5 = true)))

/-- FABRIC_DISCOVER, ROPE_JOIN, ROPE_LEAVE, PORT_RESET, ROW_REPAIR. -/
def Obligations.FabricAndRepairCommands : Prop :=
  ∀ (s : State) (src : Src) (e : Entry),
    (Accepts s src 0x50 noFields e [] (s.tookTurn src) →
      Gives (.fabricDiscover src) s (fun t => t.fld FAB_DISC 31 20 = (s.fld FAB_DISC 31 20 + 1) % 4096 ∧ t.fld FAB_DISC 17 16 = 1 ∧
        t.wave.cand = s.serialNo ∧ t.wave.root = false ∧ t.wave.requireId = (e.word 0).testBit 1 ∧
        Decides s t [e.accepted s unitDevices (e.word 1 % 2 ^ 14)])) ∧
    (∀ b u, Accepts s src 0x52 ropeJoinChecks e b u →
      let l := (List.range (b.length / 2)).map (fun i => leNat ((b.drop (2 * i)).take 2))
      ((u.isMember = true ∨ u.joining = true) → Gives (.ropeJoin src) s (fun t => Decides u t [e.answer u stRopeRefused 0 0])) ∧
      (u.isMember = false → u.joining = false → lowestId l ≠ u.devId →
        Gives (.ropeJoin src) s (fun t => t.rope.joinAt = some u.now ∧ t.rope.list = l ∧ t.ropeList = l ∧
          t.reg PWR_ROPE_STAT = BitVec.ofNat 32 (e.word 0 % 2 ^ 16) ∧
          Decides u t [e.accepted u unitDevices l.length]))) ∧
    (Accepts s src 0x53 noFields e [] (s.tookTurn src) → s.ropeId = e.word 0 % 2 ^ 16 → s.isMember = true → s.joining = false →
      Gives (.ropeLeave src) s (fun t => t.reg PWR_ROPE_STAT = 0 ∧ Decides s t [e.answer s stOk 0 0])) ∧
    (Accepts s src 0x54 noFields e [] (s.tookTurn src) →
      let p := e.word 0 % 32
      ((s.reg (PORT_CTRL p)).getLsbD 0 = true →
        Gives (.portReset src) s (fun t => t.portSt p = pTraining ∧ (t.port p).retry = [] ∧ (t.port p).degraded = false ∧
          (t.port p).failedId = false ∧ (t.port p).badAssign = false ∧ (t.port p).trained = false)) ∧
      ((s.reg (PORT_CTRL p)).getLsbD 0 = false →
        Gives (.portReset src) s (fun t => t.portSt p = s.portSt p ∧ (t.port p).retry = [] ∧
          Decides s t [e.final s stOk 0 (s.portSt p)]))) ∧
    (∀ ck, ck = fields (fun e s => [okField 0 0 (e.word 0 % 4 != 3), okField 0 2 (match e.word 0 % 4 with
        | 1 => decide (e.word 0 / 4 % 128 < 72) && s.coreSt (e.word 0 / 4 % 128) == 0
        | 2 => decide (e.word 0 / 4 % 128 < 2)
        | _ => true)]) → Accepts s src 0x61 ck e [] (s.tookTurn src) → (∀ x ∈ s.cmds, x.op ≠ 0x61 ∨ x.ended = true) →
      let c := e.word 0 / 4 % 128
      (∀ r, e.word 0 % 4 = 1 → (s.core c).quiet = true → (s.core c).repairs = [r] →
        ((s.core c).repairsIn r.kind r.place < fusedSpares r.kind ∧ s.fieldRepairs < 1024 →
          Gives (.rowRepair src) s (fun t => (t.core c).repairs = [] ∧ (t.core c).repaired = (s.core c).repaired ++ [r] ∧
            t.fieldRepairs = s.fieldRepairs + 1 ∧ Decides s t [e.accepted s unitPercent 1, e.final s stOk 0 1])) ∧
        (¬ ((s.core c).repairsIn r.kind r.place < fusedSpares r.kind ∧ s.fieldRepairs < 1024) →
          Gives (.rowRepair src) s (fun t => t.core c = s.core c ∧ Decides s t [e.accepted s unitPercent 1, e.final s stOk 0 0]))) ∧
      (e.word 0 % 4 = 2 → (∀ i < 36, (s.core (c * 36 + i)).loaded = false) → s.fld (MEM_LDG_STAT c) 3 0 ≠ 0 → s.fieldRepairs < 1024 →
        s.ledgeErr = [] →
        let due := s.bankDue c (e.word 0 / 2 ^ 9 % 32)
        Gives (.rowRepair src) s (fun t => t.fld (MEM_LDG_STAT c) 3 0 = s.fld (MEM_LDG_STAT c) 3 0 - due.toNat ∧
          t.fld (MEM_LDG_STAT c) 12 8 = (if due then e.word 0 / 2 ^ 9 % 32 else s.fld (MEM_LDG_STAT c) 12 8) ∧ t.dmem = s.dmem ∧
          Decides s t [e.accepted s unitPercent 1, e.final s stOk 0 due.toNat])))

/-! ## Private pairs and agents outside -/

/-- GLB_BMC_SUBMIT, GLB_BMC_POP, USB_REGISTER_READ, USB_REGISTER_WRITE, USB_SUBMIT, USB_COMPLETION_ACK. -/
def Obligations.PrivatePairs : Prop :=
  ∀ (s : State) (req : List Byte),
    let answered (st : Nat) (data : List Byte) : List Byte := usbMessage (reqType req + 0x80) (reqCount req) (reqSeq req) st data
    (Writes s .bmc GLB_BMC_CTRL 1 1 →
      (s.bmcSq.length < 15 → Gives (.glbBmcSubmit .bmc) s (fun t => t.bmcSq = s.bmcSq ++ [s.regBytes ((List.range 16).map GLB_BMC_SQE)] ∧
        t.fld GLB_BMC_STAT 0 0 = 0 ∧ t.bmcCq = s.bmcCq)) ∧
      (15 ≤ s.bmcSq.length → Gives (.glbBmcSubmit .bmc) s (fun t => t.bmcSq = s.bmcSq ∧ t.fld GLB_BMC_STAT 0 0 = 1))) ∧
    (Writes s .bmc GLB_BMC_CTRL 2 2 → Gives (.glbBmcPop .bmc) s (fun t => t.bmcCq = s.bmcCq.drop 1 ∧ t.bmcSq = s.bmcSq)) ∧
    (∀ a, a ≠ .bmc → s.pathOpen a = true → Gives (.glbBmcSubmit a) s (fun t => t.bmcSq = s.bmcSq ∧ Counted s t 3) ∧
      Gives (.glbBmcPop a) s (fun t => t.bmcCq = s.bmcCq ∧ Counted s t 3)) ∧
    (s.usbOpen = true →
      (reqType req = 1 → reqOk req = true → Gives (.usbRegisterRead req) s (fun t => t.dmem = s.dmem ∧
        t.usbOut = s.usbOut ++ [answered stOk (s.usbReads (reqOffset req) (reqCount req)).1])) ∧
      (reqType req = 1 → reqOk req = false → Gives (.usbRegisterRead req) s (fun t => t.regs = s.regs ∧
        t.usbOut = s.usbOut ++ [answered stBadField []])) ∧
      (reqType req = 2 → reqOk req = true → reqCount req = 1 →
        let u := s.writeReg .usb (reqOffset req) (BitVec.ofNat 32 (entryNat req 16 4))
        Gives (.usbRegisterWrite req) s (fun t => t.regs = u.regs ∧ t.cores = u.cores ∧ t.usbOut = u.usbOut ++ [answered stOk []])) ∧
      (reqType req = 3 → reqOk req = true →
        (s.usbSq.length < 15 → Gives (.usbSubmit req) s (fun t => t.usbSq = s.usbSq ++ [req.drop 16] ∧
          t.usbOut = s.usbOut ++ [answered stOk []])) ∧
        (15 ≤ s.usbSq.length → Gives (.usbSubmit req) s (fun t => t.usbSq = s.usbSq ∧ t.usbOut = s.usbOut ++ [answered stNoResource []])))) ∧
    exec .usbCompletionAck s = .next { s with usbCq := s.usbCq.drop 1 }

/-- The mailbox. -/
def Obligations.MailboxChannels : Prop :=
  ∀ (s : State) (a : Agent) (ch : Nat) (v u : W32), ch < 10 → agentNo a < 16 →
    (s.reads a (MBX_LOCK ch) = true →
      (s.mbxSt ch = mbxFree → Gives (.mbxLockRead a ch) s (fun t => t.mbxSt ch = mbxLocked ∧ t.mbxOwner ch = agentNo a ∧
        Tab.get (fun _ => 0) t.readData (agentCode a) = 0)) ∧
      (s.mbxSt ch ≠ mbxFree → Gives (.mbxLockRead a ch) s (fun t => t.regs = s.regs ∧
        Tab.get (fun _ => 0) t.readData (agentCode a) = BitVec.ofNat 32 (s.mbxOwner ch)))) ∧
    (Writes s a (MBX_LOCK ch) 0 0 →
      (s.mbxOwner ch = agentNo a → Gives (.mbxLockRelease a ch) s (fun t => t.mbxSt ch = mbxFree ∧ t.mbxOwner ch = 0)) ∧
      (s.mbxOwner ch ≠ agentNo a → Gives (.mbxLockRelease a ch) s (fun t => t.reg (MBX_STAT ch) = s.reg (MBX_STAT ch) ∧ Counted s t 2))) ∧
    (∀ i < 16, Writes s a (MBX_DATA ch i) v u →
      let mine : Prop := ((s.mbxSt ch = mbxLocked ∨ s.mbxSt ch = mbxAcked) ∧ s.mbxOwner ch = agentNo a) ∨
        (s.mbxSt ch = mbxSent ∧ s.mbxDest ch = agentNo a)
      (mine → exec (.mbxDataWrite a ch i v) s = .next (s.setReg (MBX_DATA ch i) u)) ∧
      (¬ mine → ¬ (s.mbxSt ch = mbxTimedOut ∧ s.mbxDest ch = agentNo a) →
        Gives (.mbxDataWrite a ch i v) s (fun t => t.reg (MBX_DATA ch i) = s.reg (MBX_DATA ch i) ∧ Counted s t 6))) ∧
    (Writes s a (MBX_SEND ch) v u →
      let dest := regField u 19 16
      let len := regField u 6 0
      let op := entryNat (s.mbxBytes ch) 0 1
      (s.mbxSt ch = mbxLocked → s.mbxOwner ch = agentNo a →
        (1 ≤ dest → dest ≤ 9 → 1 ≤ len → len ≤ 64 → (ch < 8 ∨ dest = 7) →
          (s.mbxDead dest = false → (ch < 8 ∨ op ∈ secureOps) → Gives (.mbxSend a ch v) s (fun t => t.mbxSt ch = mbxSent ∧
            t.mbxDest ch = dest ∧ t.fld (MBX_STAT ch) 6 0 = len ∧ t.mbxOwner ch = agentNo a)) ∧
          (s.mbxDead dest = false → 8 ≤ ch → op ∉ secureOps → Gives (.mbxSend a ch v) s (fun t => Replied t ch (otherOp op))) ∧
          (s.mbxDead dest = true → Gives (.mbxSend a ch v) s (fun t => t.mbxSt ch = mbxTimedOut))) ∧
        (ch < 8 → ¬ (1 ≤ dest ∧ dest ≤ 9 ∧ 1 ≤ len ∧ len ≤ 64) →
          Gives (.mbxSend a ch v) s (fun t => t.reg (MBX_STAT ch) = s.reg (MBX_STAT ch) ∧ Counted s t 6)) ∧
        (8 ≤ ch → dest ≠ 7 → Gives (.mbxSend a ch v) s (fun t => Replied t ch stBadField ∧ Counted s t 8))) ∧
      ((s.mbxSt ch ≠ mbxLocked ∨ s.mbxOwner ch ≠ agentNo a) →
        Gives (.mbxSend a ch v) s (fun t => t.reg (MBX_STAT ch) = s.reg (MBX_STAT ch) ∧ Counted s t 6))) ∧
    (Writes s a (MBX_ACK ch) v u → s.mbxDest ch = agentNo a →
      (s.mbxSt ch = mbxSent → regField u 6 0 ≤ 64 → Gives (.mbxAck a ch v) s (fun t => Replied t ch (regField u 15 8) ∧
        t.fld (MBX_STAT ch) 6 0 = regField u 6 0)) ∧
      (s.mbxSt ch = mbxTimedOut → Gives (.mbxAck a ch v) s (fun t => t.mbxSt ch = mbxTimedOut ∧ Counted s t 7 ∧
        t.reg (MBX_LATE ch) = satAdd (s.reg (MBX_LATE ch)) 1))) ∧
    (s.mbxSt ch = mbxSent → s.fld (MBX_TMO ch) 15 0 ≠ 0 →
      Gives (.mbxTimeout ch) s (fun t => t.mbxSt ch = mbxTimedOut ∧ t.fld (MBX_STAT ch) 15 8 = stTimeout ∧
        t.now = max s.now (Tab.get (fun _ => 0) s.mbxSince ch + s.fld (MBX_TMO ch) 15 0 * mbxUnit)))

/-- The secure operations. `u` is what reading the request's data leaves. -/
def Obligations.SecureOperations : Prop :=
  ∀ (s u : State) (ch a : Nat) (b : List Byte),
    (Asked s ch 0x01 a → 1 ≤ a → a ≤ 3 → s.secData ch = some (stOk, b, u) →
      (u.imageOk a b = true → Gives (.fwVerify ch) s (fun t => Replied t ch stOk ∧ t.flash = s.flash ∧
        t.reg (MBX_DATA ch 0) = BitVec.ofNat 32 (img b 0x004 1))) ∧
      (u.imageOk a b = false → Gives (.fwVerify ch) s (fun t => Replied t ch stAuthFailed ∧ Counted u t 8))) ∧
    (Asked s ch 0x02 a → (a = 1 ∨ a = 2) → s.secData ch = some (stOk, b, u) →
      (u.imageOk a b = true → Gives (.fwWrite ch) s (fun t => Replied t ch stOk ∧ t.image a (1 - s.activeSlot a) = b ∧
        (∀ i, i ≠ 2 * a + (1 - s.activeSlot a) → Tab.get Config.flashImage t.flash i = Tab.get Config.flashImage s.flash i))) ∧
      (u.imageOk a b = false → Gives (.fwWrite ch) s (fun t => Replied t ch stAuthFailed ∧ t.flash = s.flash))) ∧
    (Asked s ch 0x03 a → (a = 1 ∨ a = 2) →
      (s.imageOk a (s.image a (1 - s.activeSlot a)) = true → Gives (.fwActivate ch) s (fun t => Replied t ch stOk ∧
        t.activeSlot a = 1 - s.activeSlot a ∧ t.flash = s.flash)) ∧
      (s.imageOk a (s.image a (1 - s.activeSlot a)) = false → Gives (.fwActivate ch) s (fun t => Replied t ch stAuthFailed ∧
        t.selector = s.selector))) ∧
    (Asked s ch 0x04 a → (a = 1 ∨ a = 2) →
      Gives (.fwCommit ch) s (fun t => Replied t ch stOk ∧ t.fld SEC_SVN (svnLo a + 7) (svnLo a) =
        max (s.fld SEC_SVN (svnLo a + 7) (svnLo a)) (img (s.activeImage a) 0x004 1))) ∧
    (Asked s ch 0x10 0 → Gives (.keyAttestRotate ch) s (fun t => Replied t ch stOk ∧ t.akGen = s.akGen + 1 ∧ t.fld SEC_STAT 5 5 = 1)) ∧
    (Asked s ch 0x11 a → a < 4 → s.secData ch = some (stOk, b, u) →
      (u.liveSlots.filter (· != a) ≠ [] → [1, 2, 3].any (fun st => !(u.activeImage st).isEmpty && img (u.activeImage st) 0x003 1 == a) = false →
        (Config.revocationOk b a (u.liveSlots.filter (· != a)) = true → Gives (.keyRevoke ch) s (fun t => Replied t ch stOk ∧
          t.fld SEC_KEYSLOT a a = 1)) ∧
        (Config.revocationOk b a (u.liveSlots.filter (· != a)) = false → Gives (.keyRevoke ch) s (fun t => Replied t ch stAuthFailed ∧
          t.reg SEC_KEYSLOT = u.reg SEC_KEYSLOT))) ∧
      (u.liveSlots.filter (· != a) = [] → Gives (.keyRevoke ch) s (fun t => Replied t ch stBadField ∧
        t.reg SEC_KEYSLOT = u.reg SEC_KEYSLOT))) ∧
    (Asked s ch 0x12 0 → s.secData ch = some (stOk, b, u) →
      (Config.sha256 b = u.idHash → Gives (.certWrite ch) s (fun t => Replied t ch stOk ∧ t.certArea = b)) ∧
      (Config.sha256 b ≠ u.idHash → Gives (.certWrite ch) s (fun t => Replied t ch stAuthFailed ∧ t.flash = s.flash)))

/-! ## Memory units and engines -/

/-- SLICE_ATOMIC_OP, SLICE_ROW_FILL, SLICE_IDLE_WRITEBACK, LEDGE_ATOMIC_OP, TSET, for requests of a core. -/
def Obligations.AtomicUnits : Prop :=
  ∀ (s : State) (r : AtomReq) (rest : List AtomReq) (c id : Nat), s.atoms = r :: rest → r.src = .core c id →
    let n := atomBytes r.op r.tw
    let x := atomApply r.op r.sw r.tw (leNat (Mem.read s.dmem r.addr n)) (r.operand % 2 ^ 64) r.compare
    let applied (t : State) : Prop := t.atoms = rest ∧ t.atomResps = s.atomResps ++ [⟨r.src, stOk, x.2⟩] ∧
      t.dmem = Mem.write s.dmem r.addr (leBytes n x.1)
    (∀ sl, s.sliceOf r.addr = some sl → r.addr % n = 0 →
      (∀ e, (s.slice sl).find? (fun y => y.row == r.addr / 64) = some e → (∀ y ∈ s.slice sl, y.row = r.addr / 64 → y.filling = false) →
        Clean s r.addr n → Gives (.sliceAtomicOp sl) s (fun t => applied t ∧
          t.pair MEM_ATOM_OPS_LO MEM_ATOM_OPS_HI = (s.pair MEM_ATOM_OPS_LO MEM_ATOM_OPS_HI + 1) % 2 ^ 64)) ∧
      ((∀ y ∈ s.slice sl, y.row ≠ r.addr / 64) → (s.slice sl).length < 64 →
        Gives (.sliceAtomicOp sl) s (fun t => t.atoms = s.atoms ∧ t.dmem = s.dmem ∧
          t.slice sl = s.slice sl ++ [⟨r.addr / 64, false, true, s.now⟩] ∧ t.reg MEM_ATOM_MISS = satAdd (s.reg MEM_ATOM_MISS) 1))) ∧
    (∀ sl e, (s.slice sl).find? (·.filling) = some e → Clean s (64 * e.row) 64 →
      Gives (.sliceRowFill sl) s (fun t => t.atoms = s.atoms ∧ (∀ y ∈ t.slice sl, y.row = e.row → y.filling = false))) ∧
    (∀ sl row e, (s.slice sl).find? (fun y => y.row == row && y.written && !y.filling) = some e →
      Gives (.sliceIdleWriteback sl row) s (fun t => t.slice sl = (s.slice sl).filter (fun y => y.row != row) ∧
        t.now = max s.now (e.last + hundredMicros) ∧ t.dmem = s.dmem)) ∧
    (∀ die bank, r.op ≠ .tset → s.ledgeBank r.addr = some (die, bank) → r.addr % n = 0 → Clean s r.addr n →
      Gives (.ledgeAtomicOp die bank) s applied) ∧
    (∀ die bank, r.op = .tset → s.ledgeBank (s.tsetByte r) = some (die, bank) → s.ledgeBank r.addr ≠ none → r.addr % 64 = 0 →
      Clean s r.addr 64 → Clean s (s.tsetByte r) 1 →
      let word (o : Nat) : Nat := leNat (Mem.read s.dmem (r.addr + o) 4)
      let bits := (Mem.byte s.dmem (s.tsetByte r)).toNat
      (r.operand < word 4 → bits.testBit (r.operand % 8) = false →
        Gives (.tset die bank) s (fun t => t.atoms = rest ∧ t.atomResps = s.atomResps ++ [⟨r.src, stOk, 0⟩] ∧
          t.dmem = Mem.write (Mem.write s.dmem (s.tsetByte r) [BitVec.ofNat 8 (bits + 2 ^ (r.operand % 8))]) (r.addr + 8)
            (leBytes 4 (word 8 + 1)) ∧
          t.doorbells = s.doorbells ++ (if word 8 + 1 = word 4 then [.list r.addr] else []))) ∧
      (bits.testBit (r.operand % 8) = true →
        Gives (.tset die bank) s (fun t => t.atoms = rest ∧ Counted s t 1 ∧ t.doorbells = s.doorbells ∧
          t.dmem = Mem.write s.dmem (r.addr + 12) (leBytes 4 (word 12 + 1))))) ∧
    (∀ sl e, s.sliceOf r.addr = some sl → (s.slice sl).find? (fun y => y.row == r.addr / 64) = some e →
      (∀ y ∈ s.slice sl, y.row = r.addr / 64 → y.filling = false) → s.rowBad (r.addr / 64) = true →
      (∀ y ∈ rest, y.addr / 64 ≠ r.addr / 64) → Gives (.sliceAtomicOp sl) s (fun t =>
        t.atoms = rest ∧ t.atomResps = s.atomResps ++ [⟨r.src, stUncorrectable, 0⟩] ∧ t.dmem = s.dmem ∧
        t.reg MEM_ATOM_ERR = satAdd (s.reg MEM_ATOM_ERR) 1 ∧ (∀ y ∈ t.slice sl, y.row ≠ r.addr / 64)))

/-- DMA_PIECE, NVME_COMPLETION, NVME_CMD_TIMEOUT, NVME_LINK_DOWN, BAR2_ACCESS. -/
def Obligations.EnginesAndDrivesMove : Prop :=
  ∀ (s : State) (e : Nat),
    (∀ g gs from' to', s.ringOf e = g :: gs → s.pcieUp = true → s.busMaster = true → g.kind = 0 → (convOf g.conv).action = some .copy →
      placeOf (g.src + 4096 * (g.first + g.done)) = .host from' → placeOf (g.dst + 4096 * (g.first + g.done)) = .host to' →
      let n := min 4096 (g.len - 4096 * (g.first + g.done))
      .engine e ∉ s.badWords →
      Gives (.dmaPiece e) s (fun t => t.hmem = Mem.write s.hmem to' (Mem.read s.hmem from' n) ∧ t.dmem = s.dmem ∧
        (s.backlog = [] → t.ringOf e = if g.done + 1 = g.count then gs else { g with done := g.done + 1 } :: gs))) ∧
    (∀ g gs to', s.ringOf e = g :: gs → s.pcieUp = true → s.busMaster = true → g.kind = 1 →
      placeOf (g.dst + 4096 * (g.first + g.done)) = .host to' → .engine e ∉ s.badWords →
      Gives (.dmaPiece e) s (fun t => t.dmem = s.dmem ∧ t.hmem = Mem.write s.hmem to'
        ((List.replicate (min 4096 (g.len - 4096 * (g.first + g.done)) / 8) (leBytes 8 g.srec)).flatten))) ∧
    (∀ d x rest, takeDrive d s.driveCmds = some (x, rest) →
      let at' := s.diskAddr ((x.page - 0x40000000000) / 4096)
      (x.flush = false → rest.any (fun z => z.cmd == x.cmd) = true →
        (∀ t0 y, x.write = false → ({ s with driveCmds := rest } : State).devWrite x.addr (Mem.read s.disks at' 4096) = .ok t0 y →
          (s.addrKind x.addr = .tier1 ∨ s.addrKind x.addr = .tier2) →
          Gives (.nvmeCompletion d true) s (fun t => t.dmem = y.dmem ∧ t.disks = s.disks ∧ t.driveCmds = rest)) ∧
        (∀ bs y, x.write = true → ({ s with driveCmds := rest } : State).devRead x.addr 4096 = .ok bs y →
          (s.addrKind x.addr = .tier1 ∨ s.addrKind x.addr = .tier2) →
          Gives (.nvmeCompletion d true) s (fun t => t.disks = Mem.write s.disks at' bs ∧ t.dmem = s.dmem ∧ t.driveCmds = rest))) ∧
      (Gives (.nvmeCompletion d false) s (fun t => (∀ z ∈ t.driveCmds, z.cmd = x.cmd → z.flush = true) ∧
        t.fld MEM_T3_ERR 15 0 = min (s.fld MEM_T3_ERR 15 0 + 1) 65535 ∧ t.reg MEM_DMA_ERR = satAdd (s.reg MEM_DMA_ERR) 1)) ∧
      (s.fld MEM_T3_TMO 15 0 ≠ 0 → Gives (.nvmeCmdTimeout d) s (fun t => (∀ z ∈ t.driveCmds, z.cmd = x.cmd → z.flush = true) ∧
        t.now = max s.now (x.since + s.fld MEM_T3_TMO 15 0 * msNclk) ∧
        t.fld MEM_T3_ERR 31 16 = min (s.fld MEM_T3_ERR 31 16 + 1) 65535))) ∧
    (∀ d < 4, (s.reg MEM_T3_STAT).getLsbD (8 * d) = true → s.driveFailed d = false →
      Gives (.nvmeLinkDown d) s (fun t => t.driveFailed d = true ∧ (∀ z ∈ t.driveCmds, z.drive ≠ d))) ∧
    (∀ x n (data : List Byte), s.pathOpen .host = true → 4 ≤ s.bootStep →
      let a := s.fld CMDQ_WIN 11 0 * 2 ^ 36 + x
      (s.winOk = false → Gives (.bar2Access x true n data) s (fun t => t.bar2Out = s.bar2Out ++ [(1, [])] ∧ t.dmem = s.dmem)) ∧
      (s.winOk = true → x + data.length ≤ 2 ^ 36 → s.atomFirst a data.length = false → Clean s a data.length →
        Gives (.bar2Access x true n data) s (fun t => t.bar2Out = s.bar2Out ++ [(0, [])] ∧ t.dmem = (s.memWrite a data).2.dmem)) ∧
      (s.winOk = true → x + n ≤ 2 ^ 36 → s.atomFirst a n = false → Clean s a n →
        Gives (.bar2Access x false n data) s (fun t => t.bar2Out = s.bar2Out ++ [(0, Mem.read s.dmem a n)] ∧ t.dmem = s.dmem))) ∧
    (∀ g gs, s.ringOf e = g :: gs → .engine e ∈ s.badWords → g.again = false → s.backlog = [] →
      (s.ringOf ((e + 1) % 32)).length < 16 →
      Gives (.dmaPiece e) s (fun t => t.ringOf e = gs ∧ t.ringOf ((e + 1) % 32) = s.ringOf ((e + 1) % 32) ++ [{ g with again := true }] ∧
        .engine e ∉ t.badWords ∧ t.reg MEM_DMA_ERR = satAdd (s.reg MEM_DMA_ERR) 1))

/-- TEL_CH_CFG_WRITE, TEL_CH_CLR, TEL_SNAP, RAS_VIOL_CLR. -/
def Obligations.MonitorChannels : Prop :=
  ∀ (s : State) (a : Agent) (ch : Nat) (v u : W32), ch < 32 →
    (Writes s a (TEL_CH_CFG ch) v u → u.getLsbD 30 = false →
      let on := (s.reg (TEL_CH_CFG ch)).getLsbD 31
      (on = false → (u.getLsbD 31 = false ∨ s.edgesRise ch = true) →
        exec (.telChCfgWrite a ch v) s = .next (s.setReg (TEL_CH_CFG ch) u)) ∧
      (on = false → u.getLsbD 31 = true → s.edgesRise ch = false →
        Gives (.telChCfgWrite a ch v) s (fun t => t.reg (TEL_CH_CFG ch) = s.reg (TEL_CH_CFG ch) ∧ Counted s t 3)) ∧
      (on = true → u.getLsbD 31 = false → Gives (.telChCfgWrite a ch v) s (fun t =>
        t.reg (TEL_CH_CFG ch) = s.reg (TEL_CH_CFG ch) &&& 0x7FFFFFFF#32))) ∧
    (Writes s a (TEL_CH_CFG ch) 0x40000000#32 0x40000000#32 →
      Gives (.telChClr a ch) s (fun t => t.telAt ch = TelLive.reset ∧ t.regs = s.regs ∧
        (∀ d, d ≠ ch → t.telAt d = s.telAt d))) ∧
    (Writes s a TEL_SNAP v u → u.toNat.testBit ch = true →
      Gives (.telSnap a v) s (fun t => t.telLive = s.telLive ∧
        t.reg (TEL_CH_MIN ch) = BitVec.ofNat 32 (s.telAt ch).min ∧
        t.reg (TEL_CH_MAX ch) = BitVec.ofNat 32 (min (s.telAt ch).max (2 ^ 32 - 1)) ∧
        (∀ i < 16, t.reg (TEL_CH_BIN ch i) = BitVec.ofNat 32 ((s.telAt ch).bins.getD i 0)))) ∧
    (Writes s a RAS_VIOL_CLR v u → ∀ c < 16,
      Gives (.rasViolClr a v) s (fun t => t.pair (RAS_VIOL_LO c) (RAS_VIOL_HI c) =
        if u.toNat.testBit c then 0 else s.pair (RAS_VIOL_LO c) (RAS_VIOL_HI c)))

/-! ## The fabric -/

/-- FRAME_RECEIVE, NAK_RECEIVE, CODEWORD_SIDEBAND, FRAME_FORWARD, VC1_ESCALATE. -/
def Obligations.LinkAndFrames : Prop :=
  ∀ (s : State) (p : Nat) (f : Frame) (ack : Nat),
    let x := s.port p
    let side (q : Nat) (nak : Bool) (b n : Nat) : Nat × Wire := (p, .side ((q + 1023) % 1024) nak b n)
    (s.listening p = true →
      (∀ ok, x.discard = true → f.seq ≠ x.rxSeq → exec (.frameReceive p f ok) s = .next s) ∧
      ((x.discard = false ∨ f.seq = x.rxSeq) → Gives (.frameReceive p f false) s (fun t => (t.port p).discard = true ∧
        t.fabOut = s.fabOut ++ [side x.rxSeq true 0 0] ∧ t.reg (PORT_CRC p) = satAdd (s.reg (PORT_CRC p)) 1 ∧
        t.inbox = s.inbox ∧ t.egress = s.egress)) ∧
      (x.discard = false → f.ty ≠ 0 → f.seq ≠ x.rxSeq → Gives (.frameReceive p f true) s (fun t => (t.port p).discard = true ∧
        t.fabOut = s.fabOut ++ [side x.rxSeq true 0 0] ∧ t.inbox = s.inbox ∧ t.egress = s.egress)) ∧
      (f.ty ≠ 0 → f.seq = x.rxSeq → s.carries p f = true →
        let next := (x.rxSeq + 1) % 1024
        (s.frameBad p f = false → f.ty ≠ 11 → f.dst = s.devId → Gives (.frameReceive p f true) s (fun t =>
          (t.port p).rxSeq = next ∧ (t.port p).discard = false ∧ t.egress = s.egress ∧ t.inbox.take s.inbox.length = s.inbox ∧
          (t.inbox.drop s.inbox.length).map (fun y => (y.port, y.frame)) = f.msgs.map (fun m => (some p, { f with msgs := [m] })) ∧
          t.fabOut = s.fabOut ++ [side next false (frameBuf f) (frameFlits f)])) ∧
        (s.frameBad p f = false → f.ty ≠ 11 → f.dst ≠ s.devId → Gives (.frameReceive p f true) s (fun t =>
          (t.port p).rxSeq = next ∧ t.inbox = s.inbox ∧ t.egress = s.egress ++ [⟨f, some p, none, false, s.now⟩] ∧
          t.pair (PORT_RXB_LO p) (PORT_RXB_HI p) = (s.pair (PORT_RXB_LO p) (PORT_RXB_HI p) + frameBytes f) % 2 ^ 64)) ∧
        (s.frameBad p f = true → Gives (.frameReceive p f true) s (fun t => (t.port p).rxSeq = next ∧ t.inbox = s.inbox ∧
          t.reg (PORT_VIOL p) = satAdd (s.reg (PORT_VIOL p)) 1 ∧ Counted s t 5)))) ∧
    (p < 32 → x.trained = true → .retry p ∉ s.badWords → Gives (.nakReceive p ack) s (fun t => (t.port p).retry = dropAcked ack x.retry ∧
      t.fabOut = s.fabOut ++ (p, .idle) :: (dropAcked ack x.retry).map (fun y => (p, .frame y)) ∧
      t.reg (PORT_RETRY p) = satAdd (s.reg (PORT_RETRY p)) 1)) ∧
    (∀ b n, p < 32 → b < 8 → n < 64 → Gives (.codewordSideband p ack b n) s (fun t =>
      (t.port p).retry = dropAcked ack x.retry ∧ bufCount (t.port p).txUsed b = bufCount x.txUsed b - n ∧
      (∀ c, c ≠ b → bufCount (t.port p).txUsed c = bufCount x.txUsed c) ∧ (∀ q, q ≠ p → t.port q = s.port q) ∧ t.regs = s.regs)) ∧
    (∀ i e, s.egress[i]? = some e →
      (e.out = none → e.frame.dst = s.devId → Gives (.frameForward i) s (fun t => t.egress = s.egress.eraseIdx i ∧
        (t.inbox.drop s.inbox.length).map (·.frame) = e.frame.msgs.map (fun m => { e.frame with msgs := [m] }) ∧ t.fabOut = s.fabOut)) ∧
      ((e.out ≠ none ∨ e.frame.dst ≠ s.devId) →
        (s.hopOf e = none → exec (.frameForward i) s = .next s) ∧
        (∀ vc, s.hopOf e = some (p, vc) → s.outranked i e.frame p = false → x.holds (frameFlits e.frame) = true →
          let g : Frame := { e.frame with vc := vc, hops := e.frame.hops + 1, seq := x.txSeq }
          Gives (.frameForward i) s (fun t => t.egress = s.egress.eraseIdx i ∧ t.inbox = s.inbox ∧
            (t.port p).retry = x.retry ++ [g] ∧ (t.port p).txSeq = (x.txSeq + 1) % 1024 ∧
            (∃ more, t.fabOut = s.fabOut ++ (p, .frame g) :: more) ∧
            bufCount (t.port p).txUsed (frameBuf g) = bufCount x.txUsed (frameBuf g) + frameFlits e.frame))) ∧
      (e.out = none → s.adaptive e.frame = true → e.esc = false → e.frame.vc = 0 → e.frame.dst ≠ s.devId → s.phaseOf = 0 →
        s.hopOf e = none → Gives (.vc1Escalate i) s (fun t => t.egress = s.egress.set i { e with esc := true } ∧
          t.now = max s.now (e.since + 64) ∧ t.inbox = s.inbox))) ∧
    (p < 32 → x.trained = true → .retry p ∈ s.badWords → dropAcked ack x.retry ≠ [] →
      Gives (.nakReceive p ack) s (fun t => (t.port p).retry = [] ∧ t.portSt p = pDegraded ∧
        t.reg (PORT_RETRY p) = satAdd (s.reg (PORT_RETRY p)) 1))

/-- WRITE, WRITE_P, READ, ATOMIC, READ_RESP, ATOMIC_RESP, WACK, QSUBMIT, QACK, CQDB, REMOTE_TIMEOUT. -/
def Obligations.MessagesAtTargetAndIssuer : Prop :=
  ∀ (s : State) (i : Nat) (a : Arrived) (m : Msg), s.inbox[i]? = some a → a.frame.msgs = [m] →
    let ty := a.frame.ty
    let addr := 64 * m.row
    let n := 64 * (m.len + 1)
    let tag := m.aux % 1024
    let q := m.row % 64
    let answers (ty row len aux : Nat) (data : List Byte) (t : State) : Prop := t.inbox = s.inbox.erase a ∧ t.egress = s.egress ++
      [⟨⟨ty, a.frame.tc, 0, s.devId, a.frame.src, a.frame.issuer, 0, 0, [⟨row, len, aux, data⟩]⟩, none, none, false, s.now⟩]
    let tier : Prop := (s.addrKind addr = .tier1 ∨ s.addrKind addr = .tier2) ∧ s.dev ≠ devFaulted
    let late (t : State) : Prop := t.inbox = s.inbox.erase a ∧ t.remoteReqs = s.remoteReqs ∧
      t.reg FAB_LATE = satAdd (s.reg FAB_LATE) 1 ∧ Counted s t 12
    (ty = 1 → tier → s.inRegion addr n = true → m.payload.length = n → m.aux.testBit 10 = false → m.aux.testBit 9 = false →
      s.atomFirst addr n = false → Clean s addr n → Gives (.writeMsg i) s (fun t => answers 7 1 0 0 [] t ∧ Mem.read t.dmem addr n = m.payload ∧
        (∀ b, b < addr ∨ addr + n ≤ b → Mem.byte t.dmem b = Mem.byte s.dmem b))) ∧
    (ty = 2 → tier → s.inRegion addr 64 = true → m.payload.length = 72 → m.len = 0 → m.aux.testBit 10 = false → m.aux.testBit 9 = false →
      s.atomFirst addr 64 = false → Clean s addr 64 → Gives (.writeP i) s (fun t => answers 7 1 0 0 [] t ∧
        (∀ b, Mem.byte t.dmem b = if addr ≤ b ∧ b < addr + 64 ∧ (leNat (m.payload.drop 64)).testBit (b - addr) = true then
          m.payload.getD (b - addr) 0 else Mem.byte s.dmem b))) ∧
    (ty = 3 → s.inRegion addr n = true → m.aux.testBit 10 = false → s.dev ≠ devFaulted →
      (tier → s.atomFirst addr n = false → Clean s addr n → Gives (.readMsg i) s (fun t => answers 4 stOk m.len tag (Mem.read s.dmem addr n) t ∧ t.dmem = s.dmem)) ∧
      (∀ c k o x, s.addrKind addr = .spm c k o →
        s.meshOut.find? (fun y => y.issuer == a.frame.issuer && y.device == a.frame.src && y.reqTag == tag) = some x →
        Gives (.readMsg i) s (fun t => answers 4 x.status m.len tag (if x.status = stOk then x.data else []) t ∧
          t.meshOut = s.meshOut.erase x))) ∧
    (ty = 5 → s.dev ≠ devFaulted →
      let w := entryNat m.payload 0 8
      (∀ op, atomOp (bitsOf w 51 48) = some op → m.payload.length = 24 → w < 2 ^ 54 → s.atomTargetOk (bitsOf w 47 0) op (w.testBit 53) = true →
        Gives (.atomic i) s (fun t => t.inbox = s.inbox.erase a ∧ t.egress = s.egress ∧ t.atoms = s.withAtom
          ⟨bitsOf w 47 0, op, w.testBit 52, w.testBit 53, entryNat m.payload 8 8, entryNat m.payload 16 8,
            .fabric (a.port.getD 0) a.frame, s.now⟩)) ∧
      (atomOp (bitsOf w 51 48) = none → Gives (.atomic i) s (fun t => t.atoms = s.atoms ∧
        answers 6 stBadField 0 tag (atomResponse stBadField 0) t))) ∧
    (∀ r, s.askedBy a 3 tag = some r → (∀ y ∈ s.remoteReqs, y.issuer = r.issuer → y.tag ≠ none ∨ tagged y.ty = false) →
      ∀ c, r.src = .load c → ty = 4 → m.row % 256 = stOk → Gives (.readResp i) s (fun t =>
        t.inbox = s.inbox.erase a ∧ t.remoteReqs = s.remoteReqs.erase r ∧ t.fld FAB_TAGS 15 0 = s.fld FAB_TAGS 15 0 - 1 ∧
        (t.core c).remoteIn = Mem.write (s.core c).remoteIn (r.dev * 2 ^ 48 + 64 * r.msg.row) m.payload)) ∧
    (∀ r, s.askedBy a 5 tag = some r → ∀ src, r.src = .atom src → ty = 6 → Gives (.atomicResp i) s (fun t =>
      t.inbox = s.inbox.erase a ∧ t.atomResps = s.atomResps ++ [⟨src, m.row % 256, entryNat m.payload 8 8⟩])) ∧
    (∀ r, s.askedBy a 8 tag = some r → (∀ y ∈ s.remoteReqs, y.issuer = r.issuer → y.tag ≠ none ∨ tagged y.ty = false) →
      ty = 9 → Gives (.qack i) s (fun t => t.inbox = s.inbox.erase a ∧ t.remoteReqs = s.remoteReqs.erase r)) ∧
    (s.askedBy a 3 tag = none → ty = 4 → Gives (.readResp i) s late) ∧
    (s.askedBy a 5 tag = none → ty = 6 → Gives (.atomicResp i) s late) ∧
    (s.askedBy a 8 tag = none → ty = 9 → Gives (.qack i) s late) ∧
    (ty = 7 →
      (∀ r c id, s.oldWrites a.frame.issuer a.frame.src (m.row % 2 ^ 16) = [r] → r.tag = none → r.src = .store c id →
        m.row / 2 ^ 16 % 256 = stOk → Gives (.wack i) s (fun t => t.inbox = s.inbox.erase a ∧
          t.remoteReqs = s.remoteReqs.erase r ∧ t.core c = (s.outstDone c id).core c)) ∧
      (s.oldWrites a.frame.issuer a.frame.src (m.row % 2 ^ 16) = [] → Gives (.wack i) s late)) ∧
    (ty = 8 → s.dev ≠ devFaulted → m.payload.length = 64 →
      let e := s.sqBase q % 2 ^ 48 + 64 * s.sqTail q
      (s.qsubmitReason q a.frame.src = 0 → s.atomFirst e 64 = false → Clean s e 64 → Gives (.qsubmit i) s (fun t => answers 9 0 0 tag [] t ∧
        Mem.read t.dmem e 64 = m.payload ∧ t.reg (CMDQ_SQDB q) = BitVec.ofNat 32 ((s.sqTail q + 1) % s.sqSize q) ∧
        (∀ b, b < e ∨ e + 64 ≤ b → Mem.byte t.dmem b = Mem.byte s.dmem b))) ∧
      (∀ r, s.qsubmitReason q a.frame.src = r → r ≠ 0 → Gives (.qsubmit i) s (fun t => answers 9 r 0 tag [] t ∧ t.dmem = s.dmem ∧
        t.reg (CMDQ_SQDB q) = s.reg (CMDQ_SQDB q) ∧ (r ≠ 4 → Counted s t 5)))) ∧
    (ty = 10 → s.dev ≠ devFaulted → s.qState q = qActive → s.qRemote q = true → s.fld (CMDQ_Q_PEER q) 13 0 = a.frame.src →
      s.cqAccepts q (m.row / 64 % 4096) = true → Gives (.cqdb i) s (fun t => answers 7 1 0 0 [] t ∧
        t.reg (CMDQ_CQDB q) = BitVec.ofNat 32 (m.row / 64 % 4096))) ∧
    (∀ j r src, s.remoteReqs[j]? = some r → r.src = .atom src → s.fld FAB_RTMO 15 0 ≠ 0 →
      ((tagged r.ty = true → r.tag ≠ none) → Gives (.remoteTimeout j) s (fun t =>
        t.now = max s.now (r.since + s.fld FAB_RTMO 15 0 * usNclk) ∧ t.reg FAB_UNREACH = satAdd (s.reg FAB_UNREACH) 1 ∧
        t.atomResps = s.atomResps ++ [⟨src, stFabricUnreachable, 0⟩])) ∧
      (tagged r.ty = true → r.tag = none → exec (.remoteTimeout j) s = .next s))

/-- PORT_TRAINED, PORT_SIGNAL_LOSS, PORT_SIGNAL_RETURN, HELLO, HELLO_SEND, HELLO_TIMEOUT, LANE_SPARE, PORT_RETRAIN,
PORT_CTRL_WRITE, LINK_DOWN, LINK_UP. -/
def Obligations.PortsTrainAndHello : Prop :=
  ∀ (s : State) (p : Nat), p < 32 →
    let x := s.port p
    let st := s.portSt p
    (st = pTraining → x.trained = false →
      (∀ bad : List Nat, ((List.range 5).filter bad.contains).length < 2 → .retry p ∉ s.badWords →
        Gives (.portTrained p bad) s (fun t => (t.port p).trained = true ∧ (t.port p).discard = false ∧ (t.port p).heard = s.now ∧
          t.portSt p = pTraining ∧ t.fabOut = s.fabOut ++ x.retry.map (fun y => (p, .frame y)) ∧
          ((∀ l < 5, l ∉ bad) → t.fld (PORT_STAT p) 6 4 = 0) ∧ (∀ l < 4, l ∈ bad → t.fld (PORT_STAT p) 6 4 = l + 1) ∧
          (4 ∈ bad → t.fld (PORT_STAT p) 6 4 = 7))) ∧
      (∀ bad : List Nat, 2 ≤ ((List.range 5).filter bad.contains).length →
        Gives (.portTrained p bad) s (fun t => t.portSt p = pDegraded ∧ (t.port p).retry = []))) ∧
    (st ≠ pDisabled → st ≠ pDown → st ≠ pDegraded → Gives (.portSignalLoss p) s (fun t => t.portSt p = pDown ∧
      (t.port p).trained = false ∧ (t.port p).retry = x.retry)) ∧
    ((st = pDown ∨ st = pLost) → Gives (.portSignalReturn p) s (fun t => t.portSt p = pTraining ∧ (t.port p).trained = false)) ∧
    (s.listening p = true →
      (∀ h : HelloRec, h.devid < 2 ^ 14 →
        (h.port < 32 → wiredRight p h = false → Gives (.hello p h) s (fun t => t.portSt p = pMiswired ∧ t.fld (PORT_STAT p) 12 8 = h.port)) ∧
        (wiredRight p h = true → h.valid = true → x.badAssign = false → st ≠ pIdCheck → st ≠ pQuarantine → x.failedId = false →
          ((x.recorded = false ∨ h.certHash = s.peerHash p) → (s.phaseOf = 0 ∨ s.wave.requireId = false ∨ x.passed = true) →
            Gives (.hello p h) s (fun t => t.portSt p = pUp ∧ (t.port p).heard = s.now ∧ (t.port p).hello = some h ∧
              t.fld (PORT_STAT p) 29 16 = h.devid ∧ t.fld (PORT_STAT p) 13 13 = 1)) ∧
          (x.recorded = true → h.certHash ≠ s.peerHash p → Gives (.hello p h) s (fun t => t.portSt p = pQuarantine))) ∧
        (wiredRight p h = true → s.phaseOf = 1 → h.inWave = true → h.epoch = s.fld FAB_DISC 31 20 → s.wave.beats h = true →
          Gives (.hello p h) s (fun t => t.wave.candHost = h.candHost ∧ t.wave.cand = h.cand.toNat ∧ t.wave.since = s.now))) ∧
      (st ≠ pLost → Gives (.helloTimeout p) s (fun t => t.portSt p = pLost ∧ t.now = max s.now (x.heard + msNclk))) ∧
      Gives (.helloSend p) s (fun t => t.now = max s.now (x.said + 100 * usNclk) ∧ (t.port p).said = t.now ∧
        ∃ g, t.egress = s.egress ++ [g] ∧ g.out = some p ∧ g.frame.ty = 11 ∧ g.frame.msgs.map (·.row) = [0x01] ∧
          (g.frame.msgs.flatMap (·.payload)).take (s.helloBytes p).length = s.helloBytes p) ∧
      (∀ lane < 4, s.fld (PORT_STAT p) 6 4 = 0 → (s.noteRetrain p).recentRetrains p < 3 →
        Gives (.laneSpare p lane) s (fun t => t.portSt p = pTraining ∧ (t.port p).trained = false ∧
          t.fld (PORT_RETRAIN p) 15 8 = min (s.fld (PORT_RETRAIN p) 15 8 + 1) 255)) ∧
      (∀ lane < 4, s.fld (PORT_STAT p) 6 4 ≠ 0 → s.fld (PORT_STAT p) 6 4 ≠ lane + 1 →
        Gives (.laneSpare p lane) s (fun t => t.portSt p = pDegraded ∧ (t.port p).retry = [])) ∧
      (let naks := (x.naks.filter (fun y => decide (s.now ≤ y + msNclk))).length
       let viols := (x.viols.filter (fun y => decide (s.now ≤ y + msNclk))).length
       let due : Prop := (s.fld (PORT_LIMITS p) 15 0 ≠ 0 ∧ s.fld (PORT_LIMITS p) 15 0 ≤ naks) ∨
         (s.fld (PORT_LIMITS p) 31 16 ≠ 0 ∧ s.fld (PORT_LIMITS p) 31 16 ≤ viols)
       (due → (s.noteRetrain p).recentRetrains p < 3 → Gives (.portRetrain p) s (fun t => t.portSt p = pTraining ∧
         (t.port p).trained = false ∧ (t.port p).naks = [] ∧ (t.port p).viols = [])) ∧
       (due → 3 ≤ (s.noteRetrain p).recentRetrains p → Gives (.portRetrain p) s (fun t => t.portSt p = pDegraded)) ∧
       (¬ due → exec (.portRetrain p) s = .next s))) ∧
    (∀ (a : Agent) (v u : W32), Writes s a (PORT_CTRL p) v u →
      (u.getLsbD 0 = false → Gives (.portCtrlWrite a p v) s (fun t => t.reg (PORT_CTRL p) = u ∧ t.portSt p = pDisabled)) ∧
      (u.getLsbD 0 = true → st = pDisabled → x.degraded = false →
        Gives (.portCtrlWrite a p v) s (fun t => t.reg (PORT_CTRL p) = u ∧ t.portSt p = pTraining))) ∧
    (st = pUp → ∀ c < 16,
      let d := portDim p
      (s.broken.contains (d, c) = false → Gives (.linkDown p d c) s (fun t => t.broken = s.broken ++ [(d, c)] ∧
        (t.egress.drop s.egress.length).map (·.out) = ((s.upPorts d (!portPlus p)).take 1).map some ∧
        ((∀ y ∈ s.broken, y.1 ≠ d) → t.fld FAB_BROKEN (8 * d + 7) (8 * d) = 128 + c))) ∧
      (s.broken.contains (d, c) = true → exec (.linkDown p d c) s = .next s ∧
        Gives (.linkUp p d c) s (fun t => t.broken = s.broken.erase (d, c) ∧
          (t.egress.drop s.egress.length).map (·.out) = ((s.upPorts d (!portPlus p)).take 1).map some)))

/-- START, ELECTION_END, ASSIGN, JOIN, WAVE_END, CONFIG, CONFIG_ACK, CONFIG_TIMEOUT, ID_CHALLENGE, ID_PROOF, ID_EXCHANGE_TIMEOUT,
WITNESS and its three expiries. -/
def Obligations.DiscoveryIdentityWitness : Prop :=
  ∀ (s : State) (p : Nat) (serial : W64) (c : Coord), p < 32 →
    let x := s.port p
    let w := s.wave
    let found := s.fld FAB_DISC 14 0
    let sent (t : State) : List Egress := t.egress.drop s.egress.length
    (∀ epoch root req, s.discovers p = true → s.takesPart = true → epoch < 4096 →
      (s.fld FAB_DISC 31 20 < epoch → Gives (.startWave p epoch serial root req) s (fun t => t.fld FAB_DISC 31 20 = epoch ∧
        t.phaseOf = 1 ∧ t.fld FAB_DISC 14 0 = 0 ∧ t.wave.cand = s.serialNo ∧ t.wave.requireId = req ∧ t.wave.coords = none ∧
        (req = false → (sent t).map (·.out) = ((List.range 32).filter (fun q => s.portSt q == pUp && q != p)).map some))) ∧
      (epoch ≤ s.fld FAB_DISC 31 20 → exec (.startWave p epoch serial root req) s = .next s)) ∧
    (s.phaseOf = 1 →
      (w.cand ≠ s.serialNo → Gives .electionEnd s (fun t => t.phaseOf = 2 ∧ t.wave = w ∧ t.egress = s.egress ∧
        t.now = max s.now (w.since + 5 * msNclk))) ∧
      (w.cand = s.serialNo → Gives .electionEnd s (fun t => t.wave.root = true ∧ t.wave.coords = some ⟨0, 0, 0, 0⟩ ∧
        t.fld FAB_DISC 14 0 = min (found + 1) 32767 ∧ t.now = max s.now (w.since + 5 * msNclk)))) ∧
    (s.portSt p = pUp →
      (∀ epoch req, portPlus p = false → (s.phaseOf = 1 ∨ s.phaseOf = 2) → epoch = s.fld FAB_DISC 31 20 → (req = true → x.passed = true) →
        (w.coords = none → (∀ d < 4, coordOf c d < maxSize d) → Gives (.assign p epoch c req) s (fun t => t.wave.coords = some c ∧
          t.wave.parent = some p ∧ t.phaseOf = 2 ∧ ∃ g gs, t.egress = s.egress ++ g :: gs ∧ g.out = some p ∧
            g.frame.msgs.map (·.row) = [0x04] ∧ (g.frame.msgs.flatMap (·.payload)).take 12 = leBytes 8 s.serialNo ++ coordBytes c)) ∧
        (∀ own d, w.coords = some own → differs own c = [d] →
          (d = portDim p → coordOf own d = 0 → Gives (.assign p epoch c req) s (fun t => t.egress = s.egress ∧
            t.wave.sizes.find? (fun e => e.1 == d) = some (d, coordOf c d))) ∧
          ((d ≠ portDim p ∨ coordOf own d ≠ 0) → Gives (.assign p epoch c req) s (fun t => t.portSt p = pMiswired)))) ∧
      (s.phaseOf = 2 →
        (w.root = true → Gives (.join p serial c) s (fun t => t.fld FAB_DISC 14 0 = min (found + 1) 32767 ∧ p ∈ t.wave.children ∧
          t.wave.lastJoin = s.now)) ∧
        (∀ q, w.root = false → w.parent = some q → Gives (.join p serial c) s (fun t => p ∈ t.wave.children ∧
          (sent t).map (·.out) = [some q])) ∧
        (∀ epoch shape mode col fnd ok req own, w.coords = some own → w.root = false → w.parent = some p → epoch = s.fld FAB_DISC 31 20 →
          Gives (.config p epoch shape mode col fnd ok req) s (fun t => t.phaseOf = 0 ∧ t.broken = [] ∧ t.devId = idOf own % 2 ^ 14 ∧
            t.fld FAB_ID 31 31 = 1 ∧ t.fld FAB_ROUTE 0 0 = mode.toNat ∧ t.fld FAB_ROOT 15 0 = 2 ^ 15 + col % 2 ^ 14 ∧
            t.fld FAB_SHAPE 4 0 = shape.x % 32 ∧ t.fld FAB_SHAPE 31 28 = shape.w % 16))) ∧
      (∀ id, w.root = true → s.phaseOf = 3 → Gives (.configAck p serial id) s (fun t => t.wave.acks = w.acks + 1 ∧
        t.phaseOf = if w.acks + 1 = found then 0 else 3)) ∧
      (∀ id q, w.root = false → w.parent = some q → Gives (.configAck p serial id) s (fun t => t.wave = w ∧
        (sent t).map (·.out) = [some q]))) ∧
    (w.root = true → s.phaseOf = 2 → Gives .waveEnd s (fun t => t.now = max s.now (w.lastJoin + 10 * msNclk) ∧ t.devId = 0 ∧
      t.fld FAB_ID 31 31 = 1 ∧ t.fld FAB_ROOT 15 14 = 3 ∧ t.phaseOf = if found = 1 then 0 else 3)) ∧
    (w.root = true → s.phaseOf = 3 → Gives .configTimeout s (fun t => t.phaseOf = 0 ∧ t.now = max s.now (w.configAt + 10 * msNclk))) ∧
    (s.listening p = true →
      (∀ nonce, s.mpDown = false → Gives (.idChallenge p nonce serial) s (fun t => (t.port p).answered = true ∧
        (t.portSt p = if s.portSt p = pIdCheck ∧ x.passed = true then pUp else s.portSt p) ∧
        ∃ more, (sent t).map (·.out) = List.replicate (ceilDiv (s.certArea ++ Config.sign 0 (idMessage nonce serial.toNat s.serialNo
          (s.fld (PORT_STAT p) 12 8) p)).length 255) (some p) ++ more)) ∧
      (∀ proof, x.asked ≠ none →
        (s.proofOk p proof = true → Gives (.idProof p proof serial) s (fun t => (t.port p).passed = true ∧ (t.port p).asked = none ∧
          t.fld SEC_IDCHK 15 0 = min (s.fld SEC_IDCHK 15 0 + 1) 65535 ∧
          t.portSt p = if s.portSt p = pIdCheck ∧ x.answered = true then pUp else s.portSt p)) ∧
        (s.proofOk p proof = false → Gives (.idProof p proof serial) s (fun t => t.portSt p = pQuarantine ∧
          (t.port p).failedId = true ∧ t.fld SEC_IDCHK 31 16 = min (s.fld SEC_IDCHK 31 16 + 1) 65535)))) ∧
    (∀ t0, x.asked = some t0 → Gives (.idExchangeTimeout p) s (fun t => t.portSt p = pQuarantine ∧ (t.port p).failedId = true ∧
      t.now = max s.now (t0 + 200 * msNclk) ∧ t.fld SEC_IDCHK 31 16 = min (s.fld SEC_IDCHK 31 16 + 1) 65535)) ∧
    (∀ r : WitnessRec, s.portSt p = pUp → s.hasCollector = true →
      (s.isCollector = true → Gives (.witness p r) s (fun t => t.holds = s.holds ∧
        t.collect = (mergeInto r s.collect).getD (s.collect ++ [⟨r, s.now⟩]))) ∧
      (s.isCollector = false → Gives (.witness p r) s (fun t => t.collect = s.collect ∧
        t.holds = (mergeInto r s.holds).getD (s.holds ++ [⟨r, s.now⟩])))) ∧
    (∀ i h, s.holds[i]? = some h → Gives (.witnessHoldExpiry i) s (fun t => t.holds = s.holds.eraseIdx i ∧
      t.now = max s.now (h.since + witHold) ∧ ∃ g, t.egress = s.egress ++ [g] ∧ g.frame.dst = s.collector ∧
        g.frame.msgs.map (·.row) = [0x07] ∧ g.frame.msgs.flatMap (·.payload) = witBytes h.rep)) ∧
    (∀ i h, s.collect[i]? = some h → Gives (.witnessCollectExpiry i) s (fun t => t.collect = s.collect.eraseIdx i ∧
      t.now = max s.now (h.since + witCollect) ∧ (t.reg CMDQ_EVT).getLsbD evtWitness = true ∧
      t.log = ((s.reach (h.since + witCollect)).logWitness h.rep).log)) ∧
    (∀ i y t0, s.suspects[i]? = some y → y.opened = some t0 → y.told ≠ 0 → Gives (.witnessWindowExpiry i) s (fun t =>
      t.now = max s.now (t0 + witWindow) ∧ t.suspects = dropSuspect y.kind y.port y.id s.suspects ++
        [{ y with gained := 0, opened := if y.gained = 0 then none else some t.now }]))

/-! ## Power and ropes -/

/-- OP_TARGET_SET, OP_REEVALUATE, VDDC_SETTLED, VOLTAGE_MOVE_TIMEOUT, ESTIMATION_PERIOD, FIXED_BREAK, PWR_CAP_WRITE,
PWR_BUDGET_WRITE, PWR_OP_CTRL_WRITE, PWR_ALERT, PWR_ALERT_RELEASE, ALERT_HOLD_EXPIRY, THERMAL_STEP, THERMAL_REPEAT, THERMAL_CLEAR.
The P and D of a period are free values (log 7). -/
def Obligations.PowerControl : Prop :=
  ∀ (s : State),
    let w := s.pwr
    let chooses (i : Instr) (u : State) : Prop := s.mpDown = false → u.forced = false → u.isMember = false →
      (w.pend.getD u.opNow < u.wanted → Gives i s (fun t => t.pwr.pend = some u.wanted ∧ t.opNow = s.opNow ∧ t.now = u.now ∧
        t.fld PWR_OP_STAT 31 31 = 1 ∧ t.fld PWR_OP_STAT 26 24 = u.wanted ∧ t.cores = s.cores)) ∧
      (w.pend = none → w.move = 0 → u.wanted < u.opNow → u.calm = true → u.thermal = false → u.fits 95 (opRel (u.opNow - 1)) = true →
        Gives i s (fun t => t.pwr.busy = some (u.opNow - 1, u.now) ∧ t.pwr.move = 2 ∧ t.opNow = s.opNow ∧
          t.fld PWR_OP_STAT 26 24 = u.opNow - 1 ∧ t.cores = s.cores)) ∧
      (w.pend = none → w.move = 0 → u.wanted = u.opNow → w.volt = u.opNow → u.boosting = false → u.boostOk = false →
        Gives i s (fun t => t.pwr = u.pwr ∧ t.opNow = s.opNow ∧ t.now = u.now))
    (w.changed ≠ none → chooses .opTargetSet (s.modPwr (fun x => { x with changed := none }))) ∧
    (s.clocked = true → chooses .opReevaluate
      { s with now := max s.now (w.evalAt + 100 * usNclk), pwr := { w with evalAt := max s.now (w.evalAt + 100 * usNclk) } }) ∧
    (∀ v t0, w.busy = some (v, t0) →
      (s.mpDown = false → s.isMember = false → w.move = 2 → Gives .vddcSettled s (fun t => t.pwr =
        if v = 8 then { w with volt := 8, busy := none, boost := true } else { w with volt := v, busy := none, pend := some v })) ∧
      (s.mpDown = false → w.move = 1 → w.pend = none → Gives .vddcSettled s (fun t => t.pwr.volt = v ∧ t.pwr.busy = none ∧
        t.pwr.move = 0 ∧ t.fld PWR_OP_STAT 31 31 = 0)) ∧
      (s.mpDown = false → Gives .voltageMoveTimeout s (fun t => t.pwr.busy = none ∧ t.pwr.move = 0 ∧ t.fld PWR_OP_STAT 31 31 = 0 ∧
        t.opNow = s.opNow ∧ t.pwr.pend = (if w.move = 2 then none else w.pend) ∧ t.now = max s.now (t0 + 500 * usNclk)))) ∧
    (s.clocked = true → w.step = false → w.boost = false → s.boosting = false → s.forced = false →
      let p := (Config.freeBits 16 s.free).toNat
      let d := min p (Config.freeBits 16 (s.free + 1)).toNat
      let k := s.kNow
      let pd := (p - d) * (64 - k) + 64 * d
      let need := if pd ≤ s.capNow * (64 - k) then 0 else if d = 0 then 60 else min 60 (ceilDiv (64 * (pd - s.capNow * (64 - k))) (64 * d))
      (w.pend = none → w.floor ≤ 60 → Gives .estimationPeriod s (fun t => t.now = max s.now (w.period + 2048) ∧ t.opNow = s.opNow ∧
        t.reg PWR_EST = BitVec.ofNat 32 p ∧ t.kNow = max w.floor (min 60 (max need (k - 4))) ∧ t.cores = s.cores)) ∧
      (∀ j < 8, s.mpDown = false → w.pend = some j → j ≠ s.opNow → Gives .estimationPeriod s (fun t => t.opNow = j ∧ t.pwr.pend = none ∧
        t.reg PWR_EST = BitVec.ofNat 32 p ∧ (∀ c < 72, s.coreSt c = 0 → regField (t.creg c CORE_CLK) 20 16 = opN j)))) ∧
    (s.fixedMode = true → 64 ≤ w.k60 → s.opNow < 7 → s.mpDown = false → s.forced = false → Gives .fixedBreak s (fun t =>
      t.pwr.pend = some (s.opNow + 1) ∧ t.fld PWR_CAP_STATUS 28 28 = 1 ∧ t.pwr.k60 = w.k60 - 64)) ∧
    (∀ (a : Agent) (v u : W32),
      (Writes s a PWR_CAP v u → (capValid u.toNat = true → Gives (.pwrCapWrite a v) s (fun t => t.reg PWR_CAP = u ∧
          t.fld PWR_CAP_STATUS 9 0 = min u.toNat (s.fld PWR_BUDGET 9 0))) ∧
        (capValid u.toNat = false → Gives (.pwrCapWrite a v) s (fun t => t.reg PWR_CAP = s.reg PWR_CAP ∧ Counted s t 3))) ∧
      (Writes s .bmc PWR_BUDGET v u → capValid u.toNat = true → Gives (.pwrBudgetWrite .bmc v) s (fun t => t.reg PWR_BUDGET = u ∧
        t.fld PWR_CAP_STATUS 9 0 = min (s.fld PWR_CAP 9 0) u.toNat)) ∧
      (Writes s .host PWR_BUDGET v u → Gives (.pwrBudgetWrite .host v) s (fun t => t.reg PWR_BUDGET = s.reg PWR_BUDGET ∧ Counted s t 4)) ∧
      (Writes s a PWR_OP_CTRL v u → Gives (.pwrOpCtrlWrite a v) s (fun t => t.reg PWR_OP_CTRL = u ∧ t.pwr.changed =
        if regField (s.reg PWR_OP_CTRL) 3 0 = regField u 3 0 then w.changed else some (w.changed.getD s.now)))) ∧
    (s.clocked = true → w.alertLow = false → Gives .pwrAlert s (fun t => t.forced = true ∧ t.opNow = 7 ∧ t.kNow = 48 ∧
      t.fld PWR_OP_STAT 22 20 = 2 ∧ t.reg PWR_ALERTS = satAdd (s.reg PWR_ALERTS) 1 ∧ t.pwr.pend = none ∧ t.pwr.alertLow = true ∧
      (∀ c < 72, s.coreSt c = 0 → regField (t.creg c CORE_CLK) 20 16 = 6))) ∧
    (w.alertLow = true → Gives .pwrAlertRelease s (fun t => t.pwr.alertLow = false ∧ t.pwr.alertRose = some s.now ∧ t.regs = s.regs)) ∧
    (∀ t0, w.alertRose = some t0 → Gives .alertHoldExpiry s (fun t => t.forced = false ∧ t.pwr.alertRose = none ∧
      t.now = max s.now (t0 + msNclk))) ∧
    (s.clocked = true → ∀ sensor < 88, ∀ r,
      (420 ≤ r → r < 1024 →
        (w.hotAt = none → Gives (.thermalStep sensor r) s (fun t => t.pwr.step = true ∧ t.pwr.hotAt = some s.now ∧
          Tab.get (fun _ => 0) t.pwr.temps sensor = r)) ∧
        (∀ t0, w.hotAt = some t0 → Gives (.thermalStep sensor r) s (fun t => t.pwr.step = w.step ∧ t.pwr.hotAt = some t0) ∧
          Gives (.thermalRepeat sensor r) s (fun t => t.pwr.step = true ∧ t.now = max s.now (t0 + msNclk) ∧ t.pwr.hotAt = some t.now ∧
            t.pwr.floor = if s.opNow = 7 ∧ s.mpDown = false then min 60 (w.floor + 8) else w.floor))) ∧
      (r < 408 → (∀ x ∈ w.temps, x.1 ≠ sensor → x.2 < 408) → Gives (.thermalClear sensor r) s (fun t => t.pwr.floor = 0 ∧
        t.pwr.hotAt = none ∧ t.thermal = false)) ∧
      (408 ≤ r → r < 420 → Gives (.thermalClear sensor r) s (fun t => t.pwr.floor = w.floor ∧ t.thermal = s.thermal)))

/-- The rope messages and expiries. -/
def Obligations.RopeMembers : Prop :=
  ∀ (s : State) (h : PaceHdr),
    let r := s.rope
    let sent (t : State) : List Egress := t.egress.drop s.egress.length
    let ups : List (Option Nat) := ((List.range 32).filter (fun p => s.portSt p == pUp)).map some
    let known (x : List Nat) : List Nat := x.filter (· != h.origin)
    let epochNow := (s.reg PWR_ROPE_EPOCH).toNat
    (∀ f : RopeForm,
      ((s.isMember = true ∨ (s.joining = true ∧ s.ropeId ≠ f.hdr.rope) ∨ s.dev = devFaulted) →
        Gives (.ropeForm f) s (fun t => t.rope.forms = r.forms ∧ (sent t).map (·.out) = ups ∧ t.regs = s.regs)) ∧
      (let forms := r.forms.filter (fun g => g.hdr.rope != f.hdr.rope || g.hdr.origin != f.hdr.origin) ++ [f]
       let ours := forms.filter (fun g => g.hdr.rope == s.ropeId)
       s.isMember = false → s.dev ≠ devFaulted →
        (s.joining = false → Gives (.ropeForm f) s (fun t => t.rope.forms = forms ∧ t.egress = s.egress)) ∧
        (s.joining = true → s.ropeId = f.hdr.rope →
          (∀ g ∈ ours, g.listHash = listHash r.list ∧ g.members = r.list.length ∧ g.hdr.origin ∈ r.list) →
          (∀ d ∈ r.list, ∃ g ∈ ours, g.hdr.origin = d) →
          Gives (.ropeForm f) s (fun t => t.leads = true ∧ t.reg PWR_ROPE_EPOCH = 0 ∧ t.rope.members = r.list ∧ t.joining = false ∧
            t.fld PWR_ROPE_LEADER 13 0 = s.devId ∧ t.ropePoint = min 7 (ours.foldl (fun m g => max m g.point) 0))))) ∧
    (∀ epoch < 2 ^ 32, ∀ point < 8, ∀ n,
      (s.floodIn h 0x11 (leBytes 4 epoch ++ leBytes 1 point ++ leBytes 2 n) = none → exec (.ropeSync h epoch point n) s = .next s) ∧
      (s.floodIn h 0x11 (leBytes 4 epoch ++ leBytes 1 point ++ leBytes 2 n) ≠ none →
        (s.joining = true → s.ropeId = h.rope → Gives (.ropeSync h epoch point n) s (fun t => t.isMember = true ∧ t.leads = false ∧
          t.joining = false ∧ t.rope.members = r.list ∧ t.ropePoint = point ∧ t.reg PWR_ROPE_EPOCH = BitVec.ofNat 32 epoch)) ∧
        (s.joining = false → s.inRope h = true → (s.leads = false ∨ h.origin ≤ s.devId) → Gives (.ropeSync h epoch point n) s (fun t =>
          t.leads = false ∧ t.ropePoint = point ∧ t.reg PWR_ROPE_EPOCH = BitVec.ofNat 32 epoch ∧
          t.fld PWR_ROPE_LEADER 13 0 = h.origin % 2 ^ 14 ∧ t.rope.syncAt = s.now ∧ (r.rise = none → t.opNow = max s.opNow point))))) ∧
    (s.leads = true → Gives .ropeEpochTick s (fun t => t.now = max s.now (r.syncAt + msNclk) ∧ t.reg PWR_ROPE_EPOCH = s.reg PWR_ROPE_EPOCH + 1 ∧
      t.rope.syncAt = t.now ∧ (r.rise = none → t.ropePoint = s.ropePoint))) ∧
    (∀ point < 8, ∀ cause, s.floodIn h 0x12 (leBytes 1 point ++ leBytes 1 cause) ≠ none → s.inRope h = true →
      Gives (.paceDown h point cause) s (fun t => t.ropePoint = max s.ropePoint point ∧ t.opNow = max s.opNow point ∧
        t.rope.downSeen = true ∧ t.reg PWR_ROPE_FOLLOW = satAdd (s.reg PWR_ROPE_FOLLOW) 1)) ∧
    (∀ epoch < 2 ^ 32, ∀ point < 8,
      (s.leads = true → s.inRope h = true → h.origin ∈ r.members → Gives (.paceVote h epoch point) s (fun t =>
        t.rope = { r with votes := r.votes.filter (fun v => v.1 != h.origin || v.2.1 != epoch) ++ [(h.origin, epoch, point)] })) ∧
      (s.floodIn h 0x14 (leBytes 4 epoch ++ leBytes 1 point) ≠ none → s.inRope h = true → s.thermal = false → s.forced = false →
        point < s.opNow → Gives (.paceUp h epoch point) s (fun t => t.rope.rise = some (epoch, point) ∧ t.opNow = s.opNow))) ∧
    (s.leads = true → r.examined = false → r.members.Nodup →
      let votes := r.votes.filter (fun v => v.2.1 == epochNow)
      let voted (d : Nat) : Bool := votes.any (fun v => v.1 == d)
      let low := votes.foldl (fun m v => max m v.2.2) 0
      let up : Bool := r.members.all voted && decide (low < s.ropePoint) && r.floors.isEmpty && !r.downSeen
      Gives .voteExamine s (fun t => t.now = max s.now (r.syncAt + 300 * usNclk) ∧ t.rope.examined = true ∧ t.rope.votes = [] ∧
        (∀ d ∈ r.members, Tab.get (fun _ => 0) t.rope.missed d = if voted d then 0 else Tab.get (fun _ => 0) r.missed d + 1) ∧
        (up = true → (sent t).map (·.out) = ups) ∧ (up = false → t.egress = s.egress ∧ t.rope.rise = r.rise) ∧
        (up = true → s.thermal = false → s.forced = false → low < s.opNow → t.rope.rise = some ((epochNow + 1) % 2 ^ 32, low)))) ∧
    (∀ set, s.floodIn h 0x15 (leBytes 1 (Bool.toNat set)) ≠ none → s.inRope h = true → Gives (.paceFloor h set) s (fun t =>
      t.rope.floors = known r.floors ++ (if set = true then [h.origin] else []) ∧
      t.fld PWR_ROPE_STAT 29 29 = if t.rope.floors = [] then 0 else 1)) ∧
    (s.inRope h = true → Gives (.ropeLeaveMsg h) s (fun t => t.rope.members = known r.members ∧ t.rope.floors = known r.floors ∧
      (h.origin = s.fld PWR_ROPE_LEADER 13 0 → lowestId (known r.members) = s.devId → t.leads = true))) ∧
    (∀ d, s.floodIn h 0x17 (leBytes 2 d) ≠ none → s.inRope h = true →
      (d = s.devId → Gives (.ropeDrop h d) s (fun t => t.reg PWR_ROPE_STAT = 0x10000000#32 ∧ t.rope.members = [] ∧ t.opNow = s.opNow)) ∧
      (d ≠ s.devId → Gives (.ropeDrop h d) s (fun t => t.isMember = true ∧ t.rope.members = r.members.filter (· != d)))) ∧
    (∀ reason, s.floodIn h 0x18 (leBytes 1 reason) ≠ none → s.joining = true → s.ropeId = h.rope →
      Gives (.ropeRefuse h reason) s (fun t => t.joining = false ∧ t.rope.list = [] ∧ t.reg PWR_ROPE_STAT = 0)) ∧
    (∀ t0, s.pwr.busyAt = some t0 → s.isMember = true → s.mpDown = false → s.forced = false → s.devId ∉ r.floors →
      max s.opNow (s.pwr.pend.getD 0) < s.capPoint → Gives .ropeCapMove s (fun t => t.pwr.pend = some s.capPoint ∧
        t.now = max s.now (t0 + msNclk) ∧ t.ropePoint = max s.ropePoint s.capPoint ∧ (sent t).map (·.out) = ups)) ∧
    (∀ d, s.leads = true → d ∈ r.members → d ≠ s.devId → 16 ≤ Tab.get (fun _ => 0) r.missed d → Gives (.memberDrop d) s (fun t =>
      t.rope.members = r.members.filter (· != d) ∧ (sent t).map (·.out) = ups)) ∧
    (s.isMember = true → s.leads = false →
      let others := r.members.filter (· != s.devId)
      let led := s.fld PWR_ROPE_LEADER 13 0
      let lost := if others.contains led then led else lowestId others
      lost < s.devId ∨ lost = led → lowestId (r.members.filter (· != lost)) = s.devId → Gives .leaderLost s (fun t => t.leads = true ∧
        t.now = max s.now (r.syncAt + 4 * msNclk) ∧ t.reg PWR_ROPE_EPOCH = s.reg PWR_ROPE_EPOCH + 1 ∧
        t.rope.members = r.members.filter (· != lost) ∧ t.fld PWR_ROPE_LEADER 13 0 = s.devId)) ∧
    (∀ t0, r.joinAt = some t0 → Gives .ropeJoinTimeout s (fun t => t.joining = false ∧ t.rope.list = [] ∧ t.reg PWR_ROPE_STAT = 0 ∧
      t.now = max s.now (t0 + 100 * msNclk)))

/-! ## Reliability, boot and pins -/

/-- CORE_FENCE, SPARE_IN_SERVICE, CAIRN_PROGRAM, HEARTBEAT_POLL, HEARTBEAT_MISS, CP_WATCHDOG_EXPIRY, MP_FAULT, PATROL_SCRUB_ROW,
PATROL_OVERRUN. -/
def Obligations.FencesSparesAndPatrols : Prop :=
  ∀ (s : State) (c : Nat), c < 72 →
    let fenced (cause : Nat) (succ : Option Nat) (t : State) : Prop := t.coreSt c = 2 ∧
      t.fld GLB_CORES 22 16 = (s.fld GLB_CORES 22 16 + 1) % 128 ∧
      t.reg RAS_FENCE = BitVec.ofNat 32 (min 255 (s.fld RAS_FENCE 31 24 + 1) * 2 ^ 24 + cause * 2 ^ 16 + succ.getD 0x7F * 2 ^ 8 + c)
    (∀ cause want, cause < 4 → s.fenceDue.contains (c, cause) = true → (s.core c).fault = none →
      (∀ p, s.coreSt c = 0 → s.pickSpare c want = some p → Gives (.coreFence c cause want) s (fun t => fenced cause (some p) t ∧
        t.coreSt p = 0 ∧ t.logicalOf p = s.logicalOf c ∧ t.fld GLB_CORES 6 0 = s.fld GLB_CORES 6 0)) ∧
      (s.coreSt c = 0 → s.pickSpare c want = none → Gives (.coreFence c cause want) s (fun t => fenced cause none t ∧
        t.renumber = true ∧ t.fld GLB_CORES 6 0 = s.active - 1)) ∧
      (s.coreSt c = 1 → Gives (.coreFence c cause want) s (fenced cause none))) ∧
    (∀ x, s.sparing.find? (fun y => y.spare == c) = some x →
      Gives (.spareInService c true) s (fun t => t.sparing = s.sparing.filter (fun y => y.spare != c) ∧ t.coreSt c = s.coreSt c ∧
        regField (t.creg c CORE_CLK) 20 16 = opN s.opNow) ∧
      (s.coreSt c ≠ 2 → Gives (.spareInService c false) s (fun t => t.coreSt c = 2))) ∧
    (∀ x, s.cairnDue.find? (fun y => y.1 == c) = some x → s.mpDown = false → Gives (.cairnProgram c) s (fun t =>
      t.pair (RAS_CAIRN c 0) (RAS_CAIRN c 1) = x.2 % 2 ^ 64 ∧ t.cairnDue = s.cairnDue.filter (fun y => y.1 != c))) ∧
    (∀ cp, s.cpServing cp = true → s.dispatchedBy cp c = true → s.coreSt c = 0 → ∀ ok, Gives (.heartbeatPoll cp c ok) s (fun t =>
      Tab.get (fun _ => 0) t.polls c = (if ok = true then 0 else Tab.get (fun _ => 0) s.polls c + 1) ∧
      t.now = max s.now (Tab.get (fun _ => 0) s.polled c + max 1 (s.fld RAS_WDOG 15 0) * usNclk) ∧
      Tab.get (fun _ => 0) t.polled c = t.now)) ∧
    (∀ want, s.coreSt c = 0 → max 1 (s.fld RAS_WDOG 19 16) ≤ Tab.get (fun _ => 0) s.polls c →
      Gives (.heartbeatMiss c want) s (fun t => fenced 3 (s.pickSpare c want) t ∧ Tab.get (fun _ => 0) t.polls c = 0)) ∧
    (∀ cp < 4, s.cpServing cp = true →
      (s.fld RAS_CP 14 12 = 1 → Gives (.cpWatchdogExpiry cp) s (fun t => t.fld RAS_CP (3 * cp + 2) (3 * cp) = 2 ∧ t.cpServing 4 = true ∧
        t.dev = s.dev ∧ (∀ q < 4, Tab.get (fun i => i) t.serve q =
          if Tab.get (fun i => i) s.serve q = cp then 4 else Tab.get (fun i => i) s.serve q))) ∧
      (s.fld RAS_CP 14 12 ≠ 1 → (∀ n < 5, n ≠ cp → s.cpServing n = false) → s.dev ≠ devOff →
        Gives (.cpWatchdogExpiry cp) s (fun t => t.dev = devFaulted ∧ t.fld GLB_STATE 15 8 = 2))) ∧
    (3 ≤ s.bootStep → s.mpDown = false → Gives (.mpFault .stops) s (fun t => t.mpDown = true ∧ t.mpReload = true ∧ t.dev = s.dev ∧
      (∀ ch < 10, s.mbxSt ch = mbxSent → s.mbxDest ch = 7 → s.mbxOwner ch ≠ 7 → t.mbxSt ch = mbxTimedOut) ∧
      (∀ ch < 10, s.mbxOwner ch = 7 → s.mbxSt ch ≠ mbxFree → t.mbxSt ch = mbxFree))) ∧
    (s.mpReload = true →
      Gives (.mpFault .reloaded) s (fun t => t.mpDown = false ∧ t.mpReload = false ∧ t.regs = s.regs) ∧
      (s.dev ≠ devOff → Gives (.mpFault .reloadFails) s (fun t => t.mpDown = s.mpDown ∧ t.mpReload = false ∧ t.dev = devFaulted ∧
        t.fld GLB_STATE 15 8 = 4))) ∧
    (∀ row, (s.reg RAS_SCRUB_CFG).getLsbD 31 = true → 64 * row < 0x2D00000000 →
      ((∀ u ∈ s.eccUnits (64 * row) 64, s.unitErr (64 * row) u = 0 ∨ correctable (s.unitErr (64 * row) u) = true) →
        Gives (.patrolScrubRow (.tier1 row)) s (fun t => (∀ u ∈ s.eccUnits (64 * row) 64, t.unitErr (64 * row) u = 0) ∧ t.dmem = s.dmem ∧ t.reg RAS_SCRUB_UE = s.reg RAS_SCRUB_UE)) ∧
      ((∃ u ∈ s.eccUnits (64 * row) 64, s.unitErr (64 * row) u ≠ 0 ∧ correctable (s.unitErr (64 * row) u) = false) →
        Gives (.patrolScrubRow (.tier1 row)) s (fun t => t.dmem = s.dmem ∧ t.reg RAS_SCRUB_UE = satAdd (s.reg RAS_SCRUB_UE) 1))) ∧
    (∀ e < 4096, ∀ age,
      let info := BitVec.ofNat 64 age
      (∀ i r, s.coalesces 0x04 0 (patrolSource e) info = some (i, r) → Gives (.patrolOverrun e age) s (fun t =>
        t.logAt i = { r with count := min (r.count + 1) 0xFFFF, last := (s.sclk - r.time) % 2 ^ 32 } ∧ t.regs = s.regs)) ∧
      (s.coalesces 0x04 0 (patrolSource e) info = none → Gives (.patrolOverrun e age) s (fun t =>
        (∃ q, t.logAt (s.fld RAS_LOG_HEAD 11 0) = ⟨s.sclk, q, 0x04, 0, patrolSource e, 1, 0, info⟩) ∧
        t.fld RAS_LOG_HEAD 11 0 = (s.fld RAS_LOG_HEAD 11 0 + 1) % 4096 ∧ (t.reg CMDQ_EVT).getLsbD evtErrlog = true ∧
        (∀ j, j ≠ s.fld RAS_LOG_HEAD 11 0 → t.logAt j = s.logAt j))))

/-- ROOT_PLL_LOCK, RECOVERY_IMAGE, VR_PG_RISE, ATTEST_KEY_READY, MEMORY_TRAINING_DONE, DRIVE_BRINGUP_END, SYS_RST_ASSERT,
SYS_RST_RELEASE, PERST_ASSERT, PERST_RELEASE, VR_PG_FALL, REFCLK_LOSS, THERMTRIP, PACKAGE_POWER_LOSS, PCIE_LINK_UP, PCIE_LINK_DOWN,
PCIE_CONFIG_WRITE, USB_CONFIGURATION_CHANGE. -/
def Obligations.BootAndPins : Prop :=
  ∀ (s : State),
    let b := s.boot
    let cold (t : State) : Prop := t.dev = devOff ∧ t.pending = s.pending ∧ t.hmem = s.hmem ∧ t.flash = s.flash ∧ t.selector = s.selector ∧
      t.cmds = [] ∧ t.fetched = [] ∧ t.log = [] ∧ t.dmem = [] ∧ t.disks = s.disks ∧
      (∀ a, keptCold a = false → a ∉ [GLB_STATE, GLB_CORES, RAS_FENCE] → t.reg a = deviceReset a) ∧
      (∀ a, keptCold a = true → a ∉ [MEM_LDG_STAT 0, MEM_LDG_STAT 1] → t.reg a = s.reg a)
    let faults (n : Nat) (t : State) : Prop := t.dev = devFaulted ∧ t.fld GLB_STATE 15 8 = n
    (s.dev = devBoot → s.bootStep = 0 →
      Gives (.rootPllLock false) s (faults 5) ∧
      (b.recoveryMode = true → Gives (.rootPllLock true) s (fun t => t.bootStep = 1 ∧ t.dev = devBoot ∧ t.mpDown = true)) ∧
      (b.recoveryMode = false → s.bootSlot 1 = none → Gives (.rootPllLock true) s (fun t => faults 4 t ∧ t.bootStep = 1 ∧
        t.boot.recoveryMode = true)) ∧
      (∀ k, b.recoveryMode = false → s.bootSlot 1 = some k → Gives (.rootPllLock true) s (fun t => t.dev = devBoot ∧ t.bootStep = 3 ∧
        t.mpDown = false ∧ t.boot.vrEn = 1 ∧ t.fld SEC_STAT 1 0 = k % 4 ∧ t.reg SEC_BOOTS = s.reg SEC_BOOTS + 1))) ∧
    (∀ image : List Byte, s.dev ≠ devOff → b.recoveryMode = true → s.bootStep = 1 →
      (image.length ≤ 4194304 → s.imageOk 3 image = true → Gives (.recoveryImage image) s (fun t => t.dev = devBoot ∧ t.bootStep = 3 ∧
        t.mpDown = false ∧ t.recovery = image ∧ t.boot.recoveryMode = false ∧ t.fld SEC_STAT 4 4 = 1 ∧ t.fld SEC_STAT 1 0 = 2)) ∧
      ((4194304 < image.length ∨ s.imageOk 3 image = false) → Gives (.recoveryImage image) s (fun t => t.bootStep = 1 ∧ t.regs = s.regs ∧
        t.boot = b ∧ t.usbOut = s.usbOut ++ [leBytes 1 stAuthFailed]))) ∧
    (∀ k < 3, s.dev = devBoot → s.bootStep = 3 → k < b.vrEn → k ∉ b.vrPg → Gives (.vrPgRise k) s (fun t =>
      t.boot = { b with vrPg := b.vrPg ++ [k], vrEn := min 3 (k + 2) } ∧ t.bootStep = if k = 2 then 4 else 3)) ∧
    (s.dev = devBoot → s.bootStep = 7 → s.mpDown = false →
      let last (x y : Bool) (t : State) : Prop :=
        (x = true → t.dev = devBoot ∧ t.bootStep = 7) ∧ (x = false → y = false → s.sparing = [] → t.dev = s.restState ∧ t.bootStep = 10)
      (b.keyTodo = true → Gives .attestKeyReady s (fun t => t.akGen = s.akGen + 1 ∧ t.fld SEC_STAT 5 5 = 1 ∧ t.boot.keyTodo = false ∧
        last b.memTodo b.driveTodo t)) ∧
      (∀ r : TrainResult, b.memTodo = true → (∀ c < 24, c ∈ r.channels) → Gives (.memoryTrainingDone r) s (fun t =>
        t.reg MEM_T1_STAT = BitVec.ofNat 32 (2 ^ 31 + 2 ^ 24 - 1) ∧ t.boot.memTodo = false ∧
        (tier2Valid r = false → t.reg MEM_T2_STAT = 0) ∧ last b.keyTodo b.driveTodo t)) ∧
      (∀ r : TrainResult, b.memTodo = true → (∃ c < 24, c ∉ r.channels) → Gives (.memoryTrainingDone r) s (fun t => faults 3 t ∧
        (t.reg MEM_T1_STAT).getLsbD 31 = false)) ∧
      (∀ ds : List Drive, b.driveTodo = true → Gives (.driveBringupEnd ds) s (fun t => t.drives = (drivesUsed ds).map (·.port) ∧
        t.reg MEM_T3_PAGES = BitVec.ofNat 32 (capacity3 (drivesUsed ds) / 4096) ∧ t.boot.driveTodo = false ∧ last b.keyTodo b.memTodo t))) ∧
    Gives .sysRstAssert s (fun t => cold t ∧ t.boot.sysRstLow = true) ∧
    (b.sysRstLow = true → b.tripped = false → ∀ low,
      Gives (.sysRstRelease low true) s (fun t => t.dev = devBoot ∧ t.bootStep = 0 ∧ t.now = 0 ∧ t.boot.sysRstLow = false ∧
        t.boot.recoveryMode = low ∧ t.fld SEC_STAT 7 6 = 0) ∧
      exec (.sysRstRelease low false) s = .fault .bootUndefined) ∧
    (b.perstLow = false →
      (s.dev ≠ devOff → 4 ≤ s.bootStep → Gives .perstAssert s (fun t => t.boot.perstLow = true ∧ t.bootStep = 3 ∧ t.pcieUp = false ∧
        t.cmds = [] ∧ t.fetched = [] ∧ t.ports = [] ∧ t.egress = [] ∧ t.boot.memTodo = true ∧ t.dev = s.dev)) ∧
      (s.bootStep < 4 → Gives .perstAssert s (fun t => t = { s with boot := { b with perstLow := true } }))) ∧
    (b.perstLow = true → s.dev ≠ devOff → s.bootStep = 3 → b.vrPg.length = 3 → Gives .perstRelease s (fun t => t.dev = devBoot ∧
      t.bootStep = 4 ∧ t.boot.perstLow = false ∧ t.fld SEC_STAT 7 6 = b.kind % 4 ∧
      (∀ p < 32, (s.reg (PORT_CTRL p)).getLsbD 0 = true → t.portSt p = pDown))) ∧
    (∀ k, k < b.vrEn → k ∈ b.vrPg → Gives (.vrPgFall k) s cold) ∧
    (s.dev ≠ devOff → Gives .refclkLoss s cold ∧ (∀ sensor < 88, ∀ r, 460 ≤ r →
      Gives (.thermtrip sensor r) s (fun t => cold t ∧ t.boot.tripped = true))) ∧
    Gives .packagePowerLoss s (fun t => cold t ∧ t.boot.tripped = false ∧ t.boot.sysRstLow = true) ∧
    (s.dev ≠ devOff → 4 ≤ s.bootStep → b.perstLow = false → exec .pcieLinkUp s = .next { s with pcieUp := true }) ∧
    exec .pcieLinkDown s = .next { s with pcieUp := false } ∧
    (∀ x y z, s.pcieUp = true → exec (.pcieConfigWrite x y z) s = .next { s with busMaster := x, inD0 := y, d3hot := z && !y }) ∧
    (∀ x y, s.dev ≠ devOff → exec (.usbConfigurationChange x y) s = .next { s with usbUp := x && !y })

/-! ## The whole machine -/

/-- The state after reset. -/
def Obligations.ResetMeetsInvariant : Prop :=
  State.reset.Inv ∧ State.reset.pending = [] ∧ State.reset.dev = devBoot ∧ State.reset.bootStep = 0 ∧ State.reset.cmds = [] ∧
    State.reset.posting = [] ∧ State.reset.disp = [] ∧ Memory.wf State.reset.dmem ∧ Memory.wf State.reset.hmem ∧
    (∀ q < 64, State.reset.qState q = qDisabled)

/-- The invariant is kept by every step. -/
def Obligations.StepKeepsInvariant : Prop := ∀ (s t : State), s.Inv → step s = .next t → t.Inv

/-- The frame of every command. -/
def Obligations.CommandsLeaveTheRest : Prop :=
  ∀ (i : Instr) (s t : State), exec i s = .next t → ∀ p ∈ leaves i, Part.Same s t p

/-- SETP, SGSEED, LOOP, BR, WAITC. -/
def Obligations.SequencingLeavesMemories : Prop :=
  ∀ (i : Instr) (c : Nat) (s t : State), sequencing i = some c → exec i s = .next t →
    let k := s.core c
    let k' := t.core c
    k'.am = k.am ∧ k'.pm = k.pm ∧ k'.wm = k.wm ∧ k'.acm = k.acm ∧ k'.pages = k.pages ∧ k'.amErr = k.amErr ∧ k'.pmErr = k.pmErr ∧
      k'.wmErr = k.wmErr ∧ k'.acmErr = k.acmErr ∧ k'.imem = k.imem ∧ (∀ n < 256, k'.handle c n = k.handle c n) ∧
      t.dmem = s.dmem ∧ t.hmem = s.hmem ∧ (∀ d, d ≠ c → t.core d = s.core d)

/-- Reads and writes of ledge memory and tiers. -/
def Obligations.DeviceMemoryReadsBack : Prop :=
  ∀ (s : State) (a : Nat) (data : List Byte) (n : Nat),
    (Clean s a data.length →
      let r := s.memWrite a data
      r.1 = stOk ∧ Mem.read r.2.dmem a data.length = data ∧ (∀ b, b < a ∨ a + data.length ≤ b → Mem.byte r.2.dmem b = Mem.byte s.dmem b) ∧
        Clean r.2 a data.length ∧ (∀ b, b ≠ MEM_T1_EDC → r.2.reg b = s.reg b) ∧ r.2.cores = s.cores ∧ r.2.hmem = s.hmem) ∧
    (Clean s a n → (s.memRead a n).1 = stOk ∧ (s.memRead a n).2.1 = Mem.read s.dmem a n ∧ (s.memRead a n).2.2.dmem = s.dmem ∧
      (∀ b, b ≠ MEM_T1_EDC → (s.memRead a n).2.2.reg b = s.reg b)) ∧
    (∀ u, 64 * u < 0x2D00000000 → a = 64 * u → 4 ≤ Tab.get (fun _ => 0) s.edcFaults u → (s.memRead a 64).1 = stUncorrectable ∧
      (s.memRead a 64).2.2.fld MEM_T1_EDC 31 16 = min (s.fld MEM_T1_EDC 31 16 + 1) 65535) ∧
    ((∃ u ∈ s.eccUnits a n, s.unitErr a u ≠ 0 ∧ correctable (s.unitErr a u) = false) →
      (s.memRead a n).1 = stUncorrectable ∧ (s.memRead a n).2.1 = [] ∧ (s.memRead a n).2.2.dmem = s.dmem) ∧
    ((s.addrKind a = .tier1 ∨ s.addrKind a = .tier2) → 0 < data.length → data.length < 64 → a / 64 = (a + data.length - 1) / 64 →
      s.unitErr a (a / 64) ≠ 0 → correctable (s.unitErr a (a / 64)) = false →
      (s.memWrite a data).1 = stUncorrectable ∧ (s.memWrite a data).2.dmem = s.dmem ∧ (s.memWrite a data).2.rowErr = s.rowErr)

/-- Where a waiting frame would leave. -/
def Obligations.FramesGoByDimension : Prop :=
  ∀ (s : State) (e : Egress) (p vc : Nat), e.out = none → ((s.reg FAB_ROUTE).getLsbD 0 = false ∨ e.frame.tc < 2) →
    s.hopOf e = some (p, vc) →
    let d := portDim p
    let n := s.fabSize d
    let c := coordAt s.devId d
    let to' := coordAt e.frame.dst d
    let up : Nat := (to' + n - c) % n
    let down : Nat := (c + n - to') % n
    p < 32 ∧ s.portSt p = pUp ∧ frameFlits e.frame ≤ s.creditsOf p (2 * e.frame.tc + vc) ∧
      c ≠ to' ∧ (∀ d' < d, coordAt s.devId d' = coordAt e.frame.dst d') ∧
      ((∀ x ∈ s.broken, x.1 ≠ d) → (portPlus p = true ↔ up ≤ down)) ∧
      (∀ l, s.broken = [(d, l)] → l ∈ linksPlus n c to' → l ∉ linksMinus n c to' → portPlus p = false) ∧
      (vc = 1 ↔ (cameOnVc1 e d = true ∨ (portPlus p = true ∧ c = n - 1) ∨ (portPlus p = false ∧ (c + n - 1) % n = n - 1))) ∧ vc < 2

/-- ACC16, ACC32, ACC64 (R36), with the saturation through which a value enters (R37). -/
def Obligations.AccumulatorCodes : Prop :=
  ∀ w, (w = 16 ∨ w = 32 ∨ w = 64) →
    accCode w .pinf = 2 ^ (w - 1) - 1 ∧ accCode w .ninf = 2 ^ (w - 1) + 1 ∧ accCode w .nas = 2 ^ (w - 1) ∧
    accMax w = 2 ^ (w - 1) - 2 ∧
    (∀ n < 2 ^ w, accCode w (accValue w n) = n) ∧
    (∀ n < 2 ^ w, n ≠ 2 ^ (w - 1) - 1 → n ≠ 2 ^ (w - 1) + 1 → n ≠ 2 ^ (w - 1) →
      ∃ v : Int, accValue w n = .fin v ∧ -accMax w ≤ v ∧ v ≤ accMax w) ∧
    (∀ x : AV, (∀ v, x = .fin v → -accMax w ≤ v ∧ v ≤ accMax w) → accValue w (accCode w x) = x) ∧
    (∀ v : Int, accValue w (accCode w (accFit w v)) = if accMax w < v then .pinf else if v < -accMax w then .ninf else .fin v)
end

