-- ==== Sys2Proof/Laws/Tables.lean ====
section
/-!
SUPPORT. Tables and memories: what a read after a write gives, and the canonical form, which every write keeps.
-/

namespace Sys2Proof.Machine

variable {α : Type}

theorem Tab.find_filter (t : Tab α) (k : Nat) (p : Nat × α → Bool) (h : ∀ e ∈ t, e.1 = k → p e = true) :
    (t.filter p).find? (fun e => e.1 == k) = t.find? (fun e => e.1 == k) := by
  induction t with
  | nil => rfl
  | cons e es ih =>
    have hes : ∀ x ∈ es, x.1 = k → p x = true := fun x hx => h x (List.mem_cons_of_mem _ hx)
    by_cases hk : e.1 = k
    · have hp : p e = true := h e (List.mem_cons_self) hk
      simp [hp, hk]
    · by_cases hp : p e = true
      · simp [hp, hk, ih hes]
      · simp [hp, hk, ih hes]

theorem Tab.find_filter_none (t : Tab α) (k : Nat) (p : Nat × α → Bool) (h : ∀ e ∈ t, e.1 = k → p e = false) :
    (t.filter p).find? (fun e => e.1 == k) = none := by
  rw [List.find?_eq_none]
  intro e he
  have := List.mem_filter.mp he
  intro hk
  have hk' : e.1 = k := by simpa using hk
  simp [h e this.1 hk'] at this

theorem Tab.get_set_same [DecidableEq α] (d : Nat → α) (t : Tab α) (k : Nat) (v : α) : Tab.get d (Tab.set d t k v) k = v := by
  have h1 : (t.filter (fun e => decide (e.1 < k))).find? (fun e => e.1 == k) = none :=
    Tab.find_filter_none t k _ (fun e _ hk => by simp [hk])
  have h2 : (t.filter (fun e => decide (k < e.1))).find? (fun e => e.1 == k) = none :=
    Tab.find_filter_none t k _ (fun e _ hk => by simp [hk])
  unfold Tab.get Tab.set
  by_cases hv : v = d k
  · simp only [List.find?_append, h1, h2, hv, if_true, List.find?_nil, Option.none_or]
  · simp only [List.find?_append, h1, hv, if_false, Option.none_or, List.find?_cons, beq_self_eq_true, Option.some_or]

theorem Tab.get_set_other [DecidableEq α] (d : Nat → α) (t : Tab α) (k j : Nat) (v : α) (h : j ≠ k) :
    Tab.get d (Tab.set d t k v) j = Tab.get d t j := by
  have hm : (if v = d k then ([] : Tab α) else [(k, v)]).find? (fun e => e.1 == j) = none := by
    split <;> simp [Ne.symm h]
  unfold Tab.get Tab.set
  rcases Nat.lt_or_gt_of_ne h with hlt | hgt
  · have h1 := Tab.find_filter t j (fun e => decide (e.1 < k)) (fun e _ hk => by simp [hk, hlt])
    have h2 := Tab.find_filter_none t j (fun e => decide (k < e.1)) (fun e _ hk => by simp [hk]; omega)
    rw [List.find?_append, List.find?_append, h1, hm, h2, Option.or_none, Option.or_none]
  · have h1 := Tab.find_filter_none t j (fun e => decide (e.1 < k)) (fun e _ hk => by simp [hk]; omega)
    have h2 := Tab.find_filter t j (fun e => decide (k < e.1)) (fun e _ hk => by simp [hk]; omega)
    rw [List.find?_append, List.find?_append, h1, hm, h2, Option.none_or, Option.none_or]

/-- A read after a write. -/
theorem Tab.get_set [DecidableEq α] (d : Nat → α) (t : Tab α) (k j : Nat) (v : α) :
    Tab.get d (Tab.set d t k v) j = if j = k then v else Tab.get d t j := by
  split
  · next h => rw [h, Tab.get_set_same]
  · next h => rw [Tab.get_set_other d t k j v h]

/-- A write keeps the canonical form. -/
theorem Tab.set_wf [DecidableEq α] (d : Nat → α) (t : Tab α) (k : Nat) (v : α) (h : Tab.wf d t) : Tab.wf d (Tab.set d t k v) := by
  obtain ⟨hs, hd⟩ := h
  unfold Tab.wf Tab.set
  constructor
  · rw [List.pairwise_append, List.pairwise_append]
    refine ⟨⟨hs.filter _, ?_, ?_⟩, hs.filter _, ?_⟩
    · split <;> simp
    · intro a ha b hb
      have := (List.mem_filter.mp ha).2
      split at hb <;> simp_all
    · intro a ha b hb
      have hb' := (List.mem_filter.mp hb).2
      rcases List.mem_append.mp ha with ha | ha
      · have := (List.mem_filter.mp ha).2
        simp only [decide_eq_true_eq] at this hb'
        omega
      · split at ha <;> simp_all
  · intro e he
    rcases List.mem_append.mp he with he | he
    · rcases List.mem_append.mp he with he | he
      · exact hd e (List.mem_filter.mp he).1
      · split at he
        · simp at he
        · next hv =>
          have := List.mem_singleton.mp he
          subst this
          exact hv
    · exact hd e (List.mem_filter.mp he).1

/-- A second write to a key. -/
theorem Tab.set_set [DecidableEq α] (d : Nat → α) (t : Tab α) (k : Nat) (v w : α) :
    Tab.set d (Tab.set d t k v) k w = Tab.set d t k w := by
  have h1 : ∀ (x : α), (if x = d k then ([] : Tab α) else [(k, x)]).filter (fun e => decide (e.1 < k)) = [] := by
    intro x; split <;> simp
  have h2 : ∀ (x : α), (if x = d k then ([] : Tab α) else [(k, x)]).filter (fun e => decide (k < e.1)) = [] := by
    intro x; split <;> simp
  have h3 : (t.filter (fun e => decide (k < e.1))).filter (fun e => decide (e.1 < k)) = [] := by
    simp only [List.filter_filter, List.filter_eq_nil_iff, Bool.and_eq_true, decide_eq_true_eq, not_and]
    intro a _ _ h
    omega
  have h4 : (t.filter (fun e => decide (e.1 < k))).filter (fun e => decide (k < e.1)) = [] := by
    simp only [List.filter_filter, List.filter_eq_nil_iff, Bool.and_eq_true, decide_eq_true_eq, not_and]
    intro a _ _ h
    omega
  have h5 : ∀ p : Nat × α → Bool, (t.filter p).filter p = t.filter p := by intro p; simp [List.filter_filter]
  simp only [Tab.set, List.filter_append, h1, h2, h3, h4, h5, List.append_nil, List.nil_append]

/-- The empty table is canonical. -/
theorem Tab.nil_wf (d : Nat → α) : Tab.wf d ([] : Tab α) := ⟨List.Pairwise.nil, by simp⟩

/-! ## Memories -/

theorem Mem.byte_put (m : Mem) (a j : Nat) (b : Byte) : Mem.byte (Mem.put m a b) j = if j = a then b else Mem.byte m j :=
  Tab.get_set _ _ _ _ _

theorem Mem.put_wf (m : Mem) (a : Nat) (b : Byte) (h : Memory.wf m) : Memory.wf (Mem.put m a b) := Tab.set_wf _ _ _ _ h

/-- Every memory write keeps the canonical form. -/
theorem Mem.write_wf (bs : List Byte) : ∀ (m : Mem) (a : Nat), Memory.wf m → Memory.wf (Mem.write m a bs) := by
  induction bs with
  | nil => exact fun _ _ h => h
  | cons b bs ih => exact fun m a h => ih _ _ (Mem.put_wf m a b h)

theorem reset_dmem_wf : Memory.wf State.reset.dmem := Tab.nil_wf _

theorem reset_hmem_wf : Memory.wf State.reset.hmem := Tab.nil_wf _

/-! ## Registers and cores -/

@[simp] theorem State.reg_setReg (s : State) (a b : Nat) (v : W32) :
    (s.setReg a v).reg b = if b = a then v else s.reg b := Tab.get_set _ _ _ _ _

@[simp] theorem State.core_setCore (s : State) (c d : Nat) (k : CoreState) :
    (s.setCore c k).core d = if d = c then k else s.core d := Tab.get_set _ _ _ _ _

@[simp] theorem State.setCore_setCore (s : State) (c : Nat) (k k' : CoreState) :
    (s.setCore c k).setCore c k' = s.setCore c k' := by
  simp [State.setCore, Tab.set_set]

@[simp] theorem State.core_modCore (s : State) (c d : Nat) (f : CoreState → CoreState) :
    (s.modCore c f).core d = if d = c then f (s.core c) else s.core d := State.core_setCore _ _ _ _

end Sys2Proof.Machine
end

