-- ==== Sys2Proof/Laws/State.lean ====
section
/-!
SUPPORT. The fields of State after each plain update, one lemma a field; what the frames of Ops.lean answer.
-/

namespace Sys2Proof.Machine

/-! ## setReg -/

@[simp] theorem State.setReg_pending (s : State) (a : Nat) (v : W32) : (s.setReg a v).pending = s.pending := rfl
@[simp] theorem State.setReg_now (s : State) (a : Nat) (v : W32) : (s.setReg a v).now = s.now := rfl
@[simp] theorem State.setReg_free (s : State) (a : Nat) (v : W32) : (s.setReg a v).free = s.free := rfl
@[simp] theorem State.setReg_cores (s : State) (a : Nat) (v : W32) : (s.setReg a v).cores = s.cores := rfl
@[simp] theorem State.setReg_dmem (s : State) (a : Nat) (v : W32) : (s.setReg a v).dmem = s.dmem := rfl
@[simp] theorem State.setReg_disks (s : State) (a : Nat) (v : W32) : (s.setReg a v).disks = s.disks := rfl
@[simp] theorem State.setReg_ledgeErr (s : State) (a : Nat) (v : W32) : (s.setReg a v).ledgeErr = s.ledgeErr := rfl
@[simp] theorem State.setReg_ledgeRows (s : State) (a : Nat) (v : W32) : (s.setReg a v).ledgeRows = s.ledgeRows := rfl
@[simp] theorem State.setReg_rowErr (s : State) (a : Nat) (v : W32) : (s.setReg a v).rowErr = s.rowErr := rfl
@[simp] theorem State.setReg_edcFaults (s : State) (a : Nat) (v : W32) : (s.setReg a v).edcFaults = s.edcFaults := rfl
@[simp] theorem State.setReg_badWords (s : State) (a : Nat) (v : W32) : (s.setReg a v).badWords = s.badWords := rfl
@[simp] theorem State.setReg_hmem (s : State) (a : Nat) (v : W32) : (s.setReg a v).hmem = s.hmem := rfl
@[simp] theorem State.setReg_atoms (s : State) (a : Nat) (v : W32) : (s.setReg a v).atoms = s.atoms := rfl
@[simp] theorem State.setReg_atomResps (s : State) (a : Nat) (v : W32) : (s.setReg a v).atomResps = s.atomResps := rfl
@[simp] theorem State.setReg_doorbells (s : State) (a : Nat) (v : W32) : (s.setReg a v).doorbells = s.doorbells := rfl
@[simp] theorem State.setReg_completes (s : State) (a : Nat) (v : W32) : (s.setReg a v).completes = s.completes := rfl
@[simp] theorem State.setReg_barriers (s : State) (a : Nat) (v : W32) : (s.setReg a v).barriers = s.barriers := rfl
@[simp] theorem State.setReg_lists (s : State) (a : Nat) (v : W32) : (s.setReg a v).lists = s.lists := rfl
@[simp] theorem State.setReg_cmds (s : State) (a : Nat) (v : W32) : (s.setReg a v).cmds = s.cmds := rfl
@[simp] theorem State.setReg_nextCmd (s : State) (a : Nat) (v : W32) : (s.setReg a v).nextCmd = s.nextCmd := rfl
@[simp] theorem State.setReg_log (s : State) (a : Nat) (v : W32) : (s.setReg a v).log = s.log := rfl
@[simp] theorem State.setReg_vecReq (s : State) (a : Nat) (v : W32) : (s.setReg a v).vecReq = s.vecReq := rfl
@[simp] theorem State.setReg_fenceDue (s : State) (a : Nat) (v : W32) : (s.setReg a v).fenceDue = s.fenceDue := rfl
@[simp] theorem State.setReg_remoteReqs (s : State) (a : Nat) (v : W32) : (s.setReg a v).remoteReqs = s.remoteReqs := rfl
@[simp] theorem State.setReg_egress (s : State) (a : Nat) (v : W32) : (s.setReg a v).egress = s.egress := rfl
@[simp] theorem State.setReg_latches (s : State) (a : Nat) (v : W32) : (s.setReg a v).latches = s.latches := rfl
@[simp] theorem State.setReg_imemLatch (s : State) (a : Nat) (v : W32) : (s.setReg a v).imemLatch = s.imemLatch := rfl
@[simp] theorem State.setReg_logLatch (s : State) (a : Nat) (v : W32) : (s.setReg a v).logLatch = s.logLatch := rfl
@[simp] theorem State.setReg_readData (s : State) (a : Nat) (v : W32) : (s.setReg a v).readData = s.readData := rfl
@[simp] theorem State.setReg_bootStep (s : State) (a : Nat) (v : W32) : (s.setReg a v).bootStep = s.bootStep := rfl
@[simp] theorem State.setReg_pcieUp (s : State) (a : Nat) (v : W32) : (s.setReg a v).pcieUp = s.pcieUp := rfl
@[simp] theorem State.setReg_meshOut (s : State) (a : Nat) (v : W32) : (s.setReg a v).meshOut = s.meshOut := rfl
@[simp] theorem State.setReg_debugSeen (s : State) (a : Nat) (v : W32) : (s.setReg a v).debugSeen = s.debugSeen := rfl
@[simp] theorem State.setReg_fetched (s : State) (a : Nat) (v : W32) : (s.setReg a v).fetched = s.fetched := rfl
@[simp] theorem State.setReg_deferNo (s : State) (a : Nat) (v : W32) : (s.setReg a v).deferNo = s.deferNo := rfl
@[simp] theorem State.setReg_posting (s : State) (a : Nat) (v : W32) : (s.setReg a v).posting = s.posting := rfl
@[simp] theorem State.setReg_pend (s : State) (a : Nat) (v : W32) : (s.setReg a v).pend = s.pend := rfl
@[simp] theorem State.setReg_pendFrom (s : State) (a : Nat) (v : W32) : (s.setReg a v).pendFrom = s.pendFrom := rfl
@[simp] theorem State.setReg_qEnding (s : State) (a : Nat) (v : W32) : (s.setReg a v).qEnding = s.qEnding := rfl
@[simp] theorem State.setReg_cpTurn (s : State) (a : Nat) (v : W32) : (s.setReg a v).cpTurn = s.cpTurn := rfl
@[simp] theorem State.setReg_phase (s : State) (a : Nat) (v : W32) : (s.setReg a v).phase = s.phase := rfl
@[simp] theorem State.setReg_unsig (s : State) (a : Nat) (v : W32) : (s.setReg a v).unsig = s.unsig := rfl
@[simp] theorem State.setReg_msixOut (s : State) (a : Nat) (v : W32) : (s.setReg a v).msixOut = s.msixOut := rfl
@[simp] theorem State.setReg_busMaster (s : State) (a : Nat) (v : W32) : (s.setReg a v).busMaster = s.busMaster := rfl
@[simp] theorem State.setReg_inD0 (s : State) (a : Nat) (v : W32) : (s.setReg a v).inD0 = s.inD0 := rfl
@[simp] theorem State.setReg_d3hot (s : State) (a : Nat) (v : W32) : (s.setReg a v).d3hot = s.d3hot := rfl
@[simp] theorem State.setReg_usbUp (s : State) (a : Nat) (v : W32) : (s.setReg a v).usbUp = s.usbUp := rfl
@[simp] theorem State.setReg_usbSq (s : State) (a : Nat) (v : W32) : (s.setReg a v).usbSq = s.usbSq := rfl
@[simp] theorem State.setReg_usbCq (s : State) (a : Nat) (v : W32) : (s.setReg a v).usbCq = s.usbCq := rfl
@[simp] theorem State.setReg_bmcSq (s : State) (a : Nat) (v : W32) : (s.setReg a v).bmcSq = s.bmcSq := rfl
@[simp] theorem State.setReg_bmcCq (s : State) (a : Nat) (v : W32) : (s.setReg a v).bmcCq = s.bmcCq := rfl
@[simp] theorem State.setReg_pairPosted (s : State) (a : Nat) (v : W32) : (s.setReg a v).pairPosted = s.pairPosted := rfl
@[simp] theorem State.setReg_pairHead (s : State) (a : Nat) (v : W32) : (s.setReg a v).pairHead = s.pairHead := rfl
@[simp] theorem State.setReg_usbOut (s : State) (a : Nat) (v : W32) : (s.setReg a v).usbOut = s.usbOut := rfl
@[simp] theorem State.setReg_usbNotes (s : State) (a : Nat) (v : W32) : (s.setReg a v).usbNotes = s.usbNotes := rfl
@[simp] theorem State.setReg_softReset (s : State) (a : Nat) (v : W32) : (s.setReg a v).softReset = s.softReset := rfl
@[simp] theorem State.setReg_softPosted (s : State) (a : Nat) (v : W32) : (s.setReg a v).softPosted = s.softPosted := rfl
@[simp] theorem State.setReg_renumber (s : State) (a : Nat) (v : W32) : (s.setReg a v).renumber = s.renumber := rfl
@[simp] theorem State.setReg_serve (s : State) (a : Nat) (v : W32) : (s.setReg a v).serve = s.serve := rfl
@[simp] theorem State.setReg_cpIn (s : State) (a : Nat) (v : W32) : (s.setReg a v).cpIn = s.cpIn := rfl
@[simp] theorem State.setReg_cpRows (s : State) (a : Nat) (v : W32) : (s.setReg a v).cpRows = s.cpRows := rfl
@[simp] theorem State.setReg_disp (s : State) (a : Nat) (v : W32) : (s.setReg a v).disp = s.disp := rfl
@[simp] theorem State.setReg_lastLayer (s : State) (a : Nat) (v : W32) : (s.setReg a v).lastLayer = s.lastLayer := rfl
@[simp] theorem State.setReg_preds (s : State) (a : Nat) (v : W32) : (s.setReg a v).preds = s.preds := rfl
@[simp] theorem State.setReg_wloads (s : State) (a : Nat) (v : W32) : (s.setReg a v).wloads = s.wloads := rfl
@[simp] theorem State.setReg_staging (s : State) (a : Nat) (v : W32) : (s.setReg a v).staging = s.staging := rfl
@[simp] theorem State.setReg_rings (s : State) (a : Nat) (v : W32) : (s.setReg a v).rings = s.rings := rfl
@[simp] theorem State.setReg_backlog (s : State) (a : Nat) (v : W32) : (s.setReg a v).backlog = s.backlog := rfl
@[simp] theorem State.setReg_segEngine (s : State) (a : Nat) (v : W32) : (s.setReg a v).segEngine = s.segEngine := rfl
@[simp] theorem State.setReg_segSeq (s : State) (a : Nat) (v : W32) : (s.setReg a v).segSeq = s.segSeq := rfl
@[simp] theorem State.setReg_slices (s : State) (a : Nat) (v : W32) : (s.setReg a v).slices = s.slices := rfl
@[simp] theorem State.setReg_driveCmds (s : State) (a : Nat) (v : W32) : (s.setReg a v).driveCmds = s.driveCmds := rfl
@[simp] theorem State.setReg_drives (s : State) (a : Nat) (v : W32) : (s.setReg a v).drives = s.drives := rfl
@[simp] theorem State.setReg_logCount (s : State) (a : Nat) (v : W32) : (s.setReg a v).logCount = s.logCount := rfl
@[simp] theorem State.setReg_logCopied (s : State) (a : Nat) (v : W32) : (s.setReg a v).logCopied = s.logCopied := rfl
@[simp] theorem State.setReg_dmaIn (s : State) (a : Nat) (v : W32) : (s.setReg a v).dmaIn = s.dmaIn := rfl
@[simp] theorem State.setReg_dmaRows (s : State) (a : Nat) (v : W32) : (s.setReg a v).dmaRows = s.dmaRows := rfl
@[simp] theorem State.setReg_bar2Out (s : State) (a : Nat) (v : W32) : (s.setReg a v).bar2Out = s.bar2Out := rfl
@[simp] theorem State.setReg_mbxSince (s : State) (a : Nat) (v : W32) : (s.setReg a v).mbxSince = s.mbxSince := rfl
@[simp] theorem State.setReg_mbxBell (s : State) (a : Nat) (v : W32) : (s.setReg a v).mbxBell = s.mbxBell := rfl
@[simp] theorem State.setReg_flash (s : State) (a : Nat) (v : W32) : (s.setReg a v).flash = s.flash := rfl
@[simp] theorem State.setReg_selector (s : State) (a : Nat) (v : W32) : (s.setReg a v).selector = s.selector := rfl
@[simp] theorem State.setReg_akGen (s : State) (a : Nat) (v : W32) : (s.setReg a v).akGen = s.akGen := rfl
@[simp] theorem State.setReg_recovery (s : State) (a : Nat) (v : W32) : (s.setReg a v).recovery = s.recovery := rfl
@[simp] theorem State.setReg_inbox (s : State) (a : Nat) (v : W32) : (s.setReg a v).inbox = s.inbox := rfl
@[simp] theorem State.setReg_arrivals (s : State) (a : Nat) (v : W32) : (s.setReg a v).arrivals = s.arrivals := rfl
@[simp] theorem State.setReg_ports (s : State) (a : Nat) (v : W32) : (s.setReg a v).ports = s.ports := rfl
@[simp] theorem State.setReg_fabOut (s : State) (a : Nat) (v : W32) : (s.setReg a v).fabOut = s.fabOut := rfl
@[simp] theorem State.setReg_cpBad (s : State) (a : Nat) (v : W32) : (s.setReg a v).cpBad = s.cpBad := rfl
@[simp] theorem State.setReg_broken (s : State) (a : Nat) (v : W32) : (s.setReg a v).broken = s.broken := rfl
@[simp] theorem State.setReg_wave (s : State) (a : Nat) (v : W32) : (s.setReg a v).wave = s.wave := rfl
@[simp] theorem State.setReg_suspects (s : State) (a : Nat) (v : W32) : (s.setReg a v).suspects = s.suspects := rfl
@[simp] theorem State.setReg_holds (s : State) (a : Nat) (v : W32) : (s.setReg a v).holds = s.holds := rfl
@[simp] theorem State.setReg_collect (s : State) (a : Nat) (v : W32) : (s.setReg a v).collect = s.collect := rfl
@[simp] theorem State.setReg_telLive (s : State) (a : Nat) (v : W32) : (s.setReg a v).telLive = s.telLive := rfl
@[simp] theorem State.setReg_pwr (s : State) (a : Nat) (v : W32) : (s.setReg a v).pwr = s.pwr := rfl
@[simp] theorem State.setReg_rope (s : State) (a : Nat) (v : W32) : (s.setReg a v).rope = s.rope := rfl
@[simp] theorem State.setReg_boot (s : State) (a : Nat) (v : W32) : (s.setReg a v).boot = s.boot := rfl
@[simp] theorem State.setReg_mpDown (s : State) (a : Nat) (v : W32) : (s.setReg a v).mpDown = s.mpDown := rfl
@[simp] theorem State.setReg_mpReload (s : State) (a : Nat) (v : W32) : (s.setReg a v).mpReload = s.mpReload := rfl
@[simp] theorem State.setReg_polls (s : State) (a : Nat) (v : W32) : (s.setReg a v).polls = s.polls := rfl
@[simp] theorem State.setReg_polled (s : State) (a : Nat) (v : W32) : (s.setReg a v).polled = s.polled := rfl
@[simp] theorem State.setReg_sparing (s : State) (a : Nat) (v : W32) : (s.setReg a v).sparing = s.sparing := rfl
@[simp] theorem State.setReg_cairnDue (s : State) (a : Nat) (v : W32) : (s.setReg a v).cairnDue = s.cairnDue := rfl
@[simp] theorem State.setReg_fieldRepairs (s : State) (a : Nat) (v : W32) : (s.setReg a v).fieldRepairs = s.fieldRepairs := rfl
@[simp] theorem State.setReg_svns (s : State) (a : Nat) (v : W32) : (s.setReg a v).svns = s.svns := rfl
@[simp] theorem State.setReg_ropeList (s : State) (a : Nat) (v : W32) : (s.setReg a v).ropeList = s.ropeList := rfl

/-! ## setCore -/

@[simp] theorem State.setCore_pending (s : State) (c : Nat) (k : CoreState) : (s.setCore c k).pending = s.pending := rfl
@[simp] theorem State.setCore_now (s : State) (c : Nat) (k : CoreState) : (s.setCore c k).now = s.now := rfl
@[simp] theorem State.setCore_free (s : State) (c : Nat) (k : CoreState) : (s.setCore c k).free = s.free := rfl
@[simp] theorem State.setCore_regs (s : State) (c : Nat) (k : CoreState) : (s.setCore c k).regs = s.regs := rfl
@[simp] theorem State.setCore_dmem (s : State) (c : Nat) (k : CoreState) : (s.setCore c k).dmem = s.dmem := rfl
@[simp] theorem State.setCore_disks (s : State) (c : Nat) (k : CoreState) : (s.setCore c k).disks = s.disks := rfl
@[simp] theorem State.setCore_ledgeErr (s : State) (c : Nat) (k : CoreState) : (s.setCore c k).ledgeErr = s.ledgeErr := rfl
@[simp] theorem State.setCore_ledgeRows (s : State) (c : Nat) (k : CoreState) : (s.setCore c k).ledgeRows = s.ledgeRows := rfl
@[simp] theorem State.setCore_rowErr (s : State) (c : Nat) (k : CoreState) : (s.setCore c k).rowErr = s.rowErr := rfl
@[simp] theorem State.setCore_edcFaults (s : State) (c : Nat) (k : CoreState) : (s.setCore c k).edcFaults = s.edcFaults := rfl
@[simp] theorem State.setCore_badWords (s : State) (c : Nat) (k : CoreState) : (s.setCore c k).badWords = s.badWords := rfl
@[simp] theorem State.setCore_hmem (s : State) (c : Nat) (k : CoreState) : (s.setCore c k).hmem = s.hmem := rfl
@[simp] theorem State.setCore_atoms (s : State) (c : Nat) (k : CoreState) : (s.setCore c k).atoms = s.atoms := rfl
@[simp] theorem State.setCore_atomResps (s : State) (c : Nat) (k : CoreState) : (s.setCore c k).atomResps = s.atomResps := rfl
@[simp] theorem State.setCore_doorbells (s : State) (c : Nat) (k : CoreState) : (s.setCore c k).doorbells = s.doorbells := rfl
@[simp] theorem State.setCore_completes (s : State) (c : Nat) (k : CoreState) : (s.setCore c k).completes = s.completes := rfl
@[simp] theorem State.setCore_barriers (s : State) (c : Nat) (k : CoreState) : (s.setCore c k).barriers = s.barriers := rfl
@[simp] theorem State.setCore_lists (s : State) (c : Nat) (k : CoreState) : (s.setCore c k).lists = s.lists := rfl
@[simp] theorem State.setCore_cmds (s : State) (c : Nat) (k : CoreState) : (s.setCore c k).cmds = s.cmds := rfl
@[simp] theorem State.setCore_nextCmd (s : State) (c : Nat) (k : CoreState) : (s.setCore c k).nextCmd = s.nextCmd := rfl
@[simp] theorem State.setCore_log (s : State) (c : Nat) (k : CoreState) : (s.setCore c k).log = s.log := rfl
@[simp] theorem State.setCore_vecReq (s : State) (c : Nat) (k : CoreState) : (s.setCore c k).vecReq = s.vecReq := rfl
@[simp] theorem State.setCore_fenceDue (s : State) (c : Nat) (k : CoreState) : (s.setCore c k).fenceDue = s.fenceDue := rfl
@[simp] theorem State.setCore_remoteReqs (s : State) (c : Nat) (k : CoreState) : (s.setCore c k).remoteReqs = s.remoteReqs := rfl
@[simp] theorem State.setCore_egress (s : State) (c : Nat) (k : CoreState) : (s.setCore c k).egress = s.egress := rfl
@[simp] theorem State.setCore_latches (s : State) (c : Nat) (k : CoreState) : (s.setCore c k).latches = s.latches := rfl
@[simp] theorem State.setCore_imemLatch (s : State) (c : Nat) (k : CoreState) : (s.setCore c k).imemLatch = s.imemLatch := rfl
@[simp] theorem State.setCore_logLatch (s : State) (c : Nat) (k : CoreState) : (s.setCore c k).logLatch = s.logLatch := rfl
@[simp] theorem State.setCore_readData (s : State) (c : Nat) (k : CoreState) : (s.setCore c k).readData = s.readData := rfl
@[simp] theorem State.setCore_bootStep (s : State) (c : Nat) (k : CoreState) : (s.setCore c k).bootStep = s.bootStep := rfl
@[simp] theorem State.setCore_pcieUp (s : State) (c : Nat) (k : CoreState) : (s.setCore c k).pcieUp = s.pcieUp := rfl
@[simp] theorem State.setCore_meshOut (s : State) (c : Nat) (k : CoreState) : (s.setCore c k).meshOut = s.meshOut := rfl
@[simp] theorem State.setCore_debugSeen (s : State) (c : Nat) (k : CoreState) : (s.setCore c k).debugSeen = s.debugSeen := rfl
@[simp] theorem State.setCore_fetched (s : State) (c : Nat) (k : CoreState) : (s.setCore c k).fetched = s.fetched := rfl
@[simp] theorem State.setCore_deferNo (s : State) (c : Nat) (k : CoreState) : (s.setCore c k).deferNo = s.deferNo := rfl
@[simp] theorem State.setCore_posting (s : State) (c : Nat) (k : CoreState) : (s.setCore c k).posting = s.posting := rfl
@[simp] theorem State.setCore_pend (s : State) (c : Nat) (k : CoreState) : (s.setCore c k).pend = s.pend := rfl
@[simp] theorem State.setCore_pendFrom (s : State) (c : Nat) (k : CoreState) : (s.setCore c k).pendFrom = s.pendFrom := rfl
@[simp] theorem State.setCore_qEnding (s : State) (c : Nat) (k : CoreState) : (s.setCore c k).qEnding = s.qEnding := rfl
@[simp] theorem State.setCore_cpTurn (s : State) (c : Nat) (k : CoreState) : (s.setCore c k).cpTurn = s.cpTurn := rfl
@[simp] theorem State.setCore_phase (s : State) (c : Nat) (k : CoreState) : (s.setCore c k).phase = s.phase := rfl
@[simp] theorem State.setCore_unsig (s : State) (c : Nat) (k : CoreState) : (s.setCore c k).unsig = s.unsig := rfl
@[simp] theorem State.setCore_msixOut (s : State) (c : Nat) (k : CoreState) : (s.setCore c k).msixOut = s.msixOut := rfl
@[simp] theorem State.setCore_busMaster (s : State) (c : Nat) (k : CoreState) : (s.setCore c k).busMaster = s.busMaster := rfl
@[simp] theorem State.setCore_inD0 (s : State) (c : Nat) (k : CoreState) : (s.setCore c k).inD0 = s.inD0 := rfl
@[simp] theorem State.setCore_d3hot (s : State) (c : Nat) (k : CoreState) : (s.setCore c k).d3hot = s.d3hot := rfl
@[simp] theorem State.setCore_usbUp (s : State) (c : Nat) (k : CoreState) : (s.setCore c k).usbUp = s.usbUp := rfl
@[simp] theorem State.setCore_usbSq (s : State) (c : Nat) (k : CoreState) : (s.setCore c k).usbSq = s.usbSq := rfl
@[simp] theorem State.setCore_usbCq (s : State) (c : Nat) (k : CoreState) : (s.setCore c k).usbCq = s.usbCq := rfl
@[simp] theorem State.setCore_bmcSq (s : State) (c : Nat) (k : CoreState) : (s.setCore c k).bmcSq = s.bmcSq := rfl
@[simp] theorem State.setCore_bmcCq (s : State) (c : Nat) (k : CoreState) : (s.setCore c k).bmcCq = s.bmcCq := rfl
@[simp] theorem State.setCore_pairPosted (s : State) (c : Nat) (k : CoreState) : (s.setCore c k).pairPosted = s.pairPosted := rfl
@[simp] theorem State.setCore_pairHead (s : State) (c : Nat) (k : CoreState) : (s.setCore c k).pairHead = s.pairHead := rfl
@[simp] theorem State.setCore_usbOut (s : State) (c : Nat) (k : CoreState) : (s.setCore c k).usbOut = s.usbOut := rfl
@[simp] theorem State.setCore_usbNotes (s : State) (c : Nat) (k : CoreState) : (s.setCore c k).usbNotes = s.usbNotes := rfl
@[simp] theorem State.setCore_softReset (s : State) (c : Nat) (k : CoreState) : (s.setCore c k).softReset = s.softReset := rfl
@[simp] theorem State.setCore_softPosted (s : State) (c : Nat) (k : CoreState) : (s.setCore c k).softPosted = s.softPosted := rfl
@[simp] theorem State.setCore_renumber (s : State) (c : Nat) (k : CoreState) : (s.setCore c k).renumber = s.renumber := rfl
@[simp] theorem State.setCore_serve (s : State) (c : Nat) (k : CoreState) : (s.setCore c k).serve = s.serve := rfl
@[simp] theorem State.setCore_cpIn (s : State) (c : Nat) (k : CoreState) : (s.setCore c k).cpIn = s.cpIn := rfl
@[simp] theorem State.setCore_cpRows (s : State) (c : Nat) (k : CoreState) : (s.setCore c k).cpRows = s.cpRows := rfl
@[simp] theorem State.setCore_disp (s : State) (c : Nat) (k : CoreState) : (s.setCore c k).disp = s.disp := rfl
@[simp] theorem State.setCore_lastLayer (s : State) (c : Nat) (k : CoreState) : (s.setCore c k).lastLayer = s.lastLayer := rfl
@[simp] theorem State.setCore_preds (s : State) (c : Nat) (k : CoreState) : (s.setCore c k).preds = s.preds := rfl
@[simp] theorem State.setCore_wloads (s : State) (c : Nat) (k : CoreState) : (s.setCore c k).wloads = s.wloads := rfl
@[simp] theorem State.setCore_staging (s : State) (c : Nat) (k : CoreState) : (s.setCore c k).staging = s.staging := rfl
@[simp] theorem State.setCore_rings (s : State) (c : Nat) (k : CoreState) : (s.setCore c k).rings = s.rings := rfl
@[simp] theorem State.setCore_backlog (s : State) (c : Nat) (k : CoreState) : (s.setCore c k).backlog = s.backlog := rfl
@[simp] theorem State.setCore_segEngine (s : State) (c : Nat) (k : CoreState) : (s.setCore c k).segEngine = s.segEngine := rfl
@[simp] theorem State.setCore_segSeq (s : State) (c : Nat) (k : CoreState) : (s.setCore c k).segSeq = s.segSeq := rfl
@[simp] theorem State.setCore_slices (s : State) (c : Nat) (k : CoreState) : (s.setCore c k).slices = s.slices := rfl
@[simp] theorem State.setCore_driveCmds (s : State) (c : Nat) (k : CoreState) : (s.setCore c k).driveCmds = s.driveCmds := rfl
@[simp] theorem State.setCore_drives (s : State) (c : Nat) (k : CoreState) : (s.setCore c k).drives = s.drives := rfl
@[simp] theorem State.setCore_logCount (s : State) (c : Nat) (k : CoreState) : (s.setCore c k).logCount = s.logCount := rfl
@[simp] theorem State.setCore_logCopied (s : State) (c : Nat) (k : CoreState) : (s.setCore c k).logCopied = s.logCopied := rfl
@[simp] theorem State.setCore_dmaIn (s : State) (c : Nat) (k : CoreState) : (s.setCore c k).dmaIn = s.dmaIn := rfl
@[simp] theorem State.setCore_dmaRows (s : State) (c : Nat) (k : CoreState) : (s.setCore c k).dmaRows = s.dmaRows := rfl
@[simp] theorem State.setCore_bar2Out (s : State) (c : Nat) (k : CoreState) : (s.setCore c k).bar2Out = s.bar2Out := rfl
@[simp] theorem State.setCore_mbxSince (s : State) (c : Nat) (k : CoreState) : (s.setCore c k).mbxSince = s.mbxSince := rfl
@[simp] theorem State.setCore_mbxBell (s : State) (c : Nat) (k : CoreState) : (s.setCore c k).mbxBell = s.mbxBell := rfl
@[simp] theorem State.setCore_flash (s : State) (c : Nat) (k : CoreState) : (s.setCore c k).flash = s.flash := rfl
@[simp] theorem State.setCore_selector (s : State) (c : Nat) (k : CoreState) : (s.setCore c k).selector = s.selector := rfl
@[simp] theorem State.setCore_akGen (s : State) (c : Nat) (k : CoreState) : (s.setCore c k).akGen = s.akGen := rfl
@[simp] theorem State.setCore_recovery (s : State) (c : Nat) (k : CoreState) : (s.setCore c k).recovery = s.recovery := rfl
@[simp] theorem State.setCore_inbox (s : State) (c : Nat) (k : CoreState) : (s.setCore c k).inbox = s.inbox := rfl
@[simp] theorem State.setCore_arrivals (s : State) (c : Nat) (k : CoreState) : (s.setCore c k).arrivals = s.arrivals := rfl
@[simp] theorem State.setCore_ports (s : State) (c : Nat) (k : CoreState) : (s.setCore c k).ports = s.ports := rfl
@[simp] theorem State.setCore_fabOut (s : State) (c : Nat) (k : CoreState) : (s.setCore c k).fabOut = s.fabOut := rfl
@[simp] theorem State.setCore_cpBad (s : State) (c : Nat) (k : CoreState) : (s.setCore c k).cpBad = s.cpBad := rfl
@[simp] theorem State.setCore_broken (s : State) (c : Nat) (k : CoreState) : (s.setCore c k).broken = s.broken := rfl
@[simp] theorem State.setCore_wave (s : State) (c : Nat) (k : CoreState) : (s.setCore c k).wave = s.wave := rfl
@[simp] theorem State.setCore_suspects (s : State) (c : Nat) (k : CoreState) : (s.setCore c k).suspects = s.suspects := rfl
@[simp] theorem State.setCore_holds (s : State) (c : Nat) (k : CoreState) : (s.setCore c k).holds = s.holds := rfl
@[simp] theorem State.setCore_collect (s : State) (c : Nat) (k : CoreState) : (s.setCore c k).collect = s.collect := rfl
@[simp] theorem State.setCore_telLive (s : State) (c : Nat) (k : CoreState) : (s.setCore c k).telLive = s.telLive := rfl
@[simp] theorem State.setCore_pwr (s : State) (c : Nat) (k : CoreState) : (s.setCore c k).pwr = s.pwr := rfl
@[simp] theorem State.setCore_rope (s : State) (c : Nat) (k : CoreState) : (s.setCore c k).rope = s.rope := rfl
@[simp] theorem State.setCore_boot (s : State) (c : Nat) (k : CoreState) : (s.setCore c k).boot = s.boot := rfl
@[simp] theorem State.setCore_mpDown (s : State) (c : Nat) (k : CoreState) : (s.setCore c k).mpDown = s.mpDown := rfl
@[simp] theorem State.setCore_mpReload (s : State) (c : Nat) (k : CoreState) : (s.setCore c k).mpReload = s.mpReload := rfl
@[simp] theorem State.setCore_polls (s : State) (c : Nat) (k : CoreState) : (s.setCore c k).polls = s.polls := rfl
@[simp] theorem State.setCore_polled (s : State) (c : Nat) (k : CoreState) : (s.setCore c k).polled = s.polled := rfl
@[simp] theorem State.setCore_sparing (s : State) (c : Nat) (k : CoreState) : (s.setCore c k).sparing = s.sparing := rfl
@[simp] theorem State.setCore_cairnDue (s : State) (c : Nat) (k : CoreState) : (s.setCore c k).cairnDue = s.cairnDue := rfl
@[simp] theorem State.setCore_fieldRepairs (s : State) (c : Nat) (k : CoreState) : (s.setCore c k).fieldRepairs = s.fieldRepairs := rfl
@[simp] theorem State.setCore_svns (s : State) (c : Nat) (k : CoreState) : (s.setCore c k).svns = s.svns := rfl
@[simp] theorem State.setCore_ropeList (s : State) (c : Nat) (k : CoreState) : (s.setCore c k).ropeList = s.ropeList := rfl

/-! ## reach -/

@[simp] theorem State.reach_pending (s : State) (n : Nat) : (s.reach n).pending = s.pending := rfl
@[simp] theorem State.reach_free (s : State) (n : Nat) : (s.reach n).free = s.free := rfl
@[simp] theorem State.reach_regs (s : State) (n : Nat) : (s.reach n).regs = s.regs := rfl
@[simp] theorem State.reach_cores (s : State) (n : Nat) : (s.reach n).cores = s.cores := rfl
@[simp] theorem State.reach_dmem (s : State) (n : Nat) : (s.reach n).dmem = s.dmem := rfl
@[simp] theorem State.reach_disks (s : State) (n : Nat) : (s.reach n).disks = s.disks := rfl
@[simp] theorem State.reach_ledgeErr (s : State) (n : Nat) : (s.reach n).ledgeErr = s.ledgeErr := rfl
@[simp] theorem State.reach_ledgeRows (s : State) (n : Nat) : (s.reach n).ledgeRows = s.ledgeRows := rfl
@[simp] theorem State.reach_rowErr (s : State) (n : Nat) : (s.reach n).rowErr = s.rowErr := rfl
@[simp] theorem State.reach_edcFaults (s : State) (n : Nat) : (s.reach n).edcFaults = s.edcFaults := rfl
@[simp] theorem State.reach_badWords (s : State) (n : Nat) : (s.reach n).badWords = s.badWords := rfl
@[simp] theorem State.reach_hmem (s : State) (n : Nat) : (s.reach n).hmem = s.hmem := rfl
@[simp] theorem State.reach_atoms (s : State) (n : Nat) : (s.reach n).atoms = s.atoms := rfl
@[simp] theorem State.reach_atomResps (s : State) (n : Nat) : (s.reach n).atomResps = s.atomResps := rfl
@[simp] theorem State.reach_doorbells (s : State) (n : Nat) : (s.reach n).doorbells = s.doorbells := rfl
@[simp] theorem State.reach_completes (s : State) (n : Nat) : (s.reach n).completes = s.completes := rfl
@[simp] theorem State.reach_barriers (s : State) (n : Nat) : (s.reach n).barriers = s.barriers := rfl
@[simp] theorem State.reach_lists (s : State) (n : Nat) : (s.reach n).lists = s.lists := rfl
@[simp] theorem State.reach_cmds (s : State) (n : Nat) : (s.reach n).cmds = s.cmds := rfl
@[simp] theorem State.reach_nextCmd (s : State) (n : Nat) : (s.reach n).nextCmd = s.nextCmd := rfl
@[simp] theorem State.reach_log (s : State) (n : Nat) : (s.reach n).log = s.log := rfl
@[simp] theorem State.reach_vecReq (s : State) (n : Nat) : (s.reach n).vecReq = s.vecReq := rfl
@[simp] theorem State.reach_fenceDue (s : State) (n : Nat) : (s.reach n).fenceDue = s.fenceDue := rfl
@[simp] theorem State.reach_remoteReqs (s : State) (n : Nat) : (s.reach n).remoteReqs = s.remoteReqs := rfl
@[simp] theorem State.reach_egress (s : State) (n : Nat) : (s.reach n).egress = s.egress := rfl
@[simp] theorem State.reach_latches (s : State) (n : Nat) : (s.reach n).latches = s.latches := rfl
@[simp] theorem State.reach_imemLatch (s : State) (n : Nat) : (s.reach n).imemLatch = s.imemLatch := rfl
@[simp] theorem State.reach_logLatch (s : State) (n : Nat) : (s.reach n).logLatch = s.logLatch := rfl
@[simp] theorem State.reach_readData (s : State) (n : Nat) : (s.reach n).readData = s.readData := rfl
@[simp] theorem State.reach_bootStep (s : State) (n : Nat) : (s.reach n).bootStep = s.bootStep := rfl
@[simp] theorem State.reach_pcieUp (s : State) (n : Nat) : (s.reach n).pcieUp = s.pcieUp := rfl
@[simp] theorem State.reach_meshOut (s : State) (n : Nat) : (s.reach n).meshOut = s.meshOut := rfl
@[simp] theorem State.reach_debugSeen (s : State) (n : Nat) : (s.reach n).debugSeen = s.debugSeen := rfl
@[simp] theorem State.reach_fetched (s : State) (n : Nat) : (s.reach n).fetched = s.fetched := rfl
@[simp] theorem State.reach_deferNo (s : State) (n : Nat) : (s.reach n).deferNo = s.deferNo := rfl
@[simp] theorem State.reach_posting (s : State) (n : Nat) : (s.reach n).posting = s.posting := rfl
@[simp] theorem State.reach_pend (s : State) (n : Nat) : (s.reach n).pend = s.pend := rfl
@[simp] theorem State.reach_pendFrom (s : State) (n : Nat) : (s.reach n).pendFrom = s.pendFrom := rfl
@[simp] theorem State.reach_qEnding (s : State) (n : Nat) : (s.reach n).qEnding = s.qEnding := rfl
@[simp] theorem State.reach_cpTurn (s : State) (n : Nat) : (s.reach n).cpTurn = s.cpTurn := rfl
@[simp] theorem State.reach_phase (s : State) (n : Nat) : (s.reach n).phase = s.phase := rfl
@[simp] theorem State.reach_unsig (s : State) (n : Nat) : (s.reach n).unsig = s.unsig := rfl
@[simp] theorem State.reach_msixOut (s : State) (n : Nat) : (s.reach n).msixOut = s.msixOut := rfl
@[simp] theorem State.reach_busMaster (s : State) (n : Nat) : (s.reach n).busMaster = s.busMaster := rfl
@[simp] theorem State.reach_inD0 (s : State) (n : Nat) : (s.reach n).inD0 = s.inD0 := rfl
@[simp] theorem State.reach_d3hot (s : State) (n : Nat) : (s.reach n).d3hot = s.d3hot := rfl
@[simp] theorem State.reach_usbUp (s : State) (n : Nat) : (s.reach n).usbUp = s.usbUp := rfl
@[simp] theorem State.reach_usbSq (s : State) (n : Nat) : (s.reach n).usbSq = s.usbSq := rfl
@[simp] theorem State.reach_usbCq (s : State) (n : Nat) : (s.reach n).usbCq = s.usbCq := rfl
@[simp] theorem State.reach_bmcSq (s : State) (n : Nat) : (s.reach n).bmcSq = s.bmcSq := rfl
@[simp] theorem State.reach_bmcCq (s : State) (n : Nat) : (s.reach n).bmcCq = s.bmcCq := rfl
@[simp] theorem State.reach_pairPosted (s : State) (n : Nat) : (s.reach n).pairPosted = s.pairPosted := rfl
@[simp] theorem State.reach_pairHead (s : State) (n : Nat) : (s.reach n).pairHead = s.pairHead := rfl
@[simp] theorem State.reach_usbOut (s : State) (n : Nat) : (s.reach n).usbOut = s.usbOut := rfl
@[simp] theorem State.reach_usbNotes (s : State) (n : Nat) : (s.reach n).usbNotes = s.usbNotes := rfl
@[simp] theorem State.reach_softReset (s : State) (n : Nat) : (s.reach n).softReset = s.softReset := rfl
@[simp] theorem State.reach_softPosted (s : State) (n : Nat) : (s.reach n).softPosted = s.softPosted := rfl
@[simp] theorem State.reach_renumber (s : State) (n : Nat) : (s.reach n).renumber = s.renumber := rfl
@[simp] theorem State.reach_serve (s : State) (n : Nat) : (s.reach n).serve = s.serve := rfl
@[simp] theorem State.reach_cpIn (s : State) (n : Nat) : (s.reach n).cpIn = s.cpIn := rfl
@[simp] theorem State.reach_cpRows (s : State) (n : Nat) : (s.reach n).cpRows = s.cpRows := rfl
@[simp] theorem State.reach_disp (s : State) (n : Nat) : (s.reach n).disp = s.disp := rfl
@[simp] theorem State.reach_lastLayer (s : State) (n : Nat) : (s.reach n).lastLayer = s.lastLayer := rfl
@[simp] theorem State.reach_preds (s : State) (n : Nat) : (s.reach n).preds = s.preds := rfl
@[simp] theorem State.reach_wloads (s : State) (n : Nat) : (s.reach n).wloads = s.wloads := rfl
@[simp] theorem State.reach_staging (s : State) (n : Nat) : (s.reach n).staging = s.staging := rfl
@[simp] theorem State.reach_rings (s : State) (n : Nat) : (s.reach n).rings = s.rings := rfl
@[simp] theorem State.reach_backlog (s : State) (n : Nat) : (s.reach n).backlog = s.backlog := rfl
@[simp] theorem State.reach_segEngine (s : State) (n : Nat) : (s.reach n).segEngine = s.segEngine := rfl
@[simp] theorem State.reach_segSeq (s : State) (n : Nat) : (s.reach n).segSeq = s.segSeq := rfl
@[simp] theorem State.reach_slices (s : State) (n : Nat) : (s.reach n).slices = s.slices := rfl
@[simp] theorem State.reach_driveCmds (s : State) (n : Nat) : (s.reach n).driveCmds = s.driveCmds := rfl
@[simp] theorem State.reach_drives (s : State) (n : Nat) : (s.reach n).drives = s.drives := rfl
@[simp] theorem State.reach_logCount (s : State) (n : Nat) : (s.reach n).logCount = s.logCount := rfl
@[simp] theorem State.reach_logCopied (s : State) (n : Nat) : (s.reach n).logCopied = s.logCopied := rfl
@[simp] theorem State.reach_dmaIn (s : State) (n : Nat) : (s.reach n).dmaIn = s.dmaIn := rfl
@[simp] theorem State.reach_dmaRows (s : State) (n : Nat) : (s.reach n).dmaRows = s.dmaRows := rfl
@[simp] theorem State.reach_bar2Out (s : State) (n : Nat) : (s.reach n).bar2Out = s.bar2Out := rfl
@[simp] theorem State.reach_mbxSince (s : State) (n : Nat) : (s.reach n).mbxSince = s.mbxSince := rfl
@[simp] theorem State.reach_mbxBell (s : State) (n : Nat) : (s.reach n).mbxBell = s.mbxBell := rfl
@[simp] theorem State.reach_flash (s : State) (n : Nat) : (s.reach n).flash = s.flash := rfl
@[simp] theorem State.reach_selector (s : State) (n : Nat) : (s.reach n).selector = s.selector := rfl
@[simp] theorem State.reach_akGen (s : State) (n : Nat) : (s.reach n).akGen = s.akGen := rfl
@[simp] theorem State.reach_recovery (s : State) (n : Nat) : (s.reach n).recovery = s.recovery := rfl
@[simp] theorem State.reach_inbox (s : State) (n : Nat) : (s.reach n).inbox = s.inbox := rfl
@[simp] theorem State.reach_arrivals (s : State) (n : Nat) : (s.reach n).arrivals = s.arrivals := rfl
@[simp] theorem State.reach_ports (s : State) (n : Nat) : (s.reach n).ports = s.ports := rfl
@[simp] theorem State.reach_fabOut (s : State) (n : Nat) : (s.reach n).fabOut = s.fabOut := rfl
@[simp] theorem State.reach_cpBad (s : State) (n : Nat) : (s.reach n).cpBad = s.cpBad := rfl
@[simp] theorem State.reach_broken (s : State) (n : Nat) : (s.reach n).broken = s.broken := rfl
@[simp] theorem State.reach_wave (s : State) (n : Nat) : (s.reach n).wave = s.wave := rfl
@[simp] theorem State.reach_suspects (s : State) (n : Nat) : (s.reach n).suspects = s.suspects := rfl
@[simp] theorem State.reach_holds (s : State) (n : Nat) : (s.reach n).holds = s.holds := rfl
@[simp] theorem State.reach_collect (s : State) (n : Nat) : (s.reach n).collect = s.collect := rfl
@[simp] theorem State.reach_telLive (s : State) (n : Nat) : (s.reach n).telLive = s.telLive := rfl
@[simp] theorem State.reach_pwr (s : State) (n : Nat) : (s.reach n).pwr = s.pwr := rfl
@[simp] theorem State.reach_rope (s : State) (n : Nat) : (s.reach n).rope = s.rope := rfl
@[simp] theorem State.reach_boot (s : State) (n : Nat) : (s.reach n).boot = s.boot := rfl
@[simp] theorem State.reach_mpDown (s : State) (n : Nat) : (s.reach n).mpDown = s.mpDown := rfl
@[simp] theorem State.reach_mpReload (s : State) (n : Nat) : (s.reach n).mpReload = s.mpReload := rfl
@[simp] theorem State.reach_polls (s : State) (n : Nat) : (s.reach n).polls = s.polls := rfl
@[simp] theorem State.reach_polled (s : State) (n : Nat) : (s.reach n).polled = s.polled := rfl
@[simp] theorem State.reach_sparing (s : State) (n : Nat) : (s.reach n).sparing = s.sparing := rfl
@[simp] theorem State.reach_cairnDue (s : State) (n : Nat) : (s.reach n).cairnDue = s.cairnDue := rfl
@[simp] theorem State.reach_fieldRepairs (s : State) (n : Nat) : (s.reach n).fieldRepairs = s.fieldRepairs := rfl
@[simp] theorem State.reach_svns (s : State) (n : Nat) : (s.reach n).svns = s.svns := rfl
@[simp] theorem State.reach_ropeList (s : State) (n : Nat) : (s.reach n).ropeList = s.ropeList := rfl

/-! ## tick -/

@[simp] theorem State.tick_pending (s : State)  : (s.tick).pending = s.pending := rfl
@[simp] theorem State.tick_free (s : State)  : (s.tick).free = s.free := rfl
@[simp] theorem State.tick_regs (s : State)  : (s.tick).regs = s.regs := rfl
@[simp] theorem State.tick_cores (s : State)  : (s.tick).cores = s.cores := rfl
@[simp] theorem State.tick_dmem (s : State)  : (s.tick).dmem = s.dmem := rfl
@[simp] theorem State.tick_disks (s : State)  : (s.tick).disks = s.disks := rfl
@[simp] theorem State.tick_ledgeErr (s : State)  : (s.tick).ledgeErr = s.ledgeErr := rfl
@[simp] theorem State.tick_ledgeRows (s : State)  : (s.tick).ledgeRows = s.ledgeRows := rfl
@[simp] theorem State.tick_rowErr (s : State)  : (s.tick).rowErr = s.rowErr := rfl
@[simp] theorem State.tick_edcFaults (s : State)  : (s.tick).edcFaults = s.edcFaults := rfl
@[simp] theorem State.tick_badWords (s : State)  : (s.tick).badWords = s.badWords := rfl
@[simp] theorem State.tick_hmem (s : State)  : (s.tick).hmem = s.hmem := rfl
@[simp] theorem State.tick_atoms (s : State)  : (s.tick).atoms = s.atoms := rfl
@[simp] theorem State.tick_atomResps (s : State)  : (s.tick).atomResps = s.atomResps := rfl
@[simp] theorem State.tick_doorbells (s : State)  : (s.tick).doorbells = s.doorbells := rfl
@[simp] theorem State.tick_completes (s : State)  : (s.tick).completes = s.completes := rfl
@[simp] theorem State.tick_barriers (s : State)  : (s.tick).barriers = s.barriers := rfl
@[simp] theorem State.tick_lists (s : State)  : (s.tick).lists = s.lists := rfl
@[simp] theorem State.tick_cmds (s : State)  : (s.tick).cmds = s.cmds := rfl
@[simp] theorem State.tick_nextCmd (s : State)  : (s.tick).nextCmd = s.nextCmd := rfl
@[simp] theorem State.tick_log (s : State)  : (s.tick).log = s.log := rfl
@[simp] theorem State.tick_vecReq (s : State)  : (s.tick).vecReq = s.vecReq := rfl
@[simp] theorem State.tick_fenceDue (s : State)  : (s.tick).fenceDue = s.fenceDue := rfl
@[simp] theorem State.tick_remoteReqs (s : State)  : (s.tick).remoteReqs = s.remoteReqs := rfl
@[simp] theorem State.tick_egress (s : State)  : (s.tick).egress = s.egress := rfl
@[simp] theorem State.tick_latches (s : State)  : (s.tick).latches = s.latches := rfl
@[simp] theorem State.tick_imemLatch (s : State)  : (s.tick).imemLatch = s.imemLatch := rfl
@[simp] theorem State.tick_logLatch (s : State)  : (s.tick).logLatch = s.logLatch := rfl
@[simp] theorem State.tick_readData (s : State)  : (s.tick).readData = s.readData := rfl
@[simp] theorem State.tick_bootStep (s : State)  : (s.tick).bootStep = s.bootStep := rfl
@[simp] theorem State.tick_pcieUp (s : State)  : (s.tick).pcieUp = s.pcieUp := rfl
@[simp] theorem State.tick_meshOut (s : State)  : (s.tick).meshOut = s.meshOut := rfl
@[simp] theorem State.tick_debugSeen (s : State)  : (s.tick).debugSeen = s.debugSeen := rfl
@[simp] theorem State.tick_fetched (s : State)  : (s.tick).fetched = s.fetched := rfl
@[simp] theorem State.tick_deferNo (s : State)  : (s.tick).deferNo = s.deferNo := rfl
@[simp] theorem State.tick_posting (s : State)  : (s.tick).posting = s.posting := rfl
@[simp] theorem State.tick_pend (s : State)  : (s.tick).pend = s.pend := rfl
@[simp] theorem State.tick_pendFrom (s : State)  : (s.tick).pendFrom = s.pendFrom := rfl
@[simp] theorem State.tick_qEnding (s : State)  : (s.tick).qEnding = s.qEnding := rfl
@[simp] theorem State.tick_cpTurn (s : State)  : (s.tick).cpTurn = s.cpTurn := rfl
@[simp] theorem State.tick_phase (s : State)  : (s.tick).phase = s.phase := rfl
@[simp] theorem State.tick_unsig (s : State)  : (s.tick).unsig = s.unsig := rfl
@[simp] theorem State.tick_msixOut (s : State)  : (s.tick).msixOut = s.msixOut := rfl
@[simp] theorem State.tick_busMaster (s : State)  : (s.tick).busMaster = s.busMaster := rfl
@[simp] theorem State.tick_inD0 (s : State)  : (s.tick).inD0 = s.inD0 := rfl
@[simp] theorem State.tick_d3hot (s : State)  : (s.tick).d3hot = s.d3hot := rfl
@[simp] theorem State.tick_usbUp (s : State)  : (s.tick).usbUp = s.usbUp := rfl
@[simp] theorem State.tick_usbSq (s : State)  : (s.tick).usbSq = s.usbSq := rfl
@[simp] theorem State.tick_usbCq (s : State)  : (s.tick).usbCq = s.usbCq := rfl
@[simp] theorem State.tick_bmcSq (s : State)  : (s.tick).bmcSq = s.bmcSq := rfl
@[simp] theorem State.tick_bmcCq (s : State)  : (s.tick).bmcCq = s.bmcCq := rfl
@[simp] theorem State.tick_pairPosted (s : State)  : (s.tick).pairPosted = s.pairPosted := rfl
@[simp] theorem State.tick_pairHead (s : State)  : (s.tick).pairHead = s.pairHead := rfl
@[simp] theorem State.tick_usbOut (s : State)  : (s.tick).usbOut = s.usbOut := rfl
@[simp] theorem State.tick_usbNotes (s : State)  : (s.tick).usbNotes = s.usbNotes := rfl
@[simp] theorem State.tick_softReset (s : State)  : (s.tick).softReset = s.softReset := rfl
@[simp] theorem State.tick_softPosted (s : State)  : (s.tick).softPosted = s.softPosted := rfl
@[simp] theorem State.tick_renumber (s : State)  : (s.tick).renumber = s.renumber := rfl
@[simp] theorem State.tick_serve (s : State)  : (s.tick).serve = s.serve := rfl
@[simp] theorem State.tick_cpIn (s : State)  : (s.tick).cpIn = s.cpIn := rfl
@[simp] theorem State.tick_cpRows (s : State)  : (s.tick).cpRows = s.cpRows := rfl
@[simp] theorem State.tick_disp (s : State)  : (s.tick).disp = s.disp := rfl
@[simp] theorem State.tick_lastLayer (s : State)  : (s.tick).lastLayer = s.lastLayer := rfl
@[simp] theorem State.tick_preds (s : State)  : (s.tick).preds = s.preds := rfl
@[simp] theorem State.tick_wloads (s : State)  : (s.tick).wloads = s.wloads := rfl
@[simp] theorem State.tick_staging (s : State)  : (s.tick).staging = s.staging := rfl
@[simp] theorem State.tick_rings (s : State)  : (s.tick).rings = s.rings := rfl
@[simp] theorem State.tick_backlog (s : State)  : (s.tick).backlog = s.backlog := rfl
@[simp] theorem State.tick_segEngine (s : State)  : (s.tick).segEngine = s.segEngine := rfl
@[simp] theorem State.tick_segSeq (s : State)  : (s.tick).segSeq = s.segSeq := rfl
@[simp] theorem State.tick_slices (s : State)  : (s.tick).slices = s.slices := rfl
@[simp] theorem State.tick_driveCmds (s : State)  : (s.tick).driveCmds = s.driveCmds := rfl
@[simp] theorem State.tick_drives (s : State)  : (s.tick).drives = s.drives := rfl
@[simp] theorem State.tick_logCount (s : State)  : (s.tick).logCount = s.logCount := rfl
@[simp] theorem State.tick_logCopied (s : State)  : (s.tick).logCopied = s.logCopied := rfl
@[simp] theorem State.tick_dmaIn (s : State)  : (s.tick).dmaIn = s.dmaIn := rfl
@[simp] theorem State.tick_dmaRows (s : State)  : (s.tick).dmaRows = s.dmaRows := rfl
@[simp] theorem State.tick_bar2Out (s : State)  : (s.tick).bar2Out = s.bar2Out := rfl
@[simp] theorem State.tick_mbxSince (s : State)  : (s.tick).mbxSince = s.mbxSince := rfl
@[simp] theorem State.tick_mbxBell (s : State)  : (s.tick).mbxBell = s.mbxBell := rfl
@[simp] theorem State.tick_flash (s : State)  : (s.tick).flash = s.flash := rfl
@[simp] theorem State.tick_selector (s : State)  : (s.tick).selector = s.selector := rfl
@[simp] theorem State.tick_akGen (s : State)  : (s.tick).akGen = s.akGen := rfl
@[simp] theorem State.tick_recovery (s : State)  : (s.tick).recovery = s.recovery := rfl
@[simp] theorem State.tick_inbox (s : State)  : (s.tick).inbox = s.inbox := rfl
@[simp] theorem State.tick_arrivals (s : State)  : (s.tick).arrivals = s.arrivals := rfl
@[simp] theorem State.tick_ports (s : State)  : (s.tick).ports = s.ports := rfl
@[simp] theorem State.tick_fabOut (s : State)  : (s.tick).fabOut = s.fabOut := rfl
@[simp] theorem State.tick_cpBad (s : State)  : (s.tick).cpBad = s.cpBad := rfl
@[simp] theorem State.tick_broken (s : State)  : (s.tick).broken = s.broken := rfl
@[simp] theorem State.tick_wave (s : State)  : (s.tick).wave = s.wave := rfl
@[simp] theorem State.tick_suspects (s : State)  : (s.tick).suspects = s.suspects := rfl
@[simp] theorem State.tick_holds (s : State)  : (s.tick).holds = s.holds := rfl
@[simp] theorem State.tick_collect (s : State)  : (s.tick).collect = s.collect := rfl
@[simp] theorem State.tick_telLive (s : State)  : (s.tick).telLive = s.telLive := rfl
@[simp] theorem State.tick_pwr (s : State)  : (s.tick).pwr = s.pwr := rfl
@[simp] theorem State.tick_rope (s : State)  : (s.tick).rope = s.rope := rfl
@[simp] theorem State.tick_boot (s : State)  : (s.tick).boot = s.boot := rfl
@[simp] theorem State.tick_mpDown (s : State)  : (s.tick).mpDown = s.mpDown := rfl
@[simp] theorem State.tick_mpReload (s : State)  : (s.tick).mpReload = s.mpReload := rfl
@[simp] theorem State.tick_polls (s : State)  : (s.tick).polls = s.polls := rfl
@[simp] theorem State.tick_polled (s : State)  : (s.tick).polled = s.polled := rfl
@[simp] theorem State.tick_sparing (s : State)  : (s.tick).sparing = s.sparing := rfl
@[simp] theorem State.tick_cairnDue (s : State)  : (s.tick).cairnDue = s.cairnDue := rfl
@[simp] theorem State.tick_fieldRepairs (s : State)  : (s.tick).fieldRepairs = s.fieldRepairs := rfl
@[simp] theorem State.tick_svns (s : State)  : (s.tick).svns = s.svns := rfl
@[simp] theorem State.tick_ropeList (s : State)  : (s.tick).ropeList = s.ropeList := rfl

/-! ## CoreState.setReg -/

@[simp] theorem CoreState.setReg_am (k : CoreState) (c a : Nat) (v : W32) : (k.setReg c a v).am = k.am := rfl
@[simp] theorem CoreState.setReg_pm (k : CoreState) (c a : Nat) (v : W32) : (k.setReg c a v).pm = k.pm := rfl
@[simp] theorem CoreState.setReg_amErr (k : CoreState) (c a : Nat) (v : W32) : (k.setReg c a v).amErr = k.amErr := rfl
@[simp] theorem CoreState.setReg_pmErr (k : CoreState) (c a : Nat) (v : W32) : (k.setReg c a v).pmErr = k.pmErr := rfl
@[simp] theorem CoreState.setReg_wm (k : CoreState) (c a : Nat) (v : W32) : (k.setReg c a v).wm = k.wm := rfl
@[simp] theorem CoreState.setReg_wmErr (k : CoreState) (c a : Nat) (v : W32) : (k.setReg c a v).wmErr = k.wmErr := rfl
@[simp] theorem CoreState.setReg_pages (k : CoreState) (c a : Nat) (v : W32) : (k.setReg c a v).pages = k.pages := rfl
@[simp] theorem CoreState.setReg_acm (k : CoreState) (c a : Nat) (v : W32) : (k.setReg c a v).acm = k.acm := rfl
@[simp] theorem CoreState.setReg_acmErr (k : CoreState) (c a : Nat) (v : W32) : (k.setReg c a v).acmErr = k.acmErr := rfl
@[simp] theorem CoreState.setReg_bad (k : CoreState) (c a : Nat) (v : W32) : (k.setReg c a v).bad = k.bad := rfl
@[simp] theorem CoreState.setReg_imem (k : CoreState) (c a : Nat) (v : W32) : (k.setReg c a v).imem = k.imem := rfl
@[simp] theorem CoreState.setReg_imemHeld (k : CoreState) (c a : Nat) (v : W32) : (k.setReg c a v).imemHeld = k.imemHeld := rfl
@[simp] theorem CoreState.setReg_loaded (k : CoreState) (c a : Nat) (v : W32) : (k.setReg c a v).loaded = k.loaded := rfl
@[simp] theorem CoreState.setReg_seq (k : CoreState) (c a : Nat) (v : W32) : (k.setReg c a v).seq = k.seq := rfl
@[simp] theorem CoreState.setReg_stepping (k : CoreState) (c a : Nat) (v : W32) : (k.setReg c a v).stepping = k.stepping := rfl
@[simp] theorem CoreState.setReg_pc (k : CoreState) (c a : Nat) (v : W32) : (k.setReg c a v).pc = k.pc := rfl
@[simp] theorem CoreState.setReg_wait (k : CoreState) (c a : Nat) (v : W32) : (k.setReg c a v).wait = k.wait := rfl
@[simp] theorem CoreState.setReg_waited (k : CoreState) (c a : Nat) (v : W32) : (k.setReg c a v).waited = k.waited := rfl
@[simp] theorem CoreState.setReg_loops (k : CoreState) (c a : Nat) (v : W32) : (k.setReg c a v).loops = k.loops := rfl
@[simp] theorem CoreState.setReg_exitC (k : CoreState) (c a : Nat) (v : W32) : (k.setReg c a v).exitC = k.exitC := rfl
@[simp] theorem CoreState.setReg_doneC (k : CoreState) (c a : Nat) (v : W32) : (k.setReg c a v).doneC = k.doneC := rfl
@[simp] theorem CoreState.setReg_ags (k : CoreState) (c a : Nat) (v : W32) : (k.setReg c a v).ags = k.ags := rfl
@[simp] theorem CoreState.setReg_arr (k : CoreState) (c a : Nat) (v : W32) : (k.setReg c a v).arr = k.arr := rfl
@[simp] theorem CoreState.setReg_drn (k : CoreState) (c a : Nat) (v : W32) : (k.setReg c a v).drn = k.drn := rfl
@[simp] theorem CoreState.setReg_aepi (k : CoreState) (c a : Nat) (v : W32) : (k.setReg c a v).aepi = k.aepi := rfl
@[simp] theorem CoreState.setReg_fault (k : CoreState) (c a : Nat) (v : W32) : (k.setReg c a v).fault = k.fault := rfl
@[simp] theorem CoreState.setReg_accHeld (k : CoreState) (c a : Nat) (v : W32) : (k.setReg c a v).accHeld = k.accHeld := rfl
@[simp] theorem CoreState.setReg_doorbell (k : CoreState) (c a : Nat) (v : W32) : (k.setReg c a v).doorbell = k.doorbell := rfl
@[simp] theorem CoreState.setReg_dispatch (k : CoreState) (c a : Nat) (v : W32) : (k.setReg c a v).dispatch = k.dispatch := rfl
@[simp] theorem CoreState.setReg_report (k : CoreState) (c a : Nat) (v : W32) : (k.setReg c a v).report = k.report := rfl
@[simp] theorem CoreState.setReg_passes (k : CoreState) (c a : Nat) (v : W32) : (k.setReg c a v).passes = k.passes := rfl
@[simp] theorem CoreState.setReg_checks (k : CoreState) (c a : Nat) (v : W32) : (k.setReg c a v).checks = k.checks := rfl
@[simp] theorem CoreState.setReg_planeBuf (k : CoreState) (c a : Nat) (v : W32) : (k.setReg c a v).planeBuf = k.planeBuf := rfl
@[simp] theorem CoreState.setReg_passNo (k : CoreState) (c a : Nat) (v : W32) : (k.setReg c a v).passNo = k.passNo := rfl
@[simp] theorem CoreState.setReg_exitShift (k : CoreState) (c a : Nat) (v : W32) : (k.setReg c a v).exitShift = k.exitShift := rfl
@[simp] theorem CoreState.setReg_exitTiles (k : CoreState) (c a : Nat) (v : W32) : (k.setReg c a v).exitTiles = k.exitTiles := rfl
@[simp] theorem CoreState.setReg_drains (k : CoreState) (c a : Nat) (v : W32) : (k.setReg c a v).drains = k.drains := rfl
@[simp] theorem CoreState.setReg_paid (k : CoreState) (c a : Nat) (v : W32) : (k.setReg c a v).paid = k.paid := rfl
@[simp] theorem CoreState.setReg_belayHigh (k : CoreState) (c a : Nat) (v : W32) : (k.setReg c a v).belayHigh = k.belayHigh := rfl
@[simp] theorem CoreState.setReg_ctxs (k : CoreState) (c a : Nat) (v : W32) : (k.setReg c a v).ctxs = k.ctxs := rfl
@[simp] theorem CoreState.setReg_closing (k : CoreState) (c a : Nat) (v : W32) : (k.setReg c a v).closing = k.closing := rfl
@[simp] theorem CoreState.setReg_chunks (k : CoreState) (c a : Nat) (v : W32) : (k.setReg c a v).chunks = k.chunks := rfl
@[simp] theorem CoreState.setReg_kEdges (k : CoreState) (c a : Nat) (v : W32) : (k.setReg c a v).kEdges = k.kEdges := rfl
@[simp] theorem CoreState.setReg_ownEdges (k : CoreState) (c a : Nat) (v : W32) : (k.setReg c a v).ownEdges = k.ownEdges := rfl
@[simp] theorem CoreState.setReg_predOn (k : CoreState) (c a : Nat) (v : W32) : (k.setReg c a v).predOn = k.predOn := rfl
@[simp] theorem CoreState.setReg_skipMap (k : CoreState) (c a : Nat) (v : W32) : (k.setReg c a v).skipMap = k.skipMap := rfl
@[simp] theorem CoreState.setReg_outCols (k : CoreState) (c a : Nat) (v : W32) : (k.setReg c a v).outCols = k.outCols := rfl
@[simp] theorem CoreState.setReg_rebound (k : CoreState) (c a : Nat) (v : W32) : (k.setReg c a v).rebound = k.rebound := rfl
@[simp] theorem CoreState.setReg_received (k : CoreState) (c a : Nat) (v : W32) : (k.setReg c a v).received = k.received := rfl
@[simp] theorem CoreState.setReg_predPlan (k : CoreState) (c a : Nat) (v : W32) : (k.setReg c a v).predPlan = k.predPlan := rfl
@[simp] theorem CoreState.setReg_rangeWindows (k : CoreState) (c a : Nat) (v : W32) : (k.setReg c a v).rangeWindows = k.rangeWindows := rfl
@[simp] theorem CoreState.setReg_zeroMap (k : CoreState) (c a : Nat) (v : W32) : (k.setReg c a v).zeroMap = k.zeroMap := rfl
@[simp] theorem CoreState.setReg_pageWrites (k : CoreState) (c a : Nat) (v : W32) : (k.setReg c a v).pageWrites = k.pageWrites := rfl
@[simp] theorem CoreState.setReg_ways (k : CoreState) (c a : Nat) (v : W32) : (k.setReg c a v).ways = k.ways := rfl
@[simp] theorem CoreState.setReg_lru (k : CoreState) (c a : Nat) (v : W32) : (k.setReg c a v).lru = k.lru := rfl
@[simp] theorem CoreState.setReg_spills (k : CoreState) (c a : Nat) (v : W32) : (k.setReg c a v).spills = k.spills := rfl
@[simp] theorem CoreState.setReg_tagErr (k : CoreState) (c a : Nat) (v : W32) : (k.setReg c a v).tagErr = k.tagErr := rfl
@[simp] theorem CoreState.setReg_gather (k : CoreState) (c a : Nat) (v : W32) : (k.setReg c a v).gather = k.gather := rfl
@[simp] theorem CoreState.setReg_cyc (k : CoreState) (c a : Nat) (v : W32) : (k.setReg c a v).cyc = k.cyc := rfl
@[simp] theorem CoreState.setReg_queued (k : CoreState) (c a : Nat) (v : W32) : (k.setReg c a v).queued = k.queued := rfl
@[simp] theorem CoreState.setReg_tagWait (k : CoreState) (c a : Nat) (v : W32) : (k.setReg c a v).tagWait = k.tagWait := rfl
@[simp] theorem CoreState.setReg_drainWait (k : CoreState) (c a : Nat) (v : W32) : (k.setReg c a v).drainWait = k.drainWait := rfl
@[simp] theorem CoreState.setReg_meshWait (k : CoreState) (c a : Nat) (v : W32) : (k.setReg c a v).meshWait = k.meshWait := rfl
@[simp] theorem CoreState.setReg_wakeNote (k : CoreState) (c a : Nat) (v : W32) : (k.setReg c a v).wakeNote = k.wakeNote := rfl
@[simp] theorem CoreState.setReg_arrLost (k : CoreState) (c a : Nat) (v : W32) : (k.setReg c a v).arrLost = k.arrLost := rfl
@[simp] theorem CoreState.setReg_rr (k : CoreState) (c a : Nat) (v : W32) : (k.setReg c a v).rr = k.rr := rfl
@[simp] theorem CoreState.setReg_modePend (k : CoreState) (c a : Nat) (v : W32) : (k.setReg c a v).modePend = k.modePend := rfl
@[simp] theorem CoreState.setReg_wheelPend (k : CoreState) (c a : Nat) (v : W32) : (k.setReg c a v).wheelPend = k.wheelPend := rfl
@[simp] theorem CoreState.setReg_writebacks (k : CoreState) (c a : Nat) (v : W32) : (k.setReg c a v).writebacks = k.writebacks := rfl
@[simp] theorem CoreState.setReg_rowErrs (k : CoreState) (c a : Nat) (v : W32) : (k.setReg c a v).rowErrs = k.rowErrs := rfl
@[simp] theorem CoreState.setReg_repairs (k : CoreState) (c a : Nat) (v : W32) : (k.setReg c a v).repairs = k.repairs := rfl
@[simp] theorem CoreState.setReg_spmOut (k : CoreState) (c a : Nat) (v : W32) : (k.setReg c a v).spmOut = k.spmOut := rfl
@[simp] theorem CoreState.setReg_outst (k : CoreState) (c a : Nat) (v : W32) : (k.setReg c a v).outst = k.outst := rfl
@[simp] theorem CoreState.setReg_nextOut (k : CoreState) (c a : Nat) (v : W32) : (k.setReg c a v).nextOut = k.nextOut := rfl
@[simp] theorem CoreState.setReg_accSent (k : CoreState) (c a : Nat) (v : W32) : (k.setReg c a v).accSent = k.accSent := rfl
@[simp] theorem CoreState.setReg_arrOpen (k : CoreState) (c a : Nat) (v : W32) : (k.setReg c a v).arrOpen = k.arrOpen := rfl
@[simp] theorem CoreState.setReg_arrSkip (k : CoreState) (c a : Nat) (v : W32) : (k.setReg c a v).arrSkip = k.arrSkip := rfl
@[simp] theorem CoreState.setReg_outFrom (k : CoreState) (c a : Nat) (v : W32) : (k.setReg c a v).outFrom = k.outFrom := rfl
@[simp] theorem CoreState.setReg_claim (k : CoreState) (c a : Nat) (v : W32) : (k.setReg c a v).claim = k.claim := rfl
@[simp] theorem CoreState.setReg_ticketMsg (k : CoreState) (c a : Nat) (v : W32) : (k.setReg c a v).ticketMsg = k.ticketMsg := rfl
@[simp] theorem CoreState.setReg_barrier (k : CoreState) (c a : Nat) (v : W32) : (k.setReg c a v).barrier = k.barrier := rfl
@[simp] theorem CoreState.setReg_progress (k : CoreState) (c a : Nat) (v : W32) : (k.setReg c a v).progress = k.progress := rfl
@[simp] theorem CoreState.setReg_inBuf (k : CoreState) (c a : Nat) (v : W32) : (k.setReg c a v).inBuf = k.inBuf := rfl
@[simp] theorem CoreState.setReg_remoteIn (k : CoreState) (c a : Nat) (v : W32) : (k.setReg c a v).remoteIn = k.remoteIn := rfl
@[simp] theorem CoreState.setReg_remoteRows (k : CoreState) (c a : Nat) (v : W32) : (k.setReg c a v).remoteRows = k.remoteRows := rfl
@[simp] theorem CoreState.setReg_scrubAt (k : CoreState) (c a : Nat) (v : W32) : (k.setReg c a v).scrubAt = k.scrubAt := rfl
@[simp] theorem CoreState.setReg_sweep (k : CoreState) (c a : Nat) (v : W32) : (k.setReg c a v).sweep = k.sweep := rfl
@[simp] theorem CoreState.setReg_agedSweep (k : CoreState) (c a : Nat) (v : W32) : (k.setReg c a v).agedSweep = k.agedSweep := rfl
@[simp] theorem CoreState.setReg_joining (k : CoreState) (c a : Nat) (v : W32) : (k.setReg c a v).joining = k.joining := rfl
@[simp] theorem CoreState.setReg_repaired (k : CoreState) (c a : Nat) (v : W32) : (k.setReg c a v).repaired = k.repaired := rfl
@[simp] theorem CoreState.setReg_tickets (k : CoreState) (c a : Nat) (v : W32) : (k.setReg c a v).tickets = k.tickets := rfl
@[simp] theorem CoreState.setReg_idleSince (k : CoreState) (c a : Nat) (v : W32) : (k.setReg c a v).idleSince = k.idleSince := rfl
@[simp] theorem CoreState.reg_setReg (k : CoreState) (c a b : Nat) (v : W32) :
    (k.setReg c a v).reg c b = if b = a then v else k.reg c b := Tab.get_set _ _ _ _ _

/-! ## sameRings -/

@[simp] theorem State.sameRings_pending (s t : State) : (s.sameRings t).pending = s.pending := rfl
@[simp] theorem State.sameRings_now (s t : State) : (s.sameRings t).now = t.now := rfl
@[simp] theorem State.sameRings_free (s t : State) : (s.sameRings t).free = t.free := rfl
@[simp] theorem State.sameRings_regs (s t : State) : (s.sameRings t).regs = t.regs := rfl
@[simp] theorem State.sameRings_cores (s t : State) : (s.sameRings t).cores = t.cores := rfl
@[simp] theorem State.sameRings_dmem (s t : State) : (s.sameRings t).dmem = t.dmem := rfl
@[simp] theorem State.sameRings_disks (s t : State) : (s.sameRings t).disks = t.disks := rfl
@[simp] theorem State.sameRings_ledgeErr (s t : State) : (s.sameRings t).ledgeErr = t.ledgeErr := rfl
@[simp] theorem State.sameRings_ledgeRows (s t : State) : (s.sameRings t).ledgeRows = t.ledgeRows := rfl
@[simp] theorem State.sameRings_rowErr (s t : State) : (s.sameRings t).rowErr = t.rowErr := rfl
@[simp] theorem State.sameRings_edcFaults (s t : State) : (s.sameRings t).edcFaults = t.edcFaults := rfl
@[simp] theorem State.sameRings_badWords (s t : State) : (s.sameRings t).badWords = t.badWords := rfl
@[simp] theorem State.sameRings_hmem (s t : State) : (s.sameRings t).hmem = t.hmem := rfl
@[simp] theorem State.sameRings_atoms (s t : State) : (s.sameRings t).atoms = t.atoms := rfl
@[simp] theorem State.sameRings_atomResps (s t : State) : (s.sameRings t).atomResps = t.atomResps := rfl
@[simp] theorem State.sameRings_doorbells (s t : State) : (s.sameRings t).doorbells = t.doorbells := rfl
@[simp] theorem State.sameRings_completes (s t : State) : (s.sameRings t).completes = t.completes := rfl
@[simp] theorem State.sameRings_barriers (s t : State) : (s.sameRings t).barriers = t.barriers := rfl
@[simp] theorem State.sameRings_lists (s t : State) : (s.sameRings t).lists = t.lists := rfl
@[simp] theorem State.sameRings_cmds (s t : State) : (s.sameRings t).cmds = t.cmds := rfl
@[simp] theorem State.sameRings_nextCmd (s t : State) : (s.sameRings t).nextCmd = t.nextCmd := rfl
@[simp] theorem State.sameRings_log (s t : State) : (s.sameRings t).log = t.log := rfl
@[simp] theorem State.sameRings_vecReq (s t : State) : (s.sameRings t).vecReq = t.vecReq := rfl
@[simp] theorem State.sameRings_fenceDue (s t : State) : (s.sameRings t).fenceDue = t.fenceDue := rfl
@[simp] theorem State.sameRings_remoteReqs (s t : State) : (s.sameRings t).remoteReqs = t.remoteReqs := rfl
@[simp] theorem State.sameRings_egress (s t : State) : (s.sameRings t).egress = t.egress := rfl
@[simp] theorem State.sameRings_latches (s t : State) : (s.sameRings t).latches = t.latches := rfl
@[simp] theorem State.sameRings_imemLatch (s t : State) : (s.sameRings t).imemLatch = t.imemLatch := rfl
@[simp] theorem State.sameRings_logLatch (s t : State) : (s.sameRings t).logLatch = t.logLatch := rfl
@[simp] theorem State.sameRings_readData (s t : State) : (s.sameRings t).readData = t.readData := rfl
@[simp] theorem State.sameRings_bootStep (s t : State) : (s.sameRings t).bootStep = t.bootStep := rfl
@[simp] theorem State.sameRings_pcieUp (s t : State) : (s.sameRings t).pcieUp = t.pcieUp := rfl
@[simp] theorem State.sameRings_meshOut (s t : State) : (s.sameRings t).meshOut = t.meshOut := rfl
@[simp] theorem State.sameRings_debugSeen (s t : State) : (s.sameRings t).debugSeen = t.debugSeen := rfl
@[simp] theorem State.sameRings_fetched (s t : State) : (s.sameRings t).fetched = t.fetched := rfl
@[simp] theorem State.sameRings_deferNo (s t : State) : (s.sameRings t).deferNo = t.deferNo := rfl
@[simp] theorem State.sameRings_posting (s t : State) : (s.sameRings t).posting = t.posting := rfl
@[simp] theorem State.sameRings_pend (s t : State) : (s.sameRings t).pend = t.pend := rfl
@[simp] theorem State.sameRings_pendFrom (s t : State) : (s.sameRings t).pendFrom = t.pendFrom := rfl
@[simp] theorem State.sameRings_qEnding (s t : State) : (s.sameRings t).qEnding = t.qEnding := rfl
@[simp] theorem State.sameRings_cpTurn (s t : State) : (s.sameRings t).cpTurn = t.cpTurn := rfl
@[simp] theorem State.sameRings_phase (s t : State) : (s.sameRings t).phase = t.phase := rfl
@[simp] theorem State.sameRings_unsig (s t : State) : (s.sameRings t).unsig = t.unsig := rfl
@[simp] theorem State.sameRings_msixOut (s t : State) : (s.sameRings t).msixOut = t.msixOut := rfl
@[simp] theorem State.sameRings_busMaster (s t : State) : (s.sameRings t).busMaster = t.busMaster := rfl
@[simp] theorem State.sameRings_inD0 (s t : State) : (s.sameRings t).inD0 = t.inD0 := rfl
@[simp] theorem State.sameRings_d3hot (s t : State) : (s.sameRings t).d3hot = t.d3hot := rfl
@[simp] theorem State.sameRings_usbUp (s t : State) : (s.sameRings t).usbUp = t.usbUp := rfl
@[simp] theorem State.sameRings_usbSq (s t : State) : (s.sameRings t).usbSq = s.usbSq := rfl
@[simp] theorem State.sameRings_usbCq (s t : State) : (s.sameRings t).usbCq = s.usbCq := rfl
@[simp] theorem State.sameRings_bmcSq (s t : State) : (s.sameRings t).bmcSq = s.bmcSq := rfl
@[simp] theorem State.sameRings_bmcCq (s t : State) : (s.sameRings t).bmcCq = s.bmcCq := rfl
@[simp] theorem State.sameRings_pairPosted (s t : State) : (s.sameRings t).pairPosted = t.pairPosted := rfl
@[simp] theorem State.sameRings_pairHead (s t : State) : (s.sameRings t).pairHead = t.pairHead := rfl
@[simp] theorem State.sameRings_usbOut (s t : State) : (s.sameRings t).usbOut = t.usbOut := rfl
@[simp] theorem State.sameRings_usbNotes (s t : State) : (s.sameRings t).usbNotes = t.usbNotes := rfl
@[simp] theorem State.sameRings_softReset (s t : State) : (s.sameRings t).softReset = t.softReset := rfl
@[simp] theorem State.sameRings_softPosted (s t : State) : (s.sameRings t).softPosted = t.softPosted := rfl
@[simp] theorem State.sameRings_renumber (s t : State) : (s.sameRings t).renumber = t.renumber := rfl
@[simp] theorem State.sameRings_serve (s t : State) : (s.sameRings t).serve = t.serve := rfl
@[simp] theorem State.sameRings_cpIn (s t : State) : (s.sameRings t).cpIn = t.cpIn := rfl
@[simp] theorem State.sameRings_cpRows (s t : State) : (s.sameRings t).cpRows = t.cpRows := rfl
@[simp] theorem State.sameRings_disp (s t : State) : (s.sameRings t).disp = t.disp := rfl
@[simp] theorem State.sameRings_lastLayer (s t : State) : (s.sameRings t).lastLayer = t.lastLayer := rfl
@[simp] theorem State.sameRings_preds (s t : State) : (s.sameRings t).preds = t.preds := rfl
@[simp] theorem State.sameRings_wloads (s t : State) : (s.sameRings t).wloads = t.wloads := rfl
@[simp] theorem State.sameRings_staging (s t : State) : (s.sameRings t).staging = t.staging := rfl
@[simp] theorem State.sameRings_rings (s t : State) : (s.sameRings t).rings = t.rings := rfl
@[simp] theorem State.sameRings_backlog (s t : State) : (s.sameRings t).backlog = t.backlog := rfl
@[simp] theorem State.sameRings_segEngine (s t : State) : (s.sameRings t).segEngine = t.segEngine := rfl
@[simp] theorem State.sameRings_segSeq (s t : State) : (s.sameRings t).segSeq = t.segSeq := rfl
@[simp] theorem State.sameRings_slices (s t : State) : (s.sameRings t).slices = t.slices := rfl
@[simp] theorem State.sameRings_driveCmds (s t : State) : (s.sameRings t).driveCmds = t.driveCmds := rfl
@[simp] theorem State.sameRings_drives (s t : State) : (s.sameRings t).drives = t.drives := rfl
@[simp] theorem State.sameRings_logCount (s t : State) : (s.sameRings t).logCount = t.logCount := rfl
@[simp] theorem State.sameRings_logCopied (s t : State) : (s.sameRings t).logCopied = t.logCopied := rfl
@[simp] theorem State.sameRings_dmaIn (s t : State) : (s.sameRings t).dmaIn = t.dmaIn := rfl
@[simp] theorem State.sameRings_dmaRows (s t : State) : (s.sameRings t).dmaRows = t.dmaRows := rfl
@[simp] theorem State.sameRings_bar2Out (s t : State) : (s.sameRings t).bar2Out = t.bar2Out := rfl
@[simp] theorem State.sameRings_mbxSince (s t : State) : (s.sameRings t).mbxSince = t.mbxSince := rfl
@[simp] theorem State.sameRings_mbxBell (s t : State) : (s.sameRings t).mbxBell = t.mbxBell := rfl
@[simp] theorem State.sameRings_flash (s t : State) : (s.sameRings t).flash = t.flash := rfl
@[simp] theorem State.sameRings_selector (s t : State) : (s.sameRings t).selector = t.selector := rfl
@[simp] theorem State.sameRings_akGen (s t : State) : (s.sameRings t).akGen = t.akGen := rfl
@[simp] theorem State.sameRings_recovery (s t : State) : (s.sameRings t).recovery = t.recovery := rfl
@[simp] theorem State.sameRings_inbox (s t : State) : (s.sameRings t).inbox = t.inbox := rfl
@[simp] theorem State.sameRings_arrivals (s t : State) : (s.sameRings t).arrivals = t.arrivals := rfl
@[simp] theorem State.sameRings_ports (s t : State) : (s.sameRings t).ports = t.ports := rfl
@[simp] theorem State.sameRings_fabOut (s t : State) : (s.sameRings t).fabOut = t.fabOut := rfl
@[simp] theorem State.sameRings_cpBad (s t : State) : (s.sameRings t).cpBad = t.cpBad := rfl
@[simp] theorem State.sameRings_broken (s t : State) : (s.sameRings t).broken = t.broken := rfl
@[simp] theorem State.sameRings_wave (s t : State) : (s.sameRings t).wave = t.wave := rfl
@[simp] theorem State.sameRings_suspects (s t : State) : (s.sameRings t).suspects = t.suspects := rfl
@[simp] theorem State.sameRings_holds (s t : State) : (s.sameRings t).holds = t.holds := rfl
@[simp] theorem State.sameRings_collect (s t : State) : (s.sameRings t).collect = t.collect := rfl
@[simp] theorem State.sameRings_telLive (s t : State) : (s.sameRings t).telLive = t.telLive := rfl
@[simp] theorem State.sameRings_pwr (s t : State) : (s.sameRings t).pwr = t.pwr := rfl
@[simp] theorem State.sameRings_rope (s t : State) : (s.sameRings t).rope = t.rope := rfl
@[simp] theorem State.sameRings_boot (s t : State) : (s.sameRings t).boot = t.boot := rfl
@[simp] theorem State.sameRings_mpDown (s t : State) : (s.sameRings t).mpDown = t.mpDown := rfl
@[simp] theorem State.sameRings_mpReload (s t : State) : (s.sameRings t).mpReload = t.mpReload := rfl
@[simp] theorem State.sameRings_polls (s t : State) : (s.sameRings t).polls = t.polls := rfl
@[simp] theorem State.sameRings_polled (s t : State) : (s.sameRings t).polled = t.polled := rfl
@[simp] theorem State.sameRings_sparing (s t : State) : (s.sameRings t).sparing = t.sparing := rfl
@[simp] theorem State.sameRings_cairnDue (s t : State) : (s.sameRings t).cairnDue = t.cairnDue := rfl
@[simp] theorem State.sameRings_fieldRepairs (s t : State) : (s.sameRings t).fieldRepairs = t.fieldRepairs := rfl
@[simp] theorem State.sameRings_svns (s t : State) : (s.sameRings t).svns = t.svns := rfl
@[simp] theorem State.sameRings_ropeList (s t : State) : (s.sameRings t).ropeList = t.ropeList := rfl

/-! ## samePins -/

@[simp] theorem State.samePins_pending (s t : State) : (s.samePins t).pending = t.pending := rfl
@[simp] theorem State.samePins_now (s t : State) : (s.samePins t).now = t.now := rfl
@[simp] theorem State.samePins_free (s t : State) : (s.samePins t).free = t.free := rfl
@[simp] theorem State.samePins_regs (s t : State) : (s.samePins t).regs = t.regs := rfl
@[simp] theorem State.samePins_cores (s t : State) : (s.samePins t).cores = t.cores := rfl
@[simp] theorem State.samePins_dmem (s t : State) : (s.samePins t).dmem = t.dmem := rfl
@[simp] theorem State.samePins_disks (s t : State) : (s.samePins t).disks = t.disks := rfl
@[simp] theorem State.samePins_ledgeErr (s t : State) : (s.samePins t).ledgeErr = t.ledgeErr := rfl
@[simp] theorem State.samePins_ledgeRows (s t : State) : (s.samePins t).ledgeRows = t.ledgeRows := rfl
@[simp] theorem State.samePins_rowErr (s t : State) : (s.samePins t).rowErr = t.rowErr := rfl
@[simp] theorem State.samePins_edcFaults (s t : State) : (s.samePins t).edcFaults = t.edcFaults := rfl
@[simp] theorem State.samePins_badWords (s t : State) : (s.samePins t).badWords = t.badWords := rfl
@[simp] theorem State.samePins_hmem (s t : State) : (s.samePins t).hmem = t.hmem := rfl
@[simp] theorem State.samePins_atoms (s t : State) : (s.samePins t).atoms = t.atoms := rfl
@[simp] theorem State.samePins_atomResps (s t : State) : (s.samePins t).atomResps = t.atomResps := rfl
@[simp] theorem State.samePins_doorbells (s t : State) : (s.samePins t).doorbells = t.doorbells := rfl
@[simp] theorem State.samePins_completes (s t : State) : (s.samePins t).completes = t.completes := rfl
@[simp] theorem State.samePins_barriers (s t : State) : (s.samePins t).barriers = t.barriers := rfl
@[simp] theorem State.samePins_lists (s t : State) : (s.samePins t).lists = t.lists := rfl
@[simp] theorem State.samePins_cmds (s t : State) : (s.samePins t).cmds = t.cmds := rfl
@[simp] theorem State.samePins_nextCmd (s t : State) : (s.samePins t).nextCmd = t.nextCmd := rfl
@[simp] theorem State.samePins_log (s t : State) : (s.samePins t).log = t.log := rfl
@[simp] theorem State.samePins_vecReq (s t : State) : (s.samePins t).vecReq = t.vecReq := rfl
@[simp] theorem State.samePins_fenceDue (s t : State) : (s.samePins t).fenceDue = t.fenceDue := rfl
@[simp] theorem State.samePins_remoteReqs (s t : State) : (s.samePins t).remoteReqs = t.remoteReqs := rfl
@[simp] theorem State.samePins_egress (s t : State) : (s.samePins t).egress = t.egress := rfl
@[simp] theorem State.samePins_latches (s t : State) : (s.samePins t).latches = t.latches := rfl
@[simp] theorem State.samePins_imemLatch (s t : State) : (s.samePins t).imemLatch = t.imemLatch := rfl
@[simp] theorem State.samePins_logLatch (s t : State) : (s.samePins t).logLatch = t.logLatch := rfl
@[simp] theorem State.samePins_readData (s t : State) : (s.samePins t).readData = t.readData := rfl
@[simp] theorem State.samePins_bootStep (s t : State) : (s.samePins t).bootStep = s.bootStep := rfl
@[simp] theorem State.samePins_pcieUp (s t : State) : (s.samePins t).pcieUp = s.pcieUp := rfl
@[simp] theorem State.samePins_meshOut (s t : State) : (s.samePins t).meshOut = t.meshOut := rfl
@[simp] theorem State.samePins_debugSeen (s t : State) : (s.samePins t).debugSeen = t.debugSeen := rfl
@[simp] theorem State.samePins_fetched (s t : State) : (s.samePins t).fetched = t.fetched := rfl
@[simp] theorem State.samePins_deferNo (s t : State) : (s.samePins t).deferNo = t.deferNo := rfl
@[simp] theorem State.samePins_posting (s t : State) : (s.samePins t).posting = t.posting := rfl
@[simp] theorem State.samePins_pend (s t : State) : (s.samePins t).pend = t.pend := rfl
@[simp] theorem State.samePins_pendFrom (s t : State) : (s.samePins t).pendFrom = t.pendFrom := rfl
@[simp] theorem State.samePins_qEnding (s t : State) : (s.samePins t).qEnding = t.qEnding := rfl
@[simp] theorem State.samePins_cpTurn (s t : State) : (s.samePins t).cpTurn = t.cpTurn := rfl
@[simp] theorem State.samePins_phase (s t : State) : (s.samePins t).phase = t.phase := rfl
@[simp] theorem State.samePins_unsig (s t : State) : (s.samePins t).unsig = t.unsig := rfl
@[simp] theorem State.samePins_msixOut (s t : State) : (s.samePins t).msixOut = t.msixOut := rfl
@[simp] theorem State.samePins_busMaster (s t : State) : (s.samePins t).busMaster = s.busMaster := rfl
@[simp] theorem State.samePins_inD0 (s t : State) : (s.samePins t).inD0 = s.inD0 := rfl
@[simp] theorem State.samePins_d3hot (s t : State) : (s.samePins t).d3hot = s.d3hot := rfl
@[simp] theorem State.samePins_usbUp (s t : State) : (s.samePins t).usbUp = s.usbUp := rfl
@[simp] theorem State.samePins_usbSq (s t : State) : (s.samePins t).usbSq = t.usbSq := rfl
@[simp] theorem State.samePins_usbCq (s t : State) : (s.samePins t).usbCq = t.usbCq := rfl
@[simp] theorem State.samePins_bmcSq (s t : State) : (s.samePins t).bmcSq = t.bmcSq := rfl
@[simp] theorem State.samePins_bmcCq (s t : State) : (s.samePins t).bmcCq = t.bmcCq := rfl
@[simp] theorem State.samePins_pairPosted (s t : State) : (s.samePins t).pairPosted = t.pairPosted := rfl
@[simp] theorem State.samePins_pairHead (s t : State) : (s.samePins t).pairHead = t.pairHead := rfl
@[simp] theorem State.samePins_usbOut (s t : State) : (s.samePins t).usbOut = t.usbOut := rfl
@[simp] theorem State.samePins_usbNotes (s t : State) : (s.samePins t).usbNotes = t.usbNotes := rfl
@[simp] theorem State.samePins_softReset (s t : State) : (s.samePins t).softReset = t.softReset := rfl
@[simp] theorem State.samePins_softPosted (s t : State) : (s.samePins t).softPosted = t.softPosted := rfl
@[simp] theorem State.samePins_renumber (s t : State) : (s.samePins t).renumber = t.renumber := rfl
@[simp] theorem State.samePins_serve (s t : State) : (s.samePins t).serve = t.serve := rfl
@[simp] theorem State.samePins_cpIn (s t : State) : (s.samePins t).cpIn = t.cpIn := rfl
@[simp] theorem State.samePins_cpRows (s t : State) : (s.samePins t).cpRows = t.cpRows := rfl
@[simp] theorem State.samePins_disp (s t : State) : (s.samePins t).disp = t.disp := rfl
@[simp] theorem State.samePins_lastLayer (s t : State) : (s.samePins t).lastLayer = t.lastLayer := rfl
@[simp] theorem State.samePins_preds (s t : State) : (s.samePins t).preds = t.preds := rfl
@[simp] theorem State.samePins_wloads (s t : State) : (s.samePins t).wloads = t.wloads := rfl
@[simp] theorem State.samePins_staging (s t : State) : (s.samePins t).staging = t.staging := rfl
@[simp] theorem State.samePins_rings (s t : State) : (s.samePins t).rings = t.rings := rfl
@[simp] theorem State.samePins_backlog (s t : State) : (s.samePins t).backlog = t.backlog := rfl
@[simp] theorem State.samePins_segEngine (s t : State) : (s.samePins t).segEngine = t.segEngine := rfl
@[simp] theorem State.samePins_segSeq (s t : State) : (s.samePins t).segSeq = t.segSeq := rfl
@[simp] theorem State.samePins_slices (s t : State) : (s.samePins t).slices = t.slices := rfl
@[simp] theorem State.samePins_driveCmds (s t : State) : (s.samePins t).driveCmds = t.driveCmds := rfl
@[simp] theorem State.samePins_drives (s t : State) : (s.samePins t).drives = s.drives := rfl
@[simp] theorem State.samePins_logCount (s t : State) : (s.samePins t).logCount = t.logCount := rfl
@[simp] theorem State.samePins_logCopied (s t : State) : (s.samePins t).logCopied = t.logCopied := rfl
@[simp] theorem State.samePins_dmaIn (s t : State) : (s.samePins t).dmaIn = t.dmaIn := rfl
@[simp] theorem State.samePins_dmaRows (s t : State) : (s.samePins t).dmaRows = t.dmaRows := rfl
@[simp] theorem State.samePins_bar2Out (s t : State) : (s.samePins t).bar2Out = t.bar2Out := rfl
@[simp] theorem State.samePins_mbxSince (s t : State) : (s.samePins t).mbxSince = t.mbxSince := rfl
@[simp] theorem State.samePins_mbxBell (s t : State) : (s.samePins t).mbxBell = t.mbxBell := rfl
@[simp] theorem State.samePins_flash (s t : State) : (s.samePins t).flash = t.flash := rfl
@[simp] theorem State.samePins_selector (s t : State) : (s.samePins t).selector = t.selector := rfl
@[simp] theorem State.samePins_akGen (s t : State) : (s.samePins t).akGen = t.akGen := rfl
@[simp] theorem State.samePins_recovery (s t : State) : (s.samePins t).recovery = t.recovery := rfl
@[simp] theorem State.samePins_inbox (s t : State) : (s.samePins t).inbox = t.inbox := rfl
@[simp] theorem State.samePins_arrivals (s t : State) : (s.samePins t).arrivals = t.arrivals := rfl
@[simp] theorem State.samePins_ports (s t : State) : (s.samePins t).ports = t.ports := rfl
@[simp] theorem State.samePins_fabOut (s t : State) : (s.samePins t).fabOut = t.fabOut := rfl
@[simp] theorem State.samePins_cpBad (s t : State) : (s.samePins t).cpBad = t.cpBad := rfl
@[simp] theorem State.samePins_broken (s t : State) : (s.samePins t).broken = t.broken := rfl
@[simp] theorem State.samePins_wave (s t : State) : (s.samePins t).wave = t.wave := rfl
@[simp] theorem State.samePins_suspects (s t : State) : (s.samePins t).suspects = t.suspects := rfl
@[simp] theorem State.samePins_holds (s t : State) : (s.samePins t).holds = t.holds := rfl
@[simp] theorem State.samePins_collect (s t : State) : (s.samePins t).collect = t.collect := rfl
@[simp] theorem State.samePins_telLive (s t : State) : (s.samePins t).telLive = t.telLive := rfl
@[simp] theorem State.samePins_pwr (s t : State) : (s.samePins t).pwr = t.pwr := rfl
@[simp] theorem State.samePins_rope (s t : State) : (s.samePins t).rope = t.rope := rfl
@[simp] theorem State.samePins_boot (s t : State) : (s.samePins t).boot = s.boot := rfl
@[simp] theorem State.samePins_mpDown (s t : State) : (s.samePins t).mpDown = t.mpDown := rfl
@[simp] theorem State.samePins_mpReload (s t : State) : (s.samePins t).mpReload = t.mpReload := rfl
@[simp] theorem State.samePins_polls (s t : State) : (s.samePins t).polls = t.polls := rfl
@[simp] theorem State.samePins_polled (s t : State) : (s.samePins t).polled = t.polled := rfl
@[simp] theorem State.samePins_sparing (s t : State) : (s.samePins t).sparing = t.sparing := rfl
@[simp] theorem State.samePins_cairnDue (s t : State) : (s.samePins t).cairnDue = t.cairnDue := rfl
@[simp] theorem State.samePins_fieldRepairs (s t : State) : (s.samePins t).fieldRepairs = t.fieldRepairs := rfl
@[simp] theorem State.samePins_svns (s t : State) : (s.samePins t).svns = t.svns := rfl
@[simp] theorem State.samePins_ropeList (s t : State) : (s.samePins t).ropeList = t.ropeList := rfl

/-! ## sameSecure -/

@[simp] theorem State.sameSecure_pending (s t : State) : (s.sameSecure t).pending = t.pending := rfl
@[simp] theorem State.sameSecure_now (s t : State) : (s.sameSecure t).now = t.now := rfl
@[simp] theorem State.sameSecure_free (s t : State) : (s.sameSecure t).free = t.free := rfl
@[simp] theorem State.sameSecure_regs (s t : State) : (s.sameSecure t).regs = t.regs := rfl
@[simp] theorem State.sameSecure_cores (s t : State) : (s.sameSecure t).cores = t.cores := rfl
@[simp] theorem State.sameSecure_dmem (s t : State) : (s.sameSecure t).dmem = t.dmem := rfl
@[simp] theorem State.sameSecure_disks (s t : State) : (s.sameSecure t).disks = t.disks := rfl
@[simp] theorem State.sameSecure_ledgeErr (s t : State) : (s.sameSecure t).ledgeErr = t.ledgeErr := rfl
@[simp] theorem State.sameSecure_ledgeRows (s t : State) : (s.sameSecure t).ledgeRows = t.ledgeRows := rfl
@[simp] theorem State.sameSecure_rowErr (s t : State) : (s.sameSecure t).rowErr = t.rowErr := rfl
@[simp] theorem State.sameSecure_edcFaults (s t : State) : (s.sameSecure t).edcFaults = t.edcFaults := rfl
@[simp] theorem State.sameSecure_badWords (s t : State) : (s.sameSecure t).badWords = t.badWords := rfl
@[simp] theorem State.sameSecure_hmem (s t : State) : (s.sameSecure t).hmem = t.hmem := rfl
@[simp] theorem State.sameSecure_atoms (s t : State) : (s.sameSecure t).atoms = t.atoms := rfl
@[simp] theorem State.sameSecure_atomResps (s t : State) : (s.sameSecure t).atomResps = t.atomResps := rfl
@[simp] theorem State.sameSecure_doorbells (s t : State) : (s.sameSecure t).doorbells = t.doorbells := rfl
@[simp] theorem State.sameSecure_completes (s t : State) : (s.sameSecure t).completes = t.completes := rfl
@[simp] theorem State.sameSecure_barriers (s t : State) : (s.sameSecure t).barriers = t.barriers := rfl
@[simp] theorem State.sameSecure_lists (s t : State) : (s.sameSecure t).lists = t.lists := rfl
@[simp] theorem State.sameSecure_cmds (s t : State) : (s.sameSecure t).cmds = t.cmds := rfl
@[simp] theorem State.sameSecure_nextCmd (s t : State) : (s.sameSecure t).nextCmd = t.nextCmd := rfl
@[simp] theorem State.sameSecure_log (s t : State) : (s.sameSecure t).log = t.log := rfl
@[simp] theorem State.sameSecure_vecReq (s t : State) : (s.sameSecure t).vecReq = t.vecReq := rfl
@[simp] theorem State.sameSecure_fenceDue (s t : State) : (s.sameSecure t).fenceDue = t.fenceDue := rfl
@[simp] theorem State.sameSecure_remoteReqs (s t : State) : (s.sameSecure t).remoteReqs = t.remoteReqs := rfl
@[simp] theorem State.sameSecure_egress (s t : State) : (s.sameSecure t).egress = t.egress := rfl
@[simp] theorem State.sameSecure_latches (s t : State) : (s.sameSecure t).latches = t.latches := rfl
@[simp] theorem State.sameSecure_imemLatch (s t : State) : (s.sameSecure t).imemLatch = t.imemLatch := rfl
@[simp] theorem State.sameSecure_logLatch (s t : State) : (s.sameSecure t).logLatch = t.logLatch := rfl
@[simp] theorem State.sameSecure_readData (s t : State) : (s.sameSecure t).readData = t.readData := rfl
@[simp] theorem State.sameSecure_bootStep (s t : State) : (s.sameSecure t).bootStep = t.bootStep := rfl
@[simp] theorem State.sameSecure_pcieUp (s t : State) : (s.sameSecure t).pcieUp = t.pcieUp := rfl
@[simp] theorem State.sameSecure_meshOut (s t : State) : (s.sameSecure t).meshOut = t.meshOut := rfl
@[simp] theorem State.sameSecure_debugSeen (s t : State) : (s.sameSecure t).debugSeen = t.debugSeen := rfl
@[simp] theorem State.sameSecure_fetched (s t : State) : (s.sameSecure t).fetched = t.fetched := rfl
@[simp] theorem State.sameSecure_deferNo (s t : State) : (s.sameSecure t).deferNo = t.deferNo := rfl
@[simp] theorem State.sameSecure_posting (s t : State) : (s.sameSecure t).posting = t.posting := rfl
@[simp] theorem State.sameSecure_pend (s t : State) : (s.sameSecure t).pend = t.pend := rfl
@[simp] theorem State.sameSecure_pendFrom (s t : State) : (s.sameSecure t).pendFrom = t.pendFrom := rfl
@[simp] theorem State.sameSecure_qEnding (s t : State) : (s.sameSecure t).qEnding = t.qEnding := rfl
@[simp] theorem State.sameSecure_cpTurn (s t : State) : (s.sameSecure t).cpTurn = t.cpTurn := rfl
@[simp] theorem State.sameSecure_phase (s t : State) : (s.sameSecure t).phase = t.phase := rfl
@[simp] theorem State.sameSecure_unsig (s t : State) : (s.sameSecure t).unsig = t.unsig := rfl
@[simp] theorem State.sameSecure_msixOut (s t : State) : (s.sameSecure t).msixOut = t.msixOut := rfl
@[simp] theorem State.sameSecure_busMaster (s t : State) : (s.sameSecure t).busMaster = t.busMaster := rfl
@[simp] theorem State.sameSecure_inD0 (s t : State) : (s.sameSecure t).inD0 = t.inD0 := rfl
@[simp] theorem State.sameSecure_d3hot (s t : State) : (s.sameSecure t).d3hot = t.d3hot := rfl
@[simp] theorem State.sameSecure_usbUp (s t : State) : (s.sameSecure t).usbUp = t.usbUp := rfl
@[simp] theorem State.sameSecure_usbSq (s t : State) : (s.sameSecure t).usbSq = t.usbSq := rfl
@[simp] theorem State.sameSecure_usbCq (s t : State) : (s.sameSecure t).usbCq = t.usbCq := rfl
@[simp] theorem State.sameSecure_bmcSq (s t : State) : (s.sameSecure t).bmcSq = t.bmcSq := rfl
@[simp] theorem State.sameSecure_bmcCq (s t : State) : (s.sameSecure t).bmcCq = t.bmcCq := rfl
@[simp] theorem State.sameSecure_pairPosted (s t : State) : (s.sameSecure t).pairPosted = t.pairPosted := rfl
@[simp] theorem State.sameSecure_pairHead (s t : State) : (s.sameSecure t).pairHead = t.pairHead := rfl
@[simp] theorem State.sameSecure_usbOut (s t : State) : (s.sameSecure t).usbOut = t.usbOut := rfl
@[simp] theorem State.sameSecure_usbNotes (s t : State) : (s.sameSecure t).usbNotes = t.usbNotes := rfl
@[simp] theorem State.sameSecure_softReset (s t : State) : (s.sameSecure t).softReset = t.softReset := rfl
@[simp] theorem State.sameSecure_softPosted (s t : State) : (s.sameSecure t).softPosted = t.softPosted := rfl
@[simp] theorem State.sameSecure_renumber (s t : State) : (s.sameSecure t).renumber = t.renumber := rfl
@[simp] theorem State.sameSecure_serve (s t : State) : (s.sameSecure t).serve = t.serve := rfl
@[simp] theorem State.sameSecure_cpIn (s t : State) : (s.sameSecure t).cpIn = t.cpIn := rfl
@[simp] theorem State.sameSecure_cpRows (s t : State) : (s.sameSecure t).cpRows = t.cpRows := rfl
@[simp] theorem State.sameSecure_disp (s t : State) : (s.sameSecure t).disp = t.disp := rfl
@[simp] theorem State.sameSecure_lastLayer (s t : State) : (s.sameSecure t).lastLayer = t.lastLayer := rfl
@[simp] theorem State.sameSecure_preds (s t : State) : (s.sameSecure t).preds = t.preds := rfl
@[simp] theorem State.sameSecure_wloads (s t : State) : (s.sameSecure t).wloads = t.wloads := rfl
@[simp] theorem State.sameSecure_staging (s t : State) : (s.sameSecure t).staging = t.staging := rfl
@[simp] theorem State.sameSecure_rings (s t : State) : (s.sameSecure t).rings = t.rings := rfl
@[simp] theorem State.sameSecure_backlog (s t : State) : (s.sameSecure t).backlog = t.backlog := rfl
@[simp] theorem State.sameSecure_segEngine (s t : State) : (s.sameSecure t).segEngine = t.segEngine := rfl
@[simp] theorem State.sameSecure_segSeq (s t : State) : (s.sameSecure t).segSeq = t.segSeq := rfl
@[simp] theorem State.sameSecure_slices (s t : State) : (s.sameSecure t).slices = t.slices := rfl
@[simp] theorem State.sameSecure_driveCmds (s t : State) : (s.sameSecure t).driveCmds = t.driveCmds := rfl
@[simp] theorem State.sameSecure_drives (s t : State) : (s.sameSecure t).drives = t.drives := rfl
@[simp] theorem State.sameSecure_logCount (s t : State) : (s.sameSecure t).logCount = t.logCount := rfl
@[simp] theorem State.sameSecure_logCopied (s t : State) : (s.sameSecure t).logCopied = t.logCopied := rfl
@[simp] theorem State.sameSecure_dmaIn (s t : State) : (s.sameSecure t).dmaIn = t.dmaIn := rfl
@[simp] theorem State.sameSecure_dmaRows (s t : State) : (s.sameSecure t).dmaRows = t.dmaRows := rfl
@[simp] theorem State.sameSecure_bar2Out (s t : State) : (s.sameSecure t).bar2Out = t.bar2Out := rfl
@[simp] theorem State.sameSecure_mbxSince (s t : State) : (s.sameSecure t).mbxSince = t.mbxSince := rfl
@[simp] theorem State.sameSecure_mbxBell (s t : State) : (s.sameSecure t).mbxBell = t.mbxBell := rfl
@[simp] theorem State.sameSecure_flash (s t : State) : (s.sameSecure t).flash = s.flash := rfl
@[simp] theorem State.sameSecure_selector (s t : State) : (s.sameSecure t).selector = s.selector := rfl
@[simp] theorem State.sameSecure_akGen (s t : State) : (s.sameSecure t).akGen = s.akGen := rfl
@[simp] theorem State.sameSecure_recovery (s t : State) : (s.sameSecure t).recovery = s.recovery := rfl
@[simp] theorem State.sameSecure_inbox (s t : State) : (s.sameSecure t).inbox = t.inbox := rfl
@[simp] theorem State.sameSecure_arrivals (s t : State) : (s.sameSecure t).arrivals = t.arrivals := rfl
@[simp] theorem State.sameSecure_ports (s t : State) : (s.sameSecure t).ports = t.ports := rfl
@[simp] theorem State.sameSecure_fabOut (s t : State) : (s.sameSecure t).fabOut = t.fabOut := rfl
@[simp] theorem State.sameSecure_cpBad (s t : State) : (s.sameSecure t).cpBad = t.cpBad := rfl
@[simp] theorem State.sameSecure_broken (s t : State) : (s.sameSecure t).broken = t.broken := rfl
@[simp] theorem State.sameSecure_wave (s t : State) : (s.sameSecure t).wave = t.wave := rfl
@[simp] theorem State.sameSecure_suspects (s t : State) : (s.sameSecure t).suspects = t.suspects := rfl
@[simp] theorem State.sameSecure_holds (s t : State) : (s.sameSecure t).holds = t.holds := rfl
@[simp] theorem State.sameSecure_collect (s t : State) : (s.sameSecure t).collect = t.collect := rfl
@[simp] theorem State.sameSecure_telLive (s t : State) : (s.sameSecure t).telLive = t.telLive := rfl
@[simp] theorem State.sameSecure_pwr (s t : State) : (s.sameSecure t).pwr = t.pwr := rfl
@[simp] theorem State.sameSecure_rope (s t : State) : (s.sameSecure t).rope = t.rope := rfl
@[simp] theorem State.sameSecure_boot (s t : State) : (s.sameSecure t).boot = t.boot := rfl
@[simp] theorem State.sameSecure_mpDown (s t : State) : (s.sameSecure t).mpDown = t.mpDown := rfl
@[simp] theorem State.sameSecure_mpReload (s t : State) : (s.sameSecure t).mpReload = t.mpReload := rfl
@[simp] theorem State.sameSecure_polls (s t : State) : (s.sameSecure t).polls = t.polls := rfl
@[simp] theorem State.sameSecure_polled (s t : State) : (s.sameSecure t).polled = t.polled := rfl
@[simp] theorem State.sameSecure_sparing (s t : State) : (s.sameSecure t).sparing = t.sparing := rfl
@[simp] theorem State.sameSecure_cairnDue (s t : State) : (s.sameSecure t).cairnDue = t.cairnDue := rfl
@[simp] theorem State.sameSecure_fieldRepairs (s t : State) : (s.sameSecure t).fieldRepairs = t.fieldRepairs := rfl
@[simp] theorem State.sameSecure_svns (s t : State) : (s.sameSecure t).svns = s.svns := rfl
@[simp] theorem State.sameSecure_ropeList (s t : State) : (s.sameSecure t).ropeList = t.ropeList := rfl

/-! ## sameFabric -/

@[simp] theorem State.sameFabric_pending (s t : State) : (s.sameFabric t).pending = t.pending := rfl
@[simp] theorem State.sameFabric_now (s t : State) : (s.sameFabric t).now = t.now := rfl
@[simp] theorem State.sameFabric_free (s t : State) : (s.sameFabric t).free = t.free := rfl
@[simp] theorem State.sameFabric_regs (s t : State) : (s.sameFabric t).regs = t.regs := rfl
@[simp] theorem State.sameFabric_cores (s t : State) : (s.sameFabric t).cores = t.cores := rfl
@[simp] theorem State.sameFabric_dmem (s t : State) : (s.sameFabric t).dmem = t.dmem := rfl
@[simp] theorem State.sameFabric_disks (s t : State) : (s.sameFabric t).disks = t.disks := rfl
@[simp] theorem State.sameFabric_ledgeErr (s t : State) : (s.sameFabric t).ledgeErr = t.ledgeErr := rfl
@[simp] theorem State.sameFabric_ledgeRows (s t : State) : (s.sameFabric t).ledgeRows = t.ledgeRows := rfl
@[simp] theorem State.sameFabric_rowErr (s t : State) : (s.sameFabric t).rowErr = t.rowErr := rfl
@[simp] theorem State.sameFabric_edcFaults (s t : State) : (s.sameFabric t).edcFaults = t.edcFaults := rfl
@[simp] theorem State.sameFabric_badWords (s t : State) : (s.sameFabric t).badWords = t.badWords := rfl
@[simp] theorem State.sameFabric_hmem (s t : State) : (s.sameFabric t).hmem = t.hmem := rfl
@[simp] theorem State.sameFabric_atoms (s t : State) : (s.sameFabric t).atoms = t.atoms := rfl
@[simp] theorem State.sameFabric_atomResps (s t : State) : (s.sameFabric t).atomResps = t.atomResps := rfl
@[simp] theorem State.sameFabric_doorbells (s t : State) : (s.sameFabric t).doorbells = t.doorbells := rfl
@[simp] theorem State.sameFabric_completes (s t : State) : (s.sameFabric t).completes = t.completes := rfl
@[simp] theorem State.sameFabric_barriers (s t : State) : (s.sameFabric t).barriers = t.barriers := rfl
@[simp] theorem State.sameFabric_lists (s t : State) : (s.sameFabric t).lists = t.lists := rfl
@[simp] theorem State.sameFabric_cmds (s t : State) : (s.sameFabric t).cmds = t.cmds := rfl
@[simp] theorem State.sameFabric_nextCmd (s t : State) : (s.sameFabric t).nextCmd = t.nextCmd := rfl
@[simp] theorem State.sameFabric_log (s t : State) : (s.sameFabric t).log = t.log := rfl
@[simp] theorem State.sameFabric_vecReq (s t : State) : (s.sameFabric t).vecReq = t.vecReq := rfl
@[simp] theorem State.sameFabric_fenceDue (s t : State) : (s.sameFabric t).fenceDue = t.fenceDue := rfl
@[simp] theorem State.sameFabric_remoteReqs (s t : State) : (s.sameFabric t).remoteReqs = t.remoteReqs := rfl
@[simp] theorem State.sameFabric_egress (s t : State) : (s.sameFabric t).egress = t.egress := rfl
@[simp] theorem State.sameFabric_latches (s t : State) : (s.sameFabric t).latches = t.latches := rfl
@[simp] theorem State.sameFabric_imemLatch (s t : State) : (s.sameFabric t).imemLatch = t.imemLatch := rfl
@[simp] theorem State.sameFabric_logLatch (s t : State) : (s.sameFabric t).logLatch = t.logLatch := rfl
@[simp] theorem State.sameFabric_readData (s t : State) : (s.sameFabric t).readData = t.readData := rfl
@[simp] theorem State.sameFabric_bootStep (s t : State) : (s.sameFabric t).bootStep = t.bootStep := rfl
@[simp] theorem State.sameFabric_pcieUp (s t : State) : (s.sameFabric t).pcieUp = t.pcieUp := rfl
@[simp] theorem State.sameFabric_meshOut (s t : State) : (s.sameFabric t).meshOut = t.meshOut := rfl
@[simp] theorem State.sameFabric_debugSeen (s t : State) : (s.sameFabric t).debugSeen = t.debugSeen := rfl
@[simp] theorem State.sameFabric_fetched (s t : State) : (s.sameFabric t).fetched = t.fetched := rfl
@[simp] theorem State.sameFabric_deferNo (s t : State) : (s.sameFabric t).deferNo = t.deferNo := rfl
@[simp] theorem State.sameFabric_posting (s t : State) : (s.sameFabric t).posting = t.posting := rfl
@[simp] theorem State.sameFabric_pend (s t : State) : (s.sameFabric t).pend = t.pend := rfl
@[simp] theorem State.sameFabric_pendFrom (s t : State) : (s.sameFabric t).pendFrom = t.pendFrom := rfl
@[simp] theorem State.sameFabric_qEnding (s t : State) : (s.sameFabric t).qEnding = t.qEnding := rfl
@[simp] theorem State.sameFabric_cpTurn (s t : State) : (s.sameFabric t).cpTurn = t.cpTurn := rfl
@[simp] theorem State.sameFabric_phase (s t : State) : (s.sameFabric t).phase = t.phase := rfl
@[simp] theorem State.sameFabric_unsig (s t : State) : (s.sameFabric t).unsig = t.unsig := rfl
@[simp] theorem State.sameFabric_msixOut (s t : State) : (s.sameFabric t).msixOut = t.msixOut := rfl
@[simp] theorem State.sameFabric_busMaster (s t : State) : (s.sameFabric t).busMaster = t.busMaster := rfl
@[simp] theorem State.sameFabric_inD0 (s t : State) : (s.sameFabric t).inD0 = t.inD0 := rfl
@[simp] theorem State.sameFabric_d3hot (s t : State) : (s.sameFabric t).d3hot = t.d3hot := rfl
@[simp] theorem State.sameFabric_usbUp (s t : State) : (s.sameFabric t).usbUp = t.usbUp := rfl
@[simp] theorem State.sameFabric_usbSq (s t : State) : (s.sameFabric t).usbSq = t.usbSq := rfl
@[simp] theorem State.sameFabric_usbCq (s t : State) : (s.sameFabric t).usbCq = t.usbCq := rfl
@[simp] theorem State.sameFabric_bmcSq (s t : State) : (s.sameFabric t).bmcSq = t.bmcSq := rfl
@[simp] theorem State.sameFabric_bmcCq (s t : State) : (s.sameFabric t).bmcCq = t.bmcCq := rfl
@[simp] theorem State.sameFabric_pairPosted (s t : State) : (s.sameFabric t).pairPosted = t.pairPosted := rfl
@[simp] theorem State.sameFabric_pairHead (s t : State) : (s.sameFabric t).pairHead = t.pairHead := rfl
@[simp] theorem State.sameFabric_usbOut (s t : State) : (s.sameFabric t).usbOut = t.usbOut := rfl
@[simp] theorem State.sameFabric_usbNotes (s t : State) : (s.sameFabric t).usbNotes = t.usbNotes := rfl
@[simp] theorem State.sameFabric_softReset (s t : State) : (s.sameFabric t).softReset = t.softReset := rfl
@[simp] theorem State.sameFabric_softPosted (s t : State) : (s.sameFabric t).softPosted = t.softPosted := rfl
@[simp] theorem State.sameFabric_renumber (s t : State) : (s.sameFabric t).renumber = t.renumber := rfl
@[simp] theorem State.sameFabric_serve (s t : State) : (s.sameFabric t).serve = t.serve := rfl
@[simp] theorem State.sameFabric_cpIn (s t : State) : (s.sameFabric t).cpIn = t.cpIn := rfl
@[simp] theorem State.sameFabric_cpRows (s t : State) : (s.sameFabric t).cpRows = t.cpRows := rfl
@[simp] theorem State.sameFabric_disp (s t : State) : (s.sameFabric t).disp = t.disp := rfl
@[simp] theorem State.sameFabric_lastLayer (s t : State) : (s.sameFabric t).lastLayer = t.lastLayer := rfl
@[simp] theorem State.sameFabric_preds (s t : State) : (s.sameFabric t).preds = t.preds := rfl
@[simp] theorem State.sameFabric_wloads (s t : State) : (s.sameFabric t).wloads = t.wloads := rfl
@[simp] theorem State.sameFabric_staging (s t : State) : (s.sameFabric t).staging = t.staging := rfl
@[simp] theorem State.sameFabric_rings (s t : State) : (s.sameFabric t).rings = t.rings := rfl
@[simp] theorem State.sameFabric_backlog (s t : State) : (s.sameFabric t).backlog = t.backlog := rfl
@[simp] theorem State.sameFabric_segEngine (s t : State) : (s.sameFabric t).segEngine = t.segEngine := rfl
@[simp] theorem State.sameFabric_segSeq (s t : State) : (s.sameFabric t).segSeq = t.segSeq := rfl
@[simp] theorem State.sameFabric_slices (s t : State) : (s.sameFabric t).slices = t.slices := rfl
@[simp] theorem State.sameFabric_driveCmds (s t : State) : (s.sameFabric t).driveCmds = t.driveCmds := rfl
@[simp] theorem State.sameFabric_drives (s t : State) : (s.sameFabric t).drives = t.drives := rfl
@[simp] theorem State.sameFabric_logCount (s t : State) : (s.sameFabric t).logCount = t.logCount := rfl
@[simp] theorem State.sameFabric_logCopied (s t : State) : (s.sameFabric t).logCopied = t.logCopied := rfl
@[simp] theorem State.sameFabric_dmaIn (s t : State) : (s.sameFabric t).dmaIn = t.dmaIn := rfl
@[simp] theorem State.sameFabric_dmaRows (s t : State) : (s.sameFabric t).dmaRows = t.dmaRows := rfl
@[simp] theorem State.sameFabric_bar2Out (s t : State) : (s.sameFabric t).bar2Out = t.bar2Out := rfl
@[simp] theorem State.sameFabric_mbxSince (s t : State) : (s.sameFabric t).mbxSince = t.mbxSince := rfl
@[simp] theorem State.sameFabric_mbxBell (s t : State) : (s.sameFabric t).mbxBell = t.mbxBell := rfl
@[simp] theorem State.sameFabric_flash (s t : State) : (s.sameFabric t).flash = t.flash := rfl
@[simp] theorem State.sameFabric_selector (s t : State) : (s.sameFabric t).selector = t.selector := rfl
@[simp] theorem State.sameFabric_akGen (s t : State) : (s.sameFabric t).akGen = t.akGen := rfl
@[simp] theorem State.sameFabric_recovery (s t : State) : (s.sameFabric t).recovery = t.recovery := rfl
@[simp] theorem State.sameFabric_inbox (s t : State) : (s.sameFabric t).inbox = t.inbox := rfl
@[simp] theorem State.sameFabric_arrivals (s t : State) : (s.sameFabric t).arrivals = s.arrivals := rfl
@[simp] theorem State.sameFabric_ports (s t : State) : (s.sameFabric t).ports = s.ports := rfl
@[simp] theorem State.sameFabric_fabOut (s t : State) : (s.sameFabric t).fabOut = s.fabOut := rfl
@[simp] theorem State.sameFabric_cpBad (s t : State) : (s.sameFabric t).cpBad = t.cpBad := rfl
@[simp] theorem State.sameFabric_broken (s t : State) : (s.sameFabric t).broken = s.broken := rfl
@[simp] theorem State.sameFabric_wave (s t : State) : (s.sameFabric t).wave = s.wave := rfl
@[simp] theorem State.sameFabric_suspects (s t : State) : (s.sameFabric t).suspects = s.suspects := rfl
@[simp] theorem State.sameFabric_holds (s t : State) : (s.sameFabric t).holds = s.holds := rfl
@[simp] theorem State.sameFabric_collect (s t : State) : (s.sameFabric t).collect = s.collect := rfl
@[simp] theorem State.sameFabric_telLive (s t : State) : (s.sameFabric t).telLive = t.telLive := rfl
@[simp] theorem State.sameFabric_pwr (s t : State) : (s.sameFabric t).pwr = t.pwr := rfl
@[simp] theorem State.sameFabric_rope (s t : State) : (s.sameFabric t).rope = t.rope := rfl
@[simp] theorem State.sameFabric_boot (s t : State) : (s.sameFabric t).boot = t.boot := rfl
@[simp] theorem State.sameFabric_mpDown (s t : State) : (s.sameFabric t).mpDown = t.mpDown := rfl
@[simp] theorem State.sameFabric_mpReload (s t : State) : (s.sameFabric t).mpReload = t.mpReload := rfl
@[simp] theorem State.sameFabric_polls (s t : State) : (s.sameFabric t).polls = t.polls := rfl
@[simp] theorem State.sameFabric_polled (s t : State) : (s.sameFabric t).polled = t.polled := rfl
@[simp] theorem State.sameFabric_sparing (s t : State) : (s.sameFabric t).sparing = t.sparing := rfl
@[simp] theorem State.sameFabric_cairnDue (s t : State) : (s.sameFabric t).cairnDue = t.cairnDue := rfl
@[simp] theorem State.sameFabric_fieldRepairs (s t : State) : (s.sameFabric t).fieldRepairs = t.fieldRepairs := rfl
@[simp] theorem State.sameFabric_svns (s t : State) : (s.sameFabric t).svns = t.svns := rfl
@[simp] theorem State.sameFabric_ropeList (s t : State) : (s.sameFabric t).ropeList = t.ropeList := rfl

/-! ## samePower -/

@[simp] theorem State.samePower_pending (s t : State) : (s.samePower t).pending = t.pending := rfl
@[simp] theorem State.samePower_now (s t : State) : (s.samePower t).now = t.now := rfl
@[simp] theorem State.samePower_free (s t : State) : (s.samePower t).free = t.free := rfl
@[simp] theorem State.samePower_regs (s t : State) : (s.samePower t).regs = t.regs := rfl
@[simp] theorem State.samePower_cores (s t : State) : (s.samePower t).cores = t.cores := rfl
@[simp] theorem State.samePower_dmem (s t : State) : (s.samePower t).dmem = t.dmem := rfl
@[simp] theorem State.samePower_disks (s t : State) : (s.samePower t).disks = t.disks := rfl
@[simp] theorem State.samePower_ledgeErr (s t : State) : (s.samePower t).ledgeErr = t.ledgeErr := rfl
@[simp] theorem State.samePower_ledgeRows (s t : State) : (s.samePower t).ledgeRows = t.ledgeRows := rfl
@[simp] theorem State.samePower_rowErr (s t : State) : (s.samePower t).rowErr = t.rowErr := rfl
@[simp] theorem State.samePower_edcFaults (s t : State) : (s.samePower t).edcFaults = t.edcFaults := rfl
@[simp] theorem State.samePower_badWords (s t : State) : (s.samePower t).badWords = t.badWords := rfl
@[simp] theorem State.samePower_hmem (s t : State) : (s.samePower t).hmem = t.hmem := rfl
@[simp] theorem State.samePower_atoms (s t : State) : (s.samePower t).atoms = t.atoms := rfl
@[simp] theorem State.samePower_atomResps (s t : State) : (s.samePower t).atomResps = t.atomResps := rfl
@[simp] theorem State.samePower_doorbells (s t : State) : (s.samePower t).doorbells = t.doorbells := rfl
@[simp] theorem State.samePower_completes (s t : State) : (s.samePower t).completes = t.completes := rfl
@[simp] theorem State.samePower_barriers (s t : State) : (s.samePower t).barriers = t.barriers := rfl
@[simp] theorem State.samePower_lists (s t : State) : (s.samePower t).lists = t.lists := rfl
@[simp] theorem State.samePower_cmds (s t : State) : (s.samePower t).cmds = t.cmds := rfl
@[simp] theorem State.samePower_nextCmd (s t : State) : (s.samePower t).nextCmd = t.nextCmd := rfl
@[simp] theorem State.samePower_log (s t : State) : (s.samePower t).log = t.log := rfl
@[simp] theorem State.samePower_vecReq (s t : State) : (s.samePower t).vecReq = t.vecReq := rfl
@[simp] theorem State.samePower_fenceDue (s t : State) : (s.samePower t).fenceDue = t.fenceDue := rfl
@[simp] theorem State.samePower_remoteReqs (s t : State) : (s.samePower t).remoteReqs = t.remoteReqs := rfl
@[simp] theorem State.samePower_egress (s t : State) : (s.samePower t).egress = t.egress := rfl
@[simp] theorem State.samePower_latches (s t : State) : (s.samePower t).latches = t.latches := rfl
@[simp] theorem State.samePower_imemLatch (s t : State) : (s.samePower t).imemLatch = t.imemLatch := rfl
@[simp] theorem State.samePower_logLatch (s t : State) : (s.samePower t).logLatch = t.logLatch := rfl
@[simp] theorem State.samePower_readData (s t : State) : (s.samePower t).readData = t.readData := rfl
@[simp] theorem State.samePower_bootStep (s t : State) : (s.samePower t).bootStep = t.bootStep := rfl
@[simp] theorem State.samePower_pcieUp (s t : State) : (s.samePower t).pcieUp = t.pcieUp := rfl
@[simp] theorem State.samePower_meshOut (s t : State) : (s.samePower t).meshOut = t.meshOut := rfl
@[simp] theorem State.samePower_debugSeen (s t : State) : (s.samePower t).debugSeen = t.debugSeen := rfl
@[simp] theorem State.samePower_fetched (s t : State) : (s.samePower t).fetched = t.fetched := rfl
@[simp] theorem State.samePower_deferNo (s t : State) : (s.samePower t).deferNo = t.deferNo := rfl
@[simp] theorem State.samePower_posting (s t : State) : (s.samePower t).posting = t.posting := rfl
@[simp] theorem State.samePower_pend (s t : State) : (s.samePower t).pend = t.pend := rfl
@[simp] theorem State.samePower_pendFrom (s t : State) : (s.samePower t).pendFrom = t.pendFrom := rfl
@[simp] theorem State.samePower_qEnding (s t : State) : (s.samePower t).qEnding = t.qEnding := rfl
@[simp] theorem State.samePower_cpTurn (s t : State) : (s.samePower t).cpTurn = t.cpTurn := rfl
@[simp] theorem State.samePower_phase (s t : State) : (s.samePower t).phase = t.phase := rfl
@[simp] theorem State.samePower_unsig (s t : State) : (s.samePower t).unsig = t.unsig := rfl
@[simp] theorem State.samePower_msixOut (s t : State) : (s.samePower t).msixOut = t.msixOut := rfl
@[simp] theorem State.samePower_busMaster (s t : State) : (s.samePower t).busMaster = t.busMaster := rfl
@[simp] theorem State.samePower_inD0 (s t : State) : (s.samePower t).inD0 = t.inD0 := rfl
@[simp] theorem State.samePower_d3hot (s t : State) : (s.samePower t).d3hot = t.d3hot := rfl
@[simp] theorem State.samePower_usbUp (s t : State) : (s.samePower t).usbUp = t.usbUp := rfl
@[simp] theorem State.samePower_usbSq (s t : State) : (s.samePower t).usbSq = t.usbSq := rfl
@[simp] theorem State.samePower_usbCq (s t : State) : (s.samePower t).usbCq = t.usbCq := rfl
@[simp] theorem State.samePower_bmcSq (s t : State) : (s.samePower t).bmcSq = t.bmcSq := rfl
@[simp] theorem State.samePower_bmcCq (s t : State) : (s.samePower t).bmcCq = t.bmcCq := rfl
@[simp] theorem State.samePower_pairPosted (s t : State) : (s.samePower t).pairPosted = t.pairPosted := rfl
@[simp] theorem State.samePower_pairHead (s t : State) : (s.samePower t).pairHead = t.pairHead := rfl
@[simp] theorem State.samePower_usbOut (s t : State) : (s.samePower t).usbOut = t.usbOut := rfl
@[simp] theorem State.samePower_usbNotes (s t : State) : (s.samePower t).usbNotes = t.usbNotes := rfl
@[simp] theorem State.samePower_softReset (s t : State) : (s.samePower t).softReset = t.softReset := rfl
@[simp] theorem State.samePower_softPosted (s t : State) : (s.samePower t).softPosted = t.softPosted := rfl
@[simp] theorem State.samePower_renumber (s t : State) : (s.samePower t).renumber = t.renumber := rfl
@[simp] theorem State.samePower_serve (s t : State) : (s.samePower t).serve = t.serve := rfl
@[simp] theorem State.samePower_cpIn (s t : State) : (s.samePower t).cpIn = t.cpIn := rfl
@[simp] theorem State.samePower_cpRows (s t : State) : (s.samePower t).cpRows = t.cpRows := rfl
@[simp] theorem State.samePower_disp (s t : State) : (s.samePower t).disp = t.disp := rfl
@[simp] theorem State.samePower_lastLayer (s t : State) : (s.samePower t).lastLayer = t.lastLayer := rfl
@[simp] theorem State.samePower_preds (s t : State) : (s.samePower t).preds = t.preds := rfl
@[simp] theorem State.samePower_wloads (s t : State) : (s.samePower t).wloads = t.wloads := rfl
@[simp] theorem State.samePower_staging (s t : State) : (s.samePower t).staging = t.staging := rfl
@[simp] theorem State.samePower_rings (s t : State) : (s.samePower t).rings = t.rings := rfl
@[simp] theorem State.samePower_backlog (s t : State) : (s.samePower t).backlog = t.backlog := rfl
@[simp] theorem State.samePower_segEngine (s t : State) : (s.samePower t).segEngine = t.segEngine := rfl
@[simp] theorem State.samePower_segSeq (s t : State) : (s.samePower t).segSeq = t.segSeq := rfl
@[simp] theorem State.samePower_slices (s t : State) : (s.samePower t).slices = t.slices := rfl
@[simp] theorem State.samePower_driveCmds (s t : State) : (s.samePower t).driveCmds = t.driveCmds := rfl
@[simp] theorem State.samePower_drives (s t : State) : (s.samePower t).drives = t.drives := rfl
@[simp] theorem State.samePower_logCount (s t : State) : (s.samePower t).logCount = t.logCount := rfl
@[simp] theorem State.samePower_logCopied (s t : State) : (s.samePower t).logCopied = t.logCopied := rfl
@[simp] theorem State.samePower_dmaIn (s t : State) : (s.samePower t).dmaIn = t.dmaIn := rfl
@[simp] theorem State.samePower_dmaRows (s t : State) : (s.samePower t).dmaRows = t.dmaRows := rfl
@[simp] theorem State.samePower_bar2Out (s t : State) : (s.samePower t).bar2Out = t.bar2Out := rfl
@[simp] theorem State.samePower_mbxSince (s t : State) : (s.samePower t).mbxSince = t.mbxSince := rfl
@[simp] theorem State.samePower_mbxBell (s t : State) : (s.samePower t).mbxBell = t.mbxBell := rfl
@[simp] theorem State.samePower_flash (s t : State) : (s.samePower t).flash = t.flash := rfl
@[simp] theorem State.samePower_selector (s t : State) : (s.samePower t).selector = t.selector := rfl
@[simp] theorem State.samePower_akGen (s t : State) : (s.samePower t).akGen = t.akGen := rfl
@[simp] theorem State.samePower_recovery (s t : State) : (s.samePower t).recovery = t.recovery := rfl
@[simp] theorem State.samePower_inbox (s t : State) : (s.samePower t).inbox = t.inbox := rfl
@[simp] theorem State.samePower_arrivals (s t : State) : (s.samePower t).arrivals = t.arrivals := rfl
@[simp] theorem State.samePower_ports (s t : State) : (s.samePower t).ports = t.ports := rfl
@[simp] theorem State.samePower_fabOut (s t : State) : (s.samePower t).fabOut = t.fabOut := rfl
@[simp] theorem State.samePower_cpBad (s t : State) : (s.samePower t).cpBad = t.cpBad := rfl
@[simp] theorem State.samePower_broken (s t : State) : (s.samePower t).broken = t.broken := rfl
@[simp] theorem State.samePower_wave (s t : State) : (s.samePower t).wave = t.wave := rfl
@[simp] theorem State.samePower_suspects (s t : State) : (s.samePower t).suspects = t.suspects := rfl
@[simp] theorem State.samePower_holds (s t : State) : (s.samePower t).holds = t.holds := rfl
@[simp] theorem State.samePower_collect (s t : State) : (s.samePower t).collect = t.collect := rfl
@[simp] theorem State.samePower_telLive (s t : State) : (s.samePower t).telLive = t.telLive := rfl
@[simp] theorem State.samePower_pwr (s t : State) : (s.samePower t).pwr = s.pwr := rfl
@[simp] theorem State.samePower_rope (s t : State) : (s.samePower t).rope = s.rope := rfl
@[simp] theorem State.samePower_boot (s t : State) : (s.samePower t).boot = t.boot := rfl
@[simp] theorem State.samePower_mpDown (s t : State) : (s.samePower t).mpDown = t.mpDown := rfl
@[simp] theorem State.samePower_mpReload (s t : State) : (s.samePower t).mpReload = t.mpReload := rfl
@[simp] theorem State.samePower_polls (s t : State) : (s.samePower t).polls = t.polls := rfl
@[simp] theorem State.samePower_polled (s t : State) : (s.samePower t).polled = t.polled := rfl
@[simp] theorem State.samePower_sparing (s t : State) : (s.samePower t).sparing = t.sparing := rfl
@[simp] theorem State.samePower_cairnDue (s t : State) : (s.samePower t).cairnDue = t.cairnDue := rfl
@[simp] theorem State.samePower_fieldRepairs (s t : State) : (s.samePower t).fieldRepairs = t.fieldRepairs := rfl
@[simp] theorem State.samePower_svns (s t : State) : (s.samePower t).svns = t.svns := rfl
@[simp] theorem State.samePower_ropeList (s t : State) : (s.samePower t).ropeList = s.ropeList := rfl

/-! ## sameMem -/

@[simp] theorem State.sameMem_pending (s t : State) : (s.sameMem t).pending = t.pending := rfl
@[simp] theorem State.sameMem_now (s t : State) : (s.sameMem t).now = t.now := rfl
@[simp] theorem State.sameMem_free (s t : State) : (s.sameMem t).free = t.free := rfl
@[simp] theorem State.sameMem_regs (s t : State) : (s.sameMem t).regs = t.regs := rfl
@[simp] theorem State.sameMem_cores (s t : State) : (s.sameMem t).cores = t.cores := rfl
@[simp] theorem State.sameMem_dmem (s t : State) : (s.sameMem t).dmem = s.dmem := rfl
@[simp] theorem State.sameMem_disks (s t : State) : (s.sameMem t).disks = s.disks := rfl
@[simp] theorem State.sameMem_ledgeErr (s t : State) : (s.sameMem t).ledgeErr = t.ledgeErr := rfl
@[simp] theorem State.sameMem_ledgeRows (s t : State) : (s.sameMem t).ledgeRows = t.ledgeRows := rfl
@[simp] theorem State.sameMem_rowErr (s t : State) : (s.sameMem t).rowErr = s.rowErr := rfl
@[simp] theorem State.sameMem_edcFaults (s t : State) : (s.sameMem t).edcFaults = t.edcFaults := rfl
@[simp] theorem State.sameMem_badWords (s t : State) : (s.sameMem t).badWords = t.badWords := rfl
@[simp] theorem State.sameMem_hmem (s t : State) : (s.sameMem t).hmem = s.hmem := rfl
@[simp] theorem State.sameMem_atoms (s t : State) : (s.sameMem t).atoms = t.atoms := rfl
@[simp] theorem State.sameMem_atomResps (s t : State) : (s.sameMem t).atomResps = t.atomResps := rfl
@[simp] theorem State.sameMem_doorbells (s t : State) : (s.sameMem t).doorbells = t.doorbells := rfl
@[simp] theorem State.sameMem_completes (s t : State) : (s.sameMem t).completes = t.completes := rfl
@[simp] theorem State.sameMem_barriers (s t : State) : (s.sameMem t).barriers = t.barriers := rfl
@[simp] theorem State.sameMem_lists (s t : State) : (s.sameMem t).lists = t.lists := rfl
@[simp] theorem State.sameMem_cmds (s t : State) : (s.sameMem t).cmds = t.cmds := rfl
@[simp] theorem State.sameMem_nextCmd (s t : State) : (s.sameMem t).nextCmd = t.nextCmd := rfl
@[simp] theorem State.sameMem_log (s t : State) : (s.sameMem t).log = t.log := rfl
@[simp] theorem State.sameMem_vecReq (s t : State) : (s.sameMem t).vecReq = t.vecReq := rfl
@[simp] theorem State.sameMem_fenceDue (s t : State) : (s.sameMem t).fenceDue = t.fenceDue := rfl
@[simp] theorem State.sameMem_remoteReqs (s t : State) : (s.sameMem t).remoteReqs = t.remoteReqs := rfl
@[simp] theorem State.sameMem_egress (s t : State) : (s.sameMem t).egress = t.egress := rfl
@[simp] theorem State.sameMem_latches (s t : State) : (s.sameMem t).latches = t.latches := rfl
@[simp] theorem State.sameMem_imemLatch (s t : State) : (s.sameMem t).imemLatch = t.imemLatch := rfl
@[simp] theorem State.sameMem_logLatch (s t : State) : (s.sameMem t).logLatch = t.logLatch := rfl
@[simp] theorem State.sameMem_readData (s t : State) : (s.sameMem t).readData = t.readData := rfl
@[simp] theorem State.sameMem_bootStep (s t : State) : (s.sameMem t).bootStep = t.bootStep := rfl
@[simp] theorem State.sameMem_pcieUp (s t : State) : (s.sameMem t).pcieUp = t.pcieUp := rfl
@[simp] theorem State.sameMem_meshOut (s t : State) : (s.sameMem t).meshOut = t.meshOut := rfl
@[simp] theorem State.sameMem_debugSeen (s t : State) : (s.sameMem t).debugSeen = t.debugSeen := rfl
@[simp] theorem State.sameMem_fetched (s t : State) : (s.sameMem t).fetched = t.fetched := rfl
@[simp] theorem State.sameMem_deferNo (s t : State) : (s.sameMem t).deferNo = t.deferNo := rfl
@[simp] theorem State.sameMem_posting (s t : State) : (s.sameMem t).posting = t.posting := rfl
@[simp] theorem State.sameMem_pend (s t : State) : (s.sameMem t).pend = t.pend := rfl
@[simp] theorem State.sameMem_pendFrom (s t : State) : (s.sameMem t).pendFrom = t.pendFrom := rfl
@[simp] theorem State.sameMem_qEnding (s t : State) : (s.sameMem t).qEnding = t.qEnding := rfl
@[simp] theorem State.sameMem_cpTurn (s t : State) : (s.sameMem t).cpTurn = t.cpTurn := rfl
@[simp] theorem State.sameMem_phase (s t : State) : (s.sameMem t).phase = t.phase := rfl
@[simp] theorem State.sameMem_unsig (s t : State) : (s.sameMem t).unsig = t.unsig := rfl
@[simp] theorem State.sameMem_msixOut (s t : State) : (s.sameMem t).msixOut = t.msixOut := rfl
@[simp] theorem State.sameMem_busMaster (s t : State) : (s.sameMem t).busMaster = t.busMaster := rfl
@[simp] theorem State.sameMem_inD0 (s t : State) : (s.sameMem t).inD0 = t.inD0 := rfl
@[simp] theorem State.sameMem_d3hot (s t : State) : (s.sameMem t).d3hot = t.d3hot := rfl
@[simp] theorem State.sameMem_usbUp (s t : State) : (s.sameMem t).usbUp = t.usbUp := rfl
@[simp] theorem State.sameMem_usbSq (s t : State) : (s.sameMem t).usbSq = t.usbSq := rfl
@[simp] theorem State.sameMem_usbCq (s t : State) : (s.sameMem t).usbCq = t.usbCq := rfl
@[simp] theorem State.sameMem_bmcSq (s t : State) : (s.sameMem t).bmcSq = t.bmcSq := rfl
@[simp] theorem State.sameMem_bmcCq (s t : State) : (s.sameMem t).bmcCq = t.bmcCq := rfl
@[simp] theorem State.sameMem_pairPosted (s t : State) : (s.sameMem t).pairPosted = t.pairPosted := rfl
@[simp] theorem State.sameMem_pairHead (s t : State) : (s.sameMem t).pairHead = t.pairHead := rfl
@[simp] theorem State.sameMem_usbOut (s t : State) : (s.sameMem t).usbOut = t.usbOut := rfl
@[simp] theorem State.sameMem_usbNotes (s t : State) : (s.sameMem t).usbNotes = t.usbNotes := rfl
@[simp] theorem State.sameMem_softReset (s t : State) : (s.sameMem t).softReset = t.softReset := rfl
@[simp] theorem State.sameMem_softPosted (s t : State) : (s.sameMem t).softPosted = t.softPosted := rfl
@[simp] theorem State.sameMem_renumber (s t : State) : (s.sameMem t).renumber = t.renumber := rfl
@[simp] theorem State.sameMem_serve (s t : State) : (s.sameMem t).serve = t.serve := rfl
@[simp] theorem State.sameMem_cpIn (s t : State) : (s.sameMem t).cpIn = t.cpIn := rfl
@[simp] theorem State.sameMem_cpRows (s t : State) : (s.sameMem t).cpRows = t.cpRows := rfl
@[simp] theorem State.sameMem_disp (s t : State) : (s.sameMem t).disp = t.disp := rfl
@[simp] theorem State.sameMem_lastLayer (s t : State) : (s.sameMem t).lastLayer = t.lastLayer := rfl
@[simp] theorem State.sameMem_preds (s t : State) : (s.sameMem t).preds = t.preds := rfl
@[simp] theorem State.sameMem_wloads (s t : State) : (s.sameMem t).wloads = t.wloads := rfl
@[simp] theorem State.sameMem_staging (s t : State) : (s.sameMem t).staging = t.staging := rfl
@[simp] theorem State.sameMem_rings (s t : State) : (s.sameMem t).rings = t.rings := rfl
@[simp] theorem State.sameMem_backlog (s t : State) : (s.sameMem t).backlog = t.backlog := rfl
@[simp] theorem State.sameMem_segEngine (s t : State) : (s.sameMem t).segEngine = t.segEngine := rfl
@[simp] theorem State.sameMem_segSeq (s t : State) : (s.sameMem t).segSeq = t.segSeq := rfl
@[simp] theorem State.sameMem_slices (s t : State) : (s.sameMem t).slices = t.slices := rfl
@[simp] theorem State.sameMem_driveCmds (s t : State) : (s.sameMem t).driveCmds = t.driveCmds := rfl
@[simp] theorem State.sameMem_drives (s t : State) : (s.sameMem t).drives = t.drives := rfl
@[simp] theorem State.sameMem_logCount (s t : State) : (s.sameMem t).logCount = t.logCount := rfl
@[simp] theorem State.sameMem_logCopied (s t : State) : (s.sameMem t).logCopied = t.logCopied := rfl
@[simp] theorem State.sameMem_dmaIn (s t : State) : (s.sameMem t).dmaIn = t.dmaIn := rfl
@[simp] theorem State.sameMem_dmaRows (s t : State) : (s.sameMem t).dmaRows = t.dmaRows := rfl
@[simp] theorem State.sameMem_bar2Out (s t : State) : (s.sameMem t).bar2Out = t.bar2Out := rfl
@[simp] theorem State.sameMem_mbxSince (s t : State) : (s.sameMem t).mbxSince = t.mbxSince := rfl
@[simp] theorem State.sameMem_mbxBell (s t : State) : (s.sameMem t).mbxBell = t.mbxBell := rfl
@[simp] theorem State.sameMem_flash (s t : State) : (s.sameMem t).flash = t.flash := rfl
@[simp] theorem State.sameMem_selector (s t : State) : (s.sameMem t).selector = t.selector := rfl
@[simp] theorem State.sameMem_akGen (s t : State) : (s.sameMem t).akGen = t.akGen := rfl
@[simp] theorem State.sameMem_recovery (s t : State) : (s.sameMem t).recovery = t.recovery := rfl
@[simp] theorem State.sameMem_inbox (s t : State) : (s.sameMem t).inbox = t.inbox := rfl
@[simp] theorem State.sameMem_arrivals (s t : State) : (s.sameMem t).arrivals = t.arrivals := rfl
@[simp] theorem State.sameMem_ports (s t : State) : (s.sameMem t).ports = t.ports := rfl
@[simp] theorem State.sameMem_fabOut (s t : State) : (s.sameMem t).fabOut = t.fabOut := rfl
@[simp] theorem State.sameMem_cpBad (s t : State) : (s.sameMem t).cpBad = t.cpBad := rfl
@[simp] theorem State.sameMem_broken (s t : State) : (s.sameMem t).broken = t.broken := rfl
@[simp] theorem State.sameMem_wave (s t : State) : (s.sameMem t).wave = t.wave := rfl
@[simp] theorem State.sameMem_suspects (s t : State) : (s.sameMem t).suspects = t.suspects := rfl
@[simp] theorem State.sameMem_holds (s t : State) : (s.sameMem t).holds = t.holds := rfl
@[simp] theorem State.sameMem_collect (s t : State) : (s.sameMem t).collect = t.collect := rfl
@[simp] theorem State.sameMem_telLive (s t : State) : (s.sameMem t).telLive = t.telLive := rfl
@[simp] theorem State.sameMem_pwr (s t : State) : (s.sameMem t).pwr = t.pwr := rfl
@[simp] theorem State.sameMem_rope (s t : State) : (s.sameMem t).rope = t.rope := rfl
@[simp] theorem State.sameMem_boot (s t : State) : (s.sameMem t).boot = t.boot := rfl
@[simp] theorem State.sameMem_mpDown (s t : State) : (s.sameMem t).mpDown = t.mpDown := rfl
@[simp] theorem State.sameMem_mpReload (s t : State) : (s.sameMem t).mpReload = t.mpReload := rfl
@[simp] theorem State.sameMem_polls (s t : State) : (s.sameMem t).polls = t.polls := rfl
@[simp] theorem State.sameMem_polled (s t : State) : (s.sameMem t).polled = t.polled := rfl
@[simp] theorem State.sameMem_sparing (s t : State) : (s.sameMem t).sparing = t.sparing := rfl
@[simp] theorem State.sameMem_cairnDue (s t : State) : (s.sameMem t).cairnDue = t.cairnDue := rfl
@[simp] theorem State.sameMem_fieldRepairs (s t : State) : (s.sameMem t).fieldRepairs = t.fieldRepairs := rfl
@[simp] theorem State.sameMem_svns (s t : State) : (s.sameMem t).svns = t.svns := rfl
@[simp] theorem State.sameMem_ropeList (s t : State) : (s.sameMem t).ropeList = t.ropeList := rfl

/-! ## sameCores -/

@[simp] theorem State.sameCores_pending (s t : State) : (s.sameCores t).pending = t.pending := rfl
@[simp] theorem State.sameCores_now (s t : State) : (s.sameCores t).now = t.now := rfl
@[simp] theorem State.sameCores_free (s t : State) : (s.sameCores t).free = t.free := rfl
@[simp] theorem State.sameCores_regs (s t : State) : (s.sameCores t).regs = t.regs := rfl
@[simp] theorem State.sameCores_cores (s t : State) : (s.sameCores t).cores = s.cores := rfl
@[simp] theorem State.sameCores_dmem (s t : State) : (s.sameCores t).dmem = t.dmem := rfl
@[simp] theorem State.sameCores_disks (s t : State) : (s.sameCores t).disks = t.disks := rfl
@[simp] theorem State.sameCores_ledgeErr (s t : State) : (s.sameCores t).ledgeErr = t.ledgeErr := rfl
@[simp] theorem State.sameCores_ledgeRows (s t : State) : (s.sameCores t).ledgeRows = t.ledgeRows := rfl
@[simp] theorem State.sameCores_rowErr (s t : State) : (s.sameCores t).rowErr = t.rowErr := rfl
@[simp] theorem State.sameCores_edcFaults (s t : State) : (s.sameCores t).edcFaults = t.edcFaults := rfl
@[simp] theorem State.sameCores_badWords (s t : State) : (s.sameCores t).badWords = t.badWords := rfl
@[simp] theorem State.sameCores_hmem (s t : State) : (s.sameCores t).hmem = t.hmem := rfl
@[simp] theorem State.sameCores_atoms (s t : State) : (s.sameCores t).atoms = t.atoms := rfl
@[simp] theorem State.sameCores_atomResps (s t : State) : (s.sameCores t).atomResps = t.atomResps := rfl
@[simp] theorem State.sameCores_doorbells (s t : State) : (s.sameCores t).doorbells = t.doorbells := rfl
@[simp] theorem State.sameCores_completes (s t : State) : (s.sameCores t).completes = t.completes := rfl
@[simp] theorem State.sameCores_barriers (s t : State) : (s.sameCores t).barriers = t.barriers := rfl
@[simp] theorem State.sameCores_lists (s t : State) : (s.sameCores t).lists = t.lists := rfl
@[simp] theorem State.sameCores_cmds (s t : State) : (s.sameCores t).cmds = t.cmds := rfl
@[simp] theorem State.sameCores_nextCmd (s t : State) : (s.sameCores t).nextCmd = t.nextCmd := rfl
@[simp] theorem State.sameCores_log (s t : State) : (s.sameCores t).log = t.log := rfl
@[simp] theorem State.sameCores_vecReq (s t : State) : (s.sameCores t).vecReq = t.vecReq := rfl
@[simp] theorem State.sameCores_fenceDue (s t : State) : (s.sameCores t).fenceDue = t.fenceDue := rfl
@[simp] theorem State.sameCores_remoteReqs (s t : State) : (s.sameCores t).remoteReqs = t.remoteReqs := rfl
@[simp] theorem State.sameCores_egress (s t : State) : (s.sameCores t).egress = t.egress := rfl
@[simp] theorem State.sameCores_latches (s t : State) : (s.sameCores t).latches = t.latches := rfl
@[simp] theorem State.sameCores_imemLatch (s t : State) : (s.sameCores t).imemLatch = t.imemLatch := rfl
@[simp] theorem State.sameCores_logLatch (s t : State) : (s.sameCores t).logLatch = t.logLatch := rfl
@[simp] theorem State.sameCores_readData (s t : State) : (s.sameCores t).readData = t.readData := rfl
@[simp] theorem State.sameCores_bootStep (s t : State) : (s.sameCores t).bootStep = t.bootStep := rfl
@[simp] theorem State.sameCores_pcieUp (s t : State) : (s.sameCores t).pcieUp = t.pcieUp := rfl
@[simp] theorem State.sameCores_meshOut (s t : State) : (s.sameCores t).meshOut = t.meshOut := rfl
@[simp] theorem State.sameCores_debugSeen (s t : State) : (s.sameCores t).debugSeen = t.debugSeen := rfl
@[simp] theorem State.sameCores_fetched (s t : State) : (s.sameCores t).fetched = t.fetched := rfl
@[simp] theorem State.sameCores_deferNo (s t : State) : (s.sameCores t).deferNo = t.deferNo := rfl
@[simp] theorem State.sameCores_posting (s t : State) : (s.sameCores t).posting = t.posting := rfl
@[simp] theorem State.sameCores_pend (s t : State) : (s.sameCores t).pend = t.pend := rfl
@[simp] theorem State.sameCores_pendFrom (s t : State) : (s.sameCores t).pendFrom = t.pendFrom := rfl
@[simp] theorem State.sameCores_qEnding (s t : State) : (s.sameCores t).qEnding = t.qEnding := rfl
@[simp] theorem State.sameCores_cpTurn (s t : State) : (s.sameCores t).cpTurn = t.cpTurn := rfl
@[simp] theorem State.sameCores_phase (s t : State) : (s.sameCores t).phase = t.phase := rfl
@[simp] theorem State.sameCores_unsig (s t : State) : (s.sameCores t).unsig = t.unsig := rfl
@[simp] theorem State.sameCores_msixOut (s t : State) : (s.sameCores t).msixOut = t.msixOut := rfl
@[simp] theorem State.sameCores_busMaster (s t : State) : (s.sameCores t).busMaster = t.busMaster := rfl
@[simp] theorem State.sameCores_inD0 (s t : State) : (s.sameCores t).inD0 = t.inD0 := rfl
@[simp] theorem State.sameCores_d3hot (s t : State) : (s.sameCores t).d3hot = t.d3hot := rfl
@[simp] theorem State.sameCores_usbUp (s t : State) : (s.sameCores t).usbUp = t.usbUp := rfl
@[simp] theorem State.sameCores_usbSq (s t : State) : (s.sameCores t).usbSq = t.usbSq := rfl
@[simp] theorem State.sameCores_usbCq (s t : State) : (s.sameCores t).usbCq = t.usbCq := rfl
@[simp] theorem State.sameCores_bmcSq (s t : State) : (s.sameCores t).bmcSq = t.bmcSq := rfl
@[simp] theorem State.sameCores_bmcCq (s t : State) : (s.sameCores t).bmcCq = t.bmcCq := rfl
@[simp] theorem State.sameCores_pairPosted (s t : State) : (s.sameCores t).pairPosted = t.pairPosted := rfl
@[simp] theorem State.sameCores_pairHead (s t : State) : (s.sameCores t).pairHead = t.pairHead := rfl
@[simp] theorem State.sameCores_usbOut (s t : State) : (s.sameCores t).usbOut = t.usbOut := rfl
@[simp] theorem State.sameCores_usbNotes (s t : State) : (s.sameCores t).usbNotes = t.usbNotes := rfl
@[simp] theorem State.sameCores_softReset (s t : State) : (s.sameCores t).softReset = t.softReset := rfl
@[simp] theorem State.sameCores_softPosted (s t : State) : (s.sameCores t).softPosted = t.softPosted := rfl
@[simp] theorem State.sameCores_renumber (s t : State) : (s.sameCores t).renumber = t.renumber := rfl
@[simp] theorem State.sameCores_serve (s t : State) : (s.sameCores t).serve = t.serve := rfl
@[simp] theorem State.sameCores_cpIn (s t : State) : (s.sameCores t).cpIn = t.cpIn := rfl
@[simp] theorem State.sameCores_cpRows (s t : State) : (s.sameCores t).cpRows = t.cpRows := rfl
@[simp] theorem State.sameCores_disp (s t : State) : (s.sameCores t).disp = t.disp := rfl
@[simp] theorem State.sameCores_lastLayer (s t : State) : (s.sameCores t).lastLayer = t.lastLayer := rfl
@[simp] theorem State.sameCores_preds (s t : State) : (s.sameCores t).preds = t.preds := rfl
@[simp] theorem State.sameCores_wloads (s t : State) : (s.sameCores t).wloads = t.wloads := rfl
@[simp] theorem State.sameCores_staging (s t : State) : (s.sameCores t).staging = t.staging := rfl
@[simp] theorem State.sameCores_rings (s t : State) : (s.sameCores t).rings = t.rings := rfl
@[simp] theorem State.sameCores_backlog (s t : State) : (s.sameCores t).backlog = t.backlog := rfl
@[simp] theorem State.sameCores_segEngine (s t : State) : (s.sameCores t).segEngine = t.segEngine := rfl
@[simp] theorem State.sameCores_segSeq (s t : State) : (s.sameCores t).segSeq = t.segSeq := rfl
@[simp] theorem State.sameCores_slices (s t : State) : (s.sameCores t).slices = t.slices := rfl
@[simp] theorem State.sameCores_driveCmds (s t : State) : (s.sameCores t).driveCmds = t.driveCmds := rfl
@[simp] theorem State.sameCores_drives (s t : State) : (s.sameCores t).drives = t.drives := rfl
@[simp] theorem State.sameCores_logCount (s t : State) : (s.sameCores t).logCount = t.logCount := rfl
@[simp] theorem State.sameCores_logCopied (s t : State) : (s.sameCores t).logCopied = t.logCopied := rfl
@[simp] theorem State.sameCores_dmaIn (s t : State) : (s.sameCores t).dmaIn = t.dmaIn := rfl
@[simp] theorem State.sameCores_dmaRows (s t : State) : (s.sameCores t).dmaRows = t.dmaRows := rfl
@[simp] theorem State.sameCores_bar2Out (s t : State) : (s.sameCores t).bar2Out = t.bar2Out := rfl
@[simp] theorem State.sameCores_mbxSince (s t : State) : (s.sameCores t).mbxSince = t.mbxSince := rfl
@[simp] theorem State.sameCores_mbxBell (s t : State) : (s.sameCores t).mbxBell = t.mbxBell := rfl
@[simp] theorem State.sameCores_flash (s t : State) : (s.sameCores t).flash = t.flash := rfl
@[simp] theorem State.sameCores_selector (s t : State) : (s.sameCores t).selector = t.selector := rfl
@[simp] theorem State.sameCores_akGen (s t : State) : (s.sameCores t).akGen = t.akGen := rfl
@[simp] theorem State.sameCores_recovery (s t : State) : (s.sameCores t).recovery = t.recovery := rfl
@[simp] theorem State.sameCores_inbox (s t : State) : (s.sameCores t).inbox = t.inbox := rfl
@[simp] theorem State.sameCores_arrivals (s t : State) : (s.sameCores t).arrivals = t.arrivals := rfl
@[simp] theorem State.sameCores_ports (s t : State) : (s.sameCores t).ports = t.ports := rfl
@[simp] theorem State.sameCores_fabOut (s t : State) : (s.sameCores t).fabOut = t.fabOut := rfl
@[simp] theorem State.sameCores_cpBad (s t : State) : (s.sameCores t).cpBad = t.cpBad := rfl
@[simp] theorem State.sameCores_broken (s t : State) : (s.sameCores t).broken = t.broken := rfl
@[simp] theorem State.sameCores_wave (s t : State) : (s.sameCores t).wave = t.wave := rfl
@[simp] theorem State.sameCores_suspects (s t : State) : (s.sameCores t).suspects = t.suspects := rfl
@[simp] theorem State.sameCores_holds (s t : State) : (s.sameCores t).holds = t.holds := rfl
@[simp] theorem State.sameCores_collect (s t : State) : (s.sameCores t).collect = t.collect := rfl
@[simp] theorem State.sameCores_telLive (s t : State) : (s.sameCores t).telLive = t.telLive := rfl
@[simp] theorem State.sameCores_pwr (s t : State) : (s.sameCores t).pwr = t.pwr := rfl
@[simp] theorem State.sameCores_rope (s t : State) : (s.sameCores t).rope = t.rope := rfl
@[simp] theorem State.sameCores_boot (s t : State) : (s.sameCores t).boot = t.boot := rfl
@[simp] theorem State.sameCores_mpDown (s t : State) : (s.sameCores t).mpDown = t.mpDown := rfl
@[simp] theorem State.sameCores_mpReload (s t : State) : (s.sameCores t).mpReload = t.mpReload := rfl
@[simp] theorem State.sameCores_polls (s t : State) : (s.sameCores t).polls = t.polls := rfl
@[simp] theorem State.sameCores_polled (s t : State) : (s.sameCores t).polled = t.polled := rfl
@[simp] theorem State.sameCores_sparing (s t : State) : (s.sameCores t).sparing = t.sparing := rfl
@[simp] theorem State.sameCores_cairnDue (s t : State) : (s.sameCores t).cairnDue = t.cairnDue := rfl
@[simp] theorem State.sameCores_fieldRepairs (s t : State) : (s.sameCores t).fieldRepairs = t.fieldRepairs := rfl
@[simp] theorem State.sameCores_svns (s t : State) : (s.sameCores t).svns = t.svns := rfl
@[simp] theorem State.sameCores_ropeList (s t : State) : (s.sameCores t).ropeList = t.ropeList := rfl

/-! ## sameOthers -/

@[simp] theorem State.sameOthers_pending (s t : State) (c : Nat) : (s.sameOthers c t).pending = t.pending := rfl
@[simp] theorem State.sameOthers_now (s t : State) (c : Nat) : (s.sameOthers c t).now = t.now := rfl
@[simp] theorem State.sameOthers_free (s t : State) (c : Nat) : (s.sameOthers c t).free = t.free := rfl
@[simp] theorem State.sameOthers_regs (s t : State) (c : Nat) : (s.sameOthers c t).regs = t.regs := rfl
@[simp] theorem State.sameOthers_dmem (s t : State) (c : Nat) : (s.sameOthers c t).dmem = t.dmem := rfl
@[simp] theorem State.sameOthers_disks (s t : State) (c : Nat) : (s.sameOthers c t).disks = t.disks := rfl
@[simp] theorem State.sameOthers_ledgeErr (s t : State) (c : Nat) : (s.sameOthers c t).ledgeErr = t.ledgeErr := rfl
@[simp] theorem State.sameOthers_ledgeRows (s t : State) (c : Nat) : (s.sameOthers c t).ledgeRows = t.ledgeRows := rfl
@[simp] theorem State.sameOthers_rowErr (s t : State) (c : Nat) : (s.sameOthers c t).rowErr = t.rowErr := rfl
@[simp] theorem State.sameOthers_edcFaults (s t : State) (c : Nat) : (s.sameOthers c t).edcFaults = t.edcFaults := rfl
@[simp] theorem State.sameOthers_badWords (s t : State) (c : Nat) : (s.sameOthers c t).badWords = t.badWords := rfl
@[simp] theorem State.sameOthers_hmem (s t : State) (c : Nat) : (s.sameOthers c t).hmem = t.hmem := rfl
@[simp] theorem State.sameOthers_atoms (s t : State) (c : Nat) : (s.sameOthers c t).atoms = t.atoms := rfl
@[simp] theorem State.sameOthers_atomResps (s t : State) (c : Nat) : (s.sameOthers c t).atomResps = t.atomResps := rfl
@[simp] theorem State.sameOthers_doorbells (s t : State) (c : Nat) : (s.sameOthers c t).doorbells = t.doorbells := rfl
@[simp] theorem State.sameOthers_completes (s t : State) (c : Nat) : (s.sameOthers c t).completes = t.completes := rfl
@[simp] theorem State.sameOthers_barriers (s t : State) (c : Nat) : (s.sameOthers c t).barriers = t.barriers := rfl
@[simp] theorem State.sameOthers_lists (s t : State) (c : Nat) : (s.sameOthers c t).lists = t.lists := rfl
@[simp] theorem State.sameOthers_cmds (s t : State) (c : Nat) : (s.sameOthers c t).cmds = t.cmds := rfl
@[simp] theorem State.sameOthers_nextCmd (s t : State) (c : Nat) : (s.sameOthers c t).nextCmd = t.nextCmd := rfl
@[simp] theorem State.sameOthers_log (s t : State) (c : Nat) : (s.sameOthers c t).log = t.log := rfl
@[simp] theorem State.sameOthers_vecReq (s t : State) (c : Nat) : (s.sameOthers c t).vecReq = t.vecReq := rfl
@[simp] theorem State.sameOthers_fenceDue (s t : State) (c : Nat) : (s.sameOthers c t).fenceDue = t.fenceDue := rfl
@[simp] theorem State.sameOthers_remoteReqs (s t : State) (c : Nat) : (s.sameOthers c t).remoteReqs = t.remoteReqs := rfl
@[simp] theorem State.sameOthers_egress (s t : State) (c : Nat) : (s.sameOthers c t).egress = t.egress := rfl
@[simp] theorem State.sameOthers_latches (s t : State) (c : Nat) : (s.sameOthers c t).latches = t.latches := rfl
@[simp] theorem State.sameOthers_imemLatch (s t : State) (c : Nat) : (s.sameOthers c t).imemLatch = t.imemLatch := rfl
@[simp] theorem State.sameOthers_logLatch (s t : State) (c : Nat) : (s.sameOthers c t).logLatch = t.logLatch := rfl
@[simp] theorem State.sameOthers_readData (s t : State) (c : Nat) : (s.sameOthers c t).readData = t.readData := rfl
@[simp] theorem State.sameOthers_bootStep (s t : State) (c : Nat) : (s.sameOthers c t).bootStep = t.bootStep := rfl
@[simp] theorem State.sameOthers_pcieUp (s t : State) (c : Nat) : (s.sameOthers c t).pcieUp = t.pcieUp := rfl
@[simp] theorem State.sameOthers_meshOut (s t : State) (c : Nat) : (s.sameOthers c t).meshOut = t.meshOut := rfl
@[simp] theorem State.sameOthers_debugSeen (s t : State) (c : Nat) : (s.sameOthers c t).debugSeen = t.debugSeen := rfl
@[simp] theorem State.sameOthers_fetched (s t : State) (c : Nat) : (s.sameOthers c t).fetched = t.fetched := rfl
@[simp] theorem State.sameOthers_deferNo (s t : State) (c : Nat) : (s.sameOthers c t).deferNo = t.deferNo := rfl
@[simp] theorem State.sameOthers_posting (s t : State) (c : Nat) : (s.sameOthers c t).posting = t.posting := rfl
@[simp] theorem State.sameOthers_pend (s t : State) (c : Nat) : (s.sameOthers c t).pend = t.pend := rfl
@[simp] theorem State.sameOthers_pendFrom (s t : State) (c : Nat) : (s.sameOthers c t).pendFrom = t.pendFrom := rfl
@[simp] theorem State.sameOthers_qEnding (s t : State) (c : Nat) : (s.sameOthers c t).qEnding = t.qEnding := rfl
@[simp] theorem State.sameOthers_cpTurn (s t : State) (c : Nat) : (s.sameOthers c t).cpTurn = t.cpTurn := rfl
@[simp] theorem State.sameOthers_phase (s t : State) (c : Nat) : (s.sameOthers c t).phase = t.phase := rfl
@[simp] theorem State.sameOthers_unsig (s t : State) (c : Nat) : (s.sameOthers c t).unsig = t.unsig := rfl
@[simp] theorem State.sameOthers_msixOut (s t : State) (c : Nat) : (s.sameOthers c t).msixOut = t.msixOut := rfl
@[simp] theorem State.sameOthers_busMaster (s t : State) (c : Nat) : (s.sameOthers c t).busMaster = t.busMaster := rfl
@[simp] theorem State.sameOthers_inD0 (s t : State) (c : Nat) : (s.sameOthers c t).inD0 = t.inD0 := rfl
@[simp] theorem State.sameOthers_d3hot (s t : State) (c : Nat) : (s.sameOthers c t).d3hot = t.d3hot := rfl
@[simp] theorem State.sameOthers_usbUp (s t : State) (c : Nat) : (s.sameOthers c t).usbUp = t.usbUp := rfl
@[simp] theorem State.sameOthers_usbSq (s t : State) (c : Nat) : (s.sameOthers c t).usbSq = t.usbSq := rfl
@[simp] theorem State.sameOthers_usbCq (s t : State) (c : Nat) : (s.sameOthers c t).usbCq = t.usbCq := rfl
@[simp] theorem State.sameOthers_bmcSq (s t : State) (c : Nat) : (s.sameOthers c t).bmcSq = t.bmcSq := rfl
@[simp] theorem State.sameOthers_bmcCq (s t : State) (c : Nat) : (s.sameOthers c t).bmcCq = t.bmcCq := rfl
@[simp] theorem State.sameOthers_pairPosted (s t : State) (c : Nat) : (s.sameOthers c t).pairPosted = t.pairPosted := rfl
@[simp] theorem State.sameOthers_pairHead (s t : State) (c : Nat) : (s.sameOthers c t).pairHead = t.pairHead := rfl
@[simp] theorem State.sameOthers_usbOut (s t : State) (c : Nat) : (s.sameOthers c t).usbOut = t.usbOut := rfl
@[simp] theorem State.sameOthers_usbNotes (s t : State) (c : Nat) : (s.sameOthers c t).usbNotes = t.usbNotes := rfl
@[simp] theorem State.sameOthers_softReset (s t : State) (c : Nat) : (s.sameOthers c t).softReset = t.softReset := rfl
@[simp] theorem State.sameOthers_softPosted (s t : State) (c : Nat) : (s.sameOthers c t).softPosted = t.softPosted := rfl
@[simp] theorem State.sameOthers_renumber (s t : State) (c : Nat) : (s.sameOthers c t).renumber = t.renumber := rfl
@[simp] theorem State.sameOthers_serve (s t : State) (c : Nat) : (s.sameOthers c t).serve = t.serve := rfl
@[simp] theorem State.sameOthers_cpIn (s t : State) (c : Nat) : (s.sameOthers c t).cpIn = t.cpIn := rfl
@[simp] theorem State.sameOthers_cpRows (s t : State) (c : Nat) : (s.sameOthers c t).cpRows = t.cpRows := rfl
@[simp] theorem State.sameOthers_disp (s t : State) (c : Nat) : (s.sameOthers c t).disp = t.disp := rfl
@[simp] theorem State.sameOthers_lastLayer (s t : State) (c : Nat) : (s.sameOthers c t).lastLayer = t.lastLayer := rfl
@[simp] theorem State.sameOthers_preds (s t : State) (c : Nat) : (s.sameOthers c t).preds = t.preds := rfl
@[simp] theorem State.sameOthers_wloads (s t : State) (c : Nat) : (s.sameOthers c t).wloads = t.wloads := rfl
@[simp] theorem State.sameOthers_staging (s t : State) (c : Nat) : (s.sameOthers c t).staging = t.staging := rfl
@[simp] theorem State.sameOthers_rings (s t : State) (c : Nat) : (s.sameOthers c t).rings = t.rings := rfl
@[simp] theorem State.sameOthers_backlog (s t : State) (c : Nat) : (s.sameOthers c t).backlog = t.backlog := rfl
@[simp] theorem State.sameOthers_segEngine (s t : State) (c : Nat) : (s.sameOthers c t).segEngine = t.segEngine := rfl
@[simp] theorem State.sameOthers_segSeq (s t : State) (c : Nat) : (s.sameOthers c t).segSeq = t.segSeq := rfl
@[simp] theorem State.sameOthers_slices (s t : State) (c : Nat) : (s.sameOthers c t).slices = t.slices := rfl
@[simp] theorem State.sameOthers_driveCmds (s t : State) (c : Nat) : (s.sameOthers c t).driveCmds = t.driveCmds := rfl
@[simp] theorem State.sameOthers_drives (s t : State) (c : Nat) : (s.sameOthers c t).drives = t.drives := rfl
@[simp] theorem State.sameOthers_logCount (s t : State) (c : Nat) : (s.sameOthers c t).logCount = t.logCount := rfl
@[simp] theorem State.sameOthers_logCopied (s t : State) (c : Nat) : (s.sameOthers c t).logCopied = t.logCopied := rfl
@[simp] theorem State.sameOthers_dmaIn (s t : State) (c : Nat) : (s.sameOthers c t).dmaIn = t.dmaIn := rfl
@[simp] theorem State.sameOthers_dmaRows (s t : State) (c : Nat) : (s.sameOthers c t).dmaRows = t.dmaRows := rfl
@[simp] theorem State.sameOthers_bar2Out (s t : State) (c : Nat) : (s.sameOthers c t).bar2Out = t.bar2Out := rfl
@[simp] theorem State.sameOthers_mbxSince (s t : State) (c : Nat) : (s.sameOthers c t).mbxSince = t.mbxSince := rfl
@[simp] theorem State.sameOthers_mbxBell (s t : State) (c : Nat) : (s.sameOthers c t).mbxBell = t.mbxBell := rfl
@[simp] theorem State.sameOthers_flash (s t : State) (c : Nat) : (s.sameOthers c t).flash = t.flash := rfl
@[simp] theorem State.sameOthers_selector (s t : State) (c : Nat) : (s.sameOthers c t).selector = t.selector := rfl
@[simp] theorem State.sameOthers_akGen (s t : State) (c : Nat) : (s.sameOthers c t).akGen = t.akGen := rfl
@[simp] theorem State.sameOthers_recovery (s t : State) (c : Nat) : (s.sameOthers c t).recovery = t.recovery := rfl
@[simp] theorem State.sameOthers_inbox (s t : State) (c : Nat) : (s.sameOthers c t).inbox = t.inbox := rfl
@[simp] theorem State.sameOthers_arrivals (s t : State) (c : Nat) : (s.sameOthers c t).arrivals = t.arrivals := rfl
@[simp] theorem State.sameOthers_ports (s t : State) (c : Nat) : (s.sameOthers c t).ports = t.ports := rfl
@[simp] theorem State.sameOthers_fabOut (s t : State) (c : Nat) : (s.sameOthers c t).fabOut = t.fabOut := rfl
@[simp] theorem State.sameOthers_cpBad (s t : State) (c : Nat) : (s.sameOthers c t).cpBad = t.cpBad := rfl
@[simp] theorem State.sameOthers_broken (s t : State) (c : Nat) : (s.sameOthers c t).broken = t.broken := rfl
@[simp] theorem State.sameOthers_wave (s t : State) (c : Nat) : (s.sameOthers c t).wave = t.wave := rfl
@[simp] theorem State.sameOthers_suspects (s t : State) (c : Nat) : (s.sameOthers c t).suspects = t.suspects := rfl
@[simp] theorem State.sameOthers_holds (s t : State) (c : Nat) : (s.sameOthers c t).holds = t.holds := rfl
@[simp] theorem State.sameOthers_collect (s t : State) (c : Nat) : (s.sameOthers c t).collect = t.collect := rfl
@[simp] theorem State.sameOthers_telLive (s t : State) (c : Nat) : (s.sameOthers c t).telLive = t.telLive := rfl
@[simp] theorem State.sameOthers_pwr (s t : State) (c : Nat) : (s.sameOthers c t).pwr = t.pwr := rfl
@[simp] theorem State.sameOthers_rope (s t : State) (c : Nat) : (s.sameOthers c t).rope = t.rope := rfl
@[simp] theorem State.sameOthers_boot (s t : State) (c : Nat) : (s.sameOthers c t).boot = t.boot := rfl
@[simp] theorem State.sameOthers_mpDown (s t : State) (c : Nat) : (s.sameOthers c t).mpDown = t.mpDown := rfl
@[simp] theorem State.sameOthers_mpReload (s t : State) (c : Nat) : (s.sameOthers c t).mpReload = t.mpReload := rfl
@[simp] theorem State.sameOthers_polls (s t : State) (c : Nat) : (s.sameOthers c t).polls = t.polls := rfl
@[simp] theorem State.sameOthers_polled (s t : State) (c : Nat) : (s.sameOthers c t).polled = t.polled := rfl
@[simp] theorem State.sameOthers_sparing (s t : State) (c : Nat) : (s.sameOthers c t).sparing = t.sparing := rfl
@[simp] theorem State.sameOthers_cairnDue (s t : State) (c : Nat) : (s.sameOthers c t).cairnDue = t.cairnDue := rfl
@[simp] theorem State.sameOthers_fieldRepairs (s t : State) (c : Nat) : (s.sameOthers c t).fieldRepairs = t.fieldRepairs := rfl
@[simp] theorem State.sameOthers_svns (s t : State) (c : Nat) : (s.sameOthers c t).svns = t.svns := rfl
@[simp] theorem State.sameOthers_ropeList (s t : State) (c : Nat) : (s.sameOthers c t).ropeList = t.ropeList := rfl

/-! ## Registers and cores through the frames -/

@[simp] theorem State.sameRings_reg (s t : State) (a : Nat) : (s.sameRings t).reg a = t.reg a := rfl
@[simp] theorem State.sameRings_core (s t : State) (c : Nat) : (s.sameRings t).core c = t.core c := rfl
@[simp] theorem State.samePins_reg (s t : State) (a : Nat) : (s.samePins t).reg a = t.reg a := rfl
@[simp] theorem State.samePins_core (s t : State) (c : Nat) : (s.samePins t).core c = t.core c := rfl
@[simp] theorem State.sameSecure_reg (s t : State) (a : Nat) : (s.sameSecure t).reg a = t.reg a := rfl
@[simp] theorem State.sameSecure_core (s t : State) (c : Nat) : (s.sameSecure t).core c = t.core c := rfl
@[simp] theorem State.sameFabric_reg (s t : State) (a : Nat) : (s.sameFabric t).reg a = t.reg a := rfl
@[simp] theorem State.sameFabric_core (s t : State) (c : Nat) : (s.sameFabric t).core c = t.core c := rfl
@[simp] theorem State.samePower_reg (s t : State) (a : Nat) : (s.samePower t).reg a = t.reg a := rfl
@[simp] theorem State.samePower_core (s t : State) (c : Nat) : (s.samePower t).core c = t.core c := rfl
@[simp] theorem State.sameMem_reg (s t : State) (a : Nat) : (s.sameMem t).reg a = t.reg a := rfl
@[simp] theorem State.sameMem_core (s t : State) (c : Nat) : (s.sameMem t).core c = t.core c := rfl
@[simp] theorem State.sameCores_reg (s t : State) (a : Nat) : (s.sameCores t).reg a = t.reg a := rfl
@[simp] theorem State.sameCores_core (s t : State) (c : Nat) : (s.sameCores t).core c = s.core c := rfl
@[simp] theorem State.sameOthers_reg (s t : State) (c a : Nat) : (s.sameOthers c t).reg a = t.reg a := rfl
@[simp] theorem State.sameOthers_core (s t : State) (c d : Nat) :
    (s.sameOthers c t).core d = if d = c then t.core c else s.core d := State.core_setCore s c d _

/-! ## The frames -/

@[simp] theorem State.keepRings_next (s t : State) : s.keepRings (.next t) = .next (s.sameRings t) := rfl

theorem State.keepRings_inv {s u : State} {o : Out} (h : s.keepRings o = .next u) : ∃ t, o = .next t ∧ u = s.sameRings t := by
  cases o with
  | next t => exact ⟨t, rfl, (Host.Outcome.next.inj h).symm⟩
  | fault r => exact nomatch h
  | refused r => exact nomatch h

@[simp] theorem State.keepPins_next (s t : State) : s.keepPins (.next t) = .next (s.samePins t) := rfl

theorem State.keepPins_inv {s u : State} {o : Out} (h : s.keepPins o = .next u) : ∃ t, o = .next t ∧ u = s.samePins t := by
  cases o with
  | next t => exact ⟨t, rfl, (Host.Outcome.next.inj h).symm⟩
  | fault r => exact nomatch h
  | refused r => exact nomatch h

@[simp] theorem State.keepSecure_next (s t : State) : s.keepSecure (.next t) = .next (s.sameSecure t) := rfl

theorem State.keepSecure_inv {s u : State} {o : Out} (h : s.keepSecure o = .next u) : ∃ t, o = .next t ∧ u = s.sameSecure t := by
  cases o with
  | next t => exact ⟨t, rfl, (Host.Outcome.next.inj h).symm⟩
  | fault r => exact nomatch h
  | refused r => exact nomatch h

@[simp] theorem State.keepFabric_next (s t : State) : s.keepFabric (.next t) = .next (s.sameFabric t) := rfl

theorem State.keepFabric_inv {s u : State} {o : Out} (h : s.keepFabric o = .next u) : ∃ t, o = .next t ∧ u = s.sameFabric t := by
  cases o with
  | next t => exact ⟨t, rfl, (Host.Outcome.next.inj h).symm⟩
  | fault r => exact nomatch h
  | refused r => exact nomatch h

@[simp] theorem State.keepPower_next (s t : State) : s.keepPower (.next t) = .next (s.samePower t) := rfl

theorem State.keepPower_inv {s u : State} {o : Out} (h : s.keepPower o = .next u) : ∃ t, o = .next t ∧ u = s.samePower t := by
  cases o with
  | next t => exact ⟨t, rfl, (Host.Outcome.next.inj h).symm⟩
  | fault r => exact nomatch h
  | refused r => exact nomatch h

@[simp] theorem State.keepMem_next (s t : State) : s.keepMem (.next t) = .next (s.sameMem t) := rfl

theorem State.keepMem_inv {s u : State} {o : Out} (h : s.keepMem o = .next u) : ∃ t, o = .next t ∧ u = s.sameMem t := by
  cases o with
  | next t => exact ⟨t, rfl, (Host.Outcome.next.inj h).symm⟩
  | fault r => exact nomatch h
  | refused r => exact nomatch h

@[simp] theorem State.keepCores_next (s t : State) : s.keepCores (.next t) = .next (s.sameCores t) := rfl

theorem State.keepCores_inv {s u : State} {o : Out} (h : s.keepCores o = .next u) : ∃ t, o = .next t ∧ u = s.sameCores t := by
  cases o with
  | next t => exact ⟨t, rfl, (Host.Outcome.next.inj h).symm⟩
  | fault r => exact nomatch h
  | refused r => exact nomatch h

@[simp] theorem State.keepOtherCores_next (s t : State) (c : Nat) : s.keepOtherCores c (.next t) = .next (s.sameOthers c t) := rfl

theorem State.keepOtherCores_inv {s u : State} {c : Nat} {o : Out} (h : s.keepOtherCores c o = .next u) :
    ∃ t, o = .next t ∧ u = s.sameOthers c t := by
  cases o with
  | next t => exact ⟨t, rfl, (Host.Outcome.next.inj h).symm⟩
  | fault r => exact nomatch h
  | refused r => exact nomatch h

@[simp] theorem State.inCore_next (s t : State) (c : Nat) : s.inCore c (.next t) =
    .next (s.sameRings (s.samePins (s.sameSecure (s.sameFabric (s.samePower (s.sameMem (s.sameOthers c t))))))) := rfl

@[simp] theorem State.inCores_next (s t : State) : s.inCores (.next t) =
    .next (s.sameRings (s.samePins (s.sameSecure (s.sameFabric (s.samePower (s.sameMem t)))))) := rfl

@[simp] theorem State.inRegs_next (s t : State) : s.inRegs (.next t) =
    .next (s.sameRings (s.samePins (s.sameSecure (s.sameFabric (s.samePower (s.sameMem (s.sameCores t))))))) := rfl

@[simp] theorem State.inPower_next (s t : State) : s.inPower (.next t) =
    .next (s.sameRings (s.samePins (s.sameSecure (s.sameFabric (s.sameMem (s.sameCores t)))))) := rfl

@[simp] theorem State.inFabric_next (s t : State) : s.inFabric (.next t) =
    .next (s.sameRings (s.samePins (s.sameSecure (s.samePower (s.sameMem (s.sameCores t)))))) := rfl

@[simp] theorem State.inEdge_next (s t : State) : s.inEdge (.next t) =
    .next (s.sameFabric (s.samePower (s.sameMem (s.sameCores t)))) := rfl

/-- A command of one core that only changes that core. -/
@[simp] theorem State.inCore_setCore (s : State) (c : Nat) (k : CoreState) :
    s.inCore c (.next (s.setCore c k)) = .next (s.setCore c k) := by
  have h : (s.setCore c ((s.setCore c k).core c)).cores = (s.setCore c k).cores := by simp
  simp only [State.inCore_next, State.sameRings, State.samePins, State.sameSecure, State.sameFabric, State.samePower, State.sameMem, State.sameOthers, h]
  rfl

end Sys2Proof.Machine
end

