-- ==== Sys2Proof/Laws/Operations.lean ====
section
/-!
SUPPORT. What the shared operations answer, once each: the frame of a tile instruction, a register write, a command at the
head of its queue, and the memory operations, which keep the canonical form.
-/

namespace Sys2Proof.Machine

/-! ## Tile instructions -/

/-- With no instruction held back, the instruction that must issue next is the one at the pc. -/
theorem CoreState.current_free {k : CoreState} (h : k.accHeld = none) : k.current = k.imemAt k.pc := by
  simp [CoreState.current, h]

/-- With no instruction held back, an issue counts and goes on. -/
theorem CoreState.advance_free {k : CoreState} (c : Nat) (h : k.accHeld = none) : k.advance c = k.passed c := by
  simp [CoreState.advance, h]

/-- Where an instruction of the command's kind stands and passes the checks of R209, the command is its effect. -/
theorem withTile_of_issues {s : State} {c : Nat} {kind : TileKind} {w : W64} (f : W64 → State) (h : Issues s c kind w) :
    withTile kind c s f = .next (f w) := by
  obtain ⟨h1, h2, h3, h4, h5, h6, h7⟩ := h
  simp [withTile, h1, CoreState.current_free h2, h3, h4, h5, h6, CoreState.fetchBad, CoreState.handleBad, h2, h7]

/-- What the frame of a tile instruction can answer: nothing, a fault of the tile at issue, a wait for a checkpoint, a fault on an
uncorrectable word, or the instruction's effect. -/
theorem withTile_inv {kind : TileKind} {c : Nat} {s t : State} {f : W64 → State} (h : withTile kind c s f = .next t) :
    t = s ∨ ((s.core c).canIssue = true ∧ (t = s.wordFault c ∨ t = s.tileFault c stBadOpcode 0 ∨ t = s.tileFault c stBadField 0 ∨
      ((s.core c).fetchBad = false ∧ tileKind (s.core c).current = some kind ∧ tileReserved (s.core c).current = false ∧
        t = if (s.core c).checkDue then s.setCore c ((s.core c).stall c waitSlot none)
          else if (s.core c).handleBad c (s.core c).current then s.wordFault c else f (s.core c).current))) := by
  simp only [withTile] at h
  by_cases hc : (s.core c).canIssue = true
  · rw [if_pos hc] at h
    split at h
    · exact .inr ⟨hc, .inl (Host.Outcome.next.inj h).symm⟩
    · next hf =>
      split at h
      · exact .inr ⟨hc, .inr (.inl (Host.Outcome.next.inj h).symm)⟩
      · split at h
        · exact .inr ⟨hc, .inr (.inr (.inl (Host.Outcome.next.inj h).symm))⟩
        · next hr =>
          split at h
          · next hk =>
            exact .inr ⟨hc, .inr (.inr (.inr ⟨by simpa using hf, hk, by simpa using hr, (Host.Outcome.next.inj h).symm⟩))⟩
          · exact .inl (Host.Outcome.next.inj h).symm
  · rw [if_neg hc] at h
    exact .inl (Host.Outcome.next.inj h).symm

/-! ## Register writes -/

/-- A write that reaches its register and sets no reserved bit has the register's own effect on what its writable bits hold. -/
theorem State.regWrite_of_writes {s : State} {a : Agent} {addr : Nat} {v u : W32} (f : W32 → State → State)
    (h : Writes s a addr v u) : s.regWrite a addr v f = f u s := by
  obtain ⟨r, h1, h2, h3⟩ := h
  simp [State.regWrite, h1, h2, h3]

/-! ## Commands at the head of a queue -/

/-- An entry at the head of its source that passes its checks goes to check 7 with what check 6 read. -/
theorem State.stage2_of_checks {s u : State} {src : Src} {op : Nat} {checks : Checks} {e : Entry} {cs : List Check}
    {copy : List Byte} (body : Body) (h : AtHead s src op e) (hc : checks e (s.tookTurn src) = .done cs copy u)
    (hb : firstBad (e.rsvChecks ++ cs) = none) :
    s.stage2 op src checks body =
      ({ u.popHead src with fetched := { e with checked := true, copy := copy } :: (u.popHead src).fetched } : State).check7
        { e with checked := true, copy := copy } body := by
  obtain ⟨h1, h2, h3, h4, h5, h6, h7⟩ := h
  have hr : s.ready src = true := by simp [State.ready, h3, h5, h6]
  simp [State.stage2, h1, h2, h3, h4, h7, hr, hc, hb]

/-- Check 7 of an entry whose gate is open runs its body. -/
theorem State.check7_accept {s : State} {e : Entry} (body : Body) (h : s.gate e = .accept) :
    s.check7 e body = s.runBody e body := by
  simp [State.check7, h]

/-! ## Memories: every operation keeps the canonical form -/

theorem Tab.filter_wf {α : Type} (d : Nat → α) (t : Tab α) (p : Nat × α → Bool) (h : Tab.wf d t) : Tab.wf d (t.filter p) :=
  ⟨h.1.filter _, fun e he => h.2 e (List.mem_filter.mp he).1⟩

theorem foldl_keeps {α β : Type} (P : β → Prop) (f : β → α → β) (hf : ∀ b a, P b → P (f b a)) :
    ∀ (l : List α) (b : β), P b → P (l.foldl f b) := by
  intro l
  induction l with
  | nil => exact fun _ h => h
  | cons a l ih => exact fun b h => ih _ (hf b a h)

theorem ite_keeps {α : Type} (P : α → Prop) {c : Prop} [Decidable c] {a b : α} (ha : P a) (hb : P b) : P (if c then a else b) := by
  split <;> assumption

@[simp] theorem State.touchRows_dmem (s : State) (a n : Nat) (w : Bool) : (s.touchRows a n w).dmem = s.dmem := by
  unfold State.touchRows; split <;> rfl

@[simp] theorem State.setUnitErr_dmem (s : State) (a u : Nat) (e : W64) : (s.setUnitErr a u e).dmem = s.dmem := by
  unfold State.setUnitErr; split <;> rfl

@[simp] theorem State.raiseEvt_dmem (s : State) (b : Nat) : (s.raiseEvt b).dmem = s.dmem := by
  simp only [State.raiseEvt]; split <;> rfl

@[simp] theorem State.logEvent_dmem (s : State) (ev st src : Nat) (info : W64) : (s.logEvent ev st src info).dmem = s.dmem := by
  simp only [State.logEvent]
  split
  · rfl
  · simp only [State.raiseEvt_dmem, State.setFld, State.setReg_dmem]; split <;> rfl

@[simp] theorem State.eccCount_dmem (s : State) (a ce ue : Nat) : (s.eccCount a ce ue).dmem = s.dmem := by
  simp only [State.eccCount]; split <;> rfl

@[simp] theorem State.noteLedge_dmem (s : State) (a : Nat) (us : List Nat) : (s.noteLedge a us).dmem = s.dmem := by
  unfold State.noteLedge; split <;> rfl

@[simp] theorem State.edcLink_dmem (s : State) (a n : Nat) : (s.edcLink a n).2.dmem = s.dmem := by
  unfold State.edcLink; split <;> rfl

/-- A write of device memory. -/
theorem State.memWrite_wf (s : State) (a : Nat) (data : List Byte) (h : Memory.wf s.dmem) : Memory.wf (s.memWrite a data).2.dmem := by
  unfold State.memWrite
  refine foldl_keeps (fun acc : Nat × State => Memory.wf acc.2.dmem) _ ?_ _ _ (by simpa using h)
  intro acc w hacc
  have hl (t : State) (ev st src : Nat) (i : W64) (ht : Memory.wf t.dmem) : Memory.wf (t.logEvent ev st src i).dmem := by
    simpa using ht
  refine ite_keeps (fun x : Nat × State => Memory.wf x.2.dmem) (hl _ _ _ _ _ hacc) ?_
  refine ite_keeps (fun x : Nat × State => Memory.wf x.2.dmem) (hl _ _ _ _ _ (by simpa using hacc)) ?_
  simp only [State.setUnitErr_dmem]
  refine Mem.write_wf _ _ _ ?_
  exact ite_keeps (fun x : State => Memory.wf x.dmem) (by simpa using hacc) hacc

/-- A write of a scratchpad row. -/
theorem CoreState.rowWrite_wf (k : CoreState) (m : SpmMem) (row : Nat) (data : List Byte) (mask : List Bool)
    (ha : Memory.wf k.am) (hp : Memory.wf k.pm) :
    Memory.wf (k.rowWrite m row data mask).2.am ∧ Memory.wf (k.rowWrite m row data mask).2.pm := by
  unfold CoreState.rowWrite
  refine foldl_keeps (fun acc : List Nat × CoreState => Memory.wf acc.2.am ∧ Memory.wf acc.2.pm) _ ?_ _ _ ⟨ha, hp⟩
  intro acc w hacc
  simp only
  split
  · exact hacc
  · split
    · exact hacc
    · have hb : Memory.wf (acc.2.bytes m) := by cases m <;> [exact hacc.1; exact hacc.2]
      have hw := foldl_keeps Memory.wf (fun (b : Mem) i => if ((mask.drop (8 * w)).take 8).getD i false then
        Mem.put b (64 * row + 8 * w + i) (data.getD (8 * w + i) 0) else b)
        (fun b i hb => by split <;> [exact Mem.put_wf _ _ _ hb; exact hb]) (List.range 8) _ hb
      cases m
      · exact ⟨hw, hacc.2⟩
      · exact ⟨hacc.1, hw⟩

/-- A write of a macro row. -/
theorem CoreState.setWmRow_wf (k : CoreState) (mc page row : Nat) (v : W32) (h : Tab.wf wmDefault k.wm) :
    Tab.wf wmDefault (k.setWmRow mc page row v).wm := Tab.set_wf _ _ _ _ h

end Sys2Proof.Machine
end

