-- ==== Sys2Proof/WellFormed.lean ====
section
/-!
DEFINITION. Which commands are well formed: their operands lie in the ranges of the tables that name them. A command
that is not well formed names nothing of the part.
-/

namespace Sys2Proof

/-- A physical core number (R10). -/
def coreOk (c : Nat) : Bool := decide (c < 72)
/-- A fabric port number. -/
def portOk (p : Nat) : Bool := decide (p < 32)
/-- A queue number (R262). -/
def queueOk (q : Nat) : Bool := decide (q < 64)
/-- A mailbox channel (R281). -/
def channelOk (ch : Nat) : Bool := decide (ch < 10)

/-- An agent of the part: command processors are 0 to 4 (R453). -/
def agentOk : Agent → Bool
  | .cp n => decide (n < 5)
  | _ => true

/-- A command source of the part. -/
def srcOk : Src → Bool
  | .queue q => queueOk q
  | _ => true

/-- The operands of a command name parts that exist. -/
def wellFormed : Instr → Bool
  | .ldwWeights c => coreOk c
  | .ldwScales c => coreOk c
  | .ldwGen c => coreOk c
  | .lda c => coreOk c
  | .sto c => coreOk c
  | .stoAtomic c => coreOk c
  | .mcastCopy c => coreOk c
  | .mcastLoad c => coreOk c
  | .pass c => coreOk c
  | .pass24 c => coreOk c
  | .stream c => coreOk c
  | .aclr c => coreOk c
  | .adrainEpi c => coreOk c
  | .adrainRaw c => coreOk c
  | .adrainAtomic c => coreOk c
  | .adrainList c => coreOk c
  | .aepiForm0 c => coreOk c
  | .aepiForm1 c => coreOk c
  | .waitf c => coreOk c
  | .waitc c => coreOk c
  | .claim c => coreOk c
  | .claimTicket c => coreOk c
  | .barrier c => coreOk c
  | .signalDoorbell c => coreOk c
  | .signalArrive c => coreOk c
  | .signalTicket c => coreOk c
  | .loopInstr c => coreOk c
  | .br c => coreOk c
  | .endProgram c => coreOk c
  | .setpArray c => coreOk c
  | .setpAga c => coreOk c
  | .setpAgb c => coreOk c
  | .setpDrain c => coreOk c
  | .sgseed c => coreOk c
  | .boundWrite c => coreOk c
  | .coreDispatch c => coreOk c
  | .passRetire c => coreOk c
  | .passClosing c => coreOk c
  | .adrainTransfer c => coreOk c
  | .epilogueDrain c => coreOk c
  | .rowClose c => coreOk c
  | .rangeMissWindow c => coreOk c
  | .checkpointTest c _ _ => coreOk c
  | .loadPageWrite c => coreOk c
  | .scrubPage c mc page => coreOk c && decide (mc < 16) && decide (page < 128)
  | .scrubAgeExceeded c => coreOk c
  | .hacSpill c => coreOk c
  | .tileFaultReport c => coreOk c
  | .debugEnter c => coreOk c
  | .writeAck c _ => coreOk c
  | .tagWaitTimeout c => coreOk c
  | .waitcTimeout c => coreOk c
  | .barrierTimeout c => coreOk c
  | .spmAccess c _ _ _ => coreOk c
  | .spmEccWriteback c _ _ => coreOk c
  | .gatherEntryWrite c _ => coreOk c
  | .remoteSpmAccess _ => true
  | .retentionEnter c group => coreOk c && decide (group < 32)
  | .retentionScrubWake c mc => coreOk c && decide (mc < 16)
  | .groupWakeDone c group => coreOk c && decide (group < 32)
  | .bankGroupClosed c group => coreOk c && decide (group < 32)
  | .coreSeqHalt a c => agentOk a && coreOk c
  | .coreSeqStep a c => agentOk a && coreOk c
  | .coreSeqRun a c => agentOk a && coreOk c
  | .coreImemWrite a c _ _ _ => agentOk a && coreOk c
  | .coreImemRead a c _ _ => agentOk a && coreOk c
  | .coreBoundWrite a c b _ => agentOk a && coreOk c && decide (b < 16)
  | .coreArrScrubCtrlWrite a c _ => agentOk a && coreOk c
  | .coreAccDbgCtrlWrite a c _ => agentOk a && coreOk c
  | .coreSpmModeWrite a c _ => agentOk a && coreOk c
  | .coreSpmWheelWrite a c _ => agentOk a && coreOk c
  | .spmModeApply c => coreOk c
  | .coreSpmPwrReqWrite a c _ _ => agentOk a && coreOk c
  | .coreSpmArriveWrite a c _ _ _ => agentOk a && coreOk c
  | .coreRqLimitWrite a c _ => agentOk a && coreOk c
  | .coreSpHacCfgWrite a c _ => agentOk a && coreOk c
  | .latchedPairRead a _ => agentOk a
  | .rasLogRead a _ _ => agentOk a
  | .registerWrite a _ v => agentOk a && v.rivals.all (fun x => agentOk x.1)
  | .cmdqSqdbWrite a q _ => agentOk a && queueOk q
  | .cmdqCqdbWrite a q _ => agentOk a && queueOk q
  | .queueEnable a q _ => agentOk a && queueOk q
  | .queueDisable a q _ => agentOk a && queueOk q
  | .queueDrained q => queueOk q
  | .cmdqEvtClear a _ => agentOk a
  | .sqFetch src _ => srcOk src
  | .cqPost src => srcOk src
  | .msixMessage _ => true
  | .irqAgeExpiry q => queueOk q
  | .progressInterval _ => true
  | .completionDoorbell _ => true
  | .dispatchComplete _ => true
  | .formatBarrierRelease c => coreOk c
  | .layerRerun _ => true
  | .routedRound _ => true
  | .ledgeTileStage _ => true
  | .predSkipMapRead _ => true
  | .predWindowClose _ => true
  | .deferredRecheck => true
  | .coreRenumber => true
  | .identify src => srcOk src
  | .progress src => srcOk src
  | .abort src => srcOk src
  | .drain src => srcOk src
  | .softReset src => srcOk src
  | .softResetApply => true
  | .maintEnter src => srcOk src
  | .maintExit src => srcOk src
  | .countersRead src => srcOk src
  | .errlogRead src => srcOk src
  | .telemetryRead src => srcOk src
  | .powerCapSet src => srcOk src
  | .opSet src => srcOk src
  | .handleAlloc src => srcOk src
  | .handleFree src => srcOk src
  | .handleAttr src => srcOk src
  | .dmaCopy src => srcOk src
  | .dmaFill src => srcOk src
  | .pageXfer src => srcOk src
  | .weightLoad src => srcOk src
  | .weightUnload src => srcOk src
  | .predEnable src => srcOk src
  | .layerRun src => srcOk src
  | .layerChain src => srcOk src
  | .tileRun src => srcOk src
  | .worklistDefine src => srcOk src
  | .worklistFree src => srcOk src
  | .fabricDiscover src => srcOk src
  | .fabricStatus src => srcOk src
  | .ropeJoin src => srcOk src
  | .ropeLeave src => srcOk src
  | .portReset src => srcOk src
  | .selfTest src _ => srcOk src
  | .rowRepair src => srcOk src
  | .coreReset src => srcOk src
  | .debugHalt src => srcOk src
  | .debugAccRead src => srcOk src
  | .debugResume src => srcOk src
  | .attest src => srcOk src
  | .certRead src => srcOk src
  | .fwUpdate src => srcOk src
  | .keyOp src => srcOk src
  | .glbBmcSubmit a => agentOk a
  | .glbBmcPop a => agentOk a
  | .usbRegisterRead _ => true
  | .usbRegisterWrite _ => true
  | .usbSubmit _ => true
  | .usbCompletionAck => true
  | .mbxLockRead a ch => agentOk a && channelOk ch
  | .mbxLockRelease a ch => agentOk a && channelOk ch
  | .mbxDataWrite a ch _ _ => agentOk a && channelOk ch
  | .mbxSend a ch _ => agentOk a && channelOk ch
  | .mbxAck a ch _ => agentOk a && channelOk ch
  | .mbxTimeout ch => channelOk ch
  | .fwVerify ch => channelOk ch
  | .fwWrite ch => channelOk ch
  | .fwActivate ch => channelOk ch
  | .fwCommit ch => channelOk ch
  | .keyAttestRotate ch => channelOk ch
  | .keyRevoke ch => channelOk ch
  | .certWrite ch => channelOk ch
  | .bar2Access _ _ _ _ => true
  | .dmaPiece _ => true
  | .sliceAtomicOp sl => decide (sl < 32)
  | .sliceRowFill sl => decide (sl < 32)
  | .sliceIdleWriteback sl _ => decide (sl < 32)
  | .ledgeAtomicOp die bank => decide (die < 2) && decide (bank < 32)
  | .tset die bank => decide (die < 2) && decide (bank < 32)
  | .nvmeCompletion drive _ => decide (drive < 4)
  | .nvmeCmdTimeout drive => decide (drive < 4)
  | .nvmeLinkDown drive => decide (drive < 4)
  | .frameReceive p _ _ => portOk p
  | .nakReceive p _ => portOk p
  | .frameForward _ => true
  | .vc1Escalate _ => true
  | .writeMsg _ => true
  | .writeP _ => true
  | .readMsg _ => true
  | .readResp _ => true
  | .atomic _ => true
  | .atomicResp _ => true
  | .wack _ => true
  | .qsubmit _ => true
  | .qack _ => true
  | .cqdb _ => true
  | .remoteTimeout _ => true
  | .helloSend p => portOk p
  | .hello p _ => portOk p
  | .helloTimeout p => portOk p
  | .portSignalLoss p => portOk p
  | .portTrained p _ => portOk p
  | .laneSpare p lane => portOk p && decide (lane < 5)
  | .portRetrain p => portOk p
  | .portCtrlWrite a p _ => agentOk a && portOk p
  | .startWave p _ _ _ _ => portOk p
  | .electionEnd => true
  | .assign p _ _ _ => portOk p
  | .join p _ _ => portOk p
  | .waveEnd => true
  | .config p _ _ _ _ _ _ _ => portOk p
  | .configAck p _ _ => portOk p
  | .configTimeout => true
  | .linkDown p _ _ => portOk p
  | .linkUp p _ _ => portOk p
  | .witness p _ => portOk p
  | .witnessHoldExpiry _ => true
  | .witnessCollectExpiry _ => true
  | .idChallenge p _ _ => portOk p
  | .idProof p _ _ => portOk p
  | .idExchangeTimeout p => portOk p
  | .estimationPeriod => true
  | .fixedBreak => true
  | .opTargetSet => true
  | .opReevaluate => true
  | .vddcSettled => true
  | .voltageMoveTimeout => true
  | .pwrCapWrite a _ => agentOk a
  | .pwrBudgetWrite a _ => agentOk a
  | .pwrOpCtrlWrite a _ => agentOk a
  | .pwrAlert => true
  | .alertHoldExpiry => true
  | .thermalStep sensor _ => decide (sensor < 88)
  | .thermalRepeat sensor _ => decide (sensor < 88)
  | .thermalClear sensor _ => decide (sensor < 88)
  | .thermtrip sensor _ => decide (sensor < 88)
  | .ropeForm _ => true
  | .ropeSync _ _ _ _ => true
  | .ropeEpochTick => true
  | .paceDown _ _ _ => true
  | .paceVote _ _ _ => true
  | .voteExamine => true
  | .paceUp _ _ _ => true
  | .paceFloor _ _ => true
  | .ropeLeaveMsg _ => true
  | .ropeDrop _ _ => true
  | .ropeRefuse _ _ => true
  | .ropeCapMove => true
  | .memberDrop _ => true
  | .leaderLost => true
  | .ropeJoinTimeout => true
  | .heartbeatPoll cp c _ => decide (cp < 5) && coreOk c
  | .heartbeatMiss c _ => coreOk c
  | .coreFence c _ _ => coreOk c
  | .spareInService c _ => coreOk c
  | .cairnProgram c => coreOk c
  | .cpWatchdogExpiry cp => decide (cp < 5)
  | .mpFault _ => true
  | .patrolScrubRow _ => true
  | .patrolOverrun _ _ => true
  | .telSnap a _ => agentOk a
  | .telChCfgWrite a ch _ => agentOk a && decide (ch < 32)
  | .telChClr a ch => agentOk a && decide (ch < 32)
  | .rasViolClr a _ => agentOk a
  | .sysRstAssert => true
  | .sysRstRelease _ _ => true
  | .perstAssert => true
  | .perstRelease => true
  | .vrPgRise _ => true
  | .vrPgFall _ => true
  | .refclkLoss => true
  | .rootPllLock _ => true
  | .memoryTrainingDone _ => true
  | .attestKeyReady => true
  | .driveBringupEnd _ => true
  | .recoveryImage _ => true
  | .pwrAlertRelease => true
  | .packagePowerLoss => true
  | .codewordSideband p _ _ _ => portOk p
  | .pcieLinkDown => true
  | .pcieLinkUp => true
  | .pcieConfigWrite _ _ _ => true
  | .usbConfigurationChange _ _ => true
  | .portSignalReturn p => portOk p
  | .witnessWindowExpiry _ => true

end Sys2Proof
end

