-- ==== Sys2Proof/Tests/Slice0.lean ====
section
/-!
SUPPORT. Tests: ill-formed terms that the checks of well-formedness refuse, single steps on small states, and states that meet the
hypotheses of the statements.
-/

namespace Sys2Proof.Tests

open Sys2Proof Sys2Proof.Machine

set_option Elab.async false

/-- Core 0 runs a program that begins with a word. -/
def coreOf (w : W64) : CoreState := { CoreState.reset with imem := [(0, w)], loaded := true, seq := .running }

/-- The machine, ready, with core 0 running a program that begins with a word. -/
def running (w : W64) : State := (State.reset.setCore 0 (coreOf w)).setFld GLB_STATE 2 0 devReady

/-- That machine with its core 0 changed. -/
def runningWith (w : W64) (f : CoreState → CoreState) : State := (running w).modCore 0 f

/-- The machine after a boot: READY, its links up. -/
def up : State := { (State.reset.setFld GLB_STATE 2 0 devReady) with bootStep := 11, pcieUp := true, usbUp := true, busMaster := true, inD0 := true }

/-- That machine with its core 0 changed. -/
def upCore (f : CoreState → CoreState) : State := up.modCore 0 f

/-- That machine in another device state. -/
def upIn (dev : Nat) : State := up.setFld GLB_STATE 2 0 dev

/-- An entry at the head of queue 0: opcode, flags, parameter words. -/
def entry (op flags : Nat) (ws : List Nat) : Entry :=
  ⟨.queue 0, 0, 1, leBytes 2 (op + 256 * flags) ++ leBytes 2 7 ++ leBytes 4 (1 + 256 * ws.length) ++ ws.flatMap (leBytes 8)
    ++ List.replicate (56 - 8 * ws.length) 0, none, false, false, [], 0⟩

/-- A machine with an entry at the head of queue 0. -/
def queued (s : State) (op : Nat) (ws : List Nat) : State := { s with fetched := [entry op 0 ws] }

/-- The state that a command leaves. -/
def ran : Out → State
  | .next t => t
  | _ => State.reset

/-- A command in flight: number 1, of queue 0, with an opcode. -/
def theCmd (op : Nat) : Cmd where
  id := 1
  src := .queue 0
  op := op
  flags := 0
  tag := 7
  sqhead := 1
  words := []
  layer := none
  chain := []
  past := []
  kept := []
  srcs := []
  stale := false
  raised := 0
  status := 0
  failed := none
  detail := 0
  result := 0
  ended := false
  closing := false
  quiet := false
  acks := 0
  members := []
  lists := []
  uses := []
  useLists := []
  unit := 0
  total := 100
  done := 0
  shown := 0
  layers := 0
  badLayer := 0
  sum := 0
  shortest := 0
  longest := 0
  clips := 0
  amisses := 0
  stopped := false
  wrote := false
  nonreplay := false
  rounds := 0
  since := 0
  nextProg := 0
  born := 0

/-- A layer descriptor: BIN by BIN, RAW, core tiles of one row and one block, with the sizes given. -/
def desc (m n k : Nat) : List Byte :=
  leBytes 8 1 ++ leBytes 8 (2 + 1 * 2 ^ 5 + 2 * 2 ^ 10 + 1 * 2 ^ 15) ++ leBytes 4 m ++ leBytes 4 n ++ leBytes 4 k ++ leBytes 4 0
    ++ leBytes 2 1 ++ leBytes 2 1 ++ leBytes 2 1 ++ List.replicate 10 0 ++ leBytes 8 0x0706050403020100 ++ leBytes 8 0x0908
    ++ leBytes 4 0x04000800 ++ List.replicate 444 0

/-- That machine with a descriptor at host address 0. -/
def described (m n k : Nat) : State := { up with hmem := Mem.write [] 0 (desc m n k) }

/-- An entry of the handle table, in core 0, which answers for all. -/
def withHandle (s : State) (n : Nat) (h : Handle) : State :=
  s.modCore 0 (fun k => k.setHandle 0 n h)

/-- A handle: memory, layout, format, width, length. -/
def hnd (mem layout fmt bits length : Nat) : Handle := ⟨0, 0, mem, layout, 0, true, false, false, 0, 0, fmt, bits, length⟩

/-- Pages 0 to `n` - 1 of every macro, loaded. -/
def loadedPages (n : Nat) (tag : Nat → Option StreamTag) : Tab PageEntry :=
  (List.range 16).flatMap (fun m => (List.range n).map (fun p => (pageKey m p, ⟨.loaded, 0, tag p⟩)))

/-- The value of an access that is made, and the state after it. -/
def rval {α : Type} [Inhabited α] : Reach α → α
  | .ok v _ => v
  | _ => default
def rst {α : Type} : Reach α → State
  | .ok _ s | .wait s | .fail _ s => s
def rok {α : Type} : Reach α → Bool
  | .ok _ _ => true
  | _ => false
theorem rok_eq {α : Type} [Inhabited α] (r : Reach α) (h : rok r = true) : r = .ok (rval r) (rst r) := by
  cases r <;> first | rfl | cases h

theorem rok_at {α : Type} [Inhabited α] {r : Reach α} {v : α} {s : State} (h : rok r = true) (hv : rval r = v) (hs : rst r = s) :
    r = .ok v s := hv ▸ hs ▸ rok_eq r h
theorem rok_unit (r : Reach Unit) (h : rok r = true) : r = .ok () (rst r) := by cases r <;> first | rfl | cases h

/-- The bound values that have been read, and the state after. -/
def bval : Bounds → List W32
  | .ok vs _ => vs
  | _ => []
def bst : Bounds → State
  | .ok _ s | .wait s | .bad _ _ s => s
def bok : Bounds → Bool
  | .ok _ _ => true
  | _ => false
theorem bok_eq (b : Bounds) (h : bok b = true) : b = .ok (bval b) (bst b) := by cases b <;> first | rfl | cases h

theorem bok_at {b : Bounds} {vs : List W32} {s : State} (h : bok b = true) (hv : bval b = vs) (hs : bst b = s) : b = .ok vs s :=
  hv ▸ hs ▸ bok_eq b h

/-- The values of the bound sources that are none of memory. -/
def isValue : BoundSrc → Bool
  | .value _ => true
  | _ => false
theorem values_of (f : Nat → Nat) (h : (List.range 16).all (fun i => isValue (boundSrc (f i))) = true) :
    ∀ i < 16, ∃ x, boundSrc (f i) = .value x := by
  intro i hi
  have hv := List.all_eq_true.mp h i (List.mem_range.mpr hi)
  cases hb : boundSrc (f i) <;> simp_all [isValue]

/-- How a layer begins. -/
def gst : Begun → State
  | .runs s | .ended _ _ s | .waits s => s
def runsB : Begun → Bool
  | .runs _ => true
  | _ => false
theorem runs_eq (b : Begun) (h : runsB b = true) : b = .runs (gst b) := by cases b <;> first | rfl | cases h
def endsB (st det : Nat) : Begun → Bool
  | .ended a b _ => a == st && b == det
  | _ => false
theorem ends_eq (b : Begun) (st det : Nat) (h : endsB st det b = true) : b = .ended st det (gst b) := by
  cases b <;> simp_all [endsB, gst]

/-- The passes of a BIN by BIN array, and their settings. -/
def binArr (acc16 skip : Bool) : ArrayCfg := ⟨2, 1, 2, 1, acc16, 0, false, skip, false, 0, 0⟩
def scArr : ArrayCfg := ⟨5, 4, 5, 4, false, 0, false, false, false, 0, 4⟩

/-- Blocks 0 to 31 taggedBlocks. -/
def taggedBlocks (c : Nat) (v : W32) (k : CoreState) : CoreState :=
  (List.range 32).foldl (fun k b => k.setReg c (CORE_ACC_TAG b) v) k

/-- A write reaches its register. -/
def writesB (s : State) (a : Agent) (addr : Nat) (v u : W32) : Bool :=
  match s.writeWay a addr with
  | .row r => v &&& r.rsv == 0 && v &&& r.wmask == u
  | _ => false
theorem writes_of {s : State} {a : Agent} {addr : Nat} {v u : W32} (h : writesB s a addr v u = true) : Writes s a addr v u := by
  unfold writesB at h
  split at h
  · exact ⟨_, ‹_›, by simpa using h⟩
  · cases h

/-- What the checks of an entry copy, and the state they leave. -/
def copied : Checked → List Byte
  | .done _ c _ => c
  | .wait _ => []
def after : Checked → State
  | .done _ _ s | .wait s => s
def passes (e : Entry) : Checked → Bool
  | .done cs _ _ => (firstBad (e.rsvChecks ++ cs)).isNone
  | .wait _ => false

/-- An entry passes its checks. -/
def acceptsB (s : State) (src : Src) (op : Nat) (checks : Checks) (e : Entry) : Bool :=
  decide (AtHead s src op e) && passes e (checks e (s.tookTurn src)) &&
    decide ((after (checks e (s.tookTurn src))).gate e = .accept) && decide ((after (checks e (s.tookTurn src))).pitonHeld < 4096) &&
      (((after (checks e (s.tookTurn src))).popHead src).head src).isNone
theorem accepts_of {s : State} {src : Src} {op : Nat} {checks : Checks} {e : Entry} (h : acceptsB s src op checks e = true) :
    Accepts s src op checks e (copied (checks e (s.tookTurn src))) (after (checks e (s.tookTurn src))) := by
  simp only [acceptsB, Bool.and_eq_true, decide_eq_true_eq, Option.isNone_iff_eq_none] at h
  obtain ⟨⟨⟨⟨h1, h2⟩, h3⟩, h4⟩, h5⟩ := h
  refine ⟨h1, ?_, h3, h4, h5⟩
  cases hc : checks e (s.tookTurn src) with
  | done cs c v => exact ⟨cs, rfl, by simpa [passes, hc] using h2⟩
  | wait v => simp [passes, hc] at h2

theorem accepts_at {s : State} {src : Src} {op : Nat} {checks : Checks} {e : Entry} {d : List Byte} {u : State}
    (hd : copied (checks e (s.tookTurn src)) = d) (hu : after (checks e (s.tookTurn src)) = u)
    (h : acceptsB s src op checks e = true) : Accepts s src op checks e d u := hd ▸ hu ▸ accepts_of h

/-- The command, or the entry, that an opcode acts on. -/
def aimsCmd (x : Cmd) : Option Target → Bool
  | some (.cmd y) => x == y
  | _ => false
theorem target_cmd {x : Cmd} (o : Option Target) (h : aimsCmd x o = true) : o = some (.cmd x) := by
  unfold aimsCmd at h
  split at h
  · rw [← LawfulBEq.eq_of_beq h]
  · cases h
def aimsEntry (x : Entry) : Option Target → Bool
  | some (.entry y) => x == y
  | _ => false
theorem target_entry {x : Entry} (o : Option Target) (h : aimsEntry x o = true) : o = some (.entry x) := by
  unfold aimsEntry at h
  split at h
  · rw [← LawfulBEq.eq_of_beq h]
  · cases h

/-- The rows of a drain that have gone, and the state after them. -/
def rowsSt : RowOut → State
  | .done s | .wait s | .fault _ s => s
def rowsGone : RowOut → Bool
  | .done _ => true
  | _ => false
theorem rows_eq (o : RowOut × Nat) (h : rowsGone o.1 = true) : o = (.done (rowsSt o.1), o.2) := by
  obtain ⟨r, n⟩ := o
  cases r <;> first | rfl | cases h

/-- Where a write ends. -/
def wayRow : Way → RegRow
  | .row r => r
  | _ => ⟨0, 0, 0, 0, .rw, 0, 0, 0⟩
def isRow : Way → Bool
  | .row _ => true
  | _ => false
theorem row_eq (w : Way) (h : isRow w = true) : w = .row (wayRow w) := by cases w <;> first | rfl | cases h
def isUnnamed : Way → Bool
  | .unnamed => true
  | _ => false
theorem unnamed_eq (w : Way) (h : isUnnamed w = true) : w = .unnamed := by cases w <;> first | rfl | cases h

/-- A pair whose second part is known. -/
theorem snd_eq {α β : Type} (x : α × β) {b : β} (h : x.2 = b) : x = (x.1, b) := by rw [← h]
theorem fst_eq {α β : Type} (x : α × β) {a : α} (h : x.1 = a) : x = (a, x.2) := by rw [← h]

/-- The CRC of page 127 of macro 15 where nothing has written it. -/
def zeroCrc : W32 := crc32 ((List.range 256).flatMap (fun r => leBytes 4 (Tab.get wmDefault [] (wmKey 15 127 r)).toNat))

/-- Core 0 with that page loaded under a CRC, scrubbing on, and the power group of its macro in a state. -/
def paged (g : Nat) (crc : W32) : State :=
  runningWith 0x22#64 (fun k => { ((k.setReg 0 CORE_ARR_SCRUB_CTRL 1#32).setGroupSt 0 31 g) with
    pages := [(pageKey 15 127, ⟨.loaded, crc, none⟩)] })
theorem paged_core (g : Nat) (v : W32) :
    ((paged g v).core 0).pages = [(pageKey 15 127, ⟨.loaded, v, none⟩)] ∧ ((paged g v).core 0).wm = [] := by
  simp only [paged, runningWith, State.core_modCore, if_true]
  exact ⟨trivial, rfl⟩
theorem paged_crc (g : Nat) :
    crc32 (((paged g zeroCrc).core 0).pageBytes 15 127) = (((paged g zeroCrc).core 0).page 15 127).crc := by
  have h (k : CoreState) (v : W32) (hp : k.pages = [(pageKey 15 127, ⟨.loaded, v, none⟩)]) : (k.page 15 127).crc = v := by
    simp [CoreState.page, hp, Tab.get]
  obtain ⟨hp, hw⟩ := paged_core g zeroCrc
  rw [h _ _ hp]
  simp only [CoreState.pageBytes, CoreState.wmRow, hw]
  rw [zeroCrc]

/-- No core but core 0 of such a machine has page writes, whatever core 1 waits for. -/
theorem pageWrites_other (w : W64) (f g : CoreState → CoreState) (hg : ∀ k, (g k).pageWrites = k.pageWrites) (q : Nat) (hq : q ≠ 0)
    (p : PageWrite → Bool) : ((((runningWith w f).modCore 1 g).core q).pageWrites.all p) = true := by
  have h : ((runningWith w f).core q).pageWrites = [] := by
    simp only [runningWith, running, State.core_modCore, if_neg hq]
    exact congrArg CoreState.pageWrites (State.core_setCore State.reset 0 q (coreOf w)) ▸ by simp [if_neg hq]; rfl
  have h1 : ((((runningWith w f).modCore 1 g).core q).pageWrites) = [] := by
    rw [State.core_modCore]
    split
    · subst q; rw [hg]; exact h
    · exact h
  rw [h1]; rfl

/-- A command that goes on. -/
def goesOn : Out → Bool
  | .next _ => true
  | _ => false
theorem next_eq (o : Out) (h : goesOn o = true) : o = .next (ran o) := by
  cases o <;> first | rfl | cases h

/-! ## Ill-formed terms -/

theorem smoke_core : wellFormed (.pass 72) = false ∧ wellFormed (.pass 71) = true := by decide
theorem smoke_macro : wellFormed (.scrubPage 0 16 0) = false ∧ wellFormed (.scrubPage 0 15 0) = true := by decide
theorem smoke_page : wellFormed (.scrubPage 0 0 128) = false ∧ wellFormed (.scrubPage 0 0 127) = true := by decide
theorem smoke_group : wellFormed (.retentionEnter 0 32) = false ∧ wellFormed (.retentionEnter 0 31) = true := by decide
theorem smoke_agent : wellFormed (.telSnap (.cp 5) 0) = false ∧ wellFormed (.telSnap (.cp 4) 0) = true := by decide
theorem smoke_bound : wellFormed (.coreBoundWrite .mp 0 16 0) = false ∧ wellFormed (.coreBoundWrite .mp 0 15 0) = true := by
  decide
theorem smoke_queue : wellFormed (.queueDrained 64) = false ∧ wellFormed (.queueDrained 63) = true := by decide
theorem smoke_source : wellFormed (.identify (.queue 64)) = false ∧ wellFormed (.identify .usb) = true := by decide
theorem smoke_channel : wellFormed (.mbxTimeout 10) = false ∧ wellFormed (.mbxTimeout 9) = true := by decide
theorem smoke_slice : wellFormed (.sliceAtomicOp 32) = false ∧ wellFormed (.sliceAtomicOp 31) = true := by decide
theorem smoke_die : wellFormed (.tset 2 0) = false ∧ wellFormed (.tset 1 0) = true := by decide
theorem smoke_bank : wellFormed (.tset 0 32) = false ∧ wellFormed (.tset 0 31) = true := by decide
theorem smoke_drive : wellFormed (.nvmeLinkDown 4) = false ∧ wellFormed (.nvmeLinkDown 3) = true := by decide
theorem smoke_port : wellFormed (.helloSend 32) = false ∧ wellFormed (.helloSend 31) = true := by decide
theorem smoke_lane : wellFormed (.laneSpare 0 5) = false ∧ wellFormed (.laneSpare 0 4) = true := by decide
theorem smoke_sensor : wellFormed (.thermtrip 88 0) = false ∧ wellFormed (.thermtrip 87 0) = true := by decide
theorem smoke_monitor : wellFormed (.telChClr .mp 32) = false ∧ wellFormed (.telChClr .mp 31) = true := by decide
theorem smoke_cp : wellFormed (.heartbeatPoll 5 0 true) = false ∧ wellFormed (.heartbeatPoll 4 0 true) = true := by decide

/-! ## Worked examples of the specification -/

/-- 02_number_formats.md, the five trits +1, -1, 0, 0, +1. -/
theorem test_ternary_forms :
    (List.range 5).map (tern5At [0x58] 5) = [some 1, some (-1), some 0, some 0, some 1] ∧
      (List.range 5).map (tern2At [0x0d, 0x01]) = [some 1, some (-1), some 0, some 0, some 1] := by decide

/-- 02_number_formats.md, three contributions in two orders (R37). -/
theorem test_accumulate_order :
    accAdd 32 (accAdd 32 (.fin 2147483640) (.fin 10)) (.fin (-20)) = .pinf ∧
      accAdd 32 (accAdd 32 (.fin 2147483640) (.fin (-20))) (.fin 10) = .fin 2147483630 := by decide

/-- 02_number_formats.md, the group partial truncates toward zero (R44). -/
theorem test_group_partial : partialTerm (-75) 0x7ea0 0x7d00 (-2) = -60 := by decide

/-- 02_number_formats.md, input quantisation of 1.6875, -1.6875 and -2.75 into SINT4 (R47). -/
theorem test_quantise :
    quantise fmtSint 4 0x7d 0 0x3fd80000 = ⟨6, false, false⟩ ∧ quantise fmtSint 4 0x7d 0 0xbfd80000 = ⟨10, false, false⟩ ∧
      quantise fmtSint 4 0x7d 0 0xc0300000 = ⟨8, true, false⟩ := by decide

/-- 06_quantisation.md, two outputs requantised into SINT4 (R140). -/
theorem test_requantise :
    requantise fmtSint 4 0x7c80 (-2) (.fin (-61)) = ⟨14, false, false⟩ ∧
      requantise fmtSint 4 0x7c80 (-2) (.fin 400) = ⟨7, true, false⟩ := by decide

/-- 06_quantisation.md, the constant 0.8125 re-encoded as a weight and as an activation (R130). -/
theorem test_reencode :
    reencode false false fmtTern 2 0x3f50 = some (1, 0x7ea0, true) ∧
      reencode true false fmtSint 4 0x3f50 = some (6, 0x7c00, true) := by decide

/-- 04_accumulation.md, the log-sum of 3.0, 3.0 and 1.0 (R93). -/
theorem test_log_sum : logAdd 0x30000 0x30000 = (0x40000, false) ∧ logAdd 0x40000 0x10000 = (0x42b80, false) := by
  decide +kernel

/-- 04_accumulation.md, mean and variance of 3, -1, 4 and 2 at TBP = -2: 0.5 and 0.21875 (R100). -/
theorem test_moments :
    RowCtx.moments { RowCtx.reset with tbp := some (-2), count := 4, sumx := .fin 8, sumsq := .fin 30 }
      = (0x3f000000, 0x3e600000, false) := by decide +kernel

/-- 04_accumulation.md, two tiles drained at OTBP = -3 (R87). -/
theorem test_repoint : accRepoint 32 (-2) (-3) (.fin (-61)) = .fin (-122) ∧ accRepoint 32 (-4) (-3) (.fin (-9)) = .fin (-4) := by
  decide

/-- 05_stochastic_streams.md, the top bits of dimensions 0 and 1 under seed 0 (R110). -/
theorem test_sobol :
    (List.range 16).map (fun t => sobolOut 0 0 t / 0x1000) = [0, 8, 4, 12, 2, 10, 6, 14, 1, 9, 5, 13, 3, 11, 7, 15] ∧
      (List.range 16).map (fun t => sobolOut 0 1 t / 0x1000) = [0, 8, 12, 4, 10, 2, 6, 14, 15, 7, 3, 11, 5, 13, 9, 1] := by
  decide +kernel

/-- 03_bit_plane_array.md, the slots of Layer X: dense, with one zero plane under SKIP, and with ACC16 and two (R62). -/
theorem test_slots :
    slotCycles ⟨fmtTern, 2, fmtSint, 4, false, 7, false, false, false, 0, 0⟩ 0 = 4 ∧
      slotCycles ⟨fmtTern, 2, fmtSint, 4, false, 7, false, true, false, 0, 0⟩ 1 = 3 ∧
      slotCycles ⟨fmtTern, 2, fmtSint, 4, false, 7, false, true, false, 0, 0⟩ 2 = 2 ∧
      slotCycles ⟨fmtTern, 2, fmtSint, 4, false, 7, true, false, false, 0, 0⟩ 0 = 4 := by decide

/-- 07_sparsity.md, the blocks that keys map to with NBLK = 2 and BASE = 30 (R170). -/
theorem test_hac_blocks :
    [1, 3, 6, 8, 9].map (hacHome · 30 2) = List.replicate 5 (4 * 31) ∧ [2, 4, 5, 7].map (hacHome · 30 2) = List.replicate 4 (4 * 30) := by
  decide

/-- 19_register_map.md, the tag of block 5 on core 40. -/
theorem test_register_address : coreAddr 40 (CORE_ACC_TAG 5) = 0x3800594 := by decide

/-- 14_fabric.md, the directions of a frame from (5, 12, 3, 7) to (14, 2, 6, 1) (R352). -/
theorem test_route :
    let s := (((up.setFld FAB_SHAPE 4 0 16).setFld FAB_SHAPE 20 16 16).setFld FAB_SHAPE 27 24 8).setFld FAB_SHAPE 31 28 8
    [s.wayIn 0 5 14, s.wayIn 1 12 2, s.wayIn 2 3 6, s.wayIn 3 7 1] = [some false, some true, some true, some true] := by
  decide +kernel

/-- 15_power.md, a cap cut from 700 W to 500 W at 640.0 W with D = 480.0 W selects OP3 (R385). -/
theorem test_cap_cut :
    let s := (up.setFld PWR_CAP_STATUS 9 0 500).modPwr (fun x => { x with p := 6400, d := 4800, duN := 4800, duD := 1 })
    s.capPoint = 3 := by decide +kernel

/-- 11_command_interface.md, the host and then the BMC read MBX_LOCK of channel 3 while it is FREE (R281). -/
theorem test_mailbox_lock : (up.mbxLockRead .host 3).1 = 0 ∧ ((up.mbxLockRead .host 3).2.mbxLockRead .bmc 3).1 = 1 := by
  decide +kernel

/-! ## The front of the queue -/

/-- The command at the front runs, and leaves the queue. -/
theorem test_step_takes_the_front :
    (ran (step { up with pending := [.fixedBreak, .electionEnd] })).pending = [.electionEnd] := by decide +kernel

/-- A word of the table spells no command. -/
theorem test_no_word : decodeTableWord 32 0x1234 = none := by decide

/-! ## Witnesses of the statements about every command -/

/-- A machine that idles. -/
theorem witness_StepRunsFrontCommand :
    up.pending = [] ∧ up.dev ≠ devBoot ∧ (∀ x ∈ up.cmds, x.op ≠ 0x54) := by decide +kernel

/-- The invariant holds of a machine whose rings, rails and drives are in use, and its step goes on. -/
theorem witness_StepKeepsInvariant :
    (let s : State := { up with pending := [.fixedBreak], boot := { up.boot with vrPg := [0, 1, 2], vrEn := 3 }, drives := [0, 1],
                                usbSq := List.replicate 15 [], bmcSq := List.replicate 15 [], usbCq := List.replicate 16 [],
                                bmcCq := List.replicate 16 [] }
     s.Inv ∧ step s = .next (ran (step s))) :=
  ⟨⟨by decide +kernel, by decide +kernel, by decide +kernel, by decide +kernel, by decide +kernel, by decide +kernel,
    by decide +kernel, by decide +kernel⟩, next_eq _ (by decide +kernel)⟩

/-- A command goes on, and leaves parts of the machine as they are. -/
theorem witness_CommandsLeaveTheRest :
    exec .fixedBreak up = .next (ran (exec .fixedBreak up)) ∧ leaves .fixedBreak ≠ [] :=
  ⟨next_eq _ (by decide +kernel), by decide⟩

/-- LOOP of three turns at the pc of core 0. -/
theorem witness_SequencingLeavesMemories :
    sequencing (.loopInstr 0) = some 0 ∧ exec (.loopInstr 0) (running 0x300000820#64) = .next (ran (exec (.loopInstr 0) (running 0x300000820#64))) :=
  ⟨rfl, next_eq _ (by decide +kernel)⟩

/-- The codes next to the special ones. -/
theorem witness_AccumulatorCodes :
    ∀ n ∈ [0x7FFE, 0x8002], n < 2 ^ 16 ∧ n ≠ 2 ^ 15 - 1 ∧ n ≠ 2 ^ 15 + 1 ∧ n ≠ 2 ^ 15 := by decide

/-- A secure request on channel 9: OP, ARG, LEN and ADDR. -/
def asks (op arg len addr : Nat) : State :=
  ((((up.setMbx 9 mbxSent 3).setReg (MBX_DATA 9 0) (BitVec.ofNat 32 (op + 256 * arg))).setReg (MBX_DATA 9 1) (BitVec.ofNat 32 len)).setReg
    (MBX_DATA 9 2) (BitVec.ofNat 32 addr)).setReg SEC_KEYSLOT 0x31#32

/-- What reading the data of the request on channel 9 gives. -/
def asked (s : State) : List Byte × State := match s.secData 9 with
  | some (_, b, u) => (b, u)
  | none => ([], s)

theorem witness_SecureOperations :
    (let s := asks 0x01 3 64 0
     Asked s 9 0x01 3 ∧ s.secData 9 = some (stOk, (asked s).1, (asked s).2) ∧ (asked s).2.imageOk 3 (asked s).1 = false) ∧
    (let s := asks 0x02 2 64 0
     Asked s 9 0x02 2 ∧ s.secData 9 = some (stOk, (asked s).1, (asked s).2) ∧ (asked s).2.imageOk 2 (asked s).1 = false) ∧
    (let s := { asks 0x03 1 0 0 with flash := [(2, []), (3, [])] }
     Asked s 9 0x03 1 ∧ s.imageOk 1 (s.image 1 (1 - s.activeSlot 1)) = false) ∧
    (let s := asks 0x04 2 0 0
     Asked s 9 0x04 2) ∧
    (let s := asks 0x10 0 0 0
     Asked s 9 0x10 0) ∧
    (let s := { asks 0x11 0 64 0 with flash := [(2, []), (3, []), (4, []), (5, [])] }
     Asked s 9 0x11 0 ∧ s.secData 9 = some (stOk, (asked s).1, (asked s).2) ∧ (asked s).2.liveSlots.filter (· != 0) ≠ [] ∧
       [1, 2, 3].any (fun st => !((asked s).2.activeImage st).isEmpty && img ((asked s).2.activeImage st) 0x003 1 == 0) = false) ∧
    (let s := asks 0x11 1 64 0
     Asked s 9 0x11 1 ∧ s.secData 9 = some (stOk, (asked s).1, (asked s).2) ∧ (asked s).2.liveSlots.filter (· != 1) = []) ∧
    (let s := asks 0x12 0 64 0
     Asked s 9 0x12 0 ∧ s.secData 9 = some (stOk, (asked s).1, (asked s).2)) := by
  refine ⟨?_, ?_, ?_, ?_, ?_, ?_, ?_, ?_⟩ <;> decide +kernel

/-! ## Witnesses: states that meet the hypotheses of the statements -/

theorem witness_IssueGoesOn :
    (let pc := 4
     let l := (⟨2, 5, 2⟩ : LoopLevel)
     pc ≠ l.last) ∧
    (let k : CoreState := coreOf 0x22#64
     k.seq = .running ∧
       k.stepping = false) ∧
    (let off := CORE_BOUND 0
     off ≠ CORE_SEQ_ISSUE_LO ∧
       off ≠ CORE_SEQ_ISSUE_HI) ∧
    (let s : State := running 0x3F#64
     let c : Nat := 0
     let k := s.core c
     let w := k.imemAt k.pc
     (s.core c).canIssue = true ∧
       (s.core c).accHeld = none ∧
       .imem k.pc ∉ k.bad ∧
       tileKind w = none) ∧
    (let s : State := running 0x62#64
     let c : Nat := 0
     let k := s.core c
     let w := k.imemAt k.pc
     (s.core c).canIssue = true ∧
       (s.core c).accHeld = none ∧
       .imem k.pc ∉ k.bad ∧
       tileKind w ≠ none ∧
       tileReserved w = true) ∧
    (let s : State := runningWith 0x3F#64 (fun k => { k with bad := [.imem 0] })
     let c : Nat := 0
     let k := s.core c
     (s.core c).canIssue = true ∧
       (s.core c).accHeld = none ∧
       .imem k.pc ∈ k.bad) ∧
    (let s : State := runningWith 0x40c4083#64 (fun k => { k with bad := [.handle 2] })
     let c : Nat := 0
     let k := s.core c
     let w := k.imemAt k.pc
     (s.core c).canIssue = true ∧
       (s.core c).accHeld = none ∧
       .imem k.pc ∉ k.bad ∧
       tileKind w = some .sto ∧
       tileReserved w = false ∧
       k.checkDue = false ∧
       k.rebound = [] ∧
       (.handle (field w 13 6) ∈ k.bad ∨ .handle (field w 25 18) ∈ k.bad)) := by
  refine ⟨?_, ?_, ?_, ?_, ?_, ?_, ?_⟩
  · decide +kernel
  · decide +kernel
  · decide +kernel
  · decide +kernel
  · decide +kernel
  · decide +kernel
  · decide +kernel

theorem witness_ConfigurationInstructionsWrite :
    (let s : State := running 0x10140428#64
     let c : Nat := 0
     let w : W64 := 0x10140428#64
     Issues s c .setpArray w ∧
       (setpArrayOf w).ok = true ∧
       ((s.core c).passes = [] ∨ setpWaits (s.core c).arr (setpArrayOf w) = false)) ∧
    (let s : State := running 0xfffffffffffffc68#64
     let c : Nat := 0
     let w : W64 := 0xfffffffffffffc68#64
     Issues s c .setpAga w) ∧
    (let s : State := running 0xffffff000fff9ca8#64
     let c : Nat := 0
     let w : W64 := 0xffffff000fff9ca8#64
     Issues s c .setpAgb w) ∧
    (let s : State := running 0x3fffffffffce8#64
     let c : Nat := 0
     let w : W64 := 0x3fffffffffce8#64
     Issues s c .setpDrain w) ∧
    (let s : State := running 0xffff03e9#64
     let c : Nat := 0
     let w : W64 := 0xffff03e9#64
     Issues s c .sgseed w ∧
       (s.core c).genBusy (field w 9 6) = false) ∧
    (let s : State := running 0xffffffff000003ea#64
     let c : Nat := 0
     let w : W64 := 0xffffffff000003ea#64
     Issues s c .bound w ∧
       field w 10 10 = 0) ∧
    (let s : State := runningWith 0x7ea#64 (fun k => (k.setReg 0 CORE_SPM_MODE 0#32))
     let c : Nat := 0
     let w : W64 := 0x7ea#64
     let bs := ([0, 0, 0, 0] : List Byte)
     let u := (rst (s.coreRead 0 3 .am 0 4))
     Issues s c .bound w ∧
       field w 10 10 = 1 ∧
       agIn (agRef c (s.core c) (field w 14 11)) (2 ^ 20 - 4) 4 = true ∧
       s.coreRead c 3 .am (agRef c (s.core c) (field w 14 11)).toNat 4 = .ok bs u) := by
  refine ⟨?_, ?_, ?_, ?_, ?_, ?_, ?_⟩
  · decide +kernel
  · decide +kernel
  · decide +kernel
  · decide +kernel
  · decide +kernel
  · decide +kernel
  · exact ⟨by decide +kernel, by decide +kernel, by decide +kernel, rok_eq _ (by decide +kernel)⟩

theorem witness_SetpArrayRefusesAndWaits :
    (let s : State := running 0x4308828#64
     let c : Nat := 0
     let w : W64 := 0x4308828#64
     Issues s c .setpArray w ∧
       (setpArrayOf w).ok = false) ∧
    (let s : State := runningWith 0x10140428#64 (fun k => { k with passes := [⟨0, 0, 1, 0, 1, [], 0, false, [], 0, true, 0, 1, none, none, true⟩] })
     let c : Nat := 0
     let w : W64 := 0x10140428#64
     Issues s c .setpArray w ∧
       (setpArrayOf w).ok = true ∧
       (s.core c).passes ≠ [] ∧
       setpWaits (s.core c).arr (setpArrayOf w) = true) ∧
    (let s : State := runningWith 0x10140428#64 (fun k => { k with passes := [⟨0, 0, 1, 0, 1, [], 0, false, [], 0, true, 0, 1, none, none, true⟩] })
     let c : Nat := 0
     let w : W64 := 0x10140428#64
     let a : ArrayCfg := (setpArrayOf 0x10140428#64)
     Issues s c .setpArray w ∧
       a.ok = true) ∧
    (let s : State := running 0x10140428#64
     let c : Nat := 0
     let w : W64 := 0x10140428#64
     let a : ArrayCfg := (setpArrayOf 0x210140428#64)
     Issues s c .setpArray w ∧
       a.ok = true ∧
       a.s24 = true) ∧
    (let s : State := running 0x10140428#64
     let c : Nat := 0
     let w : W64 := 0x10140428#64
     let a : ArrayCfg := (setpArrayOf 0x50010541428#64)
     Issues s c .setpArray w ∧
       a.ok = true ∧
       (a.wfmt = fmtScUni ∨ a.wfmt = fmtScBip)) := by
  refine ⟨?_, ?_, ?_, ?_, ?_⟩
  · decide +kernel
  · decide +kernel
  · decide +kernel
  · decide +kernel
  · decide +kernel

theorem witness_LoopInstruction :
    (let s : State := running 0x300000820#64
     let c : Nat := 0
     let w : W64 := 0x300000820#64
     let n : Nat := 3
     Issues s c .loop w ∧
       n = (if field w 6 6 = 1 then ((s.core c).reg c (CORE_BOUND (field w 10 7))).toNat else field w 63 32) ∧
       (s.core c).loops.length < 4 ∧
       (s.core c).pc < field w 23 11 ∧
       (∀ l ∈ (s.core c).loops.head?, field w 23 11 ≤ l.last) ∧
       n ≠ 0) ∧
    (let s : State := running 0xfff820#64
     let c : Nat := 0
     let w : W64 := 0xfff820#64
     let n : Nat := 0
     Issues s c .loop w ∧
       n = (if field w 6 6 = 1 then ((s.core c).reg c (CORE_BOUND (field w 10 7))).toNat else field w 63 32) ∧
       (s.core c).loops.length < 4 ∧
       (s.core c).pc < field w 23 11 ∧
       (∀ l ∈ (s.core c).loops.head?, field w 23 11 ≤ l.last) ∧
       n = 0) ∧
    (let s : State := running 0x300000020#64
     let c : Nat := 0
     let w : W64 := 0x300000020#64
     let n : Nat := 3
     Issues s c .loop w ∧
       n = (if field w 6 6 = 1 then ((s.core c).reg c (CORE_BOUND (field w 10 7))).toNat else field w 63 32) ∧
       (4 ≤ (s.core c).loops.length ∨ field w 23 11 ≤ (s.core c).pc ∨ (∃ l ∈ (s.core c).loops.head?, l.last < field w 23 11))) := by
  refine ⟨?_, ?_, ?_⟩
  · decide +kernel
  · decide +kernel
  · decide +kernel

theorem witness_BranchInstruction :
    (let s : State := running 0x7ffc21#64
     let c : Nat := 0
     let w : W64 := 0x7ffc21#64
     Issues s c .br w) := by
  decide +kernel

theorem witness_EndInstruction :
    (let s : State := running 0x22#64
     let c : Nat := 0
     let w : W64 := 0x22#64
     let k := s.core c
     Issues s c .endProgram w ∧
       k.loops = [] ∧
       k.drains = [] ∧
       k.closing = [] ∧
       k.rangeWindows = [] ∧
       (∀ i < 16, k.chunkMask i = 0) ∧
       k.validWays = [] ∧
       k.spills = [] ∧
       k.outst = [] ∧
       k.gather = []) ∧
    (let s : State := runningWith 0x22#64 (fun k => { k with loops := [⟨0, 5, 2⟩] })
     let c : Nat := 0
     let w : W64 := 0x22#64
     let k := s.core c
     Issues s c .endProgram w ∧
       k.loops ≠ []) := by
  refine ⟨?_, ?_⟩
  · decide +kernel
  · decide +kernel

theorem witness_WaitInstructions :
    (let s : State := runningWith 0x100001fda#64 (fun k => k.setReg 0 (CORE_SPM_ARRIVE 63) 1#32)
     let c : Nat := 0
     let w : W64 := 0x100001fda#64
     let r := (s.core c).reg c (CORE_SPM_ARRIVE (field w 11 6))
     Issues s c .waitc w ∧
       field w 63 32 ≤ r.toNat) ∧
    (let s : State := running 0x10000001a#64
     let c : Nat := 0
     let w : W64 := 0x10000001a#64
     let r := (s.core c).reg c (CORE_SPM_ARRIVE (field w 11 6))
     Issues s c .waitc w ∧
       r.toNat < field w 63 32) ∧
    (let s : State := running 0x7fe18#64
     let c : Nat := 0
     let w : W64 := 0x7fe18#64
     let m := if field w 6 6 = 0 then SpmMem.am else SpmMem.pm
     let want := field w 7 7 == 1
     Issues s c .waitf w ∧
       field w 27 19 = 0 ∧
       (s.core c).progress = 0 ∧
       (s.core c).tagFull c m (field w 18 10) = want) ∧
    (let s : State := running 0x1d8#64
     let c : Nat := 0
     let w : W64 := 0x1d8#64
     let m := if field w 6 6 = 0 then SpmMem.am else SpmMem.pm
     let want := field w 7 7 == 1
     Issues s c .waitf w ∧
       field w 27 19 = 0 ∧
       (s.core c).progress = 0 ∧
       (s.core c).tagFull c m (field w 18 10) ≠ want) := by
  refine ⟨?_, ?_, ?_, ?_⟩
  · decide +kernel
  · decide +kernel
  · decide +kernel
  · decide +kernel

theorem witness_SynchronisationInstructions :
    (let s : State := runningWith 0xc01b#64 (fun k => k.setReg 0 (CORE_WL 1) 0x80000000#32)
     let c : Nat := 0
     let w : W64 := 0xc01b#64
     let k := s.core c
     Issues s c .claim w ∧
       k.claim = none ∧
       bitsOf (k.wl c (field w 13 6)) 63 63 = 1 ∧
       bitsOf (k.wl c (field w 13 6)) 62 62 = 0) ∧
    (let s : State := { runningWith 0x1b#64 (fun k => { k with claim := some (255, 3) }) with atomResps := [⟨.claim 0 255 3, stOk, 7⟩] }
     let c : Nat := 0
     let k := s.core c
     let l := 255
     let tr := 3
     let old := 7
     let rest := ([] : List AtomResp)
     s.atomResps = ⟨.claim c l tr, stOk, old⟩ :: rest ∧
       k.claim = some (l, tr) ∧
       k.accHeld = none ∧
       tr < 4) ∧
    (let s : State := running 0x3dc#64
     let c : Nat := 0
     let w : W64 := 0x3dc#64
     let k := s.core c
     Issues s c .barrier w ∧
       k.barrier = none ∧
       k.settled = true ∧
       k.gather = [] ∧
       (∀ m ∈ s.members c, m = s.logicalOf c ∨ m ∈ (Tab.get (fun _ => ((0 : Nat), ([] : List Nat))) s.barriers (k.barrierKey c (field w 9 6))).2)) ∧
    (let s : State := running 0xffffffff00000019#64
     let c : Nat := 0
     let w : W64 := 0xffffffff00000019#64
     let k := s.core c
     Issues s c .signalDoorbell w ∧
       k.settled = true ∧
       k.gather = []) ∧
    (let s : State := running 0x1001fbf59#64
     let c : Nat := 0
     let w : W64 := 0x1001fbf59#64
     let k := s.core c
     let p := 64
     Issues s c .signalArrive w ∧
       k.settled = true ∧
       k.gather = [] ∧
       k.arrSkip = 0 ∧
       s.physOf (field w 14 8) = some p ∧
       p ≠ c ∧
       field w 14 8 < s.active ∧
       ((s.core p).reg p (CORE_SPM_ARRIVE (field w 20 15))).toNat + field w 63 32 < 2 ^ 32) ∧
    (let s : State := runningWith 0x60000099#64 (fun k => k.setReg 0 (CORE_WL 1) 0x80000000#32)
     let c : Nat := 0
     let w : W64 := 0x60000099#64
     let k := s.core c
     Issues s c .signalTicket w ∧
       k.ticketMsg = none ∧
       bitsOf (k.wl c (field w 28 21)) 63 63 = 1 ∧
       bitsOf (k.wl c (field w 28 21)) 62 62 = 0 ∧
       k.settled = true ∧
       k.gather = []) := by
  refine ⟨?_, ?_, ?_, ?_, ?_, ?_⟩
  · decide +kernel
  · decide +kernel
  · decide +kernel
  · decide +kernel
  · decide +kernel
  · decide +kernel

theorem witness_DispatchFaultAndTimeouts :
    (let s : State := (running 0x22#64).modCore 0 (fun k => { k with loaded := false, seq := .idle, doorbell := some (5, none) })
     let c : Nat := 0
     let k := s.core c
     let id := 5
     k.doorbell = some (id, none) ∧
       k.loaded = false ∧
       s.coreSt c = 0) ∧
    (let s : State := runningWith 0x22#64 (fun k => { k with fault := some ⟨stBadField, 0, 0, 0⟩, drains := [] })
     let c : Nat := 0
     let k := s.core c
     let f := (⟨stBadField, 0, 0, 0⟩ : TileFault)
     k.fault = some f ∧
       k.retired = true ∧
       k.outst = [] ∧
       k.spills = []) ∧
    (let s : State := runningWith 0x100000001a#64 (fun k => { k.setReg 0 CORE_SPM_FE_TMO 10#32 with wait := waitArrival, waited := 10 })
     let c : Nat := 0
     let k := s.core c
     k.waitedFor waitArrival ≠ none ∧
       (k.reg c CORE_SPM_FE_TMO).toNat ≠ 0 ∧
       k.accHeld = none) ∧
    (let s : State := runningWith 0x1c#64 (fun k => { k.setReg 0 CORE_SEQ_BAR_TMO 10#32 with wait := waitBarrier, waited := 10, barrier := some 0 })
     let c : Nat := 0
     let k := s.core c
     k.waitedFor waitBarrier ≠ none ∧
       tileKind (k.imemAt k.pc) = some .barrier ∧
       k.accHeld = none ∧
       (k.reg c CORE_SEQ_BAR_TMO).toNat ≠ 0) := by
  refine ⟨?_, ?_, ?_, ?_⟩
  · decide +kernel
  · decide +kernel
  · decide +kernel
  · decide +kernel

theorem witness_ComputeInstructionsEnterThePass :
    (let s : State := runningWith 0x8#64 (fun k => { taggedBlocks 0 0x80000000#32 k with arr := some (binArr false false), pages := loadedPages 1 (fun _ => none), planeBuf := [⟨0, 0, List.replicate 16384 0⟩] })
     let c : Nat := 0
     let w : W64 := 0x8#64
     let i : Instr := (.pass 0)
     let kind : TileKind := .pass
     let op24 : Bool := false
     let stream : Bool := false
     let p : PassWord := passWord 0x8#64
     let k := s.core c
     let a := ((s.core 0).arr.getD (binArr false false))
     let recs := (((s.core 0).feederHas (agRef 0 (s.core 0) p.rag).toNat (4 * (a.segs))).getD [])
     let bs := (((s.core 0).feederHas (agRef 0 (s.core 0) p.vag).toNat (a.amBytes)).getD [])
     ((i = .pass c ∧ kind = .pass ∧ op24 = false ∧ stream = false ∧ p = passWord w) ∨ (i = .pass24 c ∧ kind = .pass24 ∧ op24 = true ∧ stream = false ∧ p = passWord w) ∨ (i = .stream c ∧ kind = .stream ∧ op24 = false ∧ stream = true ∧ p = streamWord w)) ∧
       Issues s c kind w ∧
       passGate c k op24 stream p = .go ∧
       k.arr = some a ∧
       k.feederHas (agRef c k p.rag).toNat (4 * a.segs) = some recs ∧
       (passRecords a recs).all scaleOk8 = true ∧
       k.feederHas (agRef c k p.vag).toNat a.amBytes = some bs) ∧
    (let s : State := runningWith 0x8#64 (fun k => { taggedBlocks 0 0x80000000#32 k with arr := some (binArr false false), pages := loadedPages 1 (fun _ => none) })
     let c : Nat := 0
     let w : W64 := 0x8#64
     let i : Instr := (.pass 0)
     let kind : TileKind := .pass
     let op24 : Bool := false
     let stream : Bool := false
     let p : PassWord := passWord 0x8#64
     let k := s.core c
     let a := ((s.core 0).arr.getD (binArr false false))
     ((i = .pass c ∧ kind = .pass ∧ op24 = false ∧ stream = false ∧ p = passWord w) ∨ (i = .pass24 c ∧ kind = .pass24 ∧ op24 = true ∧ stream = false ∧ p = passWord w) ∨ (i = .stream c ∧ kind = .stream ∧ op24 = false ∧ stream = true ∧ p = streamWord w)) ∧
       Issues s c kind w ∧
       passGate c k op24 stream p = .go ∧
       k.arr = some a ∧
       (k.feederHas (agRef c k p.rag).toNat (4 * a.segs) = none ∨ k.feederHas (agRef c k p.vag).toNat a.amBytes = none)) ∧
    (let s : State := runningWith 0x4000008#64 (fun k => { taggedBlocks 0 0x80000000#32 k with arr := some (binArr false true), pages := loadedPages 1 (fun _ => none), zeroMap := 1#1024 })
     let c : Nat := 0
     let w : W64 := 0x4000008#64
     let i : Instr := (.pass 0)
     let kind : TileKind := .pass
     let op24 : Bool := false
     let stream : Bool := false
     let p : PassWord := passWord 0x4000008#64
     let k := s.core c
     ((i = .pass c ∧ kind = .pass ∧ op24 = false ∧ stream = false ∧ p = passWord w) ∨ (i = .pass24 c ∧ kind = .pass24 ∧ op24 = true ∧ stream = false ∧ p = passWord w) ∨ (i = .stream c ∧ kind = .stream ∧ op24 = false ∧ stream = true ∧ p = streamWord w)) ∧
       Issues s c kind w ∧
       passGate c k op24 stream p = .skip) := by
  refine ⟨?_, ?_, ?_⟩
  · decide +kernel
  · decide +kernel
  · decide +kernel

theorem witness_PassRetiresAndCloses :
    (let s : State := runningWith 0x22#64 (fun k => { k with passes := [(⟨0, 0, 0, 0, 1, List.replicate 512 5, 0, false, [0x3F800000], 8, true, 0, 1, none, none, true⟩ : PassRec), (⟨0, 0, 0, 0, 1, List.replicate 512 5, 0, false, [0x3F800000], 8, true, 0, 1, none, none, false⟩ : PassRec)] })
     let c : Nat := 0
     let k := s.core c
     let a := [(⟨0, 0, 0, 0, 1, List.replicate 512 5, 0, false, [0x3F800000], 8, true, 0, 1, none, none, true⟩ : PassRec)]
     let p := (⟨0, 0, 0, 0, 1, List.replicate 512 5, 0, false, [0x3F800000], 8, true, 0, 1, none, none, false⟩ : PassRec)
     let b := ([] : List PassRec)
     k.passes = a ++ p :: b ∧
       (∀ q ∈ a, q.retired = true) ∧
       p.retired = false) ∧
    (let s : State := runningWith 0x22#64 (fun k => { k with passes := [(⟨0, 0, 0, 0, 1, List.replicate 512 5, 0, false, [0x3F800000], 8, true, 0, 1, none, none, true⟩ : PassRec), (⟨0, 0, 0, 0, 1, List.replicate 512 5, 0, false, [0x3F800000], 8, true, 0, 1, none, none, false⟩ : PassRec)] })
     let c : Nat := 0
     let k := s.core c
     let p := (⟨0, 0, 0, 0, 1, List.replicate 512 5, 0, false, [0x3F800000], 8, true, 0, 1, none, none, true⟩ : PassRec)
     let ps := [(⟨0, 0, 0, 0, 1, List.replicate 512 5, 0, false, [0x3F800000], 8, true, 0, 1, none, none, false⟩ : PassRec)]
     let k' := (closePass 0 p k).1
     k.passes = p :: ps ∧
       p.retired = true ∧
       closePass c p k = (k', false)) ∧
    (let s : State := runningWith 0x22#64 (fun k => { k with passes := [(⟨0, 0, 0, 0, 1, List.replicate 512 5, 0, false, [0x3F800000], 8, true, 0, 1, none, none, true⟩ : PassRec), (⟨0, 0, 0, 0, 1, List.replicate 512 5, 0, false, [0x3F800000], 8, true, 0, 1, none, none, false⟩ : PassRec)] })
     let c : Nat := 0
     let k := s.core c
     let p := (⟨0, 0, 0, 0, 1, List.replicate 512 5, 0, false, [0x3F800000], 8, true, 0, 1, none, none, true⟩ : PassRec)
     let col := 0
     p.segs = 1 ∧
       k.acmErrAt (p.base + p.row / rowsPerBlock p.acc16) (if p.acc16 then (p.row % rowsPerBlock p.acc16 * 512 + col) / 2 else p.row % rowsPerBlock p.acc16 * 512 + col) = 0 ∧
       col < 512) := by
  refine ⟨?_, ?_, ?_⟩
  · decide +kernel
  · exact ⟨by decide +kernel, by decide +kernel, snd_eq _ (by decide +kernel)⟩
  · decide +kernel

theorem witness_AclrClearsItsExtent :
    (let s : State := running 0x1050#64
     let c : Nat := 0
     let w : W64 := 0x1050#64
     Issues s c .aclr w ∧
       (s.core c).holds c w = false ∧
       extentPast (drainBlocks w).1 (drainBlocks w).2 = false ∧
       (s.core c).inHac c (drainBlocks w).1 (drainBlocks w).2 = false ∧
       (s.core c).passOn (drainBlocks w).1 (drainBlocks w).2 = false ∧
       (s.core c).drainOn (drainBlocks w).1 (drainBlocks w).2 = false ∧
       ((s.closeAll c).core c).fault = none) := by
  decide +kernel

theorem witness_DrainsTakeTheirPlace :
    (let s : State := runningWith 0x11#64 (fun k => { taggedBlocks 0 0x80000000#32 k with drn := some (⟨0, false, 1, 2, 0⟩ : DrainCfg) })
     let c : Nat := 0
     let w : W64 := 0x11#64
     let k := s.core c
     let e := drainBlocks w
     let cfg := (⟨0, false, 1, 2, 0⟩ : DrainCfg)
     let i : Instr := (.adrainEpi 0)
     let kind : TileKind := .adrainEpi
     ((i = .adrainEpi c ∧ kind = .adrainEpi ∧ ctxFits w = true) ∨ (i = .adrainRaw c ∧ kind = .adrainRaw ∧ ((k.handle c cfg.dh).valid = false ∨ (k.handle c cfg.dh).fmt = fmtAcc16 ∨ (k.handle c cfg.dh).fmt = fmtAcc32)) ∨ (i = .adrainAtomic c ∧ kind = .adrainAtomic)) ∧
       Issues s c kind w ∧
       k.holds c w = false ∧
       k.drn = some cfg ∧
       drainAgsOk c k w false = true ∧
       extentPast e.1 e.2 = false ∧
       k.inHac c e.1 e.2 = false ∧
       k.untagged c e.1 e.2 = none ∧
       field w 27 24 + 1 ≤ (k.drained c w).length ∧
       k.passOn e.1 e.2 = false ∧
       k.drainOn e.1 e.2 = false ∧
       k.belayUsed + k.drainBytes c (k.drained c w) ≤ 65536) ∧
    (let s : State := runningWith 0x1003f00000011#64 (fun k => { taggedBlocks 0 0x80000000#32 k with drn := some (⟨0, false, 1, 2, 0⟩ : DrainCfg) })
     let c : Nat := 0
     let w : W64 := 0x1003f00000011#64
     let k := s.core c
     let cfg := (⟨0, false, 1, 2, 0⟩ : DrainCfg)
     Issues s c .adrainList w ∧
       k.holds c w = false ∧
       k.drn = some cfg ∧
       field w 27 24 = 0 ∧
       field w 40 32 ≤ 63 ∧
       drainAgsOk c k w true = true ∧
       ctxFits w = true) ∧
    (let s : State := running 0xffff000fff92#64
     let c : Nat := 0
     let w : W64 := 0xffff000fff92#64
     Issues s c .aepi0 w) ∧
    (let s : State := running 0xfffffffffff0052#64
     let c : Nat := 0
     let w : W64 := 0xfffffffffff0052#64
     Issues s c .aepi1 w) := by
  refine ⟨?_, ?_, ?_, ?_⟩
  · decide +kernel
  · decide +kernel
  · decide +kernel
  · decide +kernel

theorem witness_DrainsRunAndRowsClose :
    (let s : State := runningWith 0x22#64 (fun k => { taggedBlocks 0 0x80000000#32 k with drains := [(⟨0, 0x800000000011#64, ⟨0, false, 1, 2, 0⟩, ⟨0, false, 1, false, 0x3F80, 0, 0, 0⟩, 0, 0, 0, 2048, false, [], [], 0, []⟩ : Drain)] })
     let c : Nat := 0
     let k := s.core c
     let d := (⟨0, 0x800000000011#64, ⟨0, false, 1, 2, 0⟩, ⟨0, false, 1, false, 0x3F80, 0, 0, 0⟩, 0, 0, 0, 2048, false, [], [], 0, []⟩ : Drain)
     let rows := ((k.drained 0 (0x800000000011#64)).map (fun r => (k.takeRow 0 r.1 r.2).getD ⟨0, false, [], []⟩))
     k.drains.find? (fun d => !d.moved) = some d ∧
       field d.word 48 48 = 0 ∧
       k.passes = [] ∧
       (k.drained c d.word).map (fun r => k.takeRow c r.1 r.2) = rows.map some) ∧
    (let s : State := runningWith 0x22#64 (fun k => { k with drains := [(⟨0, 0x1400000000011#64, ⟨0, false, 1, 2, 0⟩, ⟨16, false, 1, false, 0x3F80, 0, 0, 0⟩, 0, 0, 0, 2048, true, [], [], 0, [0]⟩ : Drain)], ctxs := [(0, some RowCtx.reset)] })
     let c : Nat := 0
     let k := s.core c
     let d := (⟨0, 0x1400000000011#64, ⟨0, false, 1, 2, 0⟩, ⟨16, false, 1, false, 0x3F80, 0, 0, 0⟩, 0, 0, 0, 2048, true, [], [], 0, [0]⟩ : Drain)
     let ds := ([] : List Drain)
     let x := RowCtx.reset
     k.drains = d :: ds ∧
       d.moved = true ∧
       d.isList = true ∧
       d.rq ≠ [] ∧
       k.closing = [] ∧
       drainCtxFault k d = none ∧
       k.ctx d.ctxBase = some x ∧
       d.aepi.on 5 = true) ∧
    (let s : State := runningWith 0x22#64 (fun k => { k with drains := [(⟨0, 0x11#64, ⟨0, false, 1, 2, 0⟩, ⟨0, false, 1, false, 0x3F80, 0, 0, 0⟩, 0, 0, 0, 2048, true, [], [], 0, [0]⟩ : Drain)] })
     let c : Nat := 0
     let k := s.core c
     let d := (⟨0, 0x11#64, ⟨0, false, 1, 2, 0⟩, ⟨0, false, 1, false, 0x3F80, 0, 0, 0⟩, 0, 0, 0, 2048, true, [], [], 0, [0]⟩ : Drain)
     let ds := ([] : List Drain)
     let u := (match (s.drainRows 0 d 0 []).1 with | .done u => u | _ => s)
     let n := (s.drainRows 0 d 0 []).2
     k.drains = d :: ds ∧
       d.moved = true ∧
       d.isList = false ∧
       d.rq ≠ [] ∧
       k.closing = [] ∧
       drainCtxFault k d = none ∧
       s.drainRows c d d.done (d.rows.drop d.done) = (.done u, n)) ∧
    (let s : State := runningWith 0x22#64 (fun k => { k with closing := [(⟨0, true, 0, ⟨0, false, 1, false, 0, 0, 0, 0⟩⟩ : RowClose)], ctxs := [(0, some RowCtx.reset)] })
     let c : Nat := 0
     let k := s.core c
     let r := (⟨0, true, 0, ⟨0, false, 1, false, 0, 0, 0, 0⟩⟩ : RowClose)
     let rest := ([] : List RowClose)
     let x := RowCtx.reset
     let u := (rst (s.coreWrite 0 2 .pm 0 (rowRecord r.aepi RowCtx.reset) false))
     k.closing = r :: rest ∧
       k.ctx r.ctx = some x ∧
       r.inBounds = true ∧
       r.aepi.on 5 = false ∧
       s.coreWrite c 2 .pm (64 * r.aepi.statbase + 64 * r.ctx) (rowRecord r.aepi x) false = .ok () u) ∧
    (let s : State := runningWith 0x22#64 (fun k => { k with rangeWindows := [(5, 4)] })
     let c : Nat := 0
     let k := s.core c
     let clips := 5
     let limit := 4
     let ws := ([] : List (Nat × Nat))
     k.rangeWindows = (clips, limit) :: ws ∧
       limit < 4096 ∧
       limit < clips) ∧
    (let s : State := runningWith 0x22#64 (fun k => { k with rangeWindows := [(4, 4)] })
     let c : Nat := 0
     let k := s.core c
     let clips := 4
     let limit := 4
     let ws := ([] : List (Nat × Nat))
     k.rangeWindows = (clips, limit) :: ws ∧
       (¬ (limit < 4096 ∧ limit < clips))) ∧
    (let s : State := runningWith 0x22#64 (fun k => { k with checks := [(0, 1, 4)], arr := some scArr })
     let c : Nat := 0
     let k := s.core c
     let a := scArr
     let base := 0
     let ext := 1
     let l := 4
     let cs := ([] : List (Nat × Nat × Nat))
     k.arr = some a ∧
       k.passes = [] ∧
       k.checks = (base, ext, l) :: cs) := by
  refine ⟨?_, ?_, ?_, ?_, ?_, ?_, ?_⟩
  · decide +kernel
  · decide +kernel
  · exact ⟨by decide +kernel, by decide +kernel, by decide +kernel, by decide +kernel, by decide +kernel, by decide +kernel, rows_eq _ (by decide +kernel)⟩
  · exact ⟨by decide +kernel, by decide +kernel, by decide +kernel, by decide +kernel, rok_unit _ (by decide +kernel)⟩
  · decide +kernel
  · decide +kernel
  · decide +kernel

theorem witness_WeightLoadsQueueAndLand_1 :
    (let s : State := runningWith 0x1000101#64 (fun k => { ((k.setHandle 0 1 (hnd 3 0 2 1 65536)).setReg 0 (CORE_BOUND 0) 1#32) with arr := some (binArr false false) })
     let c : Nat := 0
     let w : W64 := 0x1000101#64
     let k := s.core c
     let f := ldwWord w
     let kd := (k.reg c (CORE_BOUND f.bnd)).toNat
     let h := k.handle c f.handle
     let sag := agRef c k f.sag
     let pag := agRef c k f.pag
     let a := (binArr false false)
     let ds := (rval (s.gatherRanges 0 0 ((blockCols f.nblk).flatMap (fun p => (⟨h, kd, sag.toNat / kd, sag.toNat % kd⟩ : LdwGeom).ranges a p.1 ((⟨h, kd, sag.toNat / kd, sag.toNat % kd⟩ : LdwGeom).n0 + p.2)))))
     let v := (rst (s.gatherRanges 0 0 ((blockCols f.nblk).flatMap (fun p => (⟨h, kd, sag.toNat / kd, sag.toNat % kd⟩ : LdwGeom).ranges a p.1 ((⟨h, kd, sag.toNat / kd, sag.toNat % kd⟩ : LdwGeom).n0 + p.2)))))
     let g : LdwGeom := ⟨h, kd, sag.toNat / kd, sag.toNat % kd⟩
     Issues s c .ldwWeights w ∧
       k.arr = some a ∧
       k.zbTest c a.skip w = .go ∧
       kd ≠ 0 ∧
       h.valid = true ∧
       ldwFormat a h = true ∧
       (a.s24 = true → kd % 4 = 0) ∧
       0 ≤ sag ∧
       sag.toNat % kd % a.blockLen = 0 ∧
       agIn pag 127 1 = true ∧
       pag.toNat + f.nblk * a.pages ≤ 128 ∧
       s.gatherRanges c 0 ((blockCols f.nblk).flatMap (fun p => g.ranges a p.1 (g.n0 + p.2))) = .ok ds v ∧
       (v.core c).accHeld = none ∧
       (ldwPlan g a pag.toNat f.nblk (cutData g a (blockCols f.nblk) ds)).bad = none) := by
  exact ⟨by decide +kernel, by decide +kernel, by decide +kernel, by decide +kernel, by decide +kernel, by decide +kernel, by decide +kernel, by decide +kernel, by decide +kernel, by decide +kernel, by decide +kernel, rok_eq _ (by decide +kernel), by decide +kernel⟩

theorem witness_WeightLoadsQueueAndLand_2 :
    (let s : State := runningWith 0x1000141#64 (fun k => { ((k.setHandle 0 1 (hnd 3 0 2 1 65536)).setReg 0 (CORE_BOUND 0) 1#32) with arr := some (binArr false false) })
     let c : Nat := 0
     let w : W64 := 0x1000141#64
     let k := s.core c
     let f := ldwWord w
     let kd := (k.reg c (CORE_BOUND f.bnd)).toNat
     let h := k.handle c f.handle
     let sag := agRef c k f.sag
     let pag := agRef c k f.pag
     let wag := agRef c k f.wag
     let a := (binArr false false)
     let ds := (rval (s.gatherRanges 0 0 (((blockCols f.nblk).map (fun p => let g : ScaleGeom := ⟨h, kd, 1, 0, 0⟩; (⟨h, g.off a p.1 (g.n0 + p.2), 4 * g.count a p.1 (g.n0 + p.2), 0⟩ : LoadRange))).map (fun r => if r.n = 0 then { r with off := 0 } else r))))
     let v := (rst (s.gatherRanges 0 0 (((blockCols f.nblk).map (fun p => let g : ScaleGeom := ⟨h, kd, 1, 0, 0⟩; (⟨h, g.off a p.1 (g.n0 + p.2), 4 * g.count a p.1 (g.n0 + p.2), 0⟩ : LoadRange))).map (fun r => if r.n = 0 then { r with off := 0 } else r))))
     let ng := ceilDiv kd a.group
     let g : ScaleGeom := ⟨h, kd, ng, sag.toNat / ng, sag.toNat % ng⟩
     let rs := (blockCols f.nblk).map (fun p => (⟨h, g.off a p.1 (g.n0 + p.2), 4 * g.count a p.1 (g.n0 + p.2), 0⟩ : LoadRange))
     let data := ((blockCols f.nblk).zip ds).map (fun e => (e.1.1, e.1.2, e.2))
     Issues s c .ldwScales w ∧
       k.arr = some a ∧
       k.zbTest c a.skip w = .go ∧
       kd ≠ 0 ∧
       h.valid = true ∧
       h.layout = 0 ∧
       0 ≤ sag ∧
       agIn pag 2047 1 = true ∧
       agIn wag 127 1 = true ∧
       pag.toNat + a.segs * f.nblk ≤ 2048 ∧
       k.pageWrites = [] ∧
       s.gatherRanges c 0 (rs.map (fun r => if r.n = 0 then { r with off := 0 } else r)) = .ok ds v ∧
       (v.core c).accHeld = none ∧
       ((v.core c).scalePlan g a pag.toNat wag.toNat f.nblk data).bad = none ∧
       ((v.core c).scalePlan g a pag.toNat wag.toNat f.nblk data).status = stOk) := by
  exact ⟨by decide +kernel, by decide +kernel, by decide +kernel, by decide +kernel, by decide +kernel, by decide +kernel, by decide +kernel, by decide +kernel, by decide +kernel, by decide +kernel, by decide +kernel, rok_eq _ (by decide +kernel), by decide +kernel⟩

theorem witness_WeightLoadsQueueAndLand_3 :
    (let s : State := runningWith 0x1000181#64 (fun k => { k with arr := some { scArr with wbits := 1, abits := 1 } })
     let c : Nat := 0
     let w : W64 := 0x1000181#64
     let k := s.core c
     let f := ldwWord w
     let sag := agRef c k f.sag
     let pag := agRef c k f.pag
     let a := { scArr with wbits := 1, abits := 1 }
     let bs := (rval (s.coreRead 0 1 .am 0 16384))
     let v := (rst (s.coreRead 0 1 .am 0 16384))
     Issues s c .ldwGen w ∧
       k.arr = some a ∧
       k.zbTest c a.skip w = .go ∧
       a.stoch = true ∧
       agIn sag (2 ^ 20 - 512 * 32 * a.wbits) 1 = true ∧
       agIn pag 127 1 = true ∧
       pag.toNat + a.chunk ≤ 128 ∧
       s.coreRead c 1 .am sag.toNat (512 * 32 * a.wbits) = .ok bs v ∧
       (v.core c).accHeld = none) := by
  exact ⟨by decide +kernel, by decide +kernel, by decide +kernel, by decide +kernel, by decide +kernel, by decide +kernel, by decide +kernel, rok_eq _ (by decide +kernel), by decide +kernel⟩

theorem witness_WeightLoadsQueueAndLand_4 :
    (let s : State := runningWith 0x1000141#64 (fun k => { ((k.setHandle 0 1 (hnd 3 0 2 1 65536)).setReg 0 (CORE_BOUND 0) 0#32) with arr := some (binArr false false) })
     let c : Nat := 0
     let w : W64 := 0x1000141#64
     let k := s.core c
     let f := ldwWord w
     let kd := (k.reg c (CORE_BOUND f.bnd)).toNat
     let kind := .ldwScales
     let a := (binArr false false)
     (kind = TileKind.ldwWeights ∨ kind = .ldwScales) ∧
       Issues s c kind w ∧
       k.arr = some a ∧
       kd = 0) := by
  decide +kernel

theorem witness_WeightLoadsQueueAndLand_5 :
    (let s : State := runningWith 0x22#64 (fun k => { k with pageWrites := [(⟨3, 5, [(0, 7)], none, none, none⟩ : PageWrite)] })
     let c : Nat := 0
     let k := s.core c
     let p : PageWrite := (⟨3, 5, [(0, 7)], none, none, none⟩ : PageWrite)
     let ws : List PageWrite := ([] : List PageWrite)
     k.pageWrites = p :: ws ∧
       p.arr = none ∧
       k.senses p.page = false ∧
       k.groupSt c (16 + p.mc) ≠ 1 ∧
       k.groupSt c (16 + p.mc) ≠ 4 ∧
       p.ack = none) := by
  decide +kernel

theorem witness_WeightLoadsQueueAndLand_6 :
    (let s : State := (runningWith 0x22#64 (fun k => { k with pageWrites := [(⟨3, 5, [(0, 7)], none, none, some (1, 3)⟩ : PageWrite)] })).modCore 1 (fun k => { k with outst := [⟨3, false, true, false⟩] })
     let c : Nat := 0
     let k := s.core c
     let p : PageWrite := (⟨3, 5, [(0, 7)], none, none, some (1, 3)⟩ : PageWrite)
     let ws : List PageWrite := ([] : List PageWrite)
     let d := 1
     let id := 3
     let o := (⟨3, false, true, false⟩ : Outstanding)
     k.pageWrites = p :: ws ∧
       p.arr = none ∧
       k.senses p.page = false ∧
       k.groupSt c (16 + p.mc) ≠ 1 ∧
       k.groupSt c (16 + p.mc) ≠ 4 ∧
       p.ack = some (d, id) ∧
       o ∈ (s.core d).outst ∧
       o.id = id ∧
       ws.all (fun x => x.ack != p.ack) = true ∧
       (∀ q, q ≠ c → (s.core q).pageWrites.all (fun x => x.ack != p.ack) = true)) := by
  exact ⟨by decide +kernel, by decide +kernel, by decide +kernel, by decide +kernel, by decide +kernel, by decide +kernel, by decide +kernel, by decide +kernel, by decide +kernel, (fun q hq => pageWrites_other _ _ _ (by intro k; rfl) q hq _)⟩

theorem witness_WeightLoadsQueueAndLand_7 :
    (let s : State := runningWith 0x22#64 (fun k => { k with pageWrites := [(⟨3, 5, [(0, 7)], none, none, none⟩ : PageWrite)] })
     let c : Nat := 0
     let k := s.core c
     let p : PageWrite := (⟨3, 5, [(0, 7)], none, none, none⟩ : PageWrite)
     let ws : List PageWrite := ([] : List PageWrite)
     k.pageWrites = p :: ws ∧
       p.arr = none ∧
       k.senses p.page = false ∧
       k.groupSt c (16 + p.mc) ≠ 1 ∧
       k.groupSt c (16 + p.mc) ≠ 4) := by
  decide +kernel

theorem witness_MovementInstructionsMove :
    (let s : State := runningWith 0x8042#64 (fun k => { (((k.setHandle 0 1 (hnd 3 0 2 1 65536)).setHandle 0 2 (hnd 3 0 6 0 65536)).setReg 0 (CORE_BOUND 0) 256#32) with arr := some (binArr false false) })
     let c : Nat := 0
     let w : W64 := 0x8042#64
     let k := s.core c
     let a := (binArr false false)
     let xs := (rval (s.ldaRead 0 0 (⟨binArr false false, 256, k.handle 0 1, k.handle 0 2, k.handle 0 2, 0, 0⟩ : LdaGeom) 0 ((⟨binArr false false, 256, k.handle 0 1, k.handle 0 2, k.handle 0 2, 0, 0⟩ : LdaGeom).items 1 1) none none))
     let u := (rst (s.ldaRead 0 0 (⟨binArr false false, 256, k.handle 0 1, k.handle 0 2, k.handle 0 2, 0, 0⟩ : LdaGeom) 0 ((⟨binArr false false, 256, k.handle 0 1, k.handle 0 2, k.handle 0 2, 0, 0⟩ : LdaGeom).items 1 1) none none))
     let v := (rst (u.ldaItems 0 (⟨binArr false false, 256, k.handle 0 1, k.handle 0 2, k.handle 0 2, 0, 0⟩ : LdaGeom) 0 0 0 xs))
     let f := ldaWord w
     let kd := (k.reg c (CORE_BOUND f.bnd)).toNat
     let hp := k.handle c f.hp
     let hr := k.handle c f.hr
     let sag := agRef c k f.sag
     let dag := agRef c k f.dag
     let rag := agRef c k f.rag
     let zag := agRef c k f.zag
     let g : LdaGeom := ⟨a, kd, hp, k.handle c (f.hp + 1), hr, sag.toNat / kd, sag.toNat % kd⟩
     Issues s c .lda w ∧
       k.arr = some a ∧
       kd ≠ 0 ∧
       hp.valid = true ∧
       hr.valid = true ∧
       ldaFormat a hp = true ∧
       hr.layout = 0 ∧
       (hp.layout = 4 → (k.handle c (f.hp + 1)).layout = 5) ∧
       (hp.layout = 2 → agIn zag 1023 1 = true ∧ zag.toNat + f.rows * f.kblk ≤ 1024) ∧
       0 ≤ sag ∧
       g.k0 % a.blockLen = 0 ∧
       agIn dag (2 ^ 20) a.vec = true ∧
       agIn rag (2 ^ 20) 1 = true ∧
       dag.toNat + a.vec * a.abits * (f.rows * f.kblk) ≤ 2 ^ 20 ∧
       rag.toNat + 4 * a.segs * (f.rows * f.kblk) ≤ 2 ^ 20 ∧
       (if hp.layout = 4 then ∃ es sk x, s.readIndex c 0 f.tk (k.handle c (f.hp + 1)) g.r0 f.rows = .ok (es, sk) x ∧ x.ldaRead c sk g f.tk (g.items f.rows f.kblk) (some es) none = .ok xs u else s.ldaRead c 0 g f.tk (g.items f.rows f.kblk) none none = .ok xs u) ∧
       u.ldaItems c g dag.toNat rag.toNat zag.toNat xs = .ok () v ∧
       (v.core c).accHeld = none) ∧
    (let s : State := runningWith 0x80043#64 (fun k => ((k.setHandle 0 1 (hnd 0 0 6 0 65536)).setHandle 0 2 (hnd 3 0 6 0 65536)))
     let c : Nat := 0
     let w : W64 := 0x80043#64
     let k := s.core c
     let d := (rval (s.stoRead 0 (k.handle 0 1) 0 1 0 0))
     let v := (rst (s.stoRead 0 (k.handle 0 1) 0 1 0 0))
     let u := (rst (State.stoPut 0 (k.handle 0 2) 0 1 none 0 d v))
     let hs := k.handle c (field w 13 6)
     let hd := k.handle c (field w 25 18)
     let sag := agRef c k (field w 17 14)
     let dag := agRef c k (field w 29 26)
     Issues s c .sto w ∧
       field w 32 30 = 0 ∧
       field w 33 33 = 0 ∧
       field w 57 42 = 0 ∧
       k.progress = 0 ∧
       0 ≤ sag ∧
       0 ≤ dag ∧
       hs.valid = true ∧
       hd.valid = true ∧
       hs.spm ≠ none ∧
       hs.covers sag.toNat 64 = true ∧
       s.stoRead c hs sag.toNat 1 0 (field w 41 40) = .ok d v ∧
       (if hd.layout = 2 then 0 < hd.elemW ∧ dag.toNat % (32 * hd.elemW) = 0 ∧ 64 % (32 * hd.elemW) = 0 ∧ State.stoRlz c hd (k.handle c (field w 25 18 + 1)) dag.toNat 0 d v = .ok () u else hd.covers dag.toNat 64 = true ∧ State.stoPut c hd dag.toNat 1 none 0 d v = .ok () u) ∧
       (u.core c).accHeld = none) ∧
    (let s : State := runningWith 0x40080043#64 (fun k => ((k.setHandle 0 1 (hnd 0 0 7 0 65536)).setHandle 0 2 (hnd 3 0 7 0 65536)))
     let c : Nat := 0
     let w : W64 := 0x40080043#64
     let k := s.core c
     let d := (rval (s.stoRead 0 (k.handle 0 1) 0 1 0 0))
     let v := (rst (s.stoRead 0 (k.handle 0 1) 0 1 0 0))
     let u := (rst (State.stoAtoms 0 (k.handle 0 2) 0 .add32 false false 4 4 0 d v))
     let op := .add32
     let sw := false
     let tw := false
     let es := 4
     let et := 4
     let hs := k.handle c (field w 13 6)
     let hd := k.handle c (field w 25 18)
     let sag := agRef c k (field w 17 14)
     let dag := agRef c k (field w 29 26)
     Issues s c .stoAtomic w ∧
       field w 33 33 = 0 ∧
       field w 57 42 = 0 ∧
       k.progress = 0 ∧
       0 ≤ sag ∧
       0 ≤ dag ∧
       hs.valid = true ∧
       hd.valid = true ∧
       hs.spm ≠ none ∧
       stoWidths (field w 32 30) hs hd = some (op, sw, tw, es, et) ∧
       hs.covers sag.toNat 64 = true ∧
       hd.covers dag.toNat (64 / es * et) = true ∧
       s.stoRead c hs sag.toNat 1 0 (field w 41 40) = .ok d v ∧
       State.stoAtoms c hd dag.toNat op sw tw es et 0 d v = .ok () u ∧
       (u.core c).accHeld = none) ∧
    (let s : State := ((runningWith 0x80000084#64 (fun k => (k.setHandle 0 1 (hnd 3 0 6 0 65536)))).modCore 0 (fun k => { k with am := [(0, 2#8)] })).modCore 1 (fun k => k.setHandle 1 2 (hnd 0 0 6 0 65536))
     let c : Nat := 0
     let w : W64 := 0x80000084#64
     let k := s.core c
     let d := (rval ((rst (s.readMask 0 0)).handleRead 0 1 (k.handle 0 1) 0 64))
     let ps := (rval (s.readMask 0 0))
     let v := (rst (s.readMask 0 0))
     let x := (rst (v.handleRead 0 1 (k.handle 0 1) 0 64))
     let hs := k.handle c (field w 14 7)
     let sag := agRef c k (field w 18 15)
     let dag := agRef c k (field w 41 38)
     let u := (ps.foldl (fun (acc : Nat × State) p => let y := acc.2.mcastPut (field w 37 30) dag.toNat 1 0 p none (rval (v.handleRead 0 1 (k.handle 0 1) 0 64)); (if acc.1 = stOk then y.1 else acc.1, y.2)) (stOk, rst (v.handleRead 0 1 (k.handle 0 1) 0 64))).2
     Issues s c .mcastCopy w ∧
       field w 23 23 = 0 ∧
       field w 57 42 = 0 ∧
       k.progress = 0 ∧
       0 ≤ sag ∧
       0 ≤ dag ∧
       hs.covers sag.toNat 64 = true ∧
       hs.mem = memLedge ∧
       s.readMask c (agRef c k (field w 22 19)) = .ok ps v ∧
       (∀ p ∈ ps, v.mcastTag (field w 37 30) dag.toNat 1 0 p = none) ∧
       (∀ p ∈ ps, v.mcastPort (field w 37 30) dag.toNat 0 p = .free) ∧
       v.handleRead c 1 hs sag.toNat 64 = .ok d x ∧
       ps.foldl (fun (acc : Nat × State) p => let y := acc.2.mcastPut (field w 37 30) dag.toNat 1 0 p none d; (if acc.1 = stOk then y.1 else acc.1, y.2)) (stOk, x) = (stOk, u) ∧
       (u.core c).accHeld = none) ∧
    (let s : State := ((runningWith 0x8000000c4#64 (fun k => { ((k.setHandle 0 1 (hnd 3 0 2 1 65536)).setReg 0 (CORE_BOUND 0) 1#32) with arr := some (binArr false false) })).modCore 0 (fun k => { k with am := [(0, 2#8)] }))
     let c : Nat := 0
     let w : W64 := 0x8000000c4#64
     let k := s.core c
     let a := (binArr false false)
     let ps := (rval (s.readMask 0 0))
     let ds := (rval ((rst (s.readMask 0 0)).gatherRanges 0 0 ((blockCols 1).flatMap (fun p => (⟨k.handle 0 1, 1, 0, 0⟩ : LdwGeom).ranges a p.1 ((⟨k.handle 0 1, 1, 0, 0⟩ : LdwGeom).n0 + p.2)))))
     let v := (rst (s.readMask 0 0))
     let x := (rst (v.gatherRanges 0 0 ((blockCols 1).flatMap (fun p => (⟨k.handle 0 1, 1, 0, 0⟩ : LdwGeom).ranges a p.1 ((⟨k.handle 0 1, 1, 0, 0⟩ : LdwGeom).n0 + p.2)))))
     let f := mcastWord w
     let kd := (k.reg c (CORE_BOUND f.bnd)).toNat
     let h := k.handle c f.handle
     let sag := agRef c k f.sag
     let pag := agRef c k f.pag
     let g : LdwGeom := ⟨h, kd, sag.toNat / kd, sag.toNat % kd⟩
     let pl := ldwPlan g a pag.toNat f.nblk (cutData g a (blockCols f.nblk) ds)
     Issues s c .mcastLoad w ∧
       field w 23 23 = 0 ∧
       k.arr = some a ∧
       f.form = 0 ∧
       kd ≠ 0 ∧
       h.valid = true ∧
       h.mem = memLedge ∧
       ldwFormat a h = true ∧
       (a.s24 = true → kd % 4 = 0) ∧
       0 ≤ sag ∧
       sag.toNat % kd % a.blockLen = 0 ∧
       agIn pag 127 1 = true ∧
       pag.toNat + f.nblk * a.pages ≤ 128 ∧
       s.readMask c (agRef c k (field w 22 19)) = .ok ps v ∧
       v.gatherRanges c 0 ((blockCols f.nblk).flatMap (fun p => g.ranges a p.1 (g.n0 + p.2))) = .ok ds x ∧
       (x.core c).accHeld = none ∧
       pl.bad = none ∧
       pl.writes ≠ [] ∧
       ps.Nodup) ∧
    (let s : State := ((runningWith 0x8400000c4#64 (fun k => { ((k.setHandle 0 1 (hnd 3 0 2 1 65536)).setReg 0 (CORE_BOUND 0) 1#32) with arr := some (binArr false false) })).modCore 0 (fun k => { k with am := [(0, 2#8)] }))
     let c : Nat := 0
     let w : W64 := 0x8400000c4#64
     let k := s.core c
     let a := (binArr false false)
     let ps := (rval (s.readMask 0 0))
     let v := (rst (s.readMask 0 0))
     let u := (v.ldwForm1 0 a (mcastWord w) ps none true)
     Issues s c .mcastLoad w ∧
       field w 23 23 = 0 ∧
       k.arr = some a ∧
       (mcastWord w).form = 1 ∧
       k.reg c (CORE_BOUND (mcastWord w).bnd) ≠ 0 ∧
       (k.handle c (mcastWord w).handle).valid = true ∧
       (k.handle c (mcastWord w).handle).mem = memLedge ∧
       s.readMask c (agRef c k (field w 22 19)) = .ok ps v ∧
       u = v.ldwForm1 c a (mcastWord w) ps none true) := by
  refine ⟨?_, ?_, ?_, ?_, ?_, ?_⟩
  · exact ⟨by decide +kernel, by decide +kernel, by decide +kernel, by decide +kernel, by decide +kernel, by decide +kernel, by decide +kernel, by decide +kernel, by decide +kernel, by decide +kernel, by decide +kernel, by decide +kernel, by decide +kernel, by decide +kernel, by decide +kernel, rok_eq _ (by decide +kernel), rok_unit _ (by decide +kernel), by decide +kernel⟩
  · exact ⟨by decide +kernel, by decide +kernel, by decide +kernel, by decide +kernel, by decide +kernel, by decide +kernel, by decide +kernel, by decide +kernel, by decide +kernel, by decide +kernel, by decide +kernel, rok_eq _ (by decide +kernel), (by rw [if_neg (by decide +kernel)]; refine ⟨by decide +kernel, rok_unit _ ?_⟩; decide +kernel), by decide +kernel⟩
  · exact ⟨by decide +kernel, by decide +kernel, by decide +kernel, by decide +kernel, by decide +kernel, by decide +kernel, by decide +kernel, by decide +kernel, by decide +kernel, by decide +kernel, by decide +kernel, by decide +kernel, rok_eq _ (by decide +kernel), rok_unit _ (by decide +kernel), by decide +kernel⟩
  · exact ⟨by decide +kernel, by decide +kernel, by decide +kernel, by decide +kernel, by decide +kernel, by decide +kernel, by decide +kernel, by decide +kernel, rok_eq _ (by decide +kernel), by decide +kernel, by decide +kernel, rok_eq _ (by decide +kernel), fst_eq _ (by decide +kernel), by decide +kernel⟩
  · exact ⟨by decide +kernel, by decide +kernel, by decide +kernel, by decide +kernel, by decide +kernel, by decide +kernel, by decide +kernel, by decide +kernel, by decide +kernel, by decide +kernel, by decide +kernel, by decide +kernel, by decide +kernel, rok_eq _ (by decide +kernel), rok_eq _ (by decide +kernel), by decide +kernel⟩
  · exact ⟨by decide +kernel, by decide +kernel, by decide +kernel, by decide +kernel, by decide +kernel, by decide +kernel, by decide +kernel, rok_eq _ (by decide +kernel), rfl⟩

theorem witness_ScrubSpillAndAcknowledge :
    (let s : State := paged 0 zeroCrc
     let c : Nat := 0
     let k := s.core c
     let mc := 15
     let page := 127
     (k.reg c CORE_ARR_SCRUB_CTRL).getLsbD 0 = true ∧
       s.coreSt c = 0 ∧
       mc < 16 ∧
       page < 128 ∧
       k.groupSt c (16 + mc) = 0 ∧
       (k.page mc page).st = .loaded ∧
       (∀ r < 256, k.wmFlips mc page r = 0) ∧
       crc32 (k.pageBytes mc page) = (k.page mc page).crc) ∧
    (let s : State := runningWith 0x22#64 (fun k => { (k.setReg 0 CORE_ARR_SCRUB_CTRL 1#32) with pages := [(pageKey 15 127, ⟨.loaded, crc32 (k.pageBytes 15 127), none⟩)] })
     let c : Nat := 0
     let k := s.core c
     k.loadedPages ≠ [] ∧
       k.agedSweep = false) ∧
    (let s : State := runningWith 0x22#64 (fun k => { (k.setHandle 0 0 (hnd 3 0 11 0 65536)) with spills := [(⟨5, List.replicate 512 (.fin 0), 0⟩ : HacRow)] })
     let c : Nat := 0
     let k := s.core c
     let w := (⟨5, List.replicate 512 (.fin 0), 0⟩ : HacRow)
     let ws := ([] : List HacRow)
     let u := ((s.modCore 0 (fun k => { k with spills := [] })).hacSend 0 w).2
     k.spills = w :: ws ∧
       (s.modCore c (fun k => { k with spills := ws })).hacSend c w = (stOk, u)) ∧
    (let s : State := { runningWith 0x22#64 (fun k => { k with outst := [(⟨7, true, false, false⟩ : Outstanding)] }) with atomResps := [⟨.core 0 7, stOk, 9⟩] }
     let c : Nat := 0
     let k := s.core c
     let i := 0
     let o := (⟨7, true, false, false⟩ : Outstanding)
     let r := (⟨.core 0 7, stOk, 9⟩ : AtomResp)
     k.outst[i]? = some o ∧
       o.done = false ∧
       s.atomResps.find? (fun r => r.src == .core c o.id) = some r ∧
       r.status = stOk) ∧
    (let s : State := runningWith 0x22#64 (fun k => { k with outst := [(⟨7, false, false, true⟩ : Outstanding)] })
     let c : Nat := 0
     let k := s.core c
     let i := 0
     let o := (⟨7, false, false, true⟩ : Outstanding)
     k.outst[i]? = some o ∧
       o.done = true) := by
  refine ⟨?_, ?_, ?_, ?_, ?_⟩
  · exact ⟨by decide +kernel, by decide +kernel, by decide +kernel, by decide +kernel, by decide +kernel, by decide +kernel, by decide +kernel, paged_crc _⟩
  · decide +kernel
  · exact ⟨by decide +kernel, fst_eq _ (by decide +kernel)⟩
  · decide +kernel
  · decide +kernel

theorem witness_ServedAccessMoves :
    (let s : State := runningWith 0x8#64 (fun k => { k with arr := some (binArr false false) })
     let c : Nat := 0
     let t0 : Nat := 0
     let a : SpmAcc := (⟨.am, 4, false, 0, 64, [], .consume⟩ : SpmAcc)
     let k : CoreState := { s.core c with cyc := max t0 (s.core c).cyc }
     let q := k.portOf a
     let gs := (q.rest.flatMap (fun r => k.groupsOf c a.mem (64 * r) 1)).dedup
     a.client ≤ 4 ∧
       a.len ≠ 0 ∧
       a.off + a.len ≤ 2 ^ 20 ∧
       (a.client = 0 → a.write = false ∧ k.feedWanted c a.off a.len = true) ∧
       k.powerCheck c gs (a.write && !(k.queued.any (fun x => x.acc == a) && q.waited == 0)) = .ready ∧
       k.portHeld c q = true) ∧
    (let s : State := runningWith 0x8#64 (fun k => { k with arr := some (binArr false false) })
     let c : Nat := 0
     let t0 : Nat := 0
     let a : SpmAcc := (⟨.am, 4, false, 1048572, 4, [], .none⟩ : SpmAcc)
     let rivals : List Nat := ([] : List Nat)
     let k : CoreState := { s.core c with cyc := max t0 (s.core c).cyc }
     let q := k.portOf a
     let gs := (q.rest.flatMap (fun r => k.groupsOf c a.mem (64 * r) 1)).dedup
     let x := (((s.setCore 0 (if ((if (((({ s.core 0 with cyc := max t0 (s.core 0).cyc } : CoreState)).serve 0 t0 ((({ s.core 0 with cyc := max t0 (s.core 0).cyc } : CoreState)).portOf a) rivals)).2 then (({ s.core 0 with cyc := max t0 (s.core 0).cyc } : CoreState)).bump 0 CORE_SPM_CONT 1 else ({ s.core 0 with cyc := max t0 (s.core 0).cyc } : CoreState))).timed 0 then (if (((({ s.core 0 with cyc := max t0 (s.core 0).cyc } : CoreState)).serve 0 t0 ((({ s.core 0 with cyc := max t0 (s.core 0).cyc } : CoreState)).portOf a) rivals)).2 then (({ s.core 0 with cyc := max t0 (s.core 0).cyc } : CoreState)).bump 0 CORE_SPM_CONT 1 else ({ s.core 0 with cyc := max t0 (s.core 0).cyc } : CoreState)) else (((({ s.core 0 with cyc := max t0 (s.core 0).cyc } : CoreState)).serve 0 t0 ((({ s.core 0 with cyc := max t0 (s.core 0).cyc } : CoreState)).portOf a) rivals)).1.foldl (fun k r => k.turn (k.bankOf 0 a.mem r) a.client) (if (((({ s.core 0 with cyc := max t0 (s.core 0).cyc } : CoreState)).serve 0 t0 ((({ s.core 0 with cyc := max t0 (s.core 0).cyc } : CoreState)).portOf a) rivals)).2 then (({ s.core 0 with cyc := max t0 (s.core 0).cyc } : CoreState)).bump 0 CORE_SPM_CONT 1 else ({ s.core 0 with cyc := max t0 (s.core 0).cyc } : CoreState))))).accMove 0 ((({ s.core 0 with cyc := max t0 (s.core 0).cyc } : CoreState)).portOf a) (((({ s.core 0 with cyc := max t0 (s.core 0).cyc } : CoreState)).serve 0 t0 ((({ s.core 0 with cyc := max t0 (s.core 0).cyc } : CoreState)).portOf a) rivals)).1).2.2
     a.client ≤ 4 ∧
       a.len ≠ 0 ∧
       a.off + a.len ≤ 2 ^ 20 ∧
       (a.client = 0 → a.write = false ∧ k.feedWanted c a.off a.len = true) ∧
       k.powerCheck c gs (a.write && !(k.queued.any (fun x => x.acc == a) && q.waited == 0)) = .ready ∧
       k.portHeld c q = false ∧
       k.timed c = true ∧
       wheelOwner (k.reg c CORE_SPM_WHEEL) (t0 % 8) ≠ a.client) ∧
    (let s : State := runningWith 0x8#64 (fun k => { k with arr := some (binArr false false) })
     let c : Nat := 0
     let t0 : Nat := 0
     let a : SpmAcc := (⟨.am, 4, false, 0, 2048, [], .none⟩ : SpmAcc)
     let rivals : List Nat := ([] : List Nat)
     let k : CoreState := { s.core c with cyc := max t0 (s.core c).cyc }
     let q := k.portOf a
     let gs := (q.rest.flatMap (fun r => k.groupsOf c a.mem (64 * r) 1)).dedup
     let q' := (((s.setCore 0 (if ((if (((({ s.core 0 with cyc := max t0 (s.core 0).cyc } : CoreState)).serve 0 t0 ((({ s.core 0 with cyc := max t0 (s.core 0).cyc } : CoreState)).portOf a) rivals)).2 then (({ s.core 0 with cyc := max t0 (s.core 0).cyc } : CoreState)).bump 0 CORE_SPM_CONT 1 else ({ s.core 0 with cyc := max t0 (s.core 0).cyc } : CoreState))).timed 0 then (if (((({ s.core 0 with cyc := max t0 (s.core 0).cyc } : CoreState)).serve 0 t0 ((({ s.core 0 with cyc := max t0 (s.core 0).cyc } : CoreState)).portOf a) rivals)).2 then (({ s.core 0 with cyc := max t0 (s.core 0).cyc } : CoreState)).bump 0 CORE_SPM_CONT 1 else ({ s.core 0 with cyc := max t0 (s.core 0).cyc } : CoreState)) else (((({ s.core 0 with cyc := max t0 (s.core 0).cyc } : CoreState)).serve 0 t0 ((({ s.core 0 with cyc := max t0 (s.core 0).cyc } : CoreState)).portOf a) rivals)).1.foldl (fun k r => k.turn (k.bankOf 0 a.mem r) a.client) (if (((({ s.core 0 with cyc := max t0 (s.core 0).cyc } : CoreState)).serve 0 t0 ((({ s.core 0 with cyc := max t0 (s.core 0).cyc } : CoreState)).portOf a) rivals)).2 then (({ s.core 0 with cyc := max t0 (s.core 0).cyc } : CoreState)).bump 0 CORE_SPM_CONT 1 else ({ s.core 0 with cyc := max t0 (s.core 0).cyc } : CoreState))))).accMove 0 ((({ s.core 0 with cyc := max t0 (s.core 0).cyc } : CoreState)).portOf a) (((({ s.core 0 with cyc := max t0 (s.core 0).cyc } : CoreState)).serve 0 t0 ((({ s.core 0 with cyc := max t0 (s.core 0).cyc } : CoreState)).portOf a) rivals)).1).2.1
     let x := (((s.setCore 0 (if ((if (((({ s.core 0 with cyc := max t0 (s.core 0).cyc } : CoreState)).serve 0 t0 ((({ s.core 0 with cyc := max t0 (s.core 0).cyc } : CoreState)).portOf a) rivals)).2 then (({ s.core 0 with cyc := max t0 (s.core 0).cyc } : CoreState)).bump 0 CORE_SPM_CONT 1 else ({ s.core 0 with cyc := max t0 (s.core 0).cyc } : CoreState))).timed 0 then (if (((({ s.core 0 with cyc := max t0 (s.core 0).cyc } : CoreState)).serve 0 t0 ((({ s.core 0 with cyc := max t0 (s.core 0).cyc } : CoreState)).portOf a) rivals)).2 then (({ s.core 0 with cyc := max t0 (s.core 0).cyc } : CoreState)).bump 0 CORE_SPM_CONT 1 else ({ s.core 0 with cyc := max t0 (s.core 0).cyc } : CoreState)) else (((({ s.core 0 with cyc := max t0 (s.core 0).cyc } : CoreState)).serve 0 t0 ((({ s.core 0 with cyc := max t0 (s.core 0).cyc } : CoreState)).portOf a) rivals)).1.foldl (fun k r => k.turn (k.bankOf 0 a.mem r) a.client) (if (((({ s.core 0 with cyc := max t0 (s.core 0).cyc } : CoreState)).serve 0 t0 ((({ s.core 0 with cyc := max t0 (s.core 0).cyc } : CoreState)).portOf a) rivals)).2 then (({ s.core 0 with cyc := max t0 (s.core 0).cyc } : CoreState)).bump 0 CORE_SPM_CONT 1 else ({ s.core 0 with cyc := max t0 (s.core 0).cyc } : CoreState))))).accMove 0 ((({ s.core 0 with cyc := max t0 (s.core 0).cyc } : CoreState)).portOf a) (((({ s.core 0 with cyc := max t0 (s.core 0).cyc } : CoreState)).serve 0 t0 ((({ s.core 0 with cyc := max t0 (s.core 0).cyc } : CoreState)).portOf a) rivals)).1).2.2
     let v := k.serve c t0 q rivals
     let k1 := if v.2 then k.bump c CORE_SPM_CONT 1 else k
     let u := s.setCore c (if k1.timed c then k1 else v.1.foldl (fun k r => k.turn (k.bankOf c a.mem r) a.client) k1)
     a.client ≤ 4 ∧
       a.len ≠ 0 ∧
       a.off + a.len ≤ 2 ^ 20 ∧
       (a.client = 0 → a.write = false ∧ k.feedWanted c a.off a.len = true) ∧
       k.powerCheck c gs (a.write && !(k.queued.any (fun x => x.acc == a) && q.waited == 0)) = .ready ∧
       k.portHeld c q = false ∧
       u.accMove c q v.1 = (stOk, q', x) ∧
       q'.rest ≠ []) ∧
    (let s : State := runningWith 0x8#64 (fun k => { (k.setReg 0 CORE_SPM_MODE 0#32) with arr := some (binArr false false) })
     let c : Nat := 0
     let t0 : Nat := 0
     let a : SpmAcc := (⟨.pm, 2, true, 1048572, 4, [1, 2, 3, 4], .none⟩ : SpmAcc)
     let rivals : List Nat := ([] : List Nat)
     let k : CoreState := { s.core c with cyc := max t0 (s.core c).cyc }
     let q := k.portOf a
     let gs := (q.rest.flatMap (fun r => k.groupsOf c a.mem (64 * r) 1)).dedup
     let q' := (((s.setCore 0 (if ((if (((({ s.core 0 with cyc := max t0 (s.core 0).cyc } : CoreState)).serve 0 t0 ((({ s.core 0 with cyc := max t0 (s.core 0).cyc } : CoreState)).portOf a) rivals)).2 then (({ s.core 0 with cyc := max t0 (s.core 0).cyc } : CoreState)).bump 0 CORE_SPM_CONT 1 else ({ s.core 0 with cyc := max t0 (s.core 0).cyc } : CoreState))).timed 0 then (if (((({ s.core 0 with cyc := max t0 (s.core 0).cyc } : CoreState)).serve 0 t0 ((({ s.core 0 with cyc := max t0 (s.core 0).cyc } : CoreState)).portOf a) rivals)).2 then (({ s.core 0 with cyc := max t0 (s.core 0).cyc } : CoreState)).bump 0 CORE_SPM_CONT 1 else ({ s.core 0 with cyc := max t0 (s.core 0).cyc } : CoreState)) else (((({ s.core 0 with cyc := max t0 (s.core 0).cyc } : CoreState)).serve 0 t0 ((({ s.core 0 with cyc := max t0 (s.core 0).cyc } : CoreState)).portOf a) rivals)).1.foldl (fun k r => k.turn (k.bankOf 0 a.mem r) a.client) (if (((({ s.core 0 with cyc := max t0 (s.core 0).cyc } : CoreState)).serve 0 t0 ((({ s.core 0 with cyc := max t0 (s.core 0).cyc } : CoreState)).portOf a) rivals)).2 then (({ s.core 0 with cyc := max t0 (s.core 0).cyc } : CoreState)).bump 0 CORE_SPM_CONT 1 else ({ s.core 0 with cyc := max t0 (s.core 0).cyc } : CoreState))))).accMove 0 ((({ s.core 0 with cyc := max t0 (s.core 0).cyc } : CoreState)).portOf a) (((({ s.core 0 with cyc := max t0 (s.core 0).cyc } : CoreState)).serve 0 t0 ((({ s.core 0 with cyc := max t0 (s.core 0).cyc } : CoreState)).portOf a) rivals)).1).2.1
     let x := (((s.setCore 0 (if ((if (((({ s.core 0 with cyc := max t0 (s.core 0).cyc } : CoreState)).serve 0 t0 ((({ s.core 0 with cyc := max t0 (s.core 0).cyc } : CoreState)).portOf a) rivals)).2 then (({ s.core 0 with cyc := max t0 (s.core 0).cyc } : CoreState)).bump 0 CORE_SPM_CONT 1 else ({ s.core 0 with cyc := max t0 (s.core 0).cyc } : CoreState))).timed 0 then (if (((({ s.core 0 with cyc := max t0 (s.core 0).cyc } : CoreState)).serve 0 t0 ((({ s.core 0 with cyc := max t0 (s.core 0).cyc } : CoreState)).portOf a) rivals)).2 then (({ s.core 0 with cyc := max t0 (s.core 0).cyc } : CoreState)).bump 0 CORE_SPM_CONT 1 else ({ s.core 0 with cyc := max t0 (s.core 0).cyc } : CoreState)) else (((({ s.core 0 with cyc := max t0 (s.core 0).cyc } : CoreState)).serve 0 t0 ((({ s.core 0 with cyc := max t0 (s.core 0).cyc } : CoreState)).portOf a) rivals)).1.foldl (fun k r => k.turn (k.bankOf 0 a.mem r) a.client) (if (((({ s.core 0 with cyc := max t0 (s.core 0).cyc } : CoreState)).serve 0 t0 ((({ s.core 0 with cyc := max t0 (s.core 0).cyc } : CoreState)).portOf a) rivals)).2 then (({ s.core 0 with cyc := max t0 (s.core 0).cyc } : CoreState)).bump 0 CORE_SPM_CONT 1 else ({ s.core 0 with cyc := max t0 (s.core 0).cyc } : CoreState))))).accMove 0 ((({ s.core 0 with cyc := max t0 (s.core 0).cyc } : CoreState)).portOf a) (((({ s.core 0 with cyc := max t0 (s.core 0).cyc } : CoreState)).serve 0 t0 ((({ s.core 0 with cyc := max t0 (s.core 0).cyc } : CoreState)).portOf a) rivals)).1).2.2
     let v := k.serve c t0 q rivals
     let k1 := if v.2 then k.bump c CORE_SPM_CONT 1 else k
     let u := s.setCore c (if k1.timed c then k1 else v.1.foldl (fun k r => k.turn (k.bankOf c a.mem r) a.client) k1)
     a.client ≤ 4 ∧
       a.len ≠ 0 ∧
       a.off + a.len ≤ 2 ^ 20 ∧
       (a.client = 0 → a.write = false ∧ k.feedWanted c a.off a.len = true) ∧
       k.powerCheck c gs (a.write && !(k.queued.any (fun x => x.acc == a) && q.waited == 0)) = .ready ∧
       k.portHeld c q = false ∧
       u.accMove c q v.1 = (stOk, q', x) ∧
       q'.rest = [] ∧
       a.write = true) ∧
    (let s : State := runningWith 0x8#64 (fun k => { (k.setReg 0 CORE_SPM_MODE 0#32) with arr := some (binArr false false) })
     let c : Nat := 0
     let t0 : Nat := 0
     let a : SpmAcc := (⟨.am, 4, false, 1048572, 4, [], .none⟩ : SpmAcc)
     let rivals : List Nat := ([] : List Nat)
     let k : CoreState := { s.core c with cyc := max t0 (s.core c).cyc }
     let q := k.portOf a
     let gs := (q.rest.flatMap (fun r => k.groupsOf c a.mem (64 * r) 1)).dedup
     let q' := (((s.setCore 0 (if ((if (((({ s.core 0 with cyc := max t0 (s.core 0).cyc } : CoreState)).serve 0 t0 ((({ s.core 0 with cyc := max t0 (s.core 0).cyc } : CoreState)).portOf a) rivals)).2 then (({ s.core 0 with cyc := max t0 (s.core 0).cyc } : CoreState)).bump 0 CORE_SPM_CONT 1 else ({ s.core 0 with cyc := max t0 (s.core 0).cyc } : CoreState))).timed 0 then (if (((({ s.core 0 with cyc := max t0 (s.core 0).cyc } : CoreState)).serve 0 t0 ((({ s.core 0 with cyc := max t0 (s.core 0).cyc } : CoreState)).portOf a) rivals)).2 then (({ s.core 0 with cyc := max t0 (s.core 0).cyc } : CoreState)).bump 0 CORE_SPM_CONT 1 else ({ s.core 0 with cyc := max t0 (s.core 0).cyc } : CoreState)) else (((({ s.core 0 with cyc := max t0 (s.core 0).cyc } : CoreState)).serve 0 t0 ((({ s.core 0 with cyc := max t0 (s.core 0).cyc } : CoreState)).portOf a) rivals)).1.foldl (fun k r => k.turn (k.bankOf 0 a.mem r) a.client) (if (((({ s.core 0 with cyc := max t0 (s.core 0).cyc } : CoreState)).serve 0 t0 ((({ s.core 0 with cyc := max t0 (s.core 0).cyc } : CoreState)).portOf a) rivals)).2 then (({ s.core 0 with cyc := max t0 (s.core 0).cyc } : CoreState)).bump 0 CORE_SPM_CONT 1 else ({ s.core 0 with cyc := max t0 (s.core 0).cyc } : CoreState))))).accMove 0 ((({ s.core 0 with cyc := max t0 (s.core 0).cyc } : CoreState)).portOf a) (((({ s.core 0 with cyc := max t0 (s.core 0).cyc } : CoreState)).serve 0 t0 ((({ s.core 0 with cyc := max t0 (s.core 0).cyc } : CoreState)).portOf a) rivals)).1).2.1
     let x := (((s.setCore 0 (if ((if (((({ s.core 0 with cyc := max t0 (s.core 0).cyc } : CoreState)).serve 0 t0 ((({ s.core 0 with cyc := max t0 (s.core 0).cyc } : CoreState)).portOf a) rivals)).2 then (({ s.core 0 with cyc := max t0 (s.core 0).cyc } : CoreState)).bump 0 CORE_SPM_CONT 1 else ({ s.core 0 with cyc := max t0 (s.core 0).cyc } : CoreState))).timed 0 then (if (((({ s.core 0 with cyc := max t0 (s.core 0).cyc } : CoreState)).serve 0 t0 ((({ s.core 0 with cyc := max t0 (s.core 0).cyc } : CoreState)).portOf a) rivals)).2 then (({ s.core 0 with cyc := max t0 (s.core 0).cyc } : CoreState)).bump 0 CORE_SPM_CONT 1 else ({ s.core 0 with cyc := max t0 (s.core 0).cyc } : CoreState)) else (((({ s.core 0 with cyc := max t0 (s.core 0).cyc } : CoreState)).serve 0 t0 ((({ s.core 0 with cyc := max t0 (s.core 0).cyc } : CoreState)).portOf a) rivals)).1.foldl (fun k r => k.turn (k.bankOf 0 a.mem r) a.client) (if (((({ s.core 0 with cyc := max t0 (s.core 0).cyc } : CoreState)).serve 0 t0 ((({ s.core 0 with cyc := max t0 (s.core 0).cyc } : CoreState)).portOf a) rivals)).2 then (({ s.core 0 with cyc := max t0 (s.core 0).cyc } : CoreState)).bump 0 CORE_SPM_CONT 1 else ({ s.core 0 with cyc := max t0 (s.core 0).cyc } : CoreState))))).accMove 0 ((({ s.core 0 with cyc := max t0 (s.core 0).cyc } : CoreState)).portOf a) (((({ s.core 0 with cyc := max t0 (s.core 0).cyc } : CoreState)).serve 0 t0 ((({ s.core 0 with cyc := max t0 (s.core 0).cyc } : CoreState)).portOf a) rivals)).1).2.2
     let v := k.serve c t0 q rivals
     let k1 := if v.2 then k.bump c CORE_SPM_CONT 1 else k
     let u := s.setCore c (if k1.timed c then k1 else v.1.foldl (fun k r => k.turn (k.bankOf c a.mem r) a.client) k1)
     a.client ≤ 4 ∧
       a.len ≠ 0 ∧
       a.off + a.len ≤ 2 ^ 20 ∧
       (a.client = 0 → a.write = false ∧ k.feedWanted c a.off a.len = true) ∧
       k.powerCheck c gs (a.write && !(k.queued.any (fun x => x.acc == a) && q.waited == 0)) = .ready ∧
       k.portHeld c q = false ∧
       u.accMove c q v.1 = (stOk, q', x) ∧
       q'.rest = [] ∧
       a.write = false ∧
       a.client ≠ 0) ∧
    (let s : State := runningWith 0x8#64 (fun k => { taggedBlocks 0 0x80000000#32 k with arr := some (binArr false false) })
     let c : Nat := 0
     let t0 : Nat := 0
     let a : SpmAcc := (⟨.am, 0, false, 0, 64, [], .none⟩ : SpmAcc)
     let rivals : List Nat := ([] : List Nat)
     let k : CoreState := { s.core c with cyc := max t0 (s.core c).cyc }
     let q := k.portOf a
     let gs := (q.rest.flatMap (fun r => k.groupsOf c a.mem (64 * r) 1)).dedup
     let q' := (((s.setCore 0 (if ((if (((({ s.core 0 with cyc := max t0 (s.core 0).cyc } : CoreState)).serve 0 t0 ((({ s.core 0 with cyc := max t0 (s.core 0).cyc } : CoreState)).portOf a) rivals)).2 then (({ s.core 0 with cyc := max t0 (s.core 0).cyc } : CoreState)).bump 0 CORE_SPM_CONT 1 else ({ s.core 0 with cyc := max t0 (s.core 0).cyc } : CoreState))).timed 0 then (if (((({ s.core 0 with cyc := max t0 (s.core 0).cyc } : CoreState)).serve 0 t0 ((({ s.core 0 with cyc := max t0 (s.core 0).cyc } : CoreState)).portOf a) rivals)).2 then (({ s.core 0 with cyc := max t0 (s.core 0).cyc } : CoreState)).bump 0 CORE_SPM_CONT 1 else ({ s.core 0 with cyc := max t0 (s.core 0).cyc } : CoreState)) else (((({ s.core 0 with cyc := max t0 (s.core 0).cyc } : CoreState)).serve 0 t0 ((({ s.core 0 with cyc := max t0 (s.core 0).cyc } : CoreState)).portOf a) rivals)).1.foldl (fun k r => k.turn (k.bankOf 0 a.mem r) a.client) (if (((({ s.core 0 with cyc := max t0 (s.core 0).cyc } : CoreState)).serve 0 t0 ((({ s.core 0 with cyc := max t0 (s.core 0).cyc } : CoreState)).portOf a) rivals)).2 then (({ s.core 0 with cyc := max t0 (s.core 0).cyc } : CoreState)).bump 0 CORE_SPM_CONT 1 else ({ s.core 0 with cyc := max t0 (s.core 0).cyc } : CoreState))))).accMove 0 ((({ s.core 0 with cyc := max t0 (s.core 0).cyc } : CoreState)).portOf a) (((({ s.core 0 with cyc := max t0 (s.core 0).cyc } : CoreState)).serve 0 t0 ((({ s.core 0 with cyc := max t0 (s.core 0).cyc } : CoreState)).portOf a) rivals)).1).2.1
     let x := (((s.setCore 0 (if ((if (((({ s.core 0 with cyc := max t0 (s.core 0).cyc } : CoreState)).serve 0 t0 ((({ s.core 0 with cyc := max t0 (s.core 0).cyc } : CoreState)).portOf a) rivals)).2 then (({ s.core 0 with cyc := max t0 (s.core 0).cyc } : CoreState)).bump 0 CORE_SPM_CONT 1 else ({ s.core 0 with cyc := max t0 (s.core 0).cyc } : CoreState))).timed 0 then (if (((({ s.core 0 with cyc := max t0 (s.core 0).cyc } : CoreState)).serve 0 t0 ((({ s.core 0 with cyc := max t0 (s.core 0).cyc } : CoreState)).portOf a) rivals)).2 then (({ s.core 0 with cyc := max t0 (s.core 0).cyc } : CoreState)).bump 0 CORE_SPM_CONT 1 else ({ s.core 0 with cyc := max t0 (s.core 0).cyc } : CoreState)) else (((({ s.core 0 with cyc := max t0 (s.core 0).cyc } : CoreState)).serve 0 t0 ((({ s.core 0 with cyc := max t0 (s.core 0).cyc } : CoreState)).portOf a) rivals)).1.foldl (fun k r => k.turn (k.bankOf 0 a.mem r) a.client) (if (((({ s.core 0 with cyc := max t0 (s.core 0).cyc } : CoreState)).serve 0 t0 ((({ s.core 0 with cyc := max t0 (s.core 0).cyc } : CoreState)).portOf a) rivals)).2 then (({ s.core 0 with cyc := max t0 (s.core 0).cyc } : CoreState)).bump 0 CORE_SPM_CONT 1 else ({ s.core 0 with cyc := max t0 (s.core 0).cyc } : CoreState))))).accMove 0 ((({ s.core 0 with cyc := max t0 (s.core 0).cyc } : CoreState)).portOf a) (((({ s.core 0 with cyc := max t0 (s.core 0).cyc } : CoreState)).serve 0 t0 ((({ s.core 0 with cyc := max t0 (s.core 0).cyc } : CoreState)).portOf a) rivals)).1).2.2
     let v := k.serve c t0 q rivals
     let k1 := if v.2 then k.bump c CORE_SPM_CONT 1 else k
     let u := s.setCore c (if k1.timed c then k1 else v.1.foldl (fun k r => k.turn (k.bankOf c a.mem r) a.client) k1)
     a.client ≤ 4 ∧
       a.len ≠ 0 ∧
       a.off + a.len ≤ 2 ^ 20 ∧
       (a.client = 0 → a.write = false ∧ k.feedWanted c a.off a.len = true) ∧
       k.powerCheck c gs (a.write && !(k.queued.any (fun x => x.acc == a) && q.waited == 0)) = .ready ∧
       k.portHeld c q = false ∧
       u.accMove c q v.1 = (stOk, q', x) ∧
       q'.rest = [] ∧
       a.client = 0 ∧
       a.tag = .none) := by
  refine ⟨?_, ?_, ?_, ?_, ?_, ?_⟩
  · decide +kernel
  · decide +kernel
  · decide +kernel
  · decide +kernel
  · decide +kernel
  · decide +kernel

theorem witness_ScratchpadEvents :
    (let s : State := upCore (fun k => { k with writebacks := [(.am, 5)], amErr := [(5, 1)] })
     let c : Nat := 0
     let k := s.core c
     let m := .am
     let word := 5
     (m, word) ∈ k.writebacks ∧
       correctable (Tab.get noErr (k.errs m) word) = true) ∧
    (let s : State := upCore (fun k => { k with gather := [(⟨.am, 16383, List.replicate 64 7, List.replicate 64 true⟩ : GatherEntry)] })
     let c : Nat := 0
     let k := s.core c
     let i := 0
     let g := (⟨.am, 16383, List.replicate 64 7, List.replicate 64 true⟩ : GatherEntry)
     k.gather[i]? = some g ∧
       k.meetsBadWord g = false) ∧
    (let s : State := upCore (fun k => k.setReg 0 CORE_SPM_MODE 0#32)
     let c : Nat := 0
     let k := s.core c
     let a := (⟨0, 5, 9, 0x9000000000, false, 64, [], [], none, .none⟩ : RemoteAcc)
     let i := 0
     let m := .am
     let off := 0
     let bs := ((s.setCore 0 ((k.present 0 4 .am 0 64).getD k)).spmRead 0 .am 0 64).2.1
     let k' := ((k.present 0 4 .am 0 64).getD k)
     let v := ((s.setCore 0 k').spmRead 0 .am 0 64).2.2
     s.addrKind a.addr = .spm i m off ∧
       s.physOf i = some c ∧
       a.write = false ∧
       a.arrive = none ∧
       a.tag = .none ∧
       a.len ≠ 0 ∧
       off + a.len ≤ 2 ^ 20 ∧
       k.meshWait = [] ∧
       k.powerCheck c (k.groupsOf c m off a.len) false = .ready ∧
       k.present c 4 m off a.len = some k' ∧
       (s.setCore c k').spmRead c m off a.len = (stOk, bs, v)) ∧
    (let s : State := upCore (fun k => k.setHandle 0 0 { hnd 0 0 6 0 16 with power := 1 })
     let c : Nat := 0
     let k := s.core c
     let g := 0
     k.quiet = true ∧
       s.coreSt c = 0 ∧
       g < 32 ∧
       k.groupSt c g = 0 ∧
       k.retentionAllowed c g = true ∧
       k.gather = []) ∧
    (let s : State := upCore (fun k => (k.setReg 0 CORE_ARR_SCRUB_CTRL 1#32).setGroupSt 0 31 1)
     let c : Nat := 0
     let k := s.core c
     let mc := 15
     mc < 16 ∧
       k.groupSt c (16 + mc) = 1 ∧
       (∀ p ∈ k.loadedPages, p / 128 ≠ mc)) ∧
    (let s : State := paged 1 zeroCrc
     let c : Nat := 0
     let k := s.core c
     let mc := 15
     let page := 127
     mc < 16 ∧
       k.groupSt c (16 + mc) = 1 ∧
       page < 128 ∧
       k.loadedPages = [pageKey mc page] ∧
       (∀ r < 256, k.wmFlips mc page r = 0) ∧
       crc32 (k.pageBytes mc page) = (k.page mc page).crc) ∧
    (let s : State := upCore (fun k => k.setGroupSt 0 31 4)
     let c : Nat := 0
     let k := s.core c
     let g := 31
     g < 32 ∧
       k.groupSt c g = 4 ∧
       Tab.get (fun _ => 0) k.wakeNote g = 0) ∧
    (let s : State := upCore (fun k => (k.setGroupSt 0 15 3).setFld 0 CORE_SPM_PWR_REQ0 31 30 2)
     let c : Nat := 0
     let k := s.core c
     let g := 15
     g < 16 ∧
       k.groupSt c g = 3 ∧
       k.gather = [] ∧
       k.writesTo c g = false ∧
       k.groupReq c g ≠ 3) ∧
    (let s : State := runningWith 0x18#64 (fun k => { k.setReg 0 CORE_SPM_FE_TMO 10#32 with wait := waitTag, waited := 10, tagWait := some ⟨0, 2, .am, 0, .consume, 10⟩ })
     let c : Nat := 0
     let k := s.core c
     let x := (⟨0, 2, .am, 0, .consume, 10⟩ : TagWait)
     k.waitedFor waitTag ≠ none ∧
       k.tagWait = some x ∧
       ((s.core x.owner).reg x.owner CORE_SPM_FE_TMO).toNat ≠ 0 ∧
       k.accHeld = none) := by
  refine ⟨?_, ?_, ?_, ?_, ?_, ?_, ?_, ?_, ?_⟩
  · decide +kernel
  · decide +kernel
  · decide +kernel
  · decide +kernel
  · decide +kernel
  · exact ⟨by decide +kernel, by decide +kernel, by decide +kernel, by decide +kernel, by decide +kernel, paged_crc _⟩
  · decide +kernel
  · decide +kernel
  · decide +kernel

theorem witness_DebugControl :
    (let s : State := up
     let a : Agent := .mp
     let c : Nat := 0
     let k := s.core c
     Writes s a (coreAddr c CORE_SEQ_CTRL) 1 1 ∧
       k.seq ≠ .debug) ∧
    (let s : State := upCore (fun k => { k with seq := .debug })
     let a : Agent := .mp
     let c : Nat := 0
     let k := s.core c
     Writes s a (coreAddr c CORE_SEQ_CTRL) 1 1 ∧
       k.seq = .debug) ∧
    (let s : State := upCore (fun k => { k with seq := .debug, loaded := true })
     let a : Agent := .host
     let c : Nat := 0
     let k := s.core c
     Writes s a (coreAddr c CORE_SEQ_CTRL) 2 2 ∧
       k.loaded = true ∧
       k.seq = .debug) ∧
    (let s : State := upCore (fun k => { k with loaded := true, seq := .running })
     let a : Agent := .mp
     let c : Nat := 0
     let k := s.core c
     Writes s a (coreAddr c CORE_SEQ_CTRL) 2 2 ∧
       k.loaded = true ∧
       k.seq ≠ .debug) ∧
    (let s : State := upCore (fun k => { k with seq := .debug })
     let a : Agent := .mp
     let c : Nat := 0
     let k := s.core c
     Writes s a (coreAddr c CORE_SEQ_CTRL) 4 4 ∧
       k.seq = .debug) ∧
    (let s : State := up
     let a : Agent := .mp
     let c : Nat := 0
     let k := s.core c
     Writes s a (coreAddr c CORE_SEQ_CTRL) 4 4 ∧
       k.seq ≠ .debug) ∧
    (let s : State := upCore (fun k => { k with seq := .halting })
     let c : Nat := 0
     let k := s.core c
     k.seq = .halting ∧
       k.stepping = false ∧
       k.accHeld = none ∧
       k.passes = [] ∧
       (∀ d ∈ k.drains, d.moved = true) ∧
       k.pageWrites = [] ∧
       k.fault = none) ∧
    (let s : State := queued ((upIn devRunning).modCore 64 (fun k => { k with seq := .debug })) 99 [64]
     let src : Src := (.queue 0)
     let e : Entry := (entry 99 0 [64])
     let c := e.word 0 % 128
     let k := s.core c
     Accepts s src 0x63 (fields coreField) e [] (s.tookTurn src) ∧
       k.seq = .debug) ∧
    (let s : State := queued ((upIn devRunning).modCore 64 (fun k => { k with seq := .idle })) 99 [64]
     let src : Src := (.queue 0)
     let e : Entry := (entry 99 0 [64])
     let c := e.word 0 % 128
     let k := s.core c
     Accepts s src 0x63 (fields coreField) e [] (s.tookTurn src) ∧
       k.seq ≠ .debug) ∧
    (let s : State := queued ((upIn devRunning).modCore 64 (fun k => { k with seq := .idle })) 100 [64, 3, 9223372036854775808]
     let src : Src := (.queue 0)
     let e : Entry := (entry 100 0 [64, 3, 9223372036854775808])
     let c := e.word 0 % 128
     let k := s.core c
     Accepts s src 0x64 (fields (fun e s => coreField e s ++ s.addrChecks e 2 false false)) e [] (s.tookTurn src) ∧
       k.seq ≠ .debug) ∧
    (let s : State := queued ((upIn devRunning).modCore 64 (fun k => { k with seq := .debug })) 100 [64, 3, 9223372036854775808]
     let src : Src := (.queue 0)
     let e : Entry := (entry 100 0 [64, 3, 9223372036854775808])
     let c := e.word 0 % 128
     let k := s.core c
     Accepts s src 0x64 (fields (fun e s => coreField e s ++ s.addrChecks e 2 false false)) e [] (s.tookTurn src) ∧
       k.seq = .debug ∧
       (e.word 0).testBit 7 = false ∧
       s.pcieUp = true ∧
       s.busMaster = true ∧
       (e.word 2).testBit 63 = true) ∧
    (let s : State := queued ((upIn devRunning).modCore 64 (fun k => { k with seq := .idle })) 101 [64]
     let src : Src := (.queue 0)
     let e : Entry := (entry 101 0 [64])
     let c := e.word 0 % 128
     let k := s.core c
     Accepts s src 0x65 (fields coreField) e [] (s.tookTurn src) ∧
       k.seq ≠ .debug) ∧
    (let s : State := queued ((upIn devRunning).modCore 64 (fun k => { k with seq := .debug })) 101 [64]
     let src : Src := (.queue 0)
     let e : Entry := (entry 101 0 [64])
     let c := e.word 0 % 128
     let k := s.core c
     Accepts s src 0x65 (fields coreField) e [] (s.tookTurn src) ∧
       k.seq = .debug ∧
       (e.word 0).testBit 7 = false) ∧
    (let s : State := queued ((upIn devRunning).modCore 64 (fun k => { k with seq := .debug, loaded := true })) 101 [192]
     let src : Src := (.queue 0)
     let e : Entry := (entry 101 0 [192])
     let c := e.word 0 % 128
     let k := s.core c
     Accepts s src 0x65 (fields coreField) e [] (s.tookTurn src) ∧
       k.seq = .debug ∧
       (e.word 0).testBit 7 = true ∧
       k.loaded = true) := by
  refine ⟨?_, ?_, ?_, ?_, ?_, ?_, ?_, ?_, ?_, ?_, ?_, ?_, ?_, ?_⟩
  · exact ⟨writes_of (by decide +kernel), by decide +kernel⟩
  · exact ⟨writes_of (by decide +kernel), by decide +kernel⟩
  · exact ⟨writes_of (by decide +kernel), by decide +kernel⟩
  · exact ⟨writes_of (by decide +kernel), by decide +kernel⟩
  · exact ⟨writes_of (by decide +kernel), by decide +kernel⟩
  · exact ⟨writes_of (by decide +kernel), by decide +kernel⟩
  · decide +kernel
  · exact ⟨accepts_of (by decide +kernel), by decide +kernel⟩
  · exact ⟨accepts_of (by decide +kernel), by decide +kernel⟩
  · exact ⟨accepts_of (by decide +kernel), by decide +kernel⟩
  · exact ⟨accepts_of (by decide +kernel), by decide +kernel⟩
  · exact ⟨accepts_of (by decide +kernel), by decide +kernel⟩
  · exact ⟨accepts_of (by decide +kernel), by decide +kernel⟩
  · exact ⟨accepts_of (by decide +kernel), by decide +kernel⟩

theorem witness_InstructionMemoryAccess :
    (let s : State := up
     let a : Agent := .mp
     let c : Nat := 0
     let i : Nat := 8191
     let v : W32 := 0xFFFFFFFF#32
     let k := s.core c
     let w (h : Nat) : Nat := coreAddr c (CORE_IMEM (2 * i + h))
     i < 8192 ∧
       Writes s a (w 0) v v ∧
       (k.loaded = false ∨ k.seq = .debug)) ∧
    (let s : State := upCore (fun k => { k with imemHeld := [(agentCode .mp, some (8191, 5#32))] })
     let a : Agent := .mp
     let c : Nat := 0
     let i : Nat := 8191
     let v : W32 := 0xFFFFFFFF#32
     let k := s.core c
     let w (h : Nat) : Nat := coreAddr c (CORE_IMEM (2 * i + h))
     let l := 5#32
     i < 8192 ∧
       Writes s a (w 1) v v ∧
       (k.loaded = false ∨ k.seq = .debug) ∧
       Tab.get (fun _ => none) k.imemHeld (agentCode a) = some (i, l)) ∧
    (let s : State := upCore (fun k => { k with loaded := true, seq := .running })
     let a : Agent := .host
     let c : Nat := 0
     let i : Nat := 0
     let v : W32 := 0xFFFFFFFF#32
     let k := s.core c
     let w (h : Nat) : Nat := coreAddr c (CORE_IMEM (2 * i + h))
     let h : Bool := true
     i < 8192 ∧
       Writes s a (w h.toNat) v v ∧
       k.loaded = true ∧
       k.seq ≠ .debug) ∧
    (let s : State := up
     let a : Agent := .mp
     let c : Nat := 0
     let i : Nat := 8191
     let w (h : Nat) : Nat := coreAddr c (CORE_IMEM (2 * i + h))
     i < 8192 ∧
       s.reads a (w 0) = true ∧
       c < 72) ∧
    (let s : State := up
     let a : Agent := .mp
     let c : Nat := 0
     let i : Nat := 8191
     let v : W32 := 0xFFFFFFFF#32
     let k := s.core c
     let b := 15
     i < 8192 ∧
       b < 16 ∧
       Writes s a (coreAddr c (CORE_BOUND b)) v v ∧
       (k.seq = .debug ∨ a = .mp ∨ ∃ n, a = .cp n)) ∧
    (let s : State := upCore (fun k => { k with loaded := true, seq := .running })
     let a : Agent := .host
     let c : Nat := 0
     let i : Nat := 0
     let v : W32 := 0xFFFFFFFF#32
     let k := s.core c
     let b := 15
     i < 8192 ∧
       b < 16 ∧
       Writes s a (coreAddr c (CORE_BOUND b)) v v ∧
       k.seq ≠ .debug ∧
       (a = .host ∨ a = .usb)) := by
  refine ⟨?_, ?_, ?_, ?_, ?_, ?_⟩
  · exact ⟨by decide +kernel, writes_of (by decide +kernel), by decide +kernel⟩
  · exact ⟨by decide +kernel, writes_of (by decide +kernel), by decide +kernel⟩
  · exact ⟨by decide +kernel, writes_of (by decide +kernel), by decide +kernel⟩
  · decide +kernel
  · exact ⟨by decide +kernel, by decide +kernel, writes_of (by decide +kernel), .inr (.inl rfl)⟩
  · exact ⟨by decide +kernel, by decide +kernel, writes_of (by decide +kernel), by decide +kernel⟩

theorem witness_ModeAndWheelAreDeferred :
    (let s : State := upCore (fun k => { k with loaded := true })
     let a : Agent := .mp
     let c : Nat := 0
     let v : W32 := 1#32
     let u : W32 := 1#32
     let k := s.core c
     let busy : Prop := k.loaded = true ∨ k.queued ≠ [] ∨ k.meshWait ≠ []
     Writes s a (coreAddr c CORE_SPM_MODE) v u ∧
       busy) ∧
    (let s : State := up
     let a : Agent := .mp
     let c : Nat := 0
     let v : W32 := 1#32
     let u : W32 := 1#32
     let k := s.core c
     let busy : Prop := k.loaded = true ∨ k.queued ≠ [] ∨ k.meshWait ≠ []
     Writes s a (coreAddr c CORE_SPM_MODE) v u ∧
       ¬ busy) ∧
    (let s : State := upCore (fun k => { k with loaded := true })
     let a : Agent := .mp
     let c : Nat := 0
     let v : W32 := 1#32
     let u : W32 := 1#32
     let k := s.core c
     let busy : Prop := k.loaded = true ∨ k.queued ≠ [] ∨ k.meshWait ≠ []
     Writes s a (coreAddr c CORE_SPM_WHEEL) v u ∧
       (∀ i < 8, wheelOwner u i ≠ 5 ∧ wheelOwner u i ≠ 6) ∧
       busy) ∧
    (let s : State := up
     let a : Agent := .mp
     let c : Nat := 0
     let v : W32 := 1#32
     let u : W32 := 1#32
     let k := s.core c
     let busy : Prop := k.loaded = true ∨ k.queued ≠ [] ∨ k.meshWait ≠ []
     Writes s a (coreAddr c CORE_SPM_WHEEL) v u ∧
       (∀ i < 8, wheelOwner u i ≠ 5 ∧ wheelOwner u i ≠ 6) ∧
       ¬ busy) ∧
    (let s : State := upCore (fun k => { k with modePend := some 7#32, wheelPend := some 0#32 })
     let c : Nat := 0
     let k := s.core c
     let busy : Prop := k.loaded = true ∨ k.queued ≠ [] ∨ k.meshWait ≠ []
     ¬ busy ∧
       (k.modePend ≠ none ∨ k.wheelPend ≠ none)) ∧
    (let s : State := upCore (fun k => { k with loaded := true })
     let c : Nat := 0
     let k := s.core c
     let busy : Prop := k.loaded = true ∨ k.queued ≠ [] ∨ k.meshWait ≠ []
     busy) := by
  refine ⟨?_, ?_, ?_, ?_, ?_, ?_⟩
  · exact ⟨writes_of (by decide +kernel), by decide +kernel⟩
  · exact ⟨writes_of (by decide +kernel), by decide +kernel⟩
  · exact ⟨writes_of (by decide +kernel), by decide +kernel⟩
  · exact ⟨writes_of (by decide +kernel), by decide +kernel⟩
  · decide +kernel
  · decide +kernel

theorem witness_CoreControlWrites :
    (let s : State := up
     let a : Agent := .mp
     let c : Nat := 0
     let v : W32 := 0#32
     let u : W32 := 0#32
     Writes s a (coreAddr c CORE_ARR_SCRUB_CTRL) v u) ∧
    (let s : State := upCore (fun k => { k with seq := .debug })
     let a : Agent := .mp
     let c : Nat := 0
     let v : W32 := 0#32
     let u : W32 := 0#32
     let k := s.core c
     Writes s a (coreAddr c CORE_ACC_DBG_CTRL) v u ∧
       k.seq = .debug) ∧
    (let s : State := up
     let a : Agent := .mp
     let c : Nat := 0
     let v : W32 := 0#32
     let u : W32 := 0#32
     let k := s.core c
     Writes s a (coreAddr c CORE_ACC_DBG_CTRL) v u ∧
       k.seq ≠ .debug) ∧
    (let s : State := up
     let a : Agent := .mp
     let c : Nat := 0
     let v : W32 := 0#32
     let u : W32 := 0#32
     let i := 63
     i < 64 ∧
       Writes s a (coreAddr c (CORE_SPM_ARRIVE i)) v u) ∧
    (let s : State := up
     let a : Agent := .mp
     let c : Nat := 0
     let v : W32 := 0#32
     let u : W32 := 0#32
     Writes s a (coreAddr c CORE_RQ_LIMIT) v u) ∧
    (let s : State := up
     let a : Agent := .mp
     let c : Nat := 0
     let v : W32 := 0#32
     let u : W32 := 0#32
     let k := s.core c
     Writes s a (coreAddr c CORE_SP_HAC_CFG) v u ∧
       k.validWays = []) ∧
    (let s : State := upCore (fun k => { k with ways := [(0, some ⟨5, 0⟩)] })
     let a : Agent := .mp
     let c : Nat := 0
     let v : W32 := 0#32
     let u : W32 := 0#32
     let k := s.core c
     Writes s a (coreAddr c CORE_SP_HAC_CFG) v u ∧
       k.validWays ≠ []) ∧
    (let s : State := upCore (fun k => k.setReg 0 CORE_SPM_MODE 6#32)
     let a : Agent := .mp
     let c : Nat := 0
     let g : Nat := 0
     let q : Nat := 1
     let v : W32 := 0x1#32
     let k := s.core c
     g < 16 ∧
       q < 3 ∧
       Writes s a (coreAddr c CORE_SPM_PWR_REQ0) v v ∧
       (∀ j < 16, j ≠ g → regField v (2 * j + 1) (2 * j) = k.groupReq c j ∧ (regField v (2 * j + 1) (2 * j) = 0 ∨ k.fineGroup c j = false) ∧ regField v (2 * j + 1) (2 * j) ≠ 3) ∧
       regField v (2 * g + 1) (2 * g) = q ∧
       q ≠ k.groupReq c g ∧
       (q = 0 ∨ k.fineGroup c g = false)) ∧
    (let s : State := up
     let a : Agent := .mp
     let c : Nat := 0
     let g : Nat := 0
     let q : Nat := 1
     let v : W32 := 0x1#32
     let k := s.core c
     g < 16 ∧
       q < 3 ∧
       Writes s a (coreAddr c CORE_SPM_PWR_REQ0) v v ∧
       (∀ j < 16, j ≠ g → regField v (2 * j + 1) (2 * j) = k.groupReq c j ∧ (regField v (2 * j + 1) (2 * j) = 0 ∨ k.fineGroup c j = false) ∧ regField v (2 * j + 1) (2 * j) ≠ 3) ∧
       regField v (2 * g + 1) (2 * g) = q ∧
       q ≠ 0 ∧
       k.fineGroup c g = true) := by
  refine ⟨?_, ?_, ?_, ?_, ?_, ?_, ?_, ?_, ?_⟩
  · exact writes_of (by decide +kernel)
  · exact ⟨writes_of (by decide +kernel), by decide +kernel⟩
  · exact ⟨writes_of (by decide +kernel), by decide +kernel⟩
  · exact ⟨by decide +kernel, writes_of (by decide +kernel)⟩
  · exact writes_of (by decide +kernel)
  · exact ⟨writes_of (by decide +kernel), by decide +kernel⟩
  · exact ⟨writes_of (by decide +kernel), by decide +kernel⟩
  · exact ⟨by decide +kernel, by decide +kernel, writes_of (by decide +kernel), by decide +kernel⟩
  · exact ⟨by decide +kernel, by decide +kernel, writes_of (by decide +kernel), by decide +kernel⟩

theorem witness_PlainRegisterWrites :
    (let s : State := up
     let a : Agent := .mp
     let addr : Nat := SEC_BOOTS
     let v : W32 := 0#32
     let r : RegRow := (match s.writeWay a addr with | .row r => r | _ => ⟨0, 0, 0, 0, .rw, 0, 0, 0⟩)
     addr % 4 = 0 ∧
       (blockOf addr = .sec ∨ blockOf addr = .mem) ∧
       agentCode a < 9 ∧
       s.writeWay a addr = .row r ∧
       v &&& r.rsv = 0) ∧
    (let s : State := up
     let a : Agent := .mp
     let addr : Nat := 0x7FFFFC
     addr % 4 = 0 ∧
       (blockOf addr = .sec ∨ blockOf addr = .mem) ∧
       agentCode a < 9 ∧
       s.writeWay a addr = .unnamed) ∧
    (let s : State := up
     let a : Agent := .mp
     let addr : Nat := MEM_T3_TMO
     let v : W32 := 0x10#32
     let b : Agent := .host
     let w : W32 := 0x20#32
     let r : RegRow := (match s.writeWay a addr with | .row r => r | _ => ⟨0, 0, 0, 0, .rw, 0, 0, 0⟩)
     addr % 4 = 0 ∧
       (blockOf addr = .sec ∨ blockOf addr = .mem) ∧
       agentCode a < 9 ∧
       agentCode b < 9 ∧
       agentCode b ≠ agentCode a ∧
       s.writeWay a addr = .row r ∧
       r.acc = .rw ∧
       v &&& r.rsv = 0 ∧
       s.writeWay b addr = .row r ∧
       w &&& r.rsv = 0) ∧
    (let s : State := up
     let a : Agent := .mp
     let addr : Nat := MEM_T3_TMO
     let v : W32 := 0x10#32
     let b : Agent := .host
     let r : RegRow := (match s.writeWay a addr with | .row r => r | _ => ⟨0, 0, 0, 0, .rw, 0, 0, 0⟩)
     addr % 4 = 0 ∧
       (blockOf addr = .sec ∨ blockOf addr = .mem) ∧
       agentCode a < 9 ∧
       agentCode b < 9 ∧
       agentCode b ≠ agentCode a ∧
       s.writeWay a addr = .row r ∧
       r.acc = .rw ∧
       v &&& r.rsv = 0 ∧
       s.reads b addr = true ∧
       isLow addr = false ∧
       isLow (addr - 4) = false ∧
       rcMask addr = 0) ∧
    (let s : State := up
     let a : Agent := .mp
     let lo : Nat := MEM_ATOM_OPS_LO
     s.reads a lo = true ∧
       isLow lo = true ∧
       (blockOf lo = .tel ∨ blockOf lo = .mem ∨ blockOf lo = .ras)) ∧
    (let s : State := { up with latches := [(latchKey .mp MEM_ATOM_OPS_LO, some 5#32)] }
     let a : Agent := .mp
     let lo : Nat := MEM_ATOM_OPS_LO
     let v := 5#32
     s.reads a (lo + 4) = true ∧
       isLow (lo + 4) = false ∧
       isLow lo = true ∧
       Tab.get (fun _ => none) s.latches (latchKey a lo) = some v) ∧
    (let s : State := { up with logLatch := [(agentCode .mp, some (4095, (⟨0, 1, 2, 3, 4, 5, 6, 7⟩ : LogRec)))] }
     let a : Agent := .mp
     let i := 4095
     i < 4096 ∧
       s.reads a (RAS_LOG (8 * i)) = true) ∧
    (let s : State := { up with logLatch := [(agentCode .mp, some (4095, (⟨0, 1, 2, 3, 4, 5, 6, 7⟩ : LogRec)))] }
     let a : Agent := .mp
     let i := 4095
     let w := 7
     let r := (⟨0, 1, 2, 3, 4, 5, 6, 7⟩ : LogRec)
     i < 4096 ∧
       0 < w ∧
       w < 8 ∧
       s.reads a (RAS_LOG (8 * i + w)) = true ∧
       Tab.get (fun _ => none) s.logLatch (agentCode a) = some (i, r)) := by
  refine ⟨?_, ?_, ?_, ?_, ?_, ?_, ?_, ?_⟩
  · exact ⟨by decide +kernel, by decide +kernel, by decide +kernel, row_eq _ (by decide +kernel), by decide +kernel⟩
  · exact ⟨by decide +kernel, by decide +kernel, by decide +kernel, unnamed_eq _ (by decide +kernel)⟩
  · exact ⟨by decide +kernel, by decide +kernel, by decide +kernel, by decide +kernel, by decide +kernel, row_eq _ (by decide +kernel), by decide +kernel, by decide +kernel, row_eq _ (by decide +kernel), by decide +kernel⟩
  · exact ⟨by decide +kernel, by decide +kernel, by decide +kernel, by decide +kernel, by decide +kernel, row_eq _ (by decide +kernel), by decide +kernel⟩
  · decide +kernel
  · decide +kernel
  · decide +kernel
  · decide +kernel

theorem witness_Doorbells :
    (let s : State := ((((up.setReg (CMDQ_Q_CFG 63) 0x80330000#32).setFld (CMDQ_Q_STAT 63) 31 30 1).setFld (CMDQ_Q_PTR 63) 27 16 2).setFld (CMDQ_Q_PTR 63) 11 0 4).setReg (CMDQ_SQDB 63) 5#32
     let a : Agent := .host
     let q : Nat := 63
     let v : W32 := 1#32
     let u : W32 := 1#32
     q < 64 ∧
       Writes s a (CMDQ_SQDB q) v u ∧
       s.qState q = qActive ∧
       s.qRemote q = false ∧
       s.sqAccepts q u.toNat = true) ∧
    (let s : State := ((((up.setReg (CMDQ_Q_CFG 63) 0xc0330000#32).setFld (CMDQ_Q_STAT 63) 31 30 1).setFld (CMDQ_Q_PTR 63) 27 16 2).setFld (CMDQ_Q_PTR 63) 11 0 4).setReg (CMDQ_SQDB 63) 5#32
     let a : Agent := .mp
     let q : Nat := 63
     let v : W32 := 1#32
     let u : W32 := 1#32
     q < 64 ∧
       Writes s a (CMDQ_SQDB q) v u ∧
       (s.qState q ≠ qActive ∨ s.qRemote q = true ∨ s.sqAccepts q u.toNat = false)) ∧
    (let s : State := ((((up.setReg (CMDQ_Q_CFG 63) 0xc0330000#32).setFld (CMDQ_Q_STAT 63) 31 30 1).setFld (CMDQ_Q_PTR 63) 27 16 2).setFld (CMDQ_Q_PTR 63) 11 0 4).setReg (CMDQ_SQDB 63) 5#32
     let a : Agent := .mp
     let q : Nat := 63
     let v : W32 := 1#32
     let u : W32 := 1#32
     q < 64 ∧
       Writes s a (CMDQ_CQDB q) v u ∧
       s.qState q = qActive ∧
       s.cqAccepts q u.toNat = true) ∧
    (let s : State := ((((up.setReg (CMDQ_Q_CFG 63) 0xc0330000#32).setFld (CMDQ_Q_STAT 63) 31 30 0).setFld (CMDQ_Q_PTR 63) 27 16 2).setFld (CMDQ_Q_PTR 63) 11 0 4).setReg (CMDQ_SQDB 63) 5#32
     let a : Agent := .mp
     let q : Nat := 63
     let v : W32 := 1#32
     let u : W32 := 1#32
     q < 64 ∧
       Writes s a (CMDQ_CQDB q) v u ∧
       (s.qState q ≠ qActive ∨ s.cqAccepts q u.toNat = false)) ∧
    (let s : State := (up.setReg (CMDQ_Q_CFG 63) 0#32).setFld (CMDQ_Q_STAT 63) 31 30 0
     let a : Agent := .host
     let q : Nat := 63
     let v : W32 := 0x801c0000#32
     let u : W32 := 0x801c0000#32
     q < 64 ∧
       Writes s a (CMDQ_Q_CFG q) (v ||| BitVec.twoPow 32 31) u ∧
       u.getLsbD 31 = true ∧
       s.qState q = qDisabled ∧
       (s.setReg (CMDQ_Q_CFG q) u).qValid q = true) ∧
    (let s : State := (up.setReg (CMDQ_Q_CFG 63) 0#32).setFld (CMDQ_Q_STAT 63) 31 30 0
     let a : Agent := .host
     let q : Nat := 63
     let v : W32 := 0x80000000#32
     let u : W32 := 0x80000000#32
     q < 64 ∧
       Writes s a (CMDQ_Q_CFG q) (v ||| BitVec.twoPow 32 31) u ∧
       u.getLsbD 31 = true ∧
       s.qState q = qDisabled ∧
       (s.setReg (CMDQ_Q_CFG q) u).qValid q = false) ∧
    (let s : State := (up.setReg (CMDQ_Q_CFG 63) 0x801c0000#32).setFld (CMDQ_Q_STAT 63) 31 30 1
     let a : Agent := .host
     let q : Nat := 63
     let v : W32 := 0x1c0000#32
     let u : W32 := 0x1c0000#32
     q < 64 ∧
       Writes s a (CMDQ_Q_CFG q) (v &&& ~~~ BitVec.twoPow 32 31) u ∧
       s.qState q = qActive ∧
       u.setWidth 31 = (s.reg (CMDQ_Q_CFG q)).setWidth 31) ∧
    (let s : State := up.setFld (CMDQ_Q_STAT 63) 31 30 2
     let q : Nat := 63
     q < 64 ∧
       s.qState q = qDraining ∧
       s.qIdle q = true) ∧
    (let s : State := ({ up with fetched := [{ entry 1 0 [] with src := .queue 63 }] } : State).setFld (CMDQ_Q_STAT 63) 31 30 2
     let q : Nat := 63
     q < 64 ∧
       s.qState q = qDraining ∧
       s.qIdle q = false) ∧
    (let s : State := up.setReg CMDQ_EVT 7#32
     let a : Agent := .host
     let q : Nat := 63
     let v : W32 := 5#32
     let u : W32 := 5#32
     q < 64 ∧
       Writes s a CMDQ_EVT v u) := by
  refine ⟨?_, ?_, ?_, ?_, ?_, ?_, ?_, ?_, ?_, ?_⟩
  · exact ⟨by decide +kernel, writes_of (by decide +kernel), by decide +kernel⟩
  · exact ⟨by decide +kernel, writes_of (by decide +kernel), by decide +kernel⟩
  · exact ⟨by decide +kernel, writes_of (by decide +kernel), by decide +kernel⟩
  · exact ⟨by decide +kernel, writes_of (by decide +kernel), by decide +kernel⟩
  · exact ⟨by decide +kernel, writes_of (by decide +kernel), by decide +kernel⟩
  · exact ⟨by decide +kernel, writes_of (by decide +kernel), by decide +kernel⟩
  · exact ⟨by decide +kernel, writes_of (by decide +kernel), by decide +kernel⟩
  · decide +kernel
  · decide +kernel
  · exact ⟨by decide +kernel, writes_of (by decide +kernel)⟩

theorem witness_FetchAndPost :
    (let s : State := { (((((up.setReg (CMDQ_Q_CFG 63) 0x80330000#32).setFld (CMDQ_Q_STAT 63) 31 30 1).setFld (CMDQ_Q_PTR 63) 27 16 7).setFld (CMDQ_Q_PTR 63) 11 0 7).setReg (CMDQ_SQDB 63) 1#32) with hmem := Mem.write (Mem.write [] 448 (entry 1 0 []).bytes) 0 (entry 2 0 [5]).bytes }
     let q : Nat := 63
     let n := min 8 (ringDist (s.sqSize q) (s.sqHead q) (s.sqTail q))
     q < 64 ∧
       s.served (.queue q) = true ∧
       s.qState q = qActive ∧
       n ≠ 0 ∧
       s.pendOf (.queue q) < 16 ∧
       s.sqLoc q = 0 ∧
       s.pcieUp = true ∧
       (∀ i < n, Framed (Mem.read s.hmem (s.sqBase q + 64 * ((s.sqHead q + i) % s.sqSize q)) 64)) ∧
       (∀ e ∈ s.fetched, e.src = .queue q → e.framing = none)) ∧
    (let s : State := { (((((up.setReg (CMDQ_Q_CFG 63) 0x80330000#32).setFld (CMDQ_Q_STAT 63) 31 30 1).setFld (CMDQ_Q_PTR 63) 27 16 7).setFld (CMDQ_Q_PTR 63) 11 0 7).setReg (CMDQ_SQDB 63) 1#32) with hmem := Mem.write (Mem.write [] 448 (entry 1 0 []).bytes) 0 (entry 2 0 [5]).bytes }
     let q : Nat := 63
     let n := min 8 (ringDist (s.sqSize q) (s.sqHead q) (s.sqTail q))
     q < 64 ∧
       s.served (.queue q) = true ∧
       s.qState q = qActive ∧
       n ≠ 0 ∧
       s.pendOf (.queue q) < 16 ∧
       s.sqLoc q = 0) ∧
    (let s : State := { (((((up.setReg (CMDQ_Q_CFG 63) 0x80330000#32).setFld (CMDQ_Q_STAT 63) 31 30 1).setFld (CMDQ_Q_PTR 63) 27 16 7).setFld (CMDQ_Q_PTR 63) 11 0 7).setReg (CMDQ_CQDB 63) 7#32) with posting := [(⟨.queue 63, none, 0, 0, 7, 0, 0, 9, false, false, 0, 1⟩ : Posting)] }
     let q : Nat := 63
     let p := (⟨.queue 63, none, 0, 0, 7, 0, 0, 9, false, false, 0, 1⟩ : Posting)
     let r := ([] : List Posting)
     q < 64 ∧
       takePosting (.queue q) s.pend = none ∧
       takePosting (.queue q) s.posting = some (p, r) ∧
       s.qState q = qActive ∧
       (s.cqTail q + 1) % s.cqSize q ≠ s.cqHead q ∧
       s.cqLoc q = 0 ∧
       s.hostWritable = true ∧
       s.head (.queue q) = none ∧
       s.dev ≠ devDraining) ∧
    (let s : State := { (((((up.setReg (CMDQ_Q_CFG 63) 0x80330000#32).setFld (CMDQ_Q_STAT 63) 31 30 1).setFld (CMDQ_Q_PTR 63) 27 16 7).setFld (CMDQ_Q_PTR 63) 11 0 7).setReg (CMDQ_CQDB 63) 0#32) with posting := [(⟨.queue 63, none, 0, 0, 7, 0, 0, 9, false, false, 0, 1⟩ : Posting)] }
     let q : Nat := 63
     q < 64 ∧
       s.qState q = qActive ∧
       (s.cqTail q + 1) % s.cqSize q = s.cqHead q ∧
       s.head (.queue q) = none ∧
       takePosting (.queue q) s.posting ≠ none) ∧
    (let s : State := { (((((up.setReg (CMDQ_Q_CFG 63) 0x80330000#32).setFld (CMDQ_Q_STAT 63) 31 30 1).setFld (CMDQ_Q_PTR 63) 27 16 7).setFld (CMDQ_Q_PTR 63) 11 0 7).setReg (CMDQ_CQDB 63) 7#32) with posting := [(⟨.queue 63, none, 0, 0, 7, 0, 0, 8, false, false, 0, 1⟩ : Posting)], pend := [(⟨.queue 63, none, 0, 0, 7, 0, 0, 9, false, false, 0, 1⟩ : Posting)], badWords := [] }
     let q : Nat := 63
     let p := (⟨.queue 63, none, 0, 0, 7, 0, 0, 9, false, false, 0, 1⟩ : Posting)
     let r := ([] : List Posting)
     q < 64 ∧
       takePosting (.queue q) s.pend = some (p, r) ∧
       s.qState q = qActive ∧
       (s.cqTail q + 1) % s.cqSize q ≠ s.cqHead q ∧
       s.cqLoc q = 0 ∧
       s.hostWritable = true ∧
       s.head (.queue q) = none ∧
       s.dev ≠ devDraining) := by
  refine ⟨?_, ?_, ?_, ?_, ?_⟩
  · decide +kernel
  · decide +kernel
  · decide +kernel
  · decide +kernel
  · decide +kernel

theorem witness_InterruptsAndProgress :
    (let s : State := { up.setReg (CMDQ_MSIX3 63) 0#32 with vecReq := [63] }
     let v := 63
     v < 64 ∧
       v ∈ s.vecReq ∧
       (s.reg (CMDQ_MSIX3 v)).getLsbD 0 = false) ∧
    (let s : State := { up.setReg (CMDQ_MSIX3 64) 1#32 with vecReq := [64] }
     let v := 64
     v < 65 ∧
       v ∈ s.vecReq ∧
       (s.reg (CMDQ_MSIX3 v)).getLsbD 0 = true) ∧
    (let s : State := { up.setReg (CMDQ_Q_IRQ 63) 0x800001FF#32 with unsig := [(63, (1, 0))] }
     let q := 63
     q < 64 ∧
       s.fld (CMDQ_Q_IRQ q) 15 8 ≠ 0 ∧
       (s.unsigOf q).1 ≠ 0 ∧
       (s.reg (CMDQ_Q_IRQ q)).getLsbD 31 = true) ∧
    (let s : State := { up.setReg (CMDQ_Q_CFG 0) 0x80330100#32 with cmds := [{ theCmd 0x13 with flags := 2 }], nextCmd := 2 }
     let id := 1
     let x := { theCmd 0x13 with flags := 2 }
     let q := 0
     s.cmd id = some x ∧
       x.src = .queue q ∧
       x.ended = false ∧
       x.unit < unitNone ∧
       x.flags.testBit 1 = true ∧
       s.fld (CMDQ_Q_CFG q) 15 8 ≠ 0) := by
  refine ⟨?_, ?_, ?_, ?_⟩
  · decide +kernel
  · decide +kernel
  · decide +kernel
  · decide +kernel

theorem witness_QueueChecksInOrder :
    (let s : State := up
     let i : Instr := (.identify (.queue 0))
     let op : Nat := 0x01
     let src : Src := (.queue 0)
     let f : Entry → State → List Check := (fun _ _ => [])
     queueOp i = some (op, src, f) ∧
       (s.served src = false ∨ s.inTurn src = false ∨ s.head src = none ∨ s.ready src = false ∨ (∃ h, s.head src = some h ∧ h.op ≠ op))) ∧
    (let s : State := queued up 99 [71]
     let i : Instr := (.debugHalt (.queue 0))
     let op : Nat := 0x63
     let src : Src := (.queue 0)
     let f : Entry → State → List Check := coreField
     let e : Entry := (entry 99 0 [71])
     let st := 18
     let d := 8
     queueOp i = some (op, src, f) ∧
       AtHead s src op e ∧
       firstBad (e.rsvChecks ++ f e s) = some (st, d)) ∧
    (let s : State := queued up 99 [64]
     let i : Instr := (.debugHalt (.queue 0))
     let op : Nat := 0x63
     let src : Src := (.queue 0)
     let f : Entry → State → List Check := coreField
     let e : Entry := (entry 99 0 [64])
     queueOp i = some (op, src, f) ∧
       AtHead s src op e ∧
       firstBad (e.rsvChecks ++ f e s) = none ∧
       s.gate e = .refuse) ∧
    (let s : State := queued (upIn devRunning) 98 [64]
     let i : Instr := (.coreReset (.queue 0))
     let op : Nat := 0x62
     let src : Src := (.queue 0)
     let f : Entry → State → List Check := coreField
     let e : Entry := (entry 98 0 [64])
     queueOp i = some (op, src, f) ∧
       AtHead s src op e ∧
       firstBad (e.rsvChecks ++ f e s) = none ∧
       s.gate e = .defer) ∧
    (let s : State := queued up 114 [0]
     let src : Src := (.queue 0)
     let e : Entry := (entry 114 0 [0])
     (s.popHead src).head src = none ∧
       AtHead s src 0x72 e) ∧
    (let s : State := queued up 115 [0]
     let src : Src := (.queue 0)
     let e : Entry := (entry 115 0 [0])
     (s.popHead src).head src = none ∧
       AtHead s src 0x73 e) := by
  refine ⟨?_, ?_, ?_, ?_, ?_, ?_⟩
  · exact ⟨rfl, by decide +kernel⟩
  · exact ⟨rfl, by decide +kernel⟩
  · exact ⟨rfl, by decide +kernel⟩
  · exact ⟨rfl, by decide +kernel⟩
  · decide +kernel
  · decide +kernel

theorem witness_InformationCommandsAnswer :
    (let s : State := queued up 1 [0]
     let src : Src := (.queue 0)
     let e : Entry := (entry 1 0 [0])
     Accepts s src 0x01 noFields e [] (s.tookTurn src)) ∧
    (let s : State := queued ({ up with cmds := [theCmd 0x13], nextCmd := 2 }) 2 [7]
     let src : Src := (.queue 0)
     let e : Entry := (entry 2 0 [7])
     let x := theCmd 0x13
     Accepts s src 0x02 noFields e [] (s.tookTurn src) ∧
       (s.popHead src).target (e.word 0 / 2 ^ 16 % 64) (e.word 0 % 2 ^ 16) = some (.cmd x) ∧
       x.unit < unitNone) ∧
    (let s : State := queued up 8 [0]
     let src : Src := (.queue 0)
     let e : Entry := (entry 8 0 [0])
     Accepts s src 0x08 noFields e [] (s.tookTurn src)) ∧
    (let s : State := queued up 65 [31]
     let src : Src := (.queue 0)
     let e : Entry := (entry 65 0 [31])
     Accepts s src 0x41 noFields e [] (s.tookTurn src)) ∧
    (let s : State := queued up 64 [700]
     let src : Src := (.queue 0)
     let e : Entry := (entry 64 0 [700])
     Accepts s src 0x40 (fields (fun e _ => [okField 0 0 (capValid (e.word 0 % 1024))])) e [] (s.tookTurn src)) := by
  refine ⟨?_, ?_, ?_, ?_, ?_⟩
  · exact accepts_of (by decide +kernel)
  · exact ⟨accepts_of (by decide +kernel), target_cmd _ (by decide +kernel), by decide +kernel⟩
  · exact accepts_of (by decide +kernel)
  · exact accepts_of (by decide +kernel)
  · exact accepts_of (by decide +kernel)

theorem witness_DataCommandsDeliver :
    (let s : State := queued up 9 [9223372036854775808, 4096]
     let src : Src := (.queue 0)
     let e : Entry := (entry 9 0 [9223372036854775808, 4096])
     s.pcieUp = true ∧
       s.busMaster = true ∧
       (Accepts s src 0x09 (fields (fun e s => okField 1 12 (decide (1 ≤ e.word 1 / 2 ^ 12 % 2 ^ 13 ∧ e.word 1 / 2 ^ 12 % 2 ^ 13 ≤ 4096)) :: s.addrChecks e 0 false false)) e [] (s.tookTurn src)) ∧
       (e.word 0).testBit 63 = true) ∧
    (let s : State := queued up 10 [9223372036854775808, 4294967295]
     let src : Src := (.queue 0)
     let e : Entry := (entry 10 0 [9223372036854775808, 4294967295])
     s.pcieUp = true ∧
       s.busMaster = true ∧
       Accepts s src 0x0A (fields (fun e s => s.addrChecks e 0 false false)) e [] (s.tookTurn src) ∧
       (e.word 0).testBit 63 = true) ∧
    (let s : State := queued up 81 [9223372036854775808]
     let src : Src := (.queue 0)
     let e : Entry := (entry 81 0 [9223372036854775808])
     s.pcieUp = true ∧
       s.busMaster = true ∧
       Accepts s src 0x51 (fields (fun e s => s.addrChecks e 0 false false)) e [] (s.tookTurn src) ∧
       (e.word 0).testBit 63 = true) ∧
    (let s : State := queued up 112 [9223372036854775808, 9223372036854779904, 896]
     let src : Src := (.queue 0)
     let e : Entry := (entry 112 0 [9223372036854775808, 9223372036854779904, 896])
     s.pcieUp = true ∧
       s.busMaster = true ∧
       Accepts s src 0x70 (fields (fun e s => s.addrChecks e 0 true false ++ s.addrChecks e 1 false false ++ [okField 2 0 (decide (896 ≤ e.word 2 % 2 ^ 16))])) e [] (s.tookTurn src) ∧
       (e.word 0).testBit 63 = true ∧
       (e.word 1).testBit 63 = true ∧
       s.mpDown = false) := by
  refine ⟨?_, ?_, ?_, ?_⟩
  · exact ⟨by decide +kernel, by decide +kernel, accepts_of (by decide +kernel), by decide +kernel⟩
  · exact ⟨by decide +kernel, by decide +kernel, accepts_of (by decide +kernel), by decide +kernel⟩
  · exact ⟨by decide +kernel, by decide +kernel, accepts_of (by decide +kernel), by decide +kernel⟩
  · exact ⟨by decide +kernel, by decide +kernel, accepts_of (by decide +kernel), by decide +kernel⟩

theorem witness_DeviceStateCommands :
    (let s : State := queued ({ upIn devRunning with cmds := [{ theCmd 0x30 with unit := 0 }], nextCmd := 2 }) 4 []
     let src : Src := (.queue 0)
     let e : Entry := (entry 4 0 [])
     Accepts s src 0x04 noFields e [] (s.tookTurn src) ∧
       s.inFlight ≠ 0) ∧
    (let s : State := queued up 4 []
     let src : Src := (.queue 0)
     let e : Entry := (entry 4 0 [])
     Accepts s src 0x04 noFields e [] (s.tookTurn src) ∧
       s.inFlight = 0 ∧
       s.softReset = none) ∧
    (let s : State := queued ({ upIn devRunning with cmds := [{ theCmd 0x30 with unit := 0 }], nextCmd := 2 }) 5 []
     let src : Src := (.queue 0)
     let e : Entry := (entry 5 0 [])
     Accepts s src 0x05 noFields e [] (s.tookTurn src) ∧
       s.inFlight ≠ 0 ∧
       s.dev ≠ devFaulted) ∧
    (let s : State := queued (upIn devFaulted) 5 []
     let src : Src := (.queue 0)
     let e : Entry := (entry 5 0 [])
     Accepts s src 0x05 noFields e [] (s.tookTurn src) ∧
       s.dev = devFaulted) ∧
    (let s : State := { up with softReset := some (.queue 0), softPosted := true }
     s.softReset.isSome = true ∧
       s.softPosted = true) ∧
    (let s : State := queued up 6 []
     let src : Src := (.queue 0)
     let e : Entry := (entry 6 0 [])
     Accepts s src 0x06 noFields e [] (s.tookTurn src)) ∧
    (let s : State := queued (upIn devMaint) 7 []
     let src : Src := (.queue 0)
     let e : Entry := (entry 7 0 [])
     Accepts s src 0x07 noFields e [] (s.tookTurn src)) ∧
    (let s : State := queued up 3 [7]
     let src : Src := (.queue 0)
     let e : Entry := (entry 3 0 [7])
     let tgt := (s.popHead src).target (e.word 0 / 2 ^ 16 % 64) (e.word 0 % 2 ^ 16)
     Accepts s src 0x03 noFields e [] (s.tookTurn src) ∧
       tgt = none) ∧
    (let s : State := queued ({ upIn devRunning with cmds := [{ theCmd 0x30 with unit := 0 }], nextCmd := 2 }) 3 [7]
     let src : Src := (.queue 0)
     let e : Entry := (entry 3 0 [7])
     let tgt := (s.popHead src).target (e.word 0 / 2 ^ 16 % 64) (e.word 0 % 2 ^ 16)
     let x := { theCmd 0x30 with unit := 0 }
     Accepts s src 0x03 noFields e [] (s.tookTurn src) ∧
       tgt = some (.cmd x) ∧
       x.ended = false ∧
       x.closing = false ∧
       x.stopped = false) ∧
    (let s : State := { up with fetched := [entry 3 0 [65545], { (entry 6 0 []) with src := .queue 1, deferred := some 0, bytes := (entry 6 0 []).bytes.set 2 9 }] }
     let src : Src := (.queue 0)
     let e : Entry := (entry 3 0 [65545])
     let tgt := (s.popHead src).target (e.word 0 / 2 ^ 16 % 64) (e.word 0 % 2 ^ 16)
     let d := { (entry 6 0 []) with src := .queue 1, deferred := some 0, bytes := (entry 6 0 []).bytes.set 2 9 }
     Accepts s src 0x03 noFields e [] (s.tookTurn src) ∧
       tgt = some (.entry d)) := by
  refine ⟨?_, ?_, ?_, ?_, ?_, ?_, ?_, ?_, ?_, ?_⟩
  · exact ⟨accepts_of (by decide +kernel), by decide +kernel⟩
  · exact ⟨accepts_of (by decide +kernel), by decide +kernel⟩
  · exact ⟨accepts_of (by decide +kernel), by decide +kernel⟩
  · exact ⟨accepts_of (by decide +kernel), by decide +kernel⟩
  · decide +kernel
  · exact accepts_of (by decide +kernel)
  · exact accepts_of (by decide +kernel)
  · exact ⟨accepts_of (by decide +kernel), by decide +kernel⟩
  · exact ⟨accepts_of (by decide +kernel), target_cmd _ (by decide +kernel), by decide +kernel⟩
  · exact ⟨accepts_of (by decide +kernel), target_entry _ (by decide +kernel)⟩

theorem witness_MaintenanceCommands :
    (let s : State := queued (upIn devMaint) 96 [1, 18446744073709551615]
     let src : Src := (.queue 0)
     let e : Entry := (entry 96 0 [1, 18446744073709551615])
     Accepts s src 0x60 (fields (fun e s => s.maskChecks e 1)) e [] (s.tookTurn src)) ∧
    (let s : State := queued (upIn devMaint) 98 [64]
     let src : Src := (.queue 0)
     let e : Entry := (entry 98 0 [64])
     Accepts s src 0x62 (fields coreField) e [] (s.tookTurn src)) ∧
    (let s : State := { (up.setFld GLB_CORES 6 0 63).modCore 63 (fun k => k.setFld 63 CORE_ID 17 16 2) with renumber := true }
     let c := 64
     let i := 62
     s.renumber = true ∧
       (s.dev = devReady ∨ s.dev = devLoaded) ∧
       s.wloads = [] ∧
       c < 72 ∧
       s.coreSt c = 0 ∧
       s.active ≤ s.logicalOf c ∧
       (∀ d < 72, s.coreSt d = 0 → d ≠ c → s.logicalOf d < s.active) ∧
       i < s.active ∧
       (s.physOf i) = none ∧
       (∀ j < s.active, j ≠ i → s.physOf j ≠ none) ∧
       (s.core c).joining = false ∧
       s.active ≤ 64) ∧
    (let s : State := { upIn devReady with fetched := [{ entry 6 0 [] with deferred := some 3 }] }
     let e : Entry := { entry 6 0 [] with deferred := some 3 }
     s.fetched = [e] ∧
       e.deferred.isSome = true ∧
       e.passed = false ∧
       s.pitonHeld < 4096 ∧
       e.op = 0x06 ∧
       s.gate e = .accept) ∧
    (let s : State := { upIn devFaulted with fetched := [{ entry 98 0 [64] with deferred := some 3 }] }
     let e : Entry := { entry 98 0 [64] with deferred := some 3 }
     s.fetched = [e] ∧
       e.deferred.isSome = true ∧
       e.passed = false ∧
       s.pitonHeld < 4096 ∧
       s.gate e = .refuse) ∧
    (let s : State := { upIn devRunning with fetched := [{ entry 6 0 [] with deferred := some 3 }] }
     let e : Entry := { entry 6 0 [] with deferred := some 3 }
     s.fetched = [e] ∧
       e.deferred.isSome = true ∧
       e.passed = false ∧
       s.pitonHeld < 4096 ∧
       s.gate e = .defer) := by
  refine ⟨?_, ?_, ?_, ?_, ?_, ?_⟩
  · exact accepts_of (by decide +kernel)
  · exact accepts_of (by decide +kernel)
  · decide +kernel
  · decide +kernel
  · decide +kernel
  · decide +kernel

theorem witness_HandleAndListCommands :
    (let s : State := queued (up.setReg (CMDQ_Q_QUOTA 0) 0x00000001#32) 16 [549755813888, 68738351107, 255]
     let src : Src := (.queue 0)
     let e : Entry := (entry 16 0 [549755813888, 68738351107, 255])
     let h := e.allocHandle
     let gran := h.granuleCount
     let d := 2
     srcQueue src < 64 ∧
       Accepts s src 0x10 (fields allocChecks) e [] (s.tookTurn src) ∧
       s.overQuota (srcQueue src) (if h.layout = 2 then 2 else 1) gran = some d) ∧
    (let s : State := queued up 16 [0, 68738351107, 768]
     let src : Src := (.queue 0)
     let e : Entry := (entry 16 0 [0, 68738351107, 768])
     let h := e.allocHandle
     let auto := (e.word 2).testBit 9
     let gran := h.granuleCount
     let n := 0
     let b := 0x8000000000
     srcQueue src < 64 ∧
       Accepts s src 0x10 (fields allocChecks) e [] (s.tookTurn src) ∧
       s.overQuota (srcQueue src) (if h.layout = 2 then 2 else 1) gran = none ∧
       s.allocNumber h ((e.word 2).testBit 8) (e.word 2 % 256) = some n ∧
       (if auto then s.autoBase h else some h.base) = some b ∧
       (gran ≠ 0 → s.heldGranules.all (fun g => decide ((b - 0x8000000000) / 65536 + gran ≤ g.2.1 ∨ g.2.1 + g.2.2 ≤ (b - 0x8000000000) / 65536)) = true) ∧
       b < 2 ^ 48) ∧
    (let s : State := queued (((List.range 72).foldl (fun (t : State) c => t.modCore c (fun k => k.setHandle c 255 (hnd 3 0 9 0 16))) up)) 17 [255]
     let src : Src := (.queue 0)
     let e : Entry := (entry 17 0 [255])
     srcQueue src < 64 ∧
       Accepts s src 0x11 (fields handleField) e [] (s.tookTurn src)) ∧
    (let s : State := queued (((List.range 72).foldl (fun (t : State) c => t.modCore c (fun k => k.setHandle c 255 (hnd 3 0 9 0 16))) up)) 18 [255, 43]
     let src : Src := (.queue 0)
     let e : Entry := (entry 18 0 [255, 43])
     srcQueue src < 64 ∧
       Accepts s src 0x12 (fields (fun e s => handleField e s ++ [okField 1 2 (e.word 1 / 4 % 4 != 3), okField 1 4 (e.word 1 / 16 % 4 != 3)])) e [] (s.tookTurn src)) ∧
    (let s : State := queued ({ up with preds := [(⟨65535, 3, 4, [(5, 6)], 1, 50, true, [255]⟩ : PredState), (⟨3, 3, 4, [(5, 6)], 1, 50, true, [255]⟩ : PredState)] }) 34 [65535]
     let src : Src := (.queue 0)
     let e : Entry := (entry 34 0 [65535])
     srcQueue src < 64 ∧
       Accepts s src 0x22 noFields e [] (s.tookTurn src)) ∧
    (let s : State := queued up 51 [255, 1000, 0, 0, 0]
     let src : Src := (.queue 0)
     let e : Entry := (entry 51 0 [255, 1000, 0, 0, 0])
     let g := 0
     let len := e.word 1 % 2 ^ 25
     let n := ceilDiv (listBytes len) 65536
     srcQueue src < 64 ∧
       (Accepts s src 0x33 (fields (fun e s => [okField 1 0 (decide (1 ≤ e.word 1 ∧ e.word 1 ≤ 16777216)), okField 4 56 (e.word 4 == 0 || (!(e.word 4).testBit 63 && (e.word 4).testBit 62))] ++ s.addrChecks e 2 false true)) e [] (s.tookTurn src)) ∧
       s.list (e.word 0 % 256) = none ∧
       e.word 4 = 0 ∧
       s.overQuota (srcQueue src) 0 n = none ∧
       s.freeGranules n = some g) ∧
    (let s : State := queued ({ up with lists := [(255, some (⟨0x8000000000, none, 1000, 0, 1, false⟩ : WorkList))] }) 52 [255]
     let src : Src := (.queue 0)
     let e : Entry := (entry 52 0 [255])
     let p := (s.tookTurn src).popHead src
     let w := (⟨0x8000000000, none, 1000, 0, 1, false⟩ : WorkList)
     let b := (p.memRead 0x8000000008 8).2.1
     let u := (p.memRead 0x8000000008 8).2.2
     srcQueue src < 64 ∧
       Accepts s src 0x34 (fields (fun e s => [okField 0 0 (s.list (e.word 0 % 256)).isSome])) e [] (s.tookTurn src) ∧
       s.list (e.word 0 % 256) = some w ∧
       w.dev = none ∧
       p.atomFirst (w.addr + 8) 8 = false ∧
       p.memRead (w.addr + 8) 8 = (stOk, b, u)) ∧
    (let s : State := queued ({ ((List.range 72).foldl (fun (t : State) c => t.modCore c (fun k => k.setHandle c 255 (hnd 2 0 9 0 16))) up) with preds := [(⟨3, 3, 4, [(5, 6)], 1, 50, true, [255]⟩ : PredState)] }) 33 [255]
     let src : Src := (.queue 0)
     let e : Entry := (entry 33 0 [255])
     srcQueue src < 64 ∧
       Accepts s src 0x21 (fields (fun e s => [okField 0 0 ((s.handle (e.word 0 % 256)).valid && (s.handle (e.word 0 % 256)).mem == memWm)])) e [] (s.tookTurn src)) := by
  refine ⟨?_, ?_, ?_, ?_, ?_, ?_, ?_, ?_⟩
  · exact ⟨by decide +kernel, accepts_of (by decide +kernel), by decide +kernel⟩
  · exact ⟨by decide +kernel, accepts_of (by decide +kernel), by decide +kernel⟩
  · exact ⟨by decide +kernel, accepts_of (by decide +kernel)⟩
  · exact ⟨by decide +kernel, accepts_of (by decide +kernel)⟩
  · exact ⟨by decide +kernel, accepts_of (by decide +kernel)⟩
  · exact ⟨by decide +kernel, accepts_of (by decide +kernel), by decide +kernel⟩
  · exact ⟨by decide +kernel, accepts_of (by decide +kernel), by decide +kernel⟩
  · exact ⟨by decide +kernel, accepts_of (by decide +kernel)⟩

theorem witness_TransferCommandsStart_1 :
    (let s : State := queued up 19 [0, 549755813888, 1, 147465]
     let src : Src := (.queue 0)
     let e : Entry := (entry 19 0 [0, 549755813888, 1, 147465])
     Accepts s src 0x13 (fields copyChecks) e [] (s.tookTurn src)) := by
  exact accepts_of (by decide +kernel)

theorem witness_TransferCommandsStart_2 :
    (let s : State := queued up 20 [0, 0, 5]
     let src : Src := (.queue 0)
     let e : Entry := (entry 20 0 [0, 0, 5])
     Accepts s src 0x14 (fields fillChecks) e [] (s.tookTurn src)) := by
  exact accepts_of (by decide +kernel)

theorem witness_TransferCommandsStart_3 :
    (let s : State := queued (up.setReg MEM_T3_PAGES 0x80001000#32) 21 [4398046511104, 0, 0]
     let src : Src := (.queue 0)
     let e : Entry := (entry 21 0 [4398046511104, 0, 0])
     Accepts s src 0x15 (fields pageChecks) e [] (s.tookTurn src)) := by
  exact accepts_of (by decide +kernel)

theorem witness_TransferCommandsStart_4 :
    (let s : State := queued ({ (withHandle (withHandle (withHandle (described 1 1 1) 2 (hnd 4 0 2 1 65536)) 3 (hnd 4 0 9 0 65536)) 255 (hnd 2 0 2 1 64)) with free := 0 }) 32 [9223372036854775808, 255]
     let src : Src := (.queue 0)
     let e : Entry := (entry 32 0 [9223372036854775808, 255])
     let d := desc 1 1 1
     let u := s.tookTurn src
     let bs := List.replicate 16 0#32
     let v := u.popHead src
     let es := ([], false)
     let y := v
     let p := u.popHead src
     let n := e.word 1 % 256
     let hw := p.handle (Desc.hnd d 2)
     let hr := p.handle (Desc.hnd d 3)
     let l := y.sizedLayer d 0 bs es
     let r := y.start { e with checked := true, copy := d } unitPages (y.weightTotal l)
     let z := r.2.modCmd r.1 (fun x => { x with uses := y.withNext [Desc.hnd d 2, Desc.hnd d 3, n] })
     let x := (z.placeAll (z.handle n) l ⟨p.handle (Desc.hnd d 2), none, p.handle (Desc.hnd d 3), none⟩).2
     Accepts s src 0x20 weightChecks e d u ∧
       hw.mem ≠ memRemote ∧
       hr.mem ≠ memRemote ∧
       p.sourceWaits [hw, hr] = false ∧
       p.readBounds (d.drop 0x100) = .ok bs v ∧
       v.readEntries src d = .ok es y ∧
       r.2.shapeBad d l.m l.n l.k l.cores (y.dealsOf l) = none ∧
       y.loadWaits (y.handle n) l = none ∧
       z.placeAll (z.handle n) l ⟨hw, none, hr, none⟩ = (stOk, x)) := by
  exact ⟨accepts_at (by decide +kernel) (by decide +kernel) (by decide +kernel), by decide +kernel, by decide +kernel, by decide +kernel, bok_at (by decide +kernel) (by decide +kernel) (by decide +kernel), rok_at (by decide +kernel) (by decide +kernel) (by decide +kernel), by decide +kernel, by decide +kernel, fst_eq _ (by decide +kernel)⟩

/-- A LAYER_RUN of a layer of 0 rows passes its checks, and its bounds are read. -/
theorem layer_accepted_0 :
    Accepts (queued (described 0 512 256) 48 [9223372036854775808]) (.queue 0) 0x30 layerChecks (entry 48 0 [9223372036854775808])
      (desc 0 512 256) ((queued (described 0 512 256) 48 [9223372036854775808]).tookTurn (.queue 0)) :=
  accepts_at (by decide +kernel) (by decide +kernel) (by decide +kernel)
theorem layer_bounds_0 :
    (((queued (described 0 512 256) 48 [9223372036854775808]).tookTurn (.queue 0)).popHead (.queue 0)).readBounds ((desc 0 512 256).drop 0x100)
      = .ok (List.replicate 16 0#32) (((queued (described 0 512 256) 48 [9223372036854775808]).tookTurn (.queue 0)).popHead (.queue 0)) :=
  bok_at (by decide +kernel) (by decide +kernel) (by decide +kernel)

/-- A LAYER_RUN of a layer of 1 rows passes its checks, and its bounds are read. -/
theorem layer_accepted_1 :
    Accepts (queued (described 1 512 256) 48 [9223372036854775808]) (.queue 0) 0x30 layerChecks (entry 48 0 [9223372036854775808])
      (desc 1 512 256) ((queued (described 1 512 256) 48 [9223372036854775808]).tookTurn (.queue 0)) :=
  accepts_at (by decide +kernel) (by decide +kernel) (by decide +kernel)
theorem layer_bounds_1 :
    (((queued (described 1 512 256) 48 [9223372036854775808]).tookTurn (.queue 0)).popHead (.queue 0)).readBounds ((desc 1 512 256).drop 0x100)
      = .ok (List.replicate 16 0#32) (((queued (described 1 512 256) 48 [9223372036854775808]).tookTurn (.queue 0)).popHead (.queue 0)) :=
  bok_at (by decide +kernel) (by decide +kernel) (by decide +kernel)

theorem witness_LayerCommandsStart_1 :
    (let s : State := queued (described 1 512 256) 48 [9223372036854775808]
     let src : Src := (.queue 0)
     let e : Entry := (entry 48 0 [9223372036854775808])
     let d := desc 1 512 256
     let u := s.tookTurn src
     let bs := List.replicate 16 0#32
     let v := u.popHead src
     let p := u.popHead src
     let total := p.layerTotal (p.peekLayer src d)
     let r := p.start { e with checked := true, copy := d } unitPercent total
     let x := (gst (r.2.layerBegin r.1 d 0))
     Accepts s src 0x30 layerChecks e d u ∧
       p.readBounds (d.drop 0x100) = .ok bs v ∧
       r.2.layerBegin r.1 d 0 = .runs x) := by
  exact ⟨layer_accepted_1, layer_bounds_1, runs_eq _ (by decide +kernel)⟩

theorem witness_LayerCommandsStart_2 :
    (let s : State := queued (described 0 512 256) 48 [9223372036854775808]
     let src : Src := (.queue 0)
     let e : Entry := (entry 48 0 [9223372036854775808])
     let d := desc 0 512 256
     let u := s.tookTurn src
     let bs := List.replicate 16 0#32
     let v := u.popHead src
     let p := u.popHead src
     let total := p.layerTotal (p.peekLayer src d)
     let r := p.start { e with checked := true, copy := d } unitPercent total
     let st := stOk
     let det := 0
     let x := (gst (r.2.layerBegin r.1 d 0))
     Accepts s src 0x30 layerChecks e d u ∧
       p.readBounds (d.drop 0x100) = .ok bs v ∧
       r.2.layerBegin r.1 d 0 = .ended st det x) := by
  exact ⟨layer_accepted_0, layer_bounds_0, ends_eq _ _ _ (by decide +kernel)⟩

theorem witness_LayerCommandsStart_3 :
    (let s : State := queued (described 0 512 256) 48 [9223372036854775808]
     let src : Src := (.queue 0)
     let e : Entry := (entry 48 0 [9223372036854775808])
     let d := desc 0 512 256
     let u := s.tookTurn src
     let bs := List.replicate 16 0#32
     let v := u.popHead src
     let p := u.popHead src
     let l := p.sizedLayer d 0 bs ([], false)
     Accepts s src 0x30 layerChecks e d u ∧
       p.readBounds (d.drop 0x100) = .ok bs v ∧
       v = p ∧
       Desc.plist d = false ∧
       p.shapeBad d l.m l.n l.k l.cores (p.dealsOf l) = none ∧
       (l.desc.prec.s24 = true → l.k % 4 = 0) ∧
       p.fallbackBad d l.m l.n = none ∧
       (∀ i < 16, ∃ x, boundSrc (entryNat (d.drop 0x100) (8 * i) 8) = .value x) ∧
       (l.m = 0 ∨ l.n = 0)) := by
  exact ⟨layer_accepted_0, layer_bounds_0, by decide +kernel, by decide +kernel, by decide +kernel, by decide +kernel, by decide +kernel, values_of _ (by decide +kernel), by decide +kernel⟩

theorem witness_LayerCommandsStart_4 :
    (let s : State := queued (described 1 512 256) 48 [9223372036854775808]
     let src : Src := (.queue 0)
     let e : Entry := (entry 48 0 [9223372036854775808])
     let d := desc 1 512 256
     let u := s.tookTurn src
     let bs := List.replicate 16 0#32
     let v := u.popHead src
     let p := u.popHead src
     let l := p.sizedLayer d 0 bs ([], false)
     Accepts s src 0x30 layerChecks e d u ∧
       p.readBounds (d.drop 0x100) = .ok bs v ∧
       v = p ∧
       Desc.plist d = false ∧
       p.shapeBad d l.m l.n l.k l.cores (p.dealsOf l) = none ∧
       (l.desc.prec.s24 = true → l.k % 4 = 0) ∧
       p.fallbackBad d l.m l.n = none ∧
       (∀ i < 16, ∃ x, boundSrc (entryNat (d.drop 0x100) (8 * i) 8) = .value x) ∧
       (p.dealsOf l).all (·.isEmpty) = false) := by
  exact ⟨layer_accepted_1, layer_bounds_1, by decide +kernel, by decide +kernel, by decide +kernel, by decide +kernel, by decide +kernel, values_of _ (by decide +kernel), by decide +kernel⟩

theorem witness_LayerCommandsStart_5 :
    (let s : State := queued ({ up with hmem := Mem.write (Mem.write [] 0 (desc 1 512 256)) 1024 (leBytes 8 (2 ^ 63)) }) 49 [9223372036854776832, 0]
     let src : Src := (.queue 0)
     let e : Entry := (entry 49 0 [9223372036854776832, 0])
     let c := (copied (chainChecks e (s.tookTurn src)))
     let u := (after (chainChecks e (s.tookTurn src)))
     Accepts s src 0x31 chainChecks e c u) := by
  exact accepts_of (by decide +kernel)

theorem witness_LayerCommandsStart_6 :
    (let s : State := queued ({ up with hmem := Mem.write [] 0 (leBytes 8 0x5 ++ leBytes 8 0x22) }) 50 [9223372036854775808, 2, 0]
     let src : Src := (.queue 0)
     let e : Entry := (entry 50 0 [9223372036854775808, 2, 0])
     let pb := (copied (tileChecks e (s.tookTurn src)))
     let u := (after (tileChecks e (s.tookTurn src)))
     let cores := (List.range 64).filter (e.word 2).testBit
     Accepts s src 0x32 tileChecks e pb u ∧
       (e.word 1).testBit 29 = false ∧
       cores = []) := by
  exact ⟨accepts_of (by decide +kernel), by decide +kernel⟩

theorem witness_LayerCommandsStart_7 :
    (let s : State := queued ({ up with hmem := Mem.write [] 0 (leBytes 8 0x5 ++ leBytes 8 0x22) }) 50 [9223372036854775808, 2, 9223372036854775809]
     let src : Src := (.queue 0)
     let e : Entry := (entry 50 0 [9223372036854775808, 2, 9223372036854775809])
     let pb := (copied (tileChecks e (s.tookTurn src)))
     let u := (after (tileChecks e (s.tookTurn src)))
     let cores := (List.range 64).filter (e.word 2).testBit
     Accepts s src 0x32 tileChecks e pb u ∧
       (e.word 1).testBit 29 = false ∧
       cores ≠ []) := by
  exact ⟨accepts_of (by decide +kernel), by decide +kernel⟩

theorem witness_LayerEvents :
    (let s : State := { up with doorbells := [.signal 3 none 1, .signal 5 (some 1) 7], cmds := [theCmd 0x32] }
     let i := 1
     let c := 5
     let id := 1
     let v := 7
     s.doorbells[i]? = some (.signal c (some id) v)) ∧
    (let s : State := { up with doorbells := [.list 0x8000000000], lists := [(255, some ⟨0x8000000000, none, 1000, 0, 1, false⟩)] }
     let i := 0
     let a := 0x8000000000
     let l := 255
     let w := (⟨0x8000000000, none, 1000, 0, 1, false⟩ : WorkList)
     s.doorbells[i]? = some (.list a) ∧
       (∀ x ∈ s.cmds, x.ended = true ∨ x.closing = true) ∧
       s.list l = some w ∧
       w.addr = a ∧
       w.dev = none) ∧
    (let s : State := { up with completes := [⟨5, some 1, stOk, (⟨false, true, false, true, 3, 9, 4, 0, 0, 0, true, []⟩ : DispatchReport), 4⟩], disp := [(⟨1, 5, [0x22#64], 0, [], [], [], [], [], 0, none, 1, 0, 0, none, 1, 5, false, 0, false⟩ : Dispatch)], cmds := [{ theCmd 0x32 with sum := 2 ^ 32 + 5 }] }
     let c := 5
     let id := 1
     let x := ({ theCmd 0x32 with sum := 2 ^ 32 + 5 } : Cmd)
     let d := (⟨1, 5, [0x22#64], 0, [], [], [], [], [], 0, none, 1, 0, 0, none, 1, 5, false, 0, false⟩ : Dispatch)
     let r := (⟨false, true, false, true, 3, 9, 4, 0, 0, 0, true, []⟩ : DispatchReport)
     let tm := 4
     s.completes = [⟨c, some id, stOk, r, tm⟩] ∧
       s.disp = [d] ∧
       d.cmd = id ∧
       d.phys = c ∧
       d.st = 1 ∧
       s.cmd id = some x ∧
       x.op = 0x32 ∧
       x.layer = none ∧
       x.ended = false ∧
       x.closing = false ∧
       x.stopped = false ∧
       x.status = stOk ∧
       x.lists = [] ∧
       x.acks = 0) ∧
    (let s : State := { up with completes := [⟨5, some 1, stBadField, (⟨false, true, false, true, 3, 9, 4, 0, 0, 0, true, []⟩ : DispatchReport), 4⟩], disp := [(⟨1, 5, [0x22#64], 0, [], [], [], [], [], 0, none, 1, 0, 0, none, 1, 5, false, 0, false⟩ : Dispatch)], cmds := [{ theCmd 0x32 with sum := 2 ^ 32 + 5 }] }
     let c := 5
     let id := 1
     let x := ({ theCmd 0x32 with sum := 2 ^ 32 + 5 } : Cmd)
     let d := (⟨1, 5, [0x22#64], 0, [], [], [], [], [], 0, none, 1, 0, 0, none, 1, 5, false, 0, false⟩ : Dispatch)
     let r := (⟨false, true, false, true, 3, 9, 4, 0, 0, 0, true, []⟩ : DispatchReport)
     let st := stBadField
     let tm := 4
     s.completes = [⟨c, some id, st, r, tm⟩] ∧
       st ≠ stOk ∧
       st ≠ stRangeMissFinal ∧
       s.disp = [d] ∧
       d.cmd = id ∧
       d.phys = c ∧
       d.st = 1 ∧
       s.cmd id = some x ∧
       x.op = 0x32 ∧
       x.layer = none ∧
       x.ended = false ∧
       x.closing = false ∧
       x.stopped = false ∧
       x.status = stOk ∧
       x.failed = none ∧
       x.acks = 0 ∧
       (∀ f ∈ s.fenceDue, f.1 ≠ c) ∧
       ({ s with completes := [] } : State).restage x d st (s.core c) = none) ∧
    (let s : State := { up with disp := [(⟨1, 5, [0x22#64], 0, [1#32], [], [], [], [], 0, none, 1, 0, 0, some 3, 0, 0, false, 0, false⟩ : Dispatch)], cmds := [theCmd 0x30] }
     let c := 5
     let d := (⟨1, 5, [0x22#64], 0, [1#32], [], [], [], [], 0, none, 1, 0, 0, some 3, 0, 0, false, 0, false⟩ : Dispatch)
     s.disp = [d] ∧
       d.logical = s.logicalOf c ∧
       d.held.isSome = true ∧
       d.st = 0 ∧
       s.coreSt c = 0 ∧
       s.physOf (s.logicalOf c) = some c ∧
       (s.core c).loaded = false ∧
       (s.core c).doorbell = none ∧
       (s.core c).retired = true ∧
       (s.core c).settled = true ∧
       (((s.cmd d.cmd).bind (·.layer)).map s.windowDue).getD false = false) ∧
    (let s : State := { up with cmds := [{ theCmd 0x30 with layer := some ({ desc := ((desc 1 512 256).set 0x04A 4), index := 0, bounds := [], m := 1, n := 512, k := 256, cores := 64, predicting := false, todo := [], batch := 0, obits := 0, barrier := false, plan := [], experts := [], entries := [], badEntry := false, staged := false, missed := true, rerun := false, judged := true } : Layer) }] }
     let id := 1
     let x := ({ theCmd 0x30 with layer := some ({ desc := ((desc 1 512 256).set 0x04A 4), index := 0, bounds := [], m := 1, n := 512, k := 256, cores := 64, predicting := false, todo := [], batch := 0, obits := 0, barrier := false, plan := [], experts := [], entries := [], badEntry := false, staged := false, missed := true, rerun := false, judged := true } : Layer) } : Cmd)
     let l := ({ desc := ((desc 1 512 256).set 0x04A 4), index := 0, bounds := [], m := 1, n := 512, k := 256, cores := 64, predicting := false, todo := [], batch := 0, obits := 0, barrier := false, plan := [], experts := [], entries := [], badEntry := false, staged := false, missed := true, rerun := false, judged := true } : Layer)
     s.cmd id = some x ∧
       x.layer = some l ∧
       x.op = 0x30 ∧
       x.ended = false ∧
       x.closing = false ∧
       x.stopped = false ∧
       isError x.status = false ∧
       s.dispatching id = false ∧
       l.reruns = true) ∧
    (let s : State := { up with cmds := [{ theCmd 0x30 with layer := some ({ desc := ((desc 1 512 256).set 0x004 4), index := 0, bounds := [], m := 1, n := 512, k := 256, cores := 64, predicting := false, todo := [⟨0, 0, 1, 0, 0, 0, 0⟩], batch := 0, obits := 0, barrier := false, plan := [], experts := [(0, 1)], entries := [], badEntry := false, staged := false, missed := false, rerun := false, judged := true } : Layer) }] }
     let id := 1
     let x := ({ theCmd 0x30 with layer := some ({ desc := ((desc 1 512 256).set 0x004 4), index := 0, bounds := [], m := 1, n := 512, k := 256, cores := 64, predicting := false, todo := [⟨0, 0, 1, 0, 0, 0, 0⟩], batch := 0, obits := 0, barrier := false, plan := [], experts := [(0, 1)], entries := [], badEntry := false, staged := false, missed := false, rerun := false, judged := true } : Layer) } : Cmd)
     let l := ({ desc := ((desc 1 512 256).set 0x004 4), index := 0, bounds := [], m := 1, n := 512, k := 256, cores := 64, predicting := false, todo := [⟨0, 0, 1, 0, 0, 0, 0⟩], batch := 0, obits := 0, barrier := false, plan := [], experts := [(0, 1)], entries := [], badEntry := false, staged := false, missed := false, rerun := false, judged := true } : Layer)
     let r := (⟨0, 0, 1, 0, 0, 0, 0⟩ : LTile)
     let rest := ([] : List LTile)
     let items := (rval (State.readItems l ((List.range r.ml).map (r.item + ·)) s)).1
     let st := (rval (State.readItems l ((List.range r.ml).map (r.item + ·)) s)).2
     let y := (rst (State.readItems l ((List.range r.ml).map (r.item + ·)) s))
     let a := (rval (y.stageBatch id l r))
     let z := (rst (y.stageBatch id l r))
     s.cmd id = some x ∧
       x.layer = some l ∧
       x.op = 0x30 ∧
       x.ended = false ∧
       x.closing = false ∧
       x.stopped = false ∧
       isError x.status = false ∧
       s.dispatching id = false ∧
       l.desc.routed = true ∧
       l.predicting = false ∧
       l.todo = r :: rest ∧
       State.readItems l ((List.range r.ml).map (r.item + ·)) s = .ok (items, st) y ∧
       y.stageBatch id l r = .ok a z) ∧
    (let s : State := { up with cmds := [{ theCmd 0x30 with layer := some ({ desc := (desc 1 512 256), index := 0, bounds := [], m := 1, n := 512, k := 256, cores := 64, predicting := true, todo := [], batch := 0, obits := 0, barrier := false, plan := [], experts := [], entries := [], badEntry := false, staged := false, missed := false, rerun := false, judged := true } : Layer) }] }
     let id := 1
     let x := ({ theCmd 0x30 with layer := some ({ desc := (desc 1 512 256), index := 0, bounds := [], m := 1, n := 512, k := 256, cores := 64, predicting := true, todo := [], batch := 0, obits := 0, barrier := false, plan := [], experts := [], entries := [], badEntry := false, staged := false, missed := false, rerun := false, judged := true } : Layer) } : Cmd)
     let l := ({ desc := (desc 1 512 256), index := 0, bounds := [], m := 1, n := 512, k := 256, cores := 64, predicting := true, todo := [], batch := 0, obits := 0, barrier := false, plan := [], experts := [], entries := [], badEntry := false, staged := false, missed := false, rerun := false, judged := true } : Layer)
     s.cmd id = some x ∧
       x.layer = some l ∧
       x.op = 0x30 ∧
       x.ended = false ∧
       x.closing = false ∧
       x.stopped = false ∧
       isError x.status = false ∧
       s.dispatching id = false ∧
       l.predicting = true) ∧
    (let s : State := { up with cmds := [{ theCmd 0x30 with layer := some ({ desc := (desc 1 512 256), index := 0, bounds := [], m := 1, n := 512, k := 256, cores := 64, predicting := false, todo := [⟨0, 0, 1, 0, 2, 0, 1⟩], batch := 0, obits := 0, barrier := false, plan := [], experts := [], entries := [], badEntry := false, staged := false, missed := false, rerun := false, judged := true } : Layer) }] }
     let id := 1
     let x := ({ theCmd 0x30 with layer := some ({ desc := (desc 1 512 256), index := 0, bounds := [], m := 1, n := 512, k := 256, cores := 64, predicting := false, todo := [⟨0, 0, 1, 0, 2, 0, 1⟩], batch := 0, obits := 0, barrier := false, plan := [], experts := [], entries := [], badEntry := false, staged := false, missed := false, rerun := false, judged := true } : Layer) } : Cmd)
     let l := ({ desc := (desc 1 512 256), index := 0, bounds := [], m := 1, n := 512, k := 256, cores := 64, predicting := false, todo := [⟨0, 0, 1, 0, 2, 0, 1⟩], batch := 0, obits := 0, barrier := false, plan := [], experts := [], entries := [], badEntry := false, staged := false, missed := false, rerun := false, judged := true } : Layer)
     let t0 := (⟨0, 0, 1, 0, 2, 0, 1⟩ : LTile)
     let rest := ([] : List LTile)
     let a := (rval (s.stageBatch id l t0))
     let u := (rst (s.stageBatch id l t0))
     s.cmd id = some x ∧
       x.layer = some l ∧
       x.op = 0x30 ∧
       x.ended = false ∧
       x.closing = false ∧
       x.stopped = false ∧
       isError x.status = false ∧
       l.desc.routed = false ∧
       l.predicting = false ∧
       l.reruns = false ∧
       l.todo = t0 :: rest ∧
       s.stageBatch id l t0 = .ok a u) ∧
    (let s : State := { up with preds := [(⟨3, 1024, 5, [], 0, 4, false, []⟩ : PredState)], cmds := [{ theCmd 0x30 with layer := some ({ desc := (desc 1 512 256), index := 0, bounds := [], m := 1, n := 512, k := 256, cores := 64, predicting := false, todo := [], batch := 0, obits := 0, barrier := false, plan := [], experts := [], entries := [], badEntry := false, staged := false, missed := false, rerun := false, judged := true } : Layer) }] }
     let layer := 3
     let p := (⟨3, 1024, 5, [], 0, 4, false, []⟩ : PredState)
     s.preds.find? (fun p => p.layer == layer) = some p ∧
       1024 ≤ p.inactive ∧
       (∀ x ∈ s.cmds, x.chain = [])) := by
  refine ⟨?_, ?_, ?_, ?_, ?_, ?_, ?_, ?_, ?_, ?_⟩
  · decide +kernel
  · decide +kernel
  · decide +kernel
  · decide +kernel
  · decide +kernel
  · decide +kernel
  · exact ⟨by decide +kernel, by decide +kernel, by decide +kernel, by decide +kernel, by decide +kernel, by decide +kernel, by decide +kernel, by decide +kernel, by decide +kernel, by decide +kernel, by decide +kernel, rok_eq _ (by decide +kernel), rok_eq _ (by decide +kernel)⟩
  · decide +kernel
  · exact ⟨by decide +kernel, by decide +kernel, by decide +kernel, by decide +kernel, by decide +kernel, by decide +kernel, by decide +kernel, by decide +kernel, by decide +kernel, by decide +kernel, by decide +kernel, rok_eq _ (by decide +kernel)⟩
  · decide +kernel

theorem witness_FabricAndRepairCommands :
    (let s : State := queued up 80 [0, 16383]
     let src : Src := (.queue 0)
     let e : Entry := (entry 80 0 [0, 16383])
     Accepts s src 0x50 noFields e [] (s.tookTurn src)) ∧
    (let s : State := queued ({ { (up.setReg PWR_ROPE_STAT 5#32) with rope := { up.rope with joinAt := some 0 } } with hmem := Mem.write [] 0 (leBytes 2 0 ++ leBytes 2 3) }) 82 [5, 9223372036854775808, 1]
     let src : Src := (.queue 0)
     let e : Entry := (entry 82 0 [5, 9223372036854775808, 1])
     let b := (copied (ropeJoinChecks e (s.tookTurn src)))
     let u := (after (ropeJoinChecks e (s.tookTurn src)))
     Accepts s src 0x52 ropeJoinChecks e b u ∧
       (u.isMember = true ∨ u.joining = true)) ∧
    (let s : State := queued ({ (up.setReg FAB_ID 3#32) with hmem := Mem.write [] 0 (leBytes 2 1 ++ leBytes 2 3 ++ leBytes 2 9) }) 82 [65535, 9223372036854775808, 2]
     let src : Src := (.queue 0)
     let e : Entry := (entry 82 0 [65535, 9223372036854775808, 2])
     let b := (copied (ropeJoinChecks e (s.tookTurn src)))
     let u := (after (ropeJoinChecks e (s.tookTurn src)))
     let l := (List.range (b.length / 2)).map (fun i => leNat ((b.drop (2 * i)).take 2))
     Accepts s src 0x52 ropeJoinChecks e b u ∧
       u.isMember = false ∧
       u.joining = false ∧
       lowestId l ≠ u.devId) ∧
    (let s : State := queued (up.setReg PWR_ROPE_STAT 0x80010005#32) 83 [5]
     let src : Src := (.queue 0)
     let e : Entry := (entry 83 0 [5])
     Accepts s src 0x53 noFields e [] (s.tookTurn src) ∧
       s.ropeId = e.word 0 % 2 ^ 16 ∧
       s.isMember = true ∧
       s.joining = false) ∧
    (let s : State := queued up 84 [31]
     let src : Src := (.queue 0)
     let e : Entry := (entry 84 0 [31])
     let p := e.word 0 % 32
     Accepts s src 0x54 noFields e [] (s.tookTurn src) ∧
       (s.reg (PORT_CTRL p)).getLsbD 0 = true) ∧
    (let s : State := queued (up.setReg (PORT_CTRL 31) 0#32) 84 [31]
     let src : Src := (.queue 0)
     let e : Entry := (entry 84 0 [31])
     let p := e.word 0 % 32
     Accepts s src 0x54 noFields e [] (s.tookTurn src) ∧
       (s.reg (PORT_CTRL p)).getLsbD 0 = false) ∧
    (let s : State := queued ((upIn devMaint).modCore 64 (fun k => { k with repairs := [(⟨0, 5000⟩ : RepairCand)] })) 97 [257]
     let src : Src := (.queue 0)
     let e : Entry := (entry 97 0 [257])
     let ck := (fields (fun (e : Entry) (s : State) => [okField 0 0 (e.word 0 % 4 != 3), okField 0 2 (match e.word 0 % 4 with | 1 => decide (e.word 0 / 4 % 128 < 72) && s.coreSt (e.word 0 / 4 % 128) == 0 | 2 => decide (e.word 0 / 4 % 128 < 2) | _ => true)]))
     let c := e.word 0 / 4 % 128
     let r := (⟨0, 5000⟩ : RepairCand)
     Accepts s src 0x61 ck e [] (s.tookTurn src) ∧
       (∀ x ∈ s.cmds, x.op ≠ 0x61 ∨ x.ended = true) ∧
       e.word 0 % 4 = 1 ∧
       (s.core c).quiet = true ∧
       (s.core c).repairs = [r] ∧
       (s.core c).repairsIn r.kind r.place < fusedSpares r.kind ∧ s.fieldRepairs < 1024) ∧
    (let s : State := queued ({ ((upIn devMaint).modCore 64 (fun k => { k with repairs := [(⟨0, 5000⟩ : RepairCand)] })) with fieldRepairs := 1024 }) 97 [257]
     let src : Src := (.queue 0)
     let e : Entry := (entry 97 0 [257])
     let ck := (fields (fun (e : Entry) (s : State) => [okField 0 0 (e.word 0 % 4 != 3), okField 0 2 (match e.word 0 % 4 with | 1 => decide (e.word 0 / 4 % 128 < 72) && s.coreSt (e.word 0 / 4 % 128) == 0 | 2 => decide (e.word 0 / 4 % 128 < 2) | _ => true)]))
     let c := e.word 0 / 4 % 128
     let r := (⟨0, 5000⟩ : RepairCand)
     Accepts s src 0x61 ck e [] (s.tookTurn src) ∧
       (∀ x ∈ s.cmds, x.op ≠ 0x61 ∨ x.ended = true) ∧
       e.word 0 % 4 = 1 ∧
       (s.core c).quiet = true ∧
       (s.core c).repairs = [r] ∧
       (¬ ((s.core c).repairsIn r.kind r.place < fusedSpares r.kind ∧ s.fieldRepairs < 1024))) ∧
    (let s : State := queued ((upIn devMaint).setReg (MEM_LDG_STAT 1) 7#32) 97 [15878]
     let src : Src := (.queue 0)
     let e : Entry := (entry 97 0 [15878])
     let ck := (fields (fun (e : Entry) (s : State) => [okField 0 0 (e.word 0 % 4 != 3), okField 0 2 (match e.word 0 % 4 with | 1 => decide (e.word 0 / 4 % 128 < 72) && s.coreSt (e.word 0 / 4 % 128) == 0 | 2 => decide (e.word 0 / 4 % 128 < 2) | _ => true)]))
     let c := e.word 0 / 4 % 128
     Accepts s src 0x61 ck e [] (s.tookTurn src) ∧
       (∀ x ∈ s.cmds, x.op ≠ 0x61 ∨ x.ended = true) ∧
       e.word 0 % 4 = 2 ∧
       (∀ i < 36, (s.core (c * 36 + i)).loaded = false) ∧
       s.fld (MEM_LDG_STAT c) 3 0 ≠ 0 ∧
       s.fieldRepairs < 1024 ∧
       s.ledgeErr = []) := by
  refine ⟨?_, ?_, ?_, ?_, ?_, ?_, ?_, ?_, ?_⟩
  · exact accepts_of (by decide +kernel)
  · exact ⟨accepts_of (by decide +kernel), by decide +kernel⟩
  · exact ⟨accepts_of (by decide +kernel), by decide +kernel⟩
  · exact ⟨accepts_of (by decide +kernel), by decide +kernel⟩
  · exact ⟨accepts_of (by decide +kernel), by decide +kernel⟩
  · exact ⟨accepts_of (by decide +kernel), by decide +kernel⟩
  · exact ⟨accepts_of (by decide +kernel), by decide +kernel⟩
  · exact ⟨accepts_of (by decide +kernel), by decide +kernel⟩
  · exact ⟨accepts_of (by decide +kernel), by decide +kernel⟩

theorem witness_PrivatePairs :
    (let s : State := up
     Writes s .bmc GLB_BMC_CTRL 1 1 ∧
       s.bmcSq.length < 15) ∧
    (let s : State := { up with bmcSq := List.replicate 15 [] }
     Writes s .bmc GLB_BMC_CTRL 1 1 ∧
       15 ≤ s.bmcSq.length) ∧
    (let s : State := { up with bmcCq := [[1],[2]] }
     Writes s .bmc GLB_BMC_CTRL 2 2) ∧
    (let s : State := up
     let a := .mp
     a ≠ .bmc ∧
       s.pathOpen a = true) ∧
    (let s : State := up
     let req : List Byte := (leBytes 1 1 ++ leBytes 1 2 ++ leBytes 2 65535 ++ leBytes 4 0x20 ++ List.replicate 8 0)
     s.usbOpen = true ∧
       reqType req = 1 ∧
       reqOk req = true) ∧
    (let s : State := up
     let req : List Byte := (leBytes 1 1 ++ leBytes 1 65 ++ leBytes 2 65535 ++ leBytes 4 0x20 ++ List.replicate 8 0)
     s.usbOpen = true ∧
       reqType req = 1 ∧
       reqOk req = false) ∧
    (let s : State := up
     let req : List Byte := (leBytes 1 2 ++ leBytes 1 1 ++ leBytes 2 7 ++ leBytes 4 0x100000 ++ List.replicate 8 0 ++ leBytes 4 7)
     s.usbOpen = true ∧
       reqType req = 2 ∧
       reqOk req = true ∧
       reqCount req = 1) ∧
    (let s : State := up
     let req : List Byte := (leBytes 1 3 ++ leBytes 1 0 ++ leBytes 2 7 ++ List.replicate 12 0 ++ List.replicate 64 9)
     s.usbOpen = true ∧
       reqType req = 3 ∧
       reqOk req = true ∧
       s.usbSq.length < 15) ∧
    (let s : State := { up with usbSq := List.replicate 15 [] }
     let req : List Byte := (leBytes 1 3 ++ leBytes 1 0 ++ leBytes 2 7 ++ List.replicate 12 0 ++ List.replicate 64 9)
     s.usbOpen = true ∧
       reqType req = 3 ∧
       reqOk req = true ∧
       15 ≤ s.usbSq.length) := by
  refine ⟨?_, ?_, ?_, ?_, ?_, ?_, ?_, ?_, ?_⟩
  · exact ⟨writes_of (by decide +kernel), by decide +kernel⟩
  · exact ⟨writes_of (by decide +kernel), by decide +kernel⟩
  · exact writes_of (by decide +kernel)
  · decide +kernel
  · decide +kernel
  · decide +kernel
  · decide +kernel
  · decide +kernel
  · decide +kernel

theorem witness_MailboxChannels :
    (let s : State := up
     let a : Agent := .bmc
     let ch : Nat := 9
     ch < 10 ∧
       agentNo a < 16 ∧
       s.reads a (MBX_LOCK ch) = true ∧
       s.mbxSt ch = mbxFree) ∧
    (let s : State := (up.setReg (MBX_STAT 9) 0x11000000#32)
     let a : Agent := .bmc
     let ch : Nat := 9
     ch < 10 ∧
       agentNo a < 16 ∧
       s.reads a (MBX_LOCK ch) = true ∧
       s.mbxSt ch ≠ mbxFree) ∧
    (let s : State := (up.setReg (MBX_STAT 0) 0x11000000#32)
     let a : Agent := .host
     let ch : Nat := 0
     ch < 10 ∧
       agentNo a < 16 ∧
       Writes s a (MBX_LOCK ch) 0 0 ∧
       s.mbxOwner ch = agentNo a) ∧
    (let s : State := up
     let a : Agent := .host
     let ch : Nat := 0
     ch < 10 ∧
       agentNo a < 16 ∧
       Writes s a (MBX_LOCK ch) 0 0 ∧
       s.mbxOwner ch ≠ agentNo a) ∧
    (let s : State := (up.setReg (MBX_STAT 7) 0x21070000#32)
     let a : Agent := .mp
     let ch : Nat := 7
     let v : W32 := 0xFFFFFFFF#32
     let u : W32 := 0xFFFFFFFF#32
     let i := 15
     let mine : Prop := ((s.mbxSt ch = mbxLocked ∨ s.mbxSt ch = mbxAcked) ∧ s.mbxOwner ch = agentNo a) ∨ (s.mbxSt ch = mbxSent ∧ s.mbxDest ch = agentNo a)
     ch < 10 ∧
       agentNo a < 16 ∧
       i < 16 ∧
       Writes s a (MBX_DATA ch i) v u ∧
       mine) ∧
    (let s : State := (up.setReg (MBX_STAT 7) 0x00000000#32)
     let a : Agent := .usb
     let ch : Nat := 7
     let v : W32 := 0xFFFFFFFF#32
     let u : W32 := 0xFFFFFFFF#32
     let i := 15
     let mine : Prop := ((s.mbxSt ch = mbxLocked ∨ s.mbxSt ch = mbxAcked) ∧ s.mbxOwner ch = agentNo a) ∨ (s.mbxSt ch = mbxSent ∧ s.mbxDest ch = agentNo a)
     ch < 10 ∧
       agentNo a < 16 ∧
       i < 16 ∧
       Writes s a (MBX_DATA ch i) v u ∧
       ¬ mine ∧
       (¬ (s.mbxSt ch = mbxTimedOut ∧ s.mbxDest ch = agentNo a))) ∧
    (let s : State := (up.setReg (MBX_STAT 7) 0x19000000#32)
     let a : Agent := .bmc
     let ch : Nat := 7
     let v : W32 := 0x00020010#32
     let u : W32 := 0x00020010#32
     let dest := regField u 19 16
     let len := regField u 6 0
     let op := entryNat (s.mbxBytes ch) 0 1
     ch < 10 ∧
       agentNo a < 16 ∧
       Writes s a (MBX_SEND ch) v u ∧
       s.mbxSt ch = mbxLocked ∧
       s.mbxOwner ch = agentNo a ∧
       1 ≤ dest ∧
       dest ≤ 9 ∧
       1 ≤ len ∧
       len ≤ 64 ∧
       (ch < 8 ∨ dest = 7) ∧
       s.mbxDead dest = false ∧
       (ch < 8 ∨ op ∈ secureOps)) ∧
    (let s : State := (up.setReg (MBX_STAT 8) 0x11000000#32)
     let a : Agent := .host
     let ch : Nat := 8
     let v : W32 := 0x00070040#32
     let u : W32 := 0x00070040#32
     let dest := regField u 19 16
     let len := regField u 6 0
     let op := entryNat (s.mbxBytes ch) 0 1
     ch < 10 ∧
       agentNo a < 16 ∧
       Writes s a (MBX_SEND ch) v u ∧
       s.mbxSt ch = mbxLocked ∧
       s.mbxOwner ch = agentNo a ∧
       1 ≤ dest ∧
       dest ≤ 9 ∧
       1 ≤ len ∧
       len ≤ 64 ∧
       (ch < 8 ∨ dest = 7) ∧
       s.mbxDead dest = false ∧
       8 ≤ ch ∧
       op ∉ secureOps) ∧
    (let s : State := ({ up with pcieUp := false }.setReg (MBX_STAT 0) 0x18000000#32)
     let a : Agent := .usb
     let ch : Nat := 0
     let v : W32 := 0x00010010#32
     let u : W32 := 0x00010010#32
     let dest := regField u 19 16
     let len := regField u 6 0
     ch < 10 ∧
       agentNo a < 16 ∧
       Writes s a (MBX_SEND ch) v u ∧
       s.mbxSt ch = mbxLocked ∧
       s.mbxOwner ch = agentNo a ∧
       1 ≤ dest ∧
       dest ≤ 9 ∧
       1 ≤ len ∧
       len ≤ 64 ∧
       (ch < 8 ∨ dest = 7) ∧
       s.mbxDead dest = true) ∧
    (let s : State := (up.setReg (MBX_STAT 0) 0x11000000#32)
     let a : Agent := .host
     let ch : Nat := 0
     let v : W32 := 0x00000041#32
     let u : W32 := 0x00000041#32
     let dest := regField u 19 16
     let len := regField u 6 0
     ch < 10 ∧
       agentNo a < 16 ∧
       Writes s a (MBX_SEND ch) v u ∧
       s.mbxSt ch = mbxLocked ∧
       s.mbxOwner ch = agentNo a ∧
       ch < 8 ∧
       (¬ (1 ≤ dest ∧ dest ≤ 9 ∧ 1 ≤ len ∧ len ≤ 64))) ∧
    (let s : State := (up.setReg (MBX_STAT 9) 0x18000000#32)
     let a : Agent := .usb
     let ch : Nat := 9
     let v : W32 := 0x00010010#32
     let u : W32 := 0x00010010#32
     let dest := regField u 19 16
     ch < 10 ∧
       agentNo a < 16 ∧
       Writes s a (MBX_SEND ch) v u ∧
       s.mbxSt ch = mbxLocked ∧
       s.mbxOwner ch = agentNo a ∧
       8 ≤ ch ∧
       dest ≠ 7) ∧
    (let s : State := (up.setReg (MBX_STAT 0) 0x11000000#32)
     let a : Agent := .mp
     let ch : Nat := 0
     let v : W32 := 0x00090010#32
     let u : W32 := 0x00090010#32
     ch < 10 ∧
       agentNo a < 16 ∧
       Writes s a (MBX_SEND ch) v u ∧
       (s.mbxSt ch ≠ mbxLocked ∨ s.mbxOwner ch ≠ agentNo a)) ∧
    (let s : State := (up.setReg (MBX_STAT 0) 0x21070000#32)
     let a : Agent := .mp
     let ch : Nat := 0
     let v : W32 := 0x00000540#32
     let u : W32 := 0x00000540#32
     ch < 10 ∧
       agentNo a < 16 ∧
       Writes s a (MBX_ACK ch) v u ∧
       s.mbxDest ch = agentNo a ∧
       s.mbxSt ch = mbxSent ∧
       regField u 6 0 ≤ 64) ∧
    (let s : State := (up.setReg (MBX_STAT 0) 0x41070000#32)
     let a : Agent := .mp
     let ch : Nat := 0
     let v : W32 := 0x00000540#32
     let u : W32 := 0x00000540#32
     ch < 10 ∧
       agentNo a < 16 ∧
       Writes s a (MBX_ACK ch) v u ∧
       s.mbxDest ch = agentNo a ∧
       s.mbxSt ch = mbxTimedOut) ∧
    (let s : State := (up.setReg (MBX_STAT 9) 0x21070001#32).setReg (MBX_TMO 9) 5#32
     let a : Agent := .mp
     let ch : Nat := 9
     ch < 10 ∧
       agentNo a < 16 ∧
       s.mbxSt ch = mbxSent ∧
       s.fld (MBX_TMO ch) 15 0 ≠ 0) := by
  refine ⟨?_, ?_, ?_, ?_, ?_, ?_, ?_, ?_, ?_, ?_, ?_, ?_, ?_, ?_, ?_⟩
  · decide +kernel
  · decide +kernel
  · exact ⟨by decide +kernel, by decide +kernel, writes_of (by decide +kernel), by decide +kernel⟩
  · exact ⟨by decide +kernel, by decide +kernel, writes_of (by decide +kernel), by decide +kernel⟩
  · exact ⟨by decide +kernel, by decide +kernel, by decide +kernel, writes_of (by decide +kernel), by decide +kernel⟩
  · exact ⟨by decide +kernel, by decide +kernel, by decide +kernel, writes_of (by decide +kernel), by decide +kernel⟩
  · exact ⟨by decide +kernel, by decide +kernel, writes_of (by decide +kernel), by decide +kernel⟩
  · exact ⟨by decide +kernel, by decide +kernel, writes_of (by decide +kernel), by decide +kernel⟩
  · exact ⟨by decide +kernel, by decide +kernel, writes_of (by decide +kernel), by decide +kernel⟩
  · exact ⟨by decide +kernel, by decide +kernel, writes_of (by decide +kernel), by decide +kernel⟩
  · exact ⟨by decide +kernel, by decide +kernel, writes_of (by decide +kernel), by decide +kernel⟩
  · exact ⟨by decide +kernel, by decide +kernel, writes_of (by decide +kernel), by decide +kernel⟩
  · exact ⟨by decide +kernel, by decide +kernel, writes_of (by decide +kernel), by decide +kernel⟩
  · exact ⟨by decide +kernel, by decide +kernel, writes_of (by decide +kernel), by decide +kernel⟩
  · decide +kernel

theorem witness_AtomicUnits :
    (let s : State := { { up with slices := [(0, [⟨1, false, false, 3⟩])] } with atoms := [(⟨72, .cas64, false, false, 5, 0, .core 0 7, 3⟩ : AtomReq)] }
     let r : AtomReq := (⟨72, .cas64, false, false, 5, 0, .core 0 7, 3⟩ : AtomReq)
     let rest : List AtomReq := ([] : List AtomReq)
     let c : Nat := 0
     let id : Nat := 7
     let n := atomBytes r.op r.tw
     let sl := 0
     let e := (⟨1, false, false, 3⟩ : SliceRow)
     s.atoms = r :: rest ∧
       r.src = .core c id ∧
       s.sliceOf r.addr = some sl ∧
       r.addr % n = 0 ∧
       (s.slice sl).find? (fun y => y.row == r.addr / 64) = some e ∧
       (∀ y ∈ s.slice sl, y.row = r.addr / 64 → y.filling = false) ∧
       Clean s r.addr n) ∧
    (let s : State := { up with atoms := [(⟨72, .cas64, false, false, 5, 0, .core 0 7, 3⟩ : AtomReq)] }
     let r : AtomReq := (⟨72, .cas64, false, false, 5, 0, .core 0 7, 3⟩ : AtomReq)
     let rest : List AtomReq := ([] : List AtomReq)
     let c : Nat := 0
     let id : Nat := 7
     let n := atomBytes r.op r.tw
     let sl := 0
     s.atoms = r :: rest ∧
       r.src = .core c id ∧
       s.sliceOf r.addr = some sl ∧
       r.addr % n = 0 ∧
       (∀ y ∈ s.slice sl, y.row ≠ r.addr / 64) ∧
       (s.slice sl).length < 64) ∧
    (let s : State := { { up with slices := [(3, [⟨9, false, true, 3⟩])] } with atoms := [(⟨64, .add32, false, false, 5, 0, .core 0 7, 3⟩ : AtomReq)] }
     let r : AtomReq := (⟨64, .add32, false, false, 5, 0, .core 0 7, 3⟩ : AtomReq)
     let rest : List AtomReq := ([] : List AtomReq)
     let c : Nat := 0
     let id : Nat := 7
     let sl := 3
     let e := (⟨9, false, true, 3⟩ : SliceRow)
     s.atoms = r :: rest ∧
       r.src = .core c id ∧
       (s.slice sl).find? (·.filling) = some e ∧
       Clean s (64 * e.row) 64) ∧
    (let s : State := { { up with slices := [(3, [⟨9, true, false, 3⟩])] } with atoms := [(⟨64, .add32, false, false, 5, 0, .core 0 7, 3⟩ : AtomReq)] }
     let r : AtomReq := (⟨64, .add32, false, false, 5, 0, .core 0 7, 3⟩ : AtomReq)
     let rest : List AtomReq := ([] : List AtomReq)
     let c : Nat := 0
     let id : Nat := 7
     let sl := 3
     let row := 9
     let e := (⟨9, true, false, 3⟩ : SliceRow)
     s.atoms = r :: rest ∧
       r.src = .core c id ∧
       (s.slice sl).find? (fun y => y.row == row && y.written && !y.filling) = some e) ∧
    (let s : State := { up with atoms := [(⟨549755813888, .add64, false, false, 5, 0, .core 0 7, 3⟩ : AtomReq)] }
     let r : AtomReq := (⟨549755813888, .add64, false, false, 5, 0, .core 0 7, 3⟩ : AtomReq)
     let rest : List AtomReq := ([] : List AtomReq)
     let c : Nat := 0
     let id : Nat := 7
     let n := atomBytes r.op r.tw
     let die := 0
     let bank := 0
     s.atoms = r :: rest ∧
       r.src = .core c id ∧
       r.op ≠ .tset ∧
       s.ledgeBank r.addr = some (die, bank) ∧
       r.addr % n = 0 ∧
       Clean s r.addr n) ∧
    (let s : State := { { up with dmem := Mem.write (Mem.write [] 0x8000000000 (leBytes 4 0 ++ leBytes 4 1 ++ leBytes 4 0 ++ leBytes 4 3 ++ leBytes 8 0x8000001000)) 0x8000001000 [0] } with atoms := [(⟨549755813888, .tset, false, false, 0, 0, .core 0 7, 3⟩ : AtomReq)] }
     let r : AtomReq := (⟨549755813888, .tset, false, false, 0, 0, .core 0 7, 3⟩ : AtomReq)
     let rest : List AtomReq := ([] : List AtomReq)
     let c : Nat := 0
     let id : Nat := 7
     let die := 0
     let bank := 0
     let word (o : Nat) : Nat := leNat (Mem.read s.dmem (r.addr + o) 4)
     let bits := (Mem.byte s.dmem (s.tsetByte r)).toNat
     s.atoms = r :: rest ∧
       r.src = .core c id ∧
       r.op = .tset ∧
       s.ledgeBank (s.tsetByte r) = some (die, bank) ∧
       s.ledgeBank r.addr ≠ none ∧
       r.addr % 64 = 0 ∧
       Clean s r.addr 64 ∧
       Clean s (s.tsetByte r) 1 ∧
       r.operand < word 4 ∧
       bits.testBit (r.operand % 8) = false) ∧
    (let s : State := { { up with dmem := Mem.write (Mem.write [] 0x8000000000 (leBytes 4 0 ++ leBytes 4 100 ++ leBytes 4 0 ++ leBytes 4 3 ++ leBytes 8 0x8000001000)) 0x8000001001 [2] } with atoms := [(⟨549755813888, .tset, false, false, 9, 0, .core 0 7, 3⟩ : AtomReq)] }
     let r : AtomReq := (⟨549755813888, .tset, false, false, 9, 0, .core 0 7, 3⟩ : AtomReq)
     let rest : List AtomReq := ([] : List AtomReq)
     let c : Nat := 0
     let id : Nat := 7
     let die := 0
     let bank := 0
     let bits := (Mem.byte s.dmem (s.tsetByte r)).toNat
     s.atoms = r :: rest ∧
       r.src = .core c id ∧
       r.op = .tset ∧
       s.ledgeBank (s.tsetByte r) = some (die, bank) ∧
       s.ledgeBank r.addr ≠ none ∧
       r.addr % 64 = 0 ∧
       Clean s r.addr 64 ∧
       Clean s (s.tsetByte r) 1 ∧
       bits.testBit (r.operand % 8) = true) ∧
    (let s : State := { { up with slices := [(0, [⟨1, false, false, 3⟩])], rowErr := [(1, 3#64)] } with atoms := [(⟨64, .add32, false, false, 5, 0, .core 0 7, 3⟩ : AtomReq)] }
     let r : AtomReq := (⟨64, .add32, false, false, 5, 0, .core 0 7, 3⟩ : AtomReq)
     let rest : List AtomReq := ([] : List AtomReq)
     let c : Nat := 0
     let id : Nat := 7
     let sl := 0
     let e := (⟨1, false, false, 3⟩ : SliceRow)
     s.atoms = r :: rest ∧
       r.src = .core c id ∧
       s.sliceOf r.addr = some sl ∧
       (s.slice sl).find? (fun y => y.row == r.addr / 64) = some e ∧
       (∀ y ∈ s.slice sl, y.row = r.addr / 64 → y.filling = false) ∧
       s.rowBad (r.addr / 64) = true ∧
       (∀ y ∈ rest, y.addr / 64 ≠ r.addr / 64)) := by
  refine ⟨?_, ?_, ?_, ?_, ?_, ?_, ?_, ?_⟩
  · decide +kernel
  · decide +kernel
  · decide +kernel
  · decide +kernel
  · decide +kernel
  · decide +kernel
  · decide +kernel
  · decide +kernel

theorem witness_EnginesAndDrivesMove :
    (let s : State := { up with rings := [(31, (⟨1, 0, 9223372036854775808, 9223372036854784000, 4096, 147465, 0x0807060504030201, 0, 0, 0, 0, 0, 1, 0, 0, false⟩ : Seg) :: ([] : List Seg))], cmds := [theCmd 0x13] }
     let e : Nat := 31
     let g := (⟨1, 0, 9223372036854775808, 9223372036854784000, 4096, 147465, 0x0807060504030201, 0, 0, 0, 0, 0, 1, 0, 0, false⟩ : Seg)
     let gs := ([] : List Seg)
     let from' := 0
     let to' := 8192
     s.ringOf e = g :: gs ∧
       s.pcieUp = true ∧
       s.busMaster = true ∧
       g.kind = 0 ∧
       (convOf g.conv).action = some .copy ∧
       placeOf (g.src + 4096 * (g.first + g.done)) = .host from' ∧
       placeOf (g.dst + 4096 * (g.first + g.done)) = .host to' ∧
       .engine e ∉ s.badWords) ∧
    (let s : State := { up with rings := [(31, (⟨1, 1, 0, 9223372036854784000, 4096, 147465, 0x0807060504030201, 0, 0, 0, 0, 0, 1, 0, 0, false⟩ : Seg) :: ([] : List Seg))], cmds := [theCmd 0x13] }
     let e : Nat := 31
     let g := (⟨1, 1, 0, 9223372036854784000, 4096, 147465, 0x0807060504030201, 0, 0, 0, 0, 0, 1, 0, 0, false⟩ : Seg)
     let gs := ([] : List Seg)
     let to' := 8192
     s.ringOf e = g :: gs ∧
       s.pcieUp = true ∧
       s.busMaster = true ∧
       g.kind = 1 ∧
       placeOf (g.dst + 4096 * (g.first + g.done)) = .host to' ∧
       .engine e ∉ s.badWords) ∧
    (let s : State := { up with driveCmds := [(⟨3, 6, 8192, false, false, 1, 9⟩ : DriveCmd), (⟨2, 5, 4096, false, false, 1, 9⟩ : DriveCmd)], cmds := [(theCmd 0x15)], drives := [0,1,2,3] }
     let d := 2
     let x := (⟨2, 5, 4096, false, false, 1, 9⟩ : DriveCmd)
     let rest := [(⟨3, 6, 8192, false, false, 1, 9⟩ : DriveCmd)]
     let at' := s.diskAddr ((x.page - 0x40000000000) / 4096)
     let t0 := ()
     let y := (rst (({ s with driveCmds := rest } : State).devWrite x.addr (Mem.read s.disks at' 4096)))
     takeDrive d s.driveCmds = some (x, rest) ∧
       x.flush = false ∧
       rest.any (fun z => z.cmd == x.cmd) = true ∧
       x.write = false ∧
       ({ s with driveCmds := rest } : State).devWrite x.addr (Mem.read s.disks at' 4096) = .ok t0 y ∧
       (s.addrKind x.addr = .tier1 ∨ s.addrKind x.addr = .tier2)) ∧
    (let s : State := { up with driveCmds := [(⟨3, 6, 8192, false, false, 1, 9⟩ : DriveCmd), (⟨2, 4398046523392, 4096, true, false, 1, 9⟩ : DriveCmd)], cmds := [{ theCmd 0x15 with members := [2, 3] }], drives := [0,1,2,3] }
     let d := 2
     let x := (⟨2, 4398046523392, 4096, true, false, 1, 9⟩ : DriveCmd)
     let rest := [(⟨3, 6, 8192, false, false, 1, 9⟩ : DriveCmd)]
     let bs := (rval (({ s with driveCmds := rest } : State).devRead x.addr 4096))
     let y := (rst (({ s with driveCmds := rest } : State).devRead x.addr 4096))
     takeDrive d s.driveCmds = some (x, rest) ∧
       x.flush = false ∧
       rest.any (fun z => z.cmd == x.cmd) = true ∧
       x.write = true ∧
       ({ s with driveCmds := rest } : State).devRead x.addr 4096 = .ok bs y ∧
       (s.addrKind x.addr = .tier1 ∨ s.addrKind x.addr = .tier2)) ∧
    (let s : State := { up with driveCmds := [(⟨3, 6, 8192, false, false, 1, 9⟩ : DriveCmd), (⟨2, 5, 4096, false, false, 1, 9⟩ : DriveCmd)], cmds := [(theCmd 0x15)], drives := [0,1,2,3] }
     let d := 2
     let x := (⟨2, 5, 4096, false, false, 1, 9⟩ : DriveCmd)
     let rest := [(⟨3, 6, 8192, false, false, 1, 9⟩ : DriveCmd)]
     takeDrive d s.driveCmds = some (x, rest)) ∧
    (let s : State := { (up.setReg MEM_T3_TMO 7#32) with driveCmds := [(⟨3, 6, 8192, false, false, 1, 9⟩ : DriveCmd), (⟨2, 5, 4096, false, false, 1, 9⟩ : DriveCmd)], cmds := [(theCmd 0x15)], drives := [0,1,2,3] }
     let d := 2
     let x := (⟨2, 5, 4096, false, false, 1, 9⟩ : DriveCmd)
     let rest := [(⟨3, 6, 8192, false, false, 1, 9⟩ : DriveCmd)]
     takeDrive d s.driveCmds = some (x, rest) ∧
       s.fld MEM_T3_TMO 15 0 ≠ 0) ∧
    (let s : State := { (up.setReg MEM_T3_STAT 0x01000000#32) with driveCmds := [(⟨3, 6, 8192, false, false, 1, 9⟩ : DriveCmd), (⟨2, 5, 4096, false, false, 1, 9⟩ : DriveCmd)], cmds := [theCmd 0x15], drives := [0,1,2,3] }
     let d := 3
     d < 4 ∧
       (s.reg MEM_T3_STAT).getLsbD (8 * d) = true ∧
       s.driveFailed d = false) ∧
    (let s : State := (up.setReg CMDQ_WIN 2#32)
     s.pathOpen .host = true ∧
       4 ≤ s.bootStep ∧
       s.winOk = false) ∧
    (let s : State := up
     let x := 0
     let data : List Byte := [1,2,3,4]
     let a := s.fld CMDQ_WIN 11 0 * 2 ^ 36 + x
     s.pathOpen .host = true ∧
       4 ≤ s.bootStep ∧
       s.winOk = true ∧
       x + data.length ≤ 2 ^ 36 ∧
       s.atomFirst a data.length = false ∧
       Clean s a data.length) ∧
    (let s : State := up
     let x := 0
     let n := 4
     let a := s.fld CMDQ_WIN 11 0 * 2 ^ 36 + x
     s.pathOpen .host = true ∧
       4 ≤ s.bootStep ∧
       s.winOk = true ∧
       x + n ≤ 2 ^ 36 ∧
       s.atomFirst a n = false ∧
       Clean s a n) ∧
    (let s : State := { up with rings := [(31, [(⟨1, 0, 9223372036854775808, 9223372036854784000, 4096, 147465, 0x0807060504030201, 0, 0, 0, 0, 0, 1, 0, 0, false⟩ : Seg)])], badWords := [.engine 31, .engine 3], cmds := [theCmd 0x13] }
     let e : Nat := 31
     let g := (⟨1, 0, 9223372036854775808, 9223372036854784000, 4096, 147465, 0x0807060504030201, 0, 0, 0, 0, 0, 1, 0, 0, false⟩ : Seg)
     let gs := ([] : List Seg)
     s.ringOf e = g :: gs ∧
       .engine e ∈ s.badWords ∧
       g.again = false ∧
       s.backlog = [] ∧
       (s.ringOf ((e + 1) % 32)).length < 16) := by
  refine ⟨?_, ?_, ?_, ?_, ?_, ?_, ?_, ?_, ?_, ?_, ?_⟩
  · decide +kernel
  · decide +kernel
  · exact ⟨by decide +kernel, by decide +kernel, by decide +kernel, by decide +kernel, rok_unit _ (by decide +kernel), by decide +kernel⟩
  · exact ⟨by decide +kernel, by decide +kernel, by decide +kernel, by decide +kernel, rok_eq _ (by decide +kernel), by decide +kernel⟩
  · decide +kernel
  · decide +kernel
  · decide +kernel
  · decide +kernel
  · decide +kernel
  · decide +kernel
  · decide +kernel

theorem witness_MonitorChannels :
    (let s : State := up
     let a : Agent := .mp
     let ch : Nat := 31
     let v : W32 := 0x80000001#32
     let u : W32 := 0x80000001#32
     let on := (s.reg (TEL_CH_CFG ch)).getLsbD 31
     ch < 32 ∧
       Writes s a (TEL_CH_CFG ch) v u ∧
       u.getLsbD 30 = false ∧
       on = false ∧
       (u.getLsbD 31 = false ∨ s.edgesRise ch = true)) ∧
    (let s : State := (up.setReg (TEL_CH_EDGE 31 0) 5#32)
     let a : Agent := .mp
     let ch : Nat := 31
     let v : W32 := 0x80000001#32
     let u : W32 := 0x80000001#32
     let on := (s.reg (TEL_CH_CFG ch)).getLsbD 31
     ch < 32 ∧
       Writes s a (TEL_CH_CFG ch) v u ∧
       u.getLsbD 30 = false ∧
       on = false ∧
       u.getLsbD 31 = true ∧
       s.edgesRise ch = false) ∧
    (let s : State := (up.setReg (TEL_CH_CFG 31) 0x80000001#32)
     let a : Agent := .mp
     let ch : Nat := 31
     let v : W32 := 0x00000001#32
     let u : W32 := 0x00000001#32
     let on := (s.reg (TEL_CH_CFG ch)).getLsbD 31
     ch < 32 ∧
       Writes s a (TEL_CH_CFG ch) v u ∧
       u.getLsbD 30 = false ∧
       on = true ∧
       u.getLsbD 31 = false) ∧
    (let s : State := up
     let a : Agent := .host
     let ch : Nat := 31
     ch < 32 ∧
       Writes s a (TEL_CH_CFG ch) 0x40000000#32 0x40000000#32) ∧
    (let s : State := up.setTel 31 ⟨3, 2 ^ 40, 5, List.replicate 16 7⟩
     let a : Agent := .bmc
     let ch : Nat := 31
     let v : W32 := 0x80000000#32
     let u : W32 := 0x80000000#32
     ch < 32 ∧
       Writes s a TEL_SNAP v u ∧
       u.toNat.testBit ch = true) ∧
    (let s : State := (up.violation 15 0).violation 14 0
     let a : Agent := .host
     let ch : Nat := 0
     let v : W32 := 0x8000#32
     let u : W32 := 0x8000#32
     let c := 0
     ch < 32 ∧
       Writes s a RAS_VIOL_CLR v u ∧
       c < 16) := by
  refine ⟨?_, ?_, ?_, ?_, ?_, ?_⟩
  · exact ⟨by decide +kernel, writes_of (by decide +kernel), by decide +kernel⟩
  · exact ⟨by decide +kernel, writes_of (by decide +kernel), by decide +kernel⟩
  · exact ⟨by decide +kernel, writes_of (by decide +kernel), by decide +kernel⟩
  · exact ⟨by decide +kernel, writes_of (by decide +kernel)⟩
  · exact ⟨by decide +kernel, writes_of (by decide +kernel), by decide +kernel⟩
  · exact ⟨by decide +kernel, writes_of (by decide +kernel), by decide +kernel⟩

theorem witness_LinkAndFrames :
    (let s : State := { ((((up.setReg FAB_ID 0x80000000#32).setReg FAB_SHAPE 0x88100010#32).setReg (PORT_STAT 30) (BitVec.ofNat 32 pUp)).modPort 30 (fun x => { { x with rxSeq := 1023, discard := true } with trained := true })) with now := 99 }
     let p : Nat := 30
     let f : Frame := (⟨3, 1, 0, 1, 0, 5, 0, 5, [⟨5, 0, 0, List.replicate 64 1⟩]⟩ : Frame)
     let x := s.port p
     s.listening p = true ∧
       x.discard = true ∧
       f.seq ≠ x.rxSeq) ∧
    (let s : State := { ((((up.setReg FAB_ID 0x80000000#32).setReg FAB_SHAPE 0x88100010#32).setReg (PORT_STAT 30) (BitVec.ofNat 32 pUp)).modPort 30 (fun x => { { x with rxSeq := 1023, discard := true } with trained := true })) with now := 99 }
     let p : Nat := 30
     let f : Frame := (⟨0, 1, 0, 1, 0, 5, 0, 1023, []⟩ : Frame)
     let x := s.port p
     s.listening p = true ∧
       (x.discard = false ∨ f.seq = x.rxSeq)) ∧
    (let s : State := { ((((up.setReg FAB_ID 0x80000000#32).setReg FAB_SHAPE 0x88100010#32).setReg (PORT_STAT 30) (BitVec.ofNat 32 pUp)).modPort 30 (fun x => { { x with rxSeq := 1023, discard := false } with trained := true })) with now := 99 }
     let p : Nat := 30
     let f : Frame := (⟨3, 1, 0, 1, 0, 5, 0, 0, [⟨5, 0, 0, List.replicate 64 1⟩]⟩ : Frame)
     let x := s.port p
     s.listening p = true ∧
       x.discard = false ∧
       f.ty ≠ 0 ∧
       f.seq ≠ x.rxSeq) ∧
    (let s : State := { ((((up.setReg FAB_ID 0x80000000#32).setReg FAB_SHAPE 0x88100010#32).setReg (PORT_STAT 30) (BitVec.ofNat 32 pUp)).modPort 30 (fun x => { { x with rxSeq := 1023, discard := true } with trained := true })) with now := 99 }
     let p : Nat := 30
     let f : Frame := (⟨3, 1, 0, 1, 0, 5, 0, 1023, [⟨5, 0, 0, List.replicate 64 1⟩]⟩ : Frame)
     let x := s.port p
     s.listening p = true ∧
       f.ty ≠ 0 ∧
       f.seq = x.rxSeq ∧
       s.carries p f = true ∧
       s.frameBad p f = false ∧
       f.ty ≠ 11 ∧
       f.dst = s.devId) ∧
    (let s : State := { ((((up.setReg FAB_ID 0x80000000#32).setReg FAB_SHAPE 0x88100010#32).setReg (PORT_STAT 30) (BitVec.ofNat 32 pUp)).modPort 30 (fun x => { { x with rxSeq := 1023, discard := true } with trained := true })) with now := 99 }
     let p : Nat := 30
     let f : Frame := (⟨5, 3, 0, 1, 1, 5, 0, 1023, [⟨5, 0, 0, List.replicate 64 1⟩]⟩ : Frame)
     let x := s.port p
     s.listening p = true ∧
       f.ty ≠ 0 ∧
       f.seq = x.rxSeq ∧
       s.carries p f = true ∧
       s.frameBad p f = false ∧
       f.ty ≠ 11 ∧
       f.dst ≠ s.devId) ∧
    (let s : State := { ((((up.setReg FAB_ID 0x80000000#32).setReg FAB_SHAPE 0x88100010#32).setReg (PORT_STAT 30) (BitVec.ofNat 32 pUp)).modPort 30 (fun x => { { x with rxSeq := 1023, discard := true } with trained := true })) with now := 99 }
     let p : Nat := 30
     let f : Frame := (⟨12, 1, 0, 1, 0, 5, 0, 1023, [⟨5, 0, 0, List.replicate 64 1⟩]⟩ : Frame)
     let x := s.port p
     s.listening p = true ∧
       f.ty ≠ 0 ∧
       f.seq = x.rxSeq ∧
       s.carries p f = true ∧
       s.frameBad p f = true) ∧
    (let s : State := { ((((up.setReg FAB_ID 0x80000000#32).setReg FAB_SHAPE 0x88100010#32).setReg (PORT_STAT 30) (BitVec.ofNat 32 pUp)).modPort 30 (fun x => { { x with retry := [(⟨3, 1, 0, 1, 1, 5, 0, 1022, [⟨5, 0, 0, List.replicate 64 1⟩]⟩ : Frame), (⟨3, 1, 0, 1, 1, 5, 0, 1023, [⟨5, 0, 0, List.replicate 64 1⟩]⟩ : Frame), (⟨3, 1, 0, 1, 1, 5, 0, 0, [⟨5, 0, 0, List.replicate 64 1⟩]⟩ : Frame)], txSeq := 1, txUsed := [(2, 9), (3, 70)] } with trained := true })) with now := 99 }
     let p : Nat := 30
     let x := s.port p
     p < 32 ∧
       x.trained = true ∧
       .retry p ∉ s.badWords) ∧
    (let p : Nat := 30
     let b := 3
     let n := 63
     p < 32 ∧
       b < 8 ∧
       n < 64) ∧
    (let s : State := { ((((up.setReg FAB_ID 0x80000000#32).setReg FAB_SHAPE 0x88100010#32).setReg (PORT_STAT 24) (BitVec.ofNat 32 pUp)).modPort 24 (fun x => { x with trained := true })) with now := 99, egress := [(⟨(⟨3, 1, 0, 1, 1, 5, 0, 1023, [⟨5, 0, 0, List.replicate 64 1⟩]⟩ : Frame), none, none, false, 9⟩ : Egress), (⟨(⟨3, 1, 0, 1, 0, 5, 0, 1023, [⟨5, 0, 0, List.replicate 64 1⟩]⟩ : Frame), none, none, false, 9⟩ : Egress)] }
     let i := 1
     let e := (⟨(⟨3, 1, 0, 1, 0, 5, 0, 1023, [⟨5, 0, 0, List.replicate 64 1⟩]⟩ : Frame), none, none, false, 9⟩ : Egress)
     s.egress[i]? = some e ∧
       e.out = none ∧
       e.frame.dst = s.devId) ∧
    (let s : State := { (((((up.setReg FAB_ROUTE 1#32).setReg FAB_ID 0x80000000#32).setReg FAB_SHAPE 0x88100010#32).setReg (PORT_STAT 24) (BitVec.ofNat 32 pTraining)).modPort 24 (fun x => { x with trained := true })) with now := 99, egress := [(⟨(⟨3, 1, 0, 1, 1, 5, 0, 1023, [⟨5, 0, 0, List.replicate 64 1⟩]⟩ : Frame), none, none, false, 9⟩ : Egress), (⟨(⟨5, 3, 0, 1, 9, 5, 0, 1023, [⟨5, 0, 0, List.replicate 64 1⟩]⟩ : Frame), none, none, false, 9⟩ : Egress)] }
     let i := 1
     let e := (⟨(⟨5, 3, 0, 1, 9, 5, 0, 1023, [⟨5, 0, 0, List.replicate 64 1⟩]⟩ : Frame), none, none, false, 9⟩ : Egress)
     s.egress[i]? = some e ∧
       (e.out ≠ none ∨ e.frame.dst ≠ s.devId) ∧
       s.hopOf e = none) ∧
    (let s : State := { ((((up.setReg FAB_ID 0x80000000#32).setReg FAB_SHAPE 0x88100010#32).setReg (PORT_STAT 24) (BitVec.ofNat 32 pUp)).modPort 24 (fun x => { x with trained := true })) with now := 99, egress := [(⟨(⟨3, 1, 0, 1, 1, 5, 0, 1023, [⟨5, 0, 0, List.replicate 64 1⟩]⟩ : Frame), none, none, false, 9⟩ : Egress), (⟨(⟨3, 1, 0, 1, 1, 5, 0, 0, [⟨5, 0, 0, List.replicate 64 1⟩]⟩ : Frame), none, none, false, 9⟩ : Egress)] }
     let p : Nat := 24
     let x := s.port p
     let i := 1
     let e := (⟨(⟨3, 1, 0, 1, 1, 5, 0, 0, [⟨5, 0, 0, List.replicate 64 1⟩]⟩ : Frame), none, none, false, 9⟩ : Egress)
     let vc := 0
     s.egress[i]? = some e ∧
       (e.out ≠ none ∨ e.frame.dst ≠ s.devId) ∧
       s.hopOf e = some (p, vc) ∧
       s.outranked i e.frame p = false ∧
       x.holds (frameFlits e.frame) = true) ∧
    (let s : State := { (((((up.setReg FAB_ROUTE 1#32).setReg FAB_ID 0x80000000#32).setReg FAB_SHAPE 0x88100010#32).setReg (PORT_STAT 24) (BitVec.ofNat 32 pTraining)).modPort 24 (fun x => { x with trained := true })) with now := 99, egress := [(⟨(⟨3, 1, 0, 1, 1, 5, 0, 1023, [⟨5, 0, 0, List.replicate 64 1⟩]⟩ : Frame), none, none, false, 9⟩ : Egress), (⟨(⟨5, 3, 0, 1, 9, 5, 0, 1023, [⟨5, 0, 0, List.replicate 64 1⟩]⟩ : Frame), none, none, false, 9⟩ : Egress)] }
     let i := 1
     let e := (⟨(⟨5, 3, 0, 1, 9, 5, 0, 1023, [⟨5, 0, 0, List.replicate 64 1⟩]⟩ : Frame), none, none, false, 9⟩ : Egress)
     s.egress[i]? = some e ∧
       e.out = none ∧
       s.adaptive e.frame = true ∧
       e.esc = false ∧
       e.frame.vc = 0 ∧
       e.frame.dst ≠ s.devId ∧
       s.phaseOf = 0 ∧
       s.hopOf e = none) ∧
    (let s : State := { ((((up.setReg FAB_ID 0x80000000#32).setReg FAB_SHAPE 0x88100010#32).setReg (PORT_STAT 30) (BitVec.ofNat 32 pUp)).modPort 30 (fun x => { { x with retry := [(⟨3, 1, 0, 1, 1, 5, 0, 1022, [⟨5, 0, 0, List.replicate 64 1⟩]⟩ : Frame), (⟨3, 1, 0, 1, 1, 5, 0, 1023, [⟨5, 0, 0, List.replicate 64 1⟩]⟩ : Frame), (⟨3, 1, 0, 1, 1, 5, 0, 0, [⟨5, 0, 0, List.replicate 64 1⟩]⟩ : Frame)], txSeq := 1, txUsed := [(2, 9), (3, 70)] } with trained := true })) with now := 99, badWords := [.retry 30] }
     let p : Nat := 30
     let ack : Nat := 1022
     let x := s.port p
     p < 32 ∧
       x.trained = true ∧
       .retry p ∈ s.badWords ∧
       dropAcked ack x.retry ≠ []) := by
  refine ⟨?_, ?_, ?_, ?_, ?_, ?_, ?_, ?_, ?_, ?_, ?_, ?_, ?_⟩
  · decide +kernel
  · decide +kernel
  · decide +kernel
  · decide +kernel
  · decide +kernel
  · decide +kernel
  · decide +kernel
  · decide +kernel
  · decide +kernel
  · decide +kernel
  · decide +kernel
  · decide +kernel
  · decide +kernel

theorem witness_MessagesAtTargetAndIssuer :
    (let s : State := { ((up.setReg FAB_ID 0x80000005#32).setReg FAB_SHAPE 0x88100010#32) with inbox := [⟨3, none, (⟨1, 1, 0, 1, 5, 5, 0, 1023, [⟨1, 0, 7, List.replicate 64 9⟩]⟩ : Frame)⟩, (⟨4, (some 30), (⟨1, 1, 0, 1, 5, 5, 0, 1023, [⟨1, 0, 7, List.replicate 64 9⟩]⟩ : Frame)⟩ : Arrived)] }
     let i : Nat := 1
     let a : Arrived := (⟨4, (some 30), (⟨1, 1, 0, 1, 5, 5, 0, 1023, [⟨1, 0, 7, List.replicate 64 9⟩]⟩ : Frame)⟩ : Arrived)
     let m : Msg := (⟨1, 0, 7, List.replicate 64 9⟩ : Msg)
     let ty := a.frame.ty
     let addr := 64 * m.row
     let n := 64 * (m.len + 1)
     let tier : Prop := (s.addrKind addr = .tier1 ∨ s.addrKind addr = .tier2) ∧ s.dev ≠ devFaulted
     s.inbox[i]? = some a ∧
       a.frame.msgs = [m] ∧
       ty = 1 ∧
       tier ∧
       s.inRegion addr n = true ∧
       m.payload.length = n ∧
       m.aux.testBit 10 = false ∧
       m.aux.testBit 9 = false ∧
       s.atomFirst addr n = false ∧
       Clean s addr n) ∧
    (let s : State := { ((up.setReg FAB_ID 0x80000005#32).setReg FAB_SHAPE 0x88100010#32) with inbox := [⟨3, none, (⟨2, 1, 0, 1, 5, 5, 0, 1023, [⟨1, 0, 0, List.replicate 64 9 ++ leBytes 8 0⟩]⟩ : Frame)⟩, (⟨4, (some 30), (⟨2, 1, 0, 1, 5, 5, 0, 1023, [⟨1, 0, 0, List.replicate 64 9 ++ leBytes 8 0⟩]⟩ : Frame)⟩ : Arrived)] }
     let i : Nat := 1
     let a : Arrived := (⟨4, (some 30), (⟨2, 1, 0, 1, 5, 5, 0, 1023, [⟨1, 0, 0, List.replicate 64 9 ++ leBytes 8 0⟩]⟩ : Frame)⟩ : Arrived)
     let m : Msg := (⟨1, 0, 0, List.replicate 64 9 ++ leBytes 8 0⟩ : Msg)
     let ty := a.frame.ty
     let addr := 64 * m.row
     let tier : Prop := (s.addrKind addr = .tier1 ∨ s.addrKind addr = .tier2) ∧ s.dev ≠ devFaulted
     s.inbox[i]? = some a ∧
       a.frame.msgs = [m] ∧
       ty = 2 ∧
       tier ∧
       s.inRegion addr 64 = true ∧
       m.payload.length = 72 ∧
       m.len = 0 ∧
       m.aux.testBit 10 = false ∧
       m.aux.testBit 9 = false ∧
       s.atomFirst addr 64 = false ∧
       Clean s addr 64) ∧
    (let s : State := { ((up.setReg FAB_ID 0x80000005#32).setReg FAB_SHAPE 0x88100010#32) with inbox := [⟨3, none, (⟨3, 1, 0, 1, 5, 5, 0, 1023, [⟨1, 3, 1023, []⟩]⟩ : Frame)⟩, (⟨4, (some 30), (⟨3, 1, 0, 1, 5, 5, 0, 1023, [⟨1, 3, 1023, []⟩]⟩ : Frame)⟩ : Arrived)] }
     let i : Nat := 1
     let a : Arrived := (⟨4, (some 30), (⟨3, 1, 0, 1, 5, 5, 0, 1023, [⟨1, 3, 1023, []⟩]⟩ : Frame)⟩ : Arrived)
     let m : Msg := (⟨1, 3, 1023, []⟩ : Msg)
     let ty := a.frame.ty
     let addr := 64 * m.row
     let n := 64 * (m.len + 1)
     let tier : Prop := (s.addrKind addr = .tier1 ∨ s.addrKind addr = .tier2) ∧ s.dev ≠ devFaulted
     s.inbox[i]? = some a ∧
       a.frame.msgs = [m] ∧
       ty = 3 ∧
       s.inRegion addr n = true ∧
       m.aux.testBit 10 = false ∧
       s.dev ≠ devFaulted ∧
       tier ∧
       s.atomFirst addr n = false ∧
       Clean s addr n) ∧
    (let s : State := { ((up.setReg FAB_ID 0x80000005#32).setReg FAB_SHAPE 0x88100010#32) with inbox := [⟨3, none, (⟨3, 1, 0, 1, 5, 5, 0, 1023, [⟨9663676416, 0, 1023, []⟩]⟩ : Frame)⟩, (⟨4, (some 30), (⟨3, 1, 0, 1, 5, 5, 0, 1023, [⟨9663676416, 0, 1023, []⟩]⟩ : Frame)⟩ : Arrived)], meshOut := [⟨5, 2, 1023, 0, []⟩, (⟨5, 1, 1023, stOk, List.replicate 64 3⟩ : MeshAns)] }
     let i : Nat := 1
     let a : Arrived := (⟨4, (some 30), (⟨3, 1, 0, 1, 5, 5, 0, 1023, [⟨9663676416, 0, 1023, []⟩]⟩ : Frame)⟩ : Arrived)
     let m : Msg := (⟨9663676416, 0, 1023, []⟩ : Msg)
     let ty := a.frame.ty
     let addr := 64 * m.row
     let n := 64 * (m.len + 1)
     let tag := m.aux % 1024
     let c := 0
     let k := .am
     let o := 0
     let x := (⟨5, 1, 1023, stOk, List.replicate 64 3⟩ : MeshAns)
     s.inbox[i]? = some a ∧
       a.frame.msgs = [m] ∧
       ty = 3 ∧
       s.inRegion addr n = true ∧
       m.aux.testBit 10 = false ∧
       s.dev ≠ devFaulted ∧
       s.addrKind addr = .spm c k o ∧
       s.meshOut.find? (fun y => y.issuer == a.frame.issuer && y.device == a.frame.src && y.reqTag == tag) = some x) ∧
    (let s : State := { ((up.setReg FAB_ID 0x80000005#32).setReg FAB_SHAPE 0x88100010#32) with inbox := [⟨3, none, (⟨5, 3, 0, 1, 5, 5, 0, 1023, [⟨0, 0, 1023, leBytes 8 2252349569499136 ++ leBytes 8 5 ++ leBytes 8 6⟩]⟩ : Frame)⟩, (⟨4, none, (⟨5, 3, 0, 1, 5, 5, 0, 1023, [⟨0, 0, 1023, leBytes 8 2252349569499136 ++ leBytes 8 5 ++ leBytes 8 6⟩]⟩ : Frame)⟩ : Arrived)] }
     let i : Nat := 1
     let a : Arrived := (⟨4, none, (⟨5, 3, 0, 1, 5, 5, 0, 1023, [⟨0, 0, 1023, leBytes 8 2252349569499136 ++ leBytes 8 5 ++ leBytes 8 6⟩]⟩ : Frame)⟩ : Arrived)
     let m : Msg := (⟨0, 0, 1023, leBytes 8 2252349569499136 ++ leBytes 8 5 ++ leBytes 8 6⟩ : Msg)
     let ty := a.frame.ty
     let w := entryNat m.payload 0 8
     let op := .tset
     s.inbox[i]? = some a ∧
       a.frame.msgs = [m] ∧
       ty = 5 ∧
       s.dev ≠ devFaulted ∧
       atomOp (bitsOf w 51 48) = some op ∧
       m.payload.length = 24 ∧
       w < 2 ^ 54 ∧
       s.atomTargetOk (bitsOf w 47 0) op (w.testBit 53) = true) ∧
    (let s : State := { ((up.setReg FAB_ID 0x80000005#32).setReg FAB_SHAPE 0x88100010#32) with inbox := [⟨3, none, (⟨5, 3, 0, 1, 5, 5, 0, 1023, [⟨0, 0, 1023, leBytes 8 2533824546209792 ++ leBytes 8 5 ++ leBytes 8 6⟩]⟩ : Frame)⟩, (⟨4, (some 30), (⟨5, 3, 0, 1, 5, 5, 0, 1023, [⟨0, 0, 1023, leBytes 8 2533824546209792 ++ leBytes 8 5 ++ leBytes 8 6⟩]⟩ : Frame)⟩ : Arrived)] }
     let i : Nat := 1
     let a : Arrived := (⟨4, (some 30), (⟨5, 3, 0, 1, 5, 5, 0, 1023, [⟨0, 0, 1023, leBytes 8 2533824546209792 ++ leBytes 8 5 ++ leBytes 8 6⟩]⟩ : Frame)⟩ : Arrived)
     let m : Msg := (⟨0, 0, 1023, leBytes 8 2533824546209792 ++ leBytes 8 5 ++ leBytes 8 6⟩ : Msg)
     let ty := a.frame.ty
     let w := entryNat m.payload 0 8
     s.inbox[i]? = some a ∧
       a.frame.msgs = [m] ∧
       ty = 5 ∧
       s.dev ≠ devFaulted ∧
       atomOp (bitsOf w 51 48) = none) ∧
    (let s : State := { (((up.setReg FAB_ID 0x80000005#32).setReg FAB_SHAPE 0x88100010#32).setReg FAB_TAGS 0xFFFF#32) with inbox := [⟨3, none, (⟨4, 1, 0, 1, 5, 5, 0, 1023, [⟨0, 0, 1023, List.replicate 64 8⟩]⟩ : Frame)⟩, (⟨4, (some 30), (⟨4, 1, 0, 1, 5, 5, 0, 1023, [⟨0, 0, 1023, List.replicate 64 8⟩]⟩ : Frame)⟩ : Arrived)], remoteReqs := [(⟨5, (some 1023), 3, 1, 1, ⟨7, 0, 0, []⟩, .load 71, 3⟩ : RemoteReq)] }
     let i : Nat := 1
     let a : Arrived := (⟨4, (some 30), (⟨4, 1, 0, 1, 5, 5, 0, 1023, [⟨0, 0, 1023, List.replicate 64 8⟩]⟩ : Frame)⟩ : Arrived)
     let m : Msg := (⟨0, 0, 1023, List.replicate 64 8⟩ : Msg)
     let ty := a.frame.ty
     let tag := m.aux % 1024
     let r := (⟨5, (some 1023), 3, 1, 1, ⟨7, 0, 0, []⟩, .load 71, 3⟩ : RemoteReq)
     let c := 71
     s.inbox[i]? = some a ∧
       a.frame.msgs = [m] ∧
       s.askedBy a 3 tag = some r ∧
       (∀ y ∈ s.remoteReqs, y.issuer = r.issuer → y.tag ≠ none ∨ tagged y.ty = false) ∧
       r.src = .load c ∧
       ty = 4 ∧
       m.row % 256 = stOk) ∧
    (let s : State := { (((up.setReg FAB_ID 0x80000005#32).setReg FAB_SHAPE 0x88100010#32)) with inbox := [⟨3, none, (⟨6, 3, 0, 1, 5, 5, 0, 1023, [⟨1, 0, 1023, leBytes 8 0 ++ leBytes 8 0xFFFFFFFFFFFFFFFF⟩]⟩ : Frame)⟩, (⟨4, (some 30), (⟨6, 3, 0, 1, 5, 5, 0, 1023, [⟨1, 0, 1023, leBytes 8 0 ++ leBytes 8 0xFFFFFFFFFFFFFFFF⟩]⟩ : Frame)⟩ : Arrived)], remoteReqs := [(⟨5, (some 1023), 5, 1, 1, ⟨7, 0, 0, []⟩, .atom (.core 3 4), 3⟩ : RemoteReq)] }
     let i : Nat := 1
     let a : Arrived := (⟨4, (some 30), (⟨6, 3, 0, 1, 5, 5, 0, 1023, [⟨1, 0, 1023, leBytes 8 0 ++ leBytes 8 0xFFFFFFFFFFFFFFFF⟩]⟩ : Frame)⟩ : Arrived)
     let m : Msg := (⟨1, 0, 1023, leBytes 8 0 ++ leBytes 8 0xFFFFFFFFFFFFFFFF⟩ : Msg)
     let ty := a.frame.ty
     let tag := m.aux % 1024
     let r := (⟨5, (some 1023), 5, 1, 1, ⟨7, 0, 0, []⟩, .atom (.core 3 4), 3⟩ : RemoteReq)
     let src := (.core 3 4)
     s.inbox[i]? = some a ∧
       a.frame.msgs = [m] ∧
       s.askedBy a 5 tag = some r ∧
       r.src = .atom src ∧
       ty = 6) ∧
    (let s : State := { (((up.setReg FAB_ID 0x80000005#32).setReg FAB_SHAPE 0x88100010#32).setReg FAB_TAGS 0xFFFF#32) with inbox := [⟨3, none, (⟨9, 1, 0, 1, 5, 5, 0, 1023, [⟨0, 0, 1023, []⟩]⟩ : Frame)⟩, (⟨4, (some 30), (⟨9, 1, 0, 1, 5, 5, 0, 1023, [⟨0, 0, 1023, []⟩]⟩ : Frame)⟩ : Arrived)], remoteReqs := [(⟨5, (some 1023), 8, 1, 1, ⟨7, 0, 0, []⟩, .completion 5, 3⟩ : RemoteReq)] }
     let i : Nat := 1
     let a : Arrived := (⟨4, (some 30), (⟨9, 1, 0, 1, 5, 5, 0, 1023, [⟨0, 0, 1023, []⟩]⟩ : Frame)⟩ : Arrived)
     let m : Msg := (⟨0, 0, 1023, []⟩ : Msg)
     let ty := a.frame.ty
     let tag := m.aux % 1024
     let r := (⟨5, (some 1023), 8, 1, 1, ⟨7, 0, 0, []⟩, .completion 5, 3⟩ : RemoteReq)
     s.inbox[i]? = some a ∧
       a.frame.msgs = [m] ∧
       s.askedBy a 8 tag = some r ∧
       (∀ y ∈ s.remoteReqs, y.issuer = r.issuer → y.tag ≠ none ∨ tagged y.ty = false) ∧
       ty = 9) ∧
    (let s : State := { (((((up.setReg FAB_ID 0x80000005#32).setReg FAB_SHAPE 0x88100010#32)).setReg FAB_LATE 0xFFFFFFFF#32).setReg FAB_TAGS 5#32) with inbox := [⟨3, none, (⟨4, 1, 0, 1, 5, 5, 0, 1023, [⟨1, 0, 1022, []⟩]⟩ : Frame)⟩, (⟨4, (some 30), (⟨4, 1, 0, 1, 5, 5, 0, 1023, [⟨1, 0, 1022, []⟩]⟩ : Frame)⟩ : Arrived)] }
     let i : Nat := 1
     let a : Arrived := (⟨4, (some 30), (⟨4, 1, 0, 1, 5, 5, 0, 1023, [⟨1, 0, 1022, []⟩]⟩ : Frame)⟩ : Arrived)
     let m : Msg := (⟨1, 0, 1022, []⟩ : Msg)
     let ty := a.frame.ty
     let tag := m.aux % 1024
     s.inbox[i]? = some a ∧
       a.frame.msgs = [m] ∧
       s.askedBy a 3 tag = none ∧
       ty = 4) ∧
    (let s : State := { (((up.setReg FAB_ID 0x80000005#32).setReg FAB_SHAPE 0x88100010#32).setReg FAB_TAGS 0xFFFF#32) with inbox := [⟨3, none, (⟨6, 1, 0, 1, 5, 5, 0, 1023, [⟨1, 0, 1022, []⟩]⟩ : Frame)⟩, (⟨4, (some 30), (⟨6, 1, 0, 1, 5, 5, 0, 1023, [⟨1, 0, 1022, []⟩]⟩ : Frame)⟩ : Arrived)], remoteReqs := [(⟨5, (some 1023), 3, 1, 1, ⟨7, 0, 0, []⟩, .load 71, 3⟩ : RemoteReq)] }
     let i : Nat := 1
     let a : Arrived := (⟨4, (some 30), (⟨6, 1, 0, 1, 5, 5, 0, 1023, [⟨1, 0, 1022, []⟩]⟩ : Frame)⟩ : Arrived)
     let m : Msg := (⟨1, 0, 1022, []⟩ : Msg)
     let ty := a.frame.ty
     let tag := m.aux % 1024
     s.inbox[i]? = some a ∧
       a.frame.msgs = [m] ∧
       s.askedBy a 5 tag = none ∧
       ty = 6) ∧
    (let s : State := { (((up.setReg FAB_ID 0x80000005#32).setReg FAB_SHAPE 0x88100010#32).setReg FAB_TAGS 0xFFFF#32) with inbox := [⟨3, none, (⟨9, 1, 0, 1, 5, 5, 0, 1023, [⟨1, 0, 1022, []⟩]⟩ : Frame)⟩, (⟨4, (some 30), (⟨9, 1, 0, 1, 5, 5, 0, 1023, [⟨1, 0, 1022, []⟩]⟩ : Frame)⟩ : Arrived)], remoteReqs := [(⟨5, (some 1023), 3, 1, 1, ⟨7, 0, 0, []⟩, .load 71, 3⟩ : RemoteReq)] }
     let i : Nat := 1
     let a : Arrived := (⟨4, (some 30), (⟨9, 1, 0, 1, 5, 5, 0, 1023, [⟨1, 0, 1022, []⟩]⟩ : Frame)⟩ : Arrived)
     let m : Msg := (⟨1, 0, 1022, []⟩ : Msg)
     let ty := a.frame.ty
     let tag := m.aux % 1024
     s.inbox[i]? = some a ∧
       a.frame.msgs = [m] ∧
       s.askedBy a 8 tag = none ∧
       ty = 9) ∧
    (let s : State := { (((up.setReg FAB_ID 0x80000005#32).setReg FAB_SHAPE 0x88100010#32).setReg FAB_TAGS 0xFFFF#32) with inbox := [⟨3, none, (⟨7, 1, 0, 1, 5, 5, 0, 1023, [⟨1, 0, 0, []⟩]⟩ : Frame)⟩, (⟨4, (some 30), (⟨7, 1, 0, 1, 5, 5, 0, 1023, [⟨1, 0, 0, []⟩]⟩ : Frame)⟩ : Arrived)], remoteReqs := [(⟨5, none, 1, 1, 1, ⟨7, 0, 0, []⟩, .store 3 4, 3⟩ : RemoteReq)] }
     let i : Nat := 1
     let a : Arrived := (⟨4, (some 30), (⟨7, 1, 0, 1, 5, 5, 0, 1023, [⟨1, 0, 0, []⟩]⟩ : Frame)⟩ : Arrived)
     let m : Msg := (⟨1, 0, 0, []⟩ : Msg)
     let ty := a.frame.ty
     let r := (⟨5, none, 1, 1, 1, ⟨7, 0, 0, []⟩, .store 3 4, 3⟩ : RemoteReq)
     let c := 3
     let id := 4
     s.inbox[i]? = some a ∧
       a.frame.msgs = [m] ∧
       ty = 7 ∧
       s.oldWrites a.frame.issuer a.frame.src (m.row % 2 ^ 16) = [r] ∧
       r.tag = none ∧
       r.src = .store c id ∧
       m.row / 2 ^ 16 % 256 = stOk) ∧
    (let s : State := { (((up.setReg FAB_ID 0x80000005#32).setReg FAB_SHAPE 0x88100010#32)) with inbox := [⟨3, none, (⟨7, 1, 0, 1, 5, 5, 0, 1023, [⟨1, 0, 0, []⟩]⟩ : Frame)⟩, (⟨4, (some 30), (⟨7, 1, 0, 1, 5, 5, 0, 1023, [⟨1, 0, 0, []⟩]⟩ : Frame)⟩ : Arrived)] }
     let i : Nat := 1
     let a : Arrived := (⟨4, (some 30), (⟨7, 1, 0, 1, 5, 5, 0, 1023, [⟨1, 0, 0, []⟩]⟩ : Frame)⟩ : Arrived)
     let m : Msg := (⟨1, 0, 0, []⟩ : Msg)
     let ty := a.frame.ty
     s.inbox[i]? = some a ∧
       a.frame.msgs = [m] ∧
       ty = 7 ∧
       s.oldWrites a.frame.issuer a.frame.src (m.row % 2 ^ 16) = []) ∧
    (let s : State := { ((((((((up.setReg FAB_ID 0x80000005#32).setReg FAB_SHAPE 0x88100010#32).setReg (CMDQ_Q_CFG 63) 0x60540000#32).setReg (CMDQ_Q_STAT 63) 0x40000000#32).setReg (CMDQ_Q_PEER 63) 1#32).setReg (CMDQ_SQDB 63) 0#32).setReg (CMDQ_Q_PTR 63) 0#32).setReg (CMDQ_Q_SQBASE_LO 63) 4096#32) with inbox := [⟨3, none, (⟨8, 1, 0, 1, 5, 5, 0, 1023, [⟨63, 0, 1023, List.replicate 64 6⟩]⟩ : Frame)⟩, (⟨4, (some 30), (⟨8, 1, 0, 1, 5, 5, 0, 1023, [⟨63, 0, 1023, List.replicate 64 6⟩]⟩ : Frame)⟩ : Arrived)] }
     let i : Nat := 1
     let a : Arrived := (⟨4, (some 30), (⟨8, 1, 0, 1, 5, 5, 0, 1023, [⟨63, 0, 1023, List.replicate 64 6⟩]⟩ : Frame)⟩ : Arrived)
     let m : Msg := (⟨63, 0, 1023, List.replicate 64 6⟩ : Msg)
     let ty := a.frame.ty
     let q := m.row % 64
     let e := s.sqBase q % 2 ^ 48 + 64 * s.sqTail q
     s.inbox[i]? = some a ∧
       a.frame.msgs = [m] ∧
       ty = 8 ∧
       s.dev ≠ devFaulted ∧
       m.payload.length = 64 ∧
       s.qsubmitReason q a.frame.src = 0 ∧
       s.atomFirst e 64 = false ∧
       Clean s e 64) ∧
    (let s : State := { ((((((((up.setReg FAB_ID 0x80000005#32).setReg FAB_SHAPE 0x88100010#32).setReg (CMDQ_Q_CFG 63) 0x60540000#32).setReg (CMDQ_Q_STAT 63) 0x80000000#32).setReg (CMDQ_Q_PEER 63) 1#32).setReg (CMDQ_SQDB 63) 0#32).setReg (CMDQ_Q_PTR 63) 0#32).setReg (CMDQ_Q_SQBASE_LO 63) 4096#32) with inbox := [⟨3, none, (⟨8, 1, 0, 1, 5, 5, 0, 1023, [⟨63, 0, 1023, List.replicate 64 6⟩]⟩ : Frame)⟩, (⟨4, (some 30), (⟨8, 1, 0, 1, 5, 5, 0, 1023, [⟨63, 0, 1023, List.replicate 64 6⟩]⟩ : Frame)⟩ : Arrived)] }
     let i : Nat := 1
     let a : Arrived := (⟨4, (some 30), (⟨8, 1, 0, 1, 5, 5, 0, 1023, [⟨63, 0, 1023, List.replicate 64 6⟩]⟩ : Frame)⟩ : Arrived)
     let m : Msg := (⟨63, 0, 1023, List.replicate 64 6⟩ : Msg)
     let ty := a.frame.ty
     let q := m.row % 64
     let r := s.qsubmitReason q a.frame.src
     s.inbox[i]? = some a ∧
       a.frame.msgs = [m] ∧
       ty = 8 ∧
       s.dev ≠ devFaulted ∧
       m.payload.length = 64 ∧
       s.qsubmitReason q a.frame.src = r ∧
       r ≠ 0) ∧
    (let s : State := { (((((((((up.setReg FAB_ID 0x80000005#32).setReg FAB_SHAPE 0x88100010#32).setReg (CMDQ_Q_CFG 63) 0x60540000#32).setReg (CMDQ_Q_STAT 63) 0x40000000#32).setReg (CMDQ_Q_PEER 63) 1#32).setReg (CMDQ_SQDB 63) 0#32).setReg (CMDQ_Q_PTR 63) 0#32).setReg (CMDQ_Q_SQBASE_LO 63) 4096#32).setReg (CMDQ_Q_PTR 63) 3#32) with inbox := [⟨3, none, (⟨10, 1, 0, 1, 5, 5, 0, 1023, [⟨63, 0, 0, []⟩]⟩ : Frame)⟩, (⟨4, (some 30), (⟨10, 1, 0, 1, 5, 5, 0, 1023, [⟨63, 0, 0, []⟩]⟩ : Frame)⟩ : Arrived)] }
     let i : Nat := 1
     let a : Arrived := (⟨4, (some 30), (⟨10, 1, 0, 1, 5, 5, 0, 1023, [⟨63, 0, 0, []⟩]⟩ : Frame)⟩ : Arrived)
     let m : Msg := (⟨63, 0, 0, []⟩ : Msg)
     let ty := a.frame.ty
     let q := m.row % 64
     s.inbox[i]? = some a ∧
       a.frame.msgs = [m] ∧
       ty = 10 ∧
       s.dev ≠ devFaulted ∧
       s.qState q = qActive ∧
       s.qRemote q = true ∧
       s.fld (CMDQ_Q_PEER q) 13 0 = a.frame.src ∧
       s.cqAccepts q (m.row / 64 % 4096) = true) ∧
    (let s : State := { (((up.setReg FAB_ID 0x80000005#32).setReg FAB_SHAPE 0x88100010#32).setReg FAB_RTMO 65535#32) with inbox := [⟨3, none, (⟨1, 1, 0, 1, 5, 5, 0, 1023, [⟨0, 0, 0, []⟩]⟩ : Frame)⟩, (⟨4, (some 30), (⟨1, 1, 0, 1, 5, 5, 0, 1023, [⟨0, 0, 0, []⟩]⟩ : Frame)⟩ : Arrived)], remoteReqs := [(⟨5, (some 4), 3, 1, 1, ⟨7, 0, 0, []⟩, .load 3, 3⟩ : RemoteReq), (⟨5, (some 1023), 5, 1, 1, ⟨7, 0, 0, []⟩, .atom (.cp 4), 3⟩ : RemoteReq)] }
     let i : Nat := 1
     let a : Arrived := (⟨4, (some 30), (⟨1, 1, 0, 1, 5, 5, 0, 1023, [⟨0, 0, 0, []⟩]⟩ : Frame)⟩ : Arrived)
     let m : Msg := (⟨0, 0, 0, []⟩ : Msg)
     let j := 1
     let r := (⟨5, (some 1023), 5, 1, 1, ⟨7, 0, 0, []⟩, .atom (.cp 4), 3⟩ : RemoteReq)
     let src := (.cp 4)
     s.inbox[i]? = some a ∧
       a.frame.msgs = [m] ∧
       s.remoteReqs[j]? = some r ∧
       r.src = .atom src ∧
       s.fld FAB_RTMO 15 0 ≠ 0 ∧
       (tagged r.ty = true → r.tag ≠ none)) ∧
    (let s : State := { (((up.setReg FAB_ID 0x80000005#32).setReg FAB_SHAPE 0x88100010#32).setReg FAB_RTMO 65535#32) with inbox := [⟨3, none, (⟨1, 1, 0, 1, 5, 5, 0, 1023, [⟨0, 0, 0, []⟩]⟩ : Frame)⟩, (⟨4, (some 30), (⟨1, 1, 0, 1, 5, 5, 0, 1023, [⟨0, 0, 0, []⟩]⟩ : Frame)⟩ : Arrived)], remoteReqs := [(⟨5, (some 4), 3, 1, 1, ⟨7, 0, 0, []⟩, .load 3, 3⟩ : RemoteReq), (⟨5, none, 5, 1, 1, ⟨7, 0, 0, []⟩, .atom (.cp 4), 3⟩ : RemoteReq)] }
     let i : Nat := 1
     let a : Arrived := (⟨4, (some 30), (⟨1, 1, 0, 1, 5, 5, 0, 1023, [⟨0, 0, 0, []⟩]⟩ : Frame)⟩ : Arrived)
     let m : Msg := (⟨0, 0, 0, []⟩ : Msg)
     let j := 1
     let r := (⟨5, none, 5, 1, 1, ⟨7, 0, 0, []⟩, .atom (.cp 4), 3⟩ : RemoteReq)
     let src := (.cp 4)
     s.inbox[i]? = some a ∧
       a.frame.msgs = [m] ∧
       s.remoteReqs[j]? = some r ∧
       r.src = .atom src ∧
       s.fld FAB_RTMO 15 0 ≠ 0 ∧
       tagged r.ty = true ∧
       r.tag = none) := by
  refine ⟨?_, ?_, ?_, ?_, ?_, ?_, ?_, ?_, ?_, ?_, ?_, ?_, ?_, ?_, ?_, ?_, ?_, ?_, ?_⟩
  · decide +kernel
  · decide +kernel
  · decide +kernel
  · decide +kernel
  · decide +kernel
  · decide +kernel
  · decide +kernel
  · decide +kernel
  · decide +kernel
  · decide +kernel
  · decide +kernel
  · decide +kernel
  · decide +kernel
  · decide +kernel
  · decide +kernel
  · decide +kernel
  · decide +kernel
  · decide +kernel
  · decide +kernel

theorem witness_PortsTrainAndHello :
    (let s : State := { ((((up.setReg FAB_ID 0x80000000#32).setReg FAB_SHAPE 0x88100010#32).setReg (PORT_STAT 31) (BitVec.ofNat 32 pTraining + 0x70)).modPort 31 (fun x => { { x with retry := [(⟨3, 1, 0, 1, 1, 5, 0, 1023, [⟨5, 0, 0, List.replicate 64 1⟩]⟩ : Frame), (⟨3, 1, 0, 1, 1, 5, 0, 0, [⟨5, 0, 0, List.replicate 64 1⟩]⟩ : Frame)] } with trained := false })) with now := 99 }
     let p : Nat := 31
     let x := s.port p
     let st := s.portSt p
     let bad : List Nat := []
     p < 32 ∧
       st = pTraining ∧
       x.trained = false ∧
       ((List.range 5).filter bad.contains).length < 2 ∧
       .retry p ∉ s.badWords) ∧
    (let s : State := { ((((up.setReg FAB_ID 0x80000000#32).setReg FAB_SHAPE 0x88100010#32).setReg (PORT_STAT 31) (BitVec.ofNat 32 pTraining + 0x70)).modPort 31 (fun x => { { x with retry := [(⟨3, 1, 0, 1, 1, 5, 0, 1023, [⟨5, 0, 0, List.replicate 64 1⟩]⟩ : Frame), (⟨3, 1, 0, 1, 1, 5, 0, 0, [⟨5, 0, 0, List.replicate 64 1⟩]⟩ : Frame)] } with trained := false })) with now := 99 }
     let p : Nat := 31
     let x := s.port p
     let st := s.portSt p
     let bad : List Nat := [1, 3]
     p < 32 ∧
       st = pTraining ∧
       x.trained = false ∧
       2 ≤ ((List.range 5).filter bad.contains).length) ∧
    (let s : State := { ((((up.setReg FAB_ID 0x80000000#32).setReg FAB_SHAPE 0x88100010#32).setReg (PORT_STAT 30) (BitVec.ofNat 32 pUp)).modPort 30 (fun x => { { x with retry := [(⟨3, 1, 0, 1, 1, 5, 0, 1023, [⟨5, 0, 0, List.replicate 64 1⟩]⟩ : Frame), (⟨3, 1, 0, 1, 1, 5, 0, 0, [⟨5, 0, 0, List.replicate 64 1⟩]⟩ : Frame)] } with trained := true })) with now := 99 }
     let p : Nat := 30
     let st := s.portSt p
     p < 32 ∧
       st ≠ pDisabled ∧
       st ≠ pDown ∧
       st ≠ pDegraded) ∧
    (let s : State := { ((((up.setReg FAB_ID 0x80000000#32).setReg FAB_SHAPE 0x88100010#32).setReg (PORT_STAT 30) (BitVec.ofNat 32 pDown)).modPort 30 (fun x => { x with trained := true })) with now := 99 }
     let p : Nat := 30
     let st := s.portSt p
     p < 32 ∧
       (st = pDown ∨ st = pLost)) ∧
    (let s : State := { ((((up.setReg FAB_ID 0x80000000#32).setReg FAB_SHAPE 0x88100010#32).setReg (PORT_STAT 30) (BitVec.ofNat 32 pUp)).modPort 30 (fun x => { x with trained := true })) with now := 99 }
     let p : Nat := 30
     let h : HelloRec := (⟨9#64, 7, true, 0, false, false, true, 0, 5#64, (List.replicate 32 0)⟩ : HelloRec)
     p < 32 ∧
       s.listening p = true ∧
       h.devid < 2 ^ 14 ∧
       h.port < 32 ∧
       wiredRight p h = false) ∧
    (let s : State := { ((((up.setReg FAB_ID 0x80000000#32).setReg FAB_SHAPE 0x88100010#32).setReg (PORT_STAT 30) (BitVec.ofNat 32 pUp)).modPort 30 (fun x => { x with trained := true })) with now := 99 }
     let p : Nat := 30
     let x := s.port p
     let st := s.portSt p
     let h : HelloRec := (⟨9#64, 7, true, 26, false, false, true, 0, 5#64, (List.replicate 32 0)⟩ : HelloRec)
     p < 32 ∧
       s.listening p = true ∧
       h.devid < 2 ^ 14 ∧
       wiredRight p h = true ∧
       h.valid = true ∧
       x.badAssign = false ∧
       st ≠ pIdCheck ∧
       st ≠ pQuarantine ∧
       x.failedId = false ∧
       (x.recorded = false ∨ h.certHash = s.peerHash p) ∧
       (s.phaseOf = 0 ∨ s.wave.requireId = false ∨ x.passed = true)) ∧
    (let s : State := { ((((up.setReg FAB_ID 0x80000000#32).setReg FAB_SHAPE 0x88100010#32).setReg (PORT_STAT 30) (BitVec.ofNat 32 pUp)).modPort 30 (fun x => { { x with recorded := true } with trained := true })) with now := 99 }
     let p : Nat := 30
     let x := s.port p
     let st := s.portSt p
     let h : HelloRec := (⟨9#64, 7, true, 26, false, false, true, 0, 5#64, (List.replicate 32 1)⟩ : HelloRec)
     p < 32 ∧
       s.listening p = true ∧
       h.devid < 2 ^ 14 ∧
       wiredRight p h = true ∧
       h.valid = true ∧
       x.badAssign = false ∧
       st ≠ pIdCheck ∧
       st ≠ pQuarantine ∧
       x.failedId = false ∧
       x.recorded = true ∧
       h.certHash ≠ s.peerHash p) ∧
    (let s : State := { (((((up.setReg FAB_DISC 0x00510000#32).setReg FAB_ID 0x80000000#32).setReg FAB_SHAPE 0x88100010#32).setReg (PORT_STAT 30) (BitVec.ofNat 32 pUp)).modPort 30 (fun x => { x with trained := true })) with now := 99, wave := { up.wave with candHost := false, cand := 9 } }
     let p : Nat := 30
     let h : HelloRec := (⟨9#64, 7, true, 26, false, true, true, 5, 5#64, (List.replicate 32 0)⟩ : HelloRec)
     p < 32 ∧
       s.listening p = true ∧
       h.devid < 2 ^ 14 ∧
       wiredRight p h = true ∧
       s.phaseOf = 1 ∧
       h.inWave = true ∧
       h.epoch = s.fld FAB_DISC 31 20 ∧
       s.wave.beats h = true) ∧
    (let s : State := { ((((up.setReg FAB_ID 0x80000000#32).setReg FAB_SHAPE 0x88100010#32).setReg (PORT_STAT 30) (BitVec.ofNat 32 pUp)).modPort 30 (fun x => { { x with heard := 5, said := 98 } with trained := true })) with now := 99 }
     let p : Nat := 30
     let st := s.portSt p
     p < 32 ∧
       s.listening p = true ∧
       st ≠ pLost) ∧
    (let s : State := { ((((up.setReg FAB_ID 0x80000000#32).setReg FAB_SHAPE 0x88100010#32).setReg (PORT_STAT 30) (BitVec.ofNat 32 pUp)).modPort 30 (fun x => { { x with heard := 5, said := 98 } with trained := true })) with now := 99 }
     let p : Nat := 30
     p < 32 ∧
       s.listening p = true) ∧
    (let s : State := { ((((up.setReg FAB_ID 0x80000000#32).setReg FAB_SHAPE 0x88100010#32).setReg (PORT_STAT 30) (BitVec.ofNat 32 pUp)).modPort 30 (fun x => { x with trained := true })) with now := 99 }
     let p : Nat := 30
     let lane := 3
     p < 32 ∧
       s.listening p = true ∧
       lane < 4 ∧
       s.fld (PORT_STAT p) 6 4 = 0 ∧
       (s.noteRetrain p).recentRetrains p < 3) ∧
    (let s : State := { ((((up.setReg FAB_ID 0x80000000#32).setReg FAB_SHAPE 0x88100010#32).setReg (PORT_STAT 30) (BitVec.ofNat 32 pUp + 0x30)).modPort 30 (fun x => { x with trained := true })) with now := 99 }
     let p : Nat := 30
     let lane := 3
     p < 32 ∧
       s.listening p = true ∧
       lane < 4 ∧
       s.fld (PORT_STAT p) 6 4 ≠ 0 ∧
       s.fld (PORT_STAT p) 6 4 ≠ lane + 1) ∧
    (let s : State := { (((((up.setReg (PORT_LIMITS 30) 0x00020003#32).setReg FAB_ID 0x80000000#32).setReg FAB_SHAPE 0x88100010#32).setReg (PORT_STAT 30) (BitVec.ofNat 32 pUp)).modPort 30 (fun x => { { x with naks := [0, 1, 2] } with trained := true })) with now := 99 }
     let p : Nat := 30
     let x := s.port p
     let naks := (x.naks.filter (fun y => decide (s.now ≤ y + msNclk))).length
     let viols := (x.viols.filter (fun y => decide (s.now ≤ y + msNclk))).length
     let due : Prop := (s.fld (PORT_LIMITS p) 15 0 ≠ 0 ∧ s.fld (PORT_LIMITS p) 15 0 ≤ naks) ∨ (s.fld (PORT_LIMITS p) 31 16 ≠ 0 ∧ s.fld (PORT_LIMITS p) 31 16 ≤ viols)
     p < 32 ∧
       s.listening p = true ∧
       due ∧
       (s.noteRetrain p).recentRetrains p < 3) ∧
    (let s : State := { (((((up.setReg (PORT_LIMITS 30) 0x00020003#32).setReg FAB_ID 0x80000000#32).setReg FAB_SHAPE 0x88100010#32).setReg (PORT_STAT 30) (BitVec.ofNat 32 pUp)).modPort 30 (fun x => { { x with viols := [0, 1, 2], retrains := [9, 10] } with trained := true })) with now := 99 }
     let p : Nat := 30
     let x := s.port p
     let naks := (x.naks.filter (fun y => decide (s.now ≤ y + msNclk))).length
     let viols := (x.viols.filter (fun y => decide (s.now ≤ y + msNclk))).length
     let due : Prop := (s.fld (PORT_LIMITS p) 15 0 ≠ 0 ∧ s.fld (PORT_LIMITS p) 15 0 ≤ naks) ∨ (s.fld (PORT_LIMITS p) 31 16 ≠ 0 ∧ s.fld (PORT_LIMITS p) 31 16 ≤ viols)
     p < 32 ∧
       s.listening p = true ∧
       due ∧
       3 ≤ (s.noteRetrain p).recentRetrains p) ∧
    (let s : State := { (((((up.setReg (PORT_LIMITS 30) 0x00020003#32).setReg FAB_ID 0x80000000#32).setReg FAB_SHAPE 0x88100010#32).setReg (PORT_STAT 30) (BitVec.ofNat 32 pUp)).modPort 30 (fun x => { { x with naks := [0, 1] } with trained := true })) with now := 99 }
     let p : Nat := 30
     let x := s.port p
     let naks := (x.naks.filter (fun y => decide (s.now ≤ y + msNclk))).length
     let viols := (x.viols.filter (fun y => decide (s.now ≤ y + msNclk))).length
     let due : Prop := (s.fld (PORT_LIMITS p) 15 0 ≠ 0 ∧ s.fld (PORT_LIMITS p) 15 0 ≤ naks) ∨ (s.fld (PORT_LIMITS p) 31 16 ≠ 0 ∧ s.fld (PORT_LIMITS p) 31 16 ≤ viols)
     p < 32 ∧
       s.listening p = true ∧
       ¬ due) ∧
    (let s : State := { ((((up.setReg FAB_ID 0x80000000#32).setReg FAB_SHAPE 0x88100010#32).setReg (PORT_STAT 30) (BitVec.ofNat 32 pUp)).modPort 30 (fun x => { x with trained := false })) with now := 99 }
     let p : Nat := 30
     let a : Agent := .mp
     let v : W32 := 0#32
     let u : W32 := 0#32
     p < 32 ∧
       Writes s a (PORT_CTRL p) v u ∧
       u.getLsbD 0 = false) ∧
    (let s : State := { ((((up.setReg FAB_ID 0x80000000#32).setReg FAB_SHAPE 0x88100010#32).setReg (PORT_STAT 30) (BitVec.ofNat 32 pDisabled)).modPort 30 (fun x => { x with trained := false })) with now := 99 }
     let p : Nat := 30
     let x := s.port p
     let st := s.portSt p
     let a : Agent := .mp
     let v : W32 := 1#32
     let u : W32 := 1#32
     p < 32 ∧
       Writes s a (PORT_CTRL p) v u ∧
       u.getLsbD 0 = true ∧
       st = pDisabled ∧
       x.degraded = false) ∧
    (let s : State := { { ((((up.setReg FAB_ID 0x80000000#32).setReg FAB_SHAPE 0x88100010#32).setReg (PORT_STAT 5) (BitVec.ofNat 32 pUp)).modPort 5 (fun x => { x with trained := true })) with now := 99 } with broken := [] }
     let p : Nat := 5
     let st := s.portSt p
     let c := 15
     let d := portDim p
     p < 32 ∧
       st = pUp ∧
       c < 16 ∧
       s.broken.contains (d, c) = false) ∧
    (let s : State := { { (({ ((((up.setReg FAB_ID 0x80000000#32).setReg FAB_SHAPE 0x88100010#32).setReg (PORT_STAT 30) (BitVec.ofNat 32 pUp)).modPort 30 (fun x => { x with trained := true })) with now := 99 }.setReg (PORT_STAT 25) (BitVec.ofNat 32 pUp)).modPort 25 (fun x => { x with trained := true })) with now := 99 } with broken := [(3, 15), (3, 7)] }
     let p : Nat := 30
     let st := s.portSt p
     let c := 15
     let d := portDim p
     p < 32 ∧
       st = pUp ∧
       c < 16 ∧
       s.broken.contains (d, c) = true) := by
  refine ⟨?_, ?_, ?_, ?_, ?_, ?_, ?_, ?_, ?_, ?_, ?_, ?_, ?_, ?_, ?_, ?_, ?_, ?_, ?_⟩
  · decide +kernel
  · decide +kernel
  · decide +kernel
  · decide +kernel
  · decide +kernel
  · decide +kernel
  · decide +kernel
  · decide +kernel
  · decide +kernel
  · decide +kernel
  · decide +kernel
  · decide +kernel
  · decide +kernel
  · decide +kernel
  · decide +kernel
  · exact ⟨by decide +kernel, writes_of (by decide +kernel), by decide +kernel⟩
  · exact ⟨by decide +kernel, writes_of (by decide +kernel), by decide +kernel⟩
  · decide +kernel
  · decide +kernel

theorem witness_DiscoveryIdentityWitness :
    (let s : State := { ((((((up.setReg (PORT_STAT 2) (BitVec.ofNat 32 pUp)).setReg FAB_DISC 0x00500000#32).setReg FAB_ID 0x80000000#32).setReg FAB_SHAPE 0x88100010#32).setReg (PORT_STAT 30) (BitVec.ofNat 32 pUp)).modPort 30 (fun x => { x with trained := true })) with now := 99 }
     let p : Nat := 30
     let epoch := 6
     p < 32 ∧
       s.discovers p = true ∧
       s.takesPart = true ∧
       epoch < 4096 ∧
       s.fld FAB_DISC 31 20 < epoch) ∧
    (let s : State := { ((((((up.setReg (PORT_STAT 2) (BitVec.ofNat 32 pUp)).setReg FAB_DISC 0x00500000#32).setReg FAB_ID 0x80000000#32).setReg FAB_SHAPE 0x88100010#32).setReg (PORT_STAT 30) (BitVec.ofNat 32 pUp)).modPort 30 (fun x => { x with trained := true })) with now := 99 }
     let p : Nat := 30
     let epoch := 5
     p < 32 ∧
       s.discovers p = true ∧
       s.takesPart = true ∧
       epoch < 4096 ∧
       epoch ≤ s.fld FAB_DISC 31 20) ∧
    (let s : State := { (((((up.setReg FAB_DISC 0x00510000#32).setReg FAB_ID 0x80000000#32).setReg FAB_SHAPE 0x88100010#32).setReg (PORT_STAT 30) (BitVec.ofNat 32 pUp)).modPort 30 (fun x => { x with trained := true })) with now := 99, wave := { up.wave with since := 90, cand := 77 } }
     let p : Nat := 30
     let w := s.wave
     p < 32 ∧
       s.phaseOf = 1 ∧
       w.cand ≠ s.serialNo) ∧
    (let s : State := { (((((up.setReg FAB_DISC 0x00510000#32).setReg FAB_ID 0x80000000#32).setReg FAB_SHAPE 0x88100010#32).setReg (PORT_STAT 30) (BitVec.ofNat 32 pUp)).modPort 30 (fun x => { x with trained := true })) with now := 99, wave := { up.wave with since := 90, cand := State.reset.serialNo } }
     let p : Nat := 30
     let w := s.wave
     p < 32 ∧
       s.phaseOf = 1 ∧
       w.cand = s.serialNo) ∧
    (let s : State := { (((((up.setReg FAB_DISC 0x00520003#32).setReg FAB_ID 0x80000000#32).setReg FAB_SHAPE 0x88100010#32).setReg (PORT_STAT 30) (BitVec.ofNat 32 pUp)).modPort 30 (fun x => { x with trained := true })) with now := 99, wave := { up.wave with coords := none } }
     let p : Nat := 30
     let c : Coord := (⟨0, 0, 0, 7⟩ : Coord)
     let x := s.port p
     let w := s.wave
     let epoch := 5
     let req := false
     p < 32 ∧
       s.portSt p = pUp ∧
       portPlus p = false ∧
       (s.phaseOf = 1 ∨ s.phaseOf = 2) ∧
       epoch = s.fld FAB_DISC 31 20 ∧
       (req = true → x.passed = true) ∧
       w.coords = none ∧
       (∀ d < 4, coordOf c d < maxSize d)) ∧
    (let s : State := { (((((up.setReg FAB_DISC 0x00520003#32).setReg FAB_ID 0x80000000#32).setReg FAB_SHAPE 0x88100010#32).setReg (PORT_STAT 30) (BitVec.ofNat 32 pUp)).modPort 30 (fun x => { x with trained := true })) with now := 99, wave := { up.wave with coords := (some ⟨0, 1, 2, 0⟩) } }
     let p : Nat := 30
     let c : Coord := (⟨0, 1, 2, 5⟩ : Coord)
     let x := s.port p
     let w := s.wave
     let epoch := 5
     let req := false
     let own := (⟨0, 1, 2, 0⟩ : Coord)
     let d := 3
     p < 32 ∧
       s.portSt p = pUp ∧
       portPlus p = false ∧
       (s.phaseOf = 1 ∨ s.phaseOf = 2) ∧
       epoch = s.fld FAB_DISC 31 20 ∧
       (req = true → x.passed = true) ∧
       w.coords = some own ∧
       differs own c = [d] ∧
       d = portDim p ∧
       coordOf own d = 0) ∧
    (let s : State := { (((((up.setReg FAB_DISC 0x00520003#32).setReg FAB_ID 0x80000000#32).setReg FAB_SHAPE 0x88100010#32).setReg (PORT_STAT 30) (BitVec.ofNat 32 pUp)).modPort 30 (fun x => { x with trained := true })) with now := 99, wave := { up.wave with coords := (some ⟨0, 1, 2, 1⟩) } }
     let p : Nat := 30
     let c : Coord := (⟨0, 1, 2, 5⟩ : Coord)
     let x := s.port p
     let w := s.wave
     let epoch := 5
     let req := false
     let own := (⟨0, 1, 2, 1⟩ : Coord)
     let d := 3
     p < 32 ∧
       s.portSt p = pUp ∧
       portPlus p = false ∧
       (s.phaseOf = 1 ∨ s.phaseOf = 2) ∧
       epoch = s.fld FAB_DISC 31 20 ∧
       (req = true → x.passed = true) ∧
       w.coords = some own ∧
       differs own c = [d] ∧
       (d ≠ portDim p ∨ coordOf own d ≠ 0)) ∧
    (let s : State := { (((((up.setReg FAB_DISC 0x00520003#32).setReg FAB_ID 0x80000000#32).setReg FAB_SHAPE 0x88100010#32).setReg (PORT_STAT 30) (BitVec.ofNat 32 pUp)).modPort 30 (fun x => { x with trained := true })) with now := 99, wave := { up.wave with root := true, parent := none, coords := some ⟨3, 1, 2, 7⟩, children := [29], acks := 1 } }
     let p : Nat := 30
     let w := s.wave
     p < 32 ∧
       s.portSt p = pUp ∧
       s.phaseOf = 2 ∧
       w.root = true) ∧
    (let s : State := { (((((up.setReg FAB_DISC 0x00520003#32).setReg FAB_ID 0x80000000#32).setReg FAB_SHAPE 0x88100010#32).setReg (PORT_STAT 30) (BitVec.ofNat 32 pUp)).modPort 30 (fun x => { x with trained := true })) with now := 99, wave := { up.wave with root := false, parent := (some 4), coords := some ⟨3, 1, 2, 7⟩, children := [29], acks := 1 } }
     let p : Nat := 30
     let w := s.wave
     let q := 4
     p < 32 ∧
       s.portSt p = pUp ∧
       s.phaseOf = 2 ∧
       w.root = false ∧
       w.parent = some q) ∧
    (let s : State := { (((((up.setReg FAB_DISC 0x00520003#32).setReg FAB_ID 0x80000000#32).setReg FAB_SHAPE 0x88100010#32).setReg (PORT_STAT 30) (BitVec.ofNat 32 pUp)).modPort 30 (fun x => { x with trained := true })) with now := 99, wave := { up.wave with root := false, parent := (some 30), coords := some ⟨3, 1, 2, 7⟩, children := [29], acks := 1 } }
     let p : Nat := 30
     let w := s.wave
     let epoch := 5
     let own := (⟨3, 1, 2, 7⟩ : Coord)
     p < 32 ∧
       s.portSt p = pUp ∧
       s.phaseOf = 2 ∧
       w.coords = some own ∧
       w.root = false ∧
       w.parent = some p ∧
       epoch = s.fld FAB_DISC 31 20) ∧
    (let s : State := { (((((up.setReg FAB_DISC 0x00530002#32).setReg FAB_ID 0x80000000#32).setReg FAB_SHAPE 0x88100010#32).setReg (PORT_STAT 30) (BitVec.ofNat 32 pUp)).modPort 30 (fun x => { x with trained := true })) with now := 99, wave := { up.wave with root := true, parent := none, coords := some ⟨3, 1, 2, 7⟩, children := [29], acks := 1 } }
     let p : Nat := 30
     let w := s.wave
     p < 32 ∧
       s.portSt p = pUp ∧
       w.root = true ∧
       s.phaseOf = 3) ∧
    (let s : State := { (((((up.setReg FAB_DISC 0x00520003#32).setReg FAB_ID 0x80000000#32).setReg FAB_SHAPE 0x88100010#32).setReg (PORT_STAT 30) (BitVec.ofNat 32 pUp)).modPort 30 (fun x => { x with trained := true })) with now := 99, wave := { up.wave with root := false, parent := (some 4), coords := some ⟨3, 1, 2, 7⟩, children := [29], acks := 1 } }
     let p : Nat := 30
     let w := s.wave
     let q := 4
     p < 32 ∧
       s.portSt p = pUp ∧
       w.root = false ∧
       w.parent = some q) ∧
    (let s : State := { (((((up.setReg FAB_DISC 0x00520003#32).setReg FAB_ID 0x80000000#32).setReg FAB_SHAPE 0x88100010#32).setReg (PORT_STAT 30) (BitVec.ofNat 32 pUp)).modPort 30 (fun x => { x with trained := true })) with now := 99, wave := { up.wave with root := true, parent := none, coords := some ⟨3, 1, 2, 7⟩, children := [29], acks := 1 } }
     let p : Nat := 30
     let w := s.wave
     p < 32 ∧
       w.root = true ∧
       s.phaseOf = 2) ∧
    (let s : State := { (((((up.setReg FAB_DISC 0x00530002#32).setReg FAB_ID 0x80000000#32).setReg FAB_SHAPE 0x88100010#32).setReg (PORT_STAT 30) (BitVec.ofNat 32 pUp)).modPort 30 (fun x => { x with trained := true })) with now := 99, wave := { up.wave with root := true, parent := none, coords := some ⟨3, 1, 2, 7⟩, children := [29], acks := 1 } }
     let p : Nat := 30
     let w := s.wave
     p < 32 ∧
       w.root = true ∧
       s.phaseOf = 3) ∧
    (let s : State := { ((((up.setReg FAB_ID 0x80000000#32).setReg FAB_SHAPE 0x88100010#32).setReg (PORT_STAT 30) (BitVec.ofNat 32 pUp)).modPort 30 (fun x => { { x with asked := some 5 } with trained := true })) with now := 99 }
     let p : Nat := 30
     p < 32 ∧
       s.listening p = true ∧
       s.mpDown = false) ∧
    (let s : State := { ((((up.setReg FAB_ID 0x80000000#32).setReg FAB_SHAPE 0x88100010#32).setReg (PORT_STAT 30) (BitVec.ofNat 32 pUp)).modPort 30 (fun x => { { x with asked := some 5 } with trained := true })) with now := 99 }
     let p : Nat := 30
     let x := s.port p
     let proof := []
     p < 32 ∧
       s.listening p = true ∧
       x.asked ≠ none ∧
       s.proofOk p proof = false) ∧
    (let s : State := { ((((up.setReg FAB_ID 0x80000000#32).setReg FAB_SHAPE 0x88100010#32).setReg (PORT_STAT 30) (BitVec.ofNat 32 pUp)).modPort 30 (fun x => { { x with asked := some 5 } with trained := true })) with now := 99 }
     let p : Nat := 30
     let x := s.port p
     let t0 := 5
     p < 32 ∧
       x.asked = some t0) ∧
    (let s : State := { (((((up.setReg FAB_ROOT 0xC000#32).setReg FAB_ID 0x80000000#32).setReg FAB_SHAPE 0x88100010#32).setReg (PORT_STAT 30) (BitVec.ofNat 32 pUp)).modPort 30 (fun x => { x with trained := true })) with now := 99, holds := [], collect := [] }
     let p : Nat := 30
     p < 32 ∧
       s.portSt p = pUp ∧
       s.hasCollector = true ∧
       s.isCollector = true) ∧
    (let s : State := { (((((up.setReg FAB_ROOT 0x8005#32).setReg FAB_ID 0x80000000#32).setReg FAB_SHAPE 0x88100010#32).setReg (PORT_STAT 30) (BitVec.ofNat 32 pUp)).modPort 30 (fun x => { x with trained := true })) with now := 99, holds := [], collect := [] }
     let p : Nat := 30
     p < 32 ∧
       s.portSt p = pUp ∧
       s.hasCollector = true ∧
       s.isCollector = false) ∧
    (let s : State := { (((((up.setReg FAB_ROOT 0xC000#32).setReg FAB_ID 0x80000000#32).setReg FAB_SHAPE 0x88100010#32).setReg (PORT_STAT 30) (BitVec.ofNat 32 pUp)).modPort 30 (fun x => { x with trained := true })) with now := 99, holds := [⟨(⟨0, 0, 7, 16, 65535, 9⟩ : WitnessRec), 5⟩], collect := [⟨(⟨0, 0, 7, 16, 65535, 9⟩ : WitnessRec), 5⟩] }
     let p : Nat := 30
     let i := 0
     let h := (⟨(⟨0, 0, 7, 16, 65535, 9⟩ : WitnessRec), 5⟩ : WitHold)
     p < 32 ∧
       s.holds[i]? = some h) ∧
    (let s : State := { (((((up.setReg FAB_ROOT 0xC000#32).setReg FAB_ID 0x80000000#32).setReg FAB_SHAPE 0x88100010#32).setReg (PORT_STAT 30) (BitVec.ofNat 32 pUp)).modPort 30 (fun x => { x with trained := true })) with now := 99, holds := [⟨(⟨0, 0, 7, 16, 65535, 9⟩ : WitnessRec), 5⟩], collect := [⟨(⟨0, 0, 7, 16, 65535, 9⟩ : WitnessRec), 5⟩] }
     let p : Nat := 30
     let i := 0
     let h := (⟨(⟨0, 0, 7, 16, 65535, 9⟩ : WitnessRec), 5⟩ : WitHold)
     p < 32 ∧
       s.collect[i]? = some h) ∧
    (let s : State := { (((((up.setReg FAB_ROOT 0#32).setReg FAB_ID 0x80000000#32).setReg FAB_SHAPE 0x88100010#32).setReg (PORT_STAT 30) (BitVec.ofNat 32 pUp)).modPort 30 (fun x => { x with trained := true })) with now := 99, suspects := [(⟨0, 0, 7, 3, 0, some 5⟩ : Suspect), ⟨0, 0, 9, 3, 0, some 9⟩] }
     let p : Nat := 30
     let i := 0
     let y := (⟨0, 0, 7, 3, 0, some 5⟩ : Suspect)
     let t0 := 5
     p < 32 ∧
       s.suspects[i]? = some y ∧
       y.opened = some t0 ∧
       y.told ≠ 0) := by
  refine ⟨?_, ?_, ?_, ?_, ?_, ?_, ?_, ?_, ?_, ?_, ?_, ?_, ?_, ?_, ?_, ?_, ?_, ?_, ?_, ?_, ?_, ?_⟩
  · decide +kernel
  · decide +kernel
  · decide +kernel
  · decide +kernel
  · decide +kernel
  · decide +kernel
  · decide +kernel
  · decide +kernel
  · decide +kernel
  · decide +kernel
  · decide +kernel
  · decide +kernel
  · decide +kernel
  · decide +kernel
  · decide +kernel
  · decide +kernel
  · decide +kernel
  · decide +kernel
  · decide +kernel
  · decide +kernel
  · decide +kernel
  · decide +kernel

theorem witness_PowerControl :
    (let s : State := { (((up.setReg PWR_CAP_STATUS 0x000001f4#32).setReg PWR_OP_STAT 0x00000000#32).setReg PWR_OP_CTRL 0x0#32) with now := 5000000, pwr := { up.pwr with changed := some 5, volt := 0 } }
     let w := s.pwr
     w.changed ≠ none) ∧
    (let s : State := { (((up.setReg PWR_CAP_STATUS 0x000001f4#32).setReg PWR_OP_STAT 0x00000000#32).setReg PWR_OP_CTRL 0x0#32) with now := 5000000, pwr := { up.pwr with changed := some 5, volt := 0 } }
     s.clocked = true) ∧
    (let s : State := { ((up.setReg PWR_CAP_STATUS 0x000001f4#32).setReg PWR_OP_STAT 0x84000004#32) with now := 5000000, pwr := { up.pwr with busy := some (8, 77), move := 2, pend := none } }
     let w := s.pwr
     let v := 8
     let t0 := 77
     w.busy = some (v, t0) ∧
       s.mpDown = false ∧
       s.isMember = false ∧
       w.move = 2) ∧
    (let s : State := { ((up.setReg PWR_CAP_STATUS 0x000001f4#32).setReg PWR_OP_STAT 0x84000004#32) with now := 5000000, pwr := { up.pwr with busy := some (8, 77), move := 1, pend := none } }
     let w := s.pwr
     let v := 8
     let t0 := 77
     w.busy = some (v, t0) ∧
       s.mpDown = false ∧
       w.move = 1 ∧
       w.pend = none) ∧
    (let s : State := { ((up.setReg PWR_CAP_STATUS 0x000001f4#32).setReg PWR_OP_STAT 0x84000004#32) with now := 5000000, pwr := { up.pwr with busy := some (8, 77), move := 0, pend := none } }
     let w := s.pwr
     let v := 8
     let t0 := 77
     w.busy = some (v, t0) ∧
       s.mpDown = false) ∧
    (let s : State := { ((up.setReg PWR_CAP_STATUS 220#32).setReg PWR_OP_STAT 0x00000300#32) with now := 5000000, pwr := { up.pwr with pend := none, floor := 0, volt := 5 } }
     let w := s.pwr
     s.clocked = true ∧
       w.step = false ∧
       w.boost = false ∧
       s.boosting = false ∧
       s.forced = false ∧
       w.pend = none ∧
       w.floor ≤ 60) ∧
    (let s : State := { ((up.setReg PWR_CAP_STATUS 220#32).setReg PWR_OP_STAT 0x00000300#32) with now := 5000000, pwr := { up.pwr with pend := (some 5), floor := 0, volt := 5 } }
     let w := s.pwr
     let j := 5
     s.clocked = true ∧
       w.step = false ∧
       w.boost = false ∧
       s.boosting = false ∧
       s.forced = false ∧
       j < 8 ∧
       s.mpDown = false ∧
       w.pend = some j ∧
       j ≠ s.opNow) ∧
    (let s : State := { (((up.setReg PWR_CAP_STATUS 0x000001f4#32).setReg PWR_OP_STAT 0#32).setReg PWR_OP_CTRL 0x8#32) with now := 5000000, pwr := { up.pwr with k60 := 64 } }
     let w := s.pwr
     s.fixedMode = true ∧
       64 ≤ w.k60 ∧
       s.opNow < 7 ∧
       s.mpDown = false ∧
       s.forced = false) ∧
    (let s : State := { (((up.setReg PWR_CAP_STATUS 0x000001f4#32).setReg PWR_BUDGET 500#32).setReg PWR_CAP 600#32) with now := 5000000, pwr := { up.pwr with k60 := 0 } }
     let a : Agent := .mp
     let v : W32 := 220#32
     let u : W32 := 220#32
     Writes s a PWR_CAP v u ∧
       capValid u.toNat = true) ∧
    (let s : State := { (((up.setReg PWR_CAP_STATUS 0x000001f4#32).setReg PWR_BUDGET 500#32).setReg PWR_CAP 600#32) with now := 5000000, pwr := { up.pwr with k60 := 0 } }
     let a : Agent := .mp
     let v : W32 := 219#32
     let u : W32 := 219#32
     Writes s a PWR_CAP v u ∧
       capValid u.toNat = false) ∧
    (let s : State := { (((up.setReg PWR_CAP_STATUS 0x000001f4#32).setReg PWR_BUDGET 500#32).setReg PWR_CAP 600#32) with now := 5000000, pwr := { up.pwr with k60 := 0 } }
     let v : W32 := 220#32
     let u : W32 := 220#32
     Writes s .bmc PWR_BUDGET v u ∧
       capValid u.toNat = true) ∧
    (let s : State := { (((up.setReg PWR_CAP_STATUS 0x000001f4#32).setReg PWR_BUDGET 500#32).setReg PWR_CAP 600#32) with now := 5000000, pwr := { up.pwr with k60 := 0 } }
     let v : W32 := 219#32
     let u : W32 := 219#32
     Writes s .host PWR_BUDGET v u) ∧
    (let s : State := { ((up.setReg PWR_CAP_STATUS 0x000001f4#32).setReg PWR_OP_CTRL 0#32) with now := 5000000, pwr := { up.pwr with changed := none } }
     let a : Agent := .host
     let v : W32 := 0x0#32
     let u : W32 := 0x0#32
     Writes s a PWR_OP_CTRL v u) ∧
    (let s : State := { (((up.setReg PWR_CAP_STATUS 0x000001f4#32).setReg PWR_OP_STAT 0x84000004#32).setReg PWR_ALERTS 0xFFFFFFFF#32) with now := 5000000, pwr := { up.pwr with busy := some (3, 77), move := 2, pend := some 5 } }
     let w := s.pwr
     s.clocked = true ∧
       w.alertLow = false) ∧
    (let s : State := { (up.setReg PWR_CAP_STATUS 0x000001f4#32) with now := 5000000, pwr := { up.pwr with alertLow := true } }
     let w := s.pwr
     w.alertLow = true) ∧
    (let s : State := { (up.setReg PWR_CAP_STATUS 0x400001F4#32) with now := 5000000, pwr := { up.pwr with alertRose := some 4999999 } }
     let w := s.pwr
     let t0 := 4999999
     w.alertRose = some t0) ∧
    (let s : State := { ((up.setReg PWR_CAP_STATUS 0x200001F4#32).setReg PWR_OP_STAT 0#32) with now := 5000000, pwr := { up.pwr with hotAt := none, temps := [], floor := 48 } }
     let w := s.pwr
     let sensor := 87
     let r := 420
     s.clocked = true ∧
       sensor < 88 ∧
       420 ≤ r ∧
       r < 1024 ∧
       w.hotAt = none) ∧
    (let s : State := { ((up.setReg PWR_CAP_STATUS 0x200001F4#32).setReg PWR_OP_STAT 0#32) with now := 5000000, pwr := { up.pwr with hotAt := (some 9), temps := [], floor := 48 } }
     let w := s.pwr
     let sensor := 87
     let r := 420
     let t0 := 9
     s.clocked = true ∧
       sensor < 88 ∧
       420 ≤ r ∧
       r < 1024 ∧
       w.hotAt = some t0) ∧
    (let s : State := { ((up.setReg PWR_CAP_STATUS 0x200001F4#32).setReg PWR_OP_STAT 0#32) with now := 5000000, pwr := { up.pwr with hotAt := none, temps := [], floor := 48 } }
     let w := s.pwr
     let sensor := 87
     let r := 407
     s.clocked = true ∧
       sensor < 88 ∧
       r < 408 ∧
       (∀ x ∈ w.temps, x.1 ≠ sensor → x.2 < 408)) ∧
    (let s : State := { ((up.setReg PWR_CAP_STATUS 0x200001F4#32).setReg PWR_OP_STAT 0#32) with now := 5000000, pwr := { up.pwr with hotAt := none, temps := [], floor := 48 } }
     let sensor := 87
     let r := 408
     s.clocked = true ∧
       sensor < 88 ∧
       408 ≤ r ∧
       r < 420) := by
  refine ⟨?_, ?_, ?_, ?_, ?_, ?_, ?_, ?_, ?_, ?_, ?_, ?_, ?_, ?_, ?_, ?_, ?_, ?_, ?_, ?_⟩
  · decide +kernel
  · decide +kernel
  · decide +kernel
  · decide +kernel
  · decide +kernel
  · decide +kernel
  · decide +kernel
  · decide +kernel
  · exact ⟨writes_of (by decide +kernel), by decide +kernel⟩
  · exact ⟨writes_of (by decide +kernel), by decide +kernel⟩
  · exact ⟨writes_of (by decide +kernel), by decide +kernel⟩
  · exact writes_of (by decide +kernel)
  · exact writes_of (by decide +kernel)
  · decide +kernel
  · decide +kernel
  · decide +kernel
  · decide +kernel
  · decide +kernel
  · decide +kernel
  · decide +kernel

theorem witness_RopeMembers :
    (let s : State := { ((((((((((up.setReg FAB_ID 0x80000003#32).setReg FAB_SHAPE 0x88100010#32).setReg PWR_ROPE_STAT 0x80000005#32).setReg PWR_OP_STAT 0#32).setReg PWR_ROPE_LEADER 1#32).setReg PWR_CAP_STATUS 700#32).setReg PWR_ROPE_EPOCH 7#32).setReg (PORT_STAT 2) 3#32).setReg (PORT_STAT 30) 3#32).setReg (PORT_STAT 31) 3#32) with now := 5000000, rope := { up.rope with members := [1, 3] }, pwr := { up.pwr with p := 4000, d := 3000, duN := 3000 } }
     let f : RopeForm := (⟨⟨5, 7, 9, 30⟩, 2, listHash [3, 7], 2⟩ : RopeForm)
     (s.isMember = true ∨ (s.joining = true ∧ s.ropeId ≠ f.hdr.rope) ∨ s.dev = devFaulted)) ∧
    (let s : State := { ((((((((((up.setReg FAB_ID 0x80000003#32).setReg FAB_SHAPE 0x88100010#32).setReg PWR_ROPE_STAT 0x00000000#32).setReg PWR_OP_STAT 0#32).setReg PWR_ROPE_LEADER 1#32).setReg PWR_CAP_STATUS 700#32).setReg PWR_ROPE_EPOCH 7#32).setReg (PORT_STAT 2) 3#32).setReg (PORT_STAT 30) 3#32).setReg (PORT_STAT 31) 3#32) with now := 5000000, rope := { up.rope with seq := 7 }, pwr := { up.pwr with p := 4000, d := 3000, duN := 3000 } }
     s.isMember = false ∧
       s.dev ≠ devFaulted ∧
       s.joining = false) ∧
    (let s : State := { ((((((((((up.setReg FAB_ID 0x80000003#32).setReg FAB_SHAPE 0x88100010#32).setReg PWR_ROPE_STAT 0x00000005#32).setReg PWR_OP_STAT 0#32).setReg PWR_ROPE_LEADER 1#32).setReg PWR_CAP_STATUS 700#32).setReg PWR_ROPE_EPOCH 7#32).setReg (PORT_STAT 2) 3#32).setReg (PORT_STAT 30) 3#32).setReg (PORT_STAT 31) 3#32) with now := 5000000, rope := { up.rope with joinAt := some 4000000, list := [3, 7], forms := [(⟨⟨5, 3, 9, 30⟩, 2, listHash [3, 7], 6⟩ : RopeForm)] }, pwr := { up.pwr with p := 4000, d := 3000, duN := 3000 } }
     let r := s.rope
     let f : RopeForm := (⟨⟨5, 7, 9, 30⟩, 2, listHash [3, 7], 2⟩ : RopeForm)
     let forms := r.forms.filter (fun g => g.hdr.rope != f.hdr.rope || g.hdr.origin != f.hdr.origin) ++ [f]
     let ours := forms.filter (fun g => g.hdr.rope == s.ropeId)
     s.isMember = false ∧
       s.dev ≠ devFaulted ∧
       s.joining = true ∧
       s.ropeId = f.hdr.rope ∧
       (∀ g ∈ ours, g.listHash = listHash r.list ∧ g.members = r.list.length ∧ g.hdr.origin ∈ r.list) ∧
       (∀ d ∈ r.list, ∃ g ∈ ours, g.hdr.origin = d)) ∧
    (let s : State := { ((((((((((up.setReg FAB_ID 0x80000003#32).setReg FAB_SHAPE 0x88100010#32).setReg PWR_ROPE_STAT 0x80000005#32).setReg PWR_OP_STAT 2#32).setReg PWR_ROPE_LEADER 1#32).setReg PWR_CAP_STATUS 700#32).setReg PWR_ROPE_EPOCH 7#32).setReg (PORT_STAT 2) 3#32).setReg (PORT_STAT 30) 3#32).setReg (PORT_STAT 31) 3#32) with now := 5000000, rope := { up.rope with members := [1, 3], seen := [(5, 1, 9, 4999999)] }, pwr := { up.pwr with p := 4000, d := 3000, duN := 3000 } }
     let h : PaceHdr := (⟨5, 1, 9, 30⟩ : PaceHdr)
     let epoch := 0
     let point := 0
     let n := 2
     epoch < 2 ^ 32 ∧
       point < 8 ∧
       s.floodIn h 0x11 (leBytes 4 epoch ++ leBytes 1 point ++ leBytes 2 n) = none) ∧
    (let s : State := { ((((((((((up.setReg FAB_ID 0x80000003#32).setReg FAB_SHAPE 0x88100010#32).setReg PWR_ROPE_STAT 0x00000005#32).setReg PWR_OP_STAT 2#32).setReg PWR_ROPE_LEADER 1#32).setReg PWR_CAP_STATUS 700#32).setReg PWR_ROPE_EPOCH 7#32).setReg (PORT_STAT 2) 3#32).setReg (PORT_STAT 30) 3#32).setReg (PORT_STAT 31) 3#32) with now := 5000000, rope := { up.rope with joinAt := some 4000000, list := [3, 7] }, pwr := { up.pwr with p := 4000, d := 3000, duN := 3000 } }
     let h : PaceHdr := (⟨5, 1, 9, 30⟩ : PaceHdr)
     let epoch := 0
     let point := 0
     let n := 2
     epoch < 2 ^ 32 ∧
       point < 8 ∧
       s.floodIn h 0x11 (leBytes 4 epoch ++ leBytes 1 point ++ leBytes 2 n) ≠ none ∧
       s.joining = true ∧
       s.ropeId = h.rope) ∧
    (let s : State := { ((((((((((up.setReg FAB_ID 0x80000003#32).setReg FAB_SHAPE 0x88100010#32).setReg PWR_ROPE_STAT 0x84000005#32).setReg PWR_OP_STAT 2#32).setReg PWR_ROPE_LEADER 1#32).setReg PWR_CAP_STATUS 700#32).setReg PWR_ROPE_EPOCH 7#32).setReg (PORT_STAT 2) 3#32).setReg (PORT_STAT 30) 3#32).setReg (PORT_STAT 31) 3#32) with now := 5000000, rope := { up.rope with members := [1, 3] }, pwr := { up.pwr with p := 4000, d := 3000, duN := 3000 } }
     let h : PaceHdr := (⟨5, 1, 9, 30⟩ : PaceHdr)
     let epoch := 0
     let point := 0
     let n := 2
     epoch < 2 ^ 32 ∧
       point < 8 ∧
       s.floodIn h 0x11 (leBytes 4 epoch ++ leBytes 1 point ++ leBytes 2 n) ≠ none ∧
       s.joining = false ∧
       s.inRope h = true ∧
       (s.leads = false ∨ h.origin ≤ s.devId)) ∧
    (let s : State := { ((((((((((up.setReg FAB_ID 0x80000003#32).setReg FAB_SHAPE 0x88100010#32).setReg PWR_ROPE_STAT 0xc4000005#32).setReg PWR_OP_STAT 4#32).setReg PWR_ROPE_LEADER 1#32).setReg PWR_CAP_STATUS 700#32).setReg PWR_ROPE_EPOCH 7#32).setReg (PORT_STAT 2) 3#32).setReg (PORT_STAT 30) 3#32).setReg (PORT_STAT 31) 3#32) with now := 5000000, rope := { up.rope with members := [1, 3], syncAt := 77 }, pwr := { up.pwr with p := 4000, d := 3000, duN := 3000 } }
     s.leads = true) ∧
    (let s : State := { ((((((((((up.setReg FAB_ID 0x80000003#32).setReg FAB_SHAPE 0x88100010#32).setReg PWR_ROPE_STAT 0x80000005#32).setReg PWR_OP_STAT 0#32).setReg PWR_ROPE_LEADER 1#32).setReg PWR_CAP_STATUS 700#32).setReg PWR_ROPE_EPOCH 7#32).setReg (PORT_STAT 2) 3#32).setReg (PORT_STAT 30) 3#32).setReg (PORT_STAT 31) 3#32) with now := 5000000, rope := { up.rope with members := [1, 3] }, pwr := { up.pwr with p := 4000, d := 3000, duN := 3000 } }
     let h : PaceHdr := (⟨5, 1, 9, 30⟩ : PaceHdr)
     let point := 0
     let cause := 1
     point < 8 ∧
       s.floodIn h 0x12 (leBytes 1 point ++ leBytes 1 cause) ≠ none ∧
       s.inRope h = true) ∧
    (let s : State := { ((((((((((up.setReg FAB_ID 0x80000003#32).setReg FAB_SHAPE 0x88100010#32).setReg PWR_ROPE_STAT 0xc3000005#32).setReg PWR_OP_STAT 0#32).setReg PWR_ROPE_LEADER 1#32).setReg PWR_CAP_STATUS 700#32).setReg PWR_ROPE_EPOCH 7#32).setReg (PORT_STAT 2) 3#32).setReg (PORT_STAT 30) 3#32).setReg (PORT_STAT 31) 3#32) with now := 5000000, rope := { up.rope with members := [1, 3] }, pwr := { up.pwr with p := 4000, d := 3000, duN := 3000 } }
     let h : PaceHdr := (⟨5, 1, 9, 30⟩ : PaceHdr)
     let r := s.rope
     let epoch := 8
     let point := 0
     epoch < 2 ^ 32 ∧
       point < 8 ∧
       s.leads = true ∧
       s.inRope h = true ∧
       h.origin ∈ r.members) ∧
    (let s : State := { ((((((((((up.setReg FAB_ID 0x80000003#32).setReg FAB_SHAPE 0x88100010#32).setReg PWR_ROPE_STAT 0x80000005#32).setReg PWR_OP_STAT 6#32).setReg PWR_ROPE_LEADER 1#32).setReg PWR_CAP_STATUS 700#32).setReg PWR_ROPE_EPOCH 7#32).setReg (PORT_STAT 2) 3#32).setReg (PORT_STAT 30) 3#32).setReg (PORT_STAT 31) 3#32) with now := 5000000, rope := { up.rope with members := [1, 3] }, pwr := { up.pwr with p := 4000, d := 3000, duN := 3000 } }
     let h : PaceHdr := (⟨5, 1, 9, 30⟩ : PaceHdr)
     let epoch := 8
     let point := 0
     epoch < 2 ^ 32 ∧
       point < 8 ∧
       s.floodIn h 0x14 (leBytes 4 epoch ++ leBytes 1 point) ≠ none ∧
       s.inRope h = true ∧
       s.thermal = false ∧
       s.forced = false ∧
       point < s.opNow) ∧
    (let s : State := { ((((((((((up.setReg FAB_ID 0x80000003#32).setReg FAB_SHAPE 0x88100010#32).setReg PWR_ROPE_STAT 0xc4000005#32).setReg PWR_OP_STAT 4#32).setReg PWR_ROPE_LEADER 1#32).setReg PWR_CAP_STATUS 700#32).setReg PWR_ROPE_EPOCH 7#32).setReg (PORT_STAT 2) 3#32).setReg (PORT_STAT 30) 3#32).setReg (PORT_STAT 31) 3#32) with now := 5000000, rope := { up.rope with members := [1, 3], syncAt := 77, votes := [(1, 7, 2)] }, pwr := { up.pwr with p := 4000, d := 3000, duN := 3000 } }
     let r := s.rope
     s.leads = true ∧
       r.examined = false ∧
       r.members.Nodup) ∧
    (let s : State := { ((((((((((up.setReg FAB_ID 0x80000003#32).setReg FAB_SHAPE 0x88100010#32).setReg PWR_ROPE_STAT 0x80000005#32).setReg PWR_OP_STAT 0#32).setReg PWR_ROPE_LEADER 1#32).setReg PWR_CAP_STATUS 700#32).setReg PWR_ROPE_EPOCH 7#32).setReg (PORT_STAT 2) 3#32).setReg (PORT_STAT 30) 3#32).setReg (PORT_STAT 31) 3#32) with now := 5000000, rope := { up.rope with members := [1, 3], floors := [] }, pwr := { up.pwr with p := 4000, d := 3000, duN := 3000 } }
     let h : PaceHdr := (⟨5, 1, 9, 30⟩ : PaceHdr)
     let set := true
     s.floodIn h 0x15 (leBytes 1 (Bool.toNat set)) ≠ none ∧
       s.inRope h = true) ∧
    (let s : State := { ((((((((((up.setReg FAB_ID 0x80000003#32).setReg FAB_SHAPE 0x88100010#32).setReg PWR_ROPE_STAT 0x80000005#32).setReg PWR_OP_STAT 3#32).setReg PWR_ROPE_LEADER 1#32).setReg PWR_CAP_STATUS 700#32).setReg PWR_ROPE_EPOCH 7#32).setReg (PORT_STAT 2) 3#32).setReg (PORT_STAT 30) 3#32).setReg (PORT_STAT 31) 3#32) with now := 5000000, rope := { up.rope with members := [1], floors := [1, 3] }, pwr := { up.pwr with p := 4000, d := 3000, duN := 3000 } }
     let h : PaceHdr := (⟨5, 1, 9, 30⟩ : PaceHdr)
     s.inRope h = true) ∧
    (let s : State := { ((((((((((up.setReg FAB_ID 0x80000003#32).setReg FAB_SHAPE 0x88100010#32).setReg PWR_ROPE_STAT 0x80000005#32).setReg PWR_OP_STAT 3#32).setReg PWR_ROPE_LEADER 1#32).setReg PWR_CAP_STATUS 700#32).setReg PWR_ROPE_EPOCH 7#32).setReg (PORT_STAT 2) 3#32).setReg (PORT_STAT 30) 3#32).setReg (PORT_STAT 31) 3#32) with now := 5000000, rope := { up.rope with members := [1], floors := [1, 3] }, pwr := { up.pwr with p := 4000, d := 3000, duN := 3000 } }
     let h : PaceHdr := (⟨5, 1, 9, 30⟩ : PaceHdr)
     let d := 3
     s.floodIn h 0x17 (leBytes 2 d) ≠ none ∧
       s.inRope h = true ∧
       d = s.devId) ∧
    (let s : State := { ((((((((((up.setReg FAB_ID 0x80000003#32).setReg FAB_SHAPE 0x88100010#32).setReg PWR_ROPE_STAT 0x80000005#32).setReg PWR_OP_STAT 0#32).setReg PWR_ROPE_LEADER 1#32).setReg PWR_CAP_STATUS 700#32).setReg PWR_ROPE_EPOCH 7#32).setReg (PORT_STAT 2) 3#32).setReg (PORT_STAT 30) 3#32).setReg (PORT_STAT 31) 3#32) with now := 5000000, rope := { up.rope with members := [1] }, pwr := { up.pwr with p := 4000, d := 3000, duN := 3000 } }
     let h : PaceHdr := (⟨5, 1, 9, 30⟩ : PaceHdr)
     let d := 7
     s.floodIn h 0x17 (leBytes 2 d) ≠ none ∧
       s.inRope h = true ∧
       d ≠ s.devId) ∧
    (let s : State := { ((((((((((up.setReg FAB_ID 0x80000003#32).setReg FAB_SHAPE 0x88100010#32).setReg PWR_ROPE_STAT 0x00000005#32).setReg PWR_OP_STAT 0#32).setReg PWR_ROPE_LEADER 1#32).setReg PWR_CAP_STATUS 700#32).setReg PWR_ROPE_EPOCH 7#32).setReg (PORT_STAT 2) 3#32).setReg (PORT_STAT 30) 3#32).setReg (PORT_STAT 31) 3#32) with now := 5000000, rope := { up.rope with joinAt := some 4000000, list := [3, 7] }, pwr := { up.pwr with p := 4000, d := 3000, duN := 3000 } }
     let h : PaceHdr := (⟨5, 1, 9, 30⟩ : PaceHdr)
     let reason := 2
     s.floodIn h 0x18 (leBytes 1 reason) ≠ none ∧
       s.joining = true ∧
       s.ropeId = h.rope) ∧
    (let s : State := { ((((((((((up.setReg FAB_ID 0x80000003#32).setReg FAB_SHAPE 0x88100010#32).setReg PWR_ROPE_STAT 0x80000005#32).setReg PWR_OP_STAT 0#32).setReg PWR_ROPE_LEADER 1#32).setReg PWR_CAP_STATUS 700#32).setReg PWR_ROPE_EPOCH 7#32).setReg (PORT_STAT 2) 3#32).setReg (PORT_STAT 30) 3#32).setReg (PORT_STAT 31) 3#32) with now := 5000000, rope := { up.rope with members := [1, 3] }, pwr := { up.pwr with p := 9000, d := 8500, duN := 8500, busyAt := some 9, pend := none } }
     let r := s.rope
     let t0 := 9
     s.pwr.busyAt = some t0 ∧
       s.isMember = true ∧
       s.mpDown = false ∧
       s.forced = false ∧
       s.devId ∉ r.floors ∧
       max s.opNow (s.pwr.pend.getD 0) < s.capPoint) ∧
    (let s : State := { ((((((((((up.setReg FAB_ID 0x80000003#32).setReg FAB_SHAPE 0x88100010#32).setReg PWR_ROPE_STAT 0xc0000005#32).setReg PWR_OP_STAT 0#32).setReg PWR_ROPE_LEADER 1#32).setReg PWR_CAP_STATUS 700#32).setReg PWR_ROPE_EPOCH 7#32).setReg (PORT_STAT 2) 3#32).setReg (PORT_STAT 30) 3#32).setReg (PORT_STAT 31) 3#32) with now := 5000000, rope := { up.rope with members := [3, 7], missed := [(7, 99)] }, pwr := { up.pwr with p := 4000, d := 3000, duN := 3000 } }
     let r := s.rope
     let d := 7
     s.leads = true ∧
       d ∈ r.members ∧
       d ≠ s.devId ∧
       16 ≤ Tab.get (fun _ => 0) r.missed d) ∧
    (let s : State := { ((((((((((up.setReg FAB_ID 0x80000003#32).setReg FAB_SHAPE 0x88100010#32).setReg PWR_ROPE_STAT 0x80000005#32).setReg PWR_OP_STAT 0#32).setReg PWR_ROPE_LEADER 7#32).setReg PWR_CAP_STATUS 700#32).setReg PWR_ROPE_EPOCH 7#32).setReg (PORT_STAT 2) 3#32).setReg (PORT_STAT 30) 3#32).setReg (PORT_STAT 31) 3#32) with now := 5000000, rope := { up.rope with members := [3, 7], syncAt := 9 }, pwr := { up.pwr with p := 4000, d := 3000, duN := 3000 } }
     let r := s.rope
     let others := r.members.filter (· != s.devId)
     let led := s.fld PWR_ROPE_LEADER 13 0
     let lost := if others.contains led then led else lowestId others
     s.isMember = true ∧
       s.leads = false ∧
       (lost < s.devId ∨ lost = led) ∧
       lowestId (r.members.filter (· != lost)) = s.devId) ∧
    (let s : State := { ((((((((((up.setReg FAB_ID 0x80000003#32).setReg FAB_SHAPE 0x88100010#32).setReg PWR_ROPE_STAT 0x00000005#32).setReg PWR_OP_STAT 0#32).setReg PWR_ROPE_LEADER 1#32).setReg PWR_CAP_STATUS 700#32).setReg PWR_ROPE_EPOCH 7#32).setReg (PORT_STAT 2) 3#32).setReg (PORT_STAT 30) 3#32).setReg (PORT_STAT 31) 3#32) with now := 5000000, rope := { up.rope with joinAt := some 4000000, list := [3, 7] }, pwr := { up.pwr with p := 4000, d := 3000, duN := 3000 } }
     let r := s.rope
     let t0 := 4000000
     r.joinAt = some t0) := by
  refine ⟨?_, ?_, ?_, ?_, ?_, ?_, ?_, ?_, ?_, ?_, ?_, ?_, ?_, ?_, ?_, ?_, ?_, ?_, ?_, ?_⟩
  · decide +kernel
  · decide +kernel
  · exact ⟨by decide +kernel, by decide +kernel, by decide +kernel, by decide +kernel, (fun g hg => by
      have h : g ∈ [(⟨⟨5, 3, 9, 30⟩, 2, listHash [3, 7], 6⟩ : RopeForm), ⟨⟨5, 7, 9, 30⟩, 2, listHash [3, 7], 2⟩] := hg
      simp only [List.mem_cons, List.not_mem_nil, or_false] at h
      rcases h with rfl | rfl <;> exact ⟨rfl, rfl, by decide⟩), (by decide +kernel)⟩
  · decide +kernel
  · decide +kernel
  · decide +kernel
  · decide +kernel
  · decide +kernel
  · decide +kernel
  · decide +kernel
  · decide +kernel
  · decide +kernel
  · decide +kernel
  · decide +kernel
  · decide +kernel
  · decide +kernel
  · decide +kernel
  · decide +kernel
  · decide +kernel
  · decide +kernel

theorem witness_FencesSparesAndPatrols :
    (let s : State := { up with fenceDue := [(5, 0), (0, 0)] }
     let c : Nat := 0
     let cause := 0
     let want := none
     let p := ((s.pickSpare c want).getD 0)
     c < 72 ∧
       cause < 4 ∧
       s.fenceDue.contains (c, cause) = true ∧
       (s.core c).fault = none ∧
       s.coreSt c = 0 ∧
       s.pickSpare c want = some p) ∧
    (let s : State := { ((List.range 72).foldl (fun (t : State) c => if t.coreSt c = 1 then t.setId c 2 0 else t) up) with fenceDue := [(5, 0), (0, 0)] }
     let c : Nat := 0
     let cause := 0
     let want := none
     c < 72 ∧
       cause < 4 ∧
       s.fenceDue.contains (c, cause) = true ∧
       (s.core c).fault = none ∧
       s.coreSt c = 0 ∧
       s.pickSpare c want = none) ∧
    (let s : State := { up with fenceDue := [(5, 0), (35, 0)] }
     let c : Nat := 35
     let cause := 0
     c < 72 ∧
       cause < 4 ∧
       s.fenceDue.contains (c, cause) = true ∧
       (s.core c).fault = none ∧
       s.coreSt c = 1) ∧
    (let s : State := { up with sparing := [⟨66, 1, 1, 1⟩, (⟨65, 3, 9, 5⟩ : Sparing)] }
     let c : Nat := 65
     let x := (⟨65, 3, 9, 5⟩ : Sparing)
     c < 72 ∧
       s.sparing.find? (fun y => y.spare == c) = some x) ∧
    (let s : State := { up with sparing := [⟨66, 1, 1, 1⟩, (⟨65, 3, 9, 5⟩ : Sparing)] }
     let c : Nat := 65
     let x := (⟨65, 3, 9, 5⟩ : Sparing)
     c < 72 ∧
       s.sparing.find? (fun y => y.spare == c) = some x ∧
       s.coreSt c ≠ 2) ∧
    (let s : State := { up with cairnDue := [(3, 5), (71, 2 ^ 70 + 9), (71, 4)] }
     let c : Nat := 71
     let x := ((71, 2 ^ 70 + 9) : Nat × Nat)
     c < 72 ∧
       s.cairnDue.find? (fun y => y.1 == c) = some x ∧
       s.mpDown = false) ∧
    (let s : State := { (up.setReg RAS_WDOG 0#32) with disp := [(⟨1, 5, [0x22#64], 0, [], [], [], [], [], 0, none, 1, 0, 0, none, 1, 5, false, 0, false⟩ : Dispatch)], cmds := [theCmd 0x32], polls := [(5, 2)], polled := [(5, 77)] }
     let c : Nat := 5
     let cp := 0
     c < 72 ∧
       s.cpServing cp = true ∧
       s.dispatchedBy cp c = true ∧
       s.coreSt c = 0) ∧
    (let s : State := { (up.setReg RAS_FENCE 0xFF000000#32) with polls := [(0, 255)], fenceDue := [] }
     let c : Nat := 0
     c < 72 ∧
       s.coreSt c = 0 ∧
       max 1 (s.fld RAS_WDOG 19 16) ≤ Tab.get (fun _ => 0) s.polls c) ∧
    (let s : State := { (up.setReg RAS_CP 0x1000#32) with serve := [(1, 3)] }
     let c : Nat := 0
     let cp := 0
     c < 72 ∧
       cp < 4 ∧
       s.cpServing cp = true ∧
       s.fld RAS_CP 14 12 = 1) ∧
    (let s : State := { (up.setReg RAS_CP 0x2490#32) with serve := [(1, 3)] }
     let c : Nat := 0
     let cp := 0
     c < 72 ∧
       cp < 4 ∧
       s.cpServing cp = true ∧
       s.fld RAS_CP 14 12 ≠ 1 ∧
       (∀ n < 5, n ≠ cp → s.cpServing n = false) ∧
       s.dev ≠ devOff) ∧
    (let s : State := up
     let c : Nat := 0
     c < 72 ∧
       3 ≤ s.bootStep ∧
       s.mpDown = false) ∧
    (let s : State := { up with mpDown := true, mpReload := true }
     let c : Nat := 0
     c < 72 ∧
       s.mpReload = true) ∧
    (let s : State := { up with mpDown := true, mpReload := true }
     let c : Nat := 0
     c < 72 ∧
       s.mpReload = true ∧
       s.dev ≠ devOff) ∧
    (let s : State := { (up.setReg RAS_SCRUB_CFG 0x80000000#32) with rowErr := [(0, 0x1#64)] }
     let c : Nat := 0
     let row := (0 : Nat)
     c < 72 ∧
       (s.reg RAS_SCRUB_CFG).getLsbD 31 = true ∧
       64 * row < 0x2D00000000 ∧
       (∀ u ∈ s.eccUnits (64 * row) 64, s.unitErr (64 * row) u = 0 ∨ correctable (s.unitErr (64 * row) u) = true)) ∧
    (let s : State := { (up.setReg RAS_SCRUB_CFG 0x80000000#32) with rowErr := [(0, 0x3#64)] }
     let c : Nat := 0
     let row := (0 : Nat)
     c < 72 ∧
       (s.reg RAS_SCRUB_CFG).getLsbD 31 = true ∧
       64 * row < 0x2D00000000 ∧
       (∃ u ∈ s.eccUnits (64 * row) 64, s.unitErr (64 * row) u ≠ 0 ∧ correctable (s.unitErr (64 * row) u) = false)) ∧
    (let s : State := { up with now := 100000, log := [(9, (⟨5, 7, 4, 0, patrolSource 0, 1, 3, BitVec.ofNat 64 7⟩ : LogRec)), (4000, (⟨5, 7, 4, 0, patrolSource 0, 1, 3, BitVec.ofNat 64 77⟩ : LogRec))] }
     let c : Nat := 0
     let e := 0
     let age := 77
     let info := BitVec.ofNat 64 age
     let i := 4000
     let r := (⟨5, 7, 4, 0, patrolSource 0, 1, 3, BitVec.ofNat 64 77⟩ : LogRec)
     c < 72 ∧
       e < 4096 ∧
       s.coalesces 0x04 0 (patrolSource e) info = some (i, r)) ∧
    (let s : State := (up.setReg RAS_LOG_HEAD 0xFFF#32)
     let c : Nat := 0
     let e := 0
     let age := 2^64+5
     let info := BitVec.ofNat 64 age
     c < 72 ∧
       e < 4096 ∧
       s.coalesces 0x04 0 (patrolSource e) info = none) := by
  refine ⟨?_, ?_, ?_, ?_, ?_, ?_, ?_, ?_, ?_, ?_, ?_, ?_, ?_, ?_, ?_, ?_, ?_⟩
  · decide +kernel
  · decide +kernel
  · decide +kernel
  · decide +kernel
  · decide +kernel
  · decide +kernel
  · decide +kernel
  · decide +kernel
  · decide +kernel
  · decide +kernel
  · decide +kernel
  · decide +kernel
  · decide +kernel
  · decide +kernel
  · decide +kernel
  · decide +kernel
  · decide +kernel

theorem witness_BootAndPins :
    (let s : State := { upIn devBoot with bootStep := 0, boot := { up.boot with recoveryMode := true } }
     s.dev = devBoot ∧
       s.bootStep = 0) ∧
    (let s : State := { upIn devBoot with bootStep := 0, boot := { up.boot with recoveryMode := true } }
     let b := s.boot
     s.dev = devBoot ∧
       s.bootStep = 0 ∧
       b.recoveryMode = true) ∧
    (let s : State := { { upIn devBoot with bootStep := 0, boot := { up.boot with recoveryMode := false } } with flash := [(2, []), (3, [])] }
     let b := s.boot
     s.dev = devBoot ∧
       s.bootStep = 0 ∧
       b.recoveryMode = false ∧
       s.bootSlot 1 = none) ∧
    (let s : State := { upIn devBoot with bootStep := 1, boot := { up.boot with recoveryMode := true } }
     let b := s.boot
     let image : List Byte := []
     s.dev ≠ devOff ∧
       b.recoveryMode = true ∧
       s.bootStep = 1 ∧
       (4194304 < image.length ∨ s.imageOk 3 image = false)) ∧
    (let s : State := { upIn devBoot with bootStep := 3, boot := { up.boot with vrPg := [], vrEn := 1 } }
     let b := s.boot
     let k := 0
     k < 3 ∧
       s.dev = devBoot ∧
       s.bootStep = 3 ∧
       k < b.vrEn ∧
       k ∉ b.vrPg) ∧
    (let s : State := { upIn devBoot with bootStep := 7, boot := { up.boot with keyTodo := true, memTodo := true, driveTodo := true } }
     let b := s.boot
     s.dev = devBoot ∧
       s.bootStep = 7 ∧
       s.mpDown = false ∧
       b.keyTodo = true) ∧
    (let s : State := { upIn devBoot with bootStep := 7, boot := { up.boot with keyTodo := true, memTodo := true, driveTodo := true } }
     let b := s.boot
     let r : TrainResult := (⟨List.range 24, true, 64, 8, 2⟩ : TrainResult)
     s.dev = devBoot ∧
       s.bootStep = 7 ∧
       s.mpDown = false ∧
       b.memTodo = true ∧
       (∀ c < 24, c ∈ r.channels)) ∧
    (let s : State := { upIn devBoot with bootStep := 7, boot := { up.boot with keyTodo := true, memTodo := true, driveTodo := false } }
     let b := s.boot
     let r : TrainResult := (⟨List.range 23, false, 0, 0, 0⟩ : TrainResult)
     s.dev = devBoot ∧
       s.bootStep = 7 ∧
       s.mpDown = false ∧
       b.memTodo = true ∧
       (∃ c < 24, c ∉ r.channels)) ∧
    (let s : State := { upIn devBoot with bootStep := 7, boot := { up.boot with keyTodo := true, memTodo := true, driveTodo := true } }
     let b := s.boot
     s.dev = devBoot ∧
       s.bootStep = 7 ∧
       s.mpDown = false ∧
       b.driveTodo = true) ∧
    (let s : State := { up with bootStep := 5, boot := { up.boot with sysRstLow := true } }
     let b := s.boot
     b.sysRstLow = true ∧
       b.tripped = false) ∧
    (let s : State := { up with bootStep := 11, boot := { up.boot with perstLow := false }, cmds := [theCmd 1] }
     let b := s.boot
     b.perstLow = false ∧
       s.dev ≠ devOff ∧
       4 ≤ s.bootStep) ∧
    (let s : State := { upIn devBoot with bootStep := 3, boot := { up.boot with perstLow := false }, cmds := [theCmd 1] }
     let b := s.boot
     b.perstLow = false ∧
       s.bootStep < 4) ∧
    (let s : State := { (up.setReg (PORT_CTRL 31) 1#32) with bootStep := 3, boot := { up.boot with perstLow := true, vrPg := [0, 1, 2], kind := 1 } }
     let b := s.boot
     b.perstLow = true ∧
       s.dev ≠ devOff ∧
       s.bootStep = 3 ∧
       b.vrPg.length = 3) ∧
    (let s : State := { upIn devBoot with bootStep := 3, boot := { up.boot with vrPg := [0], vrEn := 2 } }
     let b := s.boot
     let k := 0
     k < b.vrEn ∧
       k ∈ b.vrPg) ∧
    (let s : State := upIn devFaulted
     s.dev ≠ devOff) ∧
    (let s : State := upIn devFaulted
     let sensor := 87
     let r := 1023
     s.dev ≠ devOff ∧
       sensor < 88 ∧
       460 ≤ r) ∧
    (let s : State := up
     let b := s.boot
     s.dev ≠ devOff ∧
       4 ≤ s.bootStep ∧
       b.perstLow = false) ∧
    (let s : State := up
     s.pcieUp = true) := by
  refine ⟨?_, ?_, ?_, ?_, ?_, ?_, ?_, ?_, ?_, ?_, ?_, ?_, ?_, ?_, ?_, ?_, ?_, ?_⟩
  · decide +kernel
  · decide +kernel
  · decide +kernel
  · decide +kernel
  · decide +kernel
  · decide +kernel
  · decide +kernel
  · decide +kernel
  · decide +kernel
  · decide +kernel
  · decide +kernel
  · decide +kernel
  · decide +kernel
  · decide +kernel
  · decide +kernel
  · decide +kernel
  · decide +kernel
  · decide +kernel

theorem witness_FramesGoByDimension :
    (let s : State := { ((List.range 32).foldl (fun (t : State) p => t.setReg (PORT_STAT p) 3#32) ((up.setReg FAB_ID 0x80000000#32).setReg FAB_SHAPE 0x88100010#32)) with broken := [] }
     let e : Egress := (⟨(⟨5, 1, 0, 1, 1, 5, 0, 1023, [⟨5, 0, 0, List.replicate 64 1⟩]⟩ : Frame), none, none, false, 3⟩ : Egress)
     let p : Nat := (((s.hopOf e).map (·.1)).getD 0)
     let vc : Nat := (((s.hopOf e).map (·.2)).getD 9)
     e.out = none ∧
       ((s.reg FAB_ROUTE).getLsbD 0 = false ∨ e.frame.tc < 2) ∧
       s.hopOf e = some (p, vc)) ∧
    (let s : State := { ((List.range 32).foldl (fun (t : State) p => t.setReg (PORT_STAT p) 3#32) ((up.setReg FAB_ID 0x80000000#32).setReg FAB_SHAPE 0x88100010#32)) with broken := [] }
     let e : Egress := (⟨(⟨5, 1, 0, 1, 1, 5, 0, 1023, [⟨5, 0, 0, List.replicate 64 1⟩]⟩ : Frame), none, none, false, 3⟩ : Egress)
     let p : Nat := (((s.hopOf e).map (·.1)).getD 0)
     let vc : Nat := (((s.hopOf e).map (·.2)).getD 9)
     let d := portDim p
     let d' := 0
     e.out = none ∧
       ((s.reg FAB_ROUTE).getLsbD 0 = false ∨ e.frame.tc < 2) ∧
       s.hopOf e = some (p, vc) ∧
       d' < d) ∧
    (let s : State := { ((List.range 32).foldl (fun (t : State) p => t.setReg (PORT_STAT p) 3#32) ((up.setReg FAB_ID 0x80000000#32).setReg FAB_SHAPE 0x88100010#32)) with broken := [] }
     let e : Egress := (⟨(⟨5, 1, 0, 1, 1, 5, 0, 1023, [⟨5, 0, 0, List.replicate 64 1⟩]⟩ : Frame), none, none, false, 3⟩ : Egress)
     let p : Nat := (((s.hopOf e).map (·.1)).getD 0)
     let vc : Nat := (((s.hopOf e).map (·.2)).getD 9)
     let d := portDim p
     e.out = none ∧
       ((s.reg FAB_ROUTE).getLsbD 0 = false ∨ e.frame.tc < 2) ∧
       s.hopOf e = some (p, vc) ∧
       (∀ x ∈ s.broken, x.1 ≠ d)) ∧
    (let s : State := { ((List.range 32).foldl (fun (t : State) p => t.setReg (PORT_STAT p) 3#32) ((up.setReg FAB_ID 0x80000000#32).setReg FAB_SHAPE 0x88100010#32)) with broken := [(0, 0)] }
     let e : Egress := (⟨(⟨5, 1, 0, 1, 1024, 5, 0, 1023, [⟨5, 0, 0, List.replicate 64 1⟩]⟩ : Frame), none, none, false, 3⟩ : Egress)
     let p : Nat := (((s.hopOf e).map (·.1)).getD 0)
     let vc : Nat := (((s.hopOf e).map (·.2)).getD 9)
     let d := portDim p
     let n := s.fabSize d
     let c := coordAt s.devId d
     let to' := coordAt e.frame.dst d
     let l := 0
     e.out = none ∧
       ((s.reg FAB_ROUTE).getLsbD 0 = false ∨ e.frame.tc < 2) ∧
       s.hopOf e = some (p, vc) ∧
       s.broken = [(d, l)] ∧
       l ∈ linksPlus n c to' ∧
       l ∉ linksMinus n c to') := by
  refine ⟨?_, ?_, ?_, ?_⟩
  · decide +kernel
  · decide +kernel
  · decide +kernel
  · decide +kernel

theorem witness_DeviceMemoryReadsBack :
    (let s : State := up
     let a : Nat := 0
     let data : List Byte := ([] : List Byte)
     Clean s a data.length) ∧
    (let s : State := up
     let a : Nat := 0
     let data : List Byte := ([] : List Byte)
     let b := (a + 3)
     Clean s a data.length ∧
       (b < a ∨ a + data.length ≤ b)) ∧
    (let s : State := up
     let a : Nat := 0
     let data : List Byte := ([] : List Byte)
     let b := (a + 3)
     Clean s a data.length ∧
       b ≠ MEM_T1_EDC) ∧
    (let s : State := up
     let a : Nat := 0
     let n : Nat := ([] : List Byte).length
     Clean s a n) ∧
    (let s : State := up
     let a : Nat := 0
     let n : Nat := ([] : List Byte).length
     let b := (a + 3)
     Clean s a n ∧
       b ≠ MEM_T1_EDC) ∧
    (let s : State := { up with edcFaults := [(3, 4)] }
     let a : Nat := (64 * 3)
     let u := 3
     64 * u < 0x2D00000000 ∧
       a = 64 * u ∧
       4 ≤ Tab.get (fun _ => 0) s.edcFaults u) ∧
    (let s : State := { up with rowErr := [(1, 3#64), (0, 1#64)] }
     let a : Nat := 0
     let n : Nat := (List.replicate 70 7).length
     (∃ u ∈ s.eccUnits a n, s.unitErr a u ≠ 0 ∧ correctable (s.unitErr a u) = false)) ∧
    (let s : State := { up with rowErr := [(1, 3#64), (0, 1#64)] }
     let a : Nat := 64
     let data : List Byte := ([1,2,3,4,5] : List Byte)
     (s.addrKind a = .tier1 ∨ s.addrKind a = .tier2) ∧
       0 < data.length ∧
       data.length < 64 ∧
       a / 64 = (a + data.length - 1) / 64 ∧
       s.unitErr a (a / 64) ≠ 0 ∧
       correctable (s.unitErr a (a / 64)) = false) := by
  refine ⟨?_, ?_, ?_, ?_, ?_, ?_, ?_, ?_⟩
  · decide +kernel
  · decide +kernel
  · decide +kernel
  · decide +kernel
  · decide +kernel
  · decide +kernel
  · decide +kernel
  · decide +kernel

end Sys2Proof.Tests
end

section
/-!
SUPPORT of the proofs. Fields of registers, what the shared operations on registers leave alone, and the relation "only the cores
differ".
-/

namespace Sys2Proof.Machine

/-! ## Fields of a word -/

/-- A word cut at a field: what lies above it, the field, what lies below it. -/
theorem toNat_eq_field (w : W32) {hi lo : Nat} (h : lo ≤ hi) :
    w.toNat = w.toNat / 2 ^ (hi + 1) * 2 ^ (hi + 1) + regField w hi lo * 2 ^ lo + w.toNat % 2 ^ lo := by
  have hp : (2 : Nat) ^ (hi + 1) = 2 ^ lo * 2 ^ (hi + 1 - lo) := by rw [← pow_add]; congr 1; omega
  have h1 := Nat.div_add_mod w.toNat (2 ^ lo)
  have h2 := Nat.div_add_mod (w.toNat / 2 ^ lo) (2 ^ (hi + 1 - lo))
  rw [Nat.div_div_eq_div_mul, ← hp] at h2
  unfold regField
  calc w.toNat = 2 ^ lo * (w.toNat / 2 ^ lo) + w.toNat % 2 ^ lo := h1.symm
    _ = 2 ^ lo * (2 ^ (hi + 1 - lo) * (w.toNat / 2 ^ (hi + 1)) + w.toNat / 2 ^ lo % 2 ^ (hi + 1 - lo)) + w.toNat % 2 ^ lo := by rw [h2]
    _ = _ := by rw [hp]; ring

/-- A field written, as a number: what lies above and below it stays. -/
theorem toNat_setField (w : W32) {hi lo : Nat} (v : Nat) (h : lo ≤ hi) (hh : hi < 32) :
    (setField w hi lo v).toNat =
      w.toNat / 2 ^ (hi + 1) * 2 ^ (hi + 1) + v % 2 ^ (hi + 1 - lo) * 2 ^ lo + w.toNat % 2 ^ lo := by
  have hw := toNat_eq_field w h
  have hq : w.toNat / 2 ^ (hi + 1) < 2 ^ (32 - (hi + 1)) := by
    rw [Nat.div_lt_iff_lt_mul (Nat.two_pow_pos _), ← pow_add, Nat.sub_add_cancel (by omega)]
    exact w.isLt
  have hv : v % 2 ^ (hi + 1 - lo) + 1 ≤ 2 ^ (hi + 1 - lo) := Nat.mod_lt _ (Nat.two_pow_pos _)
  have hv' : (v % 2 ^ (hi + 1 - lo) + 1) * 2 ^ lo ≤ 2 ^ (hi + 1) := by
    calc _ ≤ 2 ^ (hi + 1 - lo) * 2 ^ lo := Nat.mul_le_mul_right _ hv
      _ = _ := by rw [← pow_add]; congr 1; omega
  have hq' : (w.toNat / 2 ^ (hi + 1) + 1) * 2 ^ (hi + 1) ≤ 2 ^ 32 := by
    calc _ ≤ 2 ^ (32 - (hi + 1)) * 2 ^ (hi + 1) := Nat.mul_le_mul_right _ hq
      _ = _ := by rw [← pow_add]; congr 1; omega
  have hl : w.toNat % 2 ^ lo < 2 ^ lo := Nat.mod_lt _ (Nat.two_pow_pos _)
  rw [add_mul, one_mul] at hv' hq'
  unfold setField
  rw [BitVec.toNat_ofNat, Nat.mod_eq_of_lt (by omega)]
  omega

/-- A bit of a word whose field has been written. -/
theorem testBit_setField (w : W32) {hi lo : Nat} (v : Nat) (h : lo ≤ hi) (hh : hi < 32) (i : Nat) :
    (setField w hi lo v).toNat.testBit i = if lo ≤ i ∧ i ≤ hi then v.testBit (i - lo) else w.toNat.testBit i := by
  have hl : w.toNat % 2 ^ lo < 2 ^ lo := Nat.mod_lt _ (Nat.two_pow_pos _)
  have hp : (2 : Nat) ^ (hi + 1) = 2 ^ (hi + 1 - lo) * 2 ^ lo := by rw [← pow_add]; congr 1; omega
  have he : (setField w hi lo v).toNat =
      2 ^ lo * (2 ^ (hi + 1 - lo) * (w.toNat / 2 ^ (hi + 1)) + v % 2 ^ (hi + 1 - lo)) + w.toNat % 2 ^ lo := by
    rw [toNat_setField w v h hh, hp]; ring
  have hv : v % 2 ^ (hi + 1 - lo) < 2 ^ (hi + 1 - lo) := Nat.mod_lt _ (Nat.two_pow_pos _)
  rw [he, Nat.testBit_two_pow_mul_add _ hl]
  by_cases h1 : i < lo
  · rw [if_pos h1, if_neg (by omega), Nat.testBit_mod_two_pow]; simp [h1]
  · rw [if_neg h1, Nat.testBit_two_pow_mul_add _ hv]
    by_cases h2 : i ≤ hi
    · rw [if_pos (by omega), if_pos (by omega), Nat.testBit_mod_two_pow]; simp; omega
    · rw [if_neg (by omega), if_neg (by omega), Nat.testBit_div_two_pow]; congr 1; omega

theorem testBit_regField (w : W32) (hi lo i : Nat) :
    (regField w hi lo).testBit i = (decide (i < hi + 1 - lo) && w.toNat.testBit (i + lo)) := by
  rw [regField, Nat.testBit_mod_two_pow, Nat.testBit_div_two_pow, Nat.add_comm]

/-- A field read back. -/
theorem regField_setField_same (w : W32) {hi lo : Nat} (v : Nat) (h : lo ≤ hi) (hh : hi < 32) :
    regField (setField w hi lo v) hi lo = v % 2 ^ (hi + 1 - lo) := by
  apply Nat.eq_of_testBit_eq
  intro i
  rw [testBit_regField, testBit_setField w v h hh, Nat.testBit_mod_two_pow]
  by_cases hi' : i < hi + 1 - lo
  · rw [if_pos (by omega), Nat.add_sub_cancel]
  · simp [hi']

/-- Another field of a word whose field has been written. -/
theorem regField_setField_other (w : W32) {hi lo hi' lo' : Nat} (v : Nat) (h : lo ≤ hi) (hh : hi < 32)
    (hd : hi' < lo ∨ hi < lo') : regField (setField w hi lo v) hi' lo' = regField w hi' lo' := by
  apply Nat.eq_of_testBit_eq
  intro i
  rw [testBit_regField, testBit_regField, testBit_setField w v h hh]
  by_cases hi'' : i < hi' + 1 - lo'
  · rw [if_neg (by omega)]
  · simp [hi'']

/-! ## Registers of the device -/

@[simp] theorem State.setReg_core (s : State) (a c : Nat) (v : W32) : (s.setReg a v).core c = s.core c := rfl
@[simp] theorem State.setReg_coreSt (s : State) (a c : Nat) (v : W32) : (s.setReg a v).coreSt c = s.coreSt c := rfl

theorem State.reg_setFld (s : State) (a b hi lo v : Nat) :
    (s.setFld a hi lo v).reg b = if b = a then setField (s.reg a) hi lo v else s.reg b := State.reg_setReg _ _ _ _

theorem State.reg_setFld_other (s : State) {a b : Nat} (hi lo v : Nat) (h : b ≠ a) : (s.setFld a hi lo v).reg b = s.reg b := by
  rw [State.reg_setFld, if_neg h]

/-- A field read back from the register it was written to. -/
theorem State.fld_setFld_same (s : State) (a : Nat) {hi lo : Nat} (v : Nat) (h : lo ≤ hi) (hh : hi < 32) :
    (s.setFld a hi lo v).fld a hi lo = v % 2 ^ (hi + 1 - lo) := by
  rw [State.fld, State.reg_setFld, if_pos rfl, regField_setField_same _ v h hh]

/-- Another field, of the same register or of another. -/
theorem State.fld_setFld_other (s : State) {a b hi lo hi' lo' : Nat} (v : Nat) (h : lo ≤ hi) (hh : hi < 32)
    (hd : b ≠ a ∨ hi' < lo ∨ hi < lo') : (s.setFld a hi lo v).fld b hi' lo' = s.fld b hi' lo' := by
  rw [State.fld, State.fld, State.reg_setFld]
  split
  · next he => subst he; rw [regField_setField_other _ v h hh (by simpa using hd)]
  · rfl

theorem State.fld_of_reg {s t : State} {a : Nat} (h : t.reg a = s.reg a) (hi lo : Nat) : t.fld a hi lo = s.fld a hi lo := by
  rw [State.fld, State.fld, h]

theorem State.dev_of_reg {s t : State} (h : t.reg GLB_STATE = s.reg GLB_STATE) : t.dev = s.dev := State.fld_of_reg h 2 0

/-- A register pair read back. -/
theorem State.pair_setPair (s : State) {lo hi : Nat} (v : Nat) (h : lo ≠ hi) : (s.setPair lo hi v).pair lo hi = v % 2 ^ 64 := by
  simp only [State.pair, State.setPair, State.reg_setReg, if_true, if_neg h, BitVec.toNat_ofNat]
  omega

theorem State.reg_setPair_other (s : State) {lo hi a : Nat} (v : Nat) (hl : a ≠ lo) (hh : a ≠ hi) :
    (s.setPair lo hi v).reg a = s.reg a := by
  simp [State.setPair, hl, hh]

/-! ## The error log -/

/-- A parallel change of the registers, the log and the vectors that ask: what an event can do. -/
def OnlyLogged (s t : State) : Prop :=
  ∃ r l n v, t = { s with regs := r, log := l, logCount := n, vecReq := v }

theorem OnlyLogged.refl (s : State) : OnlyLogged s s := ⟨_, _, _, _, rfl⟩

theorem OnlyLogged.trans {s t u : State} (h : OnlyLogged s t) (k : OnlyLogged t u) : OnlyLogged s u := by
  obtain ⟨_, _, _, _, rfl⟩ := h
  obtain ⟨_, _, _, _, rfl⟩ := k
  exact ⟨_, _, _, _, rfl⟩

theorem OnlyLogged.setReg (s : State) (a : Nat) (v : W32) : OnlyLogged s (s.setReg a v) := ⟨_, _, _, _, rfl⟩

theorem OnlyLogged.setFld (s : State) (a hi lo v : Nat) : OnlyLogged s (s.setFld a hi lo v) := OnlyLogged.setReg _ _ _

theorem OnlyLogged.raiseEvt (s : State) (b : Nat) : OnlyLogged s (s.raiseEvt b) := by
  simp only [State.raiseEvt]
  split <;> exact ⟨_, _, _, _, rfl⟩

theorem OnlyLogged.logEvent (s : State) (ev st src : Nat) (info : W64) : OnlyLogged s (s.logEvent ev st src info) := by
  unfold State.logEvent
  split
  · exact ⟨_, _, _, _, rfl⟩
  · refine .trans ?_ (.raiseEvt _ _)
    refine .trans ?_ (.setFld _ _ _ _ _)
    split
    · exact .trans ⟨_, _, _, _, rfl⟩ (.setFld _ _ _ _ _)
    · exact ⟨_, _, _, _, rfl⟩

theorem OnlyLogged.violation (s : State) (cls src : Nat) : OnlyLogged s (s.violation cls src) :=
  .trans (.trans (.setReg _ _ _) (.setReg _ _ _)) (.logEvent _ _ _ _ _)

theorem State.raiseEvt_reg (s : State) (b : Nat) {a : Nat} (h : a ≠ CMDQ_EVT) : (s.raiseEvt b).reg a = s.reg a := by
  have : ((s.setReg CMDQ_EVT (s.reg CMDQ_EVT ||| BitVec.twoPow 32 b)).reg a) = s.reg a := by simp [h]
  simp only [State.raiseEvt]
  split <;> exact this

/-- An event reaches the registers of the log and the event register only. -/
theorem State.logEvent_reg (s : State) (ev st src : Nat) (info : W64) {a : Nat}
    (h1 : a ≠ RAS_LOG_SEQ) (h2 : a ≠ RAS_LOG_HEAD) (h3 : a ≠ CMDQ_EVT) : (s.logEvent ev st src info).reg a = s.reg a := by
  unfold State.logEvent
  split
  · rfl
  · rw [State.raiseEvt_reg _ _ h3, State.reg_setFld_other _ _ _ _ h2]
    have (t : State) : (t.setReg RAS_LOG_SEQ (BitVec.ofNat 32 (if (s.reg RAS_LOG_SEQ).toNat = 0xFFFFFFFF then 1
        else (s.reg RAS_LOG_SEQ).toNat + 1))).reg a = t.reg a := by simp [h1]
    split
    · rw [State.reg_setFld_other _ _ _ _ h2, this]; rfl
    · rw [this]; rfl

theorem State.violation_reg (s : State) (cls src : Nat) {a : Nat} (hl : a ≠ RAS_VIOL_LO cls) (hh : a ≠ RAS_VIOL_HI cls)
    (h1 : a ≠ RAS_LOG_SEQ) (h2 : a ≠ RAS_LOG_HEAD) (h3 : a ≠ CMDQ_EVT) : (s.violation cls src).reg a = s.reg a := by
  rw [State.violation, State.logEvent_reg _ _ _ _ _ h1 h2 h3, State.reg_setPair_other _ _ hl hh]

/-- The violation counters are no registers that an event of the log writes. -/
theorem violPair_apart {cls : Nat} (h : cls < 16) {a : Nat} (ha : a = RAS_VIOL_LO cls ∨ a = RAS_VIOL_HI cls) :
    a ≠ RAS_LOG_SEQ ∧ a ≠ RAS_LOG_HEAD ∧ a ≠ CMDQ_EVT := by
  simp only [RAS_VIOL_LO, RAS_VIOL_HI, RAS_LOG_SEQ, RAS_LOG_HEAD, CMDQ_EVT] at *
  omega

/-- A violation counts one in its class. -/
theorem State.violation_counted (s : State) {cls : Nat} (src : Nat) (h : cls < 16) : Counted s (s.violation cls src) cls := by
  have hv : min (s.pair (RAS_VIOL_LO cls) (RAS_VIOL_HI cls) + 1) (2 ^ 64 - 1) < 2 ^ 64 := by omega
  have hp (t : State) (i : W64) : (t.logEvent 0x14 0 src i).pair (RAS_VIOL_LO cls) (RAS_VIOL_HI cls) =
      t.pair (RAS_VIOL_LO cls) (RAS_VIOL_HI cls) := by
    obtain ⟨l1, l2, l3⟩ := violPair_apart h (.inl rfl)
    obtain ⟨h1, h2, h3⟩ := violPair_apart h (.inr rfl)
    simp only [State.pair, State.logEvent_reg t 0x14 0 src i l1 l2 l3, State.logEvent_reg t 0x14 0 src i h1 h2 h3]
  have hne : RAS_VIOL_LO cls ≠ RAS_VIOL_HI cls := by simp only [RAS_VIOL_LO, RAS_VIOL_HI]; omega
  rw [Counted, State.violation, hp, State.pair_setPair _ _ hne, Nat.mod_eq_of_lt hv]

/-! ## Only the cores differ -/

/-- `t` is `s` but for the cores. -/
def OnlyCores (s t : State) : Prop := ∃ k, t = { s with cores := k }

theorem OnlyCores.refl (s : State) : OnlyCores s s := ⟨_, rfl⟩

theorem OnlyCores.trans {s t u : State} (h : OnlyCores s t) (k : OnlyCores t u) : OnlyCores s u := by
  obtain ⟨_, rfl⟩ := h
  obtain ⟨_, rfl⟩ := k
  exact ⟨_, rfl⟩

theorem OnlyCores.modCore (s : State) (c : Nat) (f : CoreState → CoreState) : OnlyCores s (s.modCore c f) := ⟨_, rfl⟩

/-- A relation between states that every step of a fold respects holds between its ends. -/
theorem foldl_related {α β : Type} (R : β → β → Prop) (hr : ∀ b, R b b) (ht : ∀ a b c, R a b → R b c → R a c) (f : β → α → β)
    (hf : ∀ b a, R b (f b a)) (l : List α) (b : β) : R b (l.foldl f b) :=
  foldl_keeps (R b) f (fun x a hx => ht _ _ _ hx (hf x a)) l b (hr b)

theorem OnlyCores.foldl {α : Type} (f : State → α → State) (hf : ∀ s a, OnlyCores s (f s a)) (l : List α) (s : State) :
    OnlyCores s (l.foldl f s) :=
  foldl_related OnlyCores .refl (fun _ _ _ => .trans) f hf l s

theorem OnlyLogged.foldl {α : Type} (f : State → α → State) (hf : ∀ s a, OnlyLogged s (f s a)) (l : List α) (s : State) :
    OnlyLogged s (l.foldl f s) :=
  foldl_related OnlyLogged .refl (fun _ _ _ => .trans) f hf l s

/-! ## Commands -/

/-- A command has one outcome. -/
theorem Gives.not_of_gives {i : Instr} {s : State} {P Q : State → Prop} (h : Gives i s P) (hpq : ∀ t, P t → ¬ Q t) :
    ¬ Gives i s Q := by
  rintro ⟨u, hu, hq⟩
  obtain ⟨t, ht, hp⟩ := h
  rw [ht] at hu
  exact hpq t hp (Host.Outcome.next.inj hu ▸ hq)

end Sys2Proof.Machine
end

section
/-!
Reads and writes of plain registers (R6, R8, R76, R418, R451), and the proof of O25.
-/

namespace Sys2Proof.Machine

/-! ## The blocks MEM and SEC, whose registers have no operation of their own -/

/-- An address in one of the two blocks. -/
abbrev PlainAddr (a : Nat) : Prop := blockOf a = .sec ∨ blockOf a = .mem

theorem PlainAddr.bounds {a : Nat} (h : PlainAddr a) : 0x700000 ≤ a ∧ a < 0x1000000 := by
  unfold PlainAddr blockOf at h
  grind

theorem PlainAddr.regRow {a : Nat} (h : PlainAddr a) : regRow a = deviceRow a := by
  rcases h with h | h <;> simp [Machine.regRow, h]

theorem PlainAddr.stored {a : Nat} (h : PlainAddr a) (s : State) : s.stored a = s.reg a := by
  rcases h with h | h <;> simp [State.stored, h]

theorem PlainAddr.store {a : Nat} (h : PlainAddr a) (s : State) (v : W32) : s.store a v = s.setReg a v := by
  rcases h with h | h <;> simp [State.store, h]

/-- An aligned write there has the effect of the access code alone. -/
theorem PlainAddr.writeReg {addr : Nat} (h : PlainAddr addr) (hal : addr % 4 = 0) (s : State) (a : Agent) (v : W32) :
    s.writeReg a addr v = s.sameRings (s.regWrite a addr v (State.plainWrite addr)) := by
  obtain ⟨hlo, -⟩ := h.bounds
  have h1 : addr ≠ GLB_BMC_CTRL := by simp only [GLB_BMC_CTRL]; omega
  have h2 : addr ≠ RAS_VIOL_CLR := by simp only [RAS_VIOL_CLR]; omega
  rcases h with h | h <;> simp [State.writeReg, h, h1, h2, hal]

/-- An aligned read there returns what the register shows. -/
theorem PlainAddr.readReg {addr : Nat} (h : PlainAddr addr) (hal : addr % 4 = 0) (s : State) (a : Agent) :
    s.readReg a addr = s.plainRead a addr := by
  rcases h with h | h <;> simp [State.readReg, h, hal]

theorem PlainAddr.rowOf {addr : Nat} (h : PlainAddr addr) {s : State} {a : Agent} {r : RegRow} (hw : s.writeWay a addr = .row r) :
    deviceRow addr = some r := by
  unfold State.writeWay at hw
  rcases h with h | h <;> simp only [h] at hw <;> grind

/-! ## Where a write ends -/

/-- A write to a register that is not the device state changes no write's way. -/
theorem State.writeWay_setReg (s : State) {a : Nat} (v : W32) (g : Agent) (b : Nat) (h : a ≠ GLB_STATE) :
    (s.setReg a v).writeWay g b = s.writeWay g b := by
  have hd : (s.setReg a v).dev = s.dev := State.dev_of_reg (by simp [h.symm])
  simp only [State.writeWay, State.pathOpen, hd, State.setReg_pcieUp, State.setReg_bootStep, State.setReg_coreSt]
  rfl

@[simp] theorem State.answer_reg (s : State) (g : Agent) (v : W32) (a : Nat) : (s.answer g v).reg a = s.reg a := rfl

@[simp] theorem State.answer_regs (s : State) (g : Agent) (v : W32) : (s.answer g v).regs = s.regs := rfl
@[simp] theorem State.answer_cores (s : State) (g : Agent) (v : W32) : (s.answer g v).cores = s.cores := rfl
@[simp] theorem State.answer_latches (s : State) (g : Agent) (v : W32) : (s.answer g v).latches = s.latches := rfl
@[simp] theorem State.answer_logLatch (s : State) (g : Agent) (v : W32) : (s.answer g v).logLatch = s.logLatch := rfl
@[simp] theorem State.readData_answer (s : State) (g : Agent) (v : W32) :
    Tab.get (fun _ => 0#32) (s.answer g v).readData (agentCode g) = v := Tab.get_set_same _ _ _ _
@[simp] theorem State.setLatch_regs (s : State) (g : Agent) (a : Nat) (v : Option W32) : (s.setLatch g a v).regs = s.regs := rfl
@[simp] theorem State.setLatch_cores (s : State) (g : Agent) (a : Nat) (v : Option W32) : (s.setLatch g a v).cores = s.cores := rfl
@[simp] theorem State.latches_setLatch (s : State) (g : Agent) (a : Nat) (v : Option W32) :
    Tab.get (fun _ => none) (s.setLatch g a v).latches (latchKey g a) = v := Tab.get_set_same _ _ _ _

theorem State.writeWay_answer (s : State) (g h : Agent) (v : W32) (b : Nat) : (s.answer h v).writeWay g b = s.writeWay g b := rfl

/-! ## Plain writes -/

/-- A write that reaches its register and sets no reserved bit. -/
theorem PlainAddr.writeReg_row {addr : Nat} (h : PlainAddr addr) (hal : addr % 4 = 0) {s : State} {a : Agent} {v : W32} {r : RegRow}
    (hw : s.writeWay a addr = .row r) (hv : v &&& r.rsv = 0) :
    s.writeReg a addr v = s.sameRings (State.plainWrite addr (v &&& r.wmask) s) := by
  rw [h.writeReg hal, State.regWrite_of_writes _ ⟨r, hw, hv, rfl⟩]

/-- The effect of a plain write by the access code of the register (R6). -/
theorem PlainAddr.plainWrite {addr : Nat} (h : PlainAddr addr) {r : RegRow} (hr : deviceRow addr = some r) (s : State) (u : W32) :
    State.plainWrite addr u s = match r.acc with
      | .rw => s.setReg addr ((s.reg addr &&& ~~~ r.wmask) ||| u)
      | .w1c => s.setReg addr (s.reg addr &&& ~~~ u)
      | .w1s => s.setReg addr (s.reg addr ||| u)
      | _ => s := by
  cases hacc : r.acc <;> simp only [State.plainWrite, h.regRow, hr, h.store, h.stored, hacc]

/-- A write of an RW register. -/
theorem PlainAddr.writeReg_rw {addr : Nat} (h : PlainAddr addr) (hal : addr % 4 = 0) {s : State} {a : Agent} {v : W32} {r : RegRow}
    (hw : s.writeWay a addr = .row r) (hacc : r.acc = .rw) (hv : v &&& r.rsv = 0) :
    s.writeReg a addr v = s.setReg addr ((s.reg addr &&& ~~~ r.wmask) ||| (v &&& r.wmask)) := by
  rw [h.writeReg_row hal hw hv, h.plainWrite (h.rowOf hw), hacc]
  rfl

/-- Of two values taken under one mask the later stands. -/
theorem masked_twice (x m v w : W32) : (((x &&& ~~~ m) ||| (v &&& m)) &&& ~~~ m) ||| (w &&& m) = (x &&& ~~~ m) ||| (w &&& m) := by
  apply BitVec.eq_of_getLsbD_eq
  intro i hi
  simp only [BitVec.getLsbD_or, BitVec.getLsbD_and, BitVec.getLsbD_not, hi, decide_true, Bool.true_and]
  cases m.getLsbD i <;> simp

/-! ## Accesses in one cycle (R8) -/

/-- Of a list that rises by a code: what is below `m`, then what is at `m`. -/
theorem filter_lt_append_filter_eq {α : Type} (code : α → Nat) {l : List α} (h : l.Pairwise (fun x y => code x < code y)) (m : Nat) :
    l.filter (fun x => decide (code x < m)) ++ l.filter (fun x => code x == m) = l.filter (fun x => decide (code x < m + 1)) := by
  induction h with
  | nil => rfl
  | @cons x l hx hl ih =>
    rcases Nat.lt_trichotomy (code x) m with hlt | heq | hgt
    · have h1 : code x < m + 1 := by omega
      have h2 : code x ≠ m := by omega
      simp only [List.filter_cons, hlt, h1, h2, decide_true, beq_iff_eq, if_true, if_false, List.cons_append, ih]
    · have hnil : l.filter (fun x => decide (code x < m)) = [] := by
        rw [List.filter_eq_nil_iff]
        intro y hy
        have := hx y hy
        simp only [decide_eq_true_eq]
        omega
      rw [hnil, List.nil_append] at ih
      simp [heq, hnil, ih]
    · have h1 : ¬ code x < m + 1 := by omega
      have h2 : ¬ code x < m := by omega
      have h3 : code x ≠ m := by omega
      simp only [List.filter_cons, h1, h2, h3, decide_false, beq_iff_eq, Bool.false_eq_true, if_false, ih]

/-- Such a list taken code by code is itself. -/
theorem flatMap_code_of_sorted {α : Type} (code : α → Nat) {l : List α} (h : l.Pairwise (fun x y => code x < code y)) (m : Nat) :
    (List.range m).flatMap (fun n => l.filter (fun x => code x == n)) = l.filter (fun x => decide (code x < m)) := by
  induction m with
  | zero => simp
  | succ m ih => rw [List.range_succ, List.flatMap_append, ih, List.flatMap_singleton, filter_lt_append_filter_eq code h]

/-- The order of the writers of one cycle, for one access and for two of different agents. -/
theorem turns_one {x : Agent × Option W32} (hx : agentCode x.1 < 9) :
    (List.range 9).flatMap (fun n => [x].filter (fun z => agentCode z.1 == n)) = [x] := by
  rw [flatMap_code_of_sorted (fun z : Agent × Option W32 => agentCode z.1) (List.pairwise_singleton _ _)]
  simp [hx]

theorem turns_two {x y : Agent × Option W32} (hx : agentCode x.1 < 9) (hy : agentCode y.1 < 9) (hne : agentCode y.1 ≠ agentCode x.1) :
    (List.range 9).flatMap (fun n => [x, y].filter (fun z => agentCode z.1 == n)) =
      if agentCode x.1 < agentCode y.1 then [x, y] else [y, x] := by
  have sorted {u v : Agent × Option W32} (hu : agentCode u.1 < 9) (hv : agentCode v.1 < 9) (h : agentCode u.1 < agentCode v.1) :
      (List.range 9).flatMap (fun n => [u, v].filter (fun z => agentCode z.1 == n)) = [u, v] := by
    rw [flatMap_code_of_sorted (fun z : Agent × Option W32 => agentCode z.1) (List.pairwise_pair.mpr h)]
    simp [hu, hv]
  split
  · next h => exact sorted hx hy h
  · next h =>
    have swap (n : Nat) : [x, y].filter (fun z => agentCode z.1 == n) = [y, x].filter (fun z => agentCode z.1 == n) := by
      by_cases h1 : agentCode x.1 = n <;> by_cases h2 : agentCode y.1 = n
      · omega
      all_goals simp [h1, h2]
    simp only [swap]
    exact sorted hy hx (by omega)

/-- A write that no other access meets. -/
theorem sameCycle_alone (s : State) (addr : Nat) {a : Agent} (v : W32) (ha : agentCode a < 9) :
    s.sameCycle addr [(a, some v)] = s.writeReg a addr v := by
  simp [State.sameCycle, turns_one (x := (a, some v)) ha]

/-- Two writes: the later agent's comes second. -/
theorem sameCycle_writes (s : State) (addr : Nat) {a b : Agent} (v w : W32) (ha : agentCode a < 9) (hb : agentCode b < 9)
    (hne : agentCode b ≠ agentCode a) : s.sameCycle addr [(a, some v), (b, some w)] =
      if agentCode a < agentCode b then (s.writeReg a addr v).writeReg b addr w else (s.writeReg b addr w).writeReg a addr v := by
  simp only [State.sameCycle, turns_two (x := (a, some v)) (y := (b, some w)) ha hb hne]
  split <;> rfl

/-- A read beside a write returns what stood before. -/
theorem sameCycle_read (s : State) (addr : Nat) {a b : Agent} (v : W32) (ha : agentCode a < 9) (hb : agentCode b < 9)
    (hne : agentCode b ≠ agentCode a) : s.sameCycle addr [(a, some v), (b, none)] =
      ((s.readReg b addr).2.answer b (s.readReg b addr).1).writeReg a addr v := by
  simp only [State.sameCycle, turns_two (x := (a, some v)) (y := (b, none)) ha hb hne]
  split <;> rfl

/-! ## REGISTER_WRITE -/

/-- The frames of REGISTER_WRITE around a state that its accesses reach. -/
theorem registerWrite_gives {s : State} {a : Agent} {addr : Nat} {x : RegWrite} {P : State → Prop}
    (h : P (s.samePins (s.sameSecure (s.sameMem (s.sameCycle addr ((a, some x.value) :: x.rivals)))))) :
    Gives (.registerWrite a addr x) s P := ⟨_, rfl, h⟩

/-- A plain write that reaches its register changes that register alone, by its access code. -/
theorem registerWrite_by_access {s : State} {a : Agent} {addr : Nat} {v : W32} {r : RegRow} (h : PlainAddr addr) (hal : addr % 4 = 0)
    (ha : agentCode a < 9) (hw : s.writeWay a addr = .row r) (hv : v &&& r.rsv = 0) :
    Gives (.registerWrite a addr ⟨v, []⟩) s (fun t =>
      t.reg addr = (match r.acc with
        | .rw => (s.reg addr &&& ~~~ r.wmask) ||| (v &&& r.wmask)
        | .w1c => s.reg addr &&& ~~~ (v &&& r.wmask)
        | .w1s => s.reg addr ||| (v &&& r.wmask)
        | _ => s.reg addr) ∧
      (∀ b, b ≠ addr → t.reg b = s.reg b) ∧ t.cores = s.cores ∧ t.log = s.log) := by
  apply registerWrite_gives
  rw [sameCycle_alone s addr v ha, h.writeReg_row hal hw hv, h.plainWrite (h.rowOf hw)]
  cases r.acc <;> simp +contextual

/-- A plain write that reaches no register counts a violation of class 3 and changes no register of the blocks. -/
theorem registerWrite_unnamed {s : State} {a : Agent} {addr : Nat} {v : W32} (h : PlainAddr addr) (hal : addr % 4 = 0)
    (ha : agentCode a < 9) (hw : s.writeWay a addr = .unnamed) :
    Gives (.registerWrite a addr ⟨v, []⟩) s (fun t => t.reg addr = s.reg addr ∧ t.cores = s.cores ∧ Counted s t 3) := by
  have he : s.writeReg a addr v = s.sameRings s.rsvWrite := by rw [h.writeReg hal, State.regWrite, hw]
  obtain ⟨hlo, -⟩ := h.bounds
  apply registerWrite_gives
  rw [sameCycle_alone s addr v ha, he]
  refine ⟨?_, ?_, State.violation_counted s _ (by decide)⟩
  · exact State.violation_reg s _ _ (by simp only [RAS_VIOL_LO]; omega) (by simp only [RAS_VIOL_HI]; omega)
      (by simp only [RAS_LOG_SEQ]; omega) (by simp only [RAS_LOG_HEAD]; omega) (by simp only [CMDQ_EVT]; omega)
  · obtain ⟨_, _, _, _, hs⟩ := OnlyLogged.violation s 3 (logSource 3 0)
    simp [State.rsvWrite, hs]

/-- Of two writes of an RW register in one cycle the one whose agent comes later stands. -/
theorem registerWrite_later_stands {s : State} {a b : Agent} {addr : Nat} {v w : W32} {r : RegRow} (h : PlainAddr addr)
    (hal : addr % 4 = 0) (ha : agentCode a < 9) (hb : agentCode b < 9) (hne : agentCode b ≠ agentCode a)
    (hwa : s.writeWay a addr = .row r) (hwb : s.writeWay b addr = .row r) (hacc : r.acc = .rw)
    (hv : v &&& r.rsv = 0) (hw : w &&& r.rsv = 0) :
    Gives (.registerWrite a addr ⟨v, [(b, some w)]⟩) s (fun t =>
      t.reg addr = (s.reg addr &&& ~~~ r.wmask) ||| ((if agentCode a < agentCode b then w else v) &&& r.wmask)) := by
  have hg : addr ≠ GLB_STATE := by have := h.bounds; simp only [GLB_STATE]; omega
  have two {f g : Agent} {x y : W32} (hf : s.writeWay f addr = .row r) (hg' : s.writeWay g addr = .row r) (hx : x &&& r.rsv = 0)
      (hy : y &&& r.rsv = 0) :
      ((s.writeReg f addr x).writeReg g addr y).reg addr = (s.reg addr &&& ~~~ r.wmask) ||| (y &&& r.wmask) := by
    rw [h.writeReg_rw hal hf hacc hx,
      h.writeReg_rw hal ((State.writeWay_setReg s _ g addr hg).trans hg') hacc hy]
    simp [masked_twice]
  apply registerWrite_gives
  simp only [State.samePins_reg, State.sameSecure_reg, State.sameMem_reg, sameCycle_writes s addr v w ha hb hne]
  split
  · exact two hwa hwb hv hw
  · exact two hwb hwa hw hv

/-- A register that no pair holds and no read clears. -/
theorem PlainAddr.plainRead {addr : Nat} (h : PlainAddr addr) {s : State} {b : Agent} (hr : s.reads b addr = true)
    (h1 : isLow addr = false) (h2 : isLow (addr - 4) = false) (h3 : rcMask addr = 0) :
    s.plainRead b addr = (s.live addr, s) := by
  rcases h with h | h <;> simp [State.plainRead, hr, h1, h2, h3, h]

/-- A read beside a write of an RW register returns what stood before, and the write stands. -/
theorem registerWrite_beside_read {s : State} {a b : Agent} {addr : Nat} {v : W32} {r : RegRow} (h : PlainAddr addr)
    (hal : addr % 4 = 0) (ha : agentCode a < 9) (hb : agentCode b < 9) (hne : agentCode b ≠ agentCode a)
    (hw : s.writeWay a addr = .row r) (hacc : r.acc = .rw) (hv : v &&& r.rsv = 0)
    (hr : s.reads b addr = true) (h1 : isLow addr = false) (h2 : isLow (addr - 4) = false) (h3 : rcMask addr = 0) :
    Gives (.registerWrite a addr ⟨v, [(b, none)]⟩) s (fun t =>
      Tab.get (fun _ => 0) t.readData (agentCode b) = s.live addr ∧
      t.reg addr = (s.reg addr &&& ~~~ r.wmask) ||| (v &&& r.wmask)) := by
  apply registerWrite_gives
  rw [sameCycle_read s addr v ha hb hne, h.readReg hal, h.plainRead hr h1 h2 h3,
    h.writeReg_rw hal ((State.writeWay_answer s a b _ addr).trans hw) hacc hv]
  simp

/-! ## Latched reads (R76, R418) -/

/-- The frames of LATCHED_PAIR_READ around what the read of a pair's half answers. -/
theorem latchedPairRead_gives {s : State} {a : Agent} {addr : Nat} {P : State → Prop} (hl : (isLow addr || isLow (addr - 4)) = true)
    (h : P (s.sameRings (s.samePins (s.sameSecure (s.sameFabric (s.samePower (s.sameMem
      ((s.plainRead a addr).2.answer a (s.plainRead a addr).1)))))))) : Gives (.latchedPairRead a addr) s P := by
  refine ⟨_, ?_, h⟩
  show execLatchedPairRead a addr s = _
  rw [execLatchedPairRead, if_pos hl]
  rfl

/-- A read of the low half of a pair outside CORE returns it and latches the high half. -/
theorem latchedPairRead_low {s : State} {a : Agent} {lo : Nat} (hr : s.reads a lo = true) (hl : isLow lo = true)
    (hb : blockOf lo = .tel ∨ blockOf lo = .mem ∨ blockOf lo = .ras) :
    Gives (.latchedPairRead a lo) s (fun t => Tab.get (fun _ => 0) t.readData (agentCode a) = s.live lo ∧
      Tab.get (fun _ => none) t.latches (latchKey a lo) = some (s.live (lo + 4)) ∧ t.regs = s.regs ∧ t.cores = s.cores) := by
  have hd : s.debugCount lo = s := by rcases hb with h | h | h <;> simp [State.debugCount, h]
  have he : s.plainRead a lo = (s.live lo, s.setLatch a lo (some (s.live (lo + 4)))) := by
    simp [State.plainRead, hr, hl, hd]
  apply latchedPairRead_gives (by simp [hl])
  simp [he]

/-- The next read of the high half returns what was latched and empties the latch. -/
theorem latchedPairRead_high {s : State} {a : Agent} {lo : Nat} {v : W32} (hr : s.reads a (lo + 4) = true)
    (hh : isLow (lo + 4) = false) (hl : isLow lo = true) (hv : Tab.get (fun _ => none) s.latches (latchKey a lo) = some v) :
    Gives (.latchedPairRead a (lo + 4)) s (fun t => Tab.get (fun _ => 0) t.readData (agentCode a) = v ∧
      Tab.get (fun _ => none) t.latches (latchKey a lo) = none ∧ t.regs = s.regs) := by
  have he : s.plainRead a (lo + 4) = (v, s.setLatch a lo none) := by
    simp [State.plainRead, hr, hh, hl, hv]
  apply latchedPairRead_gives (by simp [hl])
  simp [he]

/-- The frames of RAS_LOG_READ around what the window answers. -/
theorem rasLogRead_gives {s : State} {a : Agent} {i w : Nat} {P : State → Prop} (hi : i < 4096) (hw : w < 8)
    (h : P (s.sameRings (s.samePins (s.sameSecure (s.sameFabric (s.samePower (s.sameMem (s.sameCores
      ((s.logRead a i w).2.answer a (s.logRead a i w).1))))))))) : Gives (.rasLogRead a i w) s P := by
  refine ⟨_, ?_, h⟩
  show execRasLogRead a i w s = _
  rw [execRasLogRead, if_pos ⟨hi, hw⟩]
  rfl

/-- Word 0 of a log record latches it. -/
theorem rasLogRead_first {s : State} {a : Agent} {i : Nat} (hi : i < 4096) (hr : s.reads a (RAS_LOG (8 * i)) = true) :
    Gives (.rasLogRead a i 0) s (fun t => Tab.get (fun _ => 0) t.readData (agentCode a) = (s.logAt i).word 0 ∧
      Tab.get (fun _ => none) t.logLatch (agentCode a) = some (i, s.logAt i)) := by
  have he : s.logRead a i 0 = ((s.logAt i).word 0,
      { s with logLatch := Tab.set (fun _ => none) s.logLatch (agentCode a) (some (i, s.logAt i)) }) := by
    simp [State.logRead, hr]
  apply rasLogRead_gives hi (by decide)
  simp [he, Tab.get_set_same]

/-- The later words come from the latch. -/
theorem rasLogRead_later {s : State} {a : Agent} {i w : Nat} {r : LogRec} (hi : i < 4096) (hw0 : 0 < w) (hw : w < 8)
    (hr : s.reads a (RAS_LOG (8 * i + w)) = true) (hl : Tab.get (fun _ => none) s.logLatch (agentCode a) = some (i, r)) :
    Gives (.rasLogRead a i w) s (fun t => Tab.get (fun _ => 0) t.readData (agentCode a) = r.word w ∧ t.logLatch = s.logLatch) := by
  have he : s.logRead a i w = (r.word w, s) := by simp [State.logRead, hr, hw0.ne', hl]
  apply rasLogRead_gives hi hw
  simp [he]

/-- Settles O25: writes by access code, the order of the agents, and the latches, each by the lemma on its command. -/
theorem plainRegisterWrites : Obligations.PlainRegisterWrites := by
  refine ⟨fun s a addr v hal hb ha => ⟨fun r hw hv => ?_, fun hw => ?_, fun b w r hb' hne hw hacc hv => ⟨?_, ?_⟩⟩,
    fun s a lo => ⟨latchedPairRead_low, fun v => latchedPairRead_high, fun i => rasLogRead_first, fun i w r => rasLogRead_later⟩⟩
  · exact registerWrite_by_access hb hal ha hw hv
  · exact registerWrite_unnamed hb hal ha hw
  · exact fun hwb hw' => registerWrite_later_stands hb hal ha hb' hne hw hwb hacc hv hw'
  · exact fun hr h1 h2 h3 => registerWrite_beside_read hb hal ha hb' hne hw hacc hv hr h1 h2 h3

end Sys2Proof.Machine
end

section
/-!
O51: a state in which a spare that has just entered service does not keep its CORE_ID.
-/

namespace Sys2Proof.Machine

/-- Core 0 has been fenced and spare 35 is on its way for logical number 0, for which a dispatch waits. The registers that the
dispatch writes before its program starts name CORE_ID, with STATE 2. -/
def spareOverwritten : State :=
  { (State.reset.setId 0 2 0x7F).setId 35 0 0 with
    sparing := [⟨35, 0, 0, 0⟩]
    disp := [{ mkDispatch 0 0 [] 0 [] with config := [(CORE_ID, 0x20000#32)] }] }

/-- Once the spare is in service the dispatch is sent to it, and CORE_ID.STATE reads FENCED. -/
theorem spareInService_overwritten : Gives (.spareInService 35 true) spareOverwritten (fun t => t.coreSt 35 = 2) :=
  ⟨_, rfl, by decide +kernel⟩

/-- Refutes O51: the state `spareOverwritten` meets the hypotheses of the clause on a spare that passes its test, and that spare's
CORE_ID.STATE goes from 0 to 2, because a dispatch may carry any register in its list of registers to write (`State.send`). -/
theorem not_fencesSparesAndPatrols : ¬ Obligations.FencesSparesAndPatrols := by
  intro h
  obtain ⟨-, hspare, -⟩ := h spareOverwritten 35 (by decide)
  obtain ⟨hpass, -⟩ := hspare ⟨35, 0, 0, 0⟩ rfl
  refine spareInService_overwritten.not_of_gives (fun t ht => ?_) hpass
  have hs : spareOverwritten.coreSt 35 = 0 := by decide +kernel
  rintro ⟨-, hst, -⟩
  rw [ht, hs] at hst
  exact absurd hst (by decide)

end Sys2Proof.Machine
end

section
/-!
Resets, boot steps and pins (R3, R324, R425 to R427, R431, R432, R444, R445, R450, R458).
-/

namespace Sys2Proof.Machine

/-! ## Cold reset (R426) -/

/-- A table of which the keys that satisfy a test are kept. -/
theorem Tab.get_filter_key {α : Type} (d : Nat → α) (t : Tab α) (p : Nat → Bool) (k : Nat) :
    Tab.get d (t.filter (fun e => p e.1)) k = if p k = true then Tab.get d t k else d k := by
  unfold Tab.get
  by_cases h : p k = true
  · rw [Tab.find_filter t k (fun e => p e.1) (fun e _ he => by simpa [he] using h), if_pos h]
  · rw [Tab.find_filter_none t k (fun e => p e.1) (fun e _ he => by simpa [he] using h), if_neg h]

theorem OnlyCores.setId (s : State) (c st lg : Nat) : OnlyCores s (s.setId c st lg) := ⟨_, rfl⟩

theorem OnlyCores.fillNumber (s : State) : OnlyCores s s.fillNumber := by
  unfold State.fillNumber
  split
  · exact .refl s
  · split
    · exact .refl s
    · exact .setId _ _ _ _

/-- Applying the cairn records writes the cores, GLB_CORES and RAS_FENCE. -/
theorem applyCairn_shape (s : State) :
    ∃ k v w, s.applyCairn = { (s.setReg GLB_CORES v).setReg RAS_FENCE w with cores := k } := by
  obtain ⟨k₁, h₁⟩ := OnlyCores.foldl (fun s c => s.setId c 2 0x7F) (fun _ _ => .setId _ _ _ _) s.cairnFenced s
  have hstep : ∀ (u : State) (c : Nat), OnlyCores u (if u.fld (RAS_CAIRN c 0) 16 10 < 72 ∧ u.coreSt (u.fld (RAS_CAIRN c 0) 16 10) = 1 then
      u.setId (u.fld (RAS_CAIRN c 0) 16 10) 0 (u.fld (RAS_CAIRN c 0) 9 3) else u) :=
    fun u c => ite_keeps (OnlyCores u) (.setId _ _ _ _) (.refl u)
  obtain ⟨k₂, h₂⟩ := OnlyCores.foldl _ hstep s.cairnFenced { s with cores := k₁ }
  simp only [State.applyCairn, h₁, h₂]
  obtain ⟨k₃, h₃⟩ := OnlyCores.foldl (fun s (_ : Nat) => s.fillNumber) (fun u _ => .fillNumber u) s.cairnFenced _
  rw [h₃]
  exact ⟨_, _, _, rfl⟩

theorem applyCairn_reg (s : State) {a : Nat} (h1 : a ≠ GLB_CORES) (h2 : a ≠ RAS_FENCE) : s.applyCairn.reg a = s.reg a := by
  obtain ⟨k, v, w, he⟩ := applyCairn_shape s
  have hr : s.applyCairn.reg a = ((s.setReg GLB_CORES v).setReg RAS_FENCE w).reg a := by rw [he]; rfl
  simpa [h1, h2] using hr

/-- Two states agree in what a cold reset keeps, in the queues and memories that it empties. -/
def SameCold (s t : State) : Prop :=
  t.pending = s.pending ∧ t.hmem = s.hmem ∧ t.flash = s.flash ∧ t.selector = s.selector ∧
    t.cmds = s.cmds ∧ t.fetched = s.fetched ∧ t.log = s.log ∧ t.dmem = s.dmem ∧ t.disks = s.disks

theorem SameCold.applyCairn (s : State) : SameCold s s.applyCairn := by
  obtain ⟨k, v, w, he⟩ := applyCairn_shape s
  rw [he]
  exact ⟨rfl, rfl, rfl, rfl, rfl, rfl, rfl, rfl, rfl⟩

/-- What a cold reset leaves of `s` (R426). -/
def ColdFrom (s t : State) : Prop :=
  t.dev = devOff ∧ t.pending = s.pending ∧ t.hmem = s.hmem ∧ t.flash = s.flash ∧ t.selector = s.selector ∧
    t.cmds = [] ∧ t.fetched = [] ∧ t.log = [] ∧ t.dmem = [] ∧ t.disks = s.disks ∧
    (∀ a, keptCold a = false → a ∉ [GLB_STATE, GLB_CORES, RAS_FENCE] → t.reg a = deviceReset a) ∧
    (∀ a, keptCold a = true → a ∉ [MEM_LDG_STAT 0, MEM_LDG_STAT 1] → t.reg a = s.reg a)

/-- Registers after a cold reset, but for those that it writes then. -/
theorem coldReset_reg (s : State) {a : Nat} (h1 : a ≠ GLB_STATE) (h2 : a ≠ GLB_CORES) (h3 : a ≠ RAS_FENCE)
    (h4 : a ≠ MEM_LDG_STAT 0) (h5 : a ≠ MEM_LDG_STAT 1) :
    s.coldReset.reg a = if keptCold a = true then s.reg a else deviceReset a := by
  simp only [State.coldReset]
  rw [State.reg_setFld_other _ _ _ _ h1, applyCairn_reg _ h2 h3, State.reg_setFld_other _ _ _ _ h5, State.reg_setFld_other _ _ _ _ h4]
  exact Tab.get_filter_key deviceReset s.regs keptCold a

/-- A register that is in OTP or flash is not one that a cold reset writes, and the other way round. -/
theorem apart_of_keptCold {a b : Nat} (ha : keptCold a = true) (hb : keptCold b = false) : a ≠ b := by
  rintro rfl
  exact absurd ha (by simp [hb])

theorem coldReset_cold (s : State) : ColdFrom s s.coldReset := by
  have hd : s.coldReset.dev = devOff := State.fld_setFld_same _ _ _ (by decide) (by decide)
  obtain ⟨p1, p2, p3, p4, p5, p6, p7, p8, p9⟩ : SameCold _ s.coldReset := SameCold.applyCairn _
  refine ⟨hd, p1, p2, p3, p4, p5, p6, p7, p8, p9, fun a hk ha => ?_, fun a hk ha => ?_⟩
  · simp only [List.mem_cons, List.not_mem_nil, or_false, not_or] at ha
    obtain ⟨h1, h2, h3⟩ := ha
    rw [coldReset_reg s h1 h2 h3 (apart_of_keptCold (by decide) hk).symm (apart_of_keptCold (by decide) hk).symm, hk]
    rfl
  · simp only [List.mem_cons, List.not_mem_nil, or_false, not_or] at ha
    obtain ⟨h4, h5⟩ := ha
    rw [coldReset_reg s (apart_of_keptCold hk (by decide)) (apart_of_keptCold hk (by decide)) (apart_of_keptCold hk (by decide)) h4 h5,
      if_pos hk]

/-- A pin written keeps a state cold. -/
theorem ColdFrom.setBoot {s t : State} (h : ColdFrom s t) (b : BootState) : ColdFrom s { t with boot := b } := h

/-! ## The device state -/

/-- The device is FAULTED with a cause (R293). -/
def Faulted (n : Nat) (t : State) : Prop := t.dev = devFaulted ∧ t.fld GLB_STATE 15 8 = n

theorem Faulted.of_reg {n : Nat} {s t : State} (h : Faulted n s) (hr : t.reg GLB_STATE = s.reg GLB_STATE) : Faulted n t :=
  ⟨(State.dev_of_reg hr).trans h.1, (State.fld_of_reg hr 15 8).trans h.2⟩

theorem devFault_faulted (s : State) {n : Nat} (h : s.dev ≠ devOff) (hn : n < 256) : Faulted n (s.devFault n) := by
  rw [State.devFault, if_neg h]
  constructor
  · exact State.fld_setFld_same _ _ _ (by decide) (by decide)
  · rw [State.fld_setFld_other _ _ (by decide) (by decide) (by decide), State.fld_setFld_same _ _ _ (by decide) (by decide)]
    exact Nat.mod_eq_of_lt hn

/-- A fault of the device writes GLB_STATE alone. -/
theorem devFault_shape (s : State) (n : Nat) : ∃ r, s.devFault n = { s with regs := r } := by
  unfold State.devFault
  split
  · exact ⟨_, rfl⟩
  · exact ⟨_, rfl⟩

theorem devFault_reg (s : State) (n : Nat) {a : Nat} (h : a ≠ GLB_STATE) : (s.devFault n).reg a = s.reg a := by
  unfold State.devFault
  split
  · rfl
  · rw [State.reg_setFld_other _ _ _ _ h, State.reg_setFld_other _ _ _ _ h]

/-! ## Entering the boot (R427, R431) -/

theorem enterBoot_dev (s : State) (kind step : Nat) : (s.enterBoot kind step).dev = devBoot :=
  State.fld_setFld_same _ _ _ (by decide) (by decide)

theorem enterBoot_reg (s : State) (kind step : Nat) {a : Nat} (h1 : a ≠ SEC_STAT) (h2 : a ≠ GLB_STATE) :
    (s.enterBoot kind step).reg a = s.reg a := by
  simp only [State.enterBoot]
  rw [State.reg_setFld_other _ _ _ _ h2, State.reg_setFld_other _ _ _ _ h2, State.reg_setFld_other _ _ _ _ h1]
  rfl

theorem enterBoot_secStat (s : State) (kind step : Nat) :
    (s.enterBoot kind step).reg SEC_STAT = setField (s.reg SEC_STAT) 7 6 kind := by
  simp only [State.enterBoot]
  rw [State.reg_setFld_other _ _ _ _ (by decide), State.reg_setFld_other _ _ _ _ (by decide), State.reg_setFld, if_pos rfl]
  rfl

/-- The kind of reset recorded (R427). -/
theorem enterBoot_kind (s : State) (kind step : Nat) : (s.enterBoot kind step).fld SEC_STAT 7 6 = kind % 4 := by
  rw [State.fld, enterBoot_secStat]
  exact regField_setField_same _ _ (by decide) (by decide)

/-! ## Steps 1 to 3: the ROM (R431, R432) -/

theorem measure_reg (s : State) (stage : Nat) (image : List Byte) {a : Nat} (h : ∀ i < 8, a ≠ SEC_MEAS stage i) :
    (s.measure stage image).reg a = s.reg a := by
  unfold State.measure
  extract_lets hash
  have hfold : ∀ l : List Nat, (∀ i ∈ l, i < 8) → ∀ t : State, (l.foldl (fun s i =>
      s.setReg (SEC_MEAS stage i) (BitVec.ofNat 32 (leNat ((hash.drop (4 * i)).take 4)))) t).reg a = t.reg a := by
    intro l
    induction l with
    | nil => exact fun _ _ => rfl
    | cons i l ih =>
      intro hl t
      rw [List.foldl_cons, ih (fun j hj => hl j (List.mem_cons_of_mem _ hj)), State.reg_setReg,
        if_neg (h i (hl i List.mem_cons_self))]
  exact hfold _ (fun i hi => List.mem_range.mp hi) _

/-- A measurement writes registers and the SVN of its stage. -/
theorem measure_shape (s : State) (stage : Nat) (image : List Byte) :
    ∃ r v, s.measure stage image = { s with regs := r, svns := v } := by
  unfold State.measure
  refine foldl_keeps (fun t : State => ∃ r v, t = { s with regs := r, svns := v }) _ ?_ _ _ ⟨_, _, rfl⟩
  rintro _ i ⟨r, v, rfl⟩
  exact ⟨_, _, rfl⟩

/-- The registers of a stage's measurement. -/
theorem secMeas_bounds {stage i : Nat} (hs : stage < 4) (hi : i < 8) : 0x800100 ≤ SEC_MEAS stage i ∧ SEC_MEAS stage i < 0x800180 := by
  simp only [SEC_MEAS]
  omega

/-- The MP starts from a slot (step 3): the parts of the state that change. -/
theorem mpStart_shape (s : State) (slot stage : Nat) (image : List Byte) : ∃ r v, s.mpStart slot stage image =
    { s with regs := r, svns := v, mpDown := false, bootStep := 3, boot := { s.boot with vrEn := 1 } } := by
  obtain ⟨r, v, he⟩ := measure_shape (s.setReg SEC_BOOTS (s.reg SEC_BOOTS + 1)) stage image
  simp only [State.mpStart, he]
  exact ⟨_, _, rfl⟩

/-- And its registers, but for the measurement of the stage. -/
theorem mpStart_reg (s : State) (slot : Nat) {stage : Nat} (image : List Byte) (hs : stage < 4) {a : Nat} (ha : a < 0x800100) :
    (s.mpStart slot stage image).reg a = if a = SEC_STAT then setField (s.reg SEC_STAT) 1 0 slot
      else if a = SEC_BOOTS then s.reg SEC_BOOTS + 1 else s.reg a := by
  have hm {b : Nat} (hb : b < 0x800100) : ((s.setReg SEC_BOOTS (s.reg SEC_BOOTS + 1)).measure stage image).reg b =
      (s.setReg SEC_BOOTS (s.reg SEC_BOOTS + 1)).reg b :=
    measure_reg _ _ _ (fun i hi => by have := secMeas_bounds hs hi; omega)
  have hr : (s.mpStart slot stage image).reg a =
      (((s.setReg SEC_BOOTS (s.reg SEC_BOOTS + 1)).measure stage image).setFld SEC_STAT 1 0 slot).reg a := by
    simp only [State.mpStart, State.reg]
  rw [hr, State.reg_setFld, hm ha, hm (by decide)]
  simp

/-! ## Step 4: the rails (R444) -/

/-- The enabled ones of the first `n` ports wait for signal. -/
def portsDown (n : Nat) (s : State) : State :=
  (List.range n).foldl (fun s p => if (s.reg (PORT_CTRL p)).getLsbD 0 then s.setFld (PORT_STAT p) 3 0 pDown else s) s

theorem railsUp_eq (s : State) : s.railsUp = portsDown 32 { s with bootStep := 4 } := rfl

theorem portsDown_succ (n : Nat) (s : State) : portsDown (n + 1) s =
    if ((portsDown n s).reg (PORT_CTRL n)).getLsbD 0 then (portsDown n s).setFld (PORT_STAT n) 3 0 pDown else portsDown n s := by
  simp [portsDown, List.range_succ]

/-- Only the registers change. -/
theorem portsDown_shape (n : Nat) (s : State) : ∃ r, portsDown n s = { s with regs := r } := by
  induction n with
  | zero => exact ⟨_, rfl⟩
  | succ n ih =>
    obtain ⟨r, he⟩ := ih
    rw [portsDown_succ, he]
    split
    · exact ⟨_, rfl⟩
    · exact ⟨_, rfl⟩

theorem portsDown_reg (n : Nat) (s : State) {a : Nat} (h : ∀ p < n, a ≠ PORT_STAT p) : (portsDown n s).reg a = s.reg a := by
  induction n with
  | zero => rfl
  | succ n ih =>
    have hn := ih (fun p hp => h p (by omega))
    rw [portsDown_succ]
    split
    · rw [State.reg_setFld_other _ _ _ _ (h n (by omega)), hn]
    · exact hn

theorem portsDown_portSt (n : Nat) (s : State) {p : Nat} (hp : p < n) (hc : (s.reg (PORT_CTRL p)).getLsbD 0 = true) :
    (portsDown n s).portSt p = pDown := by
  induction n with
  | zero => omega
  | succ n ih =>
    rw [portsDown_succ]
    by_cases hn : p = n
    · subst hn
      have hr : (portsDown p s).reg (PORT_CTRL p) = s.reg (PORT_CTRL p) :=
        portsDown_reg _ _ (fun q _ => by simp only [PORT_CTRL, PORT_STAT]; omega)
      rw [hr, if_pos hc]
      exact State.fld_setFld_same _ _ _ (by decide) (by decide)
    · have hlt := ih (by omega)
      split
      · rw [State.portSt, State.fld_setFld_other _ _ (by decide) (by decide) (.inl (by simp only [PORT_STAT]; omega))]
        exact hlt
      · exact hlt

/-! ## Steps 5 to 10 (R431) -/

/-- A parallel boot step has not ended. -/
def BootState.todo (b : BootState) : Bool := b.memTodo || b.driveTodo || b.keyTodo

theorem restState_lt (s : State) : s.restState < 8 := by
  unfold State.restState
  split <;> decide

theorem restState_congr {s t : State} (h : t.cores = s.cores) : t.restState = s.restState := by
  simp only [State.restState, State.residentWm, State.anyCore, State.coreSt, State.creg, State.core, h]
  rfl

/-- In step 7 the boot ends once every parallel step has and no spare is on its way. -/
theorem bootWork_seven {s : State} (hd : s.dev = devBoot) (hb : s.bootStep = 7) (hm : s.mpDown = false) :
    s.bootWork = if s.boot.todo = false ∧ s.sparing = [] then
      ({ s with bootStep := 10 } : State).setFld GLB_STATE 2 0 s.restState else s := by
  have h4 : s.dev = devBoot ∧ 4 ≤ s.bootStep ∧ ¬ s.mpDown = true := ⟨hd, by omega, by simp [hm]⟩
  have hc : (s.dev = devBoot ∧ ¬ s.boot.memTodo = true ∧ ¬ s.boot.driveTodo = true ∧ ¬ s.boot.keyTodo = true ∧ s.sparing.isEmpty = true) ↔
      (s.boot.todo = false ∧ s.sparing = []) := by
    simp [BootState.todo, hd, and_assoc]
  have hn : (if s.bootStep < 7 then s.startCps else s) = s := if_neg (by omega)
  simp only [State.bootWork]
  rw [if_pos h4, hn, if_congr hc rfl rfl]

/-- What a step that leaves `x` and `y` open or not does for the boot of `s`. -/
def EndsStep (s : State) (x y : Bool) (t : State) : Prop :=
  (x = true → t.dev = devBoot ∧ t.bootStep = 7) ∧ (x = false → y = false → s.sparing = [] → t.dev = s.restState ∧ t.bootStep = 10)

theorem EndsStep.of_reg {s t u : State} {x y : Bool} (h : EndsStep s x y t) (hr : u.reg GLB_STATE = t.reg GLB_STATE)
    (hb : u.bootStep = t.bootStep) : EndsStep s x y u := by
  rw [EndsStep, State.dev_of_reg hr, hb]
  exact h

theorem bootWork_endsStep {s u : State} {x y : Bool} (hd : u.dev = devBoot) (hb : u.bootStep = 7) (hm : u.mpDown = false)
    (hc : u.cores = s.cores) (hs : u.sparing = s.sparing) (hx : u.boot.todo = (x || y)) : EndsStep s x y u.bootWork := by
  rw [bootWork_seven hd hb hm]
  constructor
  · intro h
    rw [if_neg (by simp [hx, h])]
    exact ⟨hd, hb⟩
  · intro h1 h2 h3
    rw [if_pos (by simp [hx, h1, h2, h3, hs])]
    refine ⟨?_, rfl⟩
    rw [← restState_congr hc]
    exact (State.fld_setFld_same _ _ _ (by decide) (by decide)).trans (Nat.mod_eq_of_lt (restState_lt u))

/-- In step 7 the boot writes GLB_STATE and the step alone. -/
theorem bootWork_seven_shape {s : State} (hd : s.dev = devBoot) (hb : s.bootStep = 7) (hm : s.mpDown = false) :
    ∃ r n, s.bootWork = { s with regs := r, bootStep := n } := by
  rw [bootWork_seven hd hb hm]
  split
  · exact ⟨_, _, rfl⟩
  · exact ⟨_, _, rfl⟩

theorem bootWork_seven_reg {s : State} (hd : s.dev = devBoot) (hb : s.bootStep = 7) (hm : s.mpDown = false) {a : Nat}
    (h : a ≠ GLB_STATE) : s.bootWork.reg a = s.reg a := by
  rw [bootWork_seven hd hb hm]
  split
  · rw [State.reg_setFld_other _ _ _ _ h]; rfl
  · rfl

/-! ## Masks -/

theorem nodup_eraseDups : ∀ (n : Nat) (l : List Nat), l.length ≤ n → l.eraseDups.Nodup
  | _, [], _ => List.nodup_nil
  | n + 1, i :: l, h => by
    rw [List.eraseDups_cons, List.nodup_cons]
    refine ⟨by simp [List.mem_eraseDups], nodup_eraseDups n _ ?_⟩
    exact (List.length_filter_le _ _).trans (by simpa using h)

theorem maskOf_eq_sum (l : List Nat) : maskOf l = ∑ i ∈ l.toFinset, 2 ^ i := by
  have hf (m : List Nat) (n : Nat) : m.foldl (fun m i => m + 2 ^ i) n = n + (m.map (2 ^ ·)).sum := by
    induction m generalizing n with
    | nil => simp
    | cons i m ih => rw [List.foldl_cons, ih, List.map_cons, List.sum_cons, Nat.add_assoc]
  have hs : l.toFinset = l.eraseDups.toFinset := by
    ext i
    simp [List.mem_eraseDups]
  rw [maskOf, hf, Nat.zero_add, hs, List.sum_toFinset _ (nodup_eraseDups _ l le_rfl)]

/-- A mask of bits below `n`. -/
theorem maskOf_lt {l : List Nat} {n : Nat} (h : ∀ i ∈ l, i < n) : maskOf l < 2 ^ n := by
  rw [maskOf_eq_sum]
  exact Nat.geomSum_lt le_rfl (fun i hi => h i (by simpa using hi))

end Sys2Proof.Machine
end

section
/-!
The boot up to step 4: the ROM, the recovery image and the rails, one lemma for each outcome.
-/

namespace Sys2Proof.Machine

/-! ## Frames -/

/-- What every frame of a boot event leaves as the outcome `u` has it. -/
structure SameBoot (u t : State) : Prop where
  regs : t.regs = u.regs
  boot : t.boot = u.boot
  bootStep : t.bootStep = u.bootStep
  mpDown : t.mpDown = u.mpDown
  now : t.now = u.now
  usbOut : t.usbOut = u.usbOut

theorem SameBoot.reg {u t : State} (h : SameBoot u t) (a : Nat) : t.reg a = u.reg a := by rw [State.reg, State.reg, h.regs]
theorem SameBoot.fld {u t : State} (h : SameBoot u t) (a hi lo : Nat) : t.fld a hi lo = u.fld a hi lo := State.fld_of_reg (h.reg a) hi lo
theorem SameBoot.dev {u t : State} (h : SameBoot u t) : t.dev = u.dev := State.dev_of_reg (h.reg _)
theorem SameBoot.faulted {u t : State} (h : SameBoot u t) {n : Nat} (hf : Faulted n u) : Faulted n t := hf.of_reg (h.reg _)

/-- A boot event whose outcome is `u`, which reaches registers, boot and secure state. -/
theorem Gives.ofBootEvent {i : Instr} {s u : State} {P : State → Prop} (h : exec i s = s.keepRings (s.inEdge (.next u)))
    (hp : ∀ t, SameBoot u t → t.recovery = u.recovery → P t) : Gives i s P :=
  ⟨_, h, hp _ ⟨rfl, rfl, rfl, rfl, rfl, rfl⟩ rfl⟩

/-- An event at a pin. -/
theorem Gives.ofPinEvent {i : Instr} {s u : State} {P : State → Prop} (h : exec i s = s.keepRings (s.keepSecure (s.inEdge (.next u))))
    (hp : ∀ t, SameBoot u t → P t) : Gives i s P := ⟨_, h, hp _ ⟨rfl, rfl, rfl, rfl, rfl, rfl⟩⟩

/-- A parallel boot step. -/
theorem Gives.ofBootStep {i : Instr} {s u : State} {P : State → Prop} (h : exec i s = s.keepRings (s.keepFabric (.next u)))
    (hp : ∀ t, SameBoot u t → t.akGen = u.akGen → t.drives = u.drives → P t) : Gives i s P :=
  ⟨_, h, hp _ ⟨rfl, rfl, rfl, rfl, rfl, rfl⟩ rfl rfl⟩

/-- Registers kept whole keep the device state. -/
theorem State.dev_of_regs {s t : State} (h : t.regs = s.regs) : t.dev = s.dev := State.dev_of_reg (by simp only [State.reg, h])

/-- A state in BOOT is not OFF. -/
theorem State.dev_ne_off {s : State} (h : s.dev = devBoot) : s.dev ≠ devOff := by
  rw [h]
  decide

/-! ## ROOT_PLL_LOCK -/

@[simp] theorem devFault_bootStep (s : State) (n : Nat) : (s.devFault n).bootStep = s.bootStep := by
  obtain ⟨r, he⟩ := devFault_shape s n
  rw [he]

@[simp] theorem devFault_boot (s : State) (n : Nat) : (s.devFault n).boot = s.boot := by
  obtain ⟨r, he⟩ := devFault_shape s n
  rw [he]

/-- What the start of the MP leaves beyond the registers. -/
theorem mpStart_started (s : State) (slot stage : Nat) (image : List Byte) :
    (s.mpStart slot stage image).bootStep = 3 ∧ (s.mpStart slot stage image).mpDown = false ∧
      (s.mpStart slot stage image).boot = { s.boot with vrEn := 1 } ∧ (s.mpStart slot stage image).recovery = s.recovery := by
  obtain ⟨r, v, he⟩ := mpStart_shape s slot stage image
  rw [he]
  exact ⟨rfl, rfl, rfl, rfl⟩

/-- Its registers: GLB_STATE stays, the slot stands in SEC_STAT, and one more boot is counted. -/
theorem mpStart_glbState (s : State) (slot : Nat) {stage : Nat} (image : List Byte) (h : stage < 4) :
    (s.mpStart slot stage image).reg GLB_STATE = s.reg GLB_STATE := by
  rw [mpStart_reg s slot image h (by decide), if_neg (by decide), if_neg (by decide)]

theorem mpStart_secStat (s : State) (slot : Nat) {stage : Nat} (image : List Byte) (h : stage < 4) :
    (s.mpStart slot stage image).reg SEC_STAT = setField (s.reg SEC_STAT) 1 0 slot := by
  rw [mpStart_reg s slot image h (by decide), if_pos rfl]

theorem mpStart_slot (s : State) (slot : Nat) {stage : Nat} (image : List Byte) (h : stage < 4) :
    (s.mpStart slot stage image).fld SEC_STAT 1 0 = slot % 4 := by
  rw [State.fld, mpStart_secStat s slot image h]
  exact regField_setField_same _ _ (by decide) (by decide)

theorem mpStart_secBoots (s : State) (slot : Nat) {stage : Nat} (image : List Byte) (h : stage < 4) :
    (s.mpStart slot stage image).reg SEC_BOOTS = s.reg SEC_BOOTS + 1 := by
  rw [mpStart_reg s slot image h (by decide), if_neg (by decide), if_pos rfl]

section
variable {s : State} (hd : s.dev = devBoot) (hb : s.bootStep = 0)
include hd hb

theorem rootPllLock_open : ¬ (s.dev ≠ devBoot ∨ s.bootStep ≠ 0) := by simp [hd, hb]

/-- Unreadable OTP faults the device. -/
theorem rootPllLock_unreadable : Gives (.rootPllLock false) s (Faulted 5) := by
  apply Gives.ofBootEvent (u := ({ s with mpDown := true } : State).devFault 5)
  · show execRootPllLock false s = _
    rw [execRootPllLock, if_neg (rootPllLock_open hd hb), if_pos (by decide : (!false) = true)]
  · have hoff : ({ s with mpDown := true } : State).dev ≠ devOff := State.dev_ne_off ((State.dev_of_regs rfl).trans hd)
    exact fun t ht _ => ht.faulted (devFault_faulted _ hoff (by decide))

/-- With RECOVERY_N low the ROM waits for a recovery image. -/
theorem rootPllLock_recovery (hr : s.boot.recoveryMode = true) :
    Gives (.rootPllLock true) s (fun t => t.bootStep = 1 ∧ t.dev = devBoot ∧ t.mpDown = true) := by
  apply Gives.ofBootEvent (u := { s with bootStep := 1, mpDown := true })
  · show execRootPllLock true s = _
    rw [execRootPllLock, if_neg (rootPllLock_open hd hb), if_neg (by decide : ¬ (!true) = true), if_pos hr]
  · exact fun t ht _ => ⟨ht.bootStep, (State.dev_of_regs ht.regs).trans hd, ht.mpDown⟩

/-- The state of a ROM that found no image. -/
def noImage (s : State) : State := { s with bootStep := 1, mpDown := true, boot := { s.boot with recoveryMode := true } }

/-- With no image that verifies the device is FAULTED and waits for one. -/
theorem rootPllLock_noImage (hr : s.boot.recoveryMode = false) (hs : s.bootSlot 1 = none) :
    Gives (.rootPllLock true) s (fun t => Faulted 4 t ∧ t.bootStep = 1 ∧ t.boot.recoveryMode = true) := by
  apply Gives.ofBootEvent (u := (noImage s).devFault 4)
  · show execRootPllLock true s = _
    rw [execRootPllLock, if_neg (rootPllLock_open hd hb), if_neg (by decide : ¬ (!true) = true), if_neg (by simp [hr]), hs]
    rfl
  · have hoff : (noImage s).dev ≠ devOff := State.dev_ne_off ((State.dev_of_regs rfl).trans hd)
    intro t ht _
    refine ⟨ht.faulted (devFault_faulted _ hoff (by decide)), ?_, ?_⟩
    · rw [ht.bootStep, devFault_bootStep, noImage]
    · rw [ht.boot, devFault_boot, noImage]

/-- The MP runs from the slot that verifies. -/
theorem rootPllLock_boots {k : Nat} (hr : s.boot.recoveryMode = false) (hs : s.bootSlot 1 = some k) :
    Gives (.rootPllLock true) s (fun t => t.dev = devBoot ∧ t.bootStep = 3 ∧
      t.mpDown = false ∧ t.boot.vrEn = 1 ∧ t.fld SEC_STAT 1 0 = k % 4 ∧ t.reg SEC_BOOTS = s.reg SEC_BOOTS + 1) := by
  apply Gives.ofBootEvent (u := s.mpStart k 1 (s.image 1 k))
  · show execRootPllLock true s = _
    rw [execRootPllLock, if_neg (rootPllLock_open hd hb), if_neg (by decide : ¬ (!true) = true), if_neg (by simp [hr]), hs]
  · obtain ⟨hstep, hdown, hboot, -⟩ := mpStart_started s k 1 (s.image 1 k)
    intro t ht _
    refine ⟨?_, ht.bootStep.trans hstep, ht.mpDown.trans hdown, by rw [ht.boot, hboot], ?_, ?_⟩
    · exact ht.dev.trans ((State.dev_of_reg (mpStart_glbState s k _ (by decide))).trans hd)
    · exact (ht.fld _ _ _).trans (mpStart_slot s k _ (by decide))
    · rw [ht.reg, mpStart_secBoots _ _ _ (by decide)]

end

/-! ## RECOVERY_IMAGE -/

/-- The device in BOOT again, with the image that it took. -/
def recovering (s : State) (image : List Byte) : State :=
  (({ s with recovery := image, boot := { s.boot with recoveryMode := false } } : State).setFld SEC_STAT 4 4 1).enterBoot 0 1

theorem recovering_secStat (s : State) (image : List Byte) :
    (recovering s image).reg SEC_STAT = setField (setField (s.reg SEC_STAT) 4 4 1) 7 6 0 := by
  rw [recovering, enterBoot_secStat, State.reg_setFld, if_pos rfl]
  rfl

section
variable {s : State} {image : List Byte} (hd : s.dev ≠ devOff) (hr : s.boot.recoveryMode = true) (hb : s.bootStep = 1)
include hd hr hb

theorem recoveryImage_open : ¬ (s.dev = devOff ∨ ¬ s.boot.recoveryMode = true ∨ s.bootStep ≠ 1) := by simp [hd, hr, hb]

/-- An image that verifies runs. -/
theorem recoveryImage_runs (hl : image.length ≤ 4194304) (hok : s.imageOk 3 image = true) :
    Gives (.recoveryImage image) s (fun t => t.dev = devBoot ∧ t.bootStep = 3 ∧ t.mpDown = false ∧ t.recovery = image ∧
      t.boot.recoveryMode = false ∧ t.fld SEC_STAT 4 4 = 1 ∧ t.fld SEC_STAT 1 0 = 2) := by
  apply Gives.ofBootEvent (u := (recovering s image).mpStart 2 3 image)
  · show execRecoveryImage image s = _
    rw [execRecoveryImage, if_neg (recoveryImage_open hd hr hb), if_pos ⟨hl, hok⟩]
    rfl
  · obtain ⟨hstep, hdown, hboot, hrec⟩ := mpStart_started (recovering s image) 2 3 image
    have hdev : (recovering s image).dev = devBoot := enterBoot_dev _ 0 1
    have hmode : (recovering s image).boot.recoveryMode = false := rfl
    intro t ht htr
    refine ⟨?_, ht.bootStep.trans hstep, ht.mpDown.trans hdown, htr.trans hrec, ?_, ?_, ?_⟩
    · exact ht.dev.trans ((State.dev_of_reg (mpStart_glbState _ 2 image (by decide))).trans hdev)
    · rw [ht.boot, hboot, ← hmode]
    · rw [ht.fld, State.fld, mpStart_secStat _ _ _ (by decide), recovering_secStat,
        regField_setField_other _ _ (by decide) (by decide) (by decide), regField_setField_other _ _ (by decide) (by decide) (by decide)]
      exact regField_setField_same _ _ (by decide) (by decide)
    · exact (ht.fld _ _ _).trans (mpStart_slot _ 2 _ (by decide))

/-- Any other is answered AUTH_FAILED, and the ROM waits on. -/
theorem recoveryImage_refused (h : 4194304 < image.length ∨ s.imageOk 3 image = false) :
    Gives (.recoveryImage image) s (fun t => t.bootStep = 1 ∧ t.regs = s.regs ∧
      t.boot = s.boot ∧ t.usbOut = s.usbOut ++ [leBytes 1 stAuthFailed]) := by
  have hbad : ¬ (image.length ≤ 4194304 ∧ s.imageOk 3 image = true) := by
    rcases h with h | h
    · omega
    · simp [h]
  apply Gives.ofBootEvent (u := { s with usbOut := s.usbOut ++ [leBytes 1 stAuthFailed] })
  · show execRecoveryImage image s = _
    rw [execRecoveryImage, if_neg (recoveryImage_open hd hr hb), if_neg hbad]
  · exact fun t ht _ => ⟨ht.bootStep.trans hb, ht.regs, ht.boot, ht.usbOut⟩

end

/-! ## VR_PG_RISE and VR_PG_FALL (R444) -/

/-- The state with a group up and the next enabled. -/
def groupUp (k : Nat) (s : State) : State := { s with boot := { s.boot with vrPg := s.boot.vrPg ++ [k], vrEn := min 3 (k + 2) } }

/-- The end of step 4 beyond the registers. -/
theorem railsUp_boot (s : State) : s.railsUp.boot = s.boot ∧ s.railsUp.bootStep = 4 := by
  obtain ⟨r, he⟩ := portsDown_shape 32 { s with bootStep := 4 }
  rw [railsUp_eq, he]
  exact ⟨rfl, rfl⟩

/-- A group that comes up enables the next; the last one ends step 4. -/
theorem vrPgRise_gives {s : State} {k : Nat} (hk : k < 3) (hd : s.dev = devBoot) (hb : s.bootStep = 3) (he : k < s.boot.vrEn)
    (hn : k ∉ s.boot.vrPg) : Gives (.vrPgRise k) s (fun t =>
      t.boot = { s.boot with vrPg := s.boot.vrPg ++ [k], vrEn := min 3 (k + 2) } ∧ t.bootStep = if k = 2 then 4 else 3) := by
  apply Gives.ofPinEvent (u := if k = 2 then (groupUp k s).railsUp else groupUp k s)
  · show execVrPgRise k s = _
    rw [execVrPgRise, if_pos ⟨hd, hb, hk, he, by simpa using hn⟩]
    rfl
  · obtain ⟨hboot, hstep⟩ := railsUp_boot (groupUp k s)
    intro t ht
    by_cases h2 : k = 2
    · rw [if_pos h2] at ht ⊢
      exact ⟨ht.boot.trans hboot, ht.bootStep.trans hstep⟩
    · rw [if_neg h2] at ht ⊢
      exact ⟨ht.boot, ht.bootStep.trans hb⟩

/-- A group that drops unbidden is a loss of power. -/
theorem vrPgFall_gives {s : State} {k : Nat} (he : k < s.boot.vrEn) (hk : k ∈ s.boot.vrPg) : Gives (.vrPgFall k) s (ColdFrom s) := by
  refine ⟨s.coldReset, ?_, coldReset_cold s⟩
  show execVrPgFall k s = _
  rw [execVrPgFall, if_pos ⟨he, by simpa using hk⟩]

end Sys2Proof.Machine
end

section
/-!
The parallel boot steps 5, 8 and 9.
-/

namespace Sys2Proof.Machine

/-- The frame and the conditions of the parallel boot steps in step 7. -/
theorem bootStepOpen_seven {s : State} (hd : s.dev = devBoot) (hb : s.bootStep = 7) (hm : s.mpDown = false) : s.bootStepOpen = true := by
  simp [State.bootStepOpen, hd, hb, hm]

/-- What the end of the boot leaves beyond the registers and the step. -/
theorem bootWork_seven_kept {s : State} (hd : s.dev = devBoot) (hb : s.bootStep = 7) (hm : s.mpDown = false) :
    s.bootWork.boot = s.boot ∧ s.bootWork.akGen = s.akGen ∧ s.bootWork.drives = s.drives := by
  obtain ⟨r, n, he⟩ := bootWork_seven_shape hd hb hm
  rw [he]
  exact ⟨rfl, rfl, rfl⟩

theorem SameBoot.endsStep {s u t : State} (h : SameBoot u t) {x y : Bool} (he : EndsStep s x y u) : EndsStep s x y t :=
  he.of_reg (h.reg _) h.bootStep

/-! ## ATTEST_KEY_READY -/

/-- The state with a new attestation key and step 5 ended. -/
def keyReady (s : State) : State := { s.newAttestKey with boot := { s.boot with keyTodo := false } }

theorem keyReady_reg (s : State) (a : Nat) : (keyReady s).reg a = if a = SEC_STAT then setField (s.reg SEC_STAT) 5 5 1 else s.reg a :=
  State.reg_setFld { s with akGen := s.akGen + 1 } SEC_STAT a 5 5 1

section
variable {s : State} (hd : s.dev = devBoot) (hb : s.bootStep = 7) (hm : s.mpDown = false)
include hd hb hm

/-- Step 5 ends with a new attestation key. -/
theorem attestKeyReady_gives (hk : s.boot.keyTodo = true) :
    Gives .attestKeyReady s (fun t => t.akGen = s.akGen + 1 ∧ t.fld SEC_STAT 5 5 = 1 ∧ t.boot.keyTodo = false ∧
      EndsStep s s.boot.memTodo s.boot.driveTodo t) := by
  have hd' : (keyReady s).dev = devBoot := (State.dev_of_reg (by rw [keyReady_reg, if_neg (by decide)])).trans hd
  apply Gives.ofBootStep (u := (keyReady s).bootWork)
  · show execAttestKeyReady s = _
    rw [execAttestKeyReady, if_pos ⟨bootStepOpen_seven hd hb hm, hk⟩]
    rfl
  · obtain ⟨hboot, hgen, -⟩ := bootWork_seven_kept hd' hb hm
    intro t ht hak _
    refine ⟨hak.trans hgen, ?_, ?_, ht.endsStep (bootWork_endsStep hd' hb hm rfl rfl ?_)⟩
    · rw [ht.fld, State.fld, bootWork_seven_reg hd' hb hm (by decide), keyReady_reg, if_pos rfl]
      exact regField_setField_same _ _ (by decide) (by decide)
    · rw [ht.boot, hboot, keyReady]
    · simp [BootState.todo, keyReady]

end

/-! ## MEMORY_TRAINING_DONE -/

/-- The tier-1 channels that trained. -/
def trained (r : TrainResult) : List Nat := (List.range 24).filter (fun c => r.channels.contains c)

theorem trained_all {r : TrainResult} (h : ∀ c < 24, c ∈ r.channels) : trained r = List.range 24 :=
  List.filter_eq_self.mpr (fun c hc => by simpa using h c (List.mem_range.mp hc))

theorem trained_length_lt {r : TrainResult} (h : ∃ c < 24, c ∉ r.channels) : (trained r).length ≠ 24 := by
  obtain ⟨c, hc, hn⟩ := h
  have hlt : (trained r).length < (List.range 24).length :=
    List.length_filter_lt_length_iff_exists.mpr ⟨c, List.mem_range.mpr hc, by simpa using hn⟩
  rw [List.length_range] at hlt
  exact hlt.ne

/-- MEM_T1_STAT and MEM_T2_STAT after training (R316, R320). -/
def tier1Word (r : TrainResult) : W32 := BitVec.ofNat 32 (((trained r).length == 24).toNat * 2 ^ 31 + maskOf (trained r))
def tier2Word (r : TrainResult) : W32 :=
  if tier2Valid r then BitVec.ofNat 32 (2 ^ 31 + r.nch * 2 ^ 24 + r.dpc * 2 ^ 22 + r.gib * 2 ^ 14 + r.nch * r.dpc * r.gib) else 0

/-- The state with the results of training recorded and steps 8 and 9 of memory ended. -/
def memTrained (t1 t2 : W32) (s : State) : State :=
  { (s.setReg MEM_T1_STAT t1).setReg MEM_T2_STAT t2 with boot := { s.boot with memTodo := false } }

theorem memTrained_reg (t1 t2 : W32) (s : State) (a : Nat) :
    (memTrained t1 t2 s).reg a = if a = MEM_T2_STAT then t2 else if a = MEM_T1_STAT then t1 else s.reg a :=
  (State.reg_setReg _ _ _ _).trans (by rw [State.reg_setReg])

theorem memTrained_dev (t1 t2 : W32) (s : State) : (memTrained t1 t2 s).dev = s.dev :=
  State.dev_of_reg (by rw [memTrained_reg, if_neg (by decide), if_neg (by decide)])

theorem memTrained_t1 (t1 t2 : W32) (s : State) : (memTrained t1 t2 s).reg MEM_T1_STAT = t1 := by
  rw [memTrained_reg, if_neg (by decide), if_pos rfl]

theorem memoryTrainingDone_eq {s : State} (r : TrainResult) (hd : s.dev = devBoot) (hb : s.bootStep = 7) (hm : s.mpDown = false)
    (hk : s.boot.memTodo = true) : exec (.memoryTrainingDone r) s = s.keepRings (s.keepFabric (.next
      (if (trained r).length == 24 then (memTrained (tier1Word r) (tier2Word r) s).bootWork
        else (memTrained (tier1Word r) (tier2Word r) s).devFault 3))) := by
  show execMemoryTrainingDone r s = _
  rw [execMemoryTrainingDone, if_pos ⟨bootStepOpen_seven hd hb hm, hk⟩]
  rfl

/-- Every channel trained: the channels stand in MEM_T1_STAT. -/
theorem maskOf_range_24 : maskOf (List.range 24) = 2 ^ 24 - 1 := by decide

section
variable {s : State} (hd : s.dev = devBoot) (hb : s.bootStep = 7) (hm : s.mpDown = false)
include hd hb hm

theorem memoryTrainingDone_trained (r : TrainResult) (hk : s.boot.memTodo = true) (hc : ∀ c < 24, c ∈ r.channels) :
    Gives (.memoryTrainingDone r) s (fun t => t.reg MEM_T1_STAT = BitVec.ofNat 32 (2 ^ 31 + 2 ^ 24 - 1) ∧ t.boot.memTodo = false ∧
      (tier2Valid r = false → t.reg MEM_T2_STAT = 0) ∧ EndsStep s s.boot.keyTodo s.boot.driveTodo t) := by
  have hd' : (memTrained (tier1Word r) (tier2Word r) s).dev = devBoot := (memTrained_dev _ _ s).trans hd
  apply Gives.ofBootStep (u := (memTrained (tier1Word r) (tier2Word r) s).bootWork)
  · rw [memoryTrainingDone_eq r hd hb hm hk, trained_all hc]
    rfl
  · obtain ⟨hboot, -, -⟩ := bootWork_seven_kept hd' hb hm
    intro t ht _ _
    refine ⟨?_, ?_, fun h2 => ?_, ht.endsStep (bootWork_endsStep hd' hb hm rfl rfl ?_)⟩
    · rw [ht.reg, bootWork_seven_reg hd' hb hm (by decide), memTrained_t1, tier1Word, trained_all hc, maskOf_range_24]
      rfl
    · rw [ht.boot, hboot, memTrained]
    · rw [ht.reg, bootWork_seven_reg hd' hb hm (by decide), memTrained_reg, if_pos rfl, tier2Word, h2]
      rfl
    · simp [BootState.todo, memTrained, Bool.or_comm]

/-- A channel that fails faults the device. -/
theorem memoryTrainingDone_failed (r : TrainResult) (hk : s.boot.memTodo = true) (hc : ∃ c < 24, c ∉ r.channels) :
    Gives (.memoryTrainingDone r) s (fun t => Faulted 3 t ∧ (t.reg MEM_T1_STAT).getLsbD 31 = false) := by
  have hn : ((trained r).length == 24) = false := by simpa using trained_length_lt hc
  have hmask : maskOf (trained r) < 2 ^ 24 := maskOf_lt (fun c h => List.mem_range.mp (List.mem_of_mem_filter h))
  apply Gives.ofBootStep (u := (memTrained (tier1Word r) (tier2Word r) s).devFault 3)
  · rw [memoryTrainingDone_eq r hd hb hm hk, hn]
    rfl
  · intro t ht _ _
    refine ⟨ht.faulted (devFault_faulted _ (State.dev_ne_off ((memTrained_dev _ _ s).trans hd)) (by decide)), ?_⟩
    rw [ht.reg, devFault_reg _ _ (by decide), memTrained_t1, tier1Word, hn, BitVec.getLsbD_ofNat, Nat.testBit_lt_two_pow, Bool.and_false]
    simpa using hmask.trans (by decide)

end

/-! ## DRIVE_BRINGUP_END -/

/-- The state with the drives in use recorded and step 9 of the drives ended. -/
def drivesUp (v : W32) (ds : List Drive) (s : State) : State :=
  let t := (s.setReg MEM_T3_STAT v).setReg MEM_T3_PAGES (BitVec.ofNat 32 (capacity3 (drivesUsed ds) / 4096))
  { t with free := s.free + 4, drives := (drivesUsed ds).map (·.port), boot := { s.boot with driveTodo := false } }

theorem drivesUp_reg (v : W32) (ds : List Drive) (s : State) (a : Nat) : (drivesUp v ds s).reg a =
    if a = MEM_T3_PAGES then BitVec.ofNat 32 (capacity3 (drivesUsed ds) / 4096) else if a = MEM_T3_STAT then v else s.reg a :=
  (State.reg_setReg _ _ _ _).trans (by rw [State.reg_setReg])

/-- Drive bring-up ends with the drives in use and their capacity. -/
theorem driveBringupEnd_gives {s : State} (hd : s.dev = devBoot) (hb : s.bootStep = 7) (hm : s.mpDown = false) (ds : List Drive)
    (hk : s.boot.driveTodo = true) :
    Gives (.driveBringupEnd ds) s (fun t => t.drives = (drivesUsed ds).map (·.port) ∧
      t.reg MEM_T3_PAGES = BitVec.ofNat 32 (capacity3 (drivesUsed ds) / 4096) ∧ t.boot.driveTodo = false ∧
      EndsStep s s.boot.keyTodo s.boot.memTodo t) := by
  obtain ⟨v, hv⟩ : ∃ v, exec (.driveBringupEnd ds) s = s.keepRings (s.keepFabric (.next (drivesUp v ds s).bootWork)) := by
    apply Exists.intro
    show execDriveBringupEnd ds s = _
    rw [execDriveBringupEnd, if_pos ⟨bootStepOpen_seven hd hb hm, hk⟩]
    rfl
  have hd' : (drivesUp v ds s).dev = devBoot :=
    (State.dev_of_reg (by rw [drivesUp_reg, if_neg (by decide), if_neg (by decide)])).trans hd
  obtain ⟨hboot, -, hdr⟩ := bootWork_seven_kept hd' hb hm
  apply Gives.ofBootStep hv
  intro t ht _ htd
  refine ⟨htd.trans hdr, ?_, ?_, ht.endsStep (bootWork_endsStep hd' hb hm rfl rfl ?_)⟩
  · rw [ht.reg, bootWork_seven_reg hd' hb hm (by decide), drivesUp_reg, if_pos rfl]
  · rw [ht.boot, hboot, drivesUp]
  · simp [BootState.todo, drivesUp, Bool.or_comm]

end Sys2Proof.Machine
end

section
/-!
Resets by pins and power, the links, and the proof of O52.
-/

namespace Sys2Proof.Machine

/-! ## Cold resets -/

theorem sysRstAssert_gives (s : State) : Gives .sysRstAssert s (fun t => ColdFrom s t ∧ t.boot.sysRstLow = true) :=
  ⟨_, rfl, (coldReset_cold s).setBoot _, rfl⟩

theorem refclkLoss_gives {s : State} (hd : s.dev ≠ devOff) : Gives .refclkLoss s (ColdFrom s) := by
  refine ⟨s.coldReset, ?_, coldReset_cold s⟩
  show execRefclkLoss s = _
  rw [execRefclkLoss, if_neg hd]

theorem thermtrip_gives {s : State} (hd : s.dev ≠ devOff) {sensor r : Nat} (hs : sensor < 88) (hr : 460 ≤ r) :
    Gives (.thermtrip sensor r) s (fun t => ColdFrom s t ∧ t.boot.tripped = true) := by
  refine ⟨{ s.coldReset with boot := { s.coldReset.boot with tripped := true } }, ?_, (coldReset_cold s).setBoot _, rfl⟩
  show execThermtrip sensor r s = _
  rw [execThermtrip, if_pos ⟨hs, hr, hd⟩]

theorem packagePowerLoss_gives (s : State) :
    Gives .packagePowerLoss s (fun t => ColdFrom s t ∧ t.boot.tripped = false ∧ t.boot.sysRstLow = true) :=
  ⟨_, rfl, (coldReset_cold s).setBoot _, rfl, rfl⟩

/-! ## SYS_RST_RELEASE (R427) -/

/-- The state at the release of SYS_RST_N, before the boot. -/
def released (low : Bool) (s : State) : State := { s with now := 0, boot := { s.boot with sysRstLow := false, recoveryMode := low } }

/-- The release starts a cold boot. -/
theorem sysRstRelease_boots {s : State} (hl : s.boot.sysRstLow = true) (ht : s.boot.tripped = false) (low : Bool) :
    Gives (.sysRstRelease low true) s (fun t => t.dev = devBoot ∧ t.bootStep = 0 ∧ t.now = 0 ∧ t.boot.sysRstLow = false ∧
      t.boot.recoveryMode = low ∧ t.fld SEC_STAT 7 6 = 0) := by
  apply Gives.ofPinEvent (u := (released low s).enterBoot 0 0)
  · show execSysRstRelease low true s = _
    rw [execSysRstRelease, if_neg (by simp [hl]), if_neg (by simp [ht]), if_neg (by decide : ¬ (!true) = true)]
    rfl
  · intro t h
    exact ⟨h.dev.trans (enterBoot_dev _ 0 0), h.bootStep, h.now, by rw [h.boot]; rfl, by rw [h.boot]; rfl,
      (h.fld _ _ _).trans (enterBoot_kind _ 0 0)⟩

/-- Before the conditions are met the boot is undefined. -/
theorem sysRstRelease_early {s : State} (hl : s.boot.sysRstLow = true) (ht : s.boot.tripped = false) (low : Bool) :
    exec (.sysRstRelease low false) s = .fault .bootUndefined := by
  show execSysRstRelease low false s = _
  rw [execSysRstRelease, if_neg (by simp [hl]), if_neg (by simp [ht]), if_pos (by decide : (!false) = true)]
  rfl

/-! ## PERST_ASSERT: the warm reset (R426) -/

/-- An event at PERST_N, which reaches all but the private pairs and the secure state. -/
theorem Gives.ofPerst {i : Instr} {s u : State} {P : State → Prop} (h : exec i s = s.keepRings (s.keepSecure (.next u)))
    (hp : ∀ t, SameBoot u t → t.pcieUp = u.pcieUp → t.cmds = u.cmds → t.fetched = u.fetched → t.ports = u.ports →
      t.egress = u.egress → P t) : Gives i s P :=
  ⟨_, h, hp _ ⟨rfl, rfl, rfl, rfl, rfl, rfl⟩ rfl rfl rfl rfl rfl⟩

/-- The channels of agents in reset are freed: registers and the log change. -/
theorem mbxReset_onlyLogged (s : State) (gone : Nat → Bool) : OnlyLogged s (s.mbxReset gone) :=
  OnlyLogged.foldl _ (fun u _ => ite_keeps (OnlyLogged u)
    (((OnlyLogged.logEvent _ _ _ _ _).trans (.setFld _ _ _ _ _)).trans ((OnlyLogged.setFld _ _ _ _ _).trans (.setReg _ _ _))) (.refl u)) _ s

/-- The mailbox registers lie apart from the register of the device state. -/
theorem mbxReset_glbState (s : State) (gone : Nat → Bool) : (s.mbxReset gone).reg GLB_STATE = s.reg GLB_STATE := by
  refine foldl_keeps (fun u : State => u.reg GLB_STATE = s.reg GLB_STATE) _ (fun u ch hu => ?_) _ s rfl
  have hst : GLB_STATE ≠ MBX_STAT ch := by simp only [GLB_STATE, MBX_STAT]; omega
  have hlk : GLB_STATE ≠ MBX_LOCK ch := by simp only [GLB_STATE, MBX_LOCK]; omega
  refine ite_keeps (fun v : State => v.reg GLB_STATE = s.reg GLB_STATE) ?_ hu
  show ((u.mbxLog ch (u.mbxOwner ch)).setMbx ch mbxFree 0).reg GLB_STATE = s.reg GLB_STATE
  rw [State.setMbx, State.reg_setReg, if_neg hlk, State.reg_setFld_other _ _ _ _ hst, State.reg_setFld_other _ _ _ _ hst, State.mbxLog,
    State.logEvent_reg _ _ _ _ _ (by decide) (by decide) (by decide), hu]

theorem eachCore_onlyCores (s : State) (f : Nat → CoreState → CoreState) : OnlyCores s (s.eachCore f) :=
  OnlyCores.foldl _ (fun u c => ite_keeps (OnlyCores u) (.refl u) (.modCore u c _)) _ s

theorem clearRegs_reg (s : State) {p : Nat → Bool} {a : Nat} (h : p a = false) : (s.clearRegs p).reg a = s.reg a := by
  rw [State.reg, State.clearRegs, Tab.get_filter_key deviceReset s.regs (fun a => !p a) a, if_pos (by simp [h])]
  rfl

theorem haltEngines_reg (s : State) (a : Nat) : s.haltEngines.reg a = s.reg a := rfl
@[simp] theorem haltEngines_boot (s : State) : s.haltEngines.boot = s.boot := rfl
@[simp] theorem haltEngines_bootStep (s : State) : s.haltEngines.bootStep = s.bootStep := rfl

/-- The state with the engines stopped and the channels of the dies in warm reset freed. -/
def halted (s : State) : State := (s.flushSlices.mbxReset (fun o => decide (1 ≤ o ∧ o ≤ 6))).haltEngines

theorem halted_after (s : State) : (halted s).boot = s.boot ∧ (halted s).bootStep = s.bootStep ∧
    (halted s).reg GLB_STATE = s.reg GLB_STATE ∧ (halted s).cmds = [] ∧ (halted s).fetched = [] := by
  have hreg : (halted s).reg GLB_STATE = s.reg GLB_STATE := by rw [halted, haltEngines_reg, mbxReset_glbState]; rfl
  obtain ⟨r, l, m, v, he⟩ := mbxReset_onlyLogged s.flushSlices (fun o => decide (1 ≤ o ∧ o ≤ 6))
  refine ⟨?_, ?_, hreg, rfl, rfl⟩
  · rw [halted, haltEngines_boot, he, State.flushSlices]
  · rw [halted, haltEngines_bootStep, he, State.flushSlices]

/-- What a warm reset leaves. -/
theorem warmReset_after (s : State) : s.warmReset.dev = s.dev ∧ s.warmReset.boot.perstLow = s.boot.perstLow ∧
    s.warmReset.boot.memTodo = true ∧ s.warmReset.bootStep = min s.bootStep 3 ∧ s.warmReset.pcieUp = false ∧ s.warmReset.cmds = [] ∧
    s.warmReset.fetched = [] ∧ s.warmReset.ports = [] ∧ s.warmReset.egress = [] := by
  unfold State.warmReset
  extract_lets n a b pins c
  have ha : a = halted s := rfl
  have hb : OnlyCores a b := eachCore_onlyCores a _
  clear_value a b
  obtain ⟨k, rfl⟩ := hb
  obtain ⟨hboot, hstep, hreg, hcmds, hfetched⟩ := halted_after s
  rw [← ha] at hboot hstep hreg hcmds hfetched
  have hc : c.reg GLB_STATE = s.reg GLB_STATE := hreg
  have hlow : c.boot.perstLow = s.boot.perstLow := by
    show a.boot.perstLow = _
    rw [hboot]
  have hmin : c.bootStep = min s.bootStep 3 := by
    show min a.bootStep 3 = _
    rw [hstep]
  refine ⟨?_, hlow, rfl, hmin, rfl, hcmds, hfetched, rfl, rfl⟩
  clear_value c
  refine (State.fld_setFld_other _ _ (by decide) (by decide) (by decide)).trans (State.dev_of_reg (.trans ?_ hc))
  exact clearRegs_reg c (by decide)

/-- While PERST_N is high, its assertion is a warm reset once the rails are up. -/
theorem perstAssert_warm {s : State} (hp : s.boot.perstLow = false) (hd : s.dev ≠ devOff) (hb : 4 ≤ s.bootStep) :
    Gives .perstAssert s (fun t => t.boot.perstLow = true ∧ t.bootStep = 3 ∧ t.pcieUp = false ∧
      t.cmds = [] ∧ t.fetched = [] ∧ t.ports = [] ∧ t.egress = [] ∧ t.boot.memTodo = true ∧ t.dev = s.dev) := by
  let v : State := { s with boot := { s.boot with perstLow := true } }
  have hv : v.dev = s.dev := State.dev_of_regs rfl
  apply Gives.ofPerst (u := v.warmReset)
  · show execPerstAssert s = _
    rw [execPerstAssert, if_neg (by simp [hp])]
    exact congrArg (fun u => s.keepRings (s.keepSecure (.next u))) (if_pos ⟨hv ▸ hd, hb⟩)
  · obtain ⟨hdev, hlow, hmem, hstep, hlink, hcmds, hfetched, hports, hegress⟩ := warmReset_after v
    intro t h h1 h2 h3 h4 h5
    refine ⟨by rw [h.boot, hlow], ?_, h1.trans hlink, h2.trans hcmds, h3.trans hfetched, h4.trans hports, h5.trans hegress,
      by rw [h.boot, hmem], h.dev.trans (hdev.trans hv)⟩
    rw [h.bootStep, hstep]
    exact Nat.min_eq_right (by show 3 ≤ s.bootStep; omega)

/-- Before step 4 has ended only the pin changes. -/
theorem perstAssert_early {s : State} (hp : s.boot.perstLow = false) (hb : s.bootStep < 4) :
    Gives .perstAssert s (fun t => t = { s with boot := { s.boot with perstLow := true } }) := by
  refine ⟨_, ?_, rfl⟩
  show execPerstAssert s = _
  rw [execPerstAssert, if_neg (by simp [hp])]
  have hn : ¬ (({ s with boot := { s.boot with perstLow := true } } : State).dev ≠ devOff ∧ 4 ≤ s.bootStep) := by omega
  exact congrArg (fun u => s.keepRings (s.keepSecure (.next u))) (if_neg hn)

/-! ## PERST_RELEASE (R431) -/

/-- The state with PERST_N high. -/
def perstHigh (s : State) : State := { s with boot := { s.boot with perstLow := false } }

/-- The rails come up without a change of the other registers. -/
theorem railsUp_reg (s : State) {a : Nat} (h : ∀ p < 32, a ≠ PORT_STAT p) : s.railsUp.reg a = s.reg a := by
  rw [railsUp_eq, portsDown_reg 32 _ h]
  rfl

/-- Every enabled port waits for signal. -/
theorem railsUp_portSt (s : State) {p : Nat} (hp : p < 32) (hc : (s.reg (PORT_CTRL p)).getLsbD 0 = true) : s.railsUp.portSt p = pDown := by
  rw [railsUp_eq]
  exact portsDown_portSt 32 _ hp hc

/-- The release ends step 4 of a boot whose rails are up. -/
theorem perstRelease_gives {s : State} (hp : s.boot.perstLow = true) (hd : s.dev ≠ devOff) (hb : s.bootStep = 3)
    (hv : s.boot.vrPg.length = 3) : Gives .perstRelease s (fun t => t.dev = devBoot ∧
      t.bootStep = 4 ∧ t.boot.perstLow = false ∧ t.fld SEC_STAT 7 6 = s.boot.kind % 4 ∧
      (∀ p < 32, (s.reg (PORT_CTRL p)).getLsbD 0 = true → t.portSt p = pDown)) := by
  have hdev : (perstHigh s).dev = s.dev := State.dev_of_regs rfl
  apply Gives.ofPinEvent (u := ((perstHigh s).enterBoot s.boot.kind 3).railsUp)
  · show execPerstRelease s = _
    rw [execPerstRelease, if_neg (by simp [hp])]
    refine congrArg (fun u => s.keepRings (s.keepSecure (s.inEdge (.next u)))) ((if_neg ?_).trans (if_pos ⟨hb, hv⟩))
    exact hdev ▸ hd
  · obtain ⟨hboot, hstep⟩ := railsUp_boot ((perstHigh s).enterBoot s.boot.kind 3)
    intro t h
    refine ⟨?_, h.bootStep.trans hstep, by rw [h.boot, hboot]; rfl, ?_, fun p h32 hc => ?_⟩
    · exact h.dev.trans ((State.dev_of_reg (railsUp_reg _ (fun p _ => by simp only [GLB_STATE, PORT_STAT]; omega))).trans
        (enterBoot_dev _ _ _))
    · rw [h.fld, State.fld, railsUp_reg _ (fun p _ => by simp only [SEC_STAT, PORT_STAT]; omega)]
      exact enterBoot_kind _ _ _
    · refine (h.fld _ _ _).trans (railsUp_portSt _ h32 ?_)
      rw [enterBoot_reg _ _ _ (by simp only [SEC_STAT, PORT_CTRL]; omega) (by simp only [GLB_STATE, PORT_CTRL]; omega)]
      exact hc

/-! ## Links (R3, R458) -/

/-- `u` agrees with `s` in all that the frames of an event at a pin keep. -/
def PinsOnly (s u : State) : Prop :=
  s.sameCores u = u ∧ s.sameMem u = u ∧ s.samePower u = u ∧ s.sameFabric u = u ∧ s.sameSecure u = u ∧ s.sameRings u = u

/-- Such an outcome passes the frames as it is. -/
theorem PinsOnly.next {s u : State} (h : PinsOnly s u) : s.keepRings (s.keepSecure (s.inEdge (.next u))) = .next u := by
  obtain ⟨hcores, hmem, hpower, hfabric, hsecure, hrings⟩ := h
  simp only [State.inEdge, State.keepCores, State.keepMem, State.keepPower, State.keepFabric, State.keepSecure, State.keepRings,
    hcores, hmem, hpower, hfabric, hsecure, hrings]

theorem pcieLinkUp_eq {s : State} (hd : s.dev ≠ devOff) (hb : 4 ≤ s.bootStep) (hp : s.boot.perstLow = false) :
    exec .pcieLinkUp s = .next { s with pcieUp := true } := by
  show execPcieLinkUp s = _
  rw [execPcieLinkUp, if_pos ⟨hd, hb, by simp [hp]⟩]
  exact PinsOnly.next ⟨rfl, rfl, rfl, rfl, rfl, rfl⟩

theorem pcieLinkDown_eq (s : State) : exec .pcieLinkDown s = .next { s with pcieUp := false } :=
  PinsOnly.next ⟨rfl, rfl, rfl, rfl, rfl, rfl⟩

theorem pcieConfigWrite_eq {s : State} (x y z : Bool) (hu : s.pcieUp = true) :
    exec (.pcieConfigWrite x y z) s = .next { s with busMaster := x, inD0 := y, d3hot := z && !y } := by
  show execPcieConfigWrite x y z s = _
  rw [execPcieConfigWrite, if_pos hu]
  exact PinsOnly.next ⟨rfl, rfl, rfl, rfl, rfl, rfl⟩

theorem usbConfigurationChange_eq {s : State} (x y : Bool) (hd : s.dev ≠ devOff) :
    exec (.usbConfigurationChange x y) s = .next { s with usbUp := x && !y } := by
  show execUsbConfigurationChange x y s = _
  rw [execUsbConfigurationChange, if_neg hd]
  exact PinsOnly.next ⟨rfl, rfl, rfl, rfl, rfl, rfl⟩

/-! ## O52 -/

/-- Settles O52: each clause by the lemma of its command. -/
theorem bootAndPins : Obligations.BootAndPins := by
  intro s
  refine ⟨fun hd hb => ⟨rootPllLock_unreadable hd hb, rootPllLock_recovery hd hb, rootPllLock_noImage hd hb,
      fun _ => rootPllLock_boots hd hb⟩,
    fun _ hd hr hb => ⟨recoveryImage_runs hd hr hb, recoveryImage_refused hd hr hb⟩,
    fun _ hk hd hb he hn => vrPgRise_gives hk hd hb he hn,
    fun hd hb hm => ⟨attestKeyReady_gives hd hb hm, memoryTrainingDone_trained hd hb hm, memoryTrainingDone_failed hd hb hm,
      driveBringupEnd_gives hd hb hm⟩,
    sysRstAssert_gives s,
    fun hl ht low => ⟨sysRstRelease_boots hl ht low, sysRstRelease_early hl ht low⟩,
    fun hp => ⟨perstAssert_warm hp, perstAssert_early hp⟩,
    perstRelease_gives,
    fun _ => vrPgFall_gives,
    fun hd => ⟨refclkLoss_gives hd, fun _ hs _ hr => thermtrip_gives hd hs hr⟩,
    packagePowerLoss_gives s,
    pcieLinkUp_eq, pcieLinkDown_eq s, pcieConfigWrite_eq, usbConfigurationChange_eq⟩

end Sys2Proof.Machine
end

section
/-!
Codes of the accumulators (R36, R37), and the proof of O59.
-/

namespace Sys2Proof.Machine

/-! ## Two's complement in `w` bits -/

theorem two_pow_eq_twice {w : Nat} (hw : 1 ≤ w) : 2 ^ w = 2 * 2 ^ (w - 1) := by rw [← pow_succ', Nat.sub_add_cancel hw]

theorem signed_eq {w n : Nat} (h : n < 2 ^ w) : signed w n = if n < 2 ^ (w - 1) then (n : Int) else n - (2 ^ w : Nat) := by
  rw [signed, Nat.mod_eq_of_lt h]

theorem unsignedBits_eq {w : Nat} {v : Int} (hl : -(2 ^ w : Nat) ≤ v) (hh : v < (2 ^ w : Nat)) :
    unsignedBits w v = if 0 ≤ v then v.toNat else (v + (2 ^ w : Nat)).toNat := by
  rw [show unsignedBits w v = (v % (2 ^ w : Nat)).toNat by simp [unsignedBits]]
  split
  · next h => rw [Int.emod_eq_of_lt h hh]
  · rw [← Int.add_emod_right, Int.emod_eq_of_lt (by omega) (by omega)]

theorem unsignedBits_signed {w n : Nat} (hw : 1 ≤ w) (h : n < 2 ^ w) : unsignedBits w (signed w n) = n := by
  have h2 := two_pow_eq_twice hw
  rw [signed_eq h]
  split
  · rw [unsignedBits_eq (by omega) (by omega), if_pos (by omega), Int.toNat_natCast]
  · rw [unsignedBits_eq (by omega) (by omega), if_neg (by omega), Int.sub_add_cancel, Int.toNat_natCast]

/-! ## The codes (R36)

From 2 bits on, half of the codes being `2 ^ (w - 1)`, the three special codes are different ones. -/

theorem accMax_eq (w : Nat) : accMax w = (2 ^ (w - 1) : Nat) - 2 := by simp [accMax]

/-- A code that is none of the special ones stands for its two's-complement value. -/
theorem accValue_of_finite {w n : Nat} (h : n < 2 ^ w) (hp : n ≠ 2 ^ (w - 1) - 1) (hn : n ≠ 2 ^ (w - 1) + 1) (hs : n ≠ 2 ^ (w - 1)) :
    accValue w n = .fin (signed w n) := by
  rw [accValue, Nat.mod_eq_of_lt h, if_neg hs, if_neg hp, if_neg hn]

/-- That value lies in the finite range. -/
theorem signed_in_range {w n : Nat} (hw : 2 ≤ w) (h : n < 2 ^ w) (hp : n ≠ 2 ^ (w - 1) - 1) (hn : n ≠ 2 ^ (w - 1) + 1)
    (hs : n ≠ 2 ^ (w - 1)) : -accMax w ≤ signed w n ∧ signed w n ≤ accMax w := by
  have h2 := two_pow_eq_twice (w := w) (by omega)
  rw [signed_eq h, accMax_eq]
  split <;> omega

/-- The code of a value of the finite range: none of the special ones, and the value is its two's complement. -/
theorem unsignedBits_in_range {w : Nat} {v : Int} (hw : 2 ≤ w) (hl : -accMax w ≤ v) (hh : v ≤ accMax w) :
    unsignedBits w v < 2 ^ w ∧ unsignedBits w v ≠ 2 ^ (w - 1) - 1 ∧ unsignedBits w v ≠ 2 ^ (w - 1) + 1 ∧
      unsignedBits w v ≠ 2 ^ (w - 1) ∧ signed w (unsignedBits w v) = v := by
  have h2 := two_pow_eq_twice (w := w) (by omega)
  rw [accMax_eq] at hl hh
  have hu := unsignedBits_eq (w := w) (v := v) (by omega) (by omega)
  have hlt : unsignedBits w v < 2 ^ w := by rw [hu]; split <;> omega
  rw [signed_eq hlt, hu]
  split <;> split <;> omega

/-- Every code is the code of what it stands for. -/
theorem accCode_accValue {w n : Nat} (hw : 2 ≤ w) (h : n < 2 ^ w) : accCode w (accValue w n) = n := by
  by_cases hs : n = 2 ^ (w - 1)
  · rw [accValue, Nat.mod_eq_of_lt h, if_pos hs]; exact hs.symm
  by_cases hp : n = 2 ^ (w - 1) - 1
  · rw [accValue, Nat.mod_eq_of_lt h, if_neg hs, if_pos hp]; exact hp.symm
  by_cases hn : n = 2 ^ (w - 1) + 1
  · rw [accValue, Nat.mod_eq_of_lt h, if_neg hs, if_neg hp, if_pos hn]; exact hn.symm
  · rw [accValue_of_finite h hp hn hs]; exact unsignedBits_signed (by omega) h

/-- A special, or a finite value of the range, is written with a code that stands for it. -/
theorem accValue_accCode {w : Nat} {x : AV} (hw : 2 ≤ w) (hx : ∀ v, x = .fin v → -accMax w ≤ v ∧ v ≤ accMax w) :
    accValue w (accCode w x) = x := by
  have h2 := two_pow_eq_twice (w := w) (by omega)
  have h1 : 2 ≤ 2 ^ (w - 1) := Nat.le_self_pow (by omega) 2
  cases x with
  | fin v =>
    obtain ⟨hl, hh⟩ := hx v rfl
    obtain ⟨hlt, hp, hn, hs, hv⟩ := unsignedBits_in_range hw hl hh
    rw [accCode, accValue_of_finite hlt hp hn hs, hv]
  | pinf => rw [accCode, accValue, Nat.mod_eq_of_lt (by omega), if_neg (by omega), if_pos rfl]
  | ninf => rw [accCode, accValue, Nat.mod_eq_of_lt (by omega), if_neg (by omega), if_neg (by omega), if_pos rfl]
  | nas => rw [accCode, accValue, Nat.mod_eq_of_lt (by omega), if_pos rfl]

/-- What enters an accumulator is finite only within the range (R37). -/
theorem accFit_in_range {w : Nat} {v u : Int} (h : accFit w v = .fin u) : -accMax w ≤ u ∧ u ≤ accMax w := by
  unfold accFit at h
  split at h
  · cases h
  · split at h
    · cases h
    · cases h; omega

/-- Settles O59, for every width from 2 bits on. -/
theorem accumulatorCodes : Obligations.AccumulatorCodes := by
  intro w hw
  have hw2 : 2 ≤ w := by omega
  exact ⟨rfl, rfl, rfl, rfl, fun n => accCode_accValue hw2,
    fun n h hp hn hs => ⟨signed w n, accValue_of_finite h hp hn hs, signed_in_range hw2 h hp hn hs⟩,
    fun x => accValue_accCode hw2, fun v => accValue_accCode hw2 fun u => accFit_in_range⟩

end Sys2Proof.Machine
end

section
/-!
A fault of the tile, and the proof of O4 (R24, R35, R61, R69, R70).
-/

namespace Sys2Proof.Machine

/-! ## Faults of the tile (R214) -/

theorem OnlyLogged.core {s t : State} (h : OnlyLogged s t) (c : Nat) : t.core c = s.core c := by
  obtain ⟨_, _, _, _, rfl⟩ := h; rfl

theorem OnlyLogged.now {s t : State} (h : OnlyLogged s t) : t.now = s.now := by
  obtain ⟨_, _, _, _, rfl⟩ := h; rfl

/-- A core that may issue has a program and no fault. -/
theorem CoreState.canIssue_faultless {k : CoreState} (h : k.canIssue = true) : k.fault = none ∧ k.loaded = true := by
  simp only [CoreState.canIssue, Bool.and_eq_true, Option.isNone_iff_eq_none] at h
  obtain ⟨⟨hloaded, hfault⟩, -⟩ := h
  exact ⟨hfault, hloaded⟩

/-- With no instruction held back, the instruction that must issue next stands at the pc. -/
theorem CoreState.curPc_free {k : CoreState} (h : k.accHeld = none) : k.curPc = k.pc := by simp [CoreState.curPc, h]

/-- A first fault is noted in the core, and the rest is a matter of the log and its counters. -/
theorem State.tileFaultAt_logged {s : State} {c : Nat} (pc st info : Nat) (hf : (s.core c).fault = none)
    (hl : (s.core c).loaded = true) :
    OnlyLogged (s.setCore c { s.core c with fault := some ⟨st, pc, info, s.now⟩ }) (s.tileFaultAt c pc st info) := by
  simp only [State.tileFaultAt, hf, hl]
  rw [if_neg (by decide)]
  split
  · exact .violation _ _ _
  split
  · exact .violation _ _ _
  split
  · exact .violation _ _ _
  · exact .refl _

/-- The instruction at the pc faults its tile: the core changes in its fault alone. -/
theorem State.tileFault_core {s : State} {c : Nat} (st info : Nat) (hc : (s.core c).canIssue = true) (ha : (s.core c).accHeld = none) :
    (s.tileFault c st info).core c = { s.core c with fault := some ⟨st, (s.core c).pc, info, s.now⟩ } ∧
      (s.tileFault c st info).now = s.now := by
  obtain ⟨hf, hl⟩ := CoreState.canIssue_faultless hc
  have h := State.tileFaultAt_logged (s := s) (s.core c).pc st info hf hl
  rw [State.tileFault, CoreState.curPc_free ha]
  exact ⟨by simpa using h.core c, h.now⟩

/-! ## Waits -/

/-- A counted wait of the instruction at the pc. -/
theorem CoreState.stall_counted (c : Nat) (k : CoreState) (cause r : Nat) :
    (k.stall c cause (some r)).arr = k.arr ∧ (k.stall c cause (some r)).pc = k.pc ∧ (k.stall c cause (some r)).wait = cause ∧
      (k.stall c cause (some r)).waited = k.waited + 1 ∧ (k.stall c cause (some r)).reg c r = satAdd (k.reg c r) 1 :=
  ⟨rfl, rfl, rfl, rfl, (CoreState.reg_setReg k c r r _).trans (if_pos rfl)⟩

/-! ## SETP ARRAY -/

/-- SETP ARRAY at the pc, past its frame. -/
theorem setpArray_eq {s : State} {c : Nat} {w : W64} (h : Issues s c .setpArray w) :
    exec (.setpArray c) s = s.inCore c (.next (if !(setpArrayOf w).ok then s.tileFault c stBadField 0
      else if setpWaits (s.core c).arr (setpArrayOf w) && !(s.core c).passes.isEmpty then s.stall c waitSetp (some CORE_ARR_STALL)
      else (s.setCore c { s.core c with arr := some (setpArrayOf w) }).issue c [])) :=
  congrArg (s.inCore c) (withTile_of_issues _ h)

theorem setpArray_refused {s : State} {c : Nat} {w : W64} (h : Issues s c .setpArray w) (hok : (setpArrayOf w).ok = false) :
    Gives (.setpArray c) s (fun t => (t.core c).fault = some ⟨stBadField, (s.core c).pc, 0, t.now⟩ ∧ (t.core c).arr = (s.core c).arr) := by
  obtain ⟨hcan, hheld, -⟩ := id h
  obtain ⟨hcore, hnow⟩ := State.tileFault_core stBadField 0 hcan hheld
  refine ⟨_, (setpArray_eq h).trans (State.inCore_next _ _ _), ?_⟩
  simp [hok, hcore, hnow]

theorem setpArray_waits {s : State} {c : Nat} {w : W64} (h : Issues s c .setpArray w) (hok : (setpArrayOf w).ok = true)
    (hp : (s.core c).passes ≠ []) (hw : setpWaits (s.core c).arr (setpArrayOf w) = true) :
    exec (.setpArray c) s = .next (s.setCore c ((s.core c).stall c waitSetp (some CORE_ARR_STALL))) := by
  rw [setpArray_eq h, if_neg (by simp [hok]), if_pos (by simp [hp, hw])]
  exact State.inCore_setCore _ _ _

/-- What a setting that is allowed keeps to (R24, R35, R69, R70, R112). -/
theorem ArrayCfg.ok_rules {a : ArrayCfg} (h : a.ok = true) :
    pairOk a.wfmt a.afmt = true ∧ widthOk a.wfmt a.wbits = true ∧ widthOk a.afmt a.abits = true ∧
      (a.s24 = true → a.g ≠ 1 ∧ a.wfmt ≠ fmtBin ∧ a.wfmt ≠ fmtScUni ∧ a.wfmt ≠ fmtScBip) ∧
      ((a.wfmt = fmtScUni ∨ a.wfmt = fmtScBip) → 4 ≤ a.slog ∧ a.slog ≤ 10) := by
  simp only [ArrayCfg.ok, Bool.and_eq_true] at h
  obtain ⟨⟨⟨⟨hpair, hwbits⟩, habits⟩, h24⟩, hslog⟩ := h
  refine ⟨hpair, hwbits, habits, fun hs => ?_, fun hst => ?_⟩
  · simpa [hs, ArrayCfg.stoch, and_assoc] using h24
  · have hstoch : a.stoch = true := by simpa [ArrayCfg.stoch] using hst
    simpa [hstoch] using hslog

/-- Settles O4: the refusal, the wait and the rules of an allowed setting, each by its lemma. -/
theorem setpArrayRefusesAndWaits : Obligations.SetpArrayRefusesAndWaits := by
  intro s c w h
  refine ⟨setpArray_refused h, fun hok hp hw => ⟨_, setpArray_waits h hok hp hw, ?_⟩, fun a => ArrayCfg.ok_rules⟩
  simp only [State.core_setCore, if_true]
  exact CoreState.stall_counted c (s.core c) waitSetp CORE_ARR_STALL

end Sys2Proof.Machine
end

section
/-!
Retirement and closing of a pass (R44, R60, R80), and the proof of O12.
-/

namespace Sys2Proof.Machine

/-! ## Retirement -/

/-- The oldest pass that has not retired, behind those that have. -/
theorem find_unretired {a b : List PassRec} {p : PassRec} (ha : ∀ q ∈ a, q.retired = true) (hp : p.retired = false) :
    (a ++ p :: b).find? (fun q => !q.retired) = some p := by
  have hnone : a.find? (fun q => !q.retired) = none := by simpa using ha
  simp [hnone, hp]

theorem retireFirst_behind {a b : List PassRec} {p : PassRec} (ha : ∀ q ∈ a, q.retired = true) (hp : p.retired = false) :
    retireFirst (a ++ p :: b) = a ++ { p with retired := true } :: b := by
  induction a with
  | nil => simp [retireFirst, hp]
  | cons q a ih =>
    obtain ⟨hq, ha⟩ := List.forall_mem_cons.mp ha
    simp [retireFirst, hq, ih ha]

/-- The low half of a count that is raised. -/
theorem CoreState.bump64_low (k : CoreState) (c off n : Nat) :
    (k.bump64 c off n).reg c off = BitVec.ofNat 32 ((k.reg c off).toNat + n) := by
  apply BitVec.eq_of_toNat_eq
  simp only [CoreState.bump64, CoreState.reg_setReg, if_true, if_neg (show off ≠ off + 4 by omega), BitVec.toNat_ofNat]
  omega

theorem CoreState.bump64_other (k : CoreState) (c off n : Nat) {r : Nat} (hl : r ≠ off) (hh : r ≠ off + 4) :
    (k.bump64 c off n).reg c r = k.reg c r := by
  simp [CoreState.bump64, hl, hh]

theorem passRetire_eq {s : State} {c : Nat} {a b : List PassRec} {p : PassRec} (hk : (s.core c).passes = a ++ p :: b)
    (ha : ∀ q ∈ a, q.retired = true) (hp : p.retired = false) :
    exec (.passRetire c) s = .next (s.setCore c ((({ s.core c with passes := a ++ { p with retired := true } :: b } : CoreState).bump64 c
      CORE_ARR_PASS_LO 1).bump64 c CORE_ARR_CYC_LO p.slot)) := by
  show execPassRetire c s = _
  simp only [execPassRetire, hk, find_unretired ha hp, retireFirst_behind ha hp, State.inCore_setCore]

theorem passRetire_gives {s : State} {c : Nat} {a b : List PassRec} {p : PassRec} (hk : (s.core c).passes = a ++ p :: b)
    (ha : ∀ q ∈ a, q.retired = true) (hp : p.retired = false) :
    Gives (.passRetire c) s (fun t => (t.core c).passes = a ++ { p with retired := true } :: b ∧ (t.core c).acm = (s.core c).acm ∧
      (t.core c).reg c CORE_ARR_PASS_LO = BitVec.ofNat 32 (((s.core c).reg c CORE_ARR_PASS_LO).toNat + 1) ∧
      (t.core c).reg c CORE_ARR_CYC_LO = BitVec.ofNat 32 (((s.core c).reg c CORE_ARR_CYC_LO).toNat + p.slot)) := by
  refine ⟨_, passRetire_eq hk ha hp, ?_⟩
  simp only [State.core_setCore, if_true]
  refine ⟨rfl, rfl, ?_, ?_⟩
  · rw [CoreState.bump64_other _ _ _ _ (by decide) (by decide), CoreState.bump64_low]
    rfl
  · rw [CoreState.bump64_low, CoreState.bump64_other _ _ _ _ (by decide) (by decide)]
    rfl

/-! ## Closing -/

theorem passClosing_eq {s : State} {c : Nat} {p : PassRec} {ps : List PassRec} {k' : CoreState} (hk : (s.core c).passes = p :: ps)
    (hp : p.retired = true) (hc : closePass c p (s.core c) = (k', false)) :
    exec (.passClosing c) s = .next (s.setCore c { k' with
      passes := ps, checks := k'.checks ++ (p.check.map (fun l => (p.base, p.ext, l))).toList }) := by
  have hclose : s.closeOldest c = s.setCore c { k' with
      passes := ps, checks := k'.checks ++ (p.check.map (fun l => (p.base, p.ext, l))).toList } := by
    cases hl : p.check <;> simp [State.closeOldest, hk, hp, hc, hl]
  show s.inCore c (.next (s.closeOldest c)) = _
  rw [hclose, State.inCore_setCore]

/-- An entry written depends on ACM alone. -/
theorem CoreState.setAcmEntry_acm_congr {k k' : CoreState} (h : k'.acm = k.acm) (acc16 : Bool) (b e : Nat) (v : AV) :
    (k'.setAcmEntry acc16 b e v).acm = (k.setAcmEntry acc16 b e v).acm := by
  simp only [CoreState.setAcmEntry, CoreState.acmWord, h]

/-- A saturation or a NAS that a closing counts leaves ACM as it is. -/
theorem CoreState.counted_acm (c : Nat) (k : CoreState) (sat nas : Bool) :
    (if sat then k.bump c CORE_ACC_SAT 1 else if nas then k.bump c CORE_ACC_NAS 1 else k).acm = k.acm := by
  cases sat <;> cases nas <;> rfl

/-- The block that a pass closes into, and the entry of a column there (R77). -/
def PassRec.rowBlock (p : PassRec) : Nat := p.base + p.row / rowsPerBlock p.acc16
def PassRec.rowEntry (p : PassRec) (col : Nat) : Nat := p.row % rowsPerBlock p.acc16 * 512 + col

/-- The entry of a column with the partial of its first segment added (R37, R44). -/
def CoreState.closedEntry (c : Nat) (k : CoreState) (p : PassRec) (col : Nat) : AV :=
  accAdd (if p.acc16 then 16 else 32) (k.acmEntry p.acc16 p.rowBlock (p.rowEntry col))
    (accFit (if p.acc16 then 16 else 32) (partialTerm (p.tallies.getD col 0) (k.scaleAt (p.sag / 16) (p.sag % 16) col)
      (p.ascales.getD 0 0) (k.blockTag c p.rowBlock).2.2))

/-- The closing of one column with one segment, into a word without an error. -/
theorem closeEntry_single {c : Nat} {k : CoreState} {p : PassRec} {col : Nat} (hs : p.segs = 1)
    (he : k.acmErrAt p.rowBlock (if p.acc16 then p.rowEntry col / 2 else p.rowEntry col) = 0) :
    (closeEntry c k p col).2 = false ∧
      (closeEntry c k p col).1.acm = (k.setAcmEntry p.acc16 p.rowBlock (p.rowEntry col) (k.closedEntry c p col)).acm := by
  simp only [PassRec.rowBlock, PassRec.rowEntry] at he
  simp only [closeEntry, he, hs, ne_eq, not_true_eq_false, false_and, if_false, if_true, List.range_one, List.foldl_cons,
    List.foldl_nil, Nat.mul_one, Nat.add_zero]
  exact ⟨trivial, CoreState.setAcmEntry_acm_congr (CoreState.counted_acm _ _ _ _) _ _ _ _⟩

/-- Settles O12: each clause by the lemma of its command or operation. -/
theorem passRetiresAndCloses : Obligations.PassRetiresAndCloses := by
  intro s c
  refine ⟨fun a p b => passRetire_gives, fun p ps k' => passClosing_eq, fun p col hs he _ => ?_⟩
  obtain ⟨hgood, hacm⟩ := closeEntry_single hs he
  exact ⟨hgood, _, rfl, hacm⟩

end Sys2Proof.Machine
end

section
/-!
What an issue and a read of a scratchpad leave of a core, and the frame of a command of one core (R184 to R186, R210 to R212).
-/

namespace Sys2Proof.Machine

/-! ## Issue -/

/-- INC of references reaches the generators alone. -/
theorem agSteps_only (rs : List Nat) (k : CoreState) : ∃ g, agSteps rs k = { k with ags := g } := by
  induction rs generalizing k with
  | nil => exact ⟨_, rfl⟩
  | cons r rs ih =>
    obtain ⟨g, hg⟩ := ih (agStep r k)
    have hstep : ∃ g, agStep r k = { k with ags := g } := by
      unfold agStep
      split <;> exact ⟨_, rfl⟩
    obtain ⟨g', hg'⟩ := hstep
    exact ⟨g, hg.trans (by rw [hg'])⟩

@[simp] theorem agSteps_accHeld (rs : List Nat) (k : CoreState) : (agSteps rs k).accHeld = k.accHeld := by
  obtain ⟨g, hg⟩ := agSteps_only rs k
  rw [hg]

/-- With no instruction held back, an issue steps the references, counts and goes on. -/
theorem State.issue_free {s : State} {c : Nat} (refs : List Nat) (h : (s.core c).accHeld = none) :
    s.issue c refs = s.setCore c (CoreState.passed c (agSteps refs (s.core c))) := by
  rw [State.issue, State.modCore, CoreState.advance_free c (by simpa using h)]

theorem State.setCore_issue {s : State} {c : Nat} {k : CoreState} (refs : List Nat) (h : k.accHeld = none) :
    (s.setCore c k).issue c refs = s.setCore c (CoreState.passed c (agSteps refs k)) := by
  rw [State.issue_free refs (by simpa using h)]
  simp

/-- An instruction of one core that changes that core and issues. -/
theorem State.inCore_issue {s : State} {c : Nat} {k : CoreState} (h : k.accHeld = none) :
    s.inCore c (.next ((s.setCore c k).issue c [])) = .next (s.setCore c (CoreState.passed c k)) := by
  rw [State.setCore_issue [] h, State.inCore_setCore]
  rfl

/-- A command of one core that changes that core, the log and the counters answers what it makes. -/
theorem State.inCore_logged {s t : State} {c : Nat} {k : CoreState} (h : OnlyLogged (s.setCore c k) t) :
    s.inCore c (.next t) = .next t := by
  obtain ⟨r, l, n, v, rfl⟩ := h
  have hcores : (s.setCore c ((s.setCore c k).core c)).cores = (s.setCore c k).cores := by simp
  simp only [State.inCore_next, State.sameRings, State.samePins, State.sameSecure, State.sameFabric, State.samePower, State.sameMem,
    State.sameOthers]
  exact congrArg (fun x => Host.Outcome.next { s with cores := x, regs := r, log := l, logCount := n, vecReq := v }) hcores

/-- What a command of one core makes of that core, the device registers and the time. -/
theorem Gives.ofCore {i : Instr} {s u : State} {c : Nat} {P : State → Prop} (h : exec i s = s.inCore c (.next u))
    (hp : ∀ t : State, t.core c = u.core c → (∀ a, t.reg a = u.reg a) → t.now = u.now → P t) : Gives i s P :=
  ⟨_, h.trans (State.inCore_next _ _ _), hp _ (by simp) (fun _ => rfl) rfl⟩

/-- What a command of several cores makes of the cores, the time and the requests for atomic operations. -/
theorem Gives.ofCores {i : Instr} {s u : State} {P : State → Prop} (h : exec i s = s.inCores (.next u))
    (hp : ∀ t : State, (∀ d, t.core d = u.core d) → t.now = u.now → t.atoms = u.atoms → t.atomResps = u.atomResps → P t) :
    Gives i s P :=
  ⟨_, h.trans (State.inCores_next _ _), hp _ (fun _ => rfl) rfl rfl rfl⟩

/-! ## Reads of a scratchpad -/

/-- `t` is `s` but for one core, which still holds back what it held, the log and the counters. -/
def OnlyCore (c : Nat) (s t : State) : Prop := ∃ k, OnlyLogged (s.setCore c k) t ∧ k.accHeld = (s.core c).accHeld

theorem OnlyCore.setCore {c : Nat} {s : State} {k : CoreState} (h : k.accHeld = (s.core c).accHeld) : OnlyCore c s (s.setCore c k) :=
  ⟨k, .refl _, h⟩

theorem OnlyCore.accHeld {c : Nat} {s t : State} (h : OnlyCore c s t) : (t.core c).accHeld = (s.core c).accHeld := by
  obtain ⟨k, hlog, hk⟩ := h
  rw [hlog.core]
  simpa using hk

theorem OnlyCore.logged {c : Nat} {s t u : State} (h : OnlyCore c s t) (hu : OnlyLogged t u) : OnlyCore c s u := by
  obtain ⟨k, hlog, hk⟩ := h
  exact ⟨k, hlog.trans hu, hk⟩

/-- A state that only has logged more takes a core as the state before does. -/
theorem OnlyLogged.setCore_both {s t : State} (h : OnlyLogged s t) (c : Nat) (k : CoreState) :
    OnlyLogged (s.setCore c k) (t.setCore c k) := by
  obtain ⟨r, l, n, v, rfl⟩ := h
  exact ⟨r, l, n, v, rfl⟩

theorem OnlyCore.setCore_logged {c : Nat} {s t : State} (h : OnlyCore c s t) (k : CoreState) :
    OnlyLogged (s.setCore c k) (t.setCore c k) := by
  obtain ⟨k', hlog, -⟩ := h
  simpa using hlog.setCore_both c k

theorem OnlyCore.trans {c : Nat} {s t u : State} (h : OnlyCore c s t) (hu : OnlyCore c t u) : OnlyCore c s u := by
  obtain ⟨k, hlog, hk⟩ := hu
  exact ⟨k, (h.setCore_logged k).trans hlog, hk.trans h.accHeld⟩

/-- A corrected error that is counted toward a repair. -/
theorem OnlyCore.noteRowError (s : State) (c kind index : Nat) : OnlyCore c s (s.noteRowError c kind index) := by
  unfold State.noteRowError
  extract_lets k n u thr
  have hu : OnlyCore c s u := .setCore rfl
  split
  · exact hu
  split
  · refine .logged (hu.trans ?_) (.logEvent _ _ _ _ _)
    exact .setCore rfl
  · exact hu.logged (.logEvent _ _ _ _ _)

theorem OnlyCore.spmCorrected (s : State) (c : Nat) (m : SpmMem) (ws : List Nat) : OnlyCore c s (s.spmCorrected c m ws) :=
  foldl_keeps (OnlyCore c s) _ (fun t _ ht => ht.trans (.noteRowError t c _ _)) ws _ (.setCore rfl)

/-- A read of a scratchpad corrects words and counts them. -/
theorem OnlyCore.spmRead (s : State) (c : Nat) (m : SpmMem) (off n : Nat) : OnlyCore c s (s.spmRead c m off n).2.2 := by
  unfold State.spmRead
  extract_lets k ws bad ce k₁ k₂ t
  have hk : OnlyCore c s (s.setCore c k₂) := .setCore rfl
  have ht : OnlyCore c s t := hk.trans (.spmCorrected _ c m ce)
  split
  · exact ht
  · exact ht.logged (.logEvent _ _ _ _ _)

/-- Service by the ports takes cycles or turns of the banks. -/
theorem CoreState.present_accHeld {c : Nat} {k k' : CoreState} {client : Nat} {m : SpmMem} {off n : Nat}
    (h : k.present c client m off n = some k') : k'.accHeld = k.accHeld := by
  have hturns (bs : List Nat) : (bs.foldl (fun k b => CoreState.turn k b client) k).accHeld = k.accHeld :=
    foldl_keeps (fun x : CoreState => x.accHeld = k.accHeld) (fun x b => x.turn b client) (fun _ _ hx => hx) bs k rfl
  simp only [CoreState.present] at h
  split at h
  · rw [Option.some.inj h]
  split at h
  · obtain ⟨u, -, rfl⟩ := Option.map_eq_some_iff.mp h
    rfl
  split at h
  · rw [← Option.some.inj h, hturns]
  · exact nomatch h

/-- A read of a scratchpad that succeeds. -/
theorem State.coreRead_ok {s u : State} {c client : Nat} {m : SpmMem} {off n : Nat} {bs : List Byte}
    (h : s.coreRead c client m off n = .ok bs u) : OnlyCore c s u := by
  simp only [State.coreRead] at h
  split at h
  · exact nomatch h
  split at h
  · exact nomatch h
  · exact nomatch h
  split at h
  · exact nomatch h
  · next k' hk' =>
    split at h
    · rw [← (Reach.ok.inj h).2]
      exact .trans (.setCore (CoreState.present_accHeld hk')) (.spmRead _ _ _ _ _)
    · exact nomatch h

end Sys2Proof.Machine
end

section
/-!
The configuration instructions: the proof of O3 (R61, R112, R210, R234, R235).
-/

namespace Sys2Proof.Machine

/-- A command that sets parts of its core and issues, with nothing held back. -/
theorem State.tile_issues {s : State} {c : Nat} {kind : TileKind} {w : W64} {f : W64 → State} {k : CoreState} (h : Issues s c kind w)
    (hf : f w = (s.setCore c k).issue c []) (hk : k.accHeld = (s.core c).accHeld) :
    s.inCore c (withTile kind c s f) = .next (s.setCore c (CoreState.passed c k)) := by
  obtain ⟨-, hheld, -⟩ := id h
  rw [withTile_of_issues _ h, hf, State.inCore_issue (hk.trans hheld)]

theorem setpArray_issues {s : State} {c : Nat} {w : W64} (h : Issues s c .setpArray w) (hok : (setpArrayOf w).ok = true)
    (hp : (s.core c).passes = [] ∨ setpWaits (s.core c).arr (setpArrayOf w) = false) :
    exec (.setpArray c) s = .next (s.setCore c (CoreState.passed c { s.core c with arr := some (setpArrayOf w) })) := by
  have hgo : ¬ (setpWaits (s.core c).arr (setpArrayOf w) && !(s.core c).passes.isEmpty) = true := by
    rcases hp with hp | hp <;> simp [hp]
  exact State.tile_issues h ((if_neg (by simp [hok])).trans (if_neg hgo)) rfl

theorem setpAga_issues {s : State} {c : Nat} {w : W64} (h : Issues s c .setpAga w) :
    exec (.setpAga c) s = .next (s.setCore c (CoreState.passed c
      ((s.core c).setAg (field w 12 10) ⟨field w 63 32, signed 19 (field w 31 13), 0, 0, 0, 0⟩))) :=
  State.tile_issues h rfl rfl

theorem setpAgb_issues {s : State} {c : Nat} {w : W64} (h : Issues s c .setpAgb w) :
    exec (.setpAgb c) s = .next (s.setCore c (CoreState.passed c
      ((s.core c).setAg (field w 12 10) ⟨((s.core c).ag (field w 12 10)).base, ((s.core c).ag (field w 12 10)).stride,
        field w 27 16, signed 24 (field w 63 40), field w 15 13, 0⟩))) :=
  State.tile_issues h rfl rfl

theorem setpDrain_issues {s : State} {c : Nat} {w : W64} (h : Issues s c .setpDrain w) :
    exec (.setpDrain c) s = .next (s.setCore c (CoreState.passed c { s.core c with
      drn := some ⟨signed 7 (field w 16 10), field w 17 17 == 1, field w 25 18, field w 33 26, field w 49 34⟩ })) :=
  State.tile_issues h rfl rfl

theorem sgseed_issues {s : State} {c : Nat} {w : W64} (h : Issues s c .sgseed w) (hb : (s.core c).genBusy (field w 9 6) = false) :
    exec (.sgseed c) s = .next (s.setCore c (CoreState.passed c ((s.core c).setReg c (CORE_SG_STATE (field w 9 6))
      (BitVec.ofNat 32 (((s.core c).fld c (CORE_SG_STATE (field w 9 6)) 31 16 + 1) % 2 ^ 16 * 2 ^ 16 + field w 31 16))))) :=
  State.tile_issues h (if_neg (by simp [hb])) rfl

theorem bound_immediate {s : State} {c : Nat} {w : W64} (h : Issues s c .bound w) (hsrc : field w 10 10 = 0) :
    exec (.boundWrite c) s = .next (s.setCore c (CoreState.passed c
      ((s.core c).setReg c (CORE_BOUND (field w 9 6)) (BitVec.ofNat 32 (field w 63 32))))) :=
  State.tile_issues h (if_pos hsrc) rfl

theorem bound_fromAm {s u : State} {c : Nat} {w : W64} {bs : List Byte} (h : Issues s c .bound w) (hsrc : field w 10 10 = 1)
    (hin : agIn (agRef c (s.core c) (field w 14 11)) (2 ^ 20 - 4) 4 = true)
    (hread : s.coreRead c 3 .am (agRef c (s.core c) (field w 14 11)).toNat 4 = .ok bs u) :
    exec (.boundWrite c) s = .next (u.setCore c (CoreState.passed c
      (agStep (field w 14 11) ((u.core c).setReg c (CORE_BOUND (field w 9 6)) (BitVec.ofNat 32 (leNat bs)))))) := by
  obtain ⟨-, hheld, -⟩ := id h
  have honly := State.coreRead_ok hread
  have hheld' : (u.core c).accHeld = none := honly.accHeld.trans hheld
  refine (congrArg (s.inCore c) (withTile_of_issues _ h)).trans ?_
  rw [if_neg (by omega), if_neg (by rw [hin]; decide)]
  simp only [hread]
  rw [State.setCreg, State.modCore, State.setCore_issue [field w 14 11] (show (CoreState.setReg _ _ _ _).accHeld = none from hheld')]
  exact State.inCore_logged (honly.setCore_logged _)

/-- Settles O3: each clause by the lemma of its instruction. -/
theorem configurationInstructionsWrite : Obligations.ConfigurationInstructionsWrite := fun _ _ _ =>
  ⟨setpArray_issues, setpAga_issues, setpAgb_issues, setpDrain_issues, sgseed_issues, bound_immediate,
    fun h hsrc hin _ _ => bound_fromAm h hsrc hin⟩

end Sys2Proof.Machine
end

section
/-!
The compute instructions at issue: the proof of O11 (R58, R60, R62, R115, R162, R213, R218).
-/

namespace Sys2Proof.Machine

/-! ## Cores with the same work -/

/-- The sequencer's place, the passes in flight, the page writes in the queue and the memories of a core are the same. -/
structure CoreState.SameWork (k k' : CoreState) : Prop where
  accHeld : k'.accHeld = k.accHeld
  pc : k'.pc = k.pc
  loops : k'.loops = k.loops
  passes : k'.passes = k.passes
  pageWrites : k'.pageWrites = k.pageWrites
  pages : k'.pages = k.pages
  acm : k'.acm = k.acm
  wm : k'.wm = k.wm
  am : k'.am = k.am

theorem CoreState.SameWork.refl (k : CoreState) : k.SameWork k := ⟨rfl, rfl, rfl, rfl, rfl, rfl, rfl, rfl, rfl⟩

theorem CoreState.SameWork.trans {k k' k'' : CoreState} (h : k.SameWork k') (h' : k'.SameWork k'') : k.SameWork k'' :=
  ⟨h'.accHeld.trans h.accHeld, h'.pc.trans h.pc, h'.loops.trans h.loops, h'.passes.trans h.passes, h'.pageWrites.trans h.pageWrites,
    h'.pages.trans h.pages, h'.acm.trans h.acm, h'.wm.trans h.wm, h'.am.trans h.am⟩

theorem CoreState.SameWork.regs (k : CoreState) (r : Tab W32) : k.SameWork { k with regs := r } :=
  ⟨rfl, rfl, rfl, rfl, rfl, rfl, rfl, rfl, rfl⟩

theorem CoreState.SameWork.bump (k : CoreState) (c off n : Nat) : k.SameWork (k.bump c off n) := .regs _ _

/-- An issue past the instruction at the pc. -/
theorem CoreState.SameWork.passed {c : Nat} {k k' : CoreState} (refs : List Nat) (h : k.SameWork k') :
    let t := CoreState.passed c (agSteps refs k')
    t.passes = k.passes ∧ t.pageWrites = k.pageWrites ∧ t.pages = k.pages ∧ t.pc = (nextPc k.pc k.loops).1 ∧ t.acm = k.acm ∧
      t.wm = k.wm ∧ t.am = k.am := by
  obtain ⟨g, hg⟩ := agSteps_only refs k'
  simp only [hg]
  rw [← h.passes, ← h.pageWrites, ← h.pages, ← h.pc, ← h.loops, ← h.acm, ← h.wm, ← h.am]
  exact ⟨rfl, rfl, rfl, rfl, rfl, rfl, rfl⟩

/-- The counters of an issued pass. -/
theorem CoreState.SameWork.countPass (c : Nat) (a : ArrayCfg) (nz : Nat) (k : CoreState) : k.SameWork (countPass c a nz k) := by
  unfold Machine.countPass
  extract_lets zrow skipped zeroed
  have hskipped : k.SameWork skipped := .bump _ _ _ _
  have hzeroed : k.SameWork zeroed := ite_keeps k.SameWork (hskipped.trans (.bump _ _ _ _)) hskipped
  exact ite_keeps k.SameWork (hzeroed.trans (.bump _ _ _ _)) hzeroed

/-- The same pass behind those in flight. -/
theorem CoreState.SameWork.enters {k k' : CoreState} (h : k.SameWork k') (pr : PassRec) :
    CoreState.SameWork { k with passes := k.passes ++ [pr] } { k' with passes := k'.passes ++ [pr] } :=
  ⟨h.accHeld, h.pc, h.loops, congrArg (· ++ [pr]) h.passes, h.pageWrites, h.pages, h.acm, h.wm, h.am⟩

/-! ## The checks passed -/

/-- What a pass that enters looks like (R58, R60, R62). -/
def PassEnters (c : Nat) (k : CoreState) (a : ArrayCfg) (stream : Bool) (p : PassWord) (bs : List Byte) (scales : List Nat)
    (pr : PassRec) : Prop :=
  pr.base = p.block ∧ pr.ext = p.ext ∧ pr.row = p.row ∧ pr.segs = a.segs ∧ pr.retired = false ∧
    pr.ascales = scales ∧ pr.sag = (agRef c k p.sag).toNat ∧
    pr.tallies = passTallies a k (agRef c k p.pag).toNat p.kv bs (if stream then streamBits c k a p bs else []) ∧
    pr.slot = slotCycles a (zeroPlanes a p.kv bs (if stream then streamBits c k a p bs else []))

theorem State.passStart_core {s : State} {c : Nat} (a : ArrayCfg) (stream : Bool) (p : PassWord) (bs : List Byte) (scales : List Nat)
    (h : (s.core c).accHeld = none) :
    ∃ pr k', PassEnters c (s.core c) a stream p bs scales pr ∧ (s.core c).SameWork k' ∧
      (s.passStart c a stream p bs scales).core c =
        CoreState.passed c (agSteps (p.refs stream) { k' with passes := k'.passes ++ [pr] }) := by
  unfold State.passStart
  extract_lets k base bits nz pr corr counted fed bumped report marked edged entered logged
  have hfed : k.SameWork fed := CoreState.SameWork.trans (.countPass c a nz k) ⟨rfl, rfl, rfl, rfl, rfl, rfl, rfl, rfl, rfl⟩
  have hmarked : k.SameWork marked := ite_keeps k.SameWork (hfed.trans ⟨rfl, rfl, rfl, rfl, rfl, rfl, rfl, rfl, rfl⟩) hfed
  have hedged : k.SameWork edged := ite_keeps k.SameWork (hmarked.trans ⟨rfl, rfl, rfl, rfl, rfl, rfl, rfl, rfl, rfl⟩) hmarked
  have hlogged : OnlyLogged entered logged := ite_keeps (OnlyLogged entered) (.violation _ _ _) (.refl _)
  have hcore : logged.core c = { edged with passes := edged.passes ++ [pr] } :=
    (hlogged.core c).trans (by simp [entered])
  have hheld : (logged.core c).accHeld = none := by
    rw [hcore]
    exact hedged.accHeld.trans h
  refine ⟨pr, edged, ⟨rfl, rfl, rfl, rfl, rfl, rfl, rfl, rfl, rfl⟩, hedged, ?_⟩
  rw [State.issue_free _ hheld, hcore]
  simp

/-- Past its checks, with what it reads in the plane buffer, a compute instruction issues. -/
theorem State.passIssue_go {s : State} {c : Nat} {op24 stream : Bool} {p : PassWord} {a : ArrayCfg} {recs bs : List Byte}
    (hg : passGate c (s.core c) op24 stream p = .go) (ha : (s.core c).arr = some a)
    (hr : (s.core c).feederHas (agRef c (s.core c) p.rag).toNat (4 * a.segs) = some recs)
    (hok : (passRecords a recs).all scaleOk8 = true)
    (hb : (s.core c).feederHas (agRef c (s.core c) p.vag).toNat a.amBytes = some bs) :
    s.passIssue c op24 stream p = s.passStart c a stream p bs (passRecords a recs) := by
  have hgood : (passRecords a recs).findIdx? (fun x => !scaleOk8 x) = none := by
    rw [List.findIdx?_eq_none_iff]
    simpa using hok
  simp only [State.passIssue, hg, ha, hr, hb, hgood]

theorem State.passIssue_waits {s : State} {c : Nat} {op24 stream : Bool} {p : PassWord} {a : ArrayCfg}
    (hg : passGate c (s.core c) op24 stream p = .go) (ha : (s.core c).arr = some a)
    (hf : (s.core c).feederHas (agRef c (s.core c) p.rag).toNat (4 * a.segs) = none ∨
      (s.core c).feederHas (agRef c (s.core c) p.vag).toNat a.amBytes = none) :
    s.passIssue c op24 stream p = s.stall c waitPlane none := by
  simp only [State.passIssue, hg, ha]
  split
  · next hr hb => simp [hr, hb] at hf
  · rfl

theorem State.passIssue_skips {s : State} {c : Nat} {op24 stream : Bool} {p : PassWord}
    (hg : passGate c (s.core c) op24 stream p = .skip) :
    s.passIssue c op24 stream p = s.setCore c (CoreState.passOver c
      (agSteps (p.refs stream) ((s.core c).bump c CORE_SP_BSKIP 1).fedOut)) := by
  simp [State.passIssue, hg, State.cbump, State.modCore]

/-! ## The three instructions -/

/-- The command of a compute instruction, with its fields. -/
def Computes (c : Nat) (w : W64) (i : Instr) (kind : TileKind) (op24 stream : Bool) (p : PassWord) : Prop :=
  (i = .pass c ∧ kind = .pass ∧ op24 = false ∧ stream = false ∧ p = passWord w) ∨
    (i = .pass24 c ∧ kind = .pass24 ∧ op24 = true ∧ stream = false ∧ p = passWord w) ∨
    (i = .stream c ∧ kind = .stream ∧ op24 = false ∧ stream = true ∧ p = streamWord w)

theorem Computes.exec_eq {s : State} {c : Nat} {w : W64} {i : Instr} {kind : TileKind} {op24 stream : Bool} {p : PassWord}
    (h : Computes c w i kind op24 stream p) (hi : Issues s c kind w) :
    exec i s = s.inCore c (.next (s.passIssue c op24 stream p)) := by
  rcases h with ⟨rfl, rfl, rfl, rfl, rfl⟩ | ⟨rfl, rfl, rfl, rfl, rfl⟩ | ⟨rfl, rfl, rfl, rfl, rfl⟩
  all_goals exact congrArg (s.inCore c) (withTile_of_issues _ hi)

/-- Settles O11: each clause by the lemma of what the checks at issue answer. -/
theorem computeInstructionsEnterThePass : Obligations.ComputeInstructionsEnterThePass := by
  intro s c w i kind op24 stream p hcmd hissues
  have hexec := Computes.exec_eq hcmd hissues
  obtain ⟨-, hheld, -⟩ := id hissues
  refine ⟨fun a recs bs hg ha hr hok hb => ?_, fun a hg ha hf => ?_, fun hg => ?_⟩
  · obtain ⟨pr, k', ⟨h1, h2, h3, h4, h5, h6, h7, h8, h9⟩, hsame, hcore⟩ :=
      State.passStart_core a stream p bs (passRecords a recs) hheld
    obtain ⟨hpasses, -, -, hpc, hacm, hwm, ham⟩ := (hsame.enters pr).passed (c := c) (p.refs stream)
    rw [State.passIssue_go hg ha hr hok hb] at hexec
    refine .ofCore hexec fun t ht _ _ => ?_
    rw [ht, hcore]
    exact ⟨pr, hpasses, h1, h2, h3, h4, h5, h6, h7, h8, h9, hpc, hacm, hwm, ham⟩
  · rw [State.passIssue_waits hg ha hf] at hexec
    refine .ofCore hexec fun t ht _ _ => ?_
    rw [ht, State.stall, State.core_modCore, if_pos rfl]
    exact ⟨rfl, rfl, rfl⟩
  · rw [hexec, State.passIssue_skips hg, State.inCore_setCore]

end Sys2Proof.Machine
end

section
/-!
Scrubs, spills and acknowledgements of a core: the proof of O18 (R73, R74, R172, R224).
-/

namespace Sys2Proof.Machine

/-! ## The scrub of a page -/

/-- The scrub of a page notes its time, and may end the sweep. -/
def CoreState.scrubbed (now mc page : Nat) (k : CoreState) : CoreState :=
  ({ k with scrubAt := Tab.set (fun _ => 0) k.scrubAt (pageKey mc page) now } : CoreState).sweepOn now

theorem CoreState.scrubbed_kept (now mc page : Nat) (k : CoreState) :
    (k.scrubbed now mc page).wm = k.wm ∧ (k.scrubbed now mc page).pages = k.pages ∧
      Tab.get (fun _ => 0) (k.scrubbed now mc page).scrubAt (pageKey mc page) = now := by
  unfold CoreState.scrubbed CoreState.sweepOn
  split <;> exact ⟨rfl, rfl, Tab.get_set_same _ _ _ _⟩

/-- A fold whose every step leaves the start as it is. -/
theorem foldl_eq_start {α β : Type} {f : β → α → β} {b : β} {l : List α} (h : ∀ a ∈ l, f b a = b) : l.foldl f b = b := by
  induction l with
  | nil => rfl
  | cons a l ih =>
    rw [List.foldl_cons, h a List.mem_cons_self]
    exact ih fun x hx => h x (List.mem_cons_of_mem _ hx)

/-- A LOADED page without an error and with its CRC keeps its rows (R73). -/
theorem State.scrubOne_clean {s : State} {c mc page : Nat} (hst : ((s.core c).page mc page).st = .loaded)
    (hf : ∀ r < 256, (s.core c).wmFlips mc page r = 0)
    (hcrc : crc32 ((s.core c).pageBytes mc page) = ((s.core c).page mc page).crc) :
    s.scrubOne c mc page = s.setCore c ((s.core c).scrubbed s.now mc page) := by
  unfold State.scrubOne
  rw [foldl_eq_start]
  · simp only [hst, hcrc, ne_eq, not_true_eq_false, if_false]
    rfl
  · intro r hr
    simp only [hf r (List.mem_range.mp hr), or_true, if_true]

theorem scrubPage_clean {s : State} {c mc page : Nat} (hen : ((s.core c).reg c CORE_ARR_SCRUB_CTRL).getLsbD 0 = true)
    (hc : s.coreSt c = 0) (hmc : mc < 16) (hp : page < 128) (hg : (s.core c).groupSt c (16 + mc) = 0)
    (hst : ((s.core c).page mc page).st = .loaded) (hf : ∀ r < 256, (s.core c).wmFlips mc page r = 0)
    (hcrc : crc32 ((s.core c).pageBytes mc page) = ((s.core c).page mc page).crc) :
    Gives (.scrubPage c mc page) s (fun t => (t.core c).wm = (s.core c).wm ∧ (t.core c).pages = (s.core c).pages ∧
      Tab.get (fun _ => 0) (t.core c).scrubAt (pageKey mc page) = s.now) := by
  have hexec : exec (.scrubPage c mc page) s = s.inCore c (.next (s.scrubOne c mc page)) :=
    congrArg (s.inCore c) (if_pos ⟨hen, hc, hmc, hp, hg, hst⟩)
  rw [State.scrubOne_clean hst hf hcrc, State.inCore_setCore] at hexec
  refine ⟨_, hexec, ?_⟩
  simp only [State.core_setCore, if_true]
  exact CoreState.scrubbed_kept s.now mc page (s.core c)

/-! ## The age of the oldest scrub -/

theorem scrubAgeExceeded_records {s : State} {c : Nat} (hl : (s.core c).loadedPages ≠ []) (ha : (s.core c).agedSweep = false) :
    Gives (.scrubAgeExceeded c) s (fun t => (t.core c).agedSweep = true ∧
      t.now = max s.now ((s.core c).oldestScrub s.now + tenMs + 1200) ∧
      (t.core c).wm = (s.core c).wm ∧ (t.core c).pages = (s.core c).pages) := by
  have hnot : ¬ ((s.core c).loadedPages.isEmpty = true ∨ (s.core c).agedSweep = true) := by simp [hl, ha]
  have hexec : exec (.scrubAgeExceeded c) s = _ := congrArg s.inCores (if_neg hnot)
  refine .ofCores hexec fun t hcores hnow _ _ => ?_
  rw [(OnlyLogged.logEvent _ _ _ _ _).now, State.setCore_now] at hnow
  have hcore := hcores c
  rw [(OnlyLogged.logEvent _ _ _ _ _).core, State.core_setCore, if_pos rfl] at hcore
  rw [hcore]
  exact ⟨rfl, hnow, rfl, rfl⟩

/-! ## Spills and acknowledgements -/

theorem hacSpill_sends {s u : State} {c : Nat} {w : HacRow} {ws : List HacRow} (hk : (s.core c).spills = w :: ws)
    (hu : (s.modCore c (fun k => { k with spills := ws })).hacSend c w = (stOk, u)) :
    Gives (.hacSpill c) s (fun t => t.core c = u.core c ∧ t.atoms = u.atoms) := by
  have hexec : exec (.hacSpill c) s = s.inCores (.next u) := by
    show execHacSpill c s = _
    simp only [execHacSpill, hk, hu, State.faultIf, if_true]
  exact .ofCores hexec fun _ hcores _ hatoms _ => ⟨hcores c, hatoms⟩

/-- A core with one write less that awaits its acknowledgement. -/
def CoreState.acked (k : CoreState) (i : Nat) : CoreState := { k with outst := k.outst.eraseIdx i }

/-- The write that a response has come for stops counting. -/
theorem writeAck_responded {s : State} {c i : Nat} {o : Outstanding} {r : AtomResp} (ho : (s.core c).outst[i]? = some o)
    (hd : o.done = false) (hr : s.atomResps.find? (fun r => r.src == .core c o.id) = some r) (hst : r.status = stOk) :
    Gives (.writeAck c i) s (fun t => (t.core c).outst = (s.core c).outst.eraseIdx i ∧ t.atomResps = s.atomResps.erase r ∧
      (t.core c).fault = (s.core c).fault) := by
  have hexec : exec (.writeAck c i) s = s.inCores (.next
      { s.setCore c ((s.core c).acked i) with atomResps := s.atomResps.erase r }) := by
    show execWriteAck c i s = _
    simp only [execWriteAck, ho, hd, hr, hst, Bool.false_eq_true, if_false, if_true]
    rfl
  refine .ofCores hexec fun t hcores _ _ hresps => ?_
  have hcore : t.core c = (s.core c).acked i := (hcores c).trans ((State.core_setCore _ _ _ _).trans (if_pos rfl))
  rw [hcore]
  exact ⟨rfl, hresps, rfl⟩

/-- A write that is acknowledged already stops counting. -/
theorem writeAck_done {s : State} {c i : Nat} {o : Outstanding} (ho : (s.core c).outst[i]? = some o) (hd : o.done = true) :
    Gives (.writeAck c i) s (fun t => (t.core c).outst = (s.core c).outst.eraseIdx i ∧ t.atomResps = s.atomResps) := by
  have hexec : exec (.writeAck c i) s = s.inCores (.next (s.setCore c ((s.core c).acked i))) := by
    show execWriteAck c i s = _
    simp only [execWriteAck, ho, hd, if_true]
    rfl
  refine .ofCores hexec fun t hcores _ _ hresps => ?_
  have hcore : t.core c = (s.core c).acked i := (hcores c).trans ((State.core_setCore _ _ _ _).trans (if_pos rfl))
  rw [hcore]
  exact ⟨rfl, hresps⟩

/-- Settles O18: each clause by the lemma of its command. -/
theorem scrubSpillAndAcknowledge : Obligations.ScrubSpillAndAcknowledge := fun _ _ =>
  ⟨fun _ _ => scrubPage_clean, scrubAgeExceeded_records, fun _ _ _ => hacSpill_sends, fun _ _ _ => writeAck_responded,
    fun _ _ => writeAck_done⟩

end Sys2Proof.Machine
end

section
/-!
Writes of the control registers of a core, the power requests of bank groups among them: the proof of O24 (R73, R109, R144, R169,
R195, R199).
-/

namespace Sys2Proof.Machine

/-! ## Fields of a core's registers -/

theorem CoreState.reg_setFld (k : CoreState) (c a b hi lo v : Nat) :
    (k.setFld c a hi lo v).reg c b = if b = a then setField (k.reg c a) hi lo v else k.reg c b := CoreState.reg_setReg _ _ _ _ _

theorem CoreState.reg_setFld_other (k : CoreState) {c a b : Nat} (hi lo v : Nat) (h : b ≠ a) :
    (k.setFld c a hi lo v).reg c b = k.reg c b := by
  rw [CoreState.reg_setFld, if_neg h]

theorem CoreState.fld_setFld_same (k : CoreState) (c a : Nat) {hi lo : Nat} (v : Nat) (h : lo ≤ hi) (hh : hi < 32) :
    (k.setFld c a hi lo v).fld c a hi lo = v % 2 ^ (hi + 1 - lo) := by
  rw [CoreState.fld, CoreState.reg_setFld, if_pos rfl, regField_setField_same _ v h hh]

theorem CoreState.fld_setFld_other (k : CoreState) (c : Nat) {a b hi lo hi' lo' : Nat} (v : Nat) (h : lo ≤ hi) (hh : hi < 32)
    (hd : b ≠ a ∨ hi' < lo ∨ hi < lo') : (k.setFld c a hi lo v).fld c b hi' lo' = k.fld c b hi' lo' := by
  rw [CoreState.fld, CoreState.fld, CoreState.reg_setFld]
  split
  · next he => subst he; rw [regField_setField_other _ v h hh (by simpa using hd)]
  · rfl

theorem CoreState.fld_of_reg {k k' : CoreState} {c a : Nat} (h : k'.reg c a = k.reg c a) (hi lo : Nat) :
    k'.fld c a hi lo = k.fld c a hi lo := by
  rw [CoreState.fld, CoreState.fld, h]

/-! ## Registers with one effect -/

theorem coreArrScrubCtrlWrite_sets {s : State} {a : Agent} {c : Nat} {v u : W32} (h : Writes s a (coreAddr c CORE_ARR_SCRUB_CTRL) v u) :
    exec (.coreArrScrubCtrlWrite a c v) s = .next (s.setCore c ((s.core c).setReg c CORE_ARR_SCRUB_CTRL u)) :=
  (congrArg (fun t => s.inCore c (.next t)) (State.regWrite_of_writes _ h)).trans (State.inCore_setCore _ _ _)

theorem coreAccDbgCtrlWrite_eq {s : State} {a : Agent} {c : Nat} {v u : W32} (h : Writes s a (coreAddr c CORE_ACC_DBG_CTRL) v u) :
    exec (.coreAccDbgCtrlWrite a c v) s = s.inCore c (.next (if (s.core c).seq = .debug then s.setCreg c CORE_ACC_DBG_CTRL u
      else s.violation 15 (logSource 0 c))) :=
  congrArg (fun t => s.inCore c (.next t)) (State.regWrite_of_writes _ h)

theorem coreAccDbgCtrlWrite_sets {s : State} {a : Agent} {c : Nat} {v u : W32} (h : Writes s a (coreAddr c CORE_ACC_DBG_CTRL) v u)
    (hd : (s.core c).seq = .debug) :
    exec (.coreAccDbgCtrlWrite a c v) s = .next (s.setCore c ((s.core c).setReg c CORE_ACC_DBG_CTRL u)) := by
  rw [coreAccDbgCtrlWrite_eq h, if_pos hd]
  exact State.inCore_setCore _ _ _

/-- Outside DEBUG the write is a denied debug access (R109, R419). -/
theorem coreAccDbgCtrlWrite_denied {s : State} {a : Agent} {c : Nat} {v u : W32} (h : Writes s a (coreAddr c CORE_ACC_DBG_CTRL) v u)
    (hd : (s.core c).seq ≠ .debug) :
    Gives (.coreAccDbgCtrlWrite a c v) s (fun t => t.core c = s.core c ∧ Counted s t 15) := by
  have hexec := coreAccDbgCtrlWrite_eq h
  rw [if_neg hd] at hexec
  refine .ofCore hexec fun t hcore hreg _ => ⟨hcore.trans ((OnlyLogged.violation _ _ _).core c), ?_⟩
  simp only [Counted, State.pair, hreg]
  exact State.violation_counted s (logSource 0 c) (by decide)

theorem coreSpmArriveWrite_sets {s : State} {a : Agent} {c i : Nat} {v u : W32} (hi : i < 64)
    (h : Writes s a (coreAddr c (CORE_SPM_ARRIVE i)) v u) :
    Gives (.coreSpmArriveWrite a c i v false) s (fun t => (t.core c).reg c (CORE_SPM_ARRIVE i) = u) := by
  have hexec : exec (.coreSpmArriveWrite a c i v false) s = s.inCore c (.next _) :=
    congrArg (s.inCore c) ((if_pos hi).trans (congrArg Host.Outcome.next (State.regWrite_of_writes _ h)))
  refine .ofCore hexec fun t hcore _ _ => ?_
  simp only [hcore, if_true, Bool.false_eq_true, if_false, State.setCreg, State.core_modCore]
  exact (CoreState.reg_setReg (s.core c) c _ _ u).trans (if_pos rfl)

/-- The clip limit clears the open window (R144). -/
theorem coreRqLimitWrite_sets {s : State} {a : Agent} {c : Nat} {v u : W32} (h : Writes s a (coreAddr c CORE_RQ_LIMIT) v u) :
    exec (.coreRqLimitWrite a c v) s = .next (s.setCore c (((s.core c).setReg c CORE_RQ_LIMIT u).setReg c CORE_RQ_WIN 0)) := by
  refine (congrArg (fun t => s.inCore c (.next t)) (State.regWrite_of_writes _ h)).trans ?_
  simp only [State.setCreg, State.modCore, State.core_setCore, if_true, State.setCore_setCore]
  exact State.inCore_setCore _ _ _

/-! ## CORE_SP_HAC_CFG (R169) -/

/-- The HAC with a configuration: no way is valid, and the last write was taken. -/
def CoreState.hacConfigured (c : Nat) (k : CoreState) (u : W32) : CoreState :=
  { (k.setReg c CORE_SP_HAC_CFG u).setFld c CORE_SP_HAC_STAT 30 30 0 with ways := [], lru := [], tagErr := [] }

theorem coreSpHacCfgWrite_eq {s : State} {a : Agent} {c : Nat} {v u : W32} (h : Writes s a (coreAddr c CORE_SP_HAC_CFG) v u) :
    exec (.coreSpHacCfgWrite a c v) s = s.inCore c (.next (s.modCore c (fun k =>
      if k.validWays.isEmpty then k.hacConfigured c u else k.setFld c CORE_SP_HAC_STAT 30 30 1))) :=
  congrArg (fun t => s.inCore c (.next t)) (State.regWrite_of_writes _ h)

theorem CoreState.hacConfigured_regs (c : Nat) (k : CoreState) (u : W32) :
    (k.hacConfigured c u).reg c CORE_SP_HAC_CFG = u ∧ (k.hacConfigured c u).fld c CORE_SP_HAC_STAT 30 30 = 0 := by
  have hregs : (k.hacConfigured c u).regs = ((k.setReg c CORE_SP_HAC_CFG u).setFld c CORE_SP_HAC_STAT 30 30 0).regs := rfl
  have hreg (off : Nat) : (k.hacConfigured c u).reg c off =
      ((k.setReg c CORE_SP_HAC_CFG u).setFld c CORE_SP_HAC_STAT 30 30 0).reg c off := by
    rw [CoreState.reg, CoreState.reg, hregs]
  refine ⟨?_, ?_⟩
  · rw [hreg, CoreState.reg_setFld_other _ _ _ _ (by decide), CoreState.reg_setReg, if_pos rfl]
  · rw [CoreState.fld_of_reg (hreg CORE_SP_HAC_STAT), CoreState.fld_setFld_same _ _ _ _ (by decide) (by decide),
      Nat.zero_mod]

theorem coreSpHacCfgWrite_empty {s : State} {a : Agent} {c : Nat} {v u : W32} (h : Writes s a (coreAddr c CORE_SP_HAC_CFG) v u)
    (hw : (s.core c).validWays = []) :
    Gives (.coreSpHacCfgWrite a c v) s (fun t => (t.core c).reg c CORE_SP_HAC_CFG = u ∧ (t.core c).ways = [] ∧
      regField ((t.core c).reg c CORE_SP_HAC_STAT) 30 30 = 0) := by
  refine .ofCore (coreSpHacCfgWrite_eq h) fun t hcore _ _ => ?_
  rw [State.core_modCore, if_pos rfl, if_pos (by rw [hw]; rfl)] at hcore
  obtain ⟨hcfg, hstat⟩ := CoreState.hacConfigured_regs c (s.core c) u
  rw [hcore]
  exact ⟨hcfg, rfl, hstat⟩

theorem coreSpHacCfgWrite_ignored {s : State} {a : Agent} {c : Nat} {v u : W32} (h : Writes s a (coreAddr c CORE_SP_HAC_CFG) v u)
    (hw : (s.core c).validWays ≠ []) :
    Gives (.coreSpHacCfgWrite a c v) s (fun t => (t.core c).reg c CORE_SP_HAC_CFG = (s.core c).reg c CORE_SP_HAC_CFG ∧
      (t.core c).ways = (s.core c).ways ∧ regField ((t.core c).reg c CORE_SP_HAC_STAT) 30 30 = 1) := by
  refine .ofCore (coreSpHacCfgWrite_eq h) fun t hcore _ _ => ?_
  rw [State.core_modCore, if_pos rfl, if_neg (by simpa using hw)] at hcore
  rw [hcore]
  exact ⟨CoreState.reg_setFld_other _ _ _ _ (by decide), rfl,
    CoreState.fld_setFld_same _ c CORE_SP_HAC_STAT 1 (by decide) (by decide)⟩

/-! ## Power requests of bank groups (R199) -/

theorem CoreState.groupSt_setGroupSt (c : Nat) (k : CoreState) (g : Nat) {v : Nat} (h : v < 16) :
    (k.setGroupSt c g v).groupSt c g = v := by
  have hwidth : 4 * (g % 8) + 3 + 1 - 4 * (g % 8) = 4 := by omega
  rw [CoreState.groupSt, CoreState.setGroupSt, CoreState.fld_setFld_same _ _ _ _ (by omega) (by omega), hwidth]
  exact Nat.mod_eq_of_lt h

/-- What a changed request makes of the state of its group (R199). -/
theorem CoreState.requestGroup_groupSt (c : Nat) (k : CoreState) {g : Nat} (q : Nat) (hg : g < 16) :
    let t := k.requestGroup c g q
    (k.groupSt c g = 0 → q ≠ 0 → t.groupSt c g = 3) ∧ (k.groupSt c g = 1 → q = 0 → t.groupSt c g = 4) ∧
      (k.groupSt c g = 1 → q = 2 → t.groupSt c g = 2) ∧ (k.groupSt c g = 2 → q = 0 → t.groupSt c g = 4) ∧
      (k.groupSt c g = 3 → q = 0 → t.groupSt c g = 0) := by
  refine ⟨fun h hq => ?_, fun h hq => ?_, fun h hq => ?_, fun h hq => ?_, fun h hq => ?_⟩
  · simp only [CoreState.requestGroup, h, if_neg hq]
    exact CoreState.groupSt_setGroupSt c k g (by decide)
  · simp only [CoreState.requestGroup, h, if_pos hq]
    exact CoreState.groupSt_setGroupSt c k g (by decide)
  · simp only [CoreState.requestGroup, h, hq, CoreState.powerOff, if_neg (show ¬ 16 ≤ g by omega)]
    exact CoreState.groupSt_setGroupSt c k g (by decide)
  · simp only [CoreState.requestGroup, h, if_pos hq]
    exact CoreState.groupSt_setGroupSt c k g (by decide)
  · simp only [CoreState.requestGroup, h, if_pos hq]
    exact CoreState.groupSt_setGroupSt c k g (by decide)

/-- A changed request reaches the register that shows its group's state, and no other. -/
theorem CoreState.requestGroup_reg (c : Nat) (k : CoreState) (g q : Nat) {off : Nat} (h : off ≠ CORE_SPM_PWR_STAT (g / 8)) :
    (k.requestGroup c g q).reg c off = k.reg c off := by
  have hset (v : Nat) : (k.setGroupSt c g v).reg c off = k.reg c off := CoreState.reg_setFld_other _ _ _ _ h
  have hoff : (k.powerOff c g).reg c off = k.reg c off := by
    unfold CoreState.powerOff
    split <;> exact hset 2
  unfold CoreState.requestGroup
  split
  · split <;> [rfl; exact hset 3]
  · split
    · exact hset 4
    · split <;> [exact hoff; rfl]
  · split <;> [exact hset 4; rfl]
  · split <;> [exact hset 0; rfl]
  · rfl

/-- A core with the request of a group below 16 changed, before its state is. -/
def CoreState.requested (c : Nat) (k : CoreState) (g q : Nat) : CoreState :=
  k.setFld c CORE_SPM_PWR_REQ0 (2 * (g % 16) + 1) (2 * (g % 16)) q

/-- A request for ON, or of a group that is not in FINE interleave, is not refused (R199). -/
theorem CoreState.request_taken {c : Nat} {k : CoreState} {g q : Nat} (h : q = 0 ∨ k.fineGroup c g = false) :
    ¬ (q ≠ 0 ∧ k.fineGroup c g = true) := by
  rcases h with h | h <;> simp [h]

theorem State.writeGroupReq_same {s : State} {c j q : Nat} (h3 : q ≠ 3) (hf : q = 0 ∨ (s.core c).fineGroup c j = false)
    (hr : (s.core c).groupReq c j = q) : s.writeGroupReq c j q = s := by
  have hfine := CoreState.request_taken hf
  simp only [State.writeGroupReq, if_neg h3, if_neg hfine, if_pos hr]

theorem State.writeGroupReq_changes {s : State} {c g q : Nat} (hg : g < 16) (hq : q < 3) (hne : q ≠ (s.core c).groupReq c g)
    (hf : q = 0 ∨ (s.core c).fineGroup c g = false) :
    s.writeGroupReq c g q = s.setCore c (((s.core c).requested c g q).requestGroup c g q) := by
  have hfine := CoreState.request_taken hf
  simp only [State.writeGroupReq, if_neg (show q ≠ 3 by omega), if_neg hfine, if_neg (Ne.symm hne), if_pos hg]
  rfl

theorem State.writeGroupReq_refused {s : State} {c g q : Nat} (hq : q < 3) (h0 : q ≠ 0) (hf : (s.core c).fineGroup c g = true) :
    s.writeGroupReq c g q = s.setCore c ((s.core c).bump c CORE_SPM_REFUSED 1) := by
  simp only [State.writeGroupReq, if_neg (show q ≠ 3 by omega), if_pos (And.intro h0 hf)]
  rfl

/-- A fold in which one element alone changes anything. -/
theorem foldl_one {α β : Type} {f : β → α → β} {b : β} {g : α} {l : List α} (hg : g ∈ l) (hn : l.Nodup)
    (hbefore : ∀ j ∈ l, j ≠ g → f b j = b) (hafter : ∀ j ∈ l, j ≠ g → f (f b g) j = f b g) : l.foldl f b = f b g := by
  obtain ⟨l₁, l₂, rfl⟩ := List.append_of_mem hg
  have hn' : g ∉ l₁ ++ l₂ := (List.nodup_middle.mp hn).notMem
  rw [List.foldl_append, List.foldl_cons, foldl_eq_start (l := l₁), foldl_eq_start (l := l₂)]
  · exact fun j hj => hafter j (by simp [hj]) (fun e => hn' (by simp [← e, hj]))
  · exact fun j hj => hbefore j (by simp [hj]) (fun e => hn' (by simp [← e, hj]))

/-- Groups whose requests a word leaves as they are (R199). -/
def OthersKept (c : Nat) (k : CoreState) (v : W32) (g : Nat) : Prop :=
  ∀ j < 16, j ≠ g → regField v (2 * j + 1) (2 * j) = k.groupReq c j ∧
    (regField v (2 * j + 1) (2 * j) = 0 ∨ k.fineGroup c j = false) ∧ regField v (2 * j + 1) (2 * j) ≠ 3

/-- A write that asks one group for another state acts on that group alone. -/
theorem coreSpmPwrReqWrite_eq {s : State} {a : Agent} {c g : Nat} {v : W32} {k : CoreState} (hg : g < 16)
    (h : Writes s a (coreAddr c CORE_SPM_PWR_REQ0) v v) (ho : OthersKept c (s.core c) v g)
    (hw : s.writeGroupReq c g (regField v (2 * g + 1) (2 * g)) = s.setCore c k)
    (hreq : ∀ j < 16, j ≠ g → k.groupReq c j = (s.core c).groupReq c j)
    (hmode : k.reg c CORE_SPM_MODE = (s.core c).reg c CORE_SPM_MODE) :
    exec (.coreSpmPwrReqWrite a c false v) s = .next (s.setCore c k) := by
  have hexec : exec (.coreSpmPwrReqWrite a c false v) s = s.inCore c (.next
      ((List.range 16).foldl (fun t j => t.writeGroupReq c (0 + j) (regField v (2 * j + 1) (2 * j))) s)) :=
    congrArg (fun t => s.inCore c (.next t)) (State.regWrite_of_writes _ h)
  have hfine (j : Nat) : k.fineGroup c j = (s.core c).fineGroup c j := by
    simp only [CoreState.fineGroup, CoreState.grouped, CoreState.fld_of_reg hmode]
  rw [hexec, foldl_one (List.mem_range.mpr hg) List.nodup_range, Nat.zero_add, hw, State.inCore_setCore]
  · intro j hj hne
    obtain ⟨hr, hf, h3⟩ := ho j (List.mem_range.mp hj) hne
    rw [Nat.zero_add]
    exact State.writeGroupReq_same h3 hf hr.symm
  · intro j hj hne
    obtain ⟨hr, hf, h3⟩ := ho j (List.mem_range.mp hj) hne
    rw [Nat.zero_add, Nat.zero_add, hw]
    refine State.writeGroupReq_same h3 ?_ ?_
    · simpa [hfine] using hf
    · simpa [hreq j (List.mem_range.mp hj) hne] using hr.symm

theorem CoreState.requested_groupReq (c : Nat) (k : CoreState) {g q : Nat} (hg : g < 16) (hq : q < 3) :
    (k.requested c g q).groupReq c g = q := by
  have hwidth : 2 * (g % 16) + 1 + 1 - 2 * (g % 16) = 2 := by omega
  rw [CoreState.groupReq, if_pos hg, CoreState.requested, CoreState.fld_setFld_same _ _ _ _ (by omega) (by omega), hwidth]
  omega

theorem CoreState.requested_groupReq_other (c : Nat) (k : CoreState) {g j : Nat} (q : Nat) (hg : g < 16) (hj : j < 16) (hne : j ≠ g) :
    (k.requested c g q).groupReq c j = k.groupReq c j := by
  rw [CoreState.groupReq, CoreState.groupReq, if_pos hj, CoreState.requested, CoreState.fld_setFld_other _ _ _ (by omega) (by omega)]
  omega

theorem CoreState.requestGroup_groupReq (c : Nat) (k : CoreState) {g j : Nat} (q : Nat) (hj : j < 16) :
    (k.requestGroup c g q).groupReq c j = k.groupReq c j := by
  simp only [CoreState.groupReq, if_pos hj]
  exact CoreState.fld_of_reg (CoreState.requestGroup_reg c k g q (by simp only [CORE_SPM_PWR_STAT, CORE_SPM_PWR_REQ0]; omega)) _ _

theorem coreSpmPwrReqWrite_changes {s : State} {a : Agent} {c g q : Nat} {v : W32} (hg : g < 16) (hq : q < 3)
    (h : Writes s a (coreAddr c CORE_SPM_PWR_REQ0) v v) (ho : OthersKept c (s.core c) v g) (hv : regField v (2 * g + 1) (2 * g) = q)
    (hne : q ≠ (s.core c).groupReq c g) (hf : q = 0 ∨ (s.core c).fineGroup c g = false) :
    Gives (.coreSpmPwrReqWrite a c false v) s (fun t => (t.core c).groupReq c g = q ∧
      ((s.core c).groupSt c g = 0 → q ≠ 0 → (t.core c).groupSt c g = 3) ∧
      ((s.core c).groupSt c g = 1 → q = 0 → (t.core c).groupSt c g = 4) ∧
      ((s.core c).groupSt c g = 1 → q = 2 → (t.core c).groupSt c g = 2) ∧
      ((s.core c).groupSt c g = 2 → q = 0 → (t.core c).groupSt c g = 4) ∧
      ((s.core c).groupSt c g = 3 → q = 0 → (t.core c).groupSt c g = 0)) := by
  have hexec := coreSpmPwrReqWrite_eq hg h ho (by rw [hv]; exact State.writeGroupReq_changes hg hq hne hf)
    (fun j hj hjg => by rw [CoreState.requestGroup_groupReq c _ q hj, CoreState.requested_groupReq_other c _ q hg hj hjg])
    (by
      rw [CoreState.requestGroup_reg c _ g q (by simp only [CORE_SPM_PWR_STAT, CORE_SPM_MODE]; omega)]
      exact CoreState.reg_setFld_other _ _ _ _ (by decide))
  have hst : ((s.core c).requested c g q).groupSt c g = (s.core c).groupSt c g :=
    CoreState.fld_setFld_other _ _ _ (by omega) (by omega) (.inl (by simp only [CORE_SPM_PWR_STAT, CORE_SPM_PWR_REQ0]; omega))
  refine ⟨_, hexec, ?_⟩
  simp only [State.core_setCore, if_true]
  refine ⟨by rw [CoreState.requestGroup_groupReq c _ q hg, CoreState.requested_groupReq c _ hg hq], ?_⟩
  rw [← hst]
  exact CoreState.requestGroup_groupSt c _ q hg

theorem coreSpmPwrReqWrite_refused {s : State} {a : Agent} {c g q : Nat} {v : W32} (hg : g < 16) (hq : q < 3)
    (h : Writes s a (coreAddr c CORE_SPM_PWR_REQ0) v v) (ho : OthersKept c (s.core c) v g) (hv : regField v (2 * g + 1) (2 * g) = q)
    (h0 : q ≠ 0) (hf : (s.core c).fineGroup c g = true) :
    Gives (.coreSpmPwrReqWrite a c false v) s (fun t => (t.core c).groupReq c g = (s.core c).groupReq c g ∧
      (t.core c).groupSt c g = (s.core c).groupSt c g ∧
      (t.core c).reg c CORE_SPM_REFUSED = satAdd ((s.core c).reg c CORE_SPM_REFUSED) 1) := by
  have hother {off : Nat} (hoff : off ≠ CORE_SPM_REFUSED) :
      ((s.core c).bump c CORE_SPM_REFUSED 1).reg c off = (s.core c).reg c off := by
    rw [CoreState.bump, CoreState.reg_setReg, if_neg hoff]
  have hreq (j : Nat) (hj : j < 16) : ((s.core c).bump c CORE_SPM_REFUSED 1).groupReq c j = (s.core c).groupReq c j := by
    simp only [CoreState.groupReq, if_pos hj]
    exact CoreState.fld_of_reg (hother (by decide)) _ _
  have hexec := coreSpmPwrReqWrite_eq hg h ho (by rw [hv]; exact State.writeGroupReq_refused hq h0 hf)
    (fun j hj _ => hreq j hj) (hother (by decide))
  refine ⟨_, hexec, ?_⟩
  simp only [State.core_setCore, if_true]
  refine ⟨hreq g hg, CoreState.fld_of_reg (hother (by simp only [CORE_SPM_PWR_STAT, CORE_SPM_REFUSED]; omega)) _ _, ?_⟩
  rw [CoreState.bump, CoreState.reg_setReg, if_pos rfl]

/-- Settles O24: each clause by the lemma of its register. -/
theorem coreControlWrites : Obligations.CoreControlWrites := by
  refine ⟨fun s a c v u => ⟨coreArrScrubCtrlWrite_sets, fun h => ⟨coreAccDbgCtrlWrite_sets h, coreAccDbgCtrlWrite_denied h⟩,
    fun i hi => coreSpmArriveWrite_sets hi, coreRqLimitWrite_sets, fun h => ⟨coreSpHacCfgWrite_empty h, coreSpHacCfgWrite_ignored h⟩⟩, ?_⟩
  intro s a c g q v hg hq h k ho hv
  exact ⟨coreSpmPwrReqWrite_changes hg hq h ho hv, coreSpmPwrReqWrite_refused hg hq h ho hv⟩

end Sys2Proof.Machine
end

section
/-!
The loads of weights and scales, generating loads, and the landing of a page: the proof of O16 (R53, R65, R72, R114, R128, R222).
-/

namespace Sys2Proof.Machine

/-! ## The forms of LDW -/

/-- The form of an LDW word names its instruction. -/
theorem tileKind_ldw {w : W64} (h : field w 5 0 = 1) : tileKind w =
    some (if field w 7 6 = 0 then .ldwWeights else if field w 7 6 = 1 then .ldwScales else .ldwGen) := by
  simp only [tileKind, h]
  split
  · next h0 => rw [h0]; rfl
  · next h1 => rw [h1]; rfl
  · next h0 h1 => rw [if_neg h0, if_neg h1]

/-- No other opcode names a form of LDW. -/
theorem opcode_of_ldw {w : W64} {t : TileKind} (h : tileKind w = some t) (ht : t = .ldwWeights ∨ t = .ldwScales ∨ t = .ldwGen) :
    field w 5 0 = 1 := by
  simp only [tileKind] at h
  split at h
  · assumption
  all_goals
    (repeat' split at h) <;> cases h <;> simp at ht

theorem ldwWeights_form {w : W64} (h : tileKind w = some .ldwWeights) : field w 7 6 = 0 := by
  rw [tileKind_ldw (opcode_of_ldw h (by simp))] at h
  split at h
  · assumption
  · split at h <;> simp at h

theorem ldwScales_form {w : W64} (h : tileKind w = some .ldwScales) : field w 7 6 = 1 := by
  rw [tileKind_ldw (opcode_of_ldw h (by simp))] at h
  split at h
  · simp at h
  · split at h
    · assumption
    · simp at h

theorem ldwGen_form {w : W64} (h : tileKind w = some .ldwGen) (hr : tileReserved w = false) : field w 7 6 = 2 := by
  have hop := opcode_of_ldw h (by simp)
  have hlt : field w 7 6 < 2 ^ 2 := Nat.mod_lt _ (by decide)
  have h3 : field w 7 6 ≠ 3 := by
    simp only [tileReserved, hop, Bool.or_eq_false_iff, beq_eq_false_iff_ne] at hr
    obtain ⟨⟨⟨-, h3⟩, -⟩, -⟩ := hr
    exact h3
  rw [tileKind_ldw hop] at h
  split at h
  · simp at h
  · split at h
    · simp at h
    · omega

/-- Past the setting, the bound and the zero-map test. -/
theorem State.ldw_go {s : State} {c : Nat} {w : W64} {a : ArrayCfg} (f : ArrayCfg → State) (ha : (s.core c).arr = some a)
    (hb : field w 7 6 = 2 ∨ (s.core c).reg c (CORE_BOUND (field w 35 32)) ≠ 0)
    (hz : (s.core c).zbTest c a.skip w = .go) : s.ldw c w f = f a := by
  have hbound : ¬ (field w 7 6 ≠ 2 ∧ (s.core c).reg c (CORE_BOUND (field w 35 32)) = 0) := by tauto
  simp only [State.ldw, ha, if_neg hbound, hz]

/-- A bound of 0 faults the tile (R222). -/
theorem State.ldw_noBound {s : State} {c : Nat} {w : W64} {a : ArrayCfg} (f : ArrayCfg → State) (ha : (s.core c).arr = some a)
    (hform : field w 7 6 ≠ 2) (hb : (s.core c).reg c (CORE_BOUND (field w 35 32)) = 0) :
    s.ldw c w f = s.tileFault c stShapeInvalid 0 := by
  simp only [State.ldw, ha, if_pos (And.intro hform hb)]

/-! ## What a load leaves of its core -/

/-- The count of what a load received. -/
theorem State.countLoads_core (s : State) (c : Nat) (rs : List LoadRange) : (s.core c).SameWork ((s.countLoads c rs).core c) := by
  refine foldl_keeps (fun t : State => (s.core c).SameWork (t.core c)) _ ?_ rs s (.refl _)
  intro t r ht
  have hcount (off : Nat) : (s.core c).SameWork ((t.modCore c (·.bump64 c off r.n)).core c) := by
    rw [State.core_modCore, if_pos rfl]
    exact ht.trans (.regs _ _)
  unfold State.countLoad
  split
  · split
    · exact hcount _
    · exact hcount _
    · exact hcount _
    · exact ht
  · exact ht

/-- A load that queues page writes at its own core and issues. -/
def State.loaded (s : State) (c : Nat) (ws : List PageWrite) (rs : List LoadRange) (refs : List Nat) : State :=
  ((s.modCore c (fun k => k.queueWrites ws none none)).countLoads c rs).issueLoad c refs

theorem State.loaded_core {s : State} {c : Nat} (ws : List PageWrite) (rs : List LoadRange) (refs : List Nat)
    (h : (s.core c).accHeld = none) :
    let t := (s.loaded c ws rs refs).core c
    t.pc = (nextPc (s.core c).pc (s.core c).loops).1 ∧ t.wm = (s.core c).wm ∧ t.pages = (s.core c).pages ∧
      t.pageWrites = ((s.core c).queueWrites ws none none).pageWrites := by
  have hcount := State.countLoads_core (s.modCore c (fun k => k.queueWrites ws none none)) c rs
  rw [State.core_modCore, if_pos rfl] at hcount
  obtain ⟨-, hwrites, hpages, hpc, -, hwm, -⟩ := CoreState.SameWork.passed (c := c) refs (hcount.trans (k'' :=
    { ((s.modCore c (fun k => k.queueWrites ws none none)).countLoads c rs).core c with remoteIn := [], remoteRows := [] })
    ⟨rfl, rfl, rfl, rfl, rfl, rfl, rfl, rfl, rfl⟩)
  rw [State.loaded, State.issueLoad, State.modCore, State.setCore_issue refs (by exact hcount.accHeld.trans h), State.core_setCore,
    if_pos rfl]
  exact ⟨hpc, hwm, hpages, hwrites⟩

/-! ## FORM 0 -/

/-- The geometry of a load, from its fields. -/
def CoreState.ldwGeom (c : Nat) (k : CoreState) (f : LdwWord) : LdwGeom :=
  let kd := (k.reg c (CORE_BOUND f.bnd)).toNat
  let sag := agRef c k f.sag
  ⟨k.handle c f.handle, kd, sag.toNat / kd, sag.toNat % kd⟩

/-- What it reads, block by block and column by column. -/
def LdwGeom.reads (g : LdwGeom) (a : ArrayCfg) (nblk : Nat) : List LoadRange :=
  (blockCols nblk).flatMap (fun p => g.ranges a p.1 (g.n0 + p.2))

theorem State.ldwForm0_loads {s v : State} {c : Nat} {a : ArrayCfg} {f : LdwWord} {ds : List (List Byte)}
    (hv : ((s.core c).handle c f.handle).valid = true) (hf : ldwFormat a ((s.core c).handle c f.handle) = true)
    (h24 : a.s24 = true → ((s.core c).reg c (CORE_BOUND f.bnd)).toNat % 4 = 0) (hs : 0 ≤ agRef c (s.core c) f.sag)
    (hk : ((s.core c).ldwGeom c f).k0 % a.blockLen = 0) (hp : agIn (agRef c (s.core c) f.pag) 127 1 = true)
    (hfit : (agRef c (s.core c) f.pag).toNat + f.nblk * a.pages ≤ 128)
    (hread : s.gatherRanges c 0 (((s.core c).ldwGeom c f).reads a f.nblk) = .ok ds v)
    (hbad : (ldwPlan ((s.core c).ldwGeom c f) a (agRef c (s.core c) f.pag).toNat f.nblk
      (cutData ((s.core c).ldwGeom c f) a (blockCols f.nblk) ds)).bad = none) :
    s.ldwForm0 c a f [c] none false = v.loaded c (ldwPlan ((s.core c).ldwGeom c f) a (agRef c (s.core c) f.pag).toNat f.nblk
      (cutData ((s.core c).ldwGeom c f) a (blockCols f.nblk) ds)).writes (((s.core c).ldwGeom c f).reads a f.nblk) f.refs := by
  unfold State.ldwForm0
  extract_lets k h kd sag pag g bcs rs
  have hfmt : (!ldwFormat a h || (a.s24 && kd % 4 != 0)) = false := by
    cases h2 : a.s24 <;> simp [h, k, kd, hf, h24, h2]
  have hshape : (decide (sag < 0) || g.k0 % a.blockLen ≠ 0 || !agIn pag 127 1 || decide (128 < pag.toNat + f.nblk * a.pages)) = false := by
    simp [sag, pag, k, hp, hfit, hs, show g.k0 % a.blockLen = 0 from hk]
  rw [if_neg (by simp [h, k, hv]), if_neg (Bool.eq_false_iff.mp hfmt), if_neg (Bool.eq_false_iff.mp hshape),
    show s.gatherRanges c 0 rs = .ok ds v from hread]
  simp only [show (ldwPlan g a pag.toNat f.nblk (cutData g a bcs ds)).bad = none from hbad]
  rfl

theorem ldwWeights_eq {s : State} {c : Nat} {w : W64} {a : ArrayCfg} (hi : Issues s c .ldwWeights w) (ha : (s.core c).arr = some a)
    (hz : (s.core c).zbTest c a.skip w = .go) (hkd : ((s.core c).reg c (CORE_BOUND (ldwWord w).bnd)).toNat ≠ 0) :
    exec (.ldwWeights c) s = s.inCores (.next (s.ldwForm0 c a (ldwWord w) [c] none false)) := by
  refine (congrArg s.inCores (withTile_of_issues _ hi)).trans ?_
  rw [State.ldw_go _ ha (.inr fun h => hkd (congrArg BitVec.toNat h)) hz]

/-! ## FORM 1 -/

/-- The geometry of a scale load, from its fields. -/
def CoreState.scaleGeom (c : Nat) (k : CoreState) (a : ArrayCfg) (f : LdwWord) : ScaleGeom :=
  let kd := (k.reg c (CORE_BOUND f.bnd)).toNat
  let sag := agRef c k f.sag
  let ng := ceilDiv kd a.group
  ⟨k.handle c f.handle, kd, ng, sag.toNat / ng, sag.toNat % ng⟩

/-- The records that it reads, block by block and column by column. -/
def ScaleGeom.reads (g : ScaleGeom) (a : ArrayCfg) (nblk : Nat) : List LoadRange :=
  (blockCols nblk).map (fun p => ⟨g.h, g.off a p.1 (g.n0 + p.2), 4 * g.count a p.1 (g.n0 + p.2), 0⟩)

/-- A core's plan of a scale load, from its fields and the bytes read. -/
def State.scalePlan (s v : State) (c : Nat) (a : ArrayCfg) (f : LdwWord) (ds : List (List Byte)) : ScalePlan :=
  (v.core c).scalePlan ((s.core c).scaleGeom c a f) a (agRef c (s.core c) f.pag).toNat (agRef c (s.core c) f.wag).toNat f.nblk
    (((blockCols f.nblk).zip ds).map (fun e => (e.1.1, e.1.2, e.2)))

theorem State.ldwForm1_loads {s v : State} {c : Nat} {a : ArrayCfg} {f : LdwWord} {ds : List (List Byte)}
    (hv : ((s.core c).handle c f.handle).valid = true) (hl : ((s.core c).handle c f.handle).layout = 0)
    (hs : 0 ≤ agRef c (s.core c) f.sag) (hp : agIn (agRef c (s.core c) f.pag) 2047 1 = true)
    (hw : agIn (agRef c (s.core c) f.wag) 127 1 = true) (hfit : (agRef c (s.core c) f.pag).toNat + a.segs * f.nblk ≤ 2048)
    (hq : (s.core c).pageWrites = [])
    (hread : s.gatherRanges c 0 ((((s.core c).scaleGeom c a f).reads a f.nblk).map (fun r => if r.n = 0 then { r with off := 0 } else r)) =
      .ok ds v)
    (hbad : (s.scalePlan v c a f ds).bad = none) (hst : (s.scalePlan v c a f ds).status = stOk) :
    s.ldwForm1 c a f [c] none false =
      v.loaded c (mergeWrites (s.scalePlan v c a f ds).writes) (((s.core c).scaleGeom c a f).reads a f.nblk) f.refs := by
  unfold State.ldwForm1
  extract_lets k h kd sag pag wag ng g bcs rs
  have hshape : (decide (sag < 0) || !agIn pag 2047 1 || !agIn wag 127 1 || decide (2048 < pag.toNat + a.segs * f.nblk)) = false := by
    simp [sag, pag, wag, k, hp, hw, hfit, hs]
  have hidle : [c].any (fun p => !(s.core p).pageWrites.isEmpty) = false := by simp [hq]
  rw [if_neg (by simp [h, k, hv]), if_neg (by simp [h, k, hl]), if_neg (Bool.eq_false_iff.mp hshape),
    if_neg (Bool.eq_false_iff.mp hidle), show s.gatherRanges c 0 (rs.map _) = .ok ds v from hread]
  simp only [List.foldl_cons, List.foldl_nil, if_true, State.mcastAck, Bool.false_eq_true, if_false,
    show ((v.core c).scalePlan g a pag.toNat wag.toNat f.nblk ((bcs.zip ds).map (fun e => (e.1.1, e.1.2, e.2)))).bad = none from hbad,
    show ((v.core c).scalePlan g a pag.toNat wag.toNat f.nblk ((bcs.zip ds).map (fun e => (e.1.1, e.1.2, e.2)))).status = stOk from hst]
  rfl

theorem ldwScales_eq {s : State} {c : Nat} {w : W64} {a : ArrayCfg} (hi : Issues s c .ldwScales w) (ha : (s.core c).arr = some a)
    (hz : (s.core c).zbTest c a.skip w = .go) (hkd : ((s.core c).reg c (CORE_BOUND (ldwWord w).bnd)).toNat ≠ 0) :
    exec (.ldwScales c) s = s.inCores (.next (s.ldwForm1 c a (ldwWord w) [c] none false)) := by
  refine (congrArg s.inCores (withTile_of_issues _ hi)).trans ?_
  rw [State.ldw_go _ ha (.inr fun h => hkd (congrArg BitVec.toNat h)) hz]

/-! ## FORM 2 (R114) -/

/-- The page writes of a generating load, from its word, the core that it issues on and the source values. -/
def CoreState.genPages (c : Nat) (k : CoreState) (a : ArrayCfg) (w : W64) (bs : List Byte) : List PageWrite :=
  genWrites a c (agRef c k (field w 23 20)).toNat (field w 50 47) (field w 53 51) (16 * field w 59 54)
    (k.fld c (CORE_SG_STATE (field w 50 47)) 15 0) (k.fld c (CORE_SG_STATE (field w 50 47)) 31 16) bs

theorem State.ldwGen_loads {s v : State} {c : Nat} {w : W64} {a : ArrayCfg} {bs : List Byte} (hst : a.stoch = true)
    (hs : agIn (agRef c (s.core c) (field w 19 16)) (2 ^ 20 - 512 * 32 * a.wbits) 1 = true)
    (hp : agIn (agRef c (s.core c) (field w 23 20)) 127 1 = true)
    (hfit : (agRef c (s.core c) (field w 23 20)).toNat + a.chunk ≤ 128)
    (hread : s.coreRead c 1 .am (agRef c (s.core c) (field w 19 16)).toNat (512 * 32 * a.wbits) = .ok bs v) :
    s.ldwGen c w a = v.loaded c ((s.core c).genPages c a w bs) [] (ldwWord w).refs := by
  unfold State.ldwGen
  extract_lets k n sag pag
  have hshape : (!agIn sag (2 ^ 20 - n) 1 || !agIn pag 127 1 || decide (128 < pag.toNat + a.chunk)) = false := by
    rw [show agIn sag (2 ^ 20 - n) 1 = true from hs, show agIn pag 127 1 = true from hp]
    simpa using hfit
  rw [if_neg (by simp [hst]), if_neg (Bool.eq_false_iff.mp hshape), show s.coreRead c 1 .am sag.toNat n = .ok bs v from hread]
  rfl

theorem ldwGen_eq {s : State} {c : Nat} {w : W64} {a : ArrayCfg} (hi : Issues s c .ldwGen w) (ha : (s.core c).arr = some a)
    (hz : (s.core c).zbTest c a.skip w = .go) : exec (.ldwGen c) s = s.inCore c (.next (s.ldwGen c w a)) := by
  obtain ⟨-, -, -, hkind, hrsv, -, -⟩ := id hi
  refine (congrArg (s.inCore c) (withTile_of_issues _ hi)).trans ?_
  rw [State.ldw_go _ ha (.inl (ldwGen_form hkind hrsv)) hz]

/-! ## A bound of 0 -/

theorem ldw_noBound {s : State} {c : Nat} {w : W64} {kind : TileKind} {a : ArrayCfg} (hk : kind = .ldwWeights ∨ kind = .ldwScales)
    (hi : Issues s c kind w) (ha : (s.core c).arr = some a) (hkd : ((s.core c).reg c (CORE_BOUND (ldwWord w).bnd)).toNat = 0) :
    Gives (if kind = .ldwWeights then .ldwWeights c else .ldwScales c) s (fun t =>
      (t.core c).fault = some ⟨stShapeInvalid, (s.core c).pc, 0, s.now⟩ ∧ (t.core c).pageWrites = (s.core c).pageWrites) := by
  obtain ⟨hcan, hheld, -, hkind, -⟩ := id hi
  have hb : (s.core c).reg c (CORE_BOUND (field w 35 32)) = 0 := BitVec.eq_of_toNat_eq hkd
  have hform : field w 7 6 ≠ 2 := by
    rcases hk with rfl | rfl
    · rw [ldwWeights_form hkind]; decide
    · rw [ldwScales_form hkind]; decide
  have hexec : exec (if kind = .ldwWeights then .ldwWeights c else .ldwScales c) s =
      s.inCores (.next (s.tileFault c stShapeInvalid 0)) := by
    rcases hk with rfl | rfl
    all_goals exact congrArg s.inCores ((withTile_of_issues _ hi).trans (congrArg Host.Outcome.next (State.ldw_noBound _ ha hform hb)))
  obtain ⟨hcore, -⟩ := State.tileFault_core stShapeInvalid 0 hcan hheld
  refine .ofCores hexec fun t hcores _ _ _ => ?_
  rw [hcores, hcore]
  exact ⟨rfl, rfl⟩

/-! ## A page lands (R53, R72) -/

/-- What the core has received of a multicast does not matter to the page. -/
theorem CoreState.landPage_receive (k : CoreState) (kind n : Nat) (w : PageWrite) :
    (k.receive kind n).landPage w = (k.landPage w).receive kind n := by
  have hrows {α : Type} (row : α → Nat) (v : α → W32) (l : List α) (x : CoreState) :
      l.foldl (fun x r => CoreState.setWmRow x w.mc w.page (row r) (v r)) (x.receive kind n) =
        (l.foldl (fun x r => CoreState.setWmRow x w.mc w.page (row r) (v r)) x).receive kind n :=
    List.foldl_hom (CoreState.receive kind n) (fun _ _ => rfl)
  have hpage : (k.receive kind n).page w.mc w.page = k.page w.mc w.page := rfl
  simp only [CoreState.landPage, hpage, hrows (fun r => r) (fun _ => 0)]
  split <;> simp only [hrows Prod.fst Prod.snd] <;> rfl

/-- A page that has landed: LOADED, with the CRC-32 of its bytes and the tag of its write. -/
theorem CoreState.page_landPage (k : CoreState) (w : PageWrite) :
    (k.landPage w).page w.mc w.page = ⟨.loaded, crc32 ((k.landPage w).pageBytes w.mc w.page), w.tag⟩ :=
  Tab.get_set_same _ _ _ _

theorem CoreState.landPage_outst (k : CoreState) (w : PageWrite) : (k.landPage w).outst = k.outst := by
  have hrows {α : Type} (row : α → Nat) (v : α → W32) (l : List α) (x : CoreState) :
      (l.foldl (fun x r => CoreState.setWmRow x w.mc w.page (row r) (v r)) x).outst = x.outst :=
    foldl_keeps (fun y : CoreState => y.outst = x.outst) (fun y r => y.setWmRow w.mc w.page (row r) (v r)) (fun _ _ hy => hy) l x rfl
  refine (hrows Prod.fst Prod.snd w.rows _).trans ?_
  split
  · rfl
  · exact hrows (fun r => r) (fun _ => 0) _ _

/-- The core once its oldest page write has landed. -/
def CoreState.landed (now : Nat) (k : CoreState) (w : PageWrite) (ws : List PageWrite) : CoreState :=
  { k.landPage w with pageWrites := ws, scrubAt := Tab.set (fun _ => 0) k.scrubAt (pageKey w.mc w.page) now }

theorem CoreState.landed_receive (k : CoreState) (kind n now : Nat) (w : PageWrite) (ws : List PageWrite) :
    let t := (k.receive kind n).landed now w ws
    t.pageWrites = ws ∧ t.wm = (k.landPage w).wm ∧ t.pages = (k.landPage w).pages ∧ t.outst = k.outst := by
  simp only [CoreState.landed, CoreState.landPage_receive]
  exact ⟨trivial, rfl, rfl, CoreState.landPage_outst k w⟩

/-- The oldest page write, once no pass senses its page and its macro has voltage (R65). -/
theorem loadPageWrite_eq {s : State} {c : Nat} {p : PageWrite} {ws : List PageWrite} (hp : (s.core c).pageWrites = p :: ws)
    (harr : p.arr = none) (hs : (s.core c).senses p.page = false) (h1 : (s.core c).groupSt c (16 + p.mc) ≠ 1)
    (h4 : (s.core c).groupSt c (16 + p.mc) ≠ 4) :
    exec (.loadPageWrite c) s = s.inCores (.next ((s.setCore c ((if p.ack.isSome then (s.core c).receive 2 (pageKey p.mc p.page)
      else s.core c).landed s.now p ws)).ackPage p.ack)) := by
  show execLoadPageWrite c s = _
  simp only [execLoadPageWrite, hp, hs, h1, h4, harr, Bool.false_eq_true, if_false]
  rfl

theorem loadPageWrite_lands {s : State} {c : Nat} {p : PageWrite} {ws : List PageWrite} (hp : (s.core c).pageWrites = p :: ws)
    (harr : p.arr = none) (hs : (s.core c).senses p.page = false) (h1 : (s.core c).groupSt c (16 + p.mc) ≠ 1)
    (h4 : (s.core c).groupSt c (16 + p.mc) ≠ 4) (hack : p.ack = none) :
    exec (.loadPageWrite c) s = .next (s.setCore c ((s.core c).landed s.now p ws)) := by
  rw [loadPageWrite_eq hp harr hs h1 h4, hack]
  rfl

/-- A multicast load with no page write left is acknowledged (R225). -/
theorem State.ackPage_last {s : State} {d id : Nat} (h : ∀ q, (s.core q).pageWrites.all (fun x => x.ack != some (d, id)) = true) :
    s.ackPage (some (d, id)) = s.outstDone d id := by
  refine if_neg fun hany => ?_
  obtain ⟨q, -, hq⟩ := List.any_eq_true.mp hany
  obtain ⟨x, hx, hxa⟩ := List.any_eq_true.mp hq
  have hne := List.all_eq_true.mp (h q) x hx
  simp_all

theorem State.outstDone_core (s : State) (d id q : Nat) : ∃ os, (s.outstDone d id).core q = { s.core q with outst := os } ∧
    (q = d → ∀ o ∈ (s.core d).outst, o.id = id → { o with done := true } ∈ os) := by
  rw [State.outstDone, State.core_modCore]
  split
  · next hq =>
    subst hq
    exact ⟨_, rfl, fun _ o ho hid => List.mem_map.mpr ⟨o, ho, if_pos hid⟩⟩
  · next hq => exact ⟨_, rfl, fun h => absurd h hq⟩

/-- The last page write of a multicast load acknowledges it (R225). -/
theorem loadPageWrite_acknowledges {s : State} {c d id : Nat} {p : PageWrite} {ws : List PageWrite} {o : Outstanding}
    (hp : (s.core c).pageWrites = p :: ws) (harr : p.arr = none) (hs : (s.core c).senses p.page = false)
    (h1 : (s.core c).groupSt c (16 + p.mc) ≠ 1) (h4 : (s.core c).groupSt c (16 + p.mc) ≠ 4) (hack : p.ack = some (d, id))
    (ho : o ∈ (s.core d).outst) (hid : o.id = id) (hws : ws.all (fun x => x.ack != p.ack) = true)
    (hothers : ∀ q, q ≠ c → (s.core q).pageWrites.all (fun x => x.ack != p.ack) = true) :
    Gives (.loadPageWrite c) s (fun t => (t.core c).pageWrites = ws ∧ (t.core c).wm = ((s.core c).landPage p).wm ∧
      (t.core c).pages = ((s.core c).landPage p).pages ∧ { o with done := true } ∈ (t.core d).outst) := by
  have hexec := loadPageWrite_eq hp harr hs h1 h4
  rw [hack, Option.isSome_some, if_pos rfl, State.ackPage_last] at hexec
  · obtain ⟨hwrites, hwm, hpages, houtst⟩ := CoreState.landed_receive (s.core c) 2 (pageKey p.mc p.page) s.now p ws
    refine .ofCores hexec fun t hcores _ _ _ => ?_
    obtain ⟨os, hos, -⟩ := State.outstDone_core (s.setCore c (((s.core c).receive 2 (pageKey p.mc p.page)).landed s.now p ws)) d id c
    obtain ⟨os', hos', hdone⟩ := State.outstDone_core (s.setCore c (((s.core c).receive 2 (pageKey p.mc p.page)).landed s.now p ws)) d id d
    rw [hcores, hcores, hos, hos', State.core_setCore, if_pos rfl]
    refine ⟨hwrites, hwm, hpages, hdone rfl o ?_ hid⟩
    rw [State.core_setCore]
    split
    · next hd => rwa [houtst, ← hd]
    · exact ho
  · intro q
    rw [State.core_setCore]
    split
    · rw [← hack]; exact hws
    · next hq => rw [← hack]; exact hothers q hq

/-- Settles O16: each clause by the lemmas of its command. -/
theorem weightLoadsQueueAndLand : Obligations.WeightLoadsQueueAndLand := by
  intro s c w
  refine ⟨fun a ds v hi ha hz hkd hv hf h24 hs hk hp hfit hread hheld hbad => ?_,
    fun a ds v hi ha hz hkd hv hl hs hp hw hfit hq hread hheld hbad hst => ?_,
    fun a bs v hi ha hz hst hs hp hfit hread hheld => ?_,
    fun kind a => ldw_noBound,
    fun p ws hp harr hs h1 h4 => ⟨loadPageWrite_lands hp harr hs h1 h4, fun d id o => loadPageWrite_acknowledges hp harr hs h1 h4, ?_⟩⟩
  · have hexec := ldwWeights_eq hi ha hz hkd
    rw [State.ldwForm0_loads hv hf h24 hs hk hp hfit hread hbad] at hexec
    refine .ofCores hexec fun t hcores _ _ _ => ?_
    rw [hcores]
    exact State.loaded_core _ _ _ hheld
  · have hexec := ldwScales_eq hi ha hz hkd
    rw [State.ldwForm1_loads hv hl hs hp hw hfit hq hread hbad hst] at hexec
    refine .ofCores hexec fun t hcores _ _ _ => ?_
    obtain ⟨hpc, hwm, -, hwrites⟩ := State.loaded_core (s := v) (c := c) (mergeWrites (s.scalePlan v c a (ldwWord w) ds).writes)
      (((s.core c).scaleGeom c a (ldwWord w)).reads a (ldwWord w).nblk) (ldwWord w).refs hheld
    rw [hcores]
    exact ⟨hpc, hwm, hwrites⟩
  · have hexec := ldwGen_eq hi ha hz
    rw [State.ldwGen_loads hst hs hp hfit hread] at hexec
    refine .ofCore hexec fun t hcore _ _ => ?_
    obtain ⟨hpc, -, -, hwrites⟩ := State.loaded_core (s := v) (c := c) ((s.core c).genPages c a w bs) [] (ldwWord w).refs hheld
    rw [hcore]
    exact ⟨hpc, hwrites⟩
  · rw [CoreState.page_landPage]
    exact ⟨rfl, rfl, rfl⟩

end Sys2Proof.Machine
end

section
/-!
The clearing of an extent: the proof of O13 (R78, R81).
-/

namespace Sys2Proof.Machine

/-! ## Closings -/

/-- The sequencer of a core stands where it stood and holds back what it held. -/
def CoreState.SamePlace (k k' : CoreState) : Prop := k'.accHeld = k.accHeld ∧ k'.pc = k.pc ∧ k'.loops = k.loops

theorem CoreState.SamePlace.refl (k : CoreState) : k.SamePlace k := ⟨rfl, rfl, rfl⟩

theorem CoreState.SamePlace.trans {k k' k'' : CoreState} (h : k.SamePlace k') (h' : k'.SamePlace k'') : k.SamePlace k'' :=
  ⟨h'.1.trans h.1, h'.2.1.trans h.2.1, h'.2.2.trans h.2.2⟩

theorem closeEntry_samePlace (c : Nat) (k : CoreState) (p : PassRec) (col : Nat) : k.SamePlace (closeEntry c k p col).1 := by
  unfold closeEntry
  extract_lets b e err w r k' k''
  have hr : k.SamePlace r.2 :=
    foldl_keeps (fun x : AV × CoreState => k.SamePlace x.2) _
      (fun x g hx => by
        dsimp only
        exact ite_keeps (fun y => k.SamePlace y) hx (ite_keeps (fun y => k.SamePlace y) hx hx)) _ (_, k) (.refl k)
  have hk' : k.SamePlace k' := ite_keeps (fun y => k.SamePlace y) hr hr
  split
  · exact .refl k
  · exact hk'

theorem closePass_samePlace (c : Nat) (p : PassRec) (k : CoreState) : k.SamePlace (closePass c p k).1 := by
  unfold closePass
  generalize List.range 512 = cols
  split
  · refine foldl_keeps (fun x : CoreState × Bool => k.SamePlace x.1) _ ?_ cols (k, false) (.refl k)
    exact fun x col hx => hx.trans (closeEntry_samePlace c x.1 p col)
  · exact .refl k

theorem State.tileFaultAt_samePlace (s : State) (c pc st info : Nat) : (s.core c).SamePlace ((s.tileFaultAt c pc st info).core c) := by
  by_cases h : (s.core c).fault = none ∧ (s.core c).loaded = true
  · rw [(State.tileFaultAt_logged pc st info h.1 h.2).core c, State.core_setCore, if_pos rfl]
    exact .refl _
  · rw [State.tileFaultAt, if_pos (by rw [Option.isSome_iff_ne_none]; tauto)]
    exact .refl _

@[simp] theorem State.fenceRequest_core (s : State) (c cause d : Nat) : (s.fenceRequest c cause).core d = s.core d := by
  unfold State.fenceRequest
  split <;> rfl

theorem State.closeOldest_samePlace (s : State) (c : Nat) : (s.core c).SamePlace ((s.closeOldest c).core c) := by
  unfold State.closeOldest
  extract_lets k
  split
  · exact .refl _
  next p ps _ =>
  extract_lets r checks k' u
  have hu : (s.core c).SamePlace (u.core c) := by
    rw [State.core_setCore, if_pos rfl]
    exact closePass_samePlace c p k
  split
  · refine ite_keeps (fun t : State => (s.core c).SamePlace (t.core c)) ?_ hu
    rw [State.fenceRequest_core]
    refine .trans (hu.trans (k'' := (u.modCore c (·.bumpFld c CORE_ACC_ECC 31 16 1)).core c) ?_) (State.tileFaultAt_samePlace _ c _ _ _)
    rw [State.core_modCore, if_pos rfl]
    exact .refl _
  · exact .refl _

/-- The closings of ACM leave the sequencer alone. -/
theorem State.closeAll_samePlace (s : State) (c : Nat) : (s.core c).SamePlace ((s.closeAll c).core c) :=
  foldl_keeps (fun t : State => (s.core c).SamePlace (t.core c)) _ (fun t _ ht => ht.trans (t.closeOldest_samePlace c)) _ s (.refl _)

/-! ## A block cleared -/

theorem CoreState.acmWord_clearBlock (k : CoreState) (b b' : Nat) {i : Nat} (h : i < 2048) :
    (k.clearBlock b).acmWord b' i = if b' = b then 0 else k.acmWord b' i := by
  have hkey : (b' * 2048 + i) / 2048 = b' := by omega
  rw [CoreState.acmWord, CoreState.clearBlock, Tab.get_filter_key (p := fun j => decide (j / 2048 ≠ b)), hkey]
  by_cases hb : b' = b <;> simp [hb, wmDefault, CoreState.acmWord]

/-- An entry of a block is read from words of the block. -/
theorem CoreState.acmEntry_congr {k k' : CoreState} {b e : Nat} {a : Bool} (he : e < rowsPerBlock a * 512)
    (h : ∀ i < 2048, k.acmWord b i = k'.acmWord b i) : k.acmEntry a b e = k'.acmEntry a b e := by
  cases a <;> simp only [rowsPerBlock, Bool.false_eq_true, if_true, if_false] at he
  · simp [CoreState.acmEntry, h e (by omega)]
  · simp [CoreState.acmEntry, h (e / 2) (by omega)]

theorem CoreState.acmEntry_of_zero {k : CoreState} {b e : Nat} {a : Bool} (he : e < rowsPerBlock a * 512)
    (h : ∀ i < 2048, k.acmWord b i = 0) : k.acmEntry a b e = .fin 0 := by
  cases a <;> simp only [rowsPerBlock, Bool.false_eq_true, if_true, if_false] at he
  · simp [CoreState.acmEntry, h e (by omega), accValue, signed]
  · simp [CoreState.acmEntry, h (e / 2) (by omega), accValue, signed]

/-! ## The extent -/

theorem CoreState.reg_aclrBlock (c : Nat) (w : W64) (k : CoreState) (b j : Nat) :
    (aclrBlock c w k b).reg c (CORE_ACC_TAG j) = if j = b then aclrTag w else k.reg c (CORE_ACC_TAG j) := by
  have hreg : (aclrBlock c w k b).reg c (CORE_ACC_TAG j) =
    ((k.clearBlock b).setReg c (CORE_ACC_TAG b) (aclrTag w)).reg c (CORE_ACC_TAG j) := rfl
  rw [hreg, CoreState.reg_setReg]
  by_cases h : j = b
  · rw [if_pos h, if_pos (by rw [h])]
  · rw [if_neg h, if_neg (by simp only [CORE_ACC_TAG]; omega)]
    rfl

theorem CoreState.acmWord_aclrBlock (c : Nat) (w : W64) (k : CoreState) (b b' : Nat) {i : Nat} (h : i < 2048) :
    (aclrBlock c w k b).acmWord b' i = if b' = b then 0 else k.acmWord b' i :=
  k.acmWord_clearBlock b b' h

/-- What an ACLR of some blocks makes of a core: their tags and their words, nothing of the other blocks or of the sequencer. -/
theorem CoreState.aclrBlocks (c : Nat) (w : W64) (bs : List Nat) (k : CoreState) :
    k.SamePlace (bs.foldl (aclrBlock c w) k) ∧
      (∀ j, (bs.foldl (aclrBlock c w) k).reg c (CORE_ACC_TAG j) = if j ∈ bs then aclrTag w else k.reg c (CORE_ACC_TAG j)) ∧
      (∀ j, ∀ i < 2048, (bs.foldl (aclrBlock c w) k).acmWord j i = if j ∈ bs then 0 else k.acmWord j i) := by
  induction bs generalizing k with
  | nil => exact ⟨.refl k, by simp, by simp⟩
  | cons b bs ih =>
    obtain ⟨hplace, htag, hword⟩ := ih (aclrBlock c w k b)
    refine ⟨hplace, fun j => ?_, fun j i hi => ?_⟩
    · rw [List.foldl_cons, htag, CoreState.reg_aclrBlock]
      by_cases hj : j ∈ bs <;> simp [hj]
    · rw [List.foldl_cons, hword j i hi, CoreState.acmWord_aclrBlock c w k b j hi]
      by_cases hj : j ∈ bs <;> simp [hj]

theorem mem_blocksOf {b e j : Nat} : j ∈ blocksOf b e ↔ b ≤ j ∧ j ≤ b + e := by
  simp only [blocksOf, List.mem_map, List.mem_range]
  exact ⟨fun ⟨i, _, h⟩ => by omega, fun h => ⟨j - b, by omega, by omega⟩⟩

/-! ## The issue -/

theorem CoreState.acc_tag_passed (c : Nat) (k : CoreState) {b : Nat} :
    (CoreState.passed c k).reg c (CORE_ACC_TAG b) = k.reg c (CORE_ACC_TAG b) :=
  CoreState.bump64_other k c CORE_SEQ_ISSUE_LO 1 (by simp only [CORE_ACC_TAG, CORE_SEQ_ISSUE_LO]; omega)
    (by simp only [CORE_ACC_TAG, CORE_SEQ_ISSUE_LO]; omega)

theorem CoreState.acmWord_passed (c : Nat) (k : CoreState) (b i : Nat) : (CoreState.passed c k).acmWord b i = k.acmWord b i := rfl

theorem State.aclr_core {s : State} {c : Nat} (w : W64) (hf : ((s.closeAll c).core c).fault = none)
    (hheld : (s.core c).accHeld = none) :
    (s.aclr c w).core c = CoreState.passed c
      ((blocksOf (drainBlocks w).1 (drainBlocks w).2).foldl (aclrBlock c w) ((s.closeAll c).core c)) := by
  have hplace := (s.closeAll_samePlace c).trans
    (CoreState.aclrBlocks c w (blocksOf (drainBlocks w).1 (drainBlocks w).2) ((s.closeAll c).core c)).1
  rw [State.aclr, if_neg (by simp [hf]), State.core_modCore, if_pos rfl, CoreState.advance_free c (hplace.1.trans hheld)]

/-- Settles O13: the closings leave the sequencer alone, and each block cleared changes its own tag and words. -/
theorem aclrClearsItsExtent : Obligations.AclrClearsItsExtent := by
  intro s c w h hholds hpast hhac hpass hdrain hf
  obtain ⟨-, hheld, -⟩ := id h
  have hexec : exec (.aclr c) s = s.inCore c (.next (s.aclr c w)) := by
    refine congrArg (s.inCore c) ((withTile_of_issues _ h).trans ?_)
    simp [hholds, hpast, hhac, hpass, hdrain]
  obtain ⟨hplace, htag, hword⟩ :=
    CoreState.aclrBlocks c w (blocksOf (drainBlocks w).1 (drainBlocks w).2) ((s.closeAll c).core c)
  refine .ofCore hexec fun t ht _ _ => ?_
  rw [ht, State.aclr_core w hf hheld]
  obtain ⟨-, hpc, hloops⟩ := (s.closeAll_samePlace c).trans hplace
  refine ⟨by rw [← hpc, ← hloops]; rfl, fun b hl hu => ?_, fun b _ hb => ?_⟩
  · have hin : b ∈ blocksOf (drainBlocks w).1 (drainBlocks w).2 := mem_blocksOf.mpr ⟨hl, hu⟩
    exact ⟨by rw [CoreState.acc_tag_passed, htag, if_pos hin],
      fun a e he => CoreState.acmEntry_of_zero he fun i hi => by rw [CoreState.acmWord_passed, hword b i hi, if_pos hin]⟩
  · have hout : b ∉ blocksOf (drainBlocks w).1 (drainBlocks w).2 := fun hin => hb (mem_blocksOf.mp hin)
    exact ⟨by rw [CoreState.acc_tag_passed, htag, if_neg hout],
      fun a e he => CoreState.acmEntry_congr he fun i hi => by rw [CoreState.acmWord_passed, hword b i hi, if_neg hout]⟩

end Sys2Proof.Machine
end

section
/-!
SUPPORT of the proofs. Accesses of device memory that meet no uncorrectable word (R205, R319, R332).
-/

namespace Sys2Proof.Machine

/-! ## Bytes -/

theorem leBytes_length (n v : Nat) : (leBytes n v).length = n := by
  induction n generalizing v with
  | zero => rfl
  | succ n ih => rw [leBytes, List.length_cons, ih]

/-- A part of what is read. -/
theorem Mem.read_part (m : Mem) (a : Nat) {o k n : Nat} (h : o + k ≤ n) : ((Mem.read m a n).drop o).take k = Mem.read m (a + o) k := by
  induction n generalizing a o k with
  | zero => obtain ⟨rfl, rfl⟩ : o = 0 ∧ k = 0 := by omega
            rfl
  | succ n ih =>
    rw [Mem.read]
    cases o with
    | zero =>
      cases k with
      | zero => rfl
      | succ k =>
        have := ih (a + 1) (o := 0) (k := k) (by omega)
        simpa [Mem.read] using this
    | succ o => rw [List.drop_succ_cons, ih (a + 1) (by omega), Nat.add_right_comm, Nat.add_assoc]

theorem leNat_read_one (m : Mem) (a : Nat) : leNat (Mem.read m a 1) = (Mem.byte m a).toNat := rfl

/-! ## Served accesses -/

/-- The counters of corrected words and of transfers sent again. -/
def servesReg (a : Nat) : Prop := a = MEM_T1_ECC ∨ a = MEM_T1_EDC ∨ a = MEM_T2_ECC ∨ ∃ d, a = MEM_LDG_ECC d

/-- Between `s` and `t` device memory has served accesses that met no error: counters, buffered rows, transfers to send again and
bytes may differ, and no error has come. -/
structure Served (s t : State) : Prop where
  parts : ∃ r sl f le re lr d, t = { s with
    regs := r, slices := sl, edcFaults := f, ledgeErr := le, rowErr := re, ledgeRows := lr, dmem := d }
  reg : ∀ a, ¬ servesReg a → t.reg a = s.reg a
  ledgeErr : ∀ u, Tab.get noErr s.ledgeErr u = 0 → Tab.get noErr t.ledgeErr u = 0
  rowErr : ∀ u, Tab.get noErr s.rowErr u = 0 → Tab.get noErr t.rowErr u = 0
  edc : ∀ u, Tab.get (fun _ => 0) s.edcFaults u < 4 → Tab.get (fun _ => 0) t.edcFaults u < 4

theorem Served.refl (s : State) : Served s s :=
  ⟨⟨_, _, _, _, _, _, _, rfl⟩, fun _ _ => rfl, fun _ h => h, fun _ h => h, fun _ h => h⟩

theorem Served.trans {s t u : State} (h : Served s t) (k : Served t u) : Served s u := by
  obtain ⟨⟨_, _, _, _, _, _, _, rfl⟩, hreg, hl, hr, he⟩ := h
  obtain ⟨⟨_, _, _, _, _, _, _, rfl⟩, hreg', hl', hr', he'⟩ := k
  exact ⟨⟨_, _, _, _, _, _, _, rfl⟩, fun a ha => (hreg' a ha).trans (hreg a ha), fun x h => hl' x (hl x h),
    fun x h => hr' x (hr x h), fun x h => he' x (he x h)⟩

/-- Two states with the same populated sizes of the tiers have one address map. -/
theorem State.addrKind_of_regs {s t : State} (h2 : t.reg MEM_T2_STAT = s.reg MEM_T2_STAT) (h3 : t.reg MEM_T3_PAGES = s.reg MEM_T3_PAGES)
    (a : Nat) : t.addrKind a = s.addrKind a := by
  have ht2 : t.tier2Bytes = s.tier2Bytes := by unfold State.tier2Bytes State.fld; rw [h2]
  have ht3 : t.tier3Bytes = s.tier3Bytes := by unfold State.tier3Bytes State.fld; rw [h3]
  rw [State.addrKind, State.addrKind, ht2, ht3]

theorem not_servesReg_below {a : Nat} (h1 : a ≠ MEM_T1_ECC) (h2 : a ≠ MEM_T1_EDC) (h3 : a ≠ MEM_T2_ECC) (h : a < 0x720004) :
    ¬ servesReg a := by
  rintro (h' | h' | h' | ⟨d, h'⟩)
  · exact h1 h'
  · exact h2 h'
  · exact h3 h'
  · simp only [MEM_LDG_ECC] at h'; omega

theorem Served.addrKind {s t : State} (h : Served s t) (a : Nat) : t.addrKind a = s.addrKind a :=
  State.addrKind_of_regs (h.reg _ (not_servesReg_below (by decide) (by decide) (by decide) (by decide)))
    (h.reg _ (not_servesReg_below (by decide) (by decide) (by decide) (by decide))) a

/-- A clean range stays clean where the address map is the same and no error comes. -/
theorem Clean.transfer {s t : State} {a n : Nat} (h : Clean s a n) (hk : t.addrKind a = s.addrKind a)
    (hl : ∀ u, Tab.get noErr s.ledgeErr u = 0 → Tab.get noErr t.ledgeErr u = 0)
    (hr : ∀ u, Tab.get noErr s.rowErr u = 0 → Tab.get noErr t.rowErr u = 0)
    (he : ∀ u, Tab.get (fun _ => 0) s.edcFaults u < 4 → Tab.get (fun _ => 0) t.edcFaults u < 4) : Clean t a n := by
  have hus : t.eccUnits a n = s.eccUnits a n := by simp only [State.eccUnits, hk]
  have herr (u : Nat) (hu : s.unitErr a u = 0) : t.unitErr a u = 0 := by
    simp only [State.unitErr, hk] at hu ⊢
    split at hu
    · exact hl u hu
    · exact hr u hu
  obtain ⟨hunits, hlinks⟩ := h
  rw [Clean, hus, hk]
  exact ⟨fun u hu => herr u (hunits u hu), fun htier u hu => he u (hlinks htier u hu)⟩

theorem Served.clean {s t : State} (h : Served s t) {a n : Nat} (hc : Clean s a n) : Clean t a n :=
  hc.transfer (h.addrKind a) h.ledgeErr h.rowErr h.edc

theorem Served.touchRows (s : State) (a n : Nat) (w : Bool) : Served s (s.touchRows a n w) := by
  unfold State.touchRows
  extract_lets hit
  split
  · exact .refl s
  · exact ⟨⟨_, _, _, _, _, _, _, rfl⟩, fun _ _ => rfl, fun _ h => h, fun _ h => h, fun _ h => h⟩

theorem Served.bumpFld (s : State) {a : Nat} (hi lo n : Nat) (h : servesReg a) : Served s (s.bumpFld a hi lo n) :=
  ⟨⟨_, _, _, _, _, _, _, rfl⟩, fun _ hb => State.reg_setFld_other _ _ _ _ (fun hba => hb (hba ▸ h)), fun _ h => h, fun _ h => h,
    fun _ h => h⟩

theorem Served.edcLink (s : State) (a n : Nat) : Served s (s.edcLink a n).2 := by
  unfold State.edcLink
  split
  · exact .refl s
  · extract_lets us fails lost t
    have ht : Served s t := .trans (.bumpFld s _ _ _ (.inr (.inl rfl))) (.bumpFld _ _ _ _ (.inr (.inl rfl)))
    refine ht.trans ⟨⟨_, _, _, _, _, _, _, rfl⟩, fun _ _ => rfl, fun _ h => h, fun _ h => h, fun u hu => ?_⟩
    have hget := Tab.get_filter_key (fun _ => 0) s.edcFaults (fun u => decide (u ∉ us)) u
    rw [show (fun e : Nat × Nat => decide (e.1 ∉ us)) = fun e => (fun u => decide (u ∉ us)) e.1 from rfl, hget]
    split
    · exact hu
    · decide

/-- Over links on which no transfer fails four times nothing is lost. -/
theorem State.edcLink_lost {s : State} {a n : Nat} (h : Clean s a n) : (s.edcLink a n).1 = [] := by
  unfold State.edcLink
  split
  · rfl
  · next hfaults =>
    have htier : s.addrKind a = .tier1 := by by_contra hne; exact hfaults (.inr hne)
    exact List.filter_eq_nil_iff.mpr fun u hu => by simpa using h.2 htier u hu

theorem Served.eccCount (s : State) (a ce ue : Nat) : Served s (s.eccCount a ce ue) := by
  have hreg (r : Nat) (hr : s.eccReg a = some r) : servesReg r := by
    unfold State.eccReg at hr
    split at hr
    · exact .inl (Option.some.inj hr).symm
    · exact .inr (.inr (.inl (Option.some.inj hr).symm))
    · exact .inr (.inr (.inr ⟨_, (Option.some.inj hr).symm⟩))
    · exact nomatch hr
  unfold State.eccCount
  split
  · next r hr => exact .trans (.bumpFld _ _ _ _ (hreg r hr)) (.bumpFld _ _ _ _ (hreg r hr))
  · exact .refl s

theorem Tab.get_set_zero {t : Tab W64} {u v : Nat} (h : Tab.get noErr t v = 0) : Tab.get noErr (Tab.set noErr t u 0) v = 0 := by
  rw [Tab.get_set]
  split
  · rfl
  · exact h

theorem Served.setUnitErr (s : State) (a u : Nat) : Served s (s.setUnitErr a u 0) := by
  unfold State.setUnitErr
  split
  · exact ⟨⟨_, _, _, _, _, _, _, rfl⟩, fun _ _ => rfl, fun _ h => Tab.get_set_zero h, fun _ h => h, fun _ h => h⟩
  · exact ⟨⟨_, _, _, _, _, _, _, rfl⟩, fun _ _ => rfl, fun _ h => h, fun _ h => Tab.get_set_zero h, fun _ h => h⟩

theorem Served.bytes (s : State) (m : Mem) : Served s { s with dmem := m } :=
  ⟨⟨_, _, _, _, _, _, _, rfl⟩, fun _ _ => rfl, fun _ h => h, fun _ h => h, fun _ h => h⟩

theorem State.ledgeFixed_nil (s : State) (a : Nat) : s.ledgeFixed a [] = s := by
  unfold State.ledgeFixed State.noteLedge
  split <;> rfl

/-- A read of clean bytes. -/
theorem State.memRead_clean {s : State} {a n : Nat} (h : Clean s a n) :
    ∃ t, s.memRead a n = (stOk, Mem.read s.dmem a n, t) ∧ Served s t ∧ t.dmem = s.dmem := by
  have htouched := Served.touchRows s a n false
  have hlinked := htouched.trans (.edcLink _ a n)
  have hunits := (hlinked.clean h).1
  have hbad : (((s.touchRows a n false).edcLink a n).2.eccUnits a n).filter (fun u =>
      ((s.touchRows a n false).edcLink a n).2.unitErr a u != 0 && !correctable (((s.touchRows a n false).edcLink a n).2.unitErr a u)) = [] :=
    List.filter_eq_nil_iff.mpr fun u hu => by simp [hunits u hu]
  have hce : (((s.touchRows a n false).edcLink a n).2.eccUnits a n).filter (fun u =>
      correctable (((s.touchRows a n false).edcLink a n).2.unitErr a u)) = [] :=
    List.filter_eq_nil_iff.mpr fun u hu => by rw [hunits u hu]; decide
  refine ⟨((s.touchRows a n false).edcLink a n).2.eccCount a 0 0, ?_, hlinked.trans (.eccCount _ _ _ _), by simp⟩
  simp only [State.memRead, hbad, hce, State.edcLink_lost (htouched.clean h), State.ledgeFixed_nil]
  simp

/-- The bytes of a unit of ECC: a ledge word or a tier row. -/
def State.unitSize (s : State) (a : Nat) : Nat :=
  match s.addrKind a with
  | .ledge _ _ => 8
  | _ => 64

/-- The units of ECC that some bytes of one 8-byte word touch: one. -/
theorem State.eccUnits_word (s : State) {a n : Nat} (hn : 0 < n) (hw : (a + n - 1) / 8 = a / 8) :
    s.eccUnits a n = [a / s.unitSize a] := by
  have hone (u : Nat) (h : (a + n - 1) / u - a / u = 0) : (List.range ((a + n - 1) / u - a / u + 1)).map (fun i => a / u + i) = [a / u] := by
    rw [h]; simp
  have h64 := hone 64 (by omega)
  rw [State.eccUnits, if_neg (by omega)]
  cases hk : s.addrKind a <;> simp only [State.unitSize, hk]
  case ledge => exact hone 8 (by omega)
  all_goals exact h64

theorem State.unitSize_cases (s : State) (a : Nat) : s.unitSize a = 8 ∨ s.unitSize a = 64 := by
  unfold State.unitSize
  split <;> simp

/-- A write of clean bytes of one 8-byte word. -/
theorem State.memWrite_clean {s : State} {a : Nat} {data : List Byte} (h : Clean s a data.length) (hn : 0 < data.length)
    (hw : (a + data.length - 1) / 8 = a / 8) :
    ∃ t, s.memWrite a data = (stOk, t) ∧ Served s t ∧ t.dmem = Mem.write s.dmem a data := by
  have htouched := Served.touchRows s a data.length true
  have hlinked := htouched.trans (.edcLink _ a data.length)
  have hlost := State.edcLink_lost (htouched.clean h)
  have hunits := (hlinked.clean h).1
  have hone := ((s.touchRows a data.length true).edcLink a data.length).2.eccUnits_word hn hw
  generalize hv : (s.touchRows a data.length true).edcLink a data.length = v at *
  have hd : v.2.dmem = s.dmem := by rw [← hv]; simp
  obtain ⟨lost, v⟩ := v
  simp only at hlost hd hunits hone hlinked
  subst hlost
  have herr : v.unitErr a (a / v.unitSize a) = 0 := hunits _ (by rw [hone]; exact List.mem_singleton_self _)
  refine ⟨({ v with dmem := Mem.write v.dmem a data } : State).setUnitErr a (a / v.unitSize a) 0, ?_,
    hlinked.trans (.trans (.bytes v _) (.setUnitErr _ a _)), by rw [State.setUnitErr_dmem, hd]⟩
  have hlo (u : Nat) : max a (a / u * u) = a := max_eq_left (Nat.div_mul_le_self a u)
  have h8 : min (a + data.length) (a / 8 * 8 + 8) = a + data.length := by omega
  have h64 : min (a + data.length) (a / 64 * 64 + 64) = a + data.length := by omega
  simp only [State.memWrite, hv, hone, List.foldl_cons, List.foldl_nil, herr, List.not_mem_nil, if_false, ne_eq,
    not_true_eq_false, and_false, decide_false, false_and, Bool.false_eq_true]
  cases hk : v.addrKind a <;> simp [State.unitSize, hk, hlo, h8, h64]

end Sys2Proof.Machine
end

section
/-!
The atomic units: the proof of O42 (R105, R207, R255, R256, R332, R335, R336, R402).
-/

namespace Sys2Proof.Machine

/-! ## The frames -/

/-- What a command of an atomic unit makes of device memory, its answers, the buffers and the registers. -/
theorem Gives.ofUnit {i : Instr} {s u : State} {P : State → Prop}
    (h : exec i s = s.keepEdge (s.keepFabric (s.keepPower (s.keepCores (.next u)))))
    (hp : ∀ t : State, t.atoms = u.atoms → t.atomResps = u.atomResps → t.dmem = u.dmem → t.doorbells = u.doorbells →
      (∀ a, t.reg a = u.reg a) → (∀ sl, t.slice sl = u.slice sl) → P t) : Gives i s P :=
  ⟨_, h, hp _ rfl rfl rfl rfl (fun _ => rfl) (fun _ => rfl)⟩

/-- What a command of registers and queues makes of the buffers of the slices. -/
theorem Gives.ofRegs {i : Instr} {s u : State} {P : State → Prop} (h : exec i s = s.inRegs (.next u))
    (hp : ∀ t : State, t.atoms = u.atoms → t.dmem = s.dmem → t.now = u.now → (∀ sl, t.slice sl = u.slice sl) → P t) : Gives i s P :=
  ⟨_, h, hp _ rfl rfl rfl (fun _ => rfl)⟩

@[simp] theorem State.slice_setSlice (s : State) (sl : Nat) (b : List SliceRow) : (s.setSlice sl b).slice sl = b :=
  Tab.get_set_same _ _ _ _

@[simp] theorem State.setSlice_dmem (s : State) (sl : Nat) (b : List SliceRow) : (s.setSlice sl b).dmem = s.dmem := rfl
@[simp] theorem State.setSlice_atoms (s : State) (sl : Nat) (b : List SliceRow) : (s.setSlice sl b).atoms = s.atoms := rfl
@[simp] theorem State.setSlice_atomResps (s : State) (sl : Nat) (b : List SliceRow) : (s.setSlice sl b).atomResps = s.atomResps := rfl
@[simp] theorem State.setSlice_reg (s : State) (sl a : Nat) (b : List SliceRow) : (s.setSlice sl b).reg a = s.reg a := rfl

/-! ## One operation -/

theorem atomBytes_cases (op : AtomOp) (tw : Bool) : atomBytes op tw = 1 ∨ atomBytes op tw = 4 ∨ atomBytes op tw = 8 := by
  cases op <;> cases tw <;> decide

/-- An operation lies in one 8-byte word. -/
theorem atomBytes_word {a : Nat} {op : AtomOp} {tw : Bool} (h : a % atomBytes op tw = 0) :
    0 < atomBytes op tw ∧ (a + atomBytes op tw - 1) / 8 = a / 8 := by
  rcases atomBytes_cases op tw with hn | hn | hn <;> rw [hn] at h ⊢ <;> omega

/-- What an operation on clean bytes writes and what it answers. -/
def AtomReq.result (r : AtomReq) (s : State) : Nat × Nat :=
  atomApply r.op r.sw r.tw (leNat (Mem.read s.dmem r.addr (atomBytes r.op r.tw))) (r.operand % 2 ^ 64) r.compare

theorem AtomReq.result_congr (r : AtomReq) {s t : State} (h : t.dmem = s.dmem) : r.result t = r.result s := by
  rw [AtomReq.result, AtomReq.result, h]

theorem State.atomRun_clean {s : State} {r : AtomReq} {c id : Nat} (hsrc : r.src = .core c id) (hal : r.addr % atomBytes r.op r.tw = 0)
    (h : Clean s r.addr (atomBytes r.op r.tw)) :
    ∃ u, Served s u ∧ s.atomRun r = { u with atomResps := u.atomResps ++ [⟨r.src, stOk, (r.result s).2⟩] } ∧
      u.dmem = Mem.write s.dmem r.addr (leBytes (atomBytes r.op r.tw) (r.result s).1) := by
  obtain ⟨t, hread, ht, htd⟩ := State.memRead_clean h
  have hlen := leBytes_length (atomBytes r.op r.tw) (r.result s).1
  obtain ⟨hpos, hword⟩ := atomBytes_word hal
  obtain ⟨u, hwrite, hu, hud⟩ := State.memWrite_clean (s := t) (a := r.addr)
    (data := leBytes (atomBytes r.op r.tw) (r.result s).1) (by rw [hlen]; exact ht.clean h) (by rw [hlen]; exact hpos)
    (by rw [hlen]; exact hword)
  refine ⟨u, ht.trans hu, ?_, by rw [hud, htd]⟩
  simp only [State.atomRun, hread, ne_eq, not_true_eq_false, if_false]
  rw [← AtomReq.result, hwrite, State.atomAnswer]
  simp only [hsrc]

/-! ## A slice -/

/-- A row of a slice's tier is a unit of its own. -/
theorem State.sliceOf_unit {s : State} {a sl : Nat} (h : s.sliceOf a = some sl) (u : Nat) : s.unitErr a u = Tab.get noErr s.rowErr u ∧
    s.unitSize a = 64 := by
  unfold State.sliceOf at h
  unfold State.unitErr State.unitSize
  cases hk : s.addrKind a <;> simp_all

theorem State.rowBad_clean {s : State} {a n sl : Nat} (hsl : s.sliceOf a = some sl) (h : Clean s a n) (hn : 0 < n)
    (hw : (a + n - 1) / 8 = a / 8) : s.rowBad (a / 64) = false := by
  obtain ⟨hunit, hu⟩ := State.sliceOf_unit hsl (a / 64)
  have herr := h.1 (a / 64) (by rw [State.eccUnits_word s hn hw, hu]; exact List.mem_singleton_self _)
  rw [State.rowBad, ← hunit, herr]
  rfl

/-- The first request of a slice may go when its row is not being read. -/
theorem State.slice_free {s : State} {sl row : Nat} (h : ∀ y ∈ s.slice sl, y.row = row → y.filling = false) :
    (s.slice sl).any (fun x => x.row == row && x.filling) = false := by
  rw [List.any_eq_false]
  intro y hy
  by_cases hrow : y.row = row
  · simp [h y hy hrow]
  · simp [hrow]

/-- The request at the head of a slice that holds its row. -/
theorem sliceAtomicOp_held {s : State} {sl : Nat} {r : AtomReq} {rest : List AtomReq} {e : SliceRow} (hq : s.atoms = r :: rest)
    (hsl : s.sliceOf r.addr = some sl) (hfree : ∀ y ∈ s.slice sl, y.row = r.addr / 64 → y.filling = false)
    (he : (s.slice sl).find? (fun y => y.row == r.addr / 64) = some e) :
    exec (.sliceAtomicOp sl) s = s.keepEdge (s.keepFabric (s.keepPower (s.keepCores (.next
      (if s.rowBad (r.addr / 64) then s.sliceFail sl (r.addr / 64) else ({ s with atoms := rest } : State).sliceRun sl r e))))) := by
  have hrow : e.row = r.addr / 64 := by simpa using List.find?_some he
  show execSliceAtomicOp sl s = _
  simp [execSliceAtomicOp, hq, takeAtom, hsl, State.slice_free hfree, he, hrow]

/-- The request at the head of a slice that does not hold its row. -/
theorem sliceAtomicOp_absent {s : State} {sl : Nat} {r : AtomReq} {rest : List AtomReq} (hq : s.atoms = r :: rest)
    (hsl : s.sliceOf r.addr = some sl) (hmiss : ∀ y ∈ s.slice sl, y.row ≠ r.addr / 64) :
    exec (.sliceAtomicOp sl) s = s.keepEdge (s.keepFabric (s.keepPower (s.keepCores (.next (s.sliceMiss sl (r.addr / 64)))))) := by
  have hnone : (s.slice sl).find? (fun x => x.row == r.addr / 64) = none :=
    List.find?_eq_none.mpr fun y hy => by simpa using hmiss y hy
  show execSliceAtomicOp sl s = _
  simp [execSliceAtomicOp, hq, takeAtom, hsl, State.slice_free fun y hy hrow => absurd hrow (hmiss y hy), hnone]

theorem Clean.setSlice {s : State} {a n : Nat} (h : Clean s a n) (sl : Nat) (b : List SliceRow) : Clean (s.setSlice sl b) a n := h

theorem Clean.countOps {s : State} {a n : Nat} (h : Clean s a n) (v : Nat) :
    Clean (s.setPair MEM_ATOM_OPS_LO MEM_ATOM_OPS_HI v) a n :=
  h.transfer (State.addrKind_of_regs (State.reg_setPair_other _ _ (by decide) (by decide))
    (State.reg_setPair_other _ _ (by decide) (by decide)) a) (by simp [State.setPair]) (by simp [State.setPair]) (by simp [State.setPair])

/-- An operation on a clean buffered row. -/
theorem State.sliceRun_clean {s : State} {r : AtomReq} {c id : Nat} (sl : Nat) (e : SliceRow) (hsrc : r.src = .core c id)
    (hal : r.addr % atomBytes r.op r.tw = 0) (h : Clean s r.addr (atomBytes r.op r.tw)) :
    ∃ u : State, s.sliceRun sl r e = { u with atomResps := u.atomResps ++ [⟨r.src, stOk, (r.result s).2⟩] } ∧
      u.dmem = Mem.write s.dmem r.addr (leBytes (atomBytes r.op r.tw) (r.result s).1) ∧ u.atoms = s.atoms ∧
      u.atomResps = s.atomResps ∧
      u.pair MEM_ATOM_OPS_LO MEM_ATOM_OPS_HI = (s.pair MEM_ATOM_OPS_LO MEM_ATOM_OPS_HI + 1) % 2 ^ 64 := by
  unfold State.sliceRun
  extract_lets v
  have hpair : v.pair MEM_ATOM_OPS_LO MEM_ATOM_OPS_HI = (s.pair MEM_ATOM_OPS_LO MEM_ATOM_OPS_HI + 1) % 2 ^ 64 :=
    State.pair_setPair _ _ (by decide)
  have hclean : Clean v r.addr (atomBytes r.op r.tw) := h.countOps _
  have hdmem : (v.setSlice sl (useRow (v.slice sl) { e with written := true, last := v.now })).dmem = s.dmem := by
    simp [v, State.setPair]
  obtain ⟨u, hu, hrun, hud⟩ := State.atomRun_clean hsrc hal (hclean.setSlice sl (useRow (v.slice sl) { e with written := true, last := v.now }))
  rw [r.result_congr hdmem] at hrun hud
  rw [hdmem] at hud
  have hreg (a : Nat) (ha : ¬ servesReg a) : u.reg a = v.reg a := (hu.reg a ha).trans (State.setSlice_reg _ _ _ _)
  obtain ⟨⟨_, _, _, _, _, _, _, hparts⟩, -⟩ := hu
  refine ⟨u, hrun, hud, by simp [hparts, v, State.setPair], by simp [hparts, v, State.setPair], ?_⟩
  rw [← hpair]
  simp only [State.pair]
  rw [hreg _ (not_servesReg_below (by decide) (by decide) (by decide) (by decide)),
    hreg _ (not_servesReg_below (by decide) (by decide) (by decide) (by decide))]

theorem sliceAtomicOp_applies {s : State} {r : AtomReq} {rest : List AtomReq} {c id sl : Nat} {e : SliceRow} (hq : s.atoms = r :: rest)
    (hsrc : r.src = .core c id) (hsl : s.sliceOf r.addr = some sl) (hal : r.addr % atomBytes r.op r.tw = 0)
    (he : (s.slice sl).find? (fun y => y.row == r.addr / 64) = some e)
    (hfree : ∀ y ∈ s.slice sl, y.row = r.addr / 64 → y.filling = false) (hc : Clean s r.addr (atomBytes r.op r.tw)) :
    Gives (.sliceAtomicOp sl) s (fun t => (t.atoms = rest ∧ t.atomResps = s.atomResps ++ [⟨r.src, stOk, (r.result s).2⟩] ∧
      t.dmem = Mem.write s.dmem r.addr (leBytes (atomBytes r.op r.tw) (r.result s).1)) ∧
      t.pair MEM_ATOM_OPS_LO MEM_ATOM_OPS_HI = (s.pair MEM_ATOM_OPS_LO MEM_ATOM_OPS_HI + 1) % 2 ^ 64) := by
  obtain ⟨hpos, hword⟩ := atomBytes_word hal
  obtain ⟨u, hrun, hud, huatoms, huresps, hupair⟩ := State.sliceRun_clean (s := { s with atoms := rest }) sl e hsrc hal hc
  refine .ofUnit (sliceAtomicOp_held hq hsl hfree he) ?_
  rw [if_neg (by simp [State.rowBad_clean hsl hc hpos hword]), hrun]
  refine fun t hatoms hresps hdmem _ hreg _ => ⟨⟨hatoms.trans huatoms, hresps.trans (by rw [huresps]; rfl), hdmem.trans hud⟩, ?_⟩
  simp only [State.pair, hreg]
  exact hupair

theorem sliceAtomicOp_misses {s : State} {r : AtomReq} {rest : List AtomReq} {sl : Nat} (hq : s.atoms = r :: rest)
    (hsl : s.sliceOf r.addr = some sl) (hmiss : ∀ y ∈ s.slice sl, y.row ≠ r.addr / 64) (hlen : (s.slice sl).length < 64) :
    Gives (.sliceAtomicOp sl) s (fun t => t.atoms = s.atoms ∧ t.dmem = s.dmem ∧
      t.slice sl = s.slice sl ++ [⟨r.addr / 64, false, true, s.now⟩] ∧ t.reg MEM_ATOM_MISS = satAdd (s.reg MEM_ATOM_MISS) 1) := by
  refine .ofUnit (sliceAtomicOp_absent hq hsl hmiss) fun t hatoms _ hdmem _ hreg hslice => ?_
  simp only [State.sliceMiss, if_pos hlen] at hatoms hdmem hreg hslice
  exact ⟨hatoms, hdmem, (hslice sl).trans (State.slice_setSlice _ _ _),
    (hreg _).trans ((State.reg_setReg _ _ _ _).trans (if_pos rfl))⟩

theorem sliceRowFill_ends {s : State} {sl : Nat} {e : SliceRow} (he : (s.slice sl).find? (·.filling) = some e)
    (hc : Clean s (64 * e.row) 64) :
    Gives (.sliceRowFill sl) s (fun t => t.atoms = s.atoms ∧ (∀ y ∈ t.slice sl, y.row = e.row → y.filling = false)) := by
  obtain ⟨v, hread, hv, -⟩ := State.memRead_clean hc
  obtain ⟨⟨_, _, _, _, _, _, _, hparts⟩, -⟩ := hv
  have hexec : exec (.sliceRowFill sl) s = s.inRegs (.next (v.setSlice sl ((v.slice sl).map (fun x =>
      if x.row = e.row then { x with filling := false } else x)))) := by
    show execSliceRowFill sl s = _
    simp only [execSliceRowFill, he, hread, if_true]
  refine .ofRegs hexec fun t hatoms _ _ hslice => ⟨hatoms.trans (by rw [hparts]; rfl), fun y hy hrow => ?_⟩
  rw [hslice, State.slice_setSlice] at hy
  obtain ⟨x, -, rfl⟩ := List.mem_map.mp hy
  split
  · rfl
  · next hx => simp [hx] at hrow

theorem sliceIdleWriteback_leaves {s : State} {sl row : Nat} {e : SliceRow}
    (he : (s.slice sl).find? (fun y => y.row == row && y.written && !y.filling) = some e) :
    Gives (.sliceIdleWriteback sl row) s (fun t => t.slice sl = (s.slice sl).filter (fun y => y.row != row) ∧
      t.now = max s.now (e.last + hundredMicros) ∧ t.dmem = s.dmem) := by
  have hexec : exec (.sliceIdleWriteback sl row) s = s.inRegs (.next ((s.reach (e.last + hundredMicros)).setSlice sl
      ((s.slice sl).filter (fun y => y.row != row)))) := by
    show execSliceIdleWriteback sl row s = _
    simp only [execSliceIdleWriteback, he]
    rfl
  exact .ofRegs hexec fun t _ hdmem hnow hslice => ⟨(hslice sl).trans (State.slice_setSlice _ _ _), hnow, hdmem⟩

theorem sliceAtomicOp_fails {s : State} {r : AtomReq} {rest : List AtomReq} {c id sl : Nat} {e : SliceRow} (hq : s.atoms = r :: rest)
    (hsrc : r.src = .core c id) (hsl : s.sliceOf r.addr = some sl)
    (he : (s.slice sl).find? (fun y => y.row == r.addr / 64) = some e)
    (hfree : ∀ y ∈ s.slice sl, y.row = r.addr / 64 → y.filling = false) (hbad : s.rowBad (r.addr / 64) = true)
    (hrest : ∀ y ∈ rest, y.addr / 64 ≠ r.addr / 64) :
    Gives (.sliceAtomicOp sl) s (fun t => t.atoms = rest ∧ t.atomResps = s.atomResps ++ [⟨r.src, stUncorrectable, 0⟩] ∧
      t.dmem = s.dmem ∧ t.reg MEM_ATOM_ERR = satAdd (s.reg MEM_ATOM_ERR) 1 ∧ (∀ y ∈ t.slice sl, y.row ≠ r.addr / 64)) := by
  have hwaits : s.atoms.filter (fun x => x.addr / 64 == r.addr / 64) = [r] := by
    rw [hq, List.filter_cons_of_pos (by simp), List.filter_eq_nil_iff.mpr fun y hy => by simpa using hrest y hy]
  have hothers : s.atoms.filter (fun x => x.addr / 64 != r.addr / 64) = rest := by
    rw [hq, List.filter_cons_of_neg (by simp), List.filter_eq_self.mpr fun y hy => by simpa using hrest y hy]
  refine .ofUnit (sliceAtomicOp_held hq hsl hfree he) fun t hatoms hresps hdmem _ hreg hslice => ?_
  simp only [hbad, if_true, State.sliceFail, hwaits, hothers, List.foldl_cons, List.foldl_nil, State.atomAnswer, hsrc]
    at hatoms hresps hdmem hreg hslice
  refine ⟨hatoms, hresps.trans (by rw [hsrc]; rfl), hdmem, (hreg _).trans ?_, fun y hy => ?_⟩
  · exact (State.reg_setReg _ _ _ _).trans (if_pos rfl)
  · rw [hslice] at hy
    have hkept := (congrArg (y ∈ ·) (State.slice_setSlice { s with atoms := rest } sl _)).mp hy
    simpa using (List.mem_filter.mp hkept).2

/-! ## A ledge bank -/

theorem ledgeAtomicOp_applies {s : State} {r : AtomReq} {rest : List AtomReq} {c id die bank : Nat} (hq : s.atoms = r :: rest)
    (hsrc : r.src = .core c id) (hop : r.op ≠ .tset) (hbank : s.ledgeBank r.addr = some (die, bank))
    (hal : r.addr % atomBytes r.op r.tw = 0) (hc : Clean s r.addr (atomBytes r.op r.tw)) :
    Gives (.ledgeAtomicOp die bank) s (fun t => t.atoms = rest ∧ t.atomResps = s.atomResps ++ [⟨r.src, stOk, (r.result s).2⟩] ∧
      t.dmem = Mem.write s.dmem r.addr (leBytes (atomBytes r.op r.tw) (r.result s).1)) := by
  have hexec : exec (.ledgeAtomicOp die bank) s = s.keepEdge (s.keepFabric (s.keepPower (s.keepCores (.next
      (({ s with atoms := rest } : State).atomRun r))))) := by
    show execLedgeAtomicOp die bank s = _
    simp [execLedgeAtomicOp, hq, takeAtom, hbank, hop, State.writeOwner, hsrc]
  obtain ⟨u, hu, hrun, hud⟩ := State.atomRun_clean (s := { s with atoms := rest }) hsrc hal hc
  obtain ⟨⟨_, _, _, _, _, _, _, hparts⟩, -⟩ := hu
  refine .ofUnit hexec fun t hatoms hresps hdmem _ _ _ => ?_
  rw [hrun] at hatoms hresps hdmem
  exact ⟨hatoms.trans (by rw [hparts]), hresps.trans (by rw [hparts]; rfl), hdmem.trans hud⟩

/-! ## TSET -/

/-- Ledge memory of one device is one range (R205, R313). -/
theorem State.ledgeBank_range {s : State} {a : Nat} (h : s.ledgeBank a ≠ none) : 0x8000000000 ≤ a ∧ a < 0x8008000000 := by
  by_contra hout
  have hk (d o : Nat) : s.addrKind a ≠ .ledge d o := by
    simp only [State.addrKind, if_neg hout]
    split_ifs <;> simp
  apply h
  unfold State.ledgeBank
  split
  · next d o hd => exact absurd hd (hk d o)
  · rfl

theorem State.addrKind_ledge {s : State} {a : Nat} (h : 0x8000000000 ≤ a ∧ a < 0x8008000000) :
    s.addrKind a = .ledge ((a - 0x8000000000) / 0x4000000) (a % 0x4000000) := by
  rw [State.addrKind, if_neg (by omega), if_pos h]

/-- A word of a clean header. -/
theorem Clean.headerWord {s : State} {a : Nat} (hbank : s.ledgeBank a ≠ none) (hal : a % 64 = 0) (h : Clean s a 64) {o : Nat}
    (ho : o + 4 ≤ 64) (ho4 : o % 4 = 0) : Clean s (a + o) 4 := by
  have ha := State.ledgeBank_range hbank
  have hk := State.addrKind_ledge (s := s) ha
  have hk' := State.addrKind_ledge (s := s) (a := a + o) (by omega)
  obtain ⟨hunits, -⟩ := h
  refine ⟨fun u hu => ?_, fun ht => by rw [hk'] at ht; exact nomatch ht⟩
  rw [State.eccUnits_word s (by decide) (by omega), List.mem_singleton] at hu
  have hmem : u ∈ s.eccUnits a 64 := by
    simp only [State.eccUnits, hk, State.unitSize, hk'] at hu ⊢
    exact List.mem_map.mpr ⟨o / 8, List.mem_range.mpr (by omega), by omega⟩
  have herr := hunits u hmem
  simp only [State.unitErr, hk, hk'] at herr ⊢
  exact herr

/-- The TSET at the head of the unit that holds its bit. -/
theorem tset_eq {s : State} {r : AtomReq} {rest : List AtomReq} {die bank : Nat} (hq : s.atoms = r :: rest) (hop : r.op = .tset)
    (hbank : s.ledgeBank (s.tsetByte r) = some (die, bank)) :
    exec (.tset die bank) s = s.keepEdge (s.keepFabric (s.keepPower (s.keepCores (.next
      (({ s with atoms := rest } : State).tsetRun r))))) := by
  show execTset die bank s = _
  simp [execTset, hq, takeAtom, hop, hbank]

/-- A 4-byte word of the header of a list. -/
def AtomReq.word (r : AtomReq) (s : State) (o : Nat) : Nat := leNat (Mem.read s.dmem (r.addr + o) 4)

/-- What a TSET reads, its header and its bit's byte: both clean. -/
theorem State.tsetRun_clean {s : State} {r : AtomReq} (hh : Clean s r.addr 64) (hb : Clean s (s.tsetByte r) 1) :
    ∃ t, Served s t ∧ t.dmem = s.dmem ∧ ∃ q, s.tsetRun r =
      if r.operand < r.word s 4 ∧ ¬ (Mem.byte s.dmem (s.tsetByte r)).toNat.testBit (r.operand % 8) then
        let t := (t.memWrite (s.tsetByte r) [BitVec.ofNat 8 ((Mem.byte s.dmem (s.tsetByte r)).toNat + 2 ^ (r.operand % 8))]).2
        let t := (t.memWrite (r.addr + 8) (leBytes 4 (r.word s 8 + 1))).2
        let t := if r.word s 8 + 1 = r.word s 4 then t.ring (.list r.addr) else t
        t.atomAnswer r stOk 0
      else
        let t := (t.memWrite (r.addr + 12) (leBytes 4 (r.word s 12 + 1))).2
        (t.violation 1 (logSource 9 q)).atomAnswer r stOk 0 := by
  obtain ⟨t, hread, ht, htd⟩ := State.memRead_clean hh
  have hbyte : t.tsetByte r = s.tsetByte r := by rw [State.tsetByte, State.tsetByte, htd]
  obtain ⟨u, hread', hu, hud⟩ := State.memRead_clean (ht.clean hb)
  have hword (o : Nat) (ho : o + 4 ≤ 64) : State.tsetRun.entryNat64 (Mem.read s.dmem r.addr 64) o = r.word s o := by
    rw [State.tsetRun.entryNat64, Mem.read_part _ _ ho, AtomReq.word]
  refine ⟨u, ht.trans hu, hud.trans htd, leNat (((Mem.read s.dmem r.addr 64).drop 0x2E).take 2) % 64, ?_⟩
  simp only [State.tsetRun, hread, hbyte, hread', htd, leNat_read_one, hword 4 (by decide), hword 8 (by decide), hword 12 (by decide),
    ne_eq, not_true_eq_false, and_false, if_false]

/-- The byte of the list with the bit of the request set. -/
def AtomReq.marked (r : AtomReq) (s : State) : Byte :=
  BitVec.ofNat 8 ((Mem.byte s.dmem (s.tsetByte r)).toNat + 2 ^ (r.operand % 8))

/-- A TSET of an unset bit. -/
theorem State.tsetRun_sets {s : State} {r : AtomReq} {c id : Nat} (hsrc : r.src = .core c id) (hlist : s.ledgeBank r.addr ≠ none)
    (hal : r.addr % 64 = 0) (hh : Clean s r.addr 64) (hb : Clean s (s.tsetByte r) 1) (hin : r.operand < r.word s 4)
    (hbit : (Mem.byte s.dmem (s.tsetByte r)).toNat.testBit (r.operand % 8) = false) :
    ∃ t, Served s t ∧ t.dmem = Mem.write (Mem.write s.dmem (s.tsetByte r) [r.marked s]) (r.addr + 8) (leBytes 4 (r.word s 8 + 1)) ∧
      s.tsetRun r = { t with
        atomResps := t.atomResps ++ [⟨r.src, stOk, 0⟩],
        doorbells := t.doorbells ++ (if r.word s 8 + 1 = r.word s 4 then [.list r.addr] else []) } := by
  obtain ⟨u, hu, hud, q, hrun⟩ := State.tsetRun_clean hh hb
  obtain ⟨v, hwrite, hv, hvd⟩ := State.memWrite_clean (a := s.tsetByte r) (data := [r.marked s]) (hu.clean hb) Nat.one_pos rfl
  have huv := hu.trans hv
  have hlen := leBytes_length 4 (r.word s 8 + 1)
  obtain ⟨w, hwrite', hw, hwd⟩ := State.memWrite_clean (a := r.addr + 8) (data := leBytes 4 (r.word s 8 + 1))
    (by rw [hlen]; exact huv.clean (hh.headerWord hlist hal (by decide) rfl)) (by rw [hlen]; decide) (by rw [hlen]; omega)
  refine ⟨w, huv.trans hw, by rw [hwd, hvd, hud], ?_⟩
  rw [hrun, if_pos ⟨hin, by simp [hbit]⟩, ← AtomReq.marked, hwrite]
  simp only [hwrite', State.atomAnswer, hsrc]
  by_cases hfull : r.word s 8 + 1 = r.word s 4 <;> simp [hfull, State.ring]

/-- A TSET of a bit that is set already. -/
theorem State.tsetRun_repeats {s : State} {r : AtomReq} {c id : Nat} (hsrc : r.src = .core c id) (hlist : s.ledgeBank r.addr ≠ none)
    (hal : r.addr % 64 = 0) (hh : Clean s r.addr 64) (hb : Clean s (s.tsetByte r) 1)
    (hbit : (Mem.byte s.dmem (s.tsetByte r)).toNat.testBit (r.operand % 8) = true) :
    ∃ t q, Served s t ∧ t.dmem = Mem.write s.dmem (r.addr + 12) (leBytes 4 (r.word s 12 + 1)) ∧
      s.tsetRun r = { t.violation 1 q with atomResps := (t.violation 1 q).atomResps ++ [⟨r.src, stOk, 0⟩] } := by
  obtain ⟨u, hu, hud, q, hrun⟩ := State.tsetRun_clean hh hb
  have hlen := leBytes_length 4 (r.word s 12 + 1)
  obtain ⟨v, hwrite, hv, hvd⟩ := State.memWrite_clean (a := r.addr + 12) (data := leBytes 4 (r.word s 12 + 1))
    (by rw [hlen]; exact hu.clean (hh.headerWord hlist hal (by decide) rfl)) (by rw [hlen]; decide) (by rw [hlen]; omega)
  refine ⟨v, logSource 9 q, hu.trans hv, by rw [hvd, hud], ?_⟩
  rw [hrun, if_neg (by simp [hbit]), hwrite]
  simp only [State.atomAnswer, hsrc]

theorem tset_sets {s : State} {r : AtomReq} {rest : List AtomReq} {c id die bank : Nat} (hq : s.atoms = r :: rest)
    (hsrc : r.src = .core c id) (hop : r.op = .tset) (hbank : s.ledgeBank (s.tsetByte r) = some (die, bank))
    (hlist : s.ledgeBank r.addr ≠ none) (hal : r.addr % 64 = 0) (hh : Clean s r.addr 64) (hb : Clean s (s.tsetByte r) 1)
    (hin : r.operand < r.word s 4) (hbit : (Mem.byte s.dmem (s.tsetByte r)).toNat.testBit (r.operand % 8) = false) :
    Gives (.tset die bank) s (fun t => t.atoms = rest ∧ t.atomResps = s.atomResps ++ [⟨r.src, stOk, 0⟩] ∧
      t.dmem = Mem.write (Mem.write s.dmem (s.tsetByte r) [r.marked s]) (r.addr + 8) (leBytes 4 (r.word s 8 + 1)) ∧
      t.doorbells = s.doorbells ++ (if r.word s 8 + 1 = r.word s 4 then [.list r.addr] else [])) := by
  obtain ⟨u, hu, hud, hrun⟩ := State.tsetRun_sets (s := { s with atoms := rest }) hsrc hlist hal hh hb hin hbit
  obtain ⟨⟨_, _, _, _, _, _, _, hparts⟩, -⟩ := hu
  refine .ofUnit (tset_eq hq hop hbank) fun t hatoms hresps hdmem hbells _ _ => ?_
  rw [hrun] at hatoms hresps hdmem hbells
  exact ⟨hatoms.trans (by rw [hparts]), hresps.trans (by rw [hparts]), hdmem.trans hud, hbells.trans (by rw [hparts]; rfl)⟩

/-- The violation counters are no registers that an access of device memory counts in. -/
theorem Counted.served {s t u : State} {cls : Nat} (h : Served s t) (hcls : cls < 16) (hc : Counted t u cls) : Counted s u cls := by
  have hreg (a : Nat) (ha : a = RAS_VIOL_LO cls ∨ a = RAS_VIOL_HI cls) : t.reg a = s.reg a := by
    refine h.reg a (not_servesReg_below ?_ ?_ ?_ ?_) <;>
    · simp only [RAS_VIOL_LO, RAS_VIOL_HI, MEM_T1_ECC, MEM_T1_EDC, MEM_T2_ECC] at *
      omega
  simpa only [Counted, State.pair, hreg _ (.inl rfl), hreg _ (.inr rfl)] using hc

theorem tset_repeats {s : State} {r : AtomReq} {rest : List AtomReq} {c id die bank : Nat} (hq : s.atoms = r :: rest)
    (hsrc : r.src = .core c id) (hop : r.op = .tset) (hbank : s.ledgeBank (s.tsetByte r) = some (die, bank))
    (hlist : s.ledgeBank r.addr ≠ none) (hal : r.addr % 64 = 0) (hh : Clean s r.addr 64) (hb : Clean s (s.tsetByte r) 1)
    (hbit : (Mem.byte s.dmem (s.tsetByte r)).toNat.testBit (r.operand % 8) = true) :
    Gives (.tset die bank) s (fun t => t.atoms = rest ∧ Counted s t 1 ∧ t.doorbells = s.doorbells ∧
      t.dmem = Mem.write s.dmem (r.addr + 12) (leBytes 4 (r.word s 12 + 1))) := by
  obtain ⟨u, q, hu, hud, hrun⟩ := State.tsetRun_repeats (s := { s with atoms := rest }) hsrc hlist hal hh hb hbit
  have hcounted : Counted s (u.violation 1 q) 1 :=
    Counted.served (s := { s with atoms := rest }) hu (by decide) (State.violation_counted u q (by decide))
  obtain ⟨⟨_, _, _, _, _, _, _, hparts⟩, -⟩ := hu
  obtain ⟨_, _, _, _, hlogged⟩ := OnlyLogged.violation u 1 q
  refine .ofUnit (tset_eq hq hop hbank) fun t hatoms _ hdmem hbells hreg _ => ?_
  rw [hrun] at hatoms hdmem hbells hreg
  refine ⟨hatoms.trans (by rw [hlogged, hparts]), ?_, hbells.trans (by rw [hlogged, hparts]), hdmem.trans (by rw [hlogged]; exact hud)⟩
  simp only [Counted, State.pair, hreg]
  exact hcounted

/-- Settles O42: an operation on clean bytes of one word reads, writes and answers once. -/
theorem atomicUnits : Obligations.AtomicUnits := fun _ _ _ _ _ hq hsrc =>
  ⟨fun _ hsl hal => ⟨fun _ => sliceAtomicOp_applies hq hsrc hsl hal, fun hmiss => sliceAtomicOp_misses hq hsl hmiss⟩,
    fun _ _ => sliceRowFill_ends,
    fun _ _ _ => sliceIdleWriteback_leaves,
    fun _ _ => ledgeAtomicOp_applies hq hsrc,
    fun _ _ hop hbank hlist hal hh hb => ⟨tset_sets hq hsrc hop hbank hlist hal hh hb, tset_repeats hq hsrc hop hbank hlist hal hh hb⟩,
    fun _ _ => sliceAtomicOp_fails hq hsrc⟩

end Sys2Proof.Machine
end

section
/-!
ADRAIN and AEPI at issue: the proof of O14 (R85, R88, R103, R219, R221).
-/

namespace Sys2Proof.Machine

/-- A drain with the settings in force in `k` stands last in drain order in `t`, not yet moved; its bytes are promised and the
sequencer has gone on (R85, R219). -/
def DrainEnters (c : Nat) (k : CoreState) (w : W64) (cfg : DrainCfg) (bytes : Nat) (t : CoreState) : Prop :=
  ∃ d : Drain, t.drains = k.drains ++ [d] ∧ d.word = w ∧ d.pc = k.pc ∧ d.cfg = cfg ∧ d.aepi = k.aepi ∧ d.bytes = bytes ∧
    d.moved = false ∧ d.rows = [] ∧ d.nbase = (agRef c k (field w 54 51)).toNat * 512 ∧
    d.aag = (agRef c k (field w 58 55)).toNat ∧ d.rag = (agRef c k (field w 62 59)).toNat ∧
    t.belayUsed = k.belayUsed + bytes ∧ t.pc = (nextPc k.pc k.loops).1 ∧ t.acm = k.acm

/-- A drain of which no row is finished holds all its bytes. -/
theorem CoreState.belayUsed_append {k t : CoreState} {d : Drain} (h : t.drains = k.drains ++ [d]) (hrows : d.rows = []) :
    t.belayUsed = k.belayUsed + d.bytes := by
  simp [CoreState.belayUsed, h, hrows]

theorem CoreState.passed_drains (c : Nat) (refs : List Nat) (k : CoreState) :
    (CoreState.passed c (agSteps refs k)).drains = k.drains := by
  obtain ⟨g, hg⟩ := agSteps_only refs k
  rw [hg]
  rfl

theorem State.drainStart_enters {s : State} {c : Nat} (w : W64) (cfg : DrainCfg) (bytes : Nat) (h : (s.core c).accHeld = none) :
    DrainEnters c (s.core c) w cfg bytes ((s.drainStart c w cfg bytes).core c) := by
  unfold State.drainStart
  extract_lets k d
  have hentered : CoreState.SameWork k { k with drains := k.drains ++ [d], belayHigh := max k.belayHigh (k.belayUsed + bytes) } :=
    ⟨rfl, rfl, rfl, rfl, rfl, rfl, rfl, rfl, rfl⟩
  rw [State.setCore_issue _ (hentered.accHeld.trans h), State.core_setCore, if_pos rfl]
  obtain ⟨-, -, -, hpc, hacm, -⟩ := hentered.passed (c := c) (drainRefs w)
  have hdrains := CoreState.passed_drains c (drainRefs w) { k with
    drains := k.drains ++ [d], belayHigh := max k.belayHigh (k.belayUsed + bytes) }
  exact ⟨d, hdrains, rfl, CoreState.curPc_free h, rfl, rfl, rfl, rfl, rfl, rfl, rfl, rfl,
    CoreState.belayUsed_append hdrains rfl, hpc, hacm⟩

/-- An accumulator instruction of one core that nothing holds back and whose effect is to enter a drain. -/
theorem Gives.enters {i : Instr} {s : State} {c : Nat} {kind : TileKind} {w : W64} {f : W64 → State} {cfg : DrainCfg} {bytes : Nat}
    (hexec : exec i s = s.inCore c (withAcc kind c s f)) (h : Issues s c kind w) (hholds : (s.core c).holds c w = false)
    (hf : f w = s.drainStart c w cfg bytes) : Gives i s (fun t => DrainEnters c (s.core c) w cfg bytes (t.core c)) := by
  obtain ⟨-, hheld, -⟩ := id h
  have heffect : exec i s = s.inCore c (.next (s.drainStart c w cfg bytes)) := by
    refine hexec.trans (congrArg (s.inCore c) ((withTile_of_issues _ h).trans ?_))
    simp [hholds, hf]
  refine .ofCore heffect fun t ht _ _ => ?_
  rw [ht]
  exact State.drainStart_enters w cfg bytes hheld

section
variable {s : State} {c : Nat} {w : W64} {cfg : DrainCfg}

/-- An ADRAIN of blocks past its checks. -/
theorem State.drainIssue_starts (epi raw : Bool) (hd : (s.core c).drn = some cfg) (hags : drainAgsOk c (s.core c) w false = true)
    (hpast : extentPast (drainBlocks w).1 (drainBlocks w).2 = false)
    (hhac : (s.core c).inHac c (drainBlocks w).1 (drainBlocks w).2 = false)
    (htags : (s.core c).untagged c (drainBlocks w).1 (drainBlocks w).2 = none)
    (hrows : field w 27 24 + 1 ≤ ((s.core c).drained c w).length)
    (hpass : (s.core c).passOn (drainBlocks w).1 (drainBlocks w).2 = false)
    (hdrain : (s.core c).drainOn (drainBlocks w).1 (drainBlocks w).2 = false)
    (hroom : (s.core c).belayUsed + (s.core c).drainBytes c ((s.core c).drained c w) ≤ 65536)
    (hctx : epi = true → ctxFits w = true)
    (hraw : raw = true → ((s.core c).handle c cfg.dh).valid = false ∨ ((s.core c).handle c cfg.dh).fmt = fmtAcc16 ∨
      ((s.core c).handle c cfg.dh).fmt = fmtAcc32) :
    s.drainIssue c w epi raw = s.drainStart c w cfg ((s.core c).drainBytes c ((s.core c).drained c w)) := by
  have hctx' : (epi && !ctxFits w) = false := by cases epi <;> simp [hctx]
  have hraw' : (raw && ((s.core c).handle c cfg.dh).valid && ((s.core c).handle c cfg.dh).fmt != fmtAcc16 &&
      ((s.core c).handle c cfg.dh).fmt != fmtAcc32) = false := by
    cases raw
    · rfl
    · rcases hraw rfl with h | h | h <;> simp [h]
  simp only [State.drainIssue, hd, hags, hctx', hpast, hhac, htags, hraw', hpass, hdrain, Nat.not_lt.mpr hrows, Nat.not_lt.mpr hroom]
  rfl

/-- An ADRAIN of a record list past its checks. -/
theorem adrainList_enters (h : Issues s c .adrainList w) (hholds : (s.core c).holds c w = false) (hd : (s.core c).drn = some cfg)
    (hrows : field w 27 24 = 0) (hrecords : field w 40 32 ≤ 63) (hags : drainAgsOk c (s.core c) w true = true)
    (hctx : ctxFits w = true) : Gives (.adrainList c) s (fun t => DrainEnters c (s.core c) w cfg 0 (t.core c)) := by
  refine .enters rfl h hholds ?_
  simp only [hd, hags, hctx, hrows]
  rw [if_neg (by omega)]
  rfl

end

/-- Settles O14: an ADRAIN past its checks enters its drain, and AEPI sets fields of the setting. -/
theorem drainsTakeTheirPlace : Obligations.DrainsTakeTheirPlace := by
  refine fun s c w => ⟨fun cfg i kind hi h hholds hd hags hpast hhac htags hrows hpass hdrain hroom => ?_,
    fun _ => adrainList_enters, fun h => State.tile_issues h rfl rfl, fun h => State.tile_issues h rfl rfl⟩
  have hstart (epi raw : Bool) := State.drainIssue_starts epi raw hd hags hpast hhac htags hrows hpass hdrain hroom
  rcases hi with ⟨rfl, rfl, hctx⟩ | ⟨rfl, rfl, hraw⟩ | ⟨rfl, rfl⟩
  · exact .enters rfl h hholds (hstart true false (fun _ => hctx) nofun)
  · exact .enters rfl h hholds (hstart false true nofun fun _ => hraw)
  · exact .enters rfl h hholds (hstart false false nofun nofun)

end Sys2Proof.Machine
end

section
/-!
O15: a drain of a block beyond block 31, whose row keeps what ACM held.
-/

namespace Sys2Proof.Machine

/-- An ADRAIN of blocks 31 to 50 that takes row 1 of block 50 and clears it (CLR). Only the checks at issue ask that an extent ends
at block 31; the clause asks nothing of it. -/
def strayDrain : Drain where
  pc := 0
  word := BitVec.ofNat 64 (31 * 2 ^ 6 + 19 * 2 ^ 11 + 81 * 2 ^ 16 + 2 ^ 47)
  cfg := ⟨0, false, 0, 0, 0⟩
  aepi := AepiCfg.reset
  nbase := 0
  aag := 0
  rag := 0
  bytes := 0
  moved := false
  rows := []
  list := []
  done := 0
  rq := []

/-- A core that streams unipolar numbers of 256 bits, and holds 1 in the first entry of row 1 of block 50. Where the tag of block 50 would stand
is CORE_SG_EXIT_LEN, which reads 0: an ACC32 block. -/
def strayCore : CoreState := { CoreState.reset with
  arr := some ⟨fmtScUni, 1, 0, 0, false, 1, false, false, false, 0, 8⟩
  drains := [strayDrain]
  acm := [(50 * 2048 + 512, 1#32)] }

/-- The state with that core. -/
def strayState : State := State.reset.setCore 0 strayCore

theorem strayState_core : strayState.core 0 = strayCore := rfl

theorem strayCore_tag : (CoreState.blockTag 0 strayCore 50).2.1 = false := by decide +kernel

theorem strayCore_drained : CoreState.drained 0 strayCore strayDrain.word = [(50, 1)] := by decide +kernel

/-- The row that the drain takes. -/
def strayRows : List DrainRow := (CoreState.takeRow 0 strayCore 50 1).toList

theorem strayCore_taken : (CoreState.drained 0 strayCore strayDrain.word).map (fun r => CoreState.takeRow 0 strayCore r.1 r.2) =
    strayRows.map some := by
  have hgood : (CoreState.takeRow 0 strayCore 50 1).isSome = true := by decide +kernel
  obtain ⟨row, hrow⟩ := Option.isSome_iff_exists.mp hgood
  simp [strayCore_drained, strayRows, hrow]

/-- The length that the transfer records sets bit 8 of CORE_SG_EXIT_LEN, so that the row is cleared as one of an ACC16 block, whose
words lie elsewhere. -/
theorem adrainTransfer_stray : Gives (.adrainTransfer 0) strayState (fun t => (t.core 0).acmEntry false 50 512 = .fin 1) :=
  ⟨_, rfl, by decide +kernel⟩

/-- Refutes O15: the drain of `strayState` meets the hypotheses of the clause on the transfer, and the first entry of its row is still 1
after it, because the length of the stream is recorded in the register that stands at the tag of block 50 (`CoreState.noteLength`)
before the row is cleared (`CoreState.clearRow`). -/
theorem not_drainsRunAndRowsClose : ¬ Obligations.DrainsRunAndRowsClose := by
  intro h
  obtain ⟨htransfer, -⟩ := h strayState 0
  rw [strayState_core] at htransfer
  refine adrainTransfer_stray.not_of_gives (fun t ht => ?_) (htransfer strayDrain strayRows rfl (by decide) rfl strayCore_taken)
  rintro ⟨-, -, hclear, -⟩
  have hzero := hclear (by decide) (50, 1) (by rw [strayCore_drained]; exact List.mem_singleton_self _) 0 (by decide)
  rw [strayCore_tag] at hzero
  exact absurd (ht.symm.trans hzero) (by decide)

end Sys2Proof.Machine
end

section
/-!
O17: a multicast load whose destination moves between its checks and its reads.
-/

namespace Sys2Proof.Machine

/-! ## What an access answers -/

/-- The answer of an access that succeeds. -/
def Reach.answer {α : Type} : Reach α → Option α
  | .ok a _ => some a
  | _ => none

/-- The state that an access leaves. -/
def Reach.state {α : Type} : Reach α → State
  | .ok _ s => s
  | .wait s => s
  | .fail _ s => s

theorem Reach.eq_ok {α : Type} {r : Reach α} {a : α} (h : r.answer = some a) : r = .ok a r.state := by
  cases r with
  | ok b s => rw [Option.some.inj h]; rfl
  | wait s => exact nomatch h
  | fail st s => exact nomatch h

/-! ## The state -/

/-- MCAST of kind 1 and FORM 0: handle 0, SAG 0, MAG and PAG 1, one block, bound 0. -/
def driftWord : W64 := BitVec.ofNat 64 (0x04 + 2 ^ 6 + 2 ^ 19 + 2 ^ 31 + 2 ^ 35)

/-- An empty tensor of BIN weights in ledge memory. -/
def driftHandle : Handle := ⟨0, 0, memLedge, 0, 0, true, false, false, 0, 0, fmtBin, 1, 0⟩

/-- BIN weights and activations, no grouping. -/
def driftArray : ArrayCfg := ⟨fmtBin, 1, fmtBin, 1, false, 0, false, false, false, 0, 0⟩

/-- A core with that word at its pc. Generator 0 has TSEL 499, for which the index register is CORE_SPM_ECC: its value is minus the
count of the words that have been corrected, 0 so far. The first word of AM, where the mask stands, holds a correctable error. -/
def driftCore : CoreState := { CoreState.reset with
  loaded := true
  seq := .running
  imem := [(0, driftWord)]
  ags := [(0, ⟨0, 0, 0, -1, 499, 0⟩)]
  arr := some driftArray
  rebound := [(0, driftHandle.bits128)]
  regs := [(CORE_BOUND 0, 256#32)]
  amErr := [(0, 1#64)] }

/-- The state with that core. -/
def driftState : State := State.reset.setCore 0 driftCore
theorem driftState_core : driftState.core 0 = driftCore := rfl

theorem driftState_issues : Issues driftState 0 .mcastLoad driftWord :=
  ⟨rfl, rfl, rfl, by decide +kernel, by decide +kernel, rfl, rfl⟩

/-- The state that the read of the mask leaves: the word has been corrected and counted. -/
def driftRead : State := (driftState.readMask 0 (agRef 0 driftCore (field driftWord 22 19))).state

theorem driftState_readMask : driftState.readMask 0 (agRef 0 driftCore (field driftWord 22 19)) = .ok [] driftRead :=
  Reach.eq_ok (by decide +kernel)

/-- The geometry of the load by the generators as they stand when the command begins. -/
def driftGeom : LdwGeom := CoreState.ldwGeom 0 driftCore (mcastWord driftWord)

theorem driftGeom_reads : driftGeom.reads driftArray (mcastWord driftWord).nblk = [] := by decide +kernel

/-- A load that reads nothing. -/
theorem State.gatherRanges_nil (s : State) (c : Nat) : s.gatherRanges c 0 [] = .ok [] s := by
  simp [State.gatherRanges, loadSlots, State.takeSlots]

/-- What the load plans to write: a page for each part of WM. -/
def driftPlan : LdwPlan :=
  ldwPlan driftGeom driftArray (agRef 0 driftCore (mcastWord driftWord).pag).toNat (mcastWord driftWord).nblk
    (cutData driftGeom driftArray (blockCols (mcastWord driftWord).nblk) [])

/-- The load reads SAG once its mask has come, finds it below 0 and faults. -/
theorem mcastLoad_drifts : Gives (.mcastLoad 0) driftState (fun t => (t.core 0).pc = 0) :=
  ⟨_, rfl, by decide +kernel⟩

/-- Refutes O17: `driftState` meets the hypotheses of the clause on a multicast load of FORM 0, and the load faults, because its
generators are read again after the read of the mask (`State.mcastLoad`), which has counted a corrected word in the register that
TSEL 499 selects (`agValue`; SETP writes no TSEL above 7, but the clause is about every state). -/
theorem not_movementInstructionsMove : ¬ Obligations.MovementInstructionsMove := by
  intro h
  obtain ⟨-, -, -, -, hload, -⟩ := h driftState 0 driftWord
  rw [driftState_core] at hload
  have hread : driftRead.gatherRanges 0 0 (driftGeom.reads driftArray (mcastWord driftWord).nblk) = .ok [] driftRead := by
    rw [driftGeom_reads, State.gatherRanges_nil]
  have hbad : driftPlan.bad = none := by decide +kernel
  have hwrites : driftPlan.writes ≠ [] := by decide +kernel
  refine mcastLoad_drifts.not_of_gives (fun t ht => ?_) (hload driftArray [] [] driftRead driftRead driftState_issues (by decide) rfl
    (by decide) (by decide +kernel) (by decide +kernel) (by decide +kernel) (by decide +kernel) (by decide) (by decide +kernel)
    (by decide +kernel) (by decide +kernel) (by decide +kernel) driftState_readMask hread (by decide +kernel) hbad hwrites List.nodup_nil)
  rintro ⟨hpc, -⟩
  have hnext : (nextPc (driftRead.core 0).pc (driftRead.core 0).loops).1 = 1 := by decide +kernel
  rw [ht, hnext] at hpc
  exact absurd hpc (by decide)

end Sys2Proof.Machine
end

section
/-!
SUPPORT of the proofs. Accesses of memory, registers and the fabric leave the commands, their completions and their dispatches alone.
-/

namespace Sys2Proof.Machine

/-! ## What stays -/

/-- The commands, the completions decided, the dispatches that have ended, the prediction states and the dispatches are the same. -/
structure SameCmds (s t : State) : Prop where
  cmds : t.cmds = s.cmds
  posting : t.posting = s.posting
  completes : t.completes = s.completes
  preds : t.preds = s.preds
  disp : t.disp = s.disp

theorem SameCmds.refl (s : State) : SameCmds s s := ⟨rfl, rfl, rfl, rfl, rfl⟩

theorem SameCmds.trans {s t u : State} (h : SameCmds s t) (k : SameCmds t u) : SameCmds s u :=
  ⟨k.cmds.trans h.cmds, k.posting.trans h.posting, k.completes.trans h.completes, k.preds.trans h.preds, k.disp.trans h.disp⟩

theorem SameCmds.setCore (s : State) (c : Nat) (k : CoreState) : SameCmds s (s.setCore c k) := ⟨rfl, rfl, rfl, rfl, rfl⟩

theorem SameCmds.modCore (s : State) (c : Nat) (f : CoreState → CoreState) : SameCmds s (s.modCore c f) := .setCore _ _ _

theorem SameCmds.logged {s t : State} (h : OnlyLogged s t) : SameCmds s t := by
  obtain ⟨_, _, _, _, rfl⟩ := h
  exact ⟨rfl, rfl, rfl, rfl, rfl⟩

theorem SameCmds.setFld (s : State) (a hi lo v : Nat) : SameCmds s (s.setFld a hi lo v) := .logged (.setFld _ _ _ _ _)

theorem SameCmds.bump (s : State) (a n : Nat) : SameCmds s (s.bump a n) := .logged (.setReg _ _ _)

theorem SameCmds.onlyCore {c : Nat} {s t : State} (h : OnlyCore c s t) : SameCmds s t := by
  obtain ⟨k, hk, -⟩ := h
  exact (SameCmds.setCore s c k).trans (.logged hk)

theorem SameCmds.foldl {α : Type} (f : State → α → State) (hf : ∀ s a, SameCmds s (f s a)) (l : List α) (s : State) :
    SameCmds s (l.foldl f s) :=
  foldl_related SameCmds .refl (fun _ _ _ => .trans) f hf l s

theorem SameCmds.fenceRequest (s : State) (c cause : Nat) : SameCmds s (s.fenceRequest c cause) := by
  unfold State.fenceRequest
  split <;> exact ⟨rfl, rfl, rfl, rfl, rfl⟩

theorem SameCmds.refuseAccess (s : State) (c : Nat) : SameCmds s (s.refuseAccess c) :=
  .trans (.modCore _ _ _) (.logged (.violation _ _ _))

/-! ## Scratchpads -/

/-- The same, and the doorbells of the cores as well. -/
structure SameBells (s t : State) : Prop extends SameCmds s t where
  bell : ∀ d, (t.core d).doorbell = (s.core d).doorbell

theorem SameBells.refl (s : State) : SameBells s s := ⟨.refl s, fun _ => rfl⟩

theorem SameBells.trans {s t u : State} (h : SameBells s t) (k : SameBells t u) : SameBells s u :=
  ⟨h.toSameCmds.trans k.toSameCmds, fun d => (k.bell d).trans (h.bell d)⟩

theorem SameBells.setCore {s : State} {c : Nat} {k : CoreState} (h : k.doorbell = (s.core c).doorbell) : SameBells s (s.setCore c k) := by
  refine ⟨.setCore _ _ _, fun d => ?_⟩
  rw [State.core_setCore]
  split
  · next hd => rw [h, hd]
  · rfl

theorem SameBells.logged {s t : State} (h : OnlyLogged s t) : SameBells s t := ⟨.logged h, fun d => by rw [h.core]⟩

theorem SameBells.fenceRequest (s : State) (c cause : Nat) : SameBells s (s.fenceRequest c cause) := by
  refine ⟨.fenceRequest _ _ _, fun d => ?_⟩
  unfold State.fenceRequest
  split <;> rfl

theorem SameBells.noteRowError (s : State) (c kind index : Nat) : SameBells s (s.noteRowError c kind index) := by
  unfold State.noteRowError
  extract_lets k n u thr
  have hu : SameBells s u := .setCore rfl
  split
  · exact hu
  split
  · exact (hu.trans (.setCore (by rfl))).trans (.logged (.logEvent _ _ _ _ _))
  · exact hu.trans (.logged (.logEvent _ _ _ _ _))

theorem SameBells.spmCorrected (s : State) (c : Nat) (m : SpmMem) (ws : List Nat) : SameBells s (s.spmCorrected c m ws) :=
  .trans (.setCore (by rfl)) (foldl_related SameBells .refl (fun _ _ _ => .trans) _ (fun _ _ => .noteRowError _ _ _ _) _ _)

theorem SameBells.rmwFailed (s : State) (c : Nat) (ws : List Nat) : SameBells s (s.rmwFailed c ws) :=
  .trans (.trans (.setCore (by rfl)) (.logged (.logEvent _ _ _ _ _))) (.fenceRequest _ _ _)

theorem CoreState.setSpm_doorbell (k : CoreState) (m : SpmMem) (b : Mem) (e : Tab W64) : (k.setSpm m b e).doorbell = k.doorbell := by
  cases m <;> rfl

theorem CoreState.rowWrite_doorbell (k : CoreState) (m : SpmMem) (row : Nat) (data : List Byte) (mask : List Bool) :
    (k.rowWrite m row data mask).2.doorbell = k.doorbell := by
  unfold CoreState.rowWrite
  refine foldl_keeps (fun acc : List Nat × CoreState => acc.2.doorbell = k.doorbell) _ (fun acc w hacc => ?_) _ _ rfl
  refine ite_keeps (fun x : List Nat × CoreState => x.2.doorbell = k.doorbell) hacc ?_
  refine ite_keeps (fun x : List Nat × CoreState => x.2.doorbell = k.doorbell) hacc ?_
  exact (CoreState.setSpm_doorbell _ _ _ _).trans hacc

/-- A row written, with what a read of the words that it covers in part corrects. -/
theorem SameBells.rowWritten {s : State} {c : Nat} {k : CoreState} (h : k.doorbell = (s.core c).doorbell) (m : SpmMem) (ws : List Nat) :
    SameBells s ((s.setCore c k).spmCorrected c m ws) :=
  .trans (.setCore h) (.spmCorrected _ _ _ _)

theorem SameBells.gatherFlush (s : State) (c i : Nat) : SameBells s (s.gatherFlush c i).2 := by
  unfold State.gatherFlush
  extract_lets k
  split
  · exact .refl s
  · next g _ =>
    extract_lets r k' t
    have hr : r.2.doorbell = k.doorbell := CoreState.rowWrite_doorbell _ _ _ _ _
    have hk : k'.doorbell = k.doorbell := ite_keeps (fun x : CoreState => x.doorbell = k.doorbell) hr hr
    have ht : SameBells s t := .rowWritten hk _ _
    split
    · exact ht
    · exact ht.trans (.rmwFailed _ _ _)

theorem SameBells.gatherPut (s : State) (c : Nat) (m : SpmMem) (row : Nat) (data : List Byte) (mask : List Bool) :
    SameBells s (s.gatherPut c m row data mask).2 := by
  unfold State.gatherPut
  extract_lets k r t w
  split
  · next i _ =>
    extract_lets g mask' data' u
    have hu : SameBells s u := .setCore rfl
    split
    · exact hu.trans (.gatherFlush _ _ _)
    · exact hu
  · have hr : SameBells s r.2 := ite_keeps (fun x : Nat × State => SameBells s x.2) (.gatherFlush _ _ _) (.refl s)
    have ht : SameBells s t := hr.trans (.setCore rfl)
    split
    · exact ht.trans (.gatherFlush _ _ _)
    · exact ht

theorem SameBells.spmWrite (s : State) (c : Nat) (m : SpmMem) (off : Nat) (data : List Byte) (dma : Bool) :
    SameBells s (s.spmWrite c m off data dma).2 := by
  refine foldl_keeps (fun acc : Nat × State => SameBells s acc.2) _ (fun acc i hacc => ?_) _ (stOk, s) (.refl s)
  extract_lets p row r w t r'
  split
  · have hr : SameBells s r.2 := by
      simp only [r]
      split
      · exact hacc.trans (.gatherFlush _ _ _)
      · exact hacc
    have ht : SameBells s t := hr.trans (.rowWritten (CoreState.rowWrite_doorbell _ _ _ _ _) _ _)
    exact ite_keeps (SameBells s) ht (ht.trans (.rmwFailed _ _ _))
  · exact hacc.trans (.gatherPut _ _ _ _ _ _)

/-! ## What an access answers -/

theorem Reach.bind_state {α β : Type} {P : State → Prop} {r : Reach α} {f : α → State → Reach β} (hr : P r.state)
    (hf : ∀ a t, P t → P (f a t).state) : P (r.bind f).state := by
  cases r with
  | ok a t => exact hf a t hr
  | wait t => exact hr
  | fail st t => exact hr

theorem SameCmds.coreRead (s : State) (c client : Nat) (m : SpmMem) (off n : Nat) : SameCmds s (s.coreRead c client m off n).state := by
  unfold State.coreRead
  extract_lets k gs
  split
  · exact .refl s
  split
  · exact .refuseAccess _ _
  · exact .setCore _ _ _
  split
  · exact .setCore _ _ _
  · next k' _ =>
    extract_lets r
    have hr : SameCmds s r.2.2 := .trans (.setCore _ _ _) (.onlyCore (.spmRead _ _ _ _ _))
    split
    · exact hr
    · exact hr.trans (.fenceRequest _ _ _)

theorem SameCmds.wmCorrected (s : State) (c mc page row : Nat) (e : W64) : SameCmds s (s.wmCorrected c mc page row e) := by
  unfold State.wmCorrected
  extract_lets u v col k seen
  have hv : SameCmds s v := .trans (.modCore _ _ _) (.onlyCore (.noteRowError _ _ _ _))
  split
  · exact hv.trans (.trans (.setCore _ _ _) (.onlyCore (.noteRowError _ _ _ _)))
  · exact hv

theorem SameCmds.pageFaulty (s : State) (c mc page cause : Nat) : SameCmds s (s.pageFaulty c mc page cause) :=
  .trans (.trans (.setCore _ _ _) (.logged (.logEvent _ _ _ _ _))) (.fenceRequest _ _ _)

theorem SameCmds.wmRead (s : State) (c mc page row : Nat) : SameCmds s (s.wmRead c mc page row).2.2 := by
  unfold State.wmRead
  extract_lets k e
  split
  · exact .refl s
  split
  · exact .refl s
  split
  · exact .wmCorrected _ _ _ _ _ _
  · exact .trans (ite_keeps (SameCmds s) (.refl s) (.pageFaulty _ _ _ _ _)) (.logged (.logEvent _ _ _ _ _))

theorem SameCmds.wmRows (s : State) (c row n : Nat) : SameCmds s (s.wmRows c row n).2.2 := by
  induction n generalizing s row with
  | zero => exact .refl s
  | succ n ih => exact (SameCmds.wmRead s _ _ _ _).trans (ih _ _)

theorem SameCmds.wmPort (s : State) (p off n : Nat) : SameCmds s (s.wmPort p off n).state := by
  unfold State.wmPort
  extract_lets k gs r
  split
  · exact .refuseAccess _ _
  · exact .setCore _ _ _
  · have hr : SameCmds s r.2.2 := .wmRows _ _ _ _
    split
    · exact hr
    · exact hr.trans (.fenceRequest _ _ _)

/-! ## Device memory -/

theorem SameCmds.touchRows (s : State) (a n : Nat) (w : Bool) : SameCmds s (s.touchRows a n w) := by
  unfold State.touchRows
  split <;> exact ⟨rfl, rfl, rfl, rfl, rfl⟩

theorem SameCmds.edcLink (s : State) (a n : Nat) : SameCmds s (s.edcLink a n).2 := by
  unfold State.edcLink
  split
  · exact .refl s
  · exact ⟨rfl, rfl, rfl, rfl, rfl⟩

theorem SameCmds.eccCount (s : State) (a ce ue : Nat) : SameCmds s (s.eccCount a ce ue) := by
  unfold State.eccCount
  split
  · exact .trans (.setFld _ _ _ _ _) (.setFld _ _ _ _ _)
  · exact .refl s

theorem SameCmds.setUnitErr (s : State) (a u : Nat) (e : W64) : SameCmds s (s.setUnitErr a u e) := by
  unfold State.setUnitErr
  split <;> exact ⟨rfl, rfl, rfl, rfl, rfl⟩

theorem SameCmds.noteLedge (s : State) (a : Nat) (us : List Nat) : SameCmds s (s.noteLedge a us) := by
  unfold State.noteLedge
  split
  · exact ⟨rfl, rfl, rfl, rfl, rfl⟩
  · exact .refl s

theorem SameCmds.ledgeFixed (s : State) (a : Nat) (us : List Nat) : SameCmds s (s.ledgeFixed a us) := by
  unfold State.ledgeFixed
  split
  · exact .trans (.noteLedge _ _ _) (.foldl _ (fun _ _ => .setUnitErr _ _ _ _) _ _)
  · exact .refl s

theorem SameCmds.memRead (s : State) (a n : Nat) : SameCmds s (s.memRead a n).2.2 := by
  unfold State.memRead
  extract_lets l t us bad ce t'
  have ht : SameCmds s t := .trans (.touchRows _ _ _ _) (.edcLink _ _ _)
  have ht' : SameCmds s t' := ht.trans (.trans (.eccCount _ _ _ _) (.ledgeFixed _ _ _))
  split
  · exact ht'
  · exact ht'.trans (.logged (.logEvent _ _ _ _ _))

theorem SameCmds.memWrite (s : State) (a : Nat) (data : List Byte) : SameCmds s (s.memWrite a data).2 := by
  unfold State.memWrite
  extract_lets n l t u
  have ht : SameCmds s t := .trans (.touchRows _ _ _ _) (.edcLink _ _ _)
  refine foldl_keeps (fun acc : Nat × State => SameCmds s acc.2) _ (fun acc w hacc => ?_) _ (stOk, t) ht
  extract_lets lo hi e part lose v v'
  have hlose (x : State) (hx : SameCmds s x) : SameCmds s (lose x).2 := hx.trans (.logged (.logEvent _ _ _ _ _))
  refine ite_keeps (fun x : Nat × State => SameCmds s x.2) (hlose _ hacc) ?_
  refine ite_keeps (fun x : Nat × State => SameCmds s x.2) (hlose _ (hacc.trans (.eccCount _ _ _ _))) ?_
  have hv : SameCmds s v := ite_keeps (SameCmds s) (hacc.trans (.trans (.eccCount _ _ _ _) (.noteLedge _ _ _))) hacc
  have hv' : SameCmds v v' := ⟨rfl, rfl, rfl, rfl, rfl⟩
  exact (hv.trans hv').trans (.setUnitErr _ _ _ _)

theorem SameCmds.devRead (s : State) (a n : Nat) : SameCmds s (s.devRead a n).state := by
  have hmem : SameCmds s (if s.atomFirst a n then Reach.wait s
      else if (s.memRead a n).1 = stOk then .ok (s.memRead a n).2.1 (s.memRead a n).2.2
      else .fail (s.memRead a n).1 (s.memRead a n).2.2).state := by
    have hr := SameCmds.memRead s a n
    split
    · exact .refl s
    · split <;> exact hr
  unfold State.devRead
  split
  · exact .refl s
  split
  · exact hmem
  · exact hmem
  · exact hmem
  · split
    · exact .coreRead _ _ _ _ _ _
    · exact .refl s
  · split
    · exact .wmPort _ _ _ _
    · exact .refl s
  · exact .refl s
  · exact .refl s

/-! ## The fabric -/

theorem SameCmds.remoteIssue (s : State) (r : RemoteReq) : SameCmds s (s.remoteIssue r) := by
  unfold State.remoteIssue
  split
  · split
    · extract_lets n m t
      have ht : SameCmds s t := .setFld _ _ _ _ _
      exact ⟨ht.cmds, ht.posting, ht.completes, ht.preds, ht.disp⟩
    · have ht : SameCmds s (s.bumpFld FAB_TAGS 31 16 1) := .setFld _ _ _ _ _
      exact ⟨ht.cmds, ht.posting, ht.completes, ht.preds, ht.disp⟩
  · exact ⟨rfl, rfl, rfl, rfl, rfl⟩

theorem SameCmds.remoteSend (s : State) (r : RemoteReq) : SameCmds s (s.remoteSend r).2 := by
  rw [State.remoteSend]
  generalize FAB_UNREACH = a
  refine ite_keeps (fun x : Nat × State => SameCmds s x.2) ?_ ?_
  · show SameCmds s (s.remoteIssue r)
    exact SameCmds.remoteIssue s r
  · show SameCmds s (s.bump a 1)
    exact SameCmds.bump s a 1

theorem SameCmds.cpRead (s : State) (issuer dev a n : Nat) : SameCmds s (s.cpRead issuer dev a n).state := by
  unfold State.cpRead
  extract_lets rows missing r
  split
  · exact ⟨rfl, rfl, rfl, rfl, rfl⟩
  split
  · exact ⟨rfl, rfl, rfl, rfl, rfl⟩
  split
  · exact .refl s
  · have hr : SameCmds s r.2 := by
      refine foldl_keeps (fun acc : Nat × State => SameCmds s acc.2) _ (fun acc _ hacc => ?_) missing (stOk, s) (.refl s)
      exact hacc.trans (.remoteSend _ _)
    split <;> exact hr

theorem SameCmds.getData (s : State) (src : Src) (w n : Nat) : SameCmds s (s.getData src w n).state := by
  unfold State.getData
  split
  · split <;> exact .refl s
  · exact .devRead _ _ _
  · exact .cpRead _ _ _ _ _

end Sys2Proof.Machine
end

section
/-!
SUPPORT of the proofs. What a layer reads and stages leaves the commands alone.
-/

namespace Sys2Proof.Machine

/-! ## What a layer reads -/

/-- The state that reading bound sources leaves. -/
def Bounds.state : Bounds → State
  | .ok _ s => s
  | .wait s => s
  | .bad _ _ s => s

theorem SameCmds.readFrom (srcs : List Byte) (n i : Nat) (vs : List W32) (s : State) :
    SameCmds s (State.readFrom srcs n i vs s).state := by
  induction n generalizing i vs s with
  | zero => exact .refl s
  | succ n ih =>
    unfold State.readFrom
    split
    · exact ih _ _ _
    · next a _ =>
      have hread := SameCmds.devRead s a 4
      split
      · next h =>
        rw [h] at hread
        exact hread.trans (ih _ _ _)
      · next h =>
        rw [h] at hread
        exact hread
      · next h =>
        rw [h] at hread
        exact hread
    · exact .refl s

theorem SameCmds.readBounds (s : State) (srcs : List Byte) : SameCmds s (s.readBounds srcs).state := .readFrom _ _ _ _ _

theorem SameCmds.readEntries (s : State) (src : Src) (d : Desc) : SameCmds s (s.readEntries src d).state := by
  unfold State.readEntries
  split
  · exact .refl s
  · exact Reach.bind_state (P := SameCmds s) (.getData _ _ _ _) (fun _ _ ht => ht)

theorem SameCmds.readChunk (m : Nat) (rs : List (Nat × Nat × Nat)) (s : State) : SameCmds s (State.readChunk m rs s).state := by
  induction rs generalizing s with
  | nil => exact .refl s
  | cons r rs ih =>
    refine Reach.bind_state (P := SameCmds s) (.devRead _ _ _) (fun _ t ht => ?_)
    split
    · exact ht
    · exact ht.trans (ih t)

theorem SameCmds.readItems (l : Layer) (is : List Nat) (s : State) : SameCmds s (State.readItems l is s).state := by
  induction is generalizing s with
  | nil => exact .refl s
  | cons i is ih =>
    have hread := SameCmds.readChunk l.m (chunkRuns l.experts (i % l.chunks)) s
    unfold State.readItems
    split
    · next h =>
      rw [h] at hread
      exact hread
    · next h =>
      rw [h] at hread
      exact hread
    · next h =>
      rw [h] at hread
      exact Reach.bind_state (P := SameCmds s) (hread.trans (ih _)) (fun _ _ ht => ht)

/-! ## What a layer stages -/

theorem SameCmds.copyPieces (ps : List (Nat × Nat)) (a : Nat) (s : State) : SameCmds s (State.copyPieces ps a s).state := by
  induction ps generalizing a s with
  | nil => exact .refl s
  | cons p ps ih =>
    refine Reach.bind_state (P := SameCmds s) (.devRead _ _ _) (fun b t ht => ?_)
    have hw := ht.trans (.memWrite t a b)
    extract_lets r
    split
    · exact ht
    split
    · exact hw.trans (ih _ _)
    · exact hw

theorem SameCmds.stageBatch (s : State) (id : Nat) (l : Layer) (t : LTile) : SameCmds s (s.stageBatch id l t).state := by
  unfold State.stageBatch
  split
  · split <;> exact .refl s
  split
  · exact .refl s
  · refine Reach.bind_state (P := SameCmds s) (.copyPieces _ _ _) (fun _ u hu => ?_)
    exact ⟨hu.cmds, hu.posting, hu.completes, hu.preds, hu.disp⟩

theorem SameCmds.showUse (s : State) (q : Nat) : SameCmds s (s.showUse q) :=
  .trans (.trans (.setFld _ _ _ _ _) (.setFld _ _ _ _ _)) (.foldl _ (fun _ _ => .setFld _ _ _ _ _) _ _)

theorem SameCmds.freeStaging (s : State) (id : Nat) : SameCmds s (s.freeStaging id) :=
  .trans (t := { s with staging := s.staging.filter (fun g => g.cmd != id) }) ⟨rfl, rfl, rfl, rfl, rfl⟩
    (.foldl _ .showUse _ _)

theorem SameCmds.addStaging (s : State) (id q a b g : Nat) : SameCmds s (s.addStaging id q a b g) :=
  .trans (t := { s with staging := s.staging ++ [⟨id, q, a, g, 0, none⟩, ⟨id, q, b, g, 0, none⟩] }) ⟨rfl, rfl, rfl, rfl, rfl⟩
    (.showUse _ _)

theorem SameCmds.setHandles (s : State) (h : Nat) (e : Handle) : SameCmds s (s.setHandles h e) :=
  .foldl _ (fun u _ => ite_keeps (SameCmds u) (.refl u) (.modCore _ _ _)) _ _

theorem SameCmds.wakeHandles (s : State) (hs : List Nat) : SameCmds s (s.wakeHandles hs) :=
  .foldl _ (fun u _ => ite_keeps (SameCmds u) (.refl u) (.modCore _ _ _)) _ _

/-- The planned batches of a layer differ from it in what is still to do and in whether they are staged. -/
theorem planBatches_layer (s : State) (q id : Nat) (l : Layer) :
    ∃ ts b, (s.planBatches q id l).1 = { l with todo := ts, staged := b } := by
  unfold State.planBatches
  extract_lets d nb kb sz given plain
  have hgiven (ts : List LTile) : ∃ us b, (given ts).1 = { l with todo := us, staged := b } := by
    simp only [given]
    split
    · exact ⟨_, _, rfl⟩
    · split <;> exact ⟨_, _, rfl⟩
  split
  · exact hgiven _
  split
  · exact hgiven _
  split
  · exact ⟨_, _, rfl⟩
  · split <;> exact ⟨_, _, rfl⟩

theorem SameCmds.planBatches (s : State) (q id : Nat) (l : Layer) : SameCmds s (s.planBatches q id l).2 := by
  unfold State.planBatches
  extract_lets d nb kb sz given plain
  have hgiven (ts : List LTile) : SameCmds s (given ts).2 := by
    simp only [given]
    split
    · exact .refl s
    · split
      · exact .addStaging _ _ _ _ _ _
      · exact .refl s
  split
  · exact hgiven _
  split
  · exact hgiven _
  split
  · exact .refl s
  · split
    · exact .refl s
    · exact .addStaging _ _ _ _ _ _

/-! ## A dispatch sent -/

/-- The core of a dispatch as it is sent, before its mask records are written. -/
theorem send_bells (s : State) (d : Dispatch) (p : Nat) :
    ∃ k : CoreState, k.doorbell = some (d.cmd, d.ticket) ∧ SameBells (s.setCore p k) (s.send d p) :=
  ⟨_, rfl, foldl_related SameBells .refl (fun _ _ _ => .trans) _ (fun _ _ => .spmWrite _ _ _ _ _ _) _ _⟩

theorem SameCmds.send (s : State) (d : Dispatch) (p : Nat) : SameCmds s (s.send d p) := by
  obtain ⟨k, -, hk⟩ := send_bells s d p
  exact (SameCmds.setCore s p k).trans hk.toSameCmds

theorem send_doorbell (s : State) (d : Dispatch) (p : Nat) : ((s.send d p).core p).doorbell = some (d.cmd, d.ticket) := by
  obtain ⟨k, hbell, hk⟩ := send_bells s d p
  rw [hk.bell, State.core_setCore, if_pos rfl, hbell]

end Sys2Proof.Machine
end

section
/-!
SUPPORT of the proofs. What the end of a command, and a layer that goes on, leave of the commands: their order and their numbers, the
flags raised, what is decided and what has ended; and what stays of a command's layer.
-/

namespace Sys2Proof.Machine

/-! ## Commands by number -/

/-- A change of the commands of a number that leaves their numbers. -/
theorem cmd_modCmd (s : State) (id i : Nat) {f : Cmd → Cmd} (hid : ∀ x, (f x).id = x.id) :
    (s.modCmd id f).cmd i = (s.cmd i).map (fun x => if i = id then f x else x) := by
  show (s.cmds.map _).find? _ = (s.cmds.find? _).map _
  induction s.cmds with
  | nil => rfl
  | cons x xs ih =>
    have hx : (if x.id = id then f x else x).id = x.id := by
      split
      · exact hid x
      · rfl
    rw [List.map_cons, List.find?_cons, List.find?_cons, hx]
    split
    · next h =>
      rw [Option.map_some, ← beq_iff_eq.1 h]
    · exact ih

theorem cmd_id {s : State} {id : Nat} {x : Cmd} (h : s.cmd id = some x) : x.id = id := beq_iff_eq.1 (List.find?_some h :)

/-- Every command of the number carries the flag. -/
def State.AllRaised (s : State) (id b : Nat) : Prop := ∀ x ∈ s.cmds, x.id = id → x.raised.testBit b = true

/-- No command has a chain to come. -/
def State.NoChains (s : State) : Prop := ∀ x ∈ s.cmds, x.chain = []

/-! ## Relations -/

/-- A relation between what is before and what comes after. -/
structure Goes {α : Type} (R : α → α → Prop) : Prop where
  refl : ∀ x, R x x
  trans : ∀ {x y z}, R x y → R y z → R x z

theorem Goes.eq {α : Type} : Goes (Eq : α → α → Prop) := ⟨fun _ => rfl, Eq.trans⟩

/-- The completed dispatches stay, completions are only added, the commands keep their order and their numbers, and a flag that every
command of a number carries stays. -/
structure Moves (s t : State) : Prop where
  completes : t.completes = s.completes
  posting : ∃ more, t.posting = s.posting ++ more
  ids : t.cmds.map (·.id) = s.cmds.map (·.id)
  raised : ∀ id b, s.AllRaised id b → t.AllRaised id b

/-- As `Moves`, and the prediction states stay, no chain comes up, and the layer of each command goes on as `R` says. -/
structure Steps (R : Layer → Layer → Prop) (s t : State) : Prop extends Moves s t where
  preds : t.preds = s.preds
  chains : s.NoChains → t.NoChains
  layer : ∀ i x l, s.cmd i = some x → x.layer = some l → ∃ y k, t.cmd i = some y ∧ y.op = x.op ∧ y.layer = some k ∧ R l k

/-- Nothing of a command's layer changes. -/
abbrev Ends : State → State → Prop := Steps Eq

theorem Moves.ofSame {s t : State} (h : SameCmds s t) : Moves s t where
  completes := h.completes
  posting := ⟨[], by rw [h.posting, List.append_nil]⟩
  ids := by rw [h.cmds]
  raised := fun id b hs x hx => hs x (h.cmds ▸ hx)

theorem Moves.refl (s : State) : Moves s s := .ofSame (.refl s)

theorem Moves.trans {s t u : State} (h : Moves s t) (k : Moves t u) : Moves s u where
  completes := k.completes.trans h.completes
  posting := by
    obtain ⟨m, hm⟩ := h.posting
    obtain ⟨n, hn⟩ := k.posting
    exact ⟨m ++ n, by rw [hn, hm, List.append_assoc]⟩
  ids := k.ids.trans h.ids
  raised := fun id b hs => k.raised id b (h.raised id b hs)

/-- A change of the commands of a number that leaves their numbers, and the flags that all of them carry. -/
theorem Moves.modCmd {s : State} {id : Nat} {f : Cmd → Cmd} (hid : ∀ x, (f x).id = x.id)
    (hr : ∀ b, s.AllRaised id b → ∀ x ∈ s.cmds, x.id = id → (f x).raised.testBit b = true) : Moves s (s.modCmd id f) where
  completes := rfl
  posting := ⟨[], (List.append_nil _).symm⟩
  ids := by
    show (s.cmds.map _).map _ = _
    rw [List.map_map]
    refine List.map_congr_left fun x _ => ?_
    show (if x.id = id then f x else x).id = x.id
    split
    · exact hid x
    · rfl
  raised := by
    intro i b hs y hy hi
    obtain ⟨x, hx, rfl⟩ := List.mem_map.1 hy
    by_cases hxi : x.id = id
    · rw [if_pos hxi] at hi ⊢
      rw [hid] at hi
      exact hr b (fun z hz hzi => hs z hz (hzi.trans (hxi.symm.trans hi))) x hx hxi
    · rw [if_neg hxi] at hi ⊢
      exact hs x hx hi

/-- A command before is there after. -/
theorem Moves.mem {s t : State} (h : Moves s t) {x : Cmd} (hx : x ∈ s.cmds) : ∃ y ∈ t.cmds, y.id = x.id :=
  List.mem_map.1 (h.ids ▸ List.mem_map_of_mem hx)

section
variable {R R' : Layer → Layer → Prop} {s t u : State}

theorem Steps.ofSame (hR : Goes R) (h : SameCmds s t) : Steps R s t where
  toMoves := .ofSame h
  preds := h.preds
  chains := fun hs x hx => hs x (h.cmds ▸ hx)
  layer := fun i x l hx hl => ⟨x, l, by rw [State.cmd, h.cmds]; exact hx, rfl, hl, hR.refl l⟩

theorem Steps.goes (hR : Goes R) : Goes (Steps R) where
  refl s := .ofSame hR (.refl s)
  trans h k := by
    refine ⟨h.toMoves.trans k.toMoves, k.preds.trans h.preds, fun hs => k.chains (h.chains hs), fun i x l hx hl => ?_⟩
    obtain ⟨y, m, hy, hop, hm, hlm⟩ := h.layer i x l hx hl
    obtain ⟨z, n, hz, hop', hn, hmn⟩ := k.layer i y m hy hm
    exact ⟨z, n, hz, hop'.trans hop, hn, hR.trans hlm hmn⟩

theorem Steps.mono (hR : ∀ l k, R l k → R' l k) (h : Steps R s t) : Steps R' s t := by
  refine ⟨h.toMoves, h.preds, h.chains, fun i x l hx hl => ?_⟩
  obtain ⟨y, k, hy, hop, hk, hlk⟩ := h.layer i x l hx hl
  exact ⟨y, k, hy, hop, hk, hR l k hlk⟩

theorem Ends.steps (hR : Goes R) (h : Ends s t) : Steps R s t := h.mono fun l k (hlk : l = k) => hlk ▸ hR.refl l

theorem Steps.modCmd (hR : Goes R) {id : Nat} {f : Cmd → Cmd} (hid : ∀ x, (f x).id = x.id) (hop : ∀ x, (f x).op = x.op)
    (hchain : ∀ x, (f x).chain = x.chain) (hl : ∀ x l, s.cmd id = some x → x.layer = some l → ∃ k, (f x).layer = some k ∧ R l k)
    (hr : ∀ b, s.AllRaised id b → ∀ x ∈ s.cmds, x.id = id → (f x).raised.testBit b = true) : Steps R s (s.modCmd id f) where
  toMoves := .modCmd hid hr
  preds := rfl
  chains := by
    intro hs y hy
    obtain ⟨x, hx, rfl⟩ := List.mem_map.1 hy
    split
    · exact (hchain x).trans (hs x hx)
    · exact hs x hx
  layer := by
    intro i x l hx hxl
    rw [cmd_modCmd s id i hid, hx]
    by_cases hi : i = id
    · obtain ⟨k, hk, hlk⟩ := hl x l (hi ▸ hx) hxl
      exact ⟨f x, k, by rw [Option.map_some, if_pos hi], hop x, hk, hlk⟩
    · exact ⟨x, l, by rw [Option.map_some, if_neg hi], rfl, hxl, hR.refl l⟩

/-- The layer of a command is changed. -/
theorem Steps.modLayer (hR : Goes R) (s : State) (id : Nat) {f : Layer → Layer} (hf : ∀ l, (s.cmd id).bind (·.layer) = some l → R l (f l)) :
    Steps R s (s.modLayer id f) := by
  refine .modCmd hR (fun _ => rfl) (fun _ => rfl) (fun _ => rfl) (fun x l hx hl => ⟨f l, ?_, hf l ?_⟩) (fun b hs x hx hi => hs x hx hi)
  · show x.layer.map f = _
    rw [hl]
    rfl
  · rw [hx]
    exact hl

end

theorem Ends.refl (s : State) : Ends s s := (Steps.goes .eq).refl s

theorem Ends.trans {s t u : State} (h : Ends s t) (k : Ends t u) : Ends s u := (Steps.goes .eq).trans h k

theorem Ends.ofSame {s t : State} (h : SameCmds s t) : Ends s t := Steps.ofSame .eq h

theorem Ends.foldl {α : Type} (f : State → α → State) (hf : ∀ s a, Ends s (f s a)) (l : List α) (s : State) : Ends s (l.foldl f s) :=
  foldl_related Ends .refl (fun _ _ _ => .trans) f hf l s

/-- Other dispatches. -/
theorem Ends.disp {s t : State} (h : Ends s t) (ds : List Dispatch) : Ends s { t with disp := ds } :=
  ⟨⟨h.completes, h.posting, h.ids, h.raised⟩, h.preds, h.chains, h.layer⟩

/-- A change of a command that touches neither its number, its opcode, its chain, its layer nor its flags. -/
theorem Ends.modCmd (s : State) {id : Nat} {f : Cmd → Cmd} (hid : ∀ x, (f x).id = x.id) (hop : ∀ x, (f x).op = x.op)
    (hchain : ∀ x, (f x).chain = x.chain) (hlayer : ∀ x, (f x).layer = x.layer) (hraised : ∀ x, (f x).raised = x.raised) :
    Ends s (s.modCmd id f) :=
  Steps.modCmd .eq hid hop hchain (fun x l _ hl => ⟨l, (hlayer x).trans hl, rfl⟩) (fun _ hs x hx hi => (hraised x).symm ▸ hs x hx hi)

theorem Ends.raise (s : State) (id f : Nat) : Ends s (s.raise id f) :=
  Steps.modCmd .eq (fun _ => rfl) (fun _ => rfl) (fun _ => rfl) (fun _ l _ hl => ⟨l, hl, rfl⟩) (fun b hs x hx hi => by
    show (x.raised ||| f).testBit b = true
    rw [Nat.testBit_or, hs x hx hi, Bool.true_or])

theorem allRaised_raise (s : State) (id f b : Nat) (hb : f.testBit b = true) : (s.raise id f).AllRaised id b := by
  intro y hy hi
  obtain ⟨x, -, rfl⟩ := List.mem_map.1 hy
  by_cases hxi : x.id = id
  · rw [if_pos hxi]
    show (x.raised ||| f).testBit b = true
    rw [Nat.testBit_or, hb, Bool.or_true]
  · rw [if_neg hxi] at hi
    exact absurd hi hxi

/-! ## The end of a command -/

theorem SameCmds.countRefused (s : State) (src : Src) (st : Nat) : SameCmds s (s.countRefused src st) := by
  unfold State.countRefused
  split
  · exact ite_keeps (SameCmds s) (.bump _ _ _) (.refl s)
  · exact .refl s

/-- A completion is decided. -/
theorem Ends.post (s : State) (p : Posting) : Ends s (s.post p) where
  completes := rfl
  posting := ⟨[p], rfl⟩
  ids := rfl
  raised := fun _ _ hs => hs
  preds := rfl
  chains := fun hs => hs
  layer := fun _ x l hx hl => ⟨x, l, hx, rfl, hl, rfl⟩

theorem Ends.finish (s : State) (id st det r : Nat) : Ends s (s.finish id st det r) := by
  unfold State.finish
  split
  · exact .refl s
  · next x hx =>
    extract_lets raised t
    have hraised (b : Nat) (hb : x.raised.testBit b = true) : raised.testBit b = true := by
      simp only [raised]
      split
      · rw [Nat.testBit_or, hb, Bool.true_or]
      · exact hb
    have hid : x.id = id := by
      have h := List.find?_some hx
      simp only [Bool.and_eq_true, beq_iff_eq] at h
      exact h.1
    have ht : Ends s t := Steps.modCmd .eq (fun _ => rfl) (fun _ => rfl) (fun _ => rfl) (fun _ l _ hl => ⟨l, hl, rfl⟩)
      (fun b hs _ _ _ => hraised b (hs x (List.mem_of_find?_eq_some hx) hid))
    exact (ht.trans (.ofSame (.countRefused _ _ _))).trans (.post _ _)

theorem Ends.conclude (s : State) (id st det r : Nat) : Ends s (s.conclude id st det r) := by
  unfold State.conclude
  split
  · exact .refl s
  split
  · exact .finish _ _ _ _ _
  · exact .modCmd s (fun _ => rfl) (fun _ => rfl) (fun _ => rfl) (fun _ => rfl) (fun _ => rfl)

theorem Ends.endExec (s : State) (id st det : Nat) : Ends s (s.endExec id st det) := by
  unfold State.endExec
  extract_lets t
  have ht : Ends s t := .ofSame (.freeStaging _ _)
  split
  · exact ht
  · exact ht.trans (.conclude _ _ _ _ _)

theorem Ends.endStopped (s : State) (id : Nat) : Ends s (s.endStopped id) := by
  unfold State.endStopped
  split
  · split
    · exact .conclude _ _ _ _ _
    · exact .refl s
  · exact .refl s

theorem Ends.flushDrives (s : State) (x : Cmd) : Ends s (s.flushDrives x) := by
  refine .trans ?_ (.foldl _ (fun _ _ => ?_) _ _)
  · exact .modCmd s (fun _ => rfl) (fun _ => rfl) (fun _ => rfl) (fun _ => rfl) (fun _ => rfl)
  · exact .ofSame ⟨rfl, rfl, rfl, rfl, rfl⟩

theorem Ends.endTransfer (s : State) (id : Nat) : Ends s (s.endTransfer id) := by
  unfold State.endTransfer
  split
  · exact .refl s
  split
  · exact .refl s
  · extract_lets due t
    have ht : Ends s t := ite_keeps (Ends s) (.flushDrives _ _) (.refl s)
    split
    · exact ht
    split
    · exact ht.trans (.endStopped _ _)
    · exact ht.trans (.conclude _ _ _ _ _)

theorem SameCmds.violation (s : State) (cls src : Nat) : SameCmds s (s.violation cls src) := .logged (.violation _ _ _)

theorem Cmd.failAt_parts (st cycle core : Nat) (x : Cmd) :
    (x.failAt st cycle core).id = x.id ∧ (x.failAt st cycle core).op = x.op ∧ (x.failAt st cycle core).chain = x.chain ∧
      (x.failAt st cycle core).layer = x.layer ∧ (x.failAt st cycle core).raised = x.raised := by
  unfold Cmd.failAt
  extract_lets stands
  split <;> exact ⟨rfl, rfl, rfl, rfl, rfl⟩

theorem Ends.noteStatus (s : State) (id st : Nat) : Ends s (s.noteStatus id st) := by
  unfold State.noteStatus
  extract_lets t
  have ht : Ends s t := .modCmd s (fun x => (Cmd.failAt_parts _ _ _ x).1) (fun x => (Cmd.failAt_parts _ _ _ x).2.1)
    (fun x => (Cmd.failAt_parts _ _ _ x).2.2.1) (fun x => (Cmd.failAt_parts _ _ _ x).2.2.2.1) (fun x => (Cmd.failAt_parts _ _ _ x).2.2.2.2)
  split
  · exact ht.trans (.ofSame (.violation _ _ _))
  · exact ht

/-- Sending what can be sent. -/
theorem Ends.pump (s : State) : Ends s s.pump := by
  refine .foldl _ (fun s j => ?_) _ s
  split
  · exact .refl s
  split
  · exact .refl s
  split
  · exact .refl s
  · exact .disp (.ofSame (.send _ _ _)) _

/-- Other dispatches, and what can be sent is. -/
theorem Ends.redispatch (s : State) (ds : List Dispatch) : Ends s ({ s with disp := ds } : State).pump :=
  .trans (.disp (.refl s) ds) (.pump _)

end Sys2Proof.Machine
end

section
/-!
SUPPORT of the proofs. What a layer that goes on, or ends, leaves of the commands.
-/

namespace Sys2Proof.Machine

/-! ## A layer that goes on -/

/-- The run of the layer is the same: its number of output bits, its plan, whether it is a rerun and whether its predictor runs. -/
structure Layer.SameRun (l k : Layer) : Prop where
  rerun : k.rerun = l.rerun
  obits : k.obits = l.obits
  predicting : k.predicting = l.predicting
  plan : k.plan = l.plan

theorem Goes.sameRun : Goes Layer.SameRun :=
  ⟨fun _ => ⟨rfl, rfl, rfl, rfl⟩, fun h k => ⟨k.rerun.trans h.rerun, k.obits.trans h.obits, k.predicting.trans h.predicting,
    k.plan.trans h.plan⟩⟩

/-- The run is the same, and its batch; what is still to do stays or is dropped. -/
structure Layer.SameBatch (l k : Layer) : Prop extends Layer.SameRun l k where
  batch : k.batch = l.batch
  todo : k.todo = l.todo ∨ k.todo = []

theorem Goes.sameBatch : Goes Layer.SameBatch where
  refl _ := ⟨Goes.sameRun.refl _, rfl, .inl rfl⟩
  trans h k := ⟨Goes.sameRun.trans h.toSameRun k.toSameRun, k.batch.trans h.batch, k.todo.elim (fun e => e ▸ h.todo) .inr⟩

theorem Steps.batch_run {s t : State} (h : Steps Layer.SameBatch s t) : Steps Layer.SameRun s t := h.mono fun _ _ hlk => hlk.toSameRun

theorem Steps.disp {R : Layer → Layer → Prop} {s t : State} (h : Steps R s t) (ds : List Dispatch) : Steps R s { t with disp := ds } :=
  ⟨⟨h.completes, h.posting, h.ids, h.raised⟩, h.preds, h.chains, h.layer⟩

theorem Steps.failSince (s : State) (id st time core : Nat) : Steps Layer.SameBatch s (s.failSince id st time core) := by
  refine .disp (.modCmd .sameBatch (fun x => ?_) (fun x => ?_) (fun x => ?_) (fun x l _ hl => ?_) (fun b hs x hx hi => ?_)) _
  · exact (Cmd.failAt_parts _ _ _ x).1
  · exact (Cmd.failAt_parts _ _ _ x).2.1
  · exact (Cmd.failAt_parts _ _ _ x).2.2.1
  · exact ⟨{ l with todo := [] }, by rw [hl]; rfl, ⟨rfl, rfl, rfl, rfl⟩, rfl, .inr rfl⟩
  · exact (Cmd.failAt_parts _ _ _ x).2.2.2.2.symm ▸ hs x hx hi

theorem Steps.stopForRerun (s : State) (id : Nat) : Steps Layer.SameBatch s (s.stopForRerun id) := by
  unfold State.stopForRerun
  split
  · split
    · refine (Steps.goes .sameBatch).trans (.disp ((Steps.goes .sameBatch).refl s) _) (.modLayer .sameBatch _ _ fun l _ => ?_)
      exact ⟨⟨rfl, rfl, rfl, rfl⟩, rfl, .inr rfl⟩
    · exact (Steps.goes .sameBatch).refl s
  · exact (Steps.goes .sameBatch).refl s

theorem Steps.rangeMissed (s : State) (id : Nat) : Steps Layer.SameBatch s (s.rangeMissed id) :=
  (Steps.goes .sameBatch).trans (.modLayer (f := fun l => { l with missed := true }) .sameBatch _ _
    fun _ _ => ⟨⟨rfl, rfl, rfl, rfl⟩, rfl, .inl rfl⟩) (.stopForRerun _ _)

theorem Steps.judgeWindows (s : State) (id : Nat) (l : Layer) : Steps Layer.SameBatch s (s.judgeWindows id l) := by
  unfold State.judgeWindows
  extract_lets cs t
  have ht : Steps Layer.SameBatch s t := .modLayer .sameBatch _ _ fun _ _ => ⟨⟨rfl, rfl, rfl, rfl⟩, rfl, .inl rfl⟩
  have hgoes : Goes (Steps Layer.SameBatch) := Steps.goes .sameBatch
  refine hgoes.trans ht (foldl_related (Steps Layer.SameBatch) hgoes.refl (fun _ _ _ => hgoes.trans) _ (fun u c => ?_) cs t)
  exact ite_keeps (Steps Layer.SameBatch u)
    ((Steps.goes .sameBatch).trans (.ofSame .sameBatch (.setCore _ _ _)) (.rangeMissed _ _)) ((Steps.goes .sameBatch).refl u)

/-! ## What looking at a command can do -/

/-- What the end of a layer can come to: the command ends, or its chain goes on. -/
inductive LayerEnded (s : State) (id : Nat) : State → Prop
  | ends {t : State} (h : Ends s t) : LayerEnded s id t
  | stops {u : State} {x : Cmd} (i st det : Nat) (h : Ends s u) (hx : u.cmd id = some x) (hop : x.op = 0x31) :
    LayerEnded s id ((u.noteLayer id st i).endExec id st det)
  | goesOn {u : State} {x : Cmd} (i st n : Nat) (h : Ends s u) (hx : u.cmd id = some x) (hop : x.op = 0x31) :
    LayerEnded s id (State.chainGo id (n + 1) (u.noteLayer id st i))

theorem layerEnd_ended (s : State) (id st det : Nat) : LayerEnded s id (s.layerEnd id st det) := by
  unfold State.layerEnd
  split
  · next x l hx hl =>
    extract_lets t w
    have ht : Ends s t := ite_keeps (Ends s) (.raise _ _ _) (.refl s)
    rw [hx] at hl
    split
    · next hop =>
      have hu : Ends s (t.freeStaging id) := ht.trans (.ofSame (.freeStaging _ _))
      obtain ⟨y, k, hy, hyop, -⟩ := hu.layer id x l hx hl
      split
      · exact .stops _ _ _ hu hy (hyop.trans hop)
      · exact .goesOn _ _ _ hu hy (hyop.trans hop)
    · exact .ends (ht.trans (.endExec _ _ _ _))
  · exact .ends (.endExec _ _ _ _)

/-- What looking at a command can come to: it ends or waits, its layer ends, its chain goes on, or its windows are judged, whereupon its
layer ends or is left to rerun. -/
inductive Settled (s : State) (id : Nat) : State → Prop
  | ends {t : State} (h : Ends s t) : Settled s id t
  | layerEnd (st : Nat) : Settled s id (s.layerEnd id st 0)
  | goesOn {x : Cmd} (n : Nat) (hx : s.cmd id = some x) (hop : x.op = 0x31) : Settled s id (State.chainGo id (n + 1) s)
  | judged {x : Cmd} {l : Layer} {t : State} (hx : s.cmd id = some x) (hl : x.layer = some l) (htodo : l.todo = [])
    (h : Steps Layer.SameBatch s t) : Settled s id t
  | judgedEnd {x : Cmd} {l : Layer} {t : State} (st : Nat) (hx : s.cmd id = some x) (hl : x.layer = some l) (htodo : l.todo = [])
    (h : Steps Layer.SameBatch s t) : Settled s id (t.layerEnd id st 0)

theorem settleCmd_settled (s : State) (id : Nat) : Settled s id (s.settleCmd id) := by
  unfold State.settleCmd
  split
  · exact .ends (.refl s)
  next x hx =>
  split
  · exact .ends (.refl s)
  split
  · exact .ends (.endTransfer _ _)
  split
  · exact .ends (ite_keeps (Ends s) (.refl s) (.trans (.ofSame (.freeStaging _ _)) (.endStopped _ _)))
  split
  · exact .ends (.refl s)
  split
  · exact .layerEnd _
  split
  · split
    · exact .ends (.endExec _ _ _ _)
    split
    · next h => exact .goesOn _ hx h.1
    · exact .ends (.refl s)
  next l hl =>
  split
  · exact .ends (.refl s)
  next h =>
  have htodo : l.todo = [] := by
    cases hts : l.todo with
    | nil => rfl
    | cons t ts => simp [hts] at h
  extract_lets t
  have ht : Steps Layer.SameBatch s t :=
    ite_keeps (Steps Layer.SameBatch s) ((Steps.goes .sameBatch).refl s) (.judgeWindows _ _ _)
  split
  · split
    · exact .judged hx hl htodo ht
    · exact .judgedEnd _ hx hl htodo ht
  · exact .judged hx hl htodo ht

end Sys2Proof.Machine
end

section
/-!
SUPPORT of the proofs. The batches of a layer, its beginning and a chain: what they leave of the commands.
-/

namespace Sys2Proof.Machine

/-! ## The batches of a layer -/

theorem Ends.then {R : Layer → Layer → Prop} (hR : Goes R) {s t u : State} (h : Steps R s t) (k : Ends t u) : Steps R s u :=
  (Steps.goes hR).trans h (k.steps hR)

theorem SameCmds.layerOf {s t : State} (h : SameCmds s t) (id : Nat) : (t.cmd id).bind (·.layer) = (s.cmd id).bind (·.layer) := by
  rw [State.cmd, h.cmds, State.cmd]

/-- The layer of a command replaced by one of the same run, after accesses. -/
theorem Steps.setLayer {s t : State} {id : Nat} {l k : Layer} (h : SameCmds s t) (hl : (s.cmd id).bind (·.layer) = some l)
    (hk : Layer.SameRun l k) : Steps Layer.SameRun s (t.modLayer id (fun _ => k)) :=
  (Steps.goes .sameRun).trans (.ofSame .sameRun h) (.modLayer .sameRun _ _ fun m hm => by
    rw [h.layerOf, hl, Option.some.injEq] at hm
    exact hm ▸ hk)

theorem stageNext_ok {s u : State} {id : Nat} {l : Layer} {t : LTile} {rest : List LTile} {a : Option Nat}
    (hl : (s.cmd id).bind (·.layer) = some l) (htodo : l.todo = t :: rest) (hstage : s.stageBatch id l t = .ok a u) :
    Ends (u.modLayer id fun _ => { l with todo := rest, batch := l.batch + 1 }) (s.stageNext id) := by
  unfold State.stageNext
  simp only [hl, htodo, hstage]
  exact ite_keeps (Ends _) (.trans (.redispatch _ _) (.noteStatus _ _ _)) (.redispatch _ _)

theorem Steps.stageNext (s : State) (id : Nat) : Steps Layer.SameRun s (s.stageNext id) := by
  cases hl : (s.cmd id).bind (·.layer) with
  | none =>
    rw [State.stageNext, hl]
    exact (Steps.goes .sameRun).refl s
  | some l =>
    cases htodo : l.todo with
    | nil =>
      rw [State.stageNext, hl]
      simp only [htodo]
      exact (Steps.goes .sameRun).refl s
    | cons t rest =>
      have hread := SameCmds.stageBatch s id l t
      cases hstage : s.stageBatch id l t with
      | ok a u =>
        rw [hstage] at hread
        refine Ends.then .sameRun ?_ (stageNext_ok hl htodo hstage)
        exact .setLayer hread hl ⟨rfl, rfl, rfl, rfl⟩
      | wait u =>
        rw [hstage] at hread
        rw [State.stageNext, hl]
        simp only [htodo, hstage]
        exact .ofSame .sameRun hread
      | fail st u =>
        rw [hstage] at hread
        rw [State.stageNext, hl]
        simp only [htodo, hstage]
        exact (Steps.goes .sameRun).trans (.ofSame .sameRun hread) (Steps.failSince _ _ _ _ _).batch_run

theorem roundNext_ok {s y u : State} {id : Nat} {l : Layer} {r : LTile} {rest : List LTile} {items : List Nat} {st : Nat} {a : Option Nat}
    (hl : (s.cmd id).bind (·.layer) = some l) (htodo : l.todo = r :: rest)
    (hread : State.readItems l ((List.range r.ml).map (r.item + ·)) s = .ok (items, st) y) (hstage : y.stageBatch id l r = .ok a u) :
    Ends (u.modLayer id fun _ => { l with todo := if st = stOk then rest else [], batch := l.batch + 1 }) (s.roundNext id) := by
  unfold State.roundNext
  simp only [hl, htodo, hread, hstage]
  exact ite_keeps (Ends _) (.redispatch _ _) (.trans (.redispatch _ _) (.noteStatus _ _ _))

theorem Steps.roundNext (s : State) (id : Nat) : Steps Layer.SameRun s (s.roundNext id) := by
  cases hl : (s.cmd id).bind (·.layer) with
  | none =>
    rw [State.roundNext, hl]
    exact (Steps.goes .sameRun).refl s
  | some l =>
    cases htodo : l.todo with
    | nil =>
      rw [State.roundNext, hl]
      simp only [htodo]
      exact (Steps.goes .sameRun).refl s
    | cons r rest =>
      have hread := SameCmds.readItems l ((List.range r.ml).map (r.item + ·)) s
      cases hitems : State.readItems l ((List.range r.ml).map (r.item + ·)) s with
      | wait y =>
        rw [hitems] at hread
        rw [State.roundNext, hl]
        simp only [htodo, hitems]
        exact .ofSame .sameRun hread
      | fail st y =>
        rw [hitems] at hread
        rw [State.roundNext, hl]
        simp only [htodo, hitems]
        exact (Steps.goes .sameRun).trans (.ofSame .sameRun hread) (Steps.failSince _ _ _ _ _).batch_run
      | ok p y =>
        rw [hitems] at hread
        have hput := hread.trans (.stageBatch y id l r)
        cases hstage : y.stageBatch id l r with
        | ok a u =>
          rw [hstage] at hput
          refine Ends.then .sameRun ?_ (roundNext_ok hl htodo hitems hstage)
          exact .setLayer hput hl ⟨rfl, rfl, rfl, rfl⟩
        | wait u =>
          rw [hstage] at hput
          rw [State.roundNext, hl]
          simp only [htodo, hitems, hstage]
          exact .ofSame .sameRun hput
        | fail st u =>
          rw [hstage] at hput
          rw [State.roundNext, hl]
          simp only [htodo, hitems, hstage]
          exact (Steps.goes .sameRun).trans (.ofSame .sameRun hput) (Steps.failSince _ _ _ _ _).batch_run

theorem Steps.runLayer (s : State) (id : Nat) : Steps Layer.SameRun s (s.runLayer id) := by
  unfold State.runLayer
  split
  · next x l hx hl =>
    extract_lets d l' t tile p u
    split
    · have ht : Steps Layer.SameRun s t := .setLayer (.refl s) hl ⟨rfl, rfl, rfl, rfl⟩
      exact Ends.then .sameRun ht (.redispatch _ _)
    · have hp : Layer.SameRun l p.1 := by
        obtain ⟨ts, b, h⟩ := planBatches_layer s (srcQueue x.src) id l
        exact h ▸ ⟨rfl, rfl, rfl, rfl⟩
      have hu : Steps Layer.SameRun s u := .setLayer (.planBatches _ _ _ _) hl hp
      split
      · exact (Steps.goes .sameRun).trans hu (.roundNext _ _)
      · exact (Steps.goes .sameRun).trans hu (.stageNext _ _)
  · exact (Steps.goes .sameRun).refl s

/-! ## A layer begins -/

/-- As `Moves`; and where no command has a chain to come, none comes up and the prediction states stay. -/
structure Settles (s t : State) : Prop extends Moves s t where
  quiet : s.NoChains → t.NoChains ∧ t.preds = s.preds

theorem Settles.refl (s : State) : Settles s s := ⟨.refl s, fun h => ⟨h, rfl⟩⟩

theorem Settles.trans {s t u : State} (h : Settles s t) (k : Settles t u) : Settles s u :=
  ⟨h.toMoves.trans k.toMoves, fun hs => ⟨(k.quiet (h.quiet hs).1).1, (k.quiet (h.quiet hs).1).2.trans (h.quiet hs).2⟩⟩

theorem Settles.ofSteps {R : Layer → Layer → Prop} {s t : State} (h : Steps R s t) : Settles s t :=
  ⟨h.toMoves, fun hs => ⟨h.chains hs, h.preds⟩⟩

theorem Settles.foldl {α : Type} (f : State → α → State) (hf : ∀ s a, Settles s (f s a)) (l : List α) (s : State) :
    Settles s (l.foldl f s) :=
  foldl_related Settles .refl (fun _ _ _ => .trans) f hf l s

theorem Settles.noteLayer (s : State) (id st i : Nat) : Settles s (s.noteLayer id st i) where
  toMoves := .modCmd (fun _ => rfl) fun b hs x hx hi => hs x hx hi
  quiet := fun hs => ⟨fun y hy => by
    obtain ⟨x, hx, rfl⟩ := List.mem_map.1 hy
    split
    · exact hs x hx
    · exact hs x hx, rfl⟩

theorem Moves.notePred (s : State) (d : Desc) (h : Nat) : Moves s (s.notePred d h) := by
  unfold State.notePred
  extract_lets
  split <;> exact ⟨rfl, ⟨[], (List.append_nil _).symm⟩, rfl, fun _ _ hs => hs⟩

theorem Moves.noteWrites (s : State) (id : Nat) (rs : List (Nat × Nat)) : Moves s (s.noteWrites id rs) where
  completes := rfl
  posting := ⟨[], (List.append_nil _).symm⟩
  ids := by
    show (s.cmds.map _).map _ = _
    rw [List.map_map]
    refine List.map_congr_left fun x _ => ?_
    simp only [Function.comp_apply]
    split <;> rfl
  raised := by
    intro i b hs y hy hi
    obtain ⟨x, hx, rfl⟩ := List.mem_map.1 hy
    split at hi
    · next h =>
      rw [if_pos h]
      exact hs x hx hi
    · next h =>
      rw [if_neg h]
      exact hs x hx hi

theorem Moves.noteSources (s : State) (id : Nat) (rs : List (Nat × Nat)) : Moves s (s.noteSources id rs) :=
  .modCmd (fun _ => rfl) fun _ hs x hx hi => hs x hx hi

theorem Moves.layerStart (s : State) (id : Nat) (x : Cmd) (l : Layer) (deals : List (List LTile)) : Moves s (s.layerStart id x l deals) := by
  unfold State.layerStart
  extract_lets d key prec bar off t u l' v w r
  have ht : Moves s t := ite_keeps (Moves s) (.notePred _ _ _) (.refl s)
  have hu : Moves s u := ite_keeps (Moves s) (ht.trans (Ends.raise t id 32).toMoves) ht
  have hv : Moves s v := hu.trans (.modCmd (fun _ => rfl) fun b hs x hx hi => hs x hx hi)
  have hw : Moves s w := ⟨hv.completes, hv.posting, hv.ids, hv.raised⟩
  have hr : Moves s r := (hw.trans (.noteWrites _ _ _)).trans (.noteSources _ _ _)
  exact (hr.trans (.ofSame (.wakeHandles _ _))).trans (Steps.runLayer _ _).toMoves

/-- The state that comes of beginning a layer. -/
def Begun.state : Begun → State
  | .runs s => s
  | .ended _ _ s => s
  | .waits s => s

theorem Moves.layerBegin (s : State) (id : Nat) (d : Desc) (i : Nat) : Moves s (s.layerBegin id d i).state := by
  unfold State.layerBegin
  split
  · exact .refl s
  next x _ =>
  have hbounds {b : Bounds} (h : s.readBounds (d.drop 0x100) = b) : SameCmds s b.state := h ▸ .readBounds _ _
  split
  · next h =>
    split at h
    · exact nomatch h
    · exact .ofSame (hbounds h)
  · next h =>
    split at h
    · exact nomatch h
    · exact .ofSame (hbounds h)
  next vs t h =>
  have ht : SameCmds s t := by
    split at h
    · exact (Bounds.ok.inj h).2 ▸ .refl s
    · exact hbounds h
  have hread := ht.trans (.readEntries t x.src d)
  split
  · next h =>
    rw [h] at hread
    exact .ofSame hread
  · next h =>
    rw [h] at hread
    exact .ofSame hread
  next es u h =>
  rw [h] at hread
  extract_lets v l deals
  have hv : Moves s v := Moves.trans (.ofSame hread) (.modCmd (fun _ => rfl) fun b hs x hx hi => hs x hx hi)
  split
  · exact hv
  split
  · exact hv
  split
  · exact hv
  split
  · exact hv
  · exact hv.trans (.layerStart _ _ _ _ _)

/-! ## A chain -/

theorem Moves.chainGo (id n : Nat) (s : State) : Moves s (State.chainGo id n s) := by
  induction n generalizing s with
  | zero => exact .refl s
  | succ n ih =>
    unfold State.chainGo
    split
    · exact .refl s
    next x _ =>
    split
    · exact (Ends.endExec _ _ _ _).toMoves
    next st d rest _ =>
    extract_lets index next after
    have hnext (u : State) : Moves u (next u) := .modCmd (fun _ => rfl) fun b hs x hx hi => hs x hx hi
    have hafter (u : State) (st det : Nat) : Moves u (after u st det) := by
      simp only [after]
      have ht := (hnext u).trans (Settles.noteLayer (next u) id st index).toMoves
      split
      · exact ht.trans (Ends.endExec _ _ _ _).toMoves
      · exact ht.trans (ih _)
    split
    · exact hafter _ _ _
    split
    · exact .refl s
    split
    · exact hafter _ _ _
    have hbegin := Moves.layerBegin s id d index
    split
    · next h =>
      rw [h] at hbegin
      exact hbegin.trans (hnext _)
    · next h =>
      rw [h] at hbegin
      exact hbegin.trans (hafter _ _ _)
    · next h =>
      rw [h] at hbegin
      exact hbegin

theorem Settles.chainGo (id n : Nat) (s : State) : Settles s (State.chainGo id n s) := by
  refine ⟨.chainGo _ _ _, fun hs => ?_⟩
  have h : Ends s (State.chainGo id n s) := by
    cases n with
    | zero => exact .refl s
    | succ n =>
      unfold State.chainGo
      split
      · exact .refl s
      next x hx =>
      rw [hs x (List.mem_of_find?_eq_some hx)]
      exact .endExec _ _ _ _
  exact ⟨h.chains hs, h.preds⟩

/-! ## Commands looked at -/

theorem Settles.layerEnd (s : State) (id st det : Nat) : Settles s (s.layerEnd id st det) := by
  have h := layerEnd_ended s id st det
  generalize s.layerEnd id st det = t at h ⊢
  cases h with
  | ends h => exact .ofSteps h
  | stops i st det h _ _ => exact ((Settles.ofSteps h).trans (.noteLayer _ _ _ _)).trans (.ofSteps (Ends.endExec _ _ _ _))
  | goesOn i st n h _ _ => exact ((Settles.ofSteps h).trans (.noteLayer _ _ _ _)).trans (.chainGo _ _ _)

theorem Settles.settleCmd (s : State) (id : Nat) : Settles s (s.settleCmd id) := by
  have h := settleCmd_settled s id
  generalize s.settleCmd id = r at h ⊢
  cases h with
  | ends h => exact .ofSteps h
  | layerEnd st => exact .layerEnd _ _ _ _
  | goesOn n _ _ => exact .chainGo _ _ _
  | judged _ _ _ h => exact .ofSteps h
  | judgedEnd st _ _ _ h => exact (Settles.ofSteps h).trans (.layerEnd _ _ _ _)

theorem Settles.settleCmds (s : State) : Settles s s.settleCmds := .foldl _ .settleCmd _ _

theorem Settles.settleWaiting (s : State) : Settles s s.settleWaiting := .foldl _ .settleCmd _ _

theorem layerEnd_layerRun {s : State} {id st det : Nat} {x : Cmd} (hx : s.cmd id = some x) (hop : x.op = 0x30) :
    Ends s (s.layerEnd id st det) := by
  unfold State.layerEnd
  rw [hx]
  split
  · next y l hy _ =>
    extract_lets t w
    have ht : Ends s t := ite_keeps (Ends s) (.raise _ _ _) (.refl s)
    rw [← Option.some.inj hy, hop]
    exact ht.trans (.endExec _ _ _ _)
  · exact .endExec _ _ _ _

/-- A LAYER_RUN that is looked at: its layer stays in its run and its batch, with what it still has to do. -/
theorem settleCmd_layerRun {s : State} {id : Nat} {x : Cmd} {l : Layer} (hx : s.cmd id = some x) (hl : x.layer = some l) (hop : x.op = 0x30) :
    ∃ y k, (s.settleCmd id).cmd id = some y ∧ y.layer = some k ∧ Layer.SameBatch l k ∧ k.todo = l.todo := by
  have hends {t : State} (h : Ends s t) : ∃ y k, t.cmd id = some y ∧ y.layer = some k ∧ Layer.SameBatch l k ∧ k.todo = l.todo := by
    obtain ⟨y, k, hy, -, hk, rfl⟩ := h.layer id x l hx hl
    exact ⟨y, l, hy, hk, Goes.sameBatch.refl l, rfl⟩
  have hjudged {t : State} {z : Cmd} {m : Layer} (hz : s.cmd id = some z) (hm : z.layer = some m) (htodo : m.todo = [])
      (h : Steps Layer.SameBatch s t) : ∃ y k, t.cmd id = some y ∧ y.layer = some k ∧ Layer.SameBatch l k ∧ k.todo = l.todo := by
    obtain ⟨y, k, hy, -, hk, hlk⟩ := h.layer id x l hx hl
    have hml : l = m := by
      rw [hx, Option.some.injEq] at hz
      rw [← hz, hl, Option.some.injEq] at hm
      exact hm
    have hkt : k.todo = [] := hlk.todo.elim (fun e => e.trans (hml ▸ htodo)) (fun e => e)
    exact ⟨y, k, hy, hk, hlk, hkt.trans (hml ▸ htodo).symm⟩
  have hno {z : Cmd} (hz : s.cmd id = some z) (h : z.op = 0x31) : False := by
    rw [hx, Option.some.injEq] at hz
    rw [← hz, hop] at h
    exact absurd h (by decide)
  have h := settleCmd_settled s id
  generalize s.settleCmd id = r at h ⊢
  cases h with
  | ends h => exact hends h
  | layerEnd st => exact hends (layerEnd_layerRun hx hop)
  | goesOn n hz h => exact (hno hz h).elim
  | judged hz hm htodo h => exact hjudged hz hm htodo h
  | @judgedEnd z m t st hz hm htodo h =>
    obtain ⟨y, -, hy, hyop, -⟩ := h.layer id x l hx hl
    exact hjudged hz hm htodo (Ends.then .sameBatch h (layerEnd_layerRun hy (hyop.trans hop)))

end Sys2Proof.Machine
end

section
/-!
O37: the events of execution-class commands.
-/

namespace Sys2Proof.Machine

/-- What an event of a command makes of the commands, the doorbells and the lists. -/
theorem Gives.ofEvent {i : Instr} {s u : State} {P : State → Prop} (h : exec i s = s.keepEdge (s.keepFabric (s.keepPower (.next u))))
    (hp : ∀ t : State, SameCmds u t → t.doorbells = u.doorbells → t.lists = u.lists → P t) : Gives i s P :=
  ⟨_, h, hp _ (by constructor <;> simp) (by simp) (by simp)⟩

/-! ## Doorbells -/

theorem signalDoorbell_adds {s : State} {i c id v : Nat} (h : s.doorbells[i]? = some (.signal c (some id) v)) :
    Gives (.completionDoorbell i) s (fun t => t.doorbells = s.doorbells.eraseIdx i ∧
      t.cmds = s.cmds.map (fun x => if x.id = id then { x with sum := x.sum + v } else x)) := by
  have hexec : exec (.completionDoorbell i) s = s.keepEdge (s.keepFabric (s.keepPower (.next
      (({ s with doorbells := s.doorbells.eraseIdx i } : State).modCmd id (fun x => { x with sum := x.sum + v }))))) := by
    show execCompletionDoorbell i s = _
    rw [execCompletionDoorbell, h]
  exact .ofEvent hexec fun t hsame hbells _ => ⟨hbells, hsame.cmds⟩

/-- A command that has ended, or only waits for what it has written, is left as it is. -/
theorem settleCmd_over {s : State} (h : ∀ x ∈ s.cmds, x.ended = true ∨ x.closing = true) (id : Nat) : s.settleCmd id = s := by
  unfold State.settleCmd
  split
  · rfl
  · next x hx => rw [if_pos (h x (List.mem_of_find?_eq_some hx))]

theorem settleCmds_over {s : State} (h : ∀ x ∈ s.cmds, x.ended = true ∨ x.closing = true) : s.settleCmds = s :=
  List.foldl_fixed' (settleCmd_over h) _

theorem Tab.get_map {α β : Type} (d : Nat → α) (t : Tab α) (f : α → β) (k : Nat) :
    Tab.get (fun i => f (d i)) (t.map (fun e : Nat × α => (e.1, f e.2))) k = f (Tab.get d t k) := by
  unfold Tab.get
  rw [List.find?_map]
  have h : (fun x : Nat × β => x.1 == k) ∘ (fun e : Nat × α => (e.1, f e.2)) = fun e => e.1 == k := rfl
  rw [h]
  cases t.find? (fun e => e.1 == k) <;> rfl

/-- A list as a doorbell of the list at `a` leaves it. -/
def WorkList.rung (a : Nat) (w : WorkList) : WorkList := if w.addr = a ∧ w.dev.isNone then { w with done := true } else w

/-- The lists with the one at `a` done. -/
def State.listDone (s : State) (a : Nat) : State :=
  { s with lists := s.lists.map fun e : Nat × Option WorkList => (e.1, e.2.map (WorkList.rung a)) }

theorem listDone_list (s : State) (a l : Nat) : (s.listDone a).list l = (s.list l).map (WorkList.rung a) :=
  Tab.get_map (fun _ => none) s.lists (Option.map (WorkList.rung a)) l

theorem listDoorbell_marks {s : State} {i a l : Nat} {w : WorkList} (h : s.doorbells[i]? = some (.list a))
    (hover : ∀ x ∈ s.cmds, x.ended = true ∨ x.closing = true) (hlist : s.list l = some w) (ha : w.addr = a) (hdev : w.dev = none) :
    Gives (.completionDoorbell i) s (fun t => t.doorbells = s.doorbells.eraseIdx i ∧ t.list l = some { w with done := true }) := by
  have hexec : exec (.completionDoorbell i) s = s.keepEdge (s.keepFabric (s.keepPower (.next
      (({ s with doorbells := s.doorbells.eraseIdx i } : State).listDone a).settleCmds))) := by
    show execCompletionDoorbell i s = _
    rw [execCompletionDoorbell, h]
    rfl
  rw [settleCmds_over (s := ({ s with doorbells := s.doorbells.eraseIdx i } : State).listDone a) hover] at hexec
  refine .ofEvent hexec fun t _ hbells hlists => ⟨hbells, ?_⟩
  have hrung : t.list l = (s.list l).map (WorkList.rung a) := by
    rw [State.list, hlists]
    exact listDone_list s a l
  rw [hrung, hlist]
  simp [WorkList.rung, ha, hdev]

/-! ## A dispatch held at a format barrier -/

theorem physOf_cbump (s : State) (c off n i : Nat) (h : CORE_ID ≠ off) : (s.cbump c off n).physOf i = s.physOf i := by
  have hreg (d : Nat) : (s.cbump c off n).creg d CORE_ID = s.creg d CORE_ID := by
    simp only [State.creg, State.cbump, State.core_modCore]
    split
    · next hd => rw [hd, CoreState.bump, CoreState.reg_setReg, if_neg h]
    · rfl
  have hjoin (d : Nat) : ((s.cbump c off n).core d).joining = (s.core d).joining := by
    simp only [State.cbump, State.core_modCore]
    split
    · next hd =>
      rw [hd]
      rfl
    · rfl
  simp only [State.physOf, State.coreSt, State.logicalOf, hreg, hjoin]

/-- The one dispatch there is, pending and not held, goes to a core that can take it. -/
theorem pump_sends {s : State} {d : Dispatch} {c : Nat} (hdisp : s.disp = [d]) (hst : d.st = 0) (hheld : d.held = none)
    (hdue : (((s.cmd d.cmd).bind (·.layer)).map s.windowDue).getD false = false) (hphys : s.physOf d.logical = some c)
    (hloaded : (s.core c).loaded = false) (hbell : (s.core c).doorbell = none) :
    s.pump = { s.send d c with disp := [{ d with st := 1, phys := c }] } := by
  have hcore : s.coreFor d = some c := by
    simp [State.coreFor, hphys, hloaded, hbell]
  simp [State.pump, hdisp, List.range_succ, hst, hheld, hdue, hcore, -Option.map_bind]

/-- A dispatch that is held no more. -/
def Dispatch.released (d : Dispatch) : Dispatch := { d with held := none }

/-- The only dispatch there is released on core `c`, its idle cycles counted. -/
def State.released (s : State) (c : Nat) (d : Dispatch) : State :=
  ({ s with disp := [d.released] } : State).cbump c CORE_ACC_FBAR (s.now - max (d.held.getD s.now) (s.core c).idleSince)

theorem formatBarrierRelease_sends {s : State} {c : Nat} {d : Dispatch} (hdisp : s.disp = [d]) (hlog : d.logical = s.logicalOf c)
    (hheld : d.held.isSome = true) (hst : d.st = 0) (hcore : s.coreSt c = 0) (hphys : s.physOf (s.logicalOf c) = some c)
    (hloaded : (s.core c).loaded = false) (hbell : (s.core c).doorbell = none) (hret : (s.core c).retired = true)
    (hset : (s.core c).settled = true) (hdue : (((s.cmd d.cmd).bind (·.layer)).map s.windowDue).getD false = false) :
    Gives (.formatBarrierRelease c) s (fun t => t.disp = [{ d with held := none, st := 1, phys := c }] ∧
      (t.core c).doorbell = some (d.cmd, d.ticket)) := by
  have hexec : exec (.formatBarrierRelease c) s = s.inCores (.next (s.released c d).pump) := by
    show execFormatBarrierRelease c s = _
    simp [execFormatBarrierRelease, hdisp, hlog, hheld, hst, hcore, hloaded, hbell, hret, hset, State.released, Dispatch.released]
  have hk : (s.released c d).core c = (s.core c).bump c CORE_ACC_FBAR (s.now - max (d.held.getD s.now) (s.core c).idleSince) := by
    simp only [State.released, State.cbump, State.core_modCore, if_pos]
    rfl
  have hp : (s.released c d).physOf d.released.logical = some c := by
    rw [show d.released.logical = s.logicalOf c from hlog]
    exact (physOf_cbump _ _ _ _ _ (by decide)).trans hphys
  have hpump := pump_sends (s := s.released c d) (d := d.released) (c := c) rfl hst rfl hdue hp (by rw [hk]; exact hloaded)
    (by rw [hk]; exact hbell)
  rw [hpump] at hexec
  exact ⟨_, hexec.trans (State.inCores_next _ _), rfl, send_doorbell (s.released c d) d.released c⟩

/-! ## Finished dispatches -/

/-- A command that has not ended completes. -/
theorem finish_posts {s : State} {id : Nat} {x : Cmd} (st det r : Nat) (hx : s.cmd id = some x) (hended : x.ended = false) :
    ∃ p, (s.finish id st det r).posting = s.posting ++ [p] ∧ p.src = x.src ∧ p.id = some id ∧ p.status = st ∧ p.tag = x.tag ∧
      p.result = r := by
  have hfind : s.cmds.find? (fun x => x.id == id && !x.ended) = some x := by
    rw [State.cmd, List.find?_eq_some_iff_append] at hx
    obtain ⟨hid, as, bs, hcmds, has⟩ := hx
    rw [List.find?_eq_some_iff_append]
    refine ⟨by rw [hid, hended]; rfl, as, bs, hcmds, fun a ha => ?_⟩
    have h := has a ha
    rw [Bool.not_eq_true'] at h
    rw [h]
    rfl
  unfold State.finish
  rw [hfind]
  exact ⟨_, congrArg (· ++ _) (SameCmds.countRefused _ x.src st).posting, rfl, rfl, rfl, rfl, rfl⟩

theorem endExec_posts {s : State} {id : Nat} {x : Cmd} (st det : Nat) (hx : s.cmd id = some x) (hended : x.ended = false)
    (hacks : x.acks = 0) : ∃ p, (s.endExec id st det).posting = s.posting ++ [p] ∧ p.src = x.src ∧ p.id = some id ∧ p.status = st ∧
      p.tag = x.tag ∧ p.result = x.execResult := by
  have hfree := SameCmds.freeStaging s id
  have hy : (s.freeStaging id).cmd id = some x := by
    rw [State.cmd, hfree.cmds]
    exact hx
  have h := finish_posts st det x.execResult hy hended
  rw [hfree.posting] at h
  unfold State.endExec
  simp only [hy]
  rw [State.conclude, hy]
  simp only [hacks, if_true]
  exact h

/-- What a TILE_RUN that still goes on has of a command. -/
structure TileRunning (x y : Cmd) : Prop where
  src : y.src = x.src
  op : y.op = 0x32
  tag : y.tag = x.tag
  layer : y.layer = none
  ended : y.ended = false
  closing : y.closing = false
  stopped : y.stopped = false
  lists : y.lists = x.lists
  acks : y.acks = x.acks
  sum : y.sum = x.sum

/-- Nothing is dispatching. -/
theorem pump_done {s : State} (h : ∀ d ∈ s.disp, d.st = 2) : s.pump = s := by
  refine List.foldl_fixed' (fun j => ?_) _
  split
  · rfl
  · next d hd => rw [if_pos (.inl (by rw [h d (List.mem_of_getElem? hd)]; decide))]

theorem stopForRerun_noLayer {s : State} {id : Nat} (h : (s.cmd id).bind (·.layer) = none) : s.stopForRerun id = s := by
  unfold State.stopForRerun
  rw [h]

/-- A TILE_RUN of which nothing is dispatching ends, with its status. -/
theorem settleCmd_tileRun {s : State} {id : Nat} {x y : Cmd} (hy : s.cmd id = some y) (hrun : TileRunning x y) (hacks : x.acks = 0)
    (hdisp : s.dispatching id = false) (hst : isError y.status = true ∨ (y.status = stOk ∧ x.lists = [])) :
    ∃ p, (s.settleCmd id).posting = s.posting ++ [p] ∧ p.src = x.src ∧ p.id = some id ∧ p.status = y.status ∧ p.tag = x.tag ∧
      p.result = x.sum % 2 ^ 32 := by
  have hresult : y.execResult = x.sum % 2 ^ 32 := by
    rw [Cmd.execResult, hrun.op, hrun.sum]
    rfl
  have hend : s.settleCmd id = s.endExec id y.status 0 := by
    unfold State.settleCmd
    rw [hy]
    simp only [hrun.ended, hrun.closing, hrun.stopped, hdisp, Bool.false_eq_true, or_self, false_and, if_false]
    rcases hst with herr | ⟨hok, hlists⟩
    · rw [if_pos herr, State.layerEnd, hy]
      simp only [Option.bind_some, hrun.layer]
    · have hdone : s.listsDone y = true := by
        rw [State.listsDone, hrun.lists, hlists]
        rfl
      simp only [hok, hrun.layer, hrun.op, hdone, and_self, if_true]
      rfl
  rw [hend]
  have h := endExec_posts y.status 0 hy hrun.ended (hrun.acks.trans hacks)
  rw [hrun.src, hrun.tag, hresult] at h
  exact h

/-- What a finished dispatch reports to a command that runs no layer. -/
theorem mergeReport_tileRun {s : State} {id : Nat} {x : Cmd} (d : Dispatch) (r : DispatchReport) (hx : s.cmd id = some x)
    (hop : x.op = 0x32) (hlayer : x.layer = none) (hended : x.ended = false) (hclosing : x.closing = false) (hstopped : x.stopped = false) :
    ∃ y, (s.mergeReport x d r).cmd id = some y ∧ TileRunning x y ∧ y.status = x.status ∧
      (s.mergeReport x d r).disp = s.disp ∧ (s.mergeReport x d r).posting = s.posting ∧ (s.mergeReport x d r).completes = s.completes := by
  unfold State.mergeReport
  extract_lets l first t
  have hl : l = none := hlayer
  rw [hl]
  have hcmd : t.cmd id = _ := cmd_modCmd s x.id id (fun _ => rfl)
  rw [hx, Option.map_some, if_pos (cmd_id hx).symm] at hcmd
  exact ⟨_, hcmd, ⟨rfl, hop, rfl, by rw [hlayer]; rfl, hended, hclosing, hstopped, rfl, rfl, rfl⟩, rfl, rfl, rfl, rfl⟩

/-- The last dispatch of a TILE_RUN that is marked and reported: the command ends, and others may after it. -/
theorem tileRun_decides {s u : State} {id : Nat} {x y : Cmd} (hposting : u.posting = s.posting) (hcompletes : u.completes = [])
    (hy : u.cmd id = some y) (hrun : TileRunning x y) (hacks : x.acks = 0) (hdisp : ∀ d ∈ u.disp, d.st = 2)
    (hst : isError y.status = true ∨ (y.status = stOk ∧ x.lists = [])) :
    let t := ((u.stopForRerun id).pump.settleCmd id).settleWaiting
    t.completes = [] ∧ ∃ p, Decides s t [p] ∧ p.src = x.src ∧ p.id = some id ∧ p.status = y.status ∧ p.tag = x.tag ∧
      p.result = x.sum % 2 ^ 32 := by
  have hnone : (u.cmd id).bind (·.layer) = none := by
    rw [hy]
    exact hrun.layer
  have hidle : u.dispatching id = false := by
    rw [State.dispatching, List.any_eq_false]
    intro d hd
    rw [hdisp d hd]
    simp
  rw [stopForRerun_noLayer hnone, pump_done hdisp]
  have hsettle := (Settles.settleCmd u id).trans (.settleWaiting _)
  obtain ⟨p, hp, hparts⟩ := settleCmd_tileRun hy hrun hacks hidle hst
  obtain ⟨more, hmore⟩ := (Settles.settleWaiting (u.settleCmd id)).posting
  refine ⟨hsettle.completes.trans hcompletes, p, ⟨[p] ++ more, ?_, List.sublist_append_left _ _⟩, hparts⟩
  rw [hmore, hp, hposting, List.append_assoc]

/-- The only dispatch there is, marked and reported. -/
def State.marked (s : State) (x : Cmd) (d : Dispatch) (r : DispatchReport) : State :=
  ({ s with disp := [{ d with st := 2 }] } : State).mergeReport x d r

theorem dispatchComplete_eq {s u : State} {c id : Nat} {x : Cmd} {d : Dispatch} {r : DispatchReport} {st tm : Nat}
    (hends : s.completes = [⟨c, some id, st, r, tm⟩]) (hu : ({ s with completes := [] } : State) = u) (hdisp : s.disp = [d])
    (hcmd : d.cmd = id) (hphys : d.phys = c) (hdst : d.st = 1) (hx : u.cmd id = some x)
    (hfence : st = stOk ∨ ∀ f ∈ s.fenceDue, f.1 ≠ c) (hstage : st = stOk ∨ u.restage x d st (u.core c) = none) :
    exec (.dispatchComplete 0) s = s.keepEdge (s.keepFabric (s.keepPower (.next
      ((((if st = stOk then u.marked x d r else (u.marked x d r).failSince id st tm d.logical).stopForRerun id).pump.settleCmd
        id).settleWaiting)))) := by
  have hnofence : ¬ (st ≠ stOk ∧ s.fenceDue.any (fun f => f.1 == c) = true) := by
    rintro ⟨hne, hany⟩
    obtain ⟨f, hf, hfc⟩ := List.any_eq_true.1 hany
    exact hfence.elim hne fun h => h f hf (beq_iff_eq.1 hfc)
  have hnone : (if st = stOk then none else u.restage x d st (u.core c)) = none := by
    split
    · rfl
    · next h => exact hstage.resolve_left h
  have hrun : s.disp.findIdx? (fun e => some e.cmd == some id && e.phys == c && e.st == 1) = some 0 := by
    simp [hdisp, List.findIdx?_cons, hcmd, hphys, hdst]
  have hset : s.disp.set 0 { d with st := 2 } = [{ d with st := 2 }] := by
    rw [hdisp, List.set_cons_zero]
  have hget : s.disp[0]? = some d := by
    rw [hdisp, List.getElem?_cons_zero]
  show execDispatchComplete 0 s = _
  unfold execDispatchComplete
  rw [hends]
  simp only [List.getElem?_cons_zero, List.eraseIdx_cons_zero, Option.bind_some, hu, hx, hrun, hget, hnone, hset, cmd_id hx]
  rw [if_neg hnofence]
  subst hu
  rfl

theorem dispatchComplete_ends {s : State} {c id : Nat} {x : Cmd} {d : Dispatch} {r : DispatchReport} {tm : Nat}
    (hends : s.completes = [⟨c, some id, stOk, r, tm⟩]) (hdisp : s.disp = [d]) (hcmd : d.cmd = id) (hphys : d.phys = c) (hdst : d.st = 1)
    (hx : s.cmd id = some x) (hop : x.op = 0x32) (hlayer : x.layer = none) (hended : x.ended = false) (hclosing : x.closing = false)
    (hstopped : x.stopped = false) (hstatus : x.status = stOk) (hlists : x.lists = []) (hacks : x.acks = 0) :
    Gives (.dispatchComplete 0) s (fun t => t.completes = [] ∧ ∃ p, Decides s t [p] ∧ p.src = x.src ∧ p.id = some id ∧ p.status = stOk ∧
      p.tag = x.tag ∧ p.result = x.sum % 2 ^ 32) := by
  have hexec := dispatchComplete_eq hends rfl hdisp hcmd hphys hdst hx (.inl rfl) (.inl rfl)
  rw [if_pos rfl] at hexec
  obtain ⟨y, hy, hrun, hst, hd, hp, hc⟩ :=
    mergeReport_tileRun (s := { s with completes := [], disp := [{ d with st := 2 }] }) d r hx hop hlayer hended hclosing hstopped
  obtain ⟨hcompletes, p, ⟨more, hmore, hsub⟩, hsrc, hid, hpst, hparts⟩ := tileRun_decides (s := s) hp hc hy hrun hacks
    (by rw [hd]; simp) (.inr ⟨hst.trans hstatus, hlists⟩)
  refine .ofEvent hexec fun t hsame _ _ =>
    ⟨hsame.completes.trans hcompletes, p, ⟨more, hsame.posting.trans hmore, hsub⟩, hsrc, hid, ?_, hparts⟩
  rw [hpst, hst, hstatus]

/-- A command that has failed, its layer with nothing more to do. -/
def Cmd.failedAt (st cycle core : Nat) (x : Cmd) : Cmd :=
  { x.failAt st cycle core with layer := x.layer.map fun l => { l with todo := [] } }

theorem failedAt_first {x : Cmd} (st cycle core : Nat) (hstatus : x.status = stOk) (hlayer : x.layer = none) :
    x.failedAt st cycle core = { x with status := st, failed := some (cycle, core), layer := none } := by
  simp only [Cmd.failedAt, Cmd.failAt, hstatus, hlayer]
  rfl

theorem dispatchComplete_fails {s : State} {c id : Nat} {x : Cmd} {d : Dispatch} {r : DispatchReport} {st tm : Nat}
    (hends : s.completes = [⟨c, some id, st, r, tm⟩]) (hne : st ≠ stOk) (hmiss : st ≠ stRangeMissFinal) (hdisp : s.disp = [d])
    (hcmd : d.cmd = id) (hphys : d.phys = c) (hdst : d.st = 1) (hx : s.cmd id = some x) (hop : x.op = 0x32) (hlayer : x.layer = none)
    (hended : x.ended = false) (hclosing : x.closing = false) (hstopped : x.stopped = false) (hstatus : x.status = stOk)
    (hacks : x.acks = 0) (hfence : ∀ f ∈ s.fenceDue, f.1 ≠ c)
    (hstage : ({ s with completes := [] } : State).restage x d st (s.core c) = none) :
    Gives (.dispatchComplete 0) s (fun t => t.completes = [] ∧ ∃ p, Decides s t [p] ∧ p.src = x.src ∧ p.id = some id ∧ p.status = st ∧
      p.tag = x.tag) := by
  have hexec := dispatchComplete_eq hends rfl hdisp hcmd hphys hdst hx (.inr hfence) (.inr hstage)
  rw [if_neg hne] at hexec
  obtain ⟨y, hy, hrun, hst, hd, hp, hc⟩ :=
    mergeReport_tileRun (s := { s with completes := [], disp := [{ d with st := 2 }] }) d r hx hop hlayer hended hclosing hstopped
  have hz := cmd_modCmd (State.marked { s with completes := [] } x d r) id id (f := Cmd.failedAt st (tm / 2) d.logical)
    (fun z => (Cmd.failAt_parts _ _ _ z).1)
  rw [State.marked, hy, Option.map_some, if_pos rfl, failedAt_first _ _ _ (hst.trans hstatus) hrun.layer] at hz
  have hdone : ∀ e ∈ ((State.marked { s with completes := [] } x d r).failSince id st tm d.logical).disp, e.st = 2 := by
    intro e he
    have h : e ∈ (State.marked { s with completes := [] } x d r).disp := List.mem_of_mem_filter he
    rw [State.marked, hd] at h
    rw [List.mem_singleton.1 h]
  obtain ⟨hcompletes, p, ⟨more, hmore, hsub⟩, hsrc, hid, hpst, htag, -⟩ := tileRun_decides (s := s)
    (u := (State.marked { s with completes := [] } x d r).failSince id st tm d.logical) hp hc hz
    ⟨hrun.src, hrun.op, hrun.tag, rfl, hrun.ended, hrun.closing, hrun.stopped, hrun.lists, hrun.acks, hrun.sum⟩ hacks hdone
    (.inl (by simp [isError, hne, hmiss]))
  exact .ofEvent hexec fun t hsame _ _ =>
    ⟨hsame.completes.trans hcompletes, p, ⟨more, hsame.posting.trans hmore, hsub⟩, hsrc, hid, hpst, htag⟩

/-! ## The steps of a layer -/

section
variable {s : State} {id : Nat} {x : Cmd} {l : Layer}

/-- A LAYER_RUN whose run starts and that is looked at stays in its run. -/
theorem runLayer_settles (hx : s.cmd id = some x) (hl : x.layer = some l) (hop : x.op = 0x30) :
    ∃ y k, ((s.runLayer id).settleCmd id).cmd id = some y ∧ y.layer = some k ∧ Layer.SameRun l k := by
  obtain ⟨y, k, hy, hyop, hk, hlk⟩ := (Steps.runLayer s id).layer id x l hx hl
  obtain ⟨z, m, hz, hm, hkm, -⟩ := settleCmd_layerRun hy hk (hyop.trans hop)
  exact ⟨z, m, hz, hm, Goes.sameRun.trans hlk hkm.toSameRun⟩

/-- A LAYER_RUN that takes up a batch and that is looked at has the batch, and what it had still to do. -/
theorem batch_settles {u v : State} {m : Layer} (hx : s.cmd id = some x) (hl : x.layer = some l) (hop : x.op = 0x30) (hu : SameCmds s u)
    (hv : Ends (u.modLayer id fun _ => m) v) :
    ∃ y k, (v.settleCmd id).cmd id = some y ∧ y.layer = some k ∧ k.batch = m.batch ∧ k.todo = m.todo := by
  have hmod : (u.modLayer id fun _ => m).cmd id = some { x with layer := some m } := by
    have h : (u.modLayer id fun _ => m).cmd id = _ := cmd_modCmd u id id (fun _ => rfl)
    have hux : u.cmd id = some x := by
      rw [State.cmd, hu.cmds]
      exact hx
    rw [hux, Option.map_some, if_pos rfl, hl] at h
    exact h
  obtain ⟨y, k, hy, hyop, hk, rfl⟩ := hv.layer id _ m hmod rfl
  obtain ⟨z, n, hz, hn, hmn, htodo⟩ := settleCmd_layerRun hy hk (hyop.trans hop)
  exact ⟨z, n, hz, hn, hmn.batch, htodo⟩

/-- A layer as its rerun starts. -/
def Layer.again (l : Layer) : Layer :=
  { l with rerun := true, missed := false, judged := false, obits := l.desc.fbObits, predicting := false }

/-- The output handles of a layer bound anew, and the staging of its command freed. -/
def State.reboundFor (s : State) (id : Nat) (l : Layer) : State :=
  let t := s.setHandles (l.desc.hnd 4) { rebase (s.handle (l.desc.hnd 4)) (l.desc.at' 0x050 8)
    (ceilDiv (l.m * ceilDiv (l.n * l.desc.fbObits) 8) 64) with bits := l.desc.fbObits }
  let t := t.setHandles (l.desc.hnd 5) (rebase (s.handle (l.desc.hnd 5)) (l.desc.at' 0x058 8) (s.handle (l.desc.hnd 5)).length)
  t.freeStaging id

/-- A command as its layer's rerun starts. -/
def Cmd.again (shown : Cmd → Nat) (l : Layer) (x : Cmd) : Cmd := { x with clips := 0, shown := shown x, done := 0, layer := some l.again }

/-- The commands as a rerun starts, FORMAT_FALLBACK raised. -/
def State.rerunNoted (s : State) (id : Nat) (l : Layer) : State :=
  let t := (s.reboundFor id l).raise id 1
  t.modCmd id (Cmd.again t.progressOf l)

/-- The state in which a rerun starts. -/
def State.rerunFrom (s : State) (id : Nat) (l : Layer) : State :=
  { s.rerunNoted id l with disp := (s.rerunNoted id l).disp.filter (fun e => e.cmd != id) }

theorem SameCmds.reboundFor (s : State) (id : Nat) (l : Layer) : SameCmds s (s.reboundFor id l) :=
  ((SameCmds.setHandles _ _ _).trans (.setHandles _ _ _)).trans (.freeStaging _ _)

theorem rerunFrom_cmds (s : State) (id : Nat) (l : Layer) : (s.rerunFrom id l).cmds = (s.rerunNoted id l).cmds := by
  unfold State.rerunFrom
  generalize s.rerunNoted id l = t
  rfl

theorem rerunFrom_cmd (hx : s.cmd id = some x) :
    ∃ y, (s.rerunFrom id l).cmd id = some y ∧ y.op = x.op ∧ y.layer = some l.again := by
  have hux : (s.reboundFor id l).cmd id = some x := by
    rw [State.cmd, (SameCmds.reboundFor s id l).cmds]
    exact hx
  have hcmd : (s.rerunFrom id l).cmd id = (s.rerunNoted id l).cmd id := by
    rw [State.cmd, rerunFrom_cmds, State.cmd]
  rw [hcmd]
  unfold State.rerunNoted
  generalize s.reboundFor id l = u at hux ⊢
  have hraise : (u.raise id 1).cmd id = _ := cmd_modCmd u id id (fun _ => rfl)
  rw [hux, Option.map_some, if_pos rfl] at hraise
  extract_lets t
  have h : (t.modCmd id (Cmd.again t.progressOf l)).cmd id = _ := cmd_modCmd t id id (fun _ => rfl)
  rw [hraise, Option.map_some, if_pos rfl] at h
  exact ⟨_, h, rfl, rfl⟩

theorem rerunFrom_raised (s : State) (id : Nat) (l : Layer) : (s.rerunFrom id l).AllRaised id 0 := by
  unfold State.AllRaised
  rw [rerunFrom_cmds]
  have h : Moves ((s.reboundFor id l).raise id 1) (s.rerunNoted id l) := .modCmd (fun _ => rfl) fun _ hs x hx hi => hs x hx hi
  exact h.raised id 0 (allRaised_raise _ _ _ _ rfl)

theorem layerRerun_reruns (hx : s.cmd id = some x) (hl : x.layer = some l) (hop : x.op = 0x30) (hended : x.ended = false)
    (hclosing : x.closing = false) (hstopped : x.stopped = false) (hok : isError x.status = false) (hidle : s.dispatching id = false)
    (hrerun : l.reruns = true) :
    Gives (.layerRerun id) s (fun t => ∃ y k, t.cmd id = some y ∧ y.layer = some k ∧ k.rerun = true ∧ k.obits = l.desc.fbObits ∧
      y.raised.testBit 0 = true) := by
  have hexec : exec (.layerRerun id) s = s.keepEdge (s.keepFabric (s.keepPower (.next (((s.rerunFrom id l).runLayer id).settleCmd id)))) := by
    show execLayerRerun id s = _
    unfold execLayerRerun
    simp only [hx, Option.bind_some, hl]
    rw [if_neg (by simp [hended, hclosing, hstopped, hok, hrerun, hidle])]
    rfl
  obtain ⟨y, hy, hyop, hyl⟩ := rerunFrom_cmd (l := l) hx
  obtain ⟨z, k, hz, hk, hrun⟩ := runLayer_settles hy hyl (hyop.trans hop)
  have hraised := (Settles.settleCmd _ id).raised id 0 ((Steps.runLayer _ id).raised id 0 (rerunFrom_raised s id l))
  refine .ofEvent hexec fun t hsame _ _ => ⟨z, k, ?_, hk, hrun.rerun, hrun.obits, ?_⟩
  · rw [State.cmd, hsame.cmds]
    exact hz
  · exact hraised z (List.mem_of_find?_eq_some hz) (cmd_id hz)

theorem routedRound_dispatches {r : LTile} {rest : List LTile} {items : List Nat} {st : Nat} {y z : State} {a : Option Nat}
    (hx : s.cmd id = some x) (hl : x.layer = some l) (hop : x.op = 0x30) (hended : x.ended = false) (hclosing : x.closing = false)
    (hstopped : x.stopped = false) (hok : isError x.status = false) (hidle : s.dispatching id = false) (hrouted : l.desc.routed = true)
    (hpred : l.predicting = false) (htodo : l.todo = r :: rest)
    (hread : State.readItems l ((List.range r.ml).map (r.item + ·)) s = .ok (items, st) y) (hstage : y.stageBatch id l r = .ok a z) :
    Gives (.routedRound id) s (fun t => ∃ y k, t.cmd id = some y ∧ y.layer = some k ∧ k.batch = l.batch + 1 ∧
      (k.todo = rest ∨ k.todo = [])) := by
  have hexec : exec (.routedRound id) s = s.keepEdge (s.keepFabric (s.keepPower (.next ((s.roundNext id).settleCmd id)))) := by
    show execRoutedRound id s = _
    unfold execRoutedRound
    simp only [hx, Option.bind_some, hl]
    rw [if_neg (by simp [hended, hclosing, hstopped, hok, hrouted, hpred, hidle])]
  have hlay : (s.cmd id).bind (·.layer) = some l := by
    rw [hx]
    exact hl
  have hsame : SameCmds s z := by
    have h := SameCmds.readItems l ((List.range r.ml).map (r.item + ·)) s
    rw [hread] at h
    have h' := SameCmds.stageBatch y id l r
    rw [hstage] at h'
    exact h.trans h'
  obtain ⟨w, k, hw, hk, hbatch, hrest⟩ := batch_settles hx hl hop hsame (roundNext_ok hlay htodo hread hstage)
  refine .ofEvent hexec fun t ht _ _ => ⟨w, k, ?_, hk, hbatch, ?_⟩
  · rw [State.cmd, ht.cmds]
    exact hw
  · rw [hrest]
    exact ite_eq_or_eq _ _ _

theorem ledgeTileStage_dispatches {t0 : LTile} {rest : List LTile} {a : Option Nat} {u : State} (hx : s.cmd id = some x)
    (hl : x.layer = some l) (hop : x.op = 0x30) (hended : x.ended = false) (hclosing : x.closing = false) (hstopped : x.stopped = false)
    (hok : isError x.status = false) (hrouted : l.desc.routed = false) (hpred : l.predicting = false) (hrerun : l.reruns = false)
    (htodo : l.todo = t0 :: rest) (hstage : s.stageBatch id l t0 = .ok a u) :
    Gives (.ledgeTileStage id) s (fun t => ∃ y k, t.cmd id = some y ∧ y.layer = some k ∧ k.batch = l.batch + 1 ∧ k.todo = rest) := by
  have hexec : exec (.ledgeTileStage id) s = s.keepEdge (s.keepFabric (s.keepPower (.next ((s.stageNext id).settleCmd id)))) := by
    show execLedgeTileStage id s = _
    unfold execLedgeTileStage
    simp only [hx, Option.bind_some, hl]
    rw [if_neg (by simp [hended, hclosing, hstopped, hok, hrouted, hpred, hrerun])]
  have hlay : (s.cmd id).bind (·.layer) = some l := by
    rw [hx]
    exact hl
  have hsame := SameCmds.stageBatch s id l t0
  rw [hstage] at hsame
  obtain ⟨w, k, hw, hk, hbatch, hrest⟩ := batch_settles hx hl hop hsame (stageNext_ok hlay htodo hstage)
  refine .ofEvent hexec fun t ht _ _ => ⟨w, k, ?_, hk, hbatch, hrest⟩
  rw [State.cmd, ht.cmds]
  exact hw

/-- The plan that the inactive blocks of a layer make (R177). -/
def State.planFrom (s : State) (id : Nat) (l : Layer) : List (Nat × Bool) :=
  ((s.inactiveBlocks id l).zip (List.range (s.inactiveBlocks id l).length)).map
    (fun p => (p.1, p.2 % 2 ^ l.desc.at' 0x0B8 1 == 2 ^ l.desc.at' 0x0B8 1 - 1))

/-- A layer whose predictor has run. -/
def Layer.planned (plan : List (Nat × Bool)) (l : Layer) : Layer := { l with predicting := false, plan := plan }

theorem predSkipMapRead_plans (hx : s.cmd id = some x) (hl : x.layer = some l) (hop : x.op = 0x30) (hended : x.ended = false)
    (hclosing : x.closing = false) (hstopped : x.stopped = false) (hok : isError x.status = false) (hidle : s.dispatching id = false)
    (hpred : l.predicting = true) :
    Gives (.predSkipMapRead id) s (fun t => ∃ y k, t.cmd id = some y ∧ y.layer = some k ∧ k.predicting = false ∧
      k.plan = s.planFrom id l) := by
  have hexec : exec (.predSkipMapRead id) s =
      s.keepEdge (s.keepFabric (s.keepPower (.next (((s.modLayer id (Layer.planned (s.planFrom id l))).runLayer id).settleCmd id)))) := by
    show execPredSkipMapRead id s = _
    unfold execPredSkipMapRead
    simp only [hx, Option.bind_some, hl]
    rw [if_neg (by simp [hended, hclosing, hstopped, hok, hpred, hidle])]
    rfl
  have hmod : (s.modLayer id (Layer.planned (s.planFrom id l))).cmd id = _ := cmd_modCmd s id id (fun _ => rfl)
  rw [hx, Option.map_some, if_pos rfl, hl, Option.map_some] at hmod
  obtain ⟨z, k, hz, hk, hrun⟩ := runLayer_settles hmod rfl hop
  refine .ofEvent hexec fun t hsame _ _ => ⟨z, k, ?_, hk, hrun.predicting, hrun.plan⟩
  rw [State.cmd, hsame.cmds]
  exact hz

end

/-! ## The window of a prediction -/

/-- What every step of a fold keeps and one of them makes holds after it. -/
theorem foldl_reaches {α β : Type} (P : β → Prop) (f : β → α → β) (hf : ∀ b a, P b → P (f b a)) {l : List α} {a : α} (ha : a ∈ l)
    (hget : ∀ b, P (f b a)) (b : β) : P (l.foldl f b) := by
  obtain ⟨l₁, l₂, rfl⟩ := List.append_of_mem ha
  rw [List.foldl_append, List.foldl_cons]
  exact foldl_keeps P f hf l₂ _ (hget _)

/-- A command's share in its layer's prediction going off. -/
def State.predEnds (layer : Nat) (s : State) (x : Cmd) : State :=
  match x.layer with
  | some l => if l.desc.pred ∧ l.desc.layerId = layer ∧ !x.ended then (s.raise x.id 32).reshare x.id l else s
  | none => s

theorem Ends.predEnds (layer : Nat) (s : State) (x : Cmd) : Ends s (s.predEnds layer x) := by
  unfold State.predEnds
  split
  · exact ite_keeps (Ends s) (.disp (.raise _ _ _) _) (.refl s)
  · exact .refl s

theorem predEnds_raised {layer : Nat} {x : Cmd} {l : Layer} (hl : x.layer = some l) (hpred : l.desc.pred = true)
    (hlayer : l.desc.layerId = layer) (hended : x.ended = false) (s : State) : (s.predEnds layer x).AllRaised x.id 5 := by
  unfold State.predEnds
  rw [hl]
  simp only [hpred, hlayer, hended, Bool.not_false, and_self, if_true]
  exact allRaised_raise s x.id 32 5 rfl

/-- The prediction states with the window of a layer judged. -/
def State.windowJudged (s : State) (layer : Nat) (off : Bool) : State :=
  { s with preds := s.preds.map (fun q => if q.layer = layer then
      PredState.pour q.queue { q with inactive := q.inactive - 1024, misses := 0, off := q.off || off } else q) }

/-- The commands told where prediction has gone off. -/
def State.windowTold (s : State) (layer : Nat) (off : Bool) : State :=
  if !off then s.windowJudged layer off else s.cmds.foldl (State.predEnds layer) (s.windowJudged layer off)

theorem Ends.windowTold (s : State) (layer : Nat) (off : Bool) : Ends (s.windowJudged layer off) (s.windowTold layer off) :=
  ite_keeps (Ends _) (.refl _) (.foldl _ (.predEnds layer) _ _)

theorem predWindowClose_judges {s : State} {layer : Nat} {p : PredState} (hp : s.preds.find? (fun p => p.layer == layer) = some p)
    (hfull : 1024 ≤ p.inactive) (hchains : s.NoChains) :
    let off := decide (p.limit < p.misses * 2 ^ p.shift) && decide (p.limit < 1024)
    Gives (.predWindowClose layer) s (fun t => t.preds = s.preds.map (fun q => if q.layer = layer then
        PredState.pour q.queue { q with inactive := q.inactive - 1024, misses := 0, off := q.off || off } else q) ∧
      (off = true → ∀ x ∈ s.cmds, ∀ l, x.layer = some l → l.desc.pred = true → l.desc.layerId = layer → x.ended = false →
        ∃ y ∈ t.cmds, y.id = x.id ∧ y.raised.testBit 5 = true)) := by
  intro off
  have hexec : exec (.predWindowClose layer) s = s.keepEdge (s.keepFabric (s.keepPower (.next (s.windowTold layer off).pump.settleCmds))) := by
    show execPredWindowClose layer s = _
    unfold execPredWindowClose
    rw [hp]
    simp only [Nat.not_lt.2 hfull, if_false]
    rfl
  have hpump := (Ends.windowTold s layer off).trans (.pump _)
  have hall := (Settles.ofSteps hpump).trans (.settleCmds _)
  refine .ofEvent hexec fun t hsame _ _ => ⟨hsame.preds.trans (hall.quiet hchains).2, fun hoff x hx l hl hpred hlayer hended => ?_⟩
  have hraised : (s.windowTold layer off).AllRaised x.id 5 := by
    simp only [State.windowTold, hoff, Bool.not_true, Bool.false_eq_true, if_false]
    exact foldl_reaches (fun w => w.AllRaised x.id 5) _ (fun w y hw => (Ends.predEnds layer w y).raised _ _ hw) hx
      (predEnds_raised hl hpred hlayer hended) _
  have hkept := (Settles.settleCmds _).raised x.id 5 ((Ends.pump _).raised x.id 5 hraised)
  obtain ⟨y, hy, hid⟩ := hall.toMoves.mem (x := x) hx
  exact ⟨y, hsame.cmds ▸ hy, hid, hkept y hy hid⟩

/-- Settles O37: looking at a command keeps the flags, the run and the batch of a layer that goes on, and only adds completions. -/
theorem layerEvents : Obligations.LayerEvents := fun _ =>
  ⟨fun _ _ _ _ h => signalDoorbell_adds h,
    fun _ _ _ _ h hover hlist ha hdev => listDoorbell_marks h hover hlist ha hdev,
    fun _ _ _ _ _ _ hends hdisp hcmd hphys hdst hx hop hlayer hended hclosing hstopped hstatus hlists hacks =>
      dispatchComplete_ends hends hdisp hcmd hphys hdst hx hop hlayer hended hclosing hstopped hstatus hlists hacks,
    fun _ _ _ _ _ _ _ hends hne hmiss hdisp hcmd hphys hdst hx hop hlayer hended hclosing hstopped hstatus _ hacks hfence hstage =>
      dispatchComplete_fails hends hne hmiss hdisp hcmd hphys hdst hx hop hlayer hended hclosing hstopped hstatus hacks hfence hstage,
    fun _ _ hdisp hlog hheld hst hcore hphys hloaded hbell hret hset hdue =>
      formatBarrierRelease_sends hdisp hlog hheld hst hcore hphys hloaded hbell hret hset hdue,
    fun _ _ _ hx hl hop hended hclosing hstopped hok hidle =>
      ⟨layerRerun_reruns hx hl hop hended hclosing hstopped hok hidle,
        fun _ _ _ _ _ _ _ hrouted hpred htodo hread hstage =>
          routedRound_dispatches hx hl hop hended hclosing hstopped hok hidle hrouted hpred htodo hread hstage,
        predSkipMapRead_plans hx hl hop hended hclosing hstopped hok hidle⟩,
    fun _ _ _ _ _ _ _ hx hl hop hended hclosing hstopped hok hrouted hpred hrerun htodo hstage =>
      ledgeTileStage_dispatches hx hl hop hended hclosing hstopped hok hrouted hpred hrerun htodo hstage,
    fun _ _ hp hfull hchains => predWindowClose_judges hp hfull hchains⟩

end Sys2Proof.Machine
end

section
/-!
O34: a core whose last dispatch came from a pointer list still names the list's buffer by a handle that has been freed.
-/

namespace Sys2Proof.Machine

/-- A tensor of UINT8 in tier 1, one row long, at an address. -/
def rowHandle (base : Nat) : Handle := ⟨base, 0, memTier1, 0, 0, true, false, false, 0, 0, fmtUint, 8, 1⟩

/-- HANDLE_FREE of handle 0, the first entry of queue 0. -/
def freeEntry : Entry := ⟨.queue 0, 0, 1, [0x11#8, 0, 7, 0, 1, 1, 0, 0] ++ List.replicate 56 0, none, false, false, [], 0⟩

/-- The machine is READY and handle 0 is valid. Core 0 has run an item of a pointer list that put the next row in place of handle 0,
which stays so until the next dispatch on the core (`State.send`). The entry that frees the handle stands at stage 2. -/
def listRun : State :=
  { ((State.reset.setFld GLB_STATE 2 0 devReady).setHandles 0 (rowHandle 0)).modCore 0
      (fun k => { k with rebound := [(0, (rowHandle 64).bits128)] }) with
    bootStep := 11
    fetched := [freeEntry] }

theorem listRun_accepts : Accepts listRun (.queue 0) 0x11 (fields handleField) freeEntry [] (listRun.tookTurn (.queue 0)) :=
  ⟨by decide +kernel, ⟨_, rfl, by decide +kernel⟩, by decide +kernel, by decide +kernel, by decide +kernel⟩

/-- The table entry of core 0 becomes invalid; its program still reads the row of the list. -/
theorem handleFree_listRun : Gives (.handleFree (.queue 0)) listRun (fun t =>
    ((t.core 0).tableHandle 0 0).valid = false ∧ (t.core 0).handle 0 0 = rowHandle 64) :=
  ⟨_, rfl, by decide +kernel⟩

/-- Refutes O34: `listRun` meets the hypotheses of the clause on HANDLE_FREE, and core 0, which is in service, still names a valid
buffer by handle 0 after it, because the clause reads the number as the core's program does (`CoreState.handle`), and a write of the
table (`CoreState.setHandle`) leaves what an item of a pointer list put in its place. The clauses on HANDLE_ALLOC, HANDLE_ATTR and
WEIGHT_UNLOAD read the number in the same way. -/
theorem not_handleAndListCommands : ¬ Obligations.HandleAndListCommands := by
  intro h
  obtain ⟨-, hfree, -⟩ := h listRun (.queue 0) freeEntry (by decide)
  refine handleFree_listRun.not_of_gives (fun t ht => ?_) (hfree listRun_accepts)
  obtain ⟨-, hrow⟩ := ht
  rintro ⟨-, hinvalid⟩
  have hserves : listRun.coreSt 0 ≠ 2 := by decide +kernel
  have hnumber : freeEntry.word 0 % 256 = 0 := by decide +kernel
  have hgone := hinvalid 0 (by decide) hserves
  rw [hnumber, hrow] at hgone
  exact absurd hgone (by decide)

end Sys2Proof.Machine
end

section
/-!
O55: what a command leaves is what the frames around its meaning keep.
-/

namespace Sys2Proof.Machine

/-- Where the outcome goes on, the parts are as they are in `s`. -/
def Keeps (s : State) (ps : List Part) (o : Out) : Prop := ∀ t, o = .next t → ∀ p ∈ ps, p.Same s t

theorem Keeps.nil {s : State} {o : Out} : Keeps s [] o := fun _ _ _ h => nomatch h

/-- A frame that restores a part of what a command answers, and no other part, adds the part to what is kept. -/
theorem Keeps.frame {s : State} {ps : List Part} {o o' : Out} {p : Part} (h : Keeps s ps o) (same : State → State)
    (hinv : ∀ u, o' = .next u → ∃ t, o = .next t ∧ u = same t) (hp : ∀ t, p.Same s (same t))
    (hrest : ∀ t q, Part.Same s t q → q.Same s (same t)) : Keeps s (p :: ps) o' := by
  intro u hu q hq
  obtain ⟨t, ht, rfl⟩ := hinv u hu
  rcases List.mem_cons.1 hq with rfl | hq
  · exact hp t
  · exact hrest t q (h t ht q hq)

theorem Keeps.rings {s : State} {ps : List Part} {o : Out} (h : Keeps s ps o) : Keeps s (.rings :: ps) (s.keepRings o) :=
  h.frame s.sameRings (fun _ => State.keepRings_inv) (fun _ => ⟨rfl, rfl, rfl, rfl, rfl⟩) fun _ q hq => by
    cases q with
    | rings => exact ⟨rfl, rfl, rfl, rfl, rfl⟩
    | _ => exact hq

theorem Keeps.pins {s : State} {ps : List Part} {o : Out} (h : Keeps s ps o) : Keeps s (.pins :: ps) (s.keepPins o) :=
  h.frame s.samePins (fun _ => State.keepPins_inv) (fun _ => ⟨rfl, rfl, rfl, rfl, rfl, rfl, rfl, rfl⟩) fun _ q hq => by
    cases q with
    | pins => exact ⟨rfl, rfl, rfl, rfl, rfl, rfl, rfl, rfl⟩
    | _ => exact hq

theorem Keeps.secure {s : State} {ps : List Part} {o : Out} (h : Keeps s ps o) : Keeps s (.secure :: ps) (s.keepSecure o) :=
  h.frame s.sameSecure (fun _ => State.keepSecure_inv) (fun _ => ⟨rfl, rfl, rfl, rfl, rfl⟩) fun _ q hq => by
    cases q with
    | secure => exact ⟨rfl, rfl, rfl, rfl, rfl⟩
    | _ => exact hq

theorem Keeps.fabric {s : State} {ps : List Part} {o : Out} (h : Keeps s ps o) : Keeps s (.fabric :: ps) (s.keepFabric o) :=
  h.frame s.sameFabric (fun _ => State.keepFabric_inv) (fun _ => ⟨rfl, rfl, rfl, rfl, rfl, rfl, rfl, rfl⟩) fun _ q hq => by
    cases q with
    | fabric => exact ⟨rfl, rfl, rfl, rfl, rfl, rfl, rfl, rfl⟩
    | _ => exact hq

theorem Keeps.power {s : State} {ps : List Part} {o : Out} (h : Keeps s ps o) : Keeps s (.power :: ps) (s.keepPower o) :=
  h.frame s.samePower (fun _ => State.keepPower_inv) (fun _ => ⟨rfl, rfl, rfl⟩) fun _ q hq => by
    cases q with
    | power => exact ⟨rfl, rfl, rfl⟩
    | _ => exact hq

theorem Keeps.mem {s : State} {ps : List Part} {o : Out} (h : Keeps s ps o) : Keeps s (.mem :: ps) (s.keepMem o) :=
  h.frame s.sameMem (fun _ => State.keepMem_inv) (fun _ => ⟨rfl, rfl, rfl, rfl⟩) fun _ q hq => by
    cases q with
    | mem => exact ⟨rfl, rfl, rfl, rfl⟩
    | _ => exact hq

theorem Keeps.cores {s : State} {ps : List Part} {o : Out} (h : Keeps s ps o) : Keeps s (.cores :: ps) (s.keepCores o) :=
  h.frame s.sameCores (fun _ => State.keepCores_inv) (fun _ => rfl) fun _ q hq => by
    cases q with
    | cores => rfl
    | others => exact fun _ _ => rfl
    | _ => exact hq

theorem keeps_keepOtherCores {s : State} (c : Nat) (o : Out) : Keeps s [.others c] (s.keepOtherCores c o) := by
  intro u hu p hp
  obtain ⟨t, -, rfl⟩ := State.keepOtherCores_inv hu
  obtain rfl := List.mem_singleton.1 hp
  intro d hd
  rw [State.sameOthers_core, if_neg hd]

/-- What the frame of one core keeps. -/
theorem keeps_inCore {s : State} (c : Nat) (o : Out) :
    Keeps s [.others c, .rings, .pins, .secure, .fabric, .power, .mem] (s.inCore c o) := by
  have h : Keeps s [.rings, .pins, .secure, .fabric, .power, .mem, .others c] (s.inCore c o) :=
    .rings (.pins (.secure (.fabric (.power (.mem (keeps_keepOtherCores c o))))))
  exact fun t ht p hp => h t ht p ((List.perm_append_comm (l₁ := [Part.others c])).mem_iff.1 hp)

theorem keeps_keepEdge {s : State} {ps : List Part} {o : Out} (h : Keeps s ps o) :
    Keeps s (.rings :: .pins :: .secure :: ps) (s.keepEdge o) := .rings (.pins (.secure h))

theorem keeps_inCores {s : State} (o : Out) : Keeps s [.rings, .pins, .secure, .fabric, .power, .mem] (s.inCores o) :=
  keeps_keepEdge (.fabric (.power (.mem .nil)))

theorem keeps_inRegs {s : State} (o : Out) : Keeps s [.rings, .pins, .secure, .fabric, .power, .mem, .cores] (s.inRegs o) :=
  keeps_keepEdge (.fabric (.power (.mem (.cores .nil))))

theorem keeps_inPower {s : State} (o : Out) : Keeps s [.rings, .pins, .secure, .fabric, .mem, .cores] (s.inPower o) :=
  keeps_keepEdge (.fabric (.mem (.cores .nil)))

theorem keeps_inFabric {s : State} (o : Out) : Keeps s [.rings, .pins, .secure, .power, .mem, .cores] (s.inFabric o) :=
  keeps_keepEdge (.power (.mem (.cores .nil)))

theorem keeps_inEdge {s : State} (o : Out) : Keeps s [.fabric, .power, .mem, .cores] (s.inEdge o) :=
  .fabric (.power (.mem (.cores .nil)))

/-- What each command leaves is what the frames around its meaning keep. -/
theorem keeps_leaves (i : Instr) (s : State) : Keeps s (leaves i) (exec i s) := by
  unfold exec
  cases i with
  | ldwGen | pass | pass24 | stream | aclr | adrainEpi | adrainRaw | adrainAtomic | adrainList | aepiForm0 | aepiForm1 | waitf
  | waitc | loopInstr | br | setpArray | setpAga | setpAgb | setpDrain | sgseed | boundWrite | coreDispatch | passRetire
  | passClosing | adrainTransfer | rowClose | checkpointTest | scrubPage | waitcTimeout | barrierTimeout | spmAccess
  | spmEccWriteback | gatherEntryWrite | retentionScrubWake | groupWakeDone | bankGroupClosed | coreSeqHalt | coreSeqStep
  | coreSeqRun | coreImemWrite | coreBoundWrite | coreArrScrubCtrlWrite | coreAccDbgCtrlWrite | coreSpmModeWrite
  | coreSpmWheelWrite | spmModeApply | coreSpmPwrReqWrite | coreSpmArriveWrite | coreRqLimitWrite | coreSpHacCfgWrite =>
    exact keeps_inCore _ _
  | identify | progress | drain | softReset | maintEnter | maintExit | countersRead | powerCapSet | opSet | dmaCopy | dmaFill
  | pageXfer | predEnable | ropeLeave | fwUpdate | keyOp | fixedBreak | opTargetSet | opReevaluate | voltageMoveTimeout
  | pwrCapWrite | pwrBudgetWrite | pwrOpCtrlWrite | alertHoldExpiry | thermalStep | thermalRepeat | thermalClear | paceVote
  | voteExamine | paceUp | paceFloor | ropeLeaveMsg | ropeDrop | ropeRefuse | ropeCapMove | memberDrop | ropeJoinTimeout
  | cpWatchdogExpiry | mpFault | pwrAlertRelease => exact keeps_inPower _
  | coreImemRead | rasLogRead | cmdqSqdbWrite | cmdqCqdbWrite | queueEnable | queueDisable | queueDrained | msixMessage
  | irqAgeExpiry | progressInterval | mbxLockRead | mbxLockRelease | mbxDataWrite | mbxSend | mbxAck | mbxTimeout | fwVerify
  | fwCommit | keyRevoke | sliceRowFill | sliceIdleWriteback | nvmeCmdTimeout | nvmeLinkDown | vc1Escalate | atomic | cqdb
  | configTimeout | heartbeatPoll | cairnProgram | patrolOverrun | telSnap | telChCfgWrite | telChClr | rasViolClr =>
    exact keeps_inRegs _
  | frameReceive | nakReceive | frameForward | atomicResp | helloSend | hello | helloTimeout | portSignalLoss | portTrained
  | laneSpare | portRetrain | portCtrlWrite | startWave | electionEnd | assign | join | waveEnd | config | configAck | linkDown
  | linkUp | witness | witnessHoldExpiry | witnessCollectExpiry | idChallenge | idProof | idExchangeTimeout | codewordSideband
  | portSignalReturn | witnessWindowExpiry => exact keeps_inFabric _
  | ldwWeights | ldwScales | lda | mcastCopy | mcastLoad | claim | claimTicket | barrier | signalDoorbell | signalArrive
  | signalTicket | endProgram | loadPageWrite | scrubAgeExceeded | hacSpill | tileFaultReport | debugEnter | writeAck
  | tagWaitTimeout | remoteSpmAccess | retentionEnter | latchedPairRead | cmdqEvtClear | formatBarrierRelease | usbRegisterRead
  | readMsg => exact keeps_inCores _
  | coreRenumber | handleAlloc | handleFree | handleAttr | weightLoad | weightUnload | worklistFree | ropeJoin | coreReset
  | debugHalt | debugResume | estimationPeriod | vddcSettled | pwrAlert | ropeForm | ropeSync | ropeEpochTick | paceDown
  | leaderLost => exact keeps_keepEdge (.fabric (.mem .nil))
  | sto | stoAtomic | epilogueDrain | rangeMissWindow | completionDoorbell | dispatchComplete | layerRerun | routedRound
  | ledgeTileStage | predSkipMapRead | predWindowClose | dmaPiece | nvmeCompletion | writeMsg | writeP | patrolScrubRow =>
    exact keeps_keepEdge (.fabric (.power .nil))
  | deferredRecheck | abort | errlogRead | telemetryRead | layerRun | layerChain | tileRun | worklistDefine | fabricStatus
  | rowRepair | debugAccRead | attest | certRead | heartbeatMiss | coreFence | spareInService =>
    exact keeps_keepEdge (.fabric .nil)
  | sysRstRelease | perstRelease | vrPgRise | pcieLinkDown | pcieLinkUp | pcieConfigWrite | usbConfigurationChange =>
    exact .rings (.secure (keeps_inEdge _))
  | sqFetch | glbBmcSubmit | glbBmcPop | usbSubmit | usbCompletionAck => exact .pins (.secure (keeps_inEdge _))
  | bar2Access | sliceAtomicOp | ledgeAtomicOp | tset | qsubmit => exact keeps_keepEdge (.fabric (.power (.cores .nil)))
  | thermtrip | sysRstAssert | vrPgFall | refclkLoss | packagePowerLoss => exact .nil
  | fwWrite | fwActivate | keyAttestRotate | certWrite => exact .rings (.pins (keeps_inEdge _))
  | readResp | wack | qack | remoteTimeout => exact keeps_keepEdge (.power (.mem .nil))
  | memoryTrainingDone | attestKeyReady | driveBringupEnd => exact .rings (.fabric .nil)
  | registerWrite | usbRegisterWrite => exact .pins (.secure (.mem .nil))
  | fabricDiscover | portReset => exact keeps_keepEdge (.mem (.cores .nil))
  | rootPllLock | recoveryImage => exact .rings (keeps_inEdge _)
  | cqPost => exact .pins (.secure (.fabric (.cores .nil)))
  | softResetApply => exact .rings (.secure (.fabric .nil))
  | selfTest => exact keeps_keepEdge .nil
  | perstAssert => exact .rings (.secure .nil)

/-- Settles O55: the frames around the meaning of a command keep the parts that the command leaves. -/
theorem commandsLeaveTheRest : Obligations.CommandsLeaveTheRest := fun i s t h => keeps_leaves i s t h

end Sys2Proof.Machine
end

section
/-!
Device memory reads back: the proof of O57 (R205, R319, R322, R456).
-/

namespace Sys2Proof.Machine

/-! ## Bytes -/

theorem Mem.write_append (m : Mem) (a : Nat) (xs ys : List Byte) :
    Mem.write m a (xs ++ ys) = Mem.write (Mem.write m a xs) (a + xs.length) ys := by
  induction xs generalizing m a with
  | nil => rfl
  | cons x xs ih =>
    rw [List.cons_append, Mem.write, Mem.write, ih, List.length_cons, Nat.add_assoc, Nat.add_comm 1]

/-- Bytes outside those written stay. -/
theorem Mem.byte_write_outside (m : Mem) (a : Nat) (xs : List Byte) {b : Nat} (h : b < a ∨ a + xs.length ≤ b) :
    Mem.byte (Mem.write m a xs) b = Mem.byte m b := by
  induction xs generalizing m a with
  | nil => rfl
  | cons x xs ih =>
    rw [List.length_cons] at h
    rw [Mem.write, ih _ _ (by omega), Mem.byte_put, if_neg (by omega)]

/-- What has been written reads back. -/
theorem Mem.read_write (m : Mem) (a : Nat) (xs : List Byte) : Mem.read (Mem.write m a xs) a xs.length = xs := by
  induction xs generalizing m a with
  | nil => rfl
  | cons x xs ih =>
    rw [List.length_cons, Mem.read, Mem.write, ih, Mem.byte_write_outside _ _ _ (.inl (Nat.lt_succ_self a)), Mem.byte_put, if_pos rfl]

/-! ## Counters -/

theorem setField_regField (w : W32) {hi lo : Nat} (h : lo ≤ hi) (hh : hi < 32) : setField w hi lo (regField w hi lo) = w := by
  have hmod : regField w hi lo % 2 ^ (hi + 1 - lo) = regField w hi lo := Nat.mod_mod _ _
  apply BitVec.eq_of_toNat_eq
  rw [toNat_setField w _ h hh, hmod]
  exact (toNat_eq_field w h).symm

/-- A counter to which nothing is added. -/
theorem State.reg_bumpFld_zero (s : State) (a : Nat) {hi lo : Nat} (h : lo ≤ hi) (hh : hi < 32) (b : Nat) :
    (s.bumpFld a hi lo 0).reg b = s.reg b := by
  have hle : s.fld a hi lo ≤ 2 ^ (hi + 1 - lo) - 1 := Nat.le_sub_one_of_lt (Nat.mod_lt _ (Nat.two_pow_pos _))
  rw [State.bumpFld, Nat.add_zero, Nat.min_eq_left hle, State.reg_setFld, State.fld, setField_regField _ h hh]
  split
  · next hb => rw [hb]
  · rfl

theorem State.reg_bumpFld_other (s : State) {a b : Nat} (hi lo n : Nat) (h : b ≠ a) : (s.bumpFld a hi lo n).reg b = s.reg b :=
  State.reg_setFld_other _ _ _ _ h

/-- A counter raised, where it is a field that fits its register. -/
theorem State.fld_bumpFld_same (s : State) (a : Nat) {hi lo : Nat} (n : Nat) (h : lo ≤ hi) (hh : hi < 32) :
    (s.bumpFld a hi lo n).fld a hi lo = min (s.fld a hi lo + n) (2 ^ (hi + 1 - lo) - 1) := by
  rw [State.bumpFld, State.fld_setFld_same _ _ _ h hh,
    Nat.mod_eq_of_lt (Nat.lt_of_le_of_lt (Nat.min_le_right _ _) (Nat.sub_one_lt (Nat.two_pow_pos _).ne'))]

theorem State.eccCount_reg (s : State) {a r b : Nat} (ce ue : Nat) (hr : s.eccReg a = some r) (h : b ≠ r) :
    (s.eccCount a ce ue).reg b = s.reg b := by
  rw [State.eccCount, hr]
  simp only [State.reg_bumpFld_other _ _ _ _ h]

theorem State.eccCount_zero_reg (s : State) (a b : Nat) : (s.eccCount a 0 0).reg b = s.reg b := by
  unfold State.eccCount
  split
  · rw [State.reg_bumpFld_zero _ _ (by decide) (by decide), State.reg_bumpFld_zero _ _ (by decide) (by decide)]
  · rfl

/-! ## An access begins -/

/-- Between `s` and `t` an access has begun: it has touched buffered rows and has crossed the links of tier 1. -/
structure Accessed (s t : State) : Prop where
  parts : ∃ r sl f, t = { s with regs := r, slices := sl, edcFaults := f }
  reg : ∀ b, b ≠ MEM_T1_EDC → t.reg b = s.reg b

/-- The state in which the units of an access are looked at. -/
def State.accessed (s : State) (a n : Nat) (w : Bool) : State := ((s.touchRows a n w).edcLink a n).2

theorem State.touchRows_parts (s : State) (a n : Nat) (w : Bool) : ∃ sl, s.touchRows a n w = { s with slices := sl } := by
  unfold State.touchRows
  extract_lets hit
  split <;> exact ⟨_, rfl⟩

theorem Accessed.touchRows (s : State) (a n : Nat) (w : Bool) : Accessed s (s.touchRows a n w) := by
  obtain ⟨sl, h⟩ := s.touchRows_parts a n w
  rw [h]
  exact ⟨⟨_, _, _, rfl⟩, fun _ _ => rfl⟩

theorem Accessed.trans {s t u : State} (h : Accessed s t) (k : Accessed t u) : Accessed s u := by
  obtain ⟨⟨_, _, _, rfl⟩, hreg⟩ := h
  obtain ⟨⟨_, _, _, rfl⟩, hreg'⟩ := k
  exact ⟨⟨_, _, _, rfl⟩, fun b hb => (hreg' b hb).trans (hreg b hb)⟩

theorem Accessed.edcLink (s : State) (a n : Nat) : Accessed s (s.edcLink a n).2 := by
  unfold State.edcLink
  split
  · exact ⟨⟨_, _, _, rfl⟩, fun _ _ => rfl⟩
  · refine ⟨⟨_, _, _, rfl⟩, fun b hb => ?_⟩
    exact (State.reg_bumpFld_other _ _ _ _ hb).trans (State.reg_bumpFld_other _ _ _ _ hb)

theorem Accessed.accessed (s : State) (a n : Nat) (w : Bool) : Accessed s (s.accessed a n w) :=
  .trans (.touchRows _ _ _ _) (.edcLink _ _ _)

theorem Served.accessed (s : State) (a n : Nat) (w : Bool) : Served s (s.accessed a n w) :=
  .trans (.touchRows _ _ _ _) (.edcLink _ _ _)

theorem Accessed.addrKind {s t : State} (h : Accessed s t) (a : Nat) : t.addrKind a = s.addrKind a :=
  State.addrKind_of_regs (h.reg _ (by decide)) (h.reg _ (by decide)) a

theorem Accessed.eccUnits {s t : State} (h : Accessed s t) (a n : Nat) : t.eccUnits a n = s.eccUnits a n := by
  simp only [State.eccUnits, h.addrKind]

theorem Accessed.unitErr {s t : State} (h : Accessed s t) (a u : Nat) : t.unitErr a u = s.unitErr a u := by
  have hkind := h.addrKind a
  obtain ⟨⟨_, _, _, rfl⟩, -⟩ := h
  unfold State.unitErr
  rw [hkind]

/-! ## The units of an access -/

theorem State.eccUnits_of_pos (s : State) (a : Nat) {n : Nat} (h : 0 < n) : s.eccUnits a n =
    (List.range ((a + n - 1) / s.unitSize a - a / s.unitSize a + 1)).map (fun i => a / s.unitSize a + i) := by
  rw [State.eccUnits, if_neg (by omega)]
  unfold State.unitSize
  rfl

theorem State.unitSize_pos (s : State) (a : Nat) : 0 < s.unitSize a := by
  rcases s.unitSize_cases a with h | h <;> omega

/-- What the first units of a write leave: their part of the data is written, and nothing else has changed. -/
structure Written (v : State) (a k : Nat) (data : List Byte) (acc : Nat × State) : Prop where
  ok : acc.1 = stOk
  served : Served v acc.2
  reg : ∀ b, acc.2.reg b = v.reg b
  bytes : acc.2.dmem = Mem.write v.dmem a (data.take k)

/-- The write of one unit of a clean range (`State.memWrite`). -/
def State.unitWrite (v : State) (a : Nat) (data : List Byte) (acc : Nat × State) (w : Nat) : Nat × State :=
  let lo := max a (w * v.unitSize a)
  let hi := min (a + data.length) (w * v.unitSize a + v.unitSize a)
  (acc.1, ({ acc.2 with dmem := Mem.write acc.2.dmem lo ((data.drop (lo - a)).take (hi - lo)) } : State).setUnitErr a w 0)

theorem State.reg_setUnitErr (s : State) (a u : Nat) (e : W64) (b : Nat) : (s.setUnitErr a u e).reg b = s.reg b := by
  unfold State.setUnitErr
  split <;> rfl

/-- The bytes of a unit are those that follow what the units before it have written. -/
theorem Mem.write_unit (m : Mem) {a x u : Nat} (data : List Byte) (hfirst : x ≤ a ∧ a < x + u ∨ a ≤ x ∧ x ≤ a + data.length) :
    Mem.write (Mem.write m a (data.take (min (a + data.length) x - a))) (max a x)
        ((data.drop (max a x - a)).take (min (a + data.length) (x + u) - max a x)) =
      Mem.write m a (data.take (min (a + data.length) (x + u) - a)) := by
  have hk : (data.take (min (a + data.length) x - a)).length = max a x - a := by rw [List.length_take]; omega
  have hlo : max a x = a + (max a x - a) := by omega
  have hlen : min (a + data.length) (x + u) - a = (max a x - a) + (min (a + data.length) (x + u) - max a x) := by omega
  have htake : data.take (min (a + data.length) x - a) = data.take (max a x - a) := by
    rw [← hk, List.length_take, ← List.take_eq_take_min]
  rw [hlen, List.take_add, Mem.write_append, ← htake, hk, ← hlo]

/-- The first `i` units of a write. -/
theorem Written.units (v : State) (a : Nat) (data : List Byte) (i : Nat)
    (h : i ≤ (a + data.length - 1) / v.unitSize a - a / v.unitSize a + 1) :
    Written v a (min (a + data.length) ((a / v.unitSize a + i) * v.unitSize a) - a) data
      (((List.range i).map (fun j => a / v.unitSize a + j)).foldl (v.unitWrite a data) (stOk, v)) := by
  have hbelow := Nat.div_mul_le_self a (v.unitSize a)
  induction i with
  | zero =>
    rw [Nat.add_zero, Nat.sub_eq_zero_of_le ((Nat.min_le_right _ _).trans hbelow)]
    exact ⟨rfl, .refl v, fun _ => rfl, rfl⟩
  | succ i ih =>
    obtain ⟨hok, hserved, hreg, hbytes⟩ := ih (by omega)
    have hplace : (a / v.unitSize a + i) * v.unitSize a ≤ a ∧ a < (a / v.unitSize a + i) * v.unitSize a + v.unitSize a ∨
        a ≤ (a / v.unitSize a + i) * v.unitSize a ∧ (a / v.unitSize a + i) * v.unitSize a ≤ a + data.length := by
      have habove : a < (a / v.unitSize a + 1) * v.unitSize a := by
        rw [Nat.mul_comm]; exact Nat.lt_mul_div_succ a (v.unitSize_pos a)
      rcases Nat.eq_zero_or_pos i with rfl | hi
      · exact .inl ⟨hbelow, by rwa [Nat.add_mul, one_mul] at habove⟩
      · have hlast := Nat.div_mul_le_self (a + data.length - 1) (v.unitSize a)
        have hfrom : (a / v.unitSize a + 1) * v.unitSize a ≤ (a / v.unitSize a + i) * v.unitSize a := Nat.mul_le_mul_right _ (by omega)
        have hto : (a / v.unitSize a + i) * v.unitSize a ≤ (a + data.length - 1) / v.unitSize a * v.unitSize a :=
          Nat.mul_le_mul_right _ (by omega)
        exact .inr ⟨by omega, by omega⟩
    rw [List.range_succ, List.map_append, List.foldl_append, List.map_singleton, List.foldl_cons, List.foldl_nil]
    refine ⟨hok, hserved.trans (.trans (.bytes _ _) (.setUnitErr _ a _)), fun b => (State.reg_setUnitErr _ _ _ _ _).trans (hreg b), ?_⟩
    rw [← Nat.add_assoc, Nat.add_mul _ 1, one_mul, ← Mem.write_unit v.dmem data hplace, ← hbytes]
    exact State.setUnitErr_dmem _ _ _ _

/-- A write of clean bytes. -/
theorem State.memWrite_writes {s : State} {a : Nat} {data : List Byte} (h : Clean s a data.length) :
    ∃ t, s.memWrite a data = (stOk, t) ∧ Served s t ∧ t.dmem = Mem.write s.dmem a data ∧ ∀ b, b ≠ MEM_T1_EDC → t.reg b = s.reg b := by
  have hbegun := Accessed.accessed s a data.length true
  have hserved := Served.accessed s a data.length true
  have hlost : ((s.touchRows a data.length true).edcLink a data.length).1 = [] :=
    State.edcLink_lost ((Served.touchRows s a data.length true).clean h)
  have hdmem : (s.accessed a data.length true).dmem = s.dmem := by simp [State.accessed]
  have hunits := (hserved.clean h).1
  have hfold : s.memWrite a data = ((s.accessed a data.length true).eccUnits a data.length).foldl
      ((s.accessed a data.length true).unitWrite a data) (stOk, s.accessed a data.length true) := by
    unfold State.memWrite
    refine List.foldl_ext _ _ _ fun acc w hw => ?_
    have hclean : ((s.touchRows a data.length true).edcLink a data.length).2.unitErr a w = 0 := hunits w hw
    simp only [hlost, hclean, List.not_mem_nil, if_false, ne_eq, not_true_eq_false, and_false, decide_false, false_and, Bool.false_eq_true]
    rfl
  rcases Nat.eq_zero_or_pos data.length with hn | hn
  · obtain rfl := List.eq_nil_of_length_eq_zero hn
    exact ⟨_, hfold, hserved, hdmem, hbegun.reg⟩
  · generalize s.accessed a data.length true = v at *
    obtain ⟨hok, hw, hreg, hbytes⟩ := Written.units v a data _ le_rfl
    rw [State.eccUnits_of_pos _ _ hn] at hfold
    have hend : min (a + data.length) ((a / v.unitSize a + ((a + data.length - 1) / v.unitSize a - a / v.unitSize a + 1)) * v.unitSize a) - a
        = data.length := by
      have hle : a / v.unitSize a ≤ (a + data.length - 1) / v.unitSize a := Nat.div_le_div_right (by omega)
      have hlt := Nat.lt_mul_div_succ (a + data.length - 1) (v.unitSize_pos a)
      rw [Nat.mul_comm, show (a + data.length - 1) / v.unitSize a + 1 = a / v.unitSize a + ((a + data.length - 1) / v.unitSize a -
        a / v.unitSize a + 1) by omega] at hlt
      omega
    rw [hend, List.take_length, hdmem] at hbytes
    exact ⟨_, hfold.trans (Prod.ext hok rfl), hserved.trans hw, hbytes, fun b hb => (hreg b).trans (hbegun.reg b hb)⟩

theorem memWrite_reads_back {s : State} {a : Nat} {data : List Byte} (h : Clean s a data.length) :
    let r := s.memWrite a data
    r.1 = stOk ∧ Mem.read r.2.dmem a data.length = data ∧ (∀ b, b < a ∨ a + data.length ≤ b → Mem.byte r.2.dmem b = Mem.byte s.dmem b) ∧
      Clean r.2 a data.length ∧ (∀ b, b ≠ MEM_T1_EDC → r.2.reg b = s.reg b) ∧ r.2.cores = s.cores ∧ r.2.hmem = s.hmem := by
  obtain ⟨t, hwrite, hserved, hdmem, hreg⟩ := State.memWrite_writes h
  have hclean := hserved.clean h
  obtain ⟨⟨_, _, _, _, _, _, _, hparts⟩, -⟩ := hserved
  rw [hwrite]
  refine ⟨rfl, ?_, fun b hb => ?_, hclean, hreg, by rw [hparts], by rw [hparts]⟩
  · rw [hdmem, Mem.read_write]
  · rw [hdmem, Mem.byte_write_outside _ _ _ hb]

/-! ## Reads -/

theorem State.ledgeFixed_dmem (s : State) (a : Nat) (us : List Nat) : (s.ledgeFixed a us).dmem = s.dmem := by
  unfold State.ledgeFixed
  split
  · exact foldl_keeps (fun t : State => t.dmem = s.dmem) _ (fun t u h => (State.setUnitErr_dmem t a u 0).trans h) _ _
      (State.noteLedge_dmem _ _ _)
  · rfl

/-- A read changes no byte. -/
theorem State.memRead_dmem (s : State) (a n : Nat) : (s.memRead a n).2.2.dmem = s.dmem := by
  unfold State.memRead
  extract_lets l t us bad ce t'
  have ht : t'.dmem = s.dmem := by simp [t', t, l, State.ledgeFixed_dmem]
  split
  · exact ht
  · exact (State.logEvent_dmem _ _ _ _ _).trans ht

/-- The units of an access that hold uncorrectable errors (`State.memRead`). -/
def State.badUnits (s : State) (a n : Nat) : List Nat :=
  (s.eccUnits a n).filter (fun u => s.unitErr a u != 0 && !correctable (s.unitErr a u))

theorem Accessed.badUnits {s t : State} (h : Accessed s t) (a n : Nat) : t.badUnits a n = s.badUnits a n := by
  simp only [State.badUnits, h.eccUnits, h.unitErr]

/-- The state in which the units of an access are looked at, in the model's words. -/
theorem State.accessed_eq (s : State) (a n : Nat) (w : Bool) : ((s.touchRows a n w).edcLink a n).2 = s.accessed a n w := rfl

/-- A read with an uncorrectable unit or a lost transfer answers no data. -/
theorem State.memRead_fails {s : State} {a n : Nat} (h : s.badUnits a n ≠ [] ∨ ((s.touchRows a n false).edcLink a n).1 ≠ []) :
    (s.memRead a n).1 = stUncorrectable ∧ (s.memRead a n).2.1 = [] := by
  have hbad : ¬ ((s.badUnits a n).isEmpty = true ∧ ((s.touchRows a n false).edcLink a n).1.isEmpty = true) := by
    simp only [List.isEmpty_iff]
    tauto
  rw [← (Accessed.accessed s a n false).badUnits] at hbad
  unfold State.memRead
  extract_lets l t us bad ce t'
  rw [if_neg (show ¬ (bad.isEmpty = true ∧ l.1.isEmpty = true) from hbad)]
  exact ⟨rfl, rfl⟩

theorem State.ledgeFixed_reg (s : State) (a : Nat) (us : List Nat) (b : Nat) : (s.ledgeFixed a us).reg b = s.reg b := by
  have hnote : (s.noteLedge a us).reg b = s.reg b := by
    unfold State.noteLedge
    split <;> rfl
  unfold State.ledgeFixed
  split
  · exact foldl_keeps (fun t : State => t.reg b = s.reg b) _ (fun t u h => (State.reg_setUnitErr t a u 0 b).trans h) _ _ hnote
  · rfl

/-- What a read makes of a register that is neither the counter of its errors nor one that an event of the log writes. -/
theorem State.memRead_reg (s : State) {a n r b : Nat} (hr : s.eccReg a = some r) (h : b ≠ r) (h1 : b ≠ RAS_LOG_SEQ)
    (h2 : b ≠ RAS_LOG_HEAD) (h3 : b ≠ CMDQ_EVT) : (s.memRead a n).2.2.reg b = (s.accessed a n false).reg b := by
  unfold State.memRead
  extract_lets l t us bad ce t'
  have hr' : t.eccReg a = some r := by
    rw [← hr]
    have hk : t.addrKind a = s.addrKind a := (Accessed.accessed s a n false).addrKind a
    unfold State.eccReg
    rw [hk]
  have ht : t'.reg b = t.reg b := (State.ledgeFixed_reg _ _ _ _).trans (State.eccCount_reg _ _ _ hr' h)
  split
  · exact ht
  · exact (State.logEvent_reg _ _ _ _ _ h1 h2 h3).trans ht

/-- A read of clean bytes counts nothing. -/
theorem memRead_answers {s : State} {a n : Nat} (h : Clean s a n) : (s.memRead a n).1 = stOk ∧
    (s.memRead a n).2.1 = Mem.read s.dmem a n ∧ (s.memRead a n).2.2.dmem = s.dmem ∧
      (∀ b, b ≠ MEM_T1_EDC → (s.memRead a n).2.2.reg b = s.reg b) := by
  obtain ⟨t, hread, -, -⟩ := State.memRead_clean h
  refine ⟨by rw [hread], by rw [hread], State.memRead_dmem s a n, fun b hb => ?_⟩
  have hunits := ((Served.accessed s a n false).clean h).1
  have hlost : ((s.touchRows a n false).edcLink a n).1 = [] := State.edcLink_lost ((Served.touchRows s a n false).clean h)
  unfold State.memRead
  extract_lets l t us bad ce t'
  have hbad : bad = [] := List.filter_eq_nil_iff.mpr fun u hu => by
    rw [show t.unitErr a u = 0 from hunits u hu]
    decide
  have hce : ce = [] := List.filter_eq_nil_iff.mpr fun u hu => by
    rw [show t.unitErr a u = 0 from hunits u hu]
    decide
  rw [if_pos ⟨by rw [hbad]; rfl, by rw [show l.1 = [] from hlost]; rfl⟩]
  show (State.ledgeFixed _ a ce).reg b = s.reg b
  rw [State.ledgeFixed_reg, hbad, hce, List.length_nil, State.eccCount_zero_reg]
  exact (Accessed.accessed s a n false).reg b hb

/-- One row of tier 1. -/
theorem State.eccUnits_row {s : State} {u : Nat} (h : s.addrKind (64 * u) = .tier1) : s.eccUnits (64 * u) 64 = [u] := by
  have h1 : 64 * u / 64 = u := by omega
  have h2 : (64 * u + 63) / 64 - u = 0 := by omega
  simp [State.eccUnits, h, h1, h2]

/-- A row of tier 1 whose transfer fails four times is lost, and counted. -/
theorem State.edcLink_row {s : State} {u : Nat} (hk : s.addrKind (64 * u) = .tier1) (hu : 4 ≤ Tab.get (fun _ => 0) s.edcFaults u) :
    (s.edcLink (64 * u) 64).1 = [u] ∧ (s.edcLink (64 * u) 64).2.fld MEM_T1_EDC 31 16 = min (s.fld MEM_T1_EDC 31 16 + 1) 65535 := by
  have hsome : s.edcFaults ≠ [] := by
    intro h
    rw [h] at hu
    exact absurd hu (Nat.not_le.2 (Nat.succ_pos 3))
  have hlost : [u].filter (fun v => decide (4 ≤ Tab.get (fun _ => 0) s.edcFaults v)) = [u] := by simp [hu]
  unfold State.edcLink
  rw [if_neg (by simp [hsome, hk])]
  simp only [State.eccUnits_row hk, hlost]
  refine ⟨trivial, (State.fld_bumpFld_same _ MEM_T1_EDC _ (by decide) (by decide)).trans ?_⟩
  rw [State.bumpFld, State.fld_setFld_other _ _ (by decide) (by decide) (.inr (.inr (by decide)))]
  rfl

theorem memRead_lost {s : State} {u : Nat} (hlt : 64 * u < 0x2D00000000) (hu : 4 ≤ Tab.get (fun _ => 0) s.edcFaults u) :
    (s.memRead (64 * u) 64).1 = stUncorrectable ∧
      (s.memRead (64 * u) 64).2.2.fld MEM_T1_EDC 31 16 = min (s.fld MEM_T1_EDC 31 16 + 1) 65535 := by
  have hk : s.addrKind (64 * u) = .tier1 := by rw [State.addrKind, if_pos hlt]
  have hr : s.eccReg (64 * u) = some MEM_T1_ECC := by rw [State.eccReg, hk]
  obtain ⟨sl, htouch⟩ := s.touchRows_parts (64 * u) 64 false
  obtain ⟨hlost, hcount⟩ := State.edcLink_row (s := s.touchRows (64 * u) 64 false) (u := u) (by rw [htouch]; exact hk) (by rw [htouch]; exact hu)
  refine ⟨(State.memRead_fails (.inr (by rw [hlost]; simp))).1, ?_⟩
  rw [State.fld_of_reg (State.memRead_reg s hr (by decide) (by decide) (by decide) (by decide)), State.accessed, hcount, htouch]
  rfl

theorem memRead_uncorrectable {s : State} {a n : Nat} (h : ∃ u ∈ s.eccUnits a n, s.unitErr a u ≠ 0 ∧ correctable (s.unitErr a u) = false) :
    (s.memRead a n).1 = stUncorrectable ∧ (s.memRead a n).2.1 = [] ∧ (s.memRead a n).2.2.dmem = s.dmem := by
  obtain ⟨u, hu, herr, hbad⟩ := h
  have hmem : u ∈ s.badUnits a n := List.mem_filter.2 ⟨hu, by simpa [hbad] using herr⟩
  obtain ⟨hstatus, hdata⟩ := State.memRead_fails (.inl (List.ne_nil_of_mem hmem))
  exact ⟨hstatus, hdata, State.memRead_dmem s a n⟩

/-! ## A write of a part of a row -/

theorem OnlyLogged.eccCount (s : State) (a ce ue : Nat) : OnlyLogged s (s.eccCount a ce ue) := by
  unfold State.eccCount
  split
  · exact .trans (.setFld _ _ _ _ _) (.setFld _ _ _ _ _)
  · exact .refl s

/-- A row with an uncorrectable error that is written in part stays as it was (R456). -/
theorem memWrite_part_uncorrectable {s : State} {a : Nat} {data : List Byte} (htier : s.addrKind a = .tier1 ∨ s.addrKind a = .tier2)
    (hpos : 0 < data.length) (hlt : data.length < 64) (hrow : a / 64 = (a + data.length - 1) / 64) (herr : s.unitErr a (a / 64) ≠ 0)
    (hbad : correctable (s.unitErr a (a / 64)) = false) : (s.memWrite a data).1 = stUncorrectable ∧
      (s.memWrite a data).2.dmem = s.dmem ∧ (s.memWrite a data).2.rowErr = s.rowErr := by
  have hacc := Accessed.accessed s a data.length true
  have hsize : s.unitSize a = 64 := by
    unfold State.unitSize
    rcases htier with h | h <;> rw [h]
  have hunits : ((s.touchRows a data.length true).edcLink a data.length).2.eccUnits a data.length = [a / 64] := by
    rw [State.accessed_eq, hacc.eccUnits, State.eccUnits_of_pos _ _ hpos, hsize, ← hrow]
    simp
  have hu := hacc.unitErr a (a / 64)
  obtain ⟨_, _, _, hparts⟩ := hacc.parts
  have hstate (t : State) (h : OnlyLogged (s.accessed a data.length true) t) : t.dmem = s.dmem ∧ t.rowErr = s.rowErr := by
    obtain ⟨_, _, _, _, rfl⟩ := h
    rw [hparts]
    exact ⟨rfl, rfl⟩
  unfold State.memWrite
  extract_lets n l t u
  rw [show t.eccUnits a n = [a / 64] from hunits, List.foldl_cons, List.foldl_nil]
  extract_lets lo hi e part lose v v'
  have he : e = s.unitErr a (a / 64) := hu
  have hu64 : u = 64 := by
    have hk : t.addrKind a = s.addrKind a := hacc.addrKind a
    simp only [u, hk]
    rcases htier with h | h <;> rw [h]
  have hpart : part = true ∧ ¬ correctable e = true := by
    rw [he, hbad]
    refine ⟨decide_eq_true ⟨?_, he ▸ herr⟩, Bool.false_ne_true⟩
    simp only [lo, hi, hu64]
    omega
  rw [if_pos hpart]
  split
  · exact ⟨rfl, hstate _ (.logEvent _ _ _ _ _)⟩
  · exact ⟨rfl, hstate _ (.trans (.eccCount _ _ _ _) (.logEvent _ _ _ _ _))⟩

/-- Settles O57: the units of a clean range are written one after another and read back; an access of an uncorrectable row stops. -/
theorem deviceMemoryReadsBack : Obligations.DeviceMemoryReadsBack := fun s a data n =>
  ⟨fun h => memWrite_reads_back h, fun h => memRead_answers h, fun u hlt ha hu => by subst ha; exact memRead_lost hlt hu,
    fun h => memRead_uncorrectable h,
    fun htier hpos hlt hrow herr hbad => memWrite_part_uncorrectable htier hpos hlt hrow herr hbad⟩

end Sys2Proof.Machine
end

section
/-!
O23: a core whose doorbell has rung, and whose program has not started yet.
-/

namespace Sys2Proof.Machine

/-- The doorbell of core 0 has rung for command 0, and a write of the mode, to OPEN, waits. -/
def rungState : State :=
  State.reset.modCore 0 (fun k => { k with doorbell := some (0, none), modePend := some 0#32 })

/-- The program counts as loaded from its doorbell on (R211), so the mode keeps waiting. -/
theorem spmModeApply_rung : Gives (.spmModeApply 0) rungState (fun t => (t.core 0).modePend = some 0#32) :=
  ⟨_, rfl, by decide +kernel⟩

/-- Refutes O23: core 0 of `rungState` has not started its program and nothing is queued at its ports, yet its pending mode is not
applied, because a core counts as having a program from its doorbell on, before `loaded` is set (`CoreState.hasProgram`). -/
theorem not_modeAndWheelAreDeferred : ¬ Obligations.ModeAndWheelAreDeferred := by
  intro h
  obtain ⟨-, -, happly, -⟩ := h rungState .mp 0 0 0
  refine spmModeApply_rung.not_of_gives (fun t ht => ?_) (happly (by decide +kernel) (.inl (by decide +kernel)))
  rintro ⟨hmode, -⟩
  rw [ht] at hmode
  exact nomatch hmode

end Sys2Proof.Machine
end

section
/-!
SUPPORT of the proofs. A command that stage 2 accepts, from its entry to the end of its body (R268, R269, R273, R296, R312).
-/

namespace Sys2Proof.Machine

/-! ## The entry at stage 2 -/

/-- An entry past check 6, with the copy of what the check has read. -/
def Entry.withCopy (e : Entry) (copy : List Byte) : Entry := { e with checked := true, copy := copy }

theorem AtHead.src {s : State} {src : Src} {op : Nat} {e : Entry} (h : AtHead s src op e) : e.src = src := by
  obtain ⟨-, -, hhead, -⟩ := h
  exact beq_iff_eq.1 (List.find?_some hhead :)

theorem settleHead_none {s : State} {src : Src} (h : s.head src = none) (n : Nat) : State.settleHead src n s = s := by
  cases n with
  | zero => rfl
  | succ n => rw [State.settleHead, h]

/-- Past check 6 an entry that is no execution-class command meets the same gate. -/
theorem State.gate_congr {s t : State} {e e' : Entry} (hbytes : e'.bytes = e.bytes) (hreg : t.reg GLB_STATE = s.reg GLB_STATE)
    (hcmds : t.cmds = s.cmds) (hop : execClass e.op = false) : t.gate e' = s.gate e := by
  have hop' : e'.op = e.op := by rw [Entry.op, Entry.op, hbytes]
  have hword (i : Nat) : e'.word i = e.word i := by rw [Entry.word, Entry.word, Entry.plen, Entry.plen, hbytes]
  have hfly : t.inFlight = s.inFlight := by rw [State.inFlight, State.inFlight, hcmds]
  have huse : t.inUse e' = s.inUse e := by simp only [State.inUse, hop', hword, hcmds]
  simp only [State.gate, hop', hop, Bool.false_and, State.dev_of_reg hreg, hfly, huse]

/-- A body that ends in a state with nothing of its source at stage 2. -/
theorem State.runBody_done {s t : State} {e : Entry} {body : Body} (hpiton : s.pitonHeld < 4096)
    (hbody : body e (s.popHead e.src) = .done t) (hlast : t.head e.src = none) : s.runBody e body = t.settleDev := by
  rw [State.runBody, if_neg (Nat.not_le.2 hpiton), hbody]
  exact congrArg State.settleDev (settleHead_none hlast _)

theorem popHead_cons {s u : State} {e : Entry} (h : s = { u with fetched := e :: u.fetched }) : s.popHead e.src = u := by
  subst h
  simp only [State.popHead, dropHead, if_true]

/-- Where stage 2 accepts an entry whose body ends with the entries at stage 2 as they were, the device state settles. -/
theorem Accepts.stage2_done {s u t : State} {src : Src} {op : Nat} {checks : Checks} {e : Entry} {copy : List Byte} {body : Body}
    (h : Accepts s src op checks e copy u) (hop : execClass op = false) (hbody : body (e.withCopy copy) (u.popHead src) = .done t)
    (hfetched : t.fetched = (u.popHead src).fetched) : s.stage2 op src checks body = t.settleDev := by
  obtain ⟨hhead, ⟨cs, hchecks, hgood⟩, hgate, hpiton, hlast⟩ := h
  have hsrc : (e.withCopy copy).src = src := hhead.src
  have hopcode : e.op = op := hhead.2.2.2.1
  have hnone : t.head src = none := by rw [State.head, hfetched]; exact hlast
  refine (State.stage2_of_checks body hhead hchecks hgood).trans ((State.check7_accept body ?_).trans (State.runBody_done ?_ ?_ ?_))
  · refine (State.gate_congr (s := u) (e := e) ?_ ?_ ?_ (hopcode.symm ▸ hop)).trans hgate
    · rfl
    · rfl
    · rfl
  · exact hpiton
  · rw [← hbody]
    exact congrArg (body (e.withCopy copy)) (popHead_cons (e := e.withCopy copy) rfl)
  · exact (congrArg t.head hsrc).trans hnone

/-- A check of an entry that stage 2 accepts holds. -/
theorem firstBad_none {cs : List Check} (h : firstBad cs = none) : ∀ c ∈ cs, c.2.2 = true := by
  have hkeep (l : List Check) (x : Nat × Nat) : l.foldl (fun acc c =>
      if c.2.2 then acc
      else match acc with
        | some (st, d) => if c.1 < d then some (c.2.1, c.1) else some (st, d)
        | none => some (c.2.1, c.1)) (some x) ≠ none := by
    induction l generalizing x with
    | nil => exact nofun
    | cons c l ih =>
      rw [List.foldl_cons]
      split
      · exact ih x
      · dsimp only
        split <;> exact ih _
  induction cs with
  | nil => exact nofun
  | cons c cs ih =>
    rw [firstBad, List.foldl_cons] at h
    split at h
    · next hc =>
      intro x hx
      rcases List.mem_cons.1 hx with rfl | hx
      · exact hc
      · exact ih h x hx
    · exact absurd h (hkeep cs _)

/-! ## A command begins -/

/-- Every number of a command is below the next. -/
theorem State.lt_freshCmd {s : State} {x : Cmd} (hx : x ∈ s.cmds) : x.id < s.freshCmd := by
  have hmono (l : List Nat) (n : Nat) : n ≤ l.foldl (fun n i => max n (i + 1)) n :=
    foldl_keeps (fun m => n ≤ m) _ (fun _ _ h => h.trans (Nat.le_max_left _ _)) l n le_rfl
  have hmem : x.id ∈ s.namedCmds := by
    simp only [State.namedCmds, List.append_assoc]
    exact List.mem_append_left _ (List.mem_map_of_mem hx)
  exact Nat.lt_of_succ_le (foldl_reaches (fun m => x.id + 1 ≤ m) (fun n i => max n (i + 1)) (fun _ _ h => h.trans (Nat.le_max_left _ _)) hmem
    (fun _ => Nat.le_max_right _ _) s.nextCmd)

/-- The command that an entry, not deferred, starts. -/
def Entry.fresh (e : Entry) (s : State) (unit total : Nat) : Cmd :=
  { e.cmd s.freshCmd s.now false unit total with raised := s.newFlags }

/-- The state with that command past stage 3. -/
def State.begun (s : State) (e : Entry) (unit total : Nat) : State :=
  { s with nextCmd := s.freshCmd + 1, cmds := s.cmds ++ [e.fresh s unit total] }

theorem State.start_short (s : State) {e : Entry} (total : Nat) (hd : e.deferred = none) (hop : execClass e.op = false) :
    s.start e unitNone total = (s.freshCmd, s.begun e unitNone total) := by
  simp only [State.start, hd, hop, Option.isSome_none, Bool.false_and, Nat.lt_irrefl, if_false, Bool.false_eq_true]
  rfl

theorem State.start_long (s : State) {e : Entry} {unit : Nat} (total : Nat) (hu : unit < unitNone) (hd : e.deferred = none)
    (hop : execClass e.op = false) :
    s.start e unit total = (s.freshCmd, (s.begun e unit total).post (e.accepted s unit total)) := by
  simp only [State.start, hd, hop, Option.isSome_none, Bool.false_and, hu, if_true, if_false, Bool.false_eq_true]
  rfl

theorem State.cmd_of_last {s : State} {x : Cmd} {cs : List Cmd} (hcmds : s.cmds = cs ++ [x]) (hcs : ∀ y ∈ cs, y.id ≠ x.id) :
    s.cmd x.id = some x := by
  have hnone : cs.find? (fun y => y.id == x.id) = none := List.find?_eq_none.2 fun y hy => by simpa using hcs y hy
  rw [State.cmd, hcmds, List.find?_append, hnone, Option.none_or, List.find?_cons_of_pos (by exact beq_self_eq_true _)]

/-- The command that has begun, by its number. -/
theorem State.cmd_begun (s : State) (e : Entry) (unit total : Nat) :
    (s.begun e unit total).cmd s.freshCmd = some (e.fresh s unit total) :=
  State.cmd_of_last (x := e.fresh s unit total) rfl fun _ hy => (State.lt_freshCmd hy).ne

/-! ## A command ends -/

/-- Commands have changed and completions are decided; nothing else has changed. -/
def OnlyEnded (s t : State) : Prop := ∃ cs ps, t = { s with cmds := cs, posting := s.posting ++ ps }

theorem OnlyEnded.refl (s : State) : OnlyEnded s s := ⟨s.cmds, [], by rw [List.append_nil]⟩

theorem OnlyEnded.trans {s t u : State} (h : OnlyEnded s t) (k : OnlyEnded t u) : OnlyEnded s u := by
  obtain ⟨_, ps, rfl⟩ := h
  obtain ⟨cs, qs, rfl⟩ := k
  exact ⟨cs, ps ++ qs, by simp only [List.append_assoc]⟩

theorem OnlyEnded.modCmd (s : State) (id : Nat) (f : Cmd → Cmd) : OnlyEnded s (s.modCmd id f) := by
  obtain h : s.modCmd id f = { s with cmds := (s.modCmd id f).cmds, posting := s.posting ++ [] } := by rw [List.append_nil]; rfl
  exact ⟨_, _, h⟩

theorem countRefused_ok (s : State) (src : Src) : s.countRefused src stOk = s := by
  cases src <;> rfl

theorem OnlyEnded.finish_ok (s : State) (id detail result : Nat) : OnlyEnded s (s.finish id stOk detail result) := by
  unfold State.finish
  split
  · exact .refl s
  · extract_lets raised t
    rw [countRefused_ok]
    exact (OnlyEnded.modCmd s id _).trans ⟨_, [_], rfl⟩

theorem OnlyEnded.conclude_ok (s : State) (id detail result : Nat) : OnlyEnded s (s.conclude id stOk detail result) := by
  unfold State.conclude
  split
  · exact .refl s
  split
  · exact .finish_ok _ _ _ _
  · exact .modCmd _ _ _

theorem OnlyEnded.foldl {α : Type} (f : State → α → State) (hf : ∀ s a, OnlyEnded s (f s a)) (l : List α) (s : State) :
    OnlyEnded s (l.foldl f s) :=
  foldl_related OnlyEnded .refl (fun _ _ _ => .trans) f hf l s

theorem OnlyEnded.posting {s t : State} (h : OnlyEnded s t) : ∃ more, t.posting = s.posting ++ more := by
  obtain ⟨_, ps, rfl⟩ := h
  exact ⟨ps, rfl⟩

/-- The final completion of a command, decided in `s`. -/
def Cmd.ends (x : Cmd) (s : State) (status detail result : Nat) : Posting :=
  ⟨x.src, some x.id, status, detail, x.tag, x.raised, x.sqhead, result, false, x.flags.testBit 0, x.born, s.nextCmd⟩

/-- A command that waits for nothing and has not ended completes OK. -/
theorem State.conclude_ok_posts {s : State} {id : Nat} {x : Cmd} (detail result : Nat) (hx : s.cmd id = some x) (hacks : x.acks = 0)
    (hended : x.ended = false) : (s.conclude id stOk detail result).posting = s.posting ++ [x.ends s stOk detail result] := by
  have hfind : s.cmds.find? (fun y => y.id == id && !y.ended) = some x := by
    have hx' : s.cmds.find? (fun y => y.id == id) = some x := hx
    obtain ⟨hid, as, bs, hcmds, has⟩ := List.find?_eq_some_iff_append.1 hx'
    rw [List.find?_eq_some_iff_append]
    refine ⟨by simp [hid, hended], as, bs, hcmds, fun y hy => ?_⟩
    rw [Bool.not_eq_true', Bool.and_eq_false_iff]
    exact .inl (by simpa using has y hy)
  have hid : x.id = id := cmd_id hx
  rw [State.conclude, hx]
  simp only [hacks, if_true]
  rw [State.finish, hfind]
  simp only [countRefused_ok, Cmd.ends, hid]
  rfl

/-! ## The device state settles -/

theorem State.setReg_setReg (s : State) (a : Nat) (v w : W32) : (s.setReg a v).setReg a w = s.setReg a w := by
  simp only [State.setReg, Tab.set_set]

/-- Outside DRAINING only GLB_STATE changes. -/
theorem State.settleDev_reg {s : State} (h : s.dev ≠ devDraining) : ∃ v, s.settleDev = s.setReg GLB_STATE v := by
  have hdev : (s.setFld GLB_STATE 16 16 s.quiesced.toNat).dev = s.dev :=
    State.fld_setFld_other _ _ (by decide) (by decide) (.inr (.inl (by decide)))
  unfold State.settleDev
  extract_lets t rest
  rw [if_neg (show ¬ t.dev = devDraining from hdev ▸ h)]
  split
  · exact ⟨_, State.setReg_setReg _ _ _ _⟩
  · exact ⟨_, rfl⟩

/-- A device that leaves its rope: messages, the rope and the registers of power control. -/
def OnlyLeft (s t : State) : Prop := ∃ r eg rp pw, t = { s with regs := r, egress := eg, rope := rp, pwr := pw } ∧
  ∀ a, a ≠ PWR_ROPE_STAT → a ≠ PWR_OP_STAT → t.reg a = s.reg a

theorem OnlyLeft.refl (s : State) : OnlyLeft s s := ⟨_, _, _, _, rfl, fun _ _ _ => rfl⟩

theorem OnlyLeft.trans {s t u : State} (h : OnlyLeft s t) (k : OnlyLeft t u) : OnlyLeft s u := by
  obtain ⟨_, _, _, _, rfl, hreg⟩ := h
  obtain ⟨_, _, _, _, rfl, hreg'⟩ := k
  exact ⟨_, _, _, _, rfl, fun a h1 h2 => (hreg' a h1 h2).trans (hreg a h1 h2)⟩

theorem OnlyLeft.sendMgmt (s : State) (out : Option Nat) (dst code : Nat) (payload : List Byte) :
    OnlyLeft s (s.sendMgmt out dst code payload) := ⟨_, _, _, _, rfl, fun _ _ _ => rfl⟩

theorem OnlyLeft.modRope (s : State) (f : RopeState → RopeState) : OnlyLeft s (s.modRope f) := ⟨_, _, _, _, rfl, fun _ _ _ => rfl⟩

theorem OnlyLeft.setReg (s : State) {a : Nat} (v : W32) (h : a = PWR_ROPE_STAT ∨ a = PWR_OP_STAT) : OnlyLeft s (s.setReg a v) :=
  ⟨_, _, _, _, rfl, fun b h1 h2 => by rw [State.reg_setReg, if_neg (by rcases h with rfl | rfl <;> assumption)]⟩

theorem OnlyLeft.floodOn (s : State) (but code : Nat) (payload : List Byte) : OnlyLeft s (s.floodOn but code payload) :=
  foldl_related OnlyLeft .refl (fun _ _ _ => .trans) _ (fun _ _ => .sendMgmt _ _ _ _ _) _ _

theorem OnlyLeft.flood (s : State) (rope code : Nat) (fields : List Byte) : OnlyLeft s (s.flood rope code fields) := by
  refine .trans ?_ (.floodOn _ _ _ _)
  exact ⟨_, _, _, _, rfl, fun _ _ _ => rfl⟩

theorem OnlyLeft.floodFloor (s : State) (set : Bool) : OnlyLeft s (s.floodFloor set) := by
  unfold State.floodFloor
  split
  · refine .trans (.trans ?_ (.setReg _ _ (.inl rfl))) (.flood _ _ _ _)
    exact ⟨_, _, _, _, rfl, fun _ _ _ => rfl⟩
  · exact .refl s

theorem OnlyLeft.setMove (s : State) (m target : Nat) : OnlyLeft s (s.setMove m target) := by
  refine .trans (.trans ?_ (.setReg _ _ (.inr rfl))) (.setReg _ _ (.inr rfl))
  exact ⟨_, _, _, _, rfl, fun _ _ _ => rfl⟩

theorem OnlyLeft.leaveRope (s : State) (dropped : Bool) : OnlyLeft s (s.leaveRope dropped) := by
  have hleft (v : W32) (f : RopeState → RopeState) : OnlyLeft s ((s.setReg PWR_ROPE_STAT v).modRope f) :=
    .trans (.setReg s v (.inl rfl)) (.modRope _ f)
  exact ite_keeps (OnlyLeft s) ((hleft _ _).trans (.setMove _ _ _)) (hleft _ _)

theorem OnlyLeft.quitRope (s : State) : OnlyLeft s s.quitRope := by
  unfold State.quitRope
  extract_lets t rest whom u
  have ht : OnlyLeft s t := ite_keeps (OnlyLeft s) (.floodFloor _ _) (.refl s)
  have hu : OnlyLeft s u := ite_keeps (OnlyLeft s) ht (ht.trans (.sendMgmt _ _ _ _ _))
  exact hu.trans (.trans (.modRope _ _) (.leaveRope _ _))

/-- A member that leaves is in no rope. -/
theorem State.reg_quitRope (s : State) : s.quitRope.reg PWR_ROPE_STAT = 0 := by
  unfold State.quitRope
  extract_lets t rest whom u
  generalize u.modRope _ = v
  have hzero : (v.setReg PWR_ROPE_STAT 0).reg PWR_ROPE_STAT = 0 := (State.reg_setReg _ _ _ _).trans (if_pos rfl)
  refine ite_keeps (fun x : State => x.reg PWR_ROPE_STAT = 0) ?_ hzero
  rw [State.setMove, State.reg_setFld_other _ _ _ _ (by decide), State.reg_setFld_other _ _ _ _ (by decide)]
  exact hzero

/-- The ports and their states stay, and no completion is taken back. -/
structure SamePorts (s t : State) : Prop where
  ports : t.ports = s.ports
  state : ∀ p, t.portSt p = s.portSt p
  posting : ∃ more, t.posting = s.posting ++ more

theorem SamePorts.refl (s : State) : SamePorts s s := ⟨rfl, fun _ => rfl, [], (List.append_nil _).symm⟩

theorem SamePorts.trans {s t u : State} (h : SamePorts s t) (k : SamePorts t u) : SamePorts s u := by
  obtain ⟨hports, hstate, m, hm⟩ := h
  obtain ⟨hports', hstate', n, hn⟩ := k
  exact ⟨hports'.trans hports, fun p => (hstate' p).trans (hstate p), m ++ n, by rw [hn, hm, List.append_assoc]⟩

theorem portStat_ne (p : Nat) : PORT_STAT p ≠ GLB_STATE ∧ PORT_STAT p ≠ PWR_ROPE_STAT ∧ PORT_STAT p ≠ PWR_OP_STAT := by
  simp only [PORT_STAT, GLB_STATE, PWR_ROPE_STAT, PWR_OP_STAT]
  omega

theorem SamePorts.setState (s : State) (v : W32) : SamePorts s (s.setReg GLB_STATE v) :=
  ⟨rfl, fun p => State.fld_of_reg ((State.reg_setReg _ _ _ _).trans (if_neg (portStat_ne p).1)) _ _, [], (List.append_nil _).symm⟩

theorem SamePorts.ofEnded {s t : State} (h : OnlyEnded s t) : SamePorts s t := by
  obtain ⟨_, ps, rfl⟩ := h
  exact ⟨rfl, fun _ => rfl, ps, rfl⟩

theorem SamePorts.ofLeft {s t : State} (h : OnlyLeft s t) : SamePorts s t := by
  obtain ⟨_, _, _, _, rfl, hreg⟩ := h
  exact ⟨rfl, fun p => State.fld_of_reg (hreg _ (portStat_ne p).2.1 (portStat_ne p).2.2) _ _, [], (List.append_nil _).symm⟩

theorem SamePorts.drained (s : State) : SamePorts s s.drained :=
  .trans (ite_keeps (SamePorts s) (.ofLeft (.quitRope s)) (.refl s)) ⟨rfl, fun _ => rfl, [], (List.append_nil _).symm⟩

theorem SamePorts.settleDev (s : State) : SamePorts s s.settleDev := by
  unfold State.settleDev
  extract_lets t rest
  have ht : SamePorts s t := .setState s _
  have hend (u : State) (l : List Cmd) : SamePorts u (l.foldl (fun s x => s.finish x.id stOk 0 0) u) :=
    .ofEnded (.foldl _ (fun _ _ => .finish_ok _ _ _ _) _ _)
  refine ite_keeps (SamePorts s) (ite_keeps (SamePorts s) (ite_keeps (SamePorts s) ?_ ?_) ht) (ite_keeps (SamePorts s) ?_ ht)
  · exact ht.trans (.trans (.trans (.drained t) (hend _ _)) (.setState _ _))
  · exact ht.trans (.trans (.drained t) (hend _ _))
  · exact ht.trans (.setState _ _)

end Sys2Proof.Machine
end

section
/-!
FABRIC_DISCOVER, ROPE_JOIN, ROPE_LEAVE and PORT_RESET for the proof of O38 (R364, R394, R400, R430).
-/

namespace Sys2Proof.Machine

/-! ## Ports -/

theorem State.port_modPort (s : State) (p : Nat) (f : PortState → PortState) : (s.modPort p f).port p = f (s.port p) :=
  Tab.get_set_same _ _ _ _

/-- A link is noted as broken or back: messages, the list of broken links and its register. -/
structure LinkMoves (s t : State) : Prop where
  parts : ∃ r eg br, t = { s with regs := r, egress := eg, broken := br }
  reg : ∀ a, a ≠ FAB_BROKEN → t.reg a = s.reg a

theorem LinkMoves.refl (s : State) : LinkMoves s s := ⟨⟨_, _, _, rfl⟩, fun _ _ => rfl⟩

theorem LinkMoves.trans {s t u : State} (h : LinkMoves s t) (k : LinkMoves t u) : LinkMoves s u := by
  obtain ⟨⟨_, _, _, rfl⟩, hreg⟩ := h
  obtain ⟨⟨_, _, _, rfl⟩, hreg'⟩ := k
  exact ⟨⟨_, _, _, rfl⟩, fun a h => (hreg' a h).trans (hreg a h)⟩

theorem LinkMoves.sendMgmt (s : State) (out : Option Nat) (dst code : Nat) (payload : List Byte) :
    LinkMoves s (s.sendMgmt out dst code payload) := ⟨⟨_, _, _, rfl⟩, fun _ _ => rfl⟩

theorem LinkMoves.foldl {α : Type} (f : State → α → State) (hf : ∀ s a, LinkMoves s (f s a)) (l : List α) (s : State) :
    LinkMoves s (l.foldl f s) :=
  foldl_related LinkMoves .refl (fun _ _ _ => .trans) f hf l s

theorem LinkMoves.showBroken (s : State) : LinkMoves s s.showBroken :=
  .foldl _ (fun _ _ => ⟨⟨_, _, _, rfl⟩, fun _ h => State.reg_setFld_other _ _ _ _ h⟩) _ _

theorem LinkMoves.floodRing (s : State) (code d coord : Nat) (ways : List Bool) : LinkMoves s (s.floodRing code d coord ways) := by
  refine .foldl _ (fun t plus => ?_) _ _
  split
  · exact .sendMgmt _ _ _ _ _
  · exact .refl t

theorem LinkMoves.broken (s : State) (l : List (Nat × Nat)) : LinkMoves s { s with broken := l } := ⟨⟨_, _, _, rfl⟩, fun _ _ => rfl⟩

theorem LinkMoves.checkLink (s : State) (p : Nat) : LinkMoves s (s.checkLink p) := by
  have hnoted (l : List (Nat × Nat)) (code d coord : Nat) (ways : List Bool) :
      LinkMoves s ((({ s with broken := l } : State).showBroken).floodRing code d coord ways) :=
    .trans (.trans (.broken s l) (.showBroken _)) (.floodRing _ _ _ _ _)
  exact ite_keeps (LinkMoves s) (.refl s) (ite_keeps (LinkMoves s) (ite_keeps (LinkMoves s) (.refl s) (hnoted _ _ _ _ _))
    (ite_keeps (LinkMoves s) (hnoted _ _ _ _ _) (.refl s)))

/-- The registers that a port writes when its state changes. -/
def portReg (a : Nat) : Prop := a = FAB_BROKEN ∨ a = RAS_LOG_SEQ ∨ a = RAS_LOG_HEAD ∨ a = CMDQ_EVT ∨ ∃ p, a = PORT_STAT p

/-- Ports have changed: their states, what follows on links, log and PORT_RESETs, messages. -/
structure PortMoves (s t : State) : Prop where
  parts : ∃ r l n v eg br cs ps fr po, t = { s with
    regs := r, log := l, logCount := n, vecReq := v, egress := eg, broken := br, cmds := cs, posting := s.posting ++ ps, free := fr,
    ports := po }
  reg : ∀ a, ¬ portReg a → t.reg a = s.reg a

theorem PortMoves.refl (s : State) : PortMoves s s := ⟨⟨_, _, _, _, _, _, _, [], _, _, by rw [List.append_nil]⟩, fun _ _ => rfl⟩

theorem PortMoves.trans {s t u : State} (h : PortMoves s t) (k : PortMoves t u) : PortMoves s u := by
  obtain ⟨⟨_, _, _, _, _, _, _, ps, _, _, rfl⟩, hreg⟩ := h
  obtain ⟨⟨_, _, _, _, _, _, _, qs, _, _, rfl⟩, hreg'⟩ := k
  exact ⟨⟨_, _, _, _, _, _, _, ps ++ qs, _, _, by simp only [List.append_assoc]; rfl⟩, fun a h => (hreg' a h).trans (hreg a h)⟩

theorem PortMoves.foldl {α : Type} (f : State → α → State) (hf : ∀ s a, PortMoves s (f s a)) (l : List α) (s : State) :
    PortMoves s (l.foldl f s) :=
  foldl_related PortMoves .refl (fun _ _ _ => .trans) f hf l s

theorem PortMoves.ofLink {s t : State} (h : LinkMoves s t) : PortMoves s t := by
  obtain ⟨⟨_, _, _, rfl⟩, hreg⟩ := h
  exact ⟨⟨_, _, _, _, _, _, _, [], _, _, by rw [List.append_nil]⟩, fun a ha => hreg a fun h => ha (.inl h)⟩

theorem PortMoves.ofEnded {s t : State} (h : OnlyEnded s t) : PortMoves s t := by
  obtain ⟨_, _, rfl⟩ := h
  exact ⟨⟨_, _, _, _, _, _, _, _, _, _, rfl⟩, fun _ _ => rfl⟩

theorem PortMoves.sendMgmt (s : State) (out : Option Nat) (dst code : Nat) (payload : List Byte) :
    PortMoves s (s.sendMgmt out dst code payload) := .ofLink (.sendMgmt _ _ _ _ _)

theorem PortMoves.modPort (s : State) (p : Nat) (f : PortState → PortState) : PortMoves s (s.modPort p f) :=
  ⟨⟨_, _, _, _, _, _, _, [], _, _, by rw [List.append_nil]; rfl⟩, fun _ _ => rfl⟩

theorem PortMoves.logEvent (s : State) (ev st src : Nat) (info : W64) : PortMoves s (s.logEvent ev st src info) := by
  have hreg (a : Nat) (ha : ¬ portReg a) : (s.logEvent ev st src info).reg a = s.reg a :=
    State.logEvent_reg _ _ _ _ _ (fun h => ha (.inr (.inl h))) (fun h => ha (.inr (.inr (.inl h))))
      (fun h => ha (.inr (.inr (.inr (.inl h)))))
  obtain ⟨_, _, _, _, h⟩ := OnlyLogged.logEvent s ev st src info
  rw [h] at hreg ⊢
  exact ⟨⟨_, _, _, _, _, _, _, [], _, _, by rw [List.append_nil]⟩, hreg⟩

theorem PortMoves.setStat (s : State) (p hi lo v : Nat) : PortMoves s (s.setFld (PORT_STAT p) hi lo v) :=
  ⟨⟨_, _, _, _, _, _, _, [], _, _, by rw [List.append_nil]; rfl⟩,
    fun _ ha => State.reg_setFld_other _ _ _ _ fun h => ha (.inr (.inr (.inr (.inr ⟨p, h⟩))))⟩

theorem PortMoves.portTo (s : State) (p st : Nat) : PortMoves s (s.portTo p st) := by
  have hend (t : State) : PortMoves t (t.endPortReset p) := .ofEnded (.foldl _ (fun _ _ => .conclude_ok _ _ _ _) _ _)
  refine ite_keeps (PortMoves s) (.refl s) ?_
  have h1 : PortMoves s (s.setFld (PORT_STAT p) 3 0 st) := .setStat _ _ _ _ _
  have h2 (t : State) (h : PortMoves s t) (c : Prop) [Decidable c] : PortMoves s (if c then t.checkLink p else t) :=
    ite_keeps (PortMoves s) (h.trans (.ofLink (.checkLink _ _))) h
  have h3 (t : State) (h : PortMoves s t) (c : Prop) [Decidable c] : PortMoves s (if c then t.endPortReset p else t) :=
    ite_keeps (PortMoves s) (h.trans (hend _)) h
  exact h3 _ (h2 _ (ite_keeps (PortMoves s) (h1.trans (.logEvent _ _ _ _ _)) h1) _) _

theorem PortMoves.challenge (s : State) (p : Nat) : PortMoves s (s.challenge p) := by
  refine .trans (.trans (.trans ?_ (.portTo _ _ _)) (.modPort _ _ _)) (.sendMgmt _ _ _ _ _)
  exact ⟨⟨_, _, _, _, _, _, _, [], _, _, by rw [List.append_nil]⟩, fun _ _ => rfl⟩

theorem PortMoves.posting {s t : State} (h : PortMoves s t) : ∃ more, t.posting = s.posting ++ more := by
  obtain ⟨⟨_, _, _, _, _, _, _, ps, _, _, rfl⟩, -⟩ := h
  exact ⟨ps, rfl⟩

theorem not_portReg {a : Nat} (h1 : a ≠ FAB_BROKEN) (h2 : a ≠ RAS_LOG_SEQ) (h3 : a ≠ RAS_LOG_HEAD) (h4 : a ≠ CMDQ_EVT)
    (h : a < 0x601004) : ¬ portReg a := by
  rintro (h' | h' | h' | h' | ⟨p, h'⟩)
  · exact h1 h'
  · exact h2 h'
  · exact h3 h'
  · exact h4 h'
  · simp only [PORT_STAT] at h'; omega

/-! ## FABRIC_DISCOVER -/

/-- A device that has joined a wave in phase 1: its epoch, its candidate and what the wave asks for. -/
structure Joined (epoch cand : Nat) (requireId : Bool) (s t : State) : Prop where
  epoch : t.fld FAB_DISC 31 20 = epoch % 4096
  phase : t.fld FAB_DISC 17 16 = 1
  cand : t.wave.cand = cand
  root : t.wave.root = false
  requireId : t.wave.requireId = requireId
  fetched : t.fetched = s.fetched
  dev : t.dev = s.dev
  posting : ∃ more, t.posting = s.posting ++ more

theorem Joined.trans {epoch cand : Nat} {requireId : Bool} {s t u : State} (h : Joined epoch cand requireId s t) (k : PortMoves t u) :
    Joined epoch cand requireId s u := by
  obtain ⟨hepoch, hphase, hcand, hroot, hreq, hfetched, hdev, m, hm⟩ := h
  have hdisc : u.reg FAB_DISC = t.reg FAB_DISC := k.reg _ (not_portReg (by decide) (by decide) (by decide) (by decide) (by decide))
  have hstate : u.reg GLB_STATE = t.reg GLB_STATE := k.reg _ (not_portReg (by decide) (by decide) (by decide) (by decide) (by decide))
  obtain ⟨⟨_, _, _, _, _, _, _, ps, _, _, hu⟩, -⟩ := k
  refine ⟨(State.fld_of_reg hdisc _ _).trans hepoch, (State.fld_of_reg hdisc _ _).trans hphase, ?_, ?_, ?_, ?_,
    (State.dev_of_reg hstate).trans hdev, m ++ ps, ?_⟩
  · rw [hu]; exact hcand
  · rw [hu]; exact hroot
  · rw [hu]; exact hreq
  · rw [hu]; exact hfetched
  · rw [hu, ← List.append_assoc, ← hm]

/-- FAB_DISC of a device that joins the wave of an epoch. -/
def State.discStarts (s : State) (epoch : Nat) : State := ((s.setFld FAB_DISC 31 20 epoch).setFld FAB_DISC 17 16 1).setFld FAB_DISC 14 0 0

theorem State.fld_discStarts (s : State) (epoch : Nat) :
    (s.discStarts epoch).fld FAB_DISC 31 20 = epoch % 4096 ∧ (s.discStarts epoch).fld FAB_DISC 17 16 = 1 := by
  unfold State.discStarts
  constructor
  · rw [State.fld_setFld_other _ _ (by decide) (by decide) (.inr (.inr (by decide))),
      State.fld_setFld_other _ _ (by decide) (by decide) (.inr (.inr (by decide))), State.fld_setFld_same _ _ _ (by decide) (by decide)]
    rfl
  · rw [State.fld_setFld_other _ _ (by decide) (by decide) (.inr (.inr (by decide))), State.fld_setFld_same _ _ _ (by decide) (by decide)]
    rfl

theorem State.reg_discStarts (s : State) (epoch : Nat) {a : Nat} (h : a ≠ FAB_DISC) : (s.discStarts epoch).reg a = s.reg a := by
  unfold State.discStarts
  rw [State.reg_setFld_other _ _ _ _ h, State.reg_setFld_other _ _ _ _ h, State.reg_setFld_other _ _ _ _ h]

/-- What a device that joins a wave does to its ports: they forget the wave before, START goes out on the UP ones, and the identity
exchange begins where it is asked for. -/
def State.waveTold (s : State) (epoch initiator : Nat) (root requireId : Bool) (from' : Option Nat) : State :=
  let s := (List.range 32).foldl (fun s p => s.modPort p (fun x => { x with
    assign := none, badAssign := false, passed := false, answered := false, asked := none })) s
  let ups := (List.range 32).filter (fun p => s.portSt p == pUp)
  let s := (ups.filter (fun p => some p != from')).foldl (fun s p =>
    s.sendMgmt (some p) 0 0x02 (leBytes 2 epoch ++ leBytes 8 initiator ++ leBytes 1 (root.toNat + requireId.toNat * 2))) s
  if requireId then
    ((List.range 32).filter (fun p => s.portSt p == pUp || s.portSt p == pQuarantine)).foldl (fun s p => s.challenge p) s
  else s

theorem PortMoves.waveTold (s : State) (epoch initiator : Nat) (root requireId : Bool) (from' : Option Nat) :
    PortMoves s (s.waveTold epoch initiator root requireId from') := by
  unfold State.waveTold
  extract_lets t ups u
  have ht : PortMoves s t := .foldl _ (fun _ _ => .modPort _ _ _) _ _
  have hu : PortMoves s u := ht.trans (.foldl _ (fun _ _ => .sendMgmt _ _ _ _ _) _ _)
  exact ite_keeps (PortMoves s) (hu.trans (.foldl _ (fun _ _ => .challenge _ _) _ _)) hu

/-- A wave of a device whose FAB_DISC shows it. -/
theorem Joined.withWave {s t : State} {epoch : Nat} {requireId : Bool} (hepoch : t.fld FAB_DISC 31 20 = epoch % 4096)
    (hphase : t.fld FAB_DISC 17 16 = 1) (hserial : t.serialNo = s.serialNo) (hdev : t.dev = s.dev) (hfetched : t.fetched = s.fetched)
    (hposting : t.posting = s.posting) (mine : Bool) : Joined epoch s.serialNo requireId s { t with
      wave := { Wave.reset with candHost := mine, cand := t.serialNo, since := t.now, requireId := requireId } } :=
  ⟨hepoch, hphase, hserial, rfl, rfl, hfetched, hdev, [], by rw [List.append_nil]; exact hposting⟩

theorem Joined.joinWave (s : State) (epoch initiator : Nat) (root requireId : Bool) (from' : Option Nat) :
    Joined epoch s.serialNo requireId s (s.joinWave epoch initiator root requireId from') := by
  have hserial : (s.discStarts epoch).serialNo = s.serialNo := by
    rw [State.serialNo, State.pair, State.reg_discStarts _ _ (by decide), State.reg_discStarts _ _ (by decide), State.serialNo, State.pair]
  obtain ⟨hepoch, hphase⟩ := s.fld_discStarts epoch
  have hbegins := Joined.withWave (requireId := requireId) hepoch hphase hserial
    (State.dev_of_reg (State.reg_discStarts s epoch (by decide))) rfl rfl (s.discoverCmds.any (fun x => (x.words.headD 0).testBit 0))
  exact hbegins.trans (.waveTold _ epoch initiator root requireId from')

/-- A command that stage 2 accepts outside DRAINING ends in the state of its body, but for GLB_STATE. -/
theorem Accepts.stage2_reg {s u t : State} {src : Src} {op : Nat} {checks : Checks} {e : Entry} {copy : List Byte} {body : Body}
    (h : Accepts s src op checks e copy u) (hop : op = 0x50 ∨ op = 0x52 ∨ op = 0x53 ∨ op = 0x61)
    (hbody : body (e.withCopy copy) (u.popHead src) = .done t) (hfetched : t.fetched = (u.popHead src).fetched) (hdev : t.dev = u.dev) :
    ∃ v, s.stage2 op src checks body = t.setReg GLB_STATE v := by
  obtain ⟨hhead, -, hgate, -⟩ := id h
  have hopcode : e.op = op := hhead.2.2.2.1
  have hexec : execClass op = false := by rcases hop with rfl | rfl | rfl | rfl <;> rfl
  have hdrain : u.dev ≠ devDraining := by
    intro hd
    rw [State.gate, hd, hopcode] at hgate
    rcases hop with rfl | rfl | rfl | rfl <;> exact nomatch hgate
  obtain ⟨v, hv⟩ := State.settleDev_reg (hdev ▸ hdrain)
  exact ⟨v, (h.stage2_done hexec hbody hfetched).trans hv⟩

/-- What a command of the fabric makes of ports, wave, completions and registers. -/
theorem Gives.ofFabric {i : Instr} {s u : State} {P : State → Prop} (h : exec i s = s.keepEdge (s.keepMem (s.keepCores (.next u))))
    (hp : ∀ t : State, t.ports = u.ports → t.wave = u.wave → t.posting = u.posting → (∀ a, t.reg a = u.reg a) → P t) : Gives i s P :=
  ⟨_, h, hp _ rfl rfl rfl (fun _ => rfl)⟩

theorem State.reg_of_regs {s t : State} (h : t.regs = s.regs) (a : Nat) : t.reg a = s.reg a := by
  rw [State.reg, State.reg, h]

theorem State.fld_setReg_other (s : State) {a b : Nat} (v : W32) (hi lo : Nat) (h : b ≠ a) : (s.setReg a v).fld b hi lo = s.fld b hi lo :=
  State.fld_of_reg ((State.reg_setReg _ _ _ _).trans (if_neg h)) hi lo

/-- The state that a long command begins in: its ACCEPTED completion is decided. -/
structure Starts (u w : State) (e : Entry) (unit total : Nat) : Prop where
  regs : w.regs = u.regs
  posting : w.posting = u.posting ++ [e.accepted u unit total]
  now : w.now = u.now
  cores : w.cores = u.cores
  dmem : w.dmem = u.dmem
  ledgeErr : w.ledgeErr = u.ledgeErr
  ledgeRows : w.ledgeRows = u.ledgeRows
  fieldRepairs : w.fieldRepairs = u.fieldRepairs
  nextCmd : w.nextCmd = u.freshCmd + 1
  cmd : w.cmd u.freshCmd = some (e.fresh u unit total)

theorem Accepts.starts {s u : State} {src : Src} {op : Nat} {checks : Checks} {e : Entry} {copy : List Byte} {unit : Nat}
    (h : Accepts s src op checks e copy u) (hop : execClass op = false) (hunit : unit < unitNone) (total : Nat) :
    ∃ w, (u.popHead src).start (e.withCopy copy) unit total = (u.freshCmd, w) ∧ w.fetched = (u.popHead src).fetched ∧
      Starts u w e unit total := by
  obtain ⟨-, -, -, hopcode, -, hdeferred, -⟩ := h.1
  have hexec : execClass (e.withCopy copy).op = false := (congrArg execClass hopcode).trans hop
  exact ⟨_, State.start_long (u.popHead src) total hunit hdeferred hexec, rfl, rfl, rfl, rfl, rfl, rfl, rfl, rfl, rfl, rfl,
    State.cmd_begun (u.popHead src) (e.withCopy copy) unit total⟩

@[simp] theorem Entry.word_withCopy (e : Entry) (copy : List Byte) (i : Nat) : (e.withCopy copy).word i = e.word i := rfl

@[simp] theorem Entry.copy_withCopy (e : Entry) (copy : List Byte) : (e.withCopy copy).copy = copy := rfl

theorem State.fld_taken (s : State) (src : Src) (a hi lo : Nat) : ((s.tookTurn src).popHead src).fld a hi lo = s.fld a hi lo := rfl

theorem State.serialNo_taken (s : State) (src : Src) : ((s.tookTurn src).popHead src).serialNo = s.serialNo := rfl

theorem fabricDiscover_joins {s : State} {src : Src} {e : Entry} (h : Accepts s src 0x50 noFields e [] (s.tookTurn src)) :
    Gives (.fabricDiscover src) s (fun t => t.fld FAB_DISC 31 20 = (s.fld FAB_DISC 31 20 + 1) % 4096 ∧ t.fld FAB_DISC 17 16 = 1 ∧
      t.wave.cand = s.serialNo ∧ t.wave.root = false ∧ t.wave.requireId = (e.word 0).testBit 1 ∧
      Decides s t [e.accepted s unitDevices (e.word 1 % 2 ^ 14)]) := by
  obtain ⟨w, hstart, hentries, hregs, hdecided, -⟩ := h.starts rfl (unit := unitDevices) (by decide) (e.word 1 % 2 ^ 14)
  have hserial : w.serialNo = s.serialNo := by
    rw [State.serialNo, State.serialNo, State.pair, State.pair, State.reg_of_regs hregs, State.reg_of_regs hregs]
    rfl
  obtain ⟨hepoch, hphase, hcand, hroot, hreq, hfetched, hdev, more, hposting⟩ := Joined.joinWave w
    ((s.fld FAB_DISC 31 20 + 1) % 4096) s.serialNo ((e.word 0).testBit 0) ((e.word 0).testBit 1) none
  have hbody : opFabricDiscover (e.withCopy []) ((s.tookTurn src).popHead src) = .done (w.joinWave ((s.fld FAB_DISC 31 20 + 1) % 4096)
      s.serialNo ((e.word 0).testBit 0) ((e.word 0).testBit 1) none) := by
    rw [opFabricDiscover, Entry.word_withCopy, Entry.word_withCopy, hstart, State.fld_taken, State.serialNo_taken]
  generalize w.joinWave _ _ _ _ _ = y at *
  obtain ⟨x, hx⟩ := h.stage2_reg (.inl rfl) hbody (hfetched.trans hentries)
    (hdev.trans (State.dev_of_reg (State.reg_of_regs hregs _)))
  refine Gives.ofFabric (congrArg (fun t => s.keepEdge (s.keepMem (s.keepCores (.next t)))) hx) fun t _ hwave hpost hreg => ?_
  have hfld (hi lo : Nat) : t.fld FAB_DISC hi lo = y.fld FAB_DISC hi lo :=
    (State.fld_of_reg (hreg FAB_DISC) hi lo).trans (State.fld_setReg_other _ x hi lo (by decide))
  refine ⟨?_, (hfld 17 16).trans hphase, ?_, ?_, ?_, ?_⟩
  · rw [hfld, hepoch, Nat.mod_mod]
  · rw [hwave, ← hserial]
    exact hcand
  · rw [hwave]
    exact hroot
  · rw [hwave]
    exact hreq
  · refine ⟨[e.accepted s unitDevices (e.word 1 % 2 ^ 14)] ++ more, ?_, List.sublist_append_left _ _⟩
    rw [hpost, ← List.append_assoc]
    exact hposting.trans (congrArg (· ++ more) hdecided)

/-! ## ROPE_JOIN and ROPE_LEAVE -/

/-- What a command of the rope makes of it, of completions and registers. -/
theorem Gives.ofRope {i : Instr} {s u : State} {P : State → Prop} (h : exec i s = s.keepEdge (s.keepFabric (s.keepMem (.next u))))
    (hp : ∀ t : State, t.rope = u.rope → t.ropeList = u.ropeList → t.posting = u.posting → (∀ a, t.reg a = u.reg a) → P t) :
    Gives i s P :=
  ⟨_, h, hp _ rfl rfl rfl (fun _ => rfl)⟩

/-- A short command, not deferred, completes at once. -/
theorem State.short_posts (s : State) {e : Entry} {status : Nat} (detail result : Nat) (hd : e.deferred = none)
    (hst : status ≠ stStateRefused) : s.short e status detail result = s.post (e.answer s status detail result) := by
  have hcount : s.countRefused e.src status = s := by
    unfold State.countRefused
    split
    · exact if_neg hst
    · rfl
  rw [State.short, hd, State.complete, hcount]
  rfl

/-- A completion after messages and a rope left says the same. -/
theorem OnlyLeft.answer {s t : State} (h : OnlyLeft s t) (e : Entry) (status detail result : Nat) :
    e.answer t status detail result = e.answer s status detail result := by
  obtain ⟨_, _, _, _, rfl, hreg⟩ := h
  have hflags := hreg PWR_CAP_STATUS (by decide) (by decide)
  rw [Entry.answer, Entry.answer, State.newFlags, State.newFlags, State.capUnmet, State.capUnmet, hflags]

theorem OnlyLeft.fetched {s t : State} (h : OnlyLeft s t) : t.fetched = s.fetched := by
  obtain ⟨_, _, _, _, rfl, -⟩ := h
  rfl

theorem OnlyLeft.posting {s t : State} (h : OnlyLeft s t) : t.posting = s.posting := by
  obtain ⟨_, _, _, _, rfl, -⟩ := h
  rfl

theorem OnlyLeft.dev {s t : State} (h : OnlyLeft s t) : t.dev = s.dev := by
  obtain ⟨_, _, _, _, -, hreg⟩ := h
  exact State.dev_of_reg (hreg GLB_STATE (by decide) (by decide))

/-- A short command that may leave the rope completes at once (R394, R400). -/
theorem Accepts.short_left {s u t : State} {src : Src} {op : Nat} {checks : Checks} {e : Entry} {copy : List Byte} {body : Body}
    {status : Nat} (h : Accepts s src op checks e copy u) (hop : op = 0x50 ∨ op = 0x52 ∨ op = 0x53 ∨ op = 0x61)
    (hst : status ≠ stStateRefused) (hleft : OnlyLeft (u.popHead src) t)
    (hbody : body (e.withCopy copy) (u.popHead src) = .done (t.short (e.withCopy copy) status 0 0)) :
    ∃ v, s.stage2 op src checks body = (t.post (e.answer u status 0 0)).setReg GLB_STATE v := by
  obtain ⟨-, -, -, -, -, hdeferred, -⟩ := h.1
  have hshort : t.short (e.withCopy copy) status 0 0 = t.post (e.answer u status 0 0) := by
    rw [State.short_posts t 0 0 (e := e.withCopy copy) hdeferred hst, hleft.answer]
    rfl
  rw [hshort] at hbody
  exact h.stage2_reg hop hbody hleft.fetched hleft.dev

/-- A join of a member or a joiner is refused (R394). -/
theorem ropeJoin_refused {s u : State} {src : Src} {e : Entry} {b : List Byte} (h : Accepts s src 0x52 ropeJoinChecks e b u)
    (hin : u.isMember = true ∨ u.joining = true) : Gives (.ropeJoin src) s (fun t => Decides u t [e.answer u stRopeRefused 0 0]) := by
  have hleft : OnlyLeft (u.popHead src) ((u.popHead src).floodRefuse (e.word 0 % 2 ^ 16) 2) := .flood _ _ _ _
  have hbody : opRopeJoin (e.withCopy b) (u.popHead src) =
      .done (((u.popHead src).floodRefuse (e.word 0 % 2 ^ 16) 2).short (e.withCopy b) stRopeRefused 0 0) := by
    have hcond : ((u.popHead src).isMember || (u.popHead src).joining) = true := (Bool.or_eq_true u.isMember u.joining).mpr hin
    rw [opRopeJoin]
    exact if_pos hcond
  obtain ⟨v, hv⟩ := h.short_left (.inr (.inl rfl)) (by decide) hleft hbody
  refine Gives.ofRope (congrArg (fun t => s.keepEdge (s.keepFabric (s.keepMem (.next t)))) hv) fun t _ _ hpost _ => ⟨_, ?_, List.Sublist.refl _⟩
  rw [hpost]
  exact congrArg (· ++ [e.answer u stRopeRefused 0 0]) hleft.posting

/-- A member leaves, and the command completes (R400). -/
theorem ropeLeave_leaves {s : State} {src : Src} {e : Entry} (h : Accepts s src 0x53 noFields e [] (s.tookTurn src))
    (hrope : s.ropeId = e.word 0 % 2 ^ 16) (hin : s.isMember = true) (hjoin : s.joining = false) :
    Gives (.ropeLeave src) s (fun t => t.reg PWR_ROPE_STAT = 0 ∧ Decides s t [e.answer s stOk 0 0]) := by
  have hleft : OnlyLeft ((s.tookTurn src).popHead src) ((s.tookTurn src).popHead src).quitRope := .quitRope _
  have hbody : opRopeLeave (e.withCopy []) ((s.tookTurn src).popHead src) =
      .done (((s.tookTurn src).popHead src).quitRope.short (e.withCopy []) stOk 0 0) := by
    have hhere : ¬ (((s.tookTurn src).popHead src).ropeId ≠ (e.withCopy []).word 0 % 2 ^ 16 ∨
        ¬ (((s.tookTurn src).popHead src).isMember = true ∨ ((s.tookTurn src).popHead src).joining = true)) :=
      fun hno => hno.elim (fun hid => hid hrope) (fun hnot => hnot (.inl hin))
    have hstays : ¬ ((s.tookTurn src).popHead src).joining = true := by
      rw [show ((s.tookTurn src).popHead src).joining = s.joining from rfl, hjoin]
      decide
    rw [opRopeLeave, if_neg hhere, if_neg hstays]
  obtain ⟨v, hv⟩ := h.short_left (.inr (.inr (.inl rfl))) (by decide) hleft hbody
  have hexec : exec (.ropeLeave src) s = s.keepEdge (s.keepFabric (s.keepMem (.next (s.sameCores (((s.tookTurn src).popHead src).quitRope.post
      (e.answer s stOk 0 0) |>.setReg GLB_STATE v))))) :=
    congrArg (fun t => s.keepEdge (s.keepFabric (s.keepMem (s.keepCores (.next t))))) hv
  refine Gives.ofRope hexec fun t _ _ hpost hreg => ⟨?_, _, ?_, List.Sublist.refl _⟩
  · refine (hreg _).trans ((State.reg_setReg _ _ _ _).trans ((if_neg (by decide)).trans ?_))
    exact State.reg_quitRope _
  · rw [hpost]
    exact congrArg (· ++ [e.answer s stOk 0 0]) hleft.posting

/-- A join waits for the rope: its list is kept, and the ROPE_FORM goes to the lowest of the list (R394). -/
def State.joinAsks (s : State) (rope : Nat) (l : List Nat) : State :=
  let s := s.setReg PWR_ROPE_STAT (BitVec.ofNat 32 rope)
  let s := s.modRope (fun x => { x with list := l, members := [], joinAt := some s.now })
  let s : State := { s with ropeList := l }
  (s.modRope (fun x => { x with seq := (x.seq + 1) % 2 ^ 16 })).sendMgmt none (lowestId l) 0x10
    (paceHead rope s.devId s.rope.seq ++ leBytes 2 l.length ++ listHash l ++ leBytes 1 s.permitted)

theorem State.joinAsks_rope (s : State) (rope : Nat) (l : List Nat) : (s.joinAsks rope l).rope.joinAt = some s.now ∧
    (s.joinAsks rope l).rope.list = l ∧ (s.joinAsks rope l).ropeList = l ∧ (s.joinAsks rope l).posting = s.posting ∧
      (s.joinAsks rope l).fetched = s.fetched := ⟨rfl, rfl, rfl, rfl, rfl⟩

theorem State.joinAsks_reg (s : State) (rope : Nat) (l : List Nat) (a : Nat) :
    (s.joinAsks rope l).reg a = if a = PWR_ROPE_STAT then BitVec.ofNat 32 rope else s.reg a := State.reg_setReg _ _ _ _

/-- The device of a join, where it is not the lowest of the list. -/
theorem ropeJoin_waits {s u : State} {src : Src} {e : Entry} {b : List Byte} {l : List Nat} (h : Accepts s src 0x52 ropeJoinChecks e b u)
    (hl : (List.range (b.length / 2)).map (fun i => leNat ((b.drop (2 * i)).take 2)) = l) (hin : u.isMember = false)
    (hjoin : u.joining = false) (hlow : lowestId l ≠ u.devId) :
    Gives (.ropeJoin src) s (fun t => t.rope.joinAt = some u.now ∧ t.rope.list = l ∧ t.ropeList = l ∧
      t.reg PWR_ROPE_STAT = BitVec.ofNat 32 (e.word 0 % 2 ^ 16) ∧ Decides u t [e.accepted u unitDevices l.length]) := by
  obtain ⟨w, hstart, hentries, hregs, hdecided, hnow, -⟩ := h.starts rfl (unit := unitDevices) (by decide) l.length
  obtain ⟨hat, hlist, hlist', hposting, hfetched⟩ := w.joinAsks_rope (e.word 0 % 2 ^ 16) l
  have hreg := w.joinAsks_reg (e.word 0 % 2 ^ 16) l
  have hbody : opRopeJoin (e.withCopy b) (u.popHead src) = .done (w.joinAsks (e.word 0 % 2 ^ 16) l) := by
    have hcond : ¬ ((u.popHead src).isMember || (u.popHead src).joining) = true := by
      rw [show (u.popHead src).isMember = u.isMember from rfl, show (u.popHead src).joining = u.joining from rfl, hin, hjoin]
      decide
    have hdev : w.devId = u.devId := State.fld_of_reg (State.reg_of_regs hregs _) _ _
    have hlow' : ¬ lowestId l = ((w.setReg PWR_ROPE_STAT (BitVec.ofNat 32 (e.word 0 % 2 ^ 16)))).devId := by
      rwa [State.devId, State.fld_setReg_other _ _ _ _ (by decide), ← State.devId, hdev]
    rw [opRopeJoin, if_neg hcond]
    simp only [Entry.copy_withCopy, Entry.word_withCopy, hl, hstart]
    exact if_neg hlow'
  generalize w.joinAsks _ l = y at *
  obtain ⟨x, hx⟩ := h.stage2_reg (.inr (.inl rfl)) hbody (hfetched.trans hentries)
    (State.dev_of_reg ((hreg GLB_STATE).trans ((if_neg (by decide)).trans (State.reg_of_regs hregs _))))
  refine Gives.ofRope (congrArg (fun t => s.keepEdge (s.keepFabric (s.keepMem (.next t)))) hx) fun t hrope hropes hpost hreg' => ?_
  refine ⟨?_, ?_, hropes.trans hlist', ?_, [e.accepted u unitDevices l.length], ?_, List.Sublist.refl _⟩
  · rw [hrope, ← hnow]
    exact hat
  · rw [hrope]
    exact hlist
  · exact (hreg' _).trans ((State.reg_setReg _ _ _ _).trans ((if_neg (by decide)).trans ((hreg _).trans (if_pos rfl))))
  · exact hpost.trans (hposting.trans hdecided)

end Sys2Proof.Machine
end

section
/-!
PORT_RESET for the proof of O38 (R430).
-/

namespace Sys2Proof.Machine

/-! ## The port -/

/-- A port that goes to TRAINING ends no PORT_RESET: its state, and what follows on its link. -/
theorem State.portTo_training {s : State} {p : Nat} (h : s.portSt p ≠ pTraining) :
    LinkMoves (s.setFld (PORT_STAT p) 3 0 pTraining) (s.portTo p pTraining) := by
  unfold State.portTo
  extract_lets old t u v
  rw [if_neg h, if_neg h]
  exact ite_keeps (LinkMoves t) (.checkLink _ _) (.refl t)

/-- A port reset: it has lost its retry buffer and its latched states, and trains. -/
def PortState.restarted (x : PortState) : PortState := { x with
  trained := false, degraded := false, failedId := false, badAssign := false, retry := [], txSeq := 0, rxSeq := 0,
  discard := false, txUsed := [], rxUsed := [], naks := [], viols := [], asked := none }

/-- The state with a port reset. -/
def State.portRestarted (s : State) (p : Nat) : State := (s.noteRetrain p).modPort p PortState.restarted

/-- The port shows nothing of its state before. -/
abbrev PortState.Cleared (x : PortState) : Prop :=
  x.retry = [] ∧ x.degraded = false ∧ x.failedId = false ∧ x.badAssign = false ∧ x.trained = false

theorem State.port_portRestarted (s : State) (p : Nat) : ((s.portRestarted p).port p).Cleared := by
  unfold State.portRestarted
  rw [State.port_modPort]
  exact ⟨rfl, rfl, rfl, rfl, rfl⟩

theorem State.reg_portRestarted (s : State) (p : Nat) {a : Nat} (h : a ≠ PORT_RETRAIN p) : (s.portRestarted p).reg a = s.reg a :=
  State.reg_setFld_other _ _ _ _ h

theorem State.portSt_portRestarted (s : State) (p : Nat) : (s.portRestarted p).portSt p = s.portSt p :=
  State.fld_of_reg (s.reg_portRestarted p (by simp only [PORT_STAT, PORT_RETRAIN]; omega)) 3 0

/-- A port reset goes to TRAINING, or is there. -/
def State.portTrains (s : State) (p : Nat) : State := if s.portSt p = pTraining then s else s.portTo p pTraining

theorem State.portTrains_spec (s : State) (p : Nat) : (s.portTrains p).portSt p = pTraining ∧ (s.portTrains p).ports = s.ports ∧
    (s.portTrains p).fetched = s.fetched := by
  unfold State.portTrains
  split
  · next h => exact ⟨h, rfl, rfl⟩
  · next h =>
    obtain ⟨⟨_, _, _, hparts⟩, hreg⟩ := State.portTo_training h
    refine ⟨?_, by rw [hparts]; rfl, by rw [hparts]; rfl⟩
    refine (State.fld_of_reg (hreg (PORT_STAT p) (by simp only [PORT_STAT, FAB_BROKEN]; omega)) 3 0).trans ?_
    rw [State.fld_setFld_same _ _ _ (by decide) (by decide)]
    rfl

theorem opPortReset_eq {s : State} {e : Entry} (hd : e.deferred = none) (hop : execClass e.op = false) : opPortReset e s =
    .done (if (s.reg (PORT_CTRL (e.word 0 % 32))).getLsbD 0 then
        ((s.begun e unitNone 0).portRestarted (e.word 0 % 32)).portTrains (e.word 0 % 32)
      else ((s.begun e unitNone 0).portRestarted (e.word 0 % 32)).endPortReset (e.word 0 % 32)) := by
  have hctrl : ((s.begun e unitNone 0).portRestarted (e.word 0 % 32)).reg (PORT_CTRL (e.word 0 % 32)) = s.reg (PORT_CTRL (e.word 0 % 32)) :=
    State.reg_portRestarted _ _ (by simp only [PORT_CTRL, PORT_RETRAIN]; omega)
  rw [← hctrl, opPortReset, State.start_short s 0 hd hop]
  generalize s.begun e unitNone 0 = t
  exact (apply_ite Ran.done _ _ _).symm

/-! ## The end of a PORT_RESET -/

theorem State.cmd_modCmd_other (s : State) {id i : Nat} {f : Cmd → Cmd} (hid : ∀ x, (f x).id = x.id) (h : i ≠ id) :
    (s.modCmd id f).cmd i = s.cmd i := by
  rw [cmd_modCmd s id i hid]
  simp only [h, if_false, Option.map_id']

theorem State.cmd_finish_other (s : State) {id i : Nat} (detail result : Nat) (h : i ≠ id) :
    (s.finish id stOk detail result).cmd i = s.cmd i := by
  unfold State.finish
  split
  · rfl
  · extract_lets raised t
    rw [countRefused_ok]
    exact (State.cmd_modCmd_other s (fun _ => rfl) h : t.cmd i = s.cmd i)

theorem State.cmd_conclude_other (s : State) {id i : Nat} (detail result : Nat) (h : i ≠ id) :
    (s.conclude id stOk detail result).cmd i = s.cmd i := by
  unfold State.conclude
  split
  · rfl
  split
  · exact s.cmd_finish_other detail result h
  · exact s.cmd_modCmd_other (by exact fun _ => rfl) h

/-- The commands that end do not touch another one. -/
theorem State.cmd_endOthers (p i : Nat) (cs : List Cmd) (s : State) (h : ∀ y ∈ cs, i ≠ y.id) :
    (cs.foldl (fun s x => s.conclude x.id stOk 0 (s.portSt p)) s).cmd i = s.cmd i := by
  induction cs generalizing s with
  | nil => rfl
  | cons y ys ih =>
    rw [List.foldl_cons, ih _ fun z hz => h z (List.mem_cons_of_mem _ hz)]
    exact s.cmd_conclude_other _ _ (h y List.mem_cons_self)

/-- The last command of all, a PORT_RESET of the port, is the last to end. -/
theorem State.endPortReset_last {s : State} {p : Nat} {x : Cmd} {cs : List Cmd} (hcmds : s.cmds = cs ++ [x])
    (hcs : ∀ y ∈ cs, y.id ≠ x.id) (hop : x.op = 0x54) (hp : x.words.headD 0 % 32 = p) (hended : x.ended = false)
    (hclosing : x.closing = false) (hacks : x.acks = 0) :
    ∃ before, (s.endPortReset p).posting = s.posting ++ before ++ [x.ends s stOk 0 (s.portSt p)] := by
  have hlast : (x.op == 0x54 && x.words.headD 0 % 32 == p && !x.ended && !x.closing) = true := by
    simp only [hop, hp, hended, hclosing, beq_self_eq_true, Bool.not_false, Bool.and_true]
  rw [State.endPortReset, hcmds, List.filter_append, List.filter_cons_of_pos (a := x) (by exact hlast), List.filter_nil, List.foldl_append,
    List.foldl_cons, List.foldl_nil]
  set others := cs.filter _
  have hcmd := (State.cmd_endOthers p x.id others s fun y hy => (hcs y (List.mem_of_mem_filter hy)).symm).trans
    (State.cmd_of_last hcmds hcs)
  obtain ⟨_, before, hended'⟩ : OnlyEnded s (others.foldl (fun s x => s.conclude x.id stOk 0 (s.portSt p)) s) :=
    .foldl _ (fun _ _ => .conclude_ok _ _ _ _) _ _
  refine ⟨before, ?_⟩
  rw [State.conclude_ok_posts 0 _ hcmd hacks hended, hended']
  rfl

/-! ## The command -/

/-- What PORT_RESET makes of ports and completions. -/
theorem Accepts.portReset {s t : State} {src : Src} {e : Entry} {P : State → Prop}
    (h : Accepts s src 0x54 noFields e [] (s.tookTurn src))
    (hbody : opPortReset (e.withCopy []) ((s.tookTurn src).popHead src) = .done t)
    (hfetched : t.fetched = ((s.tookTurn src).popHead src).fetched) (hp : ∀ y : State, SamePorts t y → P y) :
    Gives (.portReset src) s P := by
  refine ⟨_, congrArg (fun t => s.keepEdge (s.keepMem (s.keepCores (.next t)))) (h.stage2_done rfl hbody hfetched), hp _ ?_⟩
  obtain ⟨hports, hstate, hposting⟩ := SamePorts.settleDev t
  exact ⟨hports, hstate, hposting⟩

/-- The state `w` that a PORT_RESET has put its port in: its command is the last, its port shows nothing of what it was in `u`. -/
structure Restarts (u w : State) (e : Entry) (p : Nat) : Prop where
  fetched : w.fetched = u.fetched
  posting : w.posting = u.posting
  nextCmd : w.nextCmd = u.freshCmd + 1
  state : w.portSt p = u.portSt p
  cleared : (w.port p).Cleared
  cmds : w.cmds = u.cmds ++ [e.fresh u unitNone 0]

theorem Restarts.begun (u : State) (e : Entry) (p : Nat) : Restarts u ((u.begun e unitNone 0).portRestarted p) e p :=
  ⟨rfl, rfl, rfl, (u.begun e unitNone 0).portSt_portRestarted p, (u.begun e unitNone 0).port_portRestarted p, rfl⟩

theorem Accepts.restarts {s u : State} {src : Src} {e : Entry} (h : Accepts s src 0x54 noFields e [] u) :
    ∃ w, Restarts (u.popHead src) w (e.withCopy []) (e.word 0 % 32) ∧ opPortReset (e.withCopy []) (u.popHead src) =
      .done (if (u.reg (PORT_CTRL (e.word 0 % 32))).getLsbD 0 then w.portTrains (e.word 0 % 32) else w.endPortReset (e.word 0 % 32)) := by
  obtain ⟨-, -, -, hopcode, -, hdeferred, -⟩ := h.1
  exact ⟨_, .begun _ _ _, opPortReset_eq hdeferred (congrArg execClass hopcode :)⟩

theorem portReset_trains {s : State} {src : Src} {e : Entry} (h : Accepts s src 0x54 noFields e [] (s.tookTurn src))
    (hctrl : (s.reg (PORT_CTRL (e.word 0 % 32))).getLsbD 0 = true) : Gives (.portReset src) s (fun t =>
      t.portSt (e.word 0 % 32) = pTraining ∧ (t.port (e.word 0 % 32)).Cleared) := by
  obtain ⟨w, hw, hbody⟩ := h.restarts
  rw [if_pos (by exact hctrl)] at hbody
  obtain ⟨hstate, hports, hfetched⟩ := w.portTrains_spec (e.word 0 % 32)
  refine h.portReset hbody (hfetched.trans hw.fetched) fun y hy => ⟨(hy.state _).trans hstate, ?_⟩
  rw [State.port, hy.ports, hports]
  exact hw.cleared

/-- The command of a PORT_RESET whose port is disabled completes OK with the state of the port. -/
theorem Restarts.ends {u w : State} {e : Entry} {p : Nat} (h : Restarts u w e p) (hop : e.op = 0x54) (hp : e.word 0 % 32 = p) :
    ∃ before, (w.endPortReset p).posting = u.posting ++ before ++ [e.final u stOk 0 (u.portSt p)] := by
  obtain ⟨before, hends⟩ := State.endPortReset_last (p := p) h.cmds (fun y hy => (State.lt_freshCmd hy).ne) hop hp rfl rfl rfl
  refine ⟨before, ?_⟩
  rw [hends, h.posting, h.state, Cmd.ends, h.nextCmd]
  rfl

theorem portReset_disabled {s : State} {src : Src} {e : Entry} (h : Accepts s src 0x54 noFields e [] (s.tookTurn src))
    (hctrl : (s.reg (PORT_CTRL (e.word 0 % 32))).getLsbD 0 = false) : Gives (.portReset src) s (fun t =>
      t.portSt (e.word 0 % 32) = s.portSt (e.word 0 % 32) ∧ (t.port (e.word 0 % 32)).retry = [] ∧
        Decides s t [e.final s stOk 0 (s.portSt (e.word 0 % 32))]) := by
  obtain ⟨-, -, -, hopcode, -⟩ := h.1
  obtain ⟨w, hw, hbody⟩ := h.restarts
  rw [if_neg (by exact Bool.eq_false_iff.1 hctrl)] at hbody
  obtain ⟨before, hends⟩ := hw.ends hopcode rfl
  have hended : OnlyEnded w (w.endPortReset (e.word 0 % 32)) := .foldl _ (fun _ _ => .conclude_ok _ _ _ _) _ _
  have hfetched : (w.endPortReset (e.word 0 % 32)).fetched = w.fetched := by
    obtain ⟨_, _, heq⟩ := hended
    rw [heq]
  refine h.portReset hbody (hfetched.trans hw.fetched) fun y hy => ?_
  obtain ⟨hports, hstate, -⟩ := (SamePorts.ofEnded hended).trans hy
  obtain ⟨-, -, more, hmore⟩ := hy
  refine ⟨(hstate _).trans hw.state, ?_, before ++ [e.final s stOk 0 (s.portSt (e.word 0 % 32))] ++ more, ?_, ?_⟩
  · rw [State.port, hports]
    exact hw.cleared.1
  · rw [hmore, hends]
    simp only [List.append_assoc]
    rfl
  · exact (List.sublist_append_right before _).trans (List.sublist_append_left _ _)

end Sys2Proof.Machine
end

section
/-!
ROW_REPAIR, and the proof of O38 (R203, R204, R208).
-/

namespace Sys2Proof.Machine

/-! ## Repairs -/

/-- Repairs have changed cores, ledge rows, and registers other than GLB_STATE, and are logged. -/
structure RepairMoves (s t : State) : Prop where
  parts : ∃ r l n v co le lr fr dm, t = { s with
    regs := r, log := l, logCount := n, vecReq := v, cores := co, ledgeErr := le, ledgeRows := lr, fieldRepairs := fr, dmem := dm }
  state : t.reg GLB_STATE = s.reg GLB_STATE

theorem RepairMoves.refl (s : State) : RepairMoves s s := ⟨⟨_, _, _, _, _, _, _, _, _, rfl⟩, rfl⟩

theorem RepairMoves.trans {s t u : State} (h : RepairMoves s t) (k : RepairMoves t u) : RepairMoves s u := by
  obtain ⟨⟨_, _, _, _, _, _, _, _, _, rfl⟩, hreg⟩ := h
  obtain ⟨⟨_, _, _, _, _, _, _, _, _, rfl⟩, hreg'⟩ := k
  exact ⟨⟨_, _, _, _, _, _, _, _, _, rfl⟩, hreg'.trans hreg⟩

theorem RepairMoves.logEvent (s : State) (ev st src : Nat) (info : W64) : RepairMoves s (s.logEvent ev st src info) := by
  have hreg : (s.logEvent ev st src info).reg GLB_STATE = s.reg GLB_STATE :=
    State.logEvent_reg _ _ _ _ _ (by decide) (by decide) (by decide)
  obtain ⟨_, _, _, _, h⟩ := OnlyLogged.logEvent s ev st src info
  exact ⟨⟨_, _, _, _, _, _, _, _, _, h⟩, hreg⟩

/-- A candidate that its bank or page has a spare for is repaired. -/
theorem State.repairOne_spare {s : State} {c : Nat} {r : RepairCand} (hspare : (s.core c).repairsIn r.kind r.place < fusedSpares r.kind)
    (hcount : s.fieldRepairs < 1024) : (s.repairOne c r).1 = true ∧ RepairMoves s (s.repairOne c r).2 ∧
      ((s.repairOne c r).2.core c).repairs = (s.core c).repairs.filter (· != r) ∧
      ((s.repairOne c r).2.core c).repaired = (s.core c).repaired ++ [r] ∧
      (s.repairOne c r).2.fieldRepairs = s.fieldRepairs + 1 := by
  unfold State.repairOne
  extract_lets k k1 k' s1 t
  rw [if_pos ⟨hspare, hcount⟩]
  have hcore : t.core c = k'.showSpares c := (State.core_setCore s c c _).trans (if_pos rfl)
  have hlog := OnlyLogged.logEvent t 0x05 0 (logSource 0 c) (BitVec.ofNat 64 r.index)
  have hmoves : RepairMoves s t := ⟨⟨_, _, _, _, _, _, _, _, _, rfl⟩, rfl⟩
  refine ⟨rfl, hmoves.trans (.logEvent _ _ _ _ _), ?_, ?_, ?_⟩
  · rw [hlog.core, hcore]
    rfl
  · rw [hlog.core, hcore]
    rfl
  · obtain ⟨_, _, _, _, h⟩ := hlog
    rw [h]

/-- One that has no spare is left, the attempt logged. -/
theorem State.repairOne_none {s : State} {c : Nat} {r : RepairCand}
    (h : ¬ ((s.core c).repairsIn r.kind r.place < fusedSpares r.kind ∧ s.fieldRepairs < 1024)) :
    (s.repairOne c r).1 = false ∧ RepairMoves s (s.repairOne c r).2 ∧ (s.repairOne c r).2.core c = s.core c := by
  unfold State.repairOne
  extract_lets k
  rw [if_neg h]
  exact ⟨rfl, .logEvent _ _ _ _ _, (OnlyLogged.logEvent _ _ _ _ _).core c⟩

theorem State.repairCore_one {s : State} {c : Nat} {r : RepairCand} (h : (s.core c).repairs = [r]) :
    s.repairCore c = ((s.repairOne c r).1.toNat, (s.repairOne c r).2) := by
  rw [State.repairCore, h, List.foldl_cons, List.foldl_nil]
  exact congrArg (·, (s.repairOne c r).2) (Nat.zero_add _)

/-- A ROW_REPAIR with `n` candidates repaired and no core left. -/
def Cmd.goneOver (n : Nat) (x : Cmd) : Cmd := { x with members := [], result := x.result + n, done := x.total }

/-- A ROW_REPAIR that has looked at its bank. -/
def Cmd.lookedAt (x : Cmd) : Cmd := { x with done := 1 }

/-- A ROW_REPAIR that names one core, which is quiet, ends. -/
theorem State.repairGo_core {s : State} {x : Cmd} {c : Nat} (hscope : x.words.headD 0 % 4 ≠ 2) (hmembers : x.members = [c])
    (hquiet : (s.core c).quiet = true) (hresult : x.result = 0) : s.repairGo x =
      ((s.repairCore c).2.modCmd x.id (Cmd.goneOver (s.repairCore c).1)).conclude x.id stOk 0 (s.repairCore c).1 := by
  have hnow : x.members.filter (fun c => (s.core c).quiet) = [c] := by
    rw [hmembers]
    exact List.filter_cons_of_pos hquiet
  have hrest : x.members.filter (fun c => !(s.core c).quiet) = [] := by
    rw [hmembers]
    exact List.filter_cons_of_neg (by rw [hquiet]; decide)
  rw [State.repairGo]
  simp only [if_neg hscope, hnow, hrest, List.foldl_cons, List.foldl_nil, Nat.zero_add, List.isEmpty_nil, if_true, hresult]
  rfl

/-! ## A ledge bank -/

theorem State.inBank_of_regs {s t : State} (h : t.regs = s.regs) (die bank r : Nat) : t.inBank die bank r = s.inBank die bank r := by
  rw [State.inBank, State.inBank, State.addrKind_of_regs (State.reg_of_regs h _) (State.reg_of_regs h _)]

theorem State.bankDue_congr {s t : State} (h : t.regs = s.regs) (hrows : t.ledgeRows = s.ledgeRows) (die bank : Nat) :
    t.bankDue die bank = s.bankDue die bank := by
  simp only [State.bankDue, hrows, State.inBank_of_regs h]

/-- MEM_LDG_STAT after the replacement of a bank; `hurt` is 1 where it hit a word. -/
def State.bankShown (s : State) (die bank hurt : Nat) : State :=
  let r := MEM_LDG_STAT die
  let s := (s.setFld r 3 0 (s.fld r 3 0 - 1)).setFld r 7 4 (s.fld r 7 4 + 1)
  (s.setFld r 12 8 bank).setFld r 31 31 hurt

theorem State.bankShown_fld (s : State) (die bank hurt : Nat) :
    (s.bankShown die bank hurt).fld (MEM_LDG_STAT die) 3 0 = (s.fld (MEM_LDG_STAT die) 3 0 - 1) % 16 ∧
      (s.bankShown die bank hurt).fld (MEM_LDG_STAT die) 12 8 = bank % 32 := by
  unfold State.bankShown
  extract_lets r t
  constructor
  · rw [State.fld_setFld_other _ _ (by decide) (by decide) (.inr (.inl (by decide))),
      State.fld_setFld_other _ _ (by decide) (by decide) (.inr (.inl (by decide))),
      State.fld_setFld_other _ _ (by decide) (by decide) (.inr (.inl (by decide))), State.fld_setFld_same _ _ _ (by decide) (by decide)]
    rfl
  · rw [State.fld_setFld_other _ _ (by decide) (by decide) (.inr (.inl (by decide))), State.fld_setFld_same _ _ _ (by decide) (by decide)]
    rfl

theorem State.bankShown_reg (s : State) (die bank hurt : Nat) {a : Nat} (h : a ≠ MEM_LDG_STAT die) : (s.bankShown die bank hurt).reg a = s.reg a := by
  unfold State.bankShown
  extract_lets r t
  rw [State.reg_setFld_other _ _ _ _ h, State.reg_setFld_other _ _ _ _ h, State.reg_setFld_other _ _ _ _ h,
    State.reg_setFld_other _ _ _ _ h]

theorem memLdgStat_ne {die : Nat} : MEM_LDG_STAT die ≠ GLB_STATE ∧ (die < 2 → MEM_LDG_STAT die ≠ RAS_LOG_SEQ ∧
    MEM_LDG_STAT die ≠ RAS_LOG_HEAD ∧ MEM_LDG_STAT die ≠ CMDQ_EVT) := by
  simp only [MEM_LDG_STAT, GLB_STATE, RAS_LOG_SEQ, RAS_LOG_HEAD, CMDQ_EVT]
  omega

/-- A ledge bank that holds no error is replaced while a spare bank and a field repair are left. -/
theorem State.replaceBank_clean {s : State} {die bank : Nat} (hdie : die < 2) (hspare : s.fld (MEM_LDG_STAT die) 3 0 ≠ 0)
    (hcount : s.fieldRepairs < 1024) (herr : s.ledgeErr = []) : ∃ t, s.replaceBank die bank = (true, false, t) ∧ RepairMoves s t ∧
      t.dmem = s.dmem ∧ t.fld (MEM_LDG_STAT die) 3 0 = (s.fld (MEM_LDG_STAT die) 3 0 - 1) % 16 ∧
      t.fld (MEM_LDG_STAT die) 12 8 = bank % 32 := by
  obtain ⟨hstate, hlog⟩ := memLdgStat_ne (die := die)
  obtain ⟨hseq, hhead, hevt⟩ := hlog hdie
  unfold State.replaceBank
  extract_lets r source mine hit t0 t1 t2 t3
  rw [if_neg (not_or_intro hspare (Nat.not_le.2 hcount))]
  have hhit : hit = [] := by
    rw [show hit = s.ledgeErr.filter _ from rfl, herr]
    rfl
  have ht1 : t1 = t0 := by rw [show t1 = hit.foldl _ t0 from rfl, hhit]; rfl
  have ht3 : t3 = t0.bankShown die bank 0 := by
    rw [show t3 = t1.bankShown die bank (!hit.isEmpty).toNat from rfl, ht1, hhit]
    rfl
  rw [hhit, ht3]
  obtain ⟨hfree, hbank⟩ := t0.bankShown_fld die bank 0
  have hreg : ((t0.bankShown die bank 0).logEvent 0x05 0 source (BitVec.ofNat 64 (32 * die + bank))).reg (MEM_LDG_STAT die) =
      (t0.bankShown die bank 0).reg (MEM_LDG_STAT die) := State.logEvent_reg _ _ _ _ _ hseq hhead hevt
  refine ⟨_, rfl, .trans ?_ (.logEvent _ _ _ _ _), ?_, (State.fld_of_reg hreg _ _).trans hfree, (State.fld_of_reg hreg _ _).trans hbank⟩
  · exact ⟨⟨_, _, _, _, _, _, _, _, _, rfl⟩, State.bankShown_reg t0 _ _ _ hstate.symm⟩
  · obtain ⟨_, _, _, _, h⟩ := OnlyLogged.logEvent (t0.bankShown die bank 0) 0x05 0 source (BitVec.ofNat 64 (32 * die + bank))
    rw [h]
    rfl

/-! ## The command -/

/-- A ROW_REPAIR that names the cores. -/
def Cmd.names (l : List Nat) (x : Cmd) : Cmd := { x with members := l }

theorem opRowRepair_eq {e : Entry} {u w : State} {x : Cmd} (l : List Nat) {total : Nat}
    (hcores : (if e.word 0 % 4 = 0 then u.activeCores else if e.word 0 % 4 = 1 then [e.word 0 / 4 % 128] else []) = l)
    (htotal : (if e.word 0 % 4 = 2 then 1 else (l.map (fun c => (u.core c).repairs.length)).sum) = total)
    (hstart : u.start e unitPercent total = (x.id, w)) (hcmd : w.cmd x.id = some x) :
    opRowRepair e u = .done ((w.modCmd x.id (Cmd.names l)).repairGo (x.names l)) := by
  have hnamed : (w.modCmd x.id (Cmd.names l)).cmd x.id = some (x.names l) := by
    rw [cmd_modCmd w x.id x.id (f := Cmd.names l) fun _ => rfl, hcmd, Option.map_some, if_pos rfl]
  rw [opRowRepair]
  simp only [hcores, htotal, hstart]
  show Ran.done (match (w.modCmd x.id (Cmd.names l)).cmd x.id with
    | some x' => (w.modCmd x.id (Cmd.names l)).repairGo x'
    | none => w) = _
  rw [hnamed]

/-- The completions of a ROW_REPAIR that begins in `w`, has repaired in `z` and then ends (R204, R297). -/
theorem Starts.repaired {u w z : State} {e : Entry} {l : List Nat} {f : Cmd → Cmd} (n : Nat) (hw : Starts u w e unitPercent 1)
    (hz : RepairMoves (w.modCmd u.freshCmd (Cmd.names l)) z) (hid : ∀ x, (f x).id = x.id) (hacks : ∀ x, (f x).acks = x.acks)
    (hended : ∀ x, (f x).ended = x.ended) (hends : ∀ x s, (f x).ends s stOk 0 n = x.ends s stOk 0 n) :
    ((z.modCmd u.freshCmd f).conclude u.freshCmd stOk 0 n).posting =
      u.posting ++ [e.accepted u unitPercent 1, e.final u stOk 0 n] := by
  obtain ⟨⟨_, _, _, _, _, _, _, _, _, hparts⟩, -⟩ := hz
  have hnamed : (w.modCmd u.freshCmd (Cmd.names l)).cmd u.freshCmd = some ((e.fresh u unitPercent 1).names l) := by
    rw [cmd_modCmd w _ _ (f := Cmd.names l) fun _ => rfl, hw.cmd, Option.map_some, if_pos rfl]
  have hcmd : z.cmd u.freshCmd = some ((e.fresh u unitPercent 1).names l) := by
    rw [hparts]
    exact hnamed
  have hposting : z.posting = u.posting ++ [e.accepted u unitPercent 1] := by
    rw [hparts]
    exact hw.posting
  have hnext : (z.modCmd u.freshCmd f).nextCmd = u.freshCmd + 1 := by
    rw [hparts]
    exact hw.nextCmd
  have hlast : (z.modCmd u.freshCmd f).cmd u.freshCmd = some (f ((e.fresh u unitPercent 1).names l)) := by
    rw [cmd_modCmd z _ _ hid, hcmd, Option.map_some, if_pos rfl]
  rw [State.conclude_ok_posts 0 n hlast (hacks _) (hended _), hends, Cmd.ends, hnext]
  show z.posting ++ _ = _
  rw [hposting, List.append_assoc]
  rfl

/-- The checks of ROW_REPAIR. -/
abbrev rowRepairChecks : Checks := fields (fun e s => [okField 0 0 (e.word 0 % 4 != 3), okField 0 2 (match e.word 0 % 4 with
  | 1 => decide (e.word 0 / 4 % 128 < 72) && s.coreSt (e.word 0 / 4 % 128) == 0
  | 2 => decide (e.word 0 / 4 % 128 < 2)
  | _ => true)])

/-- With no ROW_REPAIR under way none goes on. -/
theorem State.repairsGo_none {s : State} (h : ∀ x ∈ s.cmds, x.op ≠ 0x61 ∨ x.ended = true) : s.repairsGo = s := by
  have hnone : s.cmds.filter (fun x => x.op == 0x61 && !x.ended) = [] := by
    refine List.filter_eq_nil_iff.2 fun x hx hgoes => ?_
    obtain ⟨hop, hended⟩ := Bool.and_eq_true_iff.1 hgoes
    rcases h x hx with h | h
    · exact h (beq_iff_eq.1 hop)
    · rw [h] at hended
      exact nomatch hended
  rw [State.repairsGo, hnone, List.foldl_nil]

/-- A ROW_REPAIR that ends at once, from the state that its repairs have made. -/
theorem Accepts.repaired {s w z : State} {src : Src} {e : Entry} {l : List Nat} {f : Cmd → Cmd} {n : Nat} {P : State → Prop}
    (h : Accepts s src 0x61 rowRepairChecks e [] (s.tookTurn src)) (hnone : ∀ x ∈ s.cmds, x.op ≠ 0x61 ∨ x.ended = true)
    (hfetched : w.fetched = ((s.tookTurn src).popHead src).fetched) (hw : Starts (s.tookTurn src) w e unitPercent 1)
    (hz : RepairMoves (w.modCmd (s.tookTurn src).freshCmd (Cmd.names l)) z)
    (hid : ∀ x, (f x).id = x.id) (hacks : ∀ x, (f x).acks = x.acks) (hended : ∀ x, (f x).ended = x.ended)
    (hends : ∀ x s, (f x).ends s stOk 0 n = x.ends s stOk 0 n)
    (hbody : opRowRepair (e.withCopy []) ((s.tookTurn src).popHead src) =
      .done ((z.modCmd (s.tookTurn src).freshCmd f).conclude (s.tookTurn src).freshCmd stOk 0 n))
    (hp : ∀ t : State, t.cores = z.cores → t.fieldRepairs = z.fieldRepairs → t.dmem = z.dmem →
      (∀ a, a ≠ GLB_STATE → t.reg a = z.reg a) → Decides s t [e.accepted s unitPercent 1, e.final s stOk 0 n] → P t) :
    Gives (.rowRepair src) s P := by
  have hposting := hw.repaired n hz hid hacks hended hends
  obtain ⟨_, _, hend⟩ := (OnlyEnded.modCmd z (s.tookTurn src).freshCmd f).trans
    (OnlyEnded.conclude_ok (z.modCmd (s.tookTurn src).freshCmd f) (s.tookTurn src).freshCmd 0 n)
  generalize (z.modCmd (s.tookTurn src).freshCmd f).conclude (s.tookTurn src).freshCmd stOk 0 n = y at *
  obtain ⟨⟨_, _, _, _, _, _, _, _, _, hparts⟩, hstate⟩ := hz
  have hyfetched : y.fetched = ((s.tookTurn src).popHead src).fetched := by
    rw [hend, ← hfetched, hparts]
    rfl
  have hydev : y.dev = (s.tookTurn src).dev := by
    refine State.dev_of_reg (.trans ?_ (State.reg_of_regs hw.regs GLB_STATE))
    rw [hend]
    exact hstate
  obtain ⟨v, hv⟩ := h.stage2_reg (.inr (.inr (.inr rfl))) hbody hyfetched hydev
  have hexec : exec (.rowRepair src) s = s.keepEdge (s.keepFabric (.next (s.repairsGo.stage2 0x61 src rowRepairChecks opRowRepair))) := rfl
  rw [State.repairsGo_none hnone, hv] at hexec
  refine ⟨_, hexec, hp _ ?_ ?_ ?_ (fun a ha => ?_) ⟨_, hposting, List.Sublist.refl _⟩⟩
  · rw [hend]; rfl
  · rw [hend]; rfl
  · rw [hend]; rfl
  · refine (State.reg_of_regs (t := _) (s := y.setReg GLB_STATE v) rfl a).trans ((State.reg_setReg _ _ _ _).trans ((if_neg ha).trans ?_))
    rw [hend]
    rfl

/-- One core named: its candidate is repaired where it has a spare, and left where it has none. -/
theorem rowRepair_core {s : State} {src : Src} {e : Entry} {c : Nat} {r : RepairCand} {P : State → Prop}
    (h : Accepts s src 0x61 rowRepairChecks e [] (s.tookTurn src)) (hnone : ∀ x ∈ s.cmds, x.op ≠ 0x61 ∨ x.ended = true)
    (hscope : e.word 0 % 4 = 1) (hc : e.word 0 / 4 % 128 = c) (hquiet : (s.core c).quiet = true) (hr : (s.core c).repairs = [r])
    (hp : ∀ v t : State, v.cores = s.cores → v.fieldRepairs = s.fieldRepairs → t.cores = (v.repairOne c r).2.cores →
      t.fieldRepairs = (v.repairOne c r).2.fieldRepairs →
      Decides s t [e.accepted s unitPercent 1, e.final s stOk 0 (v.repairOne c r).1.toNat] → P t) : Gives (.rowRepair src) s P := by
  obtain ⟨w, hstart, hfetched, hw⟩ := h.starts rfl (unit := unitPercent) (by decide) 1
  have hcores : (w.modCmd (s.tookTurn src).freshCmd (Cmd.names [c])).cores = s.cores := hw.cores
  have hrepairs : (w.modCmd (s.tookTurn src).freshCmd (Cmd.names [c])).fieldRepairs = s.fieldRepairs := hw.fieldRepairs
  have hbody := opRowRepair_eq (e := e.withCopy []) (u := (s.tookTurn src).popHead src) (w := w)
    (x := e.fresh (s.tookTurn src) unitPercent 1) [c] (total := 1)
    (by rw [Entry.word_withCopy, hscope, hc]; rfl) (by rw [Entry.word_withCopy, hscope]; exact congrArg (·.length + 0) hr) hstart hw.cmd
  have hid : (e.fresh (s.tookTurn src) unitPercent 1).id = (s.tookTurn src).freshCmd := rfl
  rw [hid] at hbody
  have hv := hp (w.modCmd (s.tookTurn src).freshCmd (Cmd.names [c]))
  have hrepaired := fun (Q : State → Prop) z n f => h.repaired (P := Q) (z := z) (l := [c]) (f := f) (n := n) hnone hfetched hw
  generalize w.modCmd (s.tookTurn src).freshCmd (Cmd.names [c]) = v at *
  have hcore : v.core c = s.core c := by rw [State.core, State.core, hcores]
  have hgo := State.repairGo_core (s := v) (x := (e.fresh (s.tookTurn src) unitPercent 1).names [c]) (c := c)
    (show e.word 0 % 4 ≠ 2 by omega) rfl (hcore ▸ hquiet) rfl
  rw [State.repairCore_one (hcore ▸ hr)] at hgo
  rw [hgo] at hbody
  have hmoves : RepairMoves v (v.repairOne c r).2 := by
    by_cases hspare : (v.core c).repairsIn r.kind r.place < fusedSpares r.kind ∧ v.fieldRepairs < 1024
    · exact (State.repairOne_spare hspare.1 hspare.2).2.1
    · exact (State.repairOne_none hspare).2.1
  exact hrepaired P _ _ (Cmd.goneOver _) hmoves (fun _ => rfl) (fun _ => rfl) (fun _ => rfl) (fun _ _ => rfl) hbody
    fun t htcores htrepairs _ _ hposts => hv t hcores hrepairs htcores htrepairs hposts

theorem rowRepair_repairs {s : State} {src : Src} {e : Entry} {c : Nat} {r : RepairCand}
    (h : Accepts s src 0x61 rowRepairChecks e [] (s.tookTurn src)) (hnone : ∀ x ∈ s.cmds, x.op ≠ 0x61 ∨ x.ended = true)
    (hscope : e.word 0 % 4 = 1) (hc : e.word 0 / 4 % 128 = c) (hquiet : (s.core c).quiet = true) (hr : (s.core c).repairs = [r])
    (hspare : (s.core c).repairsIn r.kind r.place < fusedSpares r.kind ∧ s.fieldRepairs < 1024) :
    Gives (.rowRepair src) s (fun t => (t.core c).repairs = [] ∧ (t.core c).repaired = (s.core c).repaired ++ [r] ∧
      t.fieldRepairs = s.fieldRepairs + 1 ∧ Decides s t [e.accepted s unitPercent 1, e.final s stOk 0 1]) := by
  refine rowRepair_core h hnone hscope hc hquiet hr fun v t hcores hrepairs htcores htrepairs hposts => ?_
  have hcore : v.core c = s.core c := by rw [State.core, State.core, hcores]
  rw [← hcore, ← hrepairs] at hspare
  obtain ⟨htrue, -, hleft, hdone, hcount⟩ := State.repairOne_spare hspare.1 hspare.2
  have htcore : t.core c = (v.repairOne c r).2.core c := by rw [State.core, State.core, htcores]
  refine ⟨?_, ?_, ?_, ?_⟩
  · rw [htcore, hleft, hcore, hr]
    exact List.filter_cons_of_neg (by simp)
  · rw [htcore, hdone, hcore]
  · rw [htrepairs, hcount, hrepairs]
  · rw [htrue] at hposts
    exact hposts

theorem rowRepair_leaves {s : State} {src : Src} {e : Entry} {c : Nat} {r : RepairCand}
    (h : Accepts s src 0x61 rowRepairChecks e [] (s.tookTurn src)) (hnone : ∀ x ∈ s.cmds, x.op ≠ 0x61 ∨ x.ended = true)
    (hscope : e.word 0 % 4 = 1) (hc : e.word 0 / 4 % 128 = c) (hquiet : (s.core c).quiet = true) (hr : (s.core c).repairs = [r])
    (hspare : ¬ ((s.core c).repairsIn r.kind r.place < fusedSpares r.kind ∧ s.fieldRepairs < 1024)) :
    Gives (.rowRepair src) s (fun t => t.core c = s.core c ∧ Decides s t [e.accepted s unitPercent 1, e.final s stOk 0 0]) := by
  refine rowRepair_core h hnone hscope hc hquiet hr fun v t hcores hrepairs htcores _ hposts => ?_
  have hcore : v.core c = s.core c := by rw [State.core, State.core, hcores]
  rw [← hcore, ← hrepairs] at hspare
  obtain ⟨hfalse, -, hsame⟩ := State.repairOne_none hspare
  rw [hfalse] at hposts
  exact ⟨by rw [State.core, htcores, ← State.core, hsame, hcore], hposts⟩

/-- A ROW_REPAIR of a ledge bank whose die runs no tile program ends at once, with the bank looked at. -/
theorem State.repairGo_bank {s : State} {x : Cmd} {die bank : Nat} (hscope : x.words.headD 0 % 4 = 2)
    (hdie : x.words.headD 0 / 4 % 128 = die) (hbank : x.words.headD 0 / 2 ^ 9 % 32 = bank)
    (hidle : ∀ i < 36, (s.core (die * 36 + i)).loaded = false) (y : Bool × Bool × State)
    (hy : (if s.bankDue die bank then s.replaceBank die bank else (false, false, s)) = y) (hwhole : y.2.1 = false) :
    s.repairGo x = (y.2.2.modCmd x.id Cmd.lookedAt).conclude x.id stOk 0 y.1.toNat := by
  have hany : (List.range 36).any (fun i => (s.core (die * 36 + i)).loaded) = false :=
    List.any_eq_false.2 fun i hi => by rw [hidle i (List.mem_range.1 hi)]; decide
  rw [State.repairGo]
  simp only [hscope, hdie, hbank, hany, hy, hwhole, if_true, if_false, Bool.false_eq_true]
  rfl

/-- A ledge bank is replaced where it is due and a spare bank is free. -/
theorem rowRepair_bank {s : State} {src : Src} {e : Entry} {c : Nat}
    (h : Accepts s src 0x61 rowRepairChecks e [] (s.tookTurn src)) (hnone : ∀ x ∈ s.cmds, x.op ≠ 0x61 ∨ x.ended = true)
    (hscope : e.word 0 % 4 = 2) (hc : e.word 0 / 4 % 128 = c) (hidle : ∀ i < 36, (s.core (c * 36 + i)).loaded = false)
    (hspare : s.fld (MEM_LDG_STAT c) 3 0 ≠ 0) (hcount : s.fieldRepairs < 1024) (herr : s.ledgeErr = []) :
    let due := s.bankDue c (e.word 0 / 2 ^ 9 % 32)
    Gives (.rowRepair src) s (fun t => t.fld (MEM_LDG_STAT c) 3 0 = s.fld (MEM_LDG_STAT c) 3 0 - due.toNat ∧
      t.fld (MEM_LDG_STAT c) 12 8 = (if due then e.word 0 / 2 ^ 9 % 32 else s.fld (MEM_LDG_STAT c) 12 8) ∧ t.dmem = s.dmem ∧
      Decides s t [e.accepted s unitPercent 1, e.final s stOk 0 due.toNat]) := by
  intro due
  obtain ⟨w, hstart, hfetched, hw⟩ := h.starts rfl (unit := unitPercent) (by decide) 1
  have hbody := opRowRepair_eq (e := e.withCopy []) (u := (s.tookTurn src).popHead src) (w := w)
    (x := e.fresh (s.tookTurn src) unitPercent 1) [] (total := 1)
    (by rw [Entry.word_withCopy, hscope]; rfl) (by rw [Entry.word_withCopy, hscope]; rfl) hstart hw.cmd
  have hid : (e.fresh (s.tookTurn src) unitPercent 1).id = (s.tookTurn src).freshCmd := rfl
  rw [hid] at hbody
  have hregs : (w.modCmd (s.tookTurn src).freshCmd (Cmd.names [])).regs = s.regs := hw.regs
  have hcores : (w.modCmd (s.tookTurn src).freshCmd (Cmd.names [])).cores = s.cores := hw.cores
  have hdmem : (w.modCmd (s.tookTurn src).freshCmd (Cmd.names [])).dmem = s.dmem := hw.dmem
  have hrows : (w.modCmd (s.tookTurn src).freshCmd (Cmd.names [])).ledgeRows = s.ledgeRows := hw.ledgeRows
  have hrepairs : (w.modCmd (s.tookTurn src).freshCmd (Cmd.names [])).fieldRepairs = s.fieldRepairs := hw.fieldRepairs
  have herrs : (w.modCmd (s.tookTurn src).freshCmd (Cmd.names [])).ledgeErr = [] := hw.ledgeErr.trans herr
  have hrepaired := fun (Q : State → Prop) z n f => h.repaired (P := Q) (z := z) (l := []) (f := f) (n := n) hnone hfetched hw
  generalize w.modCmd (s.tookTurn src).freshCmd (Cmd.names []) = v at *
  have hdue : v.bankDue c (e.word 0 / 2 ^ 9 % 32) = due := State.bankDue_congr hregs hrows _ _
  have hfld (hi lo : Nat) : v.fld (MEM_LDG_STAT c) hi lo = s.fld (MEM_LDG_STAT c) hi lo := State.fld_of_reg (State.reg_of_regs hregs _) hi lo
  have hidle' (i : Nat) (hi : i < 36) : (v.core (c * 36 + i)).loaded = false := by
    rw [State.core, hcores]
    exact hidle i hi
  have hgo := State.repairGo_bank (s := v) (x := (e.fresh (s.tookTurn src) unitPercent 1).names []) (die := c)
    (bank := e.word 0 / 2 ^ 9 % 32) hscope hc rfl hidle'
  have hstat : MEM_LDG_STAT c ≠ GLB_STATE := memLdgStat_ne.1
  have hends (Q : State → Prop) (y : Bool × Bool × State) (hy : (if due then v.replaceBank c (e.word 0 / 2 ^ 9 % 32) else (false, false, v)) = y)
      (hwhole : y.2.1 = false) (hmoves : RepairMoves v y.2.2) := hrepaired Q y.2.2 y.1.toNat Cmd.lookedAt
    hmoves (fun _ => rfl) (fun _ => rfl) (fun _ => rfl) (fun _ _ => rfl) (hbody.trans (congrArg Ran.done (hgo y (hdue ▸ hy) hwhole)))
  cases hb : due with
  | false =>
    refine hends _ (false, false, v) (if_neg (by rw [hb]; decide)) rfl (.refl v) fun t _ _ htmem htreg hposts => ?_
    refine ⟨?_, ?_, htmem.trans hdmem, hposts⟩
    · exact (State.fld_of_reg (htreg _ hstat) 3 0).trans (hfld 3 0)
    · exact (State.fld_of_reg (htreg _ hstat) 12 8).trans (hfld 12 8)
  | true =>
    have hdie : c < 2 := by
      obtain ⟨-, ⟨cs, hcs, hgood⟩, -⟩ := h
      obtain ⟨rfl, -⟩ := Checked.done.inj hcs
      have hin := firstBad_none hgood _ (List.mem_append_right _ (List.mem_cons_of_mem _ List.mem_cons_self))
      simp only [okField, hscope, hc] at hin
      exact of_decide_eq_true hin
    obtain ⟨z, hz, hmoves, hzmem, hfree, hbank⟩ := State.replaceBank_clean (bank := e.word 0 / 2 ^ 9 % 32) hdie (hfld 3 0 ▸ hspare)
      (hrepairs ▸ hcount) herrs
    refine hends _ (true, false, z) ((if_pos hb).trans hz) rfl hmoves fun t _ _ htmem htreg hposts => ?_
    refine ⟨?_, ?_, htmem.trans (hzmem.trans hdmem), hposts⟩
    · rw [State.fld_of_reg (htreg _ hstat) 3 0, hfree, hfld]
      have hlt : s.fld (MEM_LDG_STAT c) 3 0 < 16 := Nat.mod_lt _ (by decide)
      exact Nat.mod_eq_of_lt (by omega)
    · rw [State.fld_of_reg (htreg _ hstat) 12 8, hbank]
      exact Nat.mod_eq_of_lt (Nat.mod_lt _ (by decide))

/-- Settles O38, command by command. -/
theorem fabricAndRepairCommands : Obligations.FabricAndRepairCommands := by
  unfold Obligations.FabricAndRepairCommands
  intro s src e
  refine ⟨fabricDiscover_joins, fun b u h => ⟨ropeJoin_refused h, ropeJoin_waits h rfl⟩, ropeLeave_leaves,
    fun h => ⟨portReset_trains h, portReset_disabled h⟩, ?_⟩
  rintro ck rfl h hnone c
  exact ⟨fun r hscope hquiet hr => ⟨rowRepair_repairs h hnone hscope rfl hquiet hr, rowRepair_leaves h hnone hscope rfl hquiet hr⟩,
    fun hscope hidle hspare hcount herr => rowRepair_bank h hnone hscope rfl hidle hspare hcount herr⟩

end Sys2Proof.Machine
end

section
/-!
Accesses at the ports of the scratchpads: the proof of O19 (R184, R185, R191, R192, R213).
-/

namespace Sys2Proof.Machine

/-! ## An access and its place at the ports -/

theorem CoreState.portOf_acc (k : CoreState) (a : SpmAcc) : (k.portOf a).acc = a := by
  unfold CoreState.portOf
  cases h : k.queued.find? (fun q => q.acc == a) with
  | none => rfl
  | some q => exact beq_iff_eq.1 (List.find?_some h :)

/-- What moves of an access leaves which access it is. -/
theorem State.accMove_acc (s : State) (c : Nat) (q : PortWait) (rows : List Nat) : (s.accMove c q rows).2.1.acc = q.acc := by
  refine foldl_keeps (fun x : Nat × PortWait × State => x.2.1.acc = q.acc) _ (fun x r hx => ?_) rows (stOk, q, s) rfl
  refine ite_keeps (fun y : Nat × PortWait × State => y.2.1.acc = q.acc) hx ?_
  extract_lets a p left w v
  exact ite_keeps (fun y : Nat × PortWait × State => y.2.1.acc = q.acc) hx
    (ite_keeps (fun y : Nat × PortWait × State => y.2.1.acc = q.acc) hx hx)

/-- A tag set is a register written. -/
theorem CoreState.tagAfter_regs (c : Nat) (k : CoreState) (m : SpmMem) (slot : Nat) (kind : TagKind) :
    ∃ r, k.tagAfter c m slot kind = { k with regs := r } := by
  cases kind <;> exact ⟨_, rfl⟩

/-- The end of a cycle at the ports: tags are registers, the access keeps its place, or has ended. -/
theorem State.core_accSettle (s : State) (c : Nat) (was q : PortWait) : ∃ r, (was.acc.tag = .none → r = (s.core c).regs) ∧
    (s.accSettle c was q).core c =
      if !q.rest.isEmpty then ({ s.core c with regs := r } : CoreState).enqueue q
      else if q.acc.write then ({ s.core c with regs := r } : CoreState).dequeue q.acc
      else (({ s.core c with regs := r } : CoreState).dequeue q.acc).deliver c q.acc (Mem.read q.got q.acc.off q.acc.len) := by
  unfold State.accSettle
  extract_lets slot t
  rw [State.core_modCore, if_pos rfl]
  have ht : ∃ r, (was.acc.tag = .none → r = (s.core c).regs) ∧ t.core c = { s.core c with regs := r } := by
    by_cases htag : was.acc.tag ≠ .none ∧ (!q.rest.any (fun r => r / 32 == slot)) = true
    · obtain ⟨r, hr⟩ := CoreState.tagAfter_regs c (s.core c) was.acc.mem slot was.acc.tag
      have ht : t = s.modCore c (fun k => k.tagAfter c was.acc.mem slot was.acc.tag) := if_pos htag
      exact ⟨r, fun h => absurd h htag.1, by rw [ht, State.core_modCore, if_pos rfl, hr]⟩
    · have ht : t = s := if_neg htag
      exact ⟨_, fun _ => rfl, by rw [ht]⟩
  obtain ⟨r, hr, hcore⟩ := ht
  exact ⟨r, hr, by rw [hcore]⟩

/-! ## A cycle -/

section
variable {s : State} {c t0 : Nat} {a : SpmAcc} {rivals : List Nat} {k : CoreState}

/-- The access is one that the ports take, and its groups are powered. -/
structure Presented (s : State) (c t0 : Nat) (a : SpmAcc) (k : CoreState) : Prop where
  core : { s.core c with cyc := max t0 (s.core c).cyc } = k
  client : a.client ≤ 4
  len : a.len ≠ 0
  range : a.off + a.len ≤ 2 ^ 20
  feeder : a.client = 0 → a.write = false ∧ k.feedWanted c a.off a.len = true
  power : k.powerCheck c (((k.portOf a).rest.flatMap (fun r => k.groupsOf c a.mem (64 * r) 1)).dedup)
    (a.write && !(k.queued.any (fun x => x.acc == a) && (k.portOf a).waited == 0)) = .ready

theorem Presented.held (h : Presented s c t0 a k) (hheld : k.portHeld c (k.portOf a) = true) : exec (.spmAccess c t0 a rivals) s =
    s.inCore c (.next (s.setCore c ((k.enqueue { k.portOf a with waited := (k.portOf a).waited + 1 }).bump c CORE_SPM_FE_WAIT 1))) := by
  obtain ⟨hcore, hclient, hlen, hrange, hfeeder, hpower⟩ := h
  show execSpmAccess c t0 a rivals s = _
  have hk : (s.modCore c (fun k => { k with cyc := max t0 k.cyc })).core c = k :=
    ((State.core_modCore s c c _).trans (if_pos rfl)).trans hcore
  have hs : s.modCore c (fun k => { k with cyc := max t0 k.cyc }) = s.setCore c k := congrArg (s.setCore c) hcore
  unfold execSpmAccess
  simp only [hk]
  rw [if_neg (by omega), if_neg (by rintro ⟨h0, hw⟩; obtain ⟨h1, h2⟩ := hfeeder h0; simp [h1, h2] at hw), if_neg (by omega)]
  simp only [hpower, hheld, if_true]
  rw [State.modCore, hk, hs, State.setCore_setCore]

/-- The cycle counted on a core whose ports serve another first, and the turns that it takes in OPEN mode. -/
def CoreState.atPorts (c : Nat) (k : CoreState) (a : SpmAcc) (v : List Nat × Bool) : CoreState :=
  let k1 := if v.2 then k.bump c CORE_SPM_CONT 1 else k
  if k1.timed c then k1 else v.1.foldl (fun k r => k.turn (k.bankOf c a.mem r) a.client) k1

theorem CoreState.timed_cont (c : Nat) (k : CoreState) (b : Bool) : (if b then k.bump c CORE_SPM_CONT 1 else k).timed c = k.timed c := by
  cases b with
  | false => rfl
  | true => exact congrArg (·.getLsbD 0) ((CoreState.reg_setReg k c CORE_SPM_CONT CORE_SPM_MODE _).trans (if_neg (by decide)))

/-- A core after the cycle, before its rows move. -/
theorem State.setCore_atPorts (s : State) (c : Nat) (k : CoreState) (a : SpmAcc) (v : List Nat × Bool) :
    (if k.timed c then (s.setCore c k).modCore c (fun k => if v.2 then k.bump c CORE_SPM_CONT 1 else k)
      else ((s.setCore c k).modCore c (fun k => if v.2 then k.bump c CORE_SPM_CONT 1 else k)).modCore c
        (fun k => v.1.foldl (fun k r => k.turn (k.bankOf c a.mem r) a.client) k)) = s.setCore c (k.atPorts c a v) := by
  unfold CoreState.atPorts
  extract_lets k1
  have hk1 : (s.setCore c k).modCore c (fun k => if v.2 then k.bump c CORE_SPM_CONT 1 else k) = s.setCore c k1 := by
    rw [State.modCore, State.core_setCore, if_pos rfl, State.setCore_setCore]
  rw [hk1, State.modCore, State.core_setCore, if_pos rfl, State.setCore_setCore, CoreState.timed_cont]
  exact (apply_ite (s.setCore c) _ _ _).symm

theorem Presented.served (h : Presented s c t0 a k) (hheld : k.portHeld c (k.portOf a) = false) {q' : PortWait} {x : State}
    (hmove : (s.setCore c (k.atPorts c a (k.serve c t0 (k.portOf a) rivals))).accMove c (k.portOf a)
      (k.serve c t0 (k.portOf a) rivals).1 = (stOk, q', x)) : exec (.spmAccess c t0 a rivals) s =
    s.inCore c (.next (x.accSettle c { k.portOf a with waited := 0 } { q' with waited := 0 })) := by
  obtain ⟨hcore, hclient, hlen, hrange, hfeeder, hpower⟩ := h
  show execSpmAccess c t0 a rivals s = _
  have hk : (s.modCore c (fun k => { k with cyc := max t0 k.cyc })).core c = k :=
    ((State.core_modCore s c c _).trans (if_pos rfl)).trans hcore
  have hs : s.modCore c (fun k => { k with cyc := max t0 k.cyc }) = s.setCore c k := congrArg (s.setCore c) hcore
  unfold execSpmAccess
  simp only [hk]
  rw [if_neg (by omega), if_neg (by rintro ⟨h0, hw⟩; obtain ⟨h1, h2⟩ := hfeeder h0; simp [h1, h2] at hw), if_neg (by omega)]
  simp only [hpower, hheld, Bool.false_eq_true, if_false]
  rw [hs, State.setCore_atPorts, hmove]
  exact congrArg (s.inCore c) (if_neg (not_not_intro rfl))

/-- What a cycle at the ports makes of the core: its access keeps its place, or ends. -/
theorem Presented.settles (h : Presented s c t0 a k) (hheld : k.portHeld c (k.portOf a) = false) {q' : PortWait} {x : State}
    (hmove : (s.setCore c (k.atPorts c a (k.serve c t0 (k.portOf a) rivals))).accMove c (k.portOf a)
      (k.serve c t0 (k.portOf a) rivals).1 = (stOk, q', x)) :
    ∃ r, (a.tag = .none → r = (x.core c).regs) ∧ Gives (.spmAccess c t0 a rivals) s (fun t => t.core c =
      if !q'.rest.isEmpty then ({ x.core c with regs := r } : CoreState).enqueue { q' with waited := 0 }
      else if a.write then ({ x.core c with regs := r } : CoreState).dequeue a
      else (({ x.core c with regs := r } : CoreState).dequeue a).deliver c a (Mem.read q'.got a.off a.len)) := by
  have hacc : q'.acc = a := by
    have hkept := State.accMove_acc (s.setCore c (k.atPorts c a (k.serve c t0 (k.portOf a) rivals))) c (k.portOf a)
      (k.serve c t0 (k.portOf a) rivals).1
    rw [hmove] at hkept
    exact hkept.trans (k.portOf_acc a)
  obtain ⟨r, hr, hcore⟩ := x.core_accSettle c { k.portOf a with waited := 0 } { q' with waited := 0 }
  refine ⟨r, fun htag => hr ((congrArg SpmAcc.tag (k.portOf_acc a)).trans htag), .ofCore (h.served hheld hmove) fun t ht _ _ => ?_⟩
  rw [ht, hcore]
  subst hacc
  rfl

end

/-- Settles O19: a held access only counts its cycle; a served one keeps its place at the ports with the rows left, or ends. -/
theorem servedAccessMoves : Obligations.ServedAccessMoves := by
  unfold Obligations.ServedAccessMoves
  intro s c t0 a rivals k q gs hclient hlen hrange hfeeder hpower
  have h : Presented s c t0 a k := ⟨rfl, hclient, hlen, hrange, hfeeder, hpower⟩
  refine ⟨fun hheld => .ofCore (h.held hheld) fun t ht _ _ => ?_, fun hheld q' x => ?_⟩
  · rw [ht, State.core_setCore, if_pos rfl]
    exact ⟨rfl, rfl, rfl⟩
  intro v k1 u
  refine ⟨fun htimed howner => ?_, fun hmove => ?_⟩
  · have hserve : v = (if wheelOwner (k.reg c CORE_SPM_WHEEL) (t0 % 8) = q.acc.client then k.portRows c q.acc.mem q.ahead else [], false) :=
      if_pos htimed
    rw [hserve]
    exact if_neg (by rwa [k.portOf_acc a])
  obtain ⟨r, hr, t, hexec, ht⟩ := h.settles hheld hmove
  refine ⟨fun hleft => ⟨t, hexec, ?_⟩, fun hleft hwrite => ⟨t, hexec, ?_⟩, fun hleft hread hother => ⟨t, hexec, ?_⟩,
    fun hleft hfeed htag => ⟨t, hexec, ?_⟩⟩ <;> beta_reduce
  · have hsome : (!q'.rest.isEmpty) = true := by simpa using hleft
    rw [ht, if_pos hsome]
    exact ⟨rfl, rfl, rfl, rfl⟩
  all_goals rw [hleft, if_neg (by decide)] at ht
  · rw [ht, if_pos hwrite]
    exact ⟨rfl, rfl, rfl⟩
  · rw [ht, if_neg (by rw [hread]; decide), CoreState.deliver, if_neg hother]
    exact ⟨rfl, rfl, rfl⟩
  · obtain ⟨hread, -⟩ := hfeeder hfeed
    rw [ht, if_neg (by rw [hread]; decide), CoreState.deliver, if_pos hfeed, hr htag]

end Sys2Proof.Machine
end

section
/-!
O20: a page table that lists a page twice.
-/

namespace Sys2Proof.Machine

/-- A CRC that matches the cells of a page that holds zeros. -/
def zeroPageCrc : W32 := crc32 (CoreState.reset.pageBytes 0 0)

/-- Power group 16 is in retention; the page table names its page 0 as EMPTY, and again, further on, as LOADED. -/
def twiceNamedCore : CoreState := { CoreState.reset.setGroupSt 0 16 1 with
  pages := [(pageKey 0 0, ⟨.empty, zeroPageCrc, none⟩), (pageKey 0 0, ⟨.loaded, zeroPageCrc, none⟩)] }

def twiceNamed : State := ({ State.reset with now := 1 } : State).setCore 0 twiceNamedCore

theorem twiceNamed_core : twiceNamed.core 0 = twiceNamedCore := (State.core_setCore _ _ _ _).trans (if_pos rfl)

theorem twiceNamedCore_crc : crc32 (twiceNamedCore.pageBytes 0 0) = (twiceNamedCore.page 0 0).crc := by
  have hcells : twiceNamedCore.wm = CoreState.reset.wm := rfl
  have hbytes : twiceNamedCore.pageBytes 0 0 = CoreState.reset.pageBytes 0 0 := by
    simp only [CoreState.pageBytes, CoreState.wmRow, hcells]
  have hcrc : (twiceNamedCore.page 0 0).crc = zeroPageCrc := rfl
  rw [hbytes, hcrc, zeroPageCrc]

/-- The wake finds no LOADED page to scrub. -/
theorem retentionScrubWake_twiceNamed :
    Gives (.retentionScrubWake 0 0) twiceNamed (fun t => Tab.get (fun _ => 0) (t.core 0).scrubAt (pageKey 0 0) = 0) :=
  ⟨_, rfl, by decide +kernel⟩

/-- Refutes O20: core 0 of `twiceNamed` meets the hypotheses of the clause on the scrub of the one LOADED page of a retained group, and
the scrub leaves its time at 0, because the clause finds the page by a pass over the whole table (`CoreState.loadedPages`), and the
scrub by the first entry of its key (`CoreState.page`). A table in canonical form names no page twice, but the clause is about every
state. -/
theorem not_scratchpadEvents : ¬ Obligations.ScratchpadEvents := by
  intro h
  obtain ⟨-, -, -, -, -, hscrub, -⟩ := h twiceNamed 0
  rw [twiceNamed_core] at hscrub
  have hflips (r : Nat) (_ : r < 256) : twiceNamedCore.wmFlips 0 0 r = 0 := rfl
  refine retentionScrubWake_twiceNamed.not_of_gives (fun t ht => ?_) (hscrub 0 0 (by decide) (by decide +kernel) (by decide)
    (by decide +kernel) hflips twiceNamedCore_crc)
  rintro ⟨-, -, hnow⟩
  exact absurd (ht.symm.trans hnow) (by decide)

end Sys2Proof.Machine
end

section
/-!
O6: a branch on EXIT behind a pass whose checkpoint has not been tested.
-/

namespace Sys2Proof.Machine

/-- BR to address 5 on EXIT. -/
def exitBranch : W64 := BitVec.ofNat 64 (0x21 + 2 ^ 6 + 5 * 2 ^ 10)

/-- A pass with a checkpoint (R119), in its slot. -/
def checkedPass : PassRec where
  pc := 0
  base := 0
  ext := 0
  row := 0
  segs := 1
  tallies := []
  sag := 0
  acc16 := false
  ascales := []
  slot := 0
  closes := true
  firstPage := 0
  npages := 0
  gen := none
  check := some 64
  retired := false

/-- Core 0 runs a program whose next instruction is the branch, with EXIT set and the pass still in the array. -/
def exitState : State := State.reset.setCore 0 { CoreState.reset with
  loaded := true
  seq := .running
  imem := [(0, exitBranch)]
  exitC := true
  passes := [checkedPass] }

theorem exitState_issues : Issues exitState 0 .br exitBranch :=
  ⟨by decide +kernel, by decide +kernel, by decide +kernel, by decide +kernel, by decide +kernel, by decide +kernel, by decide +kernel⟩

/-- The branch waits for the checkpoint (R120), so EXIT is not cleared yet. -/
theorem br_exitState : Gives (.br 0) exitState (fun t => (t.core 0).exitC = true) := ⟨_, rfl, by decide +kernel⟩

/-- Refutes O6: in `exitState` the branch stands at the pc of a core that may issue, and EXIT stays set, because a test of EXIT waits
while a pass with a checkpoint is in its slot (`execBr`, R120). `Issues` asks only that no checkpoint of a pass that has retired is to be
tested (`CoreState.checkDue`). -/
theorem not_branchInstruction : ¬ Obligations.BranchInstruction := by
  intro h
  refine br_exitState.not_of_gives (fun t ht => ?_) (h exitState 0 exitBranch exitState_issues)
  rintro ⟨-, hexit, -⟩
  rw [if_pos (.inl (by decide +kernel)), ht] at hexit
  exact absurd hexit (by decide)

end Sys2Proof.Machine
end

section
/-!
O8: a WAITF on a tag that the feeder consumes first.
-/

namespace Sys2Proof.Machine

/-- WAITF on slot 0 of AM: wait for FULL and leave it EMPTY. -/
def consumingWait : W64 := BitVec.ofNat 64 (0x18 + 2 ^ 7 + 2 ^ 8)

/-- The feeder has waited a cycle to CONSUME the first row of AM. -/
def feederRead : PortWait := ⟨⟨.am, 0, false, 0, 64, [], .consume⟩, 1, [0], []⟩

/-- Core 0 runs a program whose next instruction is the WAITF; slot 0 of AM is FULL, and the feeder's access stands at the ports. -/
def rivalState : State := State.reset.setCore 0 { CoreState.reset.setTag 0 .am 0 true with
  loaded := true
  seq := .running
  imem := [(0, consumingWait)]
  queued := [feederRead] }

theorem rivalState_issues : Issues rivalState 0 .waitf consumingWait :=
  ⟨by decide +kernel, by decide +kernel, by decide +kernel, by decide +kernel, by decide +kernel, by decide +kernel, by decide +kernel⟩

/-- The feeder goes first at the slot (R192), so the WAITF waits at its address. -/
theorem waitf_rivalState : Gives (.waitf 0) rivalState (fun t => (t.core 0).pc = 0) := ⟨_, rfl, by decide +kernel⟩

/-- Refutes O8: in `rivalState` the tag of the one slot is the wanted one, and the WAITF does not issue, because an access that comes
before the sequencer's in client order waits on the same slot (`CoreState.tagRival`, R192). The clause asks nothing of the accesses at
the ports. -/
theorem not_waitInstructions : ¬ Obligations.WaitInstructions := by
  intro h
  obtain ⟨-, hwaitf⟩ := h rivalState 0 consumingWait
  obtain ⟨hissues, -⟩ := hwaitf rivalState_issues (by decide +kernel) (by decide +kernel)
  refine waitf_rivalState.not_of_gives (Q := fun t => (t.core 0).pc = 1) (fun t ht => by rw [ht]; decide) ?_
  exact ⟨_, hissues (by decide +kernel), by decide +kernel⟩

end Sys2Proof.Machine
end

section
/-!
O21: a STEP of a core that holds an accumulator instruction back for its pair.
-/

namespace Sys2Proof.Machine

/-- Core 0 has entered DEBUG with its program loaded while an ACLR at address 0 was held to issue with the compute instruction at
address 1 (R212). -/
def heldState : State :=
  { State.reset.setCore 0 { CoreState.reset with
      loaded := true
      seq := .debug
      pc := 1
      accHeld := some (0, BitVec.ofNat 64 0x10, false) } with
    bootStep := 11 }

theorem heldState_writes : Writes heldState .mp (coreAddr 0 CORE_SEQ_CTRL) 2 2 :=
  ⟨_, rfl, by decide +kernel, by decide +kernel⟩

/-- The held instruction is let go to issue alone (R236). -/
theorem coreSeqStep_heldState : Gives (.coreSeqStep .mp 0) heldState (fun t => (t.core 0).accHeld = some (0, BitVec.ofNat 64 0x10, true)) :=
  ⟨_, rfl, by decide +kernel⟩

/-- Refutes O21: the STEP of `heldState` changes what core 0 holds back, because a step pairs nothing and the held instruction is the next
in program order (`CoreState.step`, R236). The clause has the rest of the core stay, and does not ask that nothing is held. -/
theorem not_debugControl : ¬ Obligations.DebugControl := by
  rintro ⟨h, -⟩
  obtain ⟨-, hstep, -⟩ := h heldState .mp 0
  obtain ⟨hdebug, -⟩ := hstep heldState_writes (by decide +kernel)
  refine coreSeqStep_heldState.not_of_gives (Q := fun t => (t.core 0).accHeld = some (0, BitVec.ofNat 64 0x10, false))
    (fun t ht => by rw [ht]; decide) ?_
  exact ⟨_, hdebug (by decide +kernel), by decide +kernel⟩

end Sys2Proof.Machine
end

section
/-!
O22: an instruction written between the doorbell of a program and its start.
-/

namespace Sys2Proof.Machine

/-- The doorbell of core 0 has rung for command 0, and its program has not started yet. -/
def bellState : State := { State.reset.setCore 0 { CoreState.reset with doorbell := some (0, none) } with bootStep := 11 }

theorem bellState_writes : Writes bellState .mp (coreAddr 0 (CORE_IMEM (2 * 0 + 0))) 0 0 :=
  ⟨_, rfl, by decide +kernel, by decide +kernel⟩

/-- The program counts as loaded from its doorbell on (R211), so the half is ignored. -/
theorem coreImemWrite_bellState : Gives (.coreImemWrite .mp 0 0 false 0) bellState (fun t => (t.core 0).imemHeld = []) :=
  ⟨_, rfl, by decide +kernel⟩

/-- Refutes O22: core 0 of `bellState` has `loaded` unset, and a low half is not held for its agent, because a core counts as having a
program from its doorbell on, before `loaded` is set (`CoreState.hasProgram`). -/
theorem not_instructionMemoryAccess : ¬ Obligations.InstructionMemoryAccess := by
  intro h
  obtain ⟨hlow, -⟩ := h bellState .mp 0 0 0 (by decide)
  refine coreImemWrite_bellState.not_of_gives (Q := fun t => (t.core 0).imemHeld ≠ []) (fun t ht => by simp [ht]) ?_
  exact ⟨_, hlow bellState_writes (.inl (by decide +kernel)), by decide +kernel⟩

end Sys2Proof.Machine
end

section
/-!
O36: a dispatch that waits for another core and gives that core the number of the one which a TILE_RUN names.
-/

namespace Sys2Proof.Machine

/-- TILE_RUN of a program of one word in host memory, on logical core 1, the first entry of queue 0. -/
def tileEntry : Entry :=
  ⟨.queue 0, 0, 1, [0x32#8, 0, 7, 0, 1, 3, 0, 0] ++ leBytes 8 (2 ^ 63) ++ leBytes 8 1 ++ leBytes 8 2 ++ List.replicate 32 0,
    none, false, false, [], 0⟩

/-- A dispatch for logical core 0 that writes LOGICAL 1 to CORE_ID of its core before its program starts. -/
def renamingDispatch : Dispatch := { mkDispatch 0 0 [] 0 [] with config := [(CORE_ID, BitVec.ofNat 32 (2 ^ 8))] }

/-- The machine is READY, the dispatch waits to be sent, and the entry stands at stage 2. -/
def renamingState : State :=
  { State.reset.setFld GLB_STATE 2 0 devReady with
    bootStep := 11
    pcieUp := true
    busMaster := true
    disp := [renamingDispatch]
    fetched := [tileEntry] }

/-- The program that TILE_RUN reads: a word of 0. -/
def zeroProgram : List Byte := List.replicate 8 0

theorem renamingState_accepts : Accepts renamingState (.queue 0) 0x32 tileChecks tileEntry zeroProgram (renamingState.tookTurn (.queue 0)) :=
  ⟨by decide +kernel, ⟨_, rfl, by decide +kernel⟩, by decide +kernel, by decide +kernel, by decide +kernel⟩

/-- The dispatch for core 0 goes first and leaves two cores with number 1; the first of them has a doorbell already, so core 1 is
not rung. -/
theorem tileRun_renamingState : Gives (.tileRun (.queue 0)) renamingState (fun t => (t.core 1).doorbell = none) :=
  ⟨_, rfl, by decide +kernel⟩

/-- Refutes O36: in `renamingState` logical core 1 is core 1, which is free, and TILE_RUN does not ring its doorbell, because a
dispatch may carry any register to write before its program starts (`Dispatch.config`, `State.send`), CORE_ID too, by which a core is
found under its number (`State.physOf`). No layer writes CORE_ID (`State.layerConfig`), but the clause is about every state. -/
theorem not_layerCommandsStart : ¬ Obligations.LayerCommandsStart := by
  intro h
  obtain ⟨-, -, htile⟩ := h renamingState (.queue 0) tileEntry
  obtain ⟨-, hcores⟩ := htile zeroProgram _ renamingState_accepts (by decide +kernel)
  refine tileRun_renamingState.not_of_gives (fun t ht => ?_) (hcores (by decide +kernel))
  rintro ⟨-, hrung⟩
  obtain ⟨hbell, -⟩ := hrung 1 (by decide +kernel) 1 (by decide +kernel) (by decide +kernel) (by decide +kernel) (by decide +kernel)
  exact nomatch ht.symm.trans hbell

end Sys2Proof.Machine
end

section
/-!
What an issue makes of its core, and the faults at issue: the proof of O2 (R209, R211, R214, R231, R236, R402).
-/

namespace Sys2Proof.Machine

/-! ## An instruction has issued -/

/-- A 64-bit count that is raised, as a number. -/
theorem CoreState.bump64_pair (k : CoreState) (c off n : Nat) :
    ((k.bump64 c off n).reg c off).toNat + 2 ^ 32 * ((k.bump64 c off n).reg c (off + 4)).toNat =
      ((k.reg c off).toNat + 2 ^ 32 * (k.reg c (off + 4)).toNat + n) % 2 ^ 64 := by
  simp only [CoreState.bump64, CoreState.reg_setReg, if_true, if_neg (show off ≠ off + 4 by omega), BitVec.toNat_ofNat]
  omega

theorem CoreState.passed_issueCount (c : Nat) (k : CoreState) :
    (CoreState.passed c k).issueCount c = (k.issueCount c + 1) % 2 ^ 64 :=
  CoreState.bump64_pair k c CORE_SEQ_ISSUE_LO 1

theorem CoreState.passed_reg (c : Nat) (k : CoreState) {off : Nat} (hlo : off ≠ CORE_SEQ_ISSUE_LO) (hhi : off ≠ CORE_SEQ_ISSUE_HI) :
    (CoreState.passed c k).reg c off = k.reg c off :=
  CoreState.bump64_other k c CORE_SEQ_ISSUE_LO 1 hlo hhi

/-- The count of an issue reaches no breakpoint. -/
theorem CoreState.breakAt_bump64 (c : Nat) (k : CoreState) (pc : Nat) :
    (k.bump64 c CORE_SEQ_ISSUE_LO 1).breakAt c pc = k.breakAt c pc := by
  have hreg (j : Nat) (hj : j < 4) : (k.bump64 c CORE_SEQ_ISSUE_LO 1).reg c (CORE_SEQ_BP j) = k.reg c (CORE_SEQ_BP j) :=
    CoreState.bump64_other _ _ _ _ (by simp only [CORE_SEQ_BP, CORE_SEQ_ISSUE_LO]; omega)
      (by simp only [CORE_SEQ_BP, CORE_SEQ_ISSUE_LO]; omega)
  rw [Bool.eq_iff_iff]
  simp only [CoreState.breakAt, CoreState.fld, List.any_eq_true, List.mem_range]
  exact exists_congr fun j => and_congr_right fun hj => by rw [hreg j hj]

/-- A running core stops at an enabled breakpoint (R236). -/
theorem CoreState.passed_seq (c : Nat) {k : CoreState} (hrun : k.seq = .running) (hstep : k.stepping = false) :
    (CoreState.passed c k).seq = if k.breakAt c (nextPc k.pc k.loops).1 then SeqState.halting else SeqState.running := by
  have hseq : (k.issued c).seq = .running := by simp [CoreState.issued, CoreState.done, CoreState.bump64, hrun, hstep, CoreState.setReg]
  have hpassed : (CoreState.passed c k).seq =
      if (k.bump64 c CORE_SEQ_ISSUE_LO 1).breakAt c (nextPc k.pc k.loops).1 && (k.issued c).seq == .running then .halting
        else (k.issued c).seq := rfl
  rw [hpassed, CoreState.breakAt_bump64, hseq]
  simp

/-- At the last address of a body the innermost level turns back, or is popped (R231). -/
theorem nextPc_last (l : LoopLevel) (ls : List LoopLevel) :
    nextPc l.last (l :: ls) = if 1 < l.left then (l.start, { l with left := l.left - 1 } :: ls) else nextPc l.last ls := by
  rw [nextPc, if_pos rfl]

theorem nextPc_inside {pc : Nat} {l : LoopLevel} (ls : List LoopLevel) (h : pc ≠ l.last) :
    nextPc pc (l :: ls) = ((pc + 1) % 8192, l :: ls) := by
  rw [nextPc, if_neg h]

/-! ## Faults at issue -/

section
variable {s : State} {c : Nat} (kind : TileKind) (f : W64 → State) (hcan : (s.core c).canIssue = true)
  (hheld : (s.core c).accHeld = none)
include hcan hheld

theorem withTile_unlisted (hgood : .imem (s.core c).pc ∉ (s.core c).bad) (hkind : tileKind ((s.core c).imemAt (s.core c).pc) = none) :
    withTile kind c s f = .next (s.tileFault c stBadOpcode 0) := by
  simp [withTile, hcan, CoreState.fetchBad, CoreState.current_free hheld, hheld, hgood, hkind]

theorem withTile_reserved (hgood : .imem (s.core c).pc ∉ (s.core c).bad) (hkind : tileKind ((s.core c).imemAt (s.core c).pc) ≠ none)
    (hrsv : tileReserved ((s.core c).imemAt (s.core c).pc) = true) :
    withTile kind c s f = .next (s.tileFault c stBadField 0) := by
  simp [withTile, hcan, CoreState.fetchBad, CoreState.current_free hheld, hheld, hgood, hkind, hrsv]

theorem withTile_badWord (hbad : .imem (s.core c).pc ∈ (s.core c).bad) : withTile kind c s f = .next (s.wordFault c) := by
  simp [withTile, hcan, CoreState.fetchBad, hheld, hbad]

theorem withTile_badHandle (hgood : .imem (s.core c).pc ∉ (s.core c).bad)
    (hkind : tileKind ((s.core c).imemAt (s.core c).pc) = some kind) (hrsv : tileReserved ((s.core c).imemAt (s.core c).pc) = false)
    (hdue : (s.core c).checkDue = false) (hbad : (s.core c).handleBad c ((s.core c).imemAt (s.core c).pc) = true) :
    withTile kind c s f = .next (s.wordFault c) := by
  simp [withTile, hcan, CoreState.fetchBad, CoreState.current_free hheld, hheld, hgood, hkind, hrsv, hdue, hbad]

end

/-- An uncorrectable entry that an instruction names is one that it reads, where nothing stands in for it. -/
theorem CoreState.handleBad_of_named {c : Nat} {k : CoreState} {w : W64} {h : Nat} (hnamed : h ∈ k.namedHandles c w)
    (hbad : .handle h ∈ k.bad) (hbound : k.rebound = []) : k.handleBad c w = true := by
  have hne : k.bad ≠ [] := List.ne_nil_of_mem hbad
  simp only [CoreState.handleBad, hbound, Bool.and_eq_true, Bool.not_eq_true', List.isEmpty_eq_false_iff, List.any_eq_true]
  exact ⟨hne, h, hnamed, by simpa using hbad, by simp⟩

/-- No other opcode than that of STO names a STO. -/
theorem opcode_of_sto {w : W64} (h : tileKind w = some .sto) : field w 5 0 = 3 := by
  simp only [tileKind] at h
  split at h
  case h_3 => assumption
  all_goals (repeat' split at h) <;> cases h

/-- A STO reads the entries of its source and of its destination. -/
theorem CoreState.namedHandles_sto (c : Nat) (k : CoreState) {w : W64} (h : tileKind w = some .sto) :
    field w 13 6 ∈ k.namedHandles c w ∧ field w 25 18 ∈ k.namedHandles c w := by
  simp [CoreState.namedHandles, opcode_of_sto h]

/-- The core faults where it stands. -/
def FaultedAt (s : State) (c st : Nat) (t : State) : Prop :=
  (t.core c).fault = some ⟨st, (s.core c).pc, 0, t.now⟩ ∧ (t.core c).pc = (s.core c).pc

/-- A fence of the core has been asked for. -/
def Fenced (c : Nat) (t : State) : Prop := t.fenceDue.any (fun f => f.1 == c) = true

theorem State.tileFault_faulted {s : State} {c : Nat} (st : Nat) (hcan : (s.core c).canIssue = true) (hheld : (s.core c).accHeld = none) :
    FaultedAt s c st (s.tileFault c st 0) := by
  obtain ⟨hcore, hnow⟩ := State.tileFault_core st 0 hcan hheld
  rw [FaultedAt, hcore, hnow]
  exact ⟨rfl, rfl⟩

theorem State.fenceRequest_now (s : State) (c cause : Nat) : (s.fenceRequest c cause).now = s.now := by
  unfold State.fenceRequest
  split <;> rfl

theorem State.fenceRequest_fenced (s : State) (c cause : Nat) : Fenced c (s.fenceRequest c cause) := by
  unfold State.fenceRequest
  split
  · assumption
  · simp [Fenced]

/-- An uncorrectable word faults the tile and has the core fenced (R402). -/
theorem State.wordFault_faulted {s : State} {c : Nat} (hcan : (s.core c).canIssue = true) (hheld : (s.core c).accHeld = none) :
    FaultedAt s c stUncorrectable (s.wordFault c) ∧ Fenced c (s.wordFault c) := by
  refine ⟨?_, State.fenceRequest_fenced _ _ _⟩
  have hfault := State.tileFault_faulted stUncorrectable hcan hheld
  rw [FaultedAt, State.wordFault, State.fenceRequest_core, State.fenceRequest_now]
  exact hfault

/-- The frames of the commands around a tile instruction show its core, the time and the fences due as the instruction leaves them. -/
def ShownAs (c : Nat) (u t : State) : Prop := t.core c = u.core c ∧ t.now = u.now ∧ t.fenceDue = u.fenceDue

theorem FaultedAt.shown {s u t : State} {c st : Nat} (h : FaultedAt s c st u) (hs : ShownAs c u t) : FaultedAt s c st t := by
  obtain ⟨hcore, hnow, -⟩ := hs
  rwa [FaultedAt, hcore, hnow]

theorem Fenced.shown {u t : State} {c : Nat} (h : Fenced c u) (hs : ShownAs c u t) : Fenced c t := by
  obtain ⟨-, -, hfence⟩ := hs
  rwa [Fenced, hfence]

theorem endProgram_shows {s u : State} {c : Nat} {P : State → Prop} (h : ∀ f, withTile .endProgram c s f = .next u)
    (hp : ∀ t, ShownAs c u t → P t) : Gives (.endProgram c) s P :=
  ⟨_, congrArg s.inCores (h _), hp _ ⟨rfl, rfl, rfl⟩⟩

theorem pass_shows {s u : State} {c : Nat} {P : State → Prop} (h : ∀ f, withTile .pass c s f = .next u)
    (hp : ∀ t, ShownAs c u t → P t) : Gives (.pass c) s P :=
  ⟨_, congrArg (s.inCore c) (h _), hp _ ⟨by simp, rfl, rfl⟩⟩

theorem sto_shows {s u : State} {c : Nat} {P : State → Prop} (h : ∀ f, withTile .sto c s f = .next u)
    (hp : ∀ t, ShownAs c u t → P t) : Gives (.sto c) s P := by
  have hexec : exec (.sto c) s = .next (s.sameRings (s.samePins (s.sameSecure (s.sameFabric (s.samePower u))))) := by
    show execSto c s = _
    rw [execSto, h]
    rfl
  exact ⟨_, hexec, hp _ ⟨by simp, by simp, by simp⟩⟩

/-- END's command and PASS's command, where the frame that they share answers at issue. -/
theorem frame_shows {s u : State} {c : Nat} {P : State → Prop} (h : ∀ kind f, withTile kind c s f = .next u)
    (hp : ∀ t, ShownAs c u t → P t) : Gives (.endProgram c) s P ∧ Gives (.pass c) s P :=
  ⟨endProgram_shows (h _) hp, pass_shows (h _) hp⟩

/-- Settles O2: the core after an issue field by field, then each fault at issue by the frame that tile instructions share. -/
theorem issueGoesOn : Obligations.IssueGoesOn := by
  refine ⟨fun c k => ⟨rfl, rfl, CoreState.passed_issueCount c k, rfl, rfl, rfl, nextPc_last, fun _ => rfl,
    fun _ _ ls => nextPc_inside ls, CoreState.passed_seq c, fun _ => CoreState.passed_reg c k, rfl, rfl, rfl, rfl, rfl, rfl, rfl, rfl,
    rfl, rfl, rfl, rfl, rfl, rfl⟩, ?_⟩
  intro s c hcan hheld
  have hword := State.wordFault_faulted hcan hheld
  refine ⟨fun hgood hkind => ?_, fun hgood hkind hrsv => ?_, fun hbad => ?_, fun hgood hkind hrsv hdue hbound hbad => ?_⟩
  · exact frame_shows (fun kind f => withTile_unlisted kind f hcan hheld hgood hkind)
      (fun t => (State.tileFault_faulted stBadOpcode hcan hheld).shown)
  · exact frame_shows (fun kind f => withTile_reserved kind f hcan hheld hgood hkind hrsv)
      (fun t => (State.tileFault_faulted stBadField hcan hheld).shown)
  · exact frame_shows (fun kind f => withTile_badWord kind f hcan hheld hbad)
      (fun t ht => ⟨hword.1.shown ht, hword.2.shown ht⟩)
  · obtain ⟨hsrc, hdst⟩ := CoreState.namedHandles_sto c (s.core c) hkind
    have hread := hbad.elim (fun hb => CoreState.handleBad_of_named hsrc hb hbound) (fun hb => CoreState.handleBad_of_named hdst hb hbound)
    exact sto_shows (fun f => withTile_badHandle _ f hcan hheld hgood hkind hrsv hdue hread)
      (fun t ht => ⟨hword.1.shown ht, hword.2.shown ht⟩)

end Sys2Proof.Machine
end

section
/-!
LOOP: the proof of O5 (R231, R235).
-/

namespace Sys2Proof.Machine

/-- LAST of a LOOP lies inside the body that encloses it, as far as there is one. -/
def CoreState.Encloses (k : CoreState) (last : Nat) : Prop := ∀ l ∈ k.loops.head?, last ≤ l.last

/-- The iterations that a LOOP asks for: the immediate, or what the BOUND register holds now (R235). -/
def CoreState.loopCount (c : Nat) (k : CoreState) (w : W64) : Nat :=
  if field w 6 6 = 1 then (k.reg c (CORE_BOUND (field w 10 7))).toNat else field w 63 32

section
variable {s : State} {c : Nat} {w : W64} (h : Issues s c .loop w)
include h

/-- A LOOP that R231 allows. -/
theorem loop_issues (hroom : (s.core c).loops.length < 4) (hlast : (s.core c).pc < field w 23 11)
    (hin : (s.core c).Encloses (field w 23 11)) :
    exec (.loopInstr c) s = .next (s.setCore c (
      if (s.core c).loopCount c w = 0 then
        CoreState.arrive c { (s.core c).issued c with loops := (nextPc (field w 23 11) (s.core c).loops).2 }
          (nextPc (field w 23 11) (s.core c).loops).1
      else
        CoreState.arrive c { (s.core c).issued c with
          loops := ⟨(s.core c).pc + 1, field w 23 11, (s.core c).loopCount c w⟩ :: (s.core c).loops } ((s.core c).pc + 1))) := by
  rw [← State.inCore_setCore]
  refine (congrArg (s.inCore c) (withTile_of_issues _ h)).trans (congrArg (fun t => s.inCore c (.next t)) ?_)
  refine (if_neg ?_).trans (apply_ite (s.setCore c) _ _ _).symm
  rintro (hfull | hbefore | hout)
  · omega
  · omega
  · cases hl : (s.core c).loops with
    | nil => simp [hl] at hout
    | cons l ls => simp [CoreState.Encloses, hl] at hin hout; omega

/-- One that it does not allow faults the tile. -/
theorem loop_faults (hbad : 4 ≤ (s.core c).loops.length ∨ field w 23 11 ≤ (s.core c).pc ∨ ¬ (s.core c).Encloses (field w 23 11)) :
    exec (.loopInstr c) s = s.inCore c (.next (s.tileFault c stBadField 0)) := by
  refine (congrArg (s.inCore c) (withTile_of_issues _ h)).trans (congrArg (fun t => s.inCore c (.next t)) (if_pos ?_))
  refine hbad.imp_right (Or.imp_right fun hout => ?_)
  cases hl : (s.core c).loops with
  | nil => simp [CoreState.Encloses, hl] at hout
  | cons l ls => simpa [CoreState.Encloses, hl] using hout
end

/-- Settles O5: past the checks of R231 by the count, before them by the fault. -/
theorem loopInstruction : Obligations.LoopInstruction := by
  intro s c w n h hn
  obtain ⟨hcan, hheld, -⟩ := id h
  have hcount : n = (s.core c).loopCount c w := hn
  refine ⟨fun hroom hlast hin => ⟨fun hpos => ?_, fun hzero => ?_⟩, fun hbad => ?_⟩
  · refine ⟨_, loop_issues h hroom hlast hin, ?_⟩
    rw [if_neg (hcount ▸ hpos), ← hcount]
    simp only [State.core_setCore, if_true]
    exact ⟨trivial, rfl, rfl, rfl⟩
  · refine ⟨_, loop_issues h hroom hlast hin, ?_⟩
    rw [if_pos (hcount ▸ hzero)]
    simp only [State.core_setCore, if_true]
    exact ⟨trivial, rfl, rfl, rfl⟩
  · obtain ⟨hcore, hnow⟩ := State.tileFault_core stBadField 0 hcan hheld
    have hout : 4 ≤ (s.core c).loops.length ∨ field w 23 11 ≤ (s.core c).pc ∨ ¬ (s.core c).Encloses (field w 23 11) := by
      simpa [CoreState.Encloses] using hbad
    refine .ofCore (loop_faults h hout) fun t ht _ htime => ?_
    rw [ht, hcore, htime, hnow]
    exact ⟨rfl, rfl, rfl⟩

end Sys2Proof.Machine
end

section
/-!
END: the proof of O7 (R229, R230, R233).
-/

namespace Sys2Proof.Machine

/-- The cores, the time, and what the cores put out are in `t` as in `u`. -/
structure SameOutputs (u t : State) : Prop where
  core : ∀ d, t.core d = u.core d
  now : t.now = u.now
  completes : t.completes = u.completes
  doorbells : t.doorbells = u.doorbells
  barriers : t.barriers = u.barriers
  cmds : t.cmds = u.cmds
  atoms : t.atoms = u.atoms
  atomResps : t.atomResps = u.atomResps

/-- What a command of several cores makes of the cores and of what they put out. -/
theorem Gives.ofOutputs {i : Instr} {s u : State} {P : State → Prop} (h : exec i s = s.inCores (.next u))
    (hp : ∀ t, SameOutputs u t → P t) : Gives i s P :=
  ⟨_, h.trans (State.inCores_next _ _), hp _ (by constructor <;> simp)⟩

/-- With every earlier write acknowledged and the gather buffer empty, an instruction that waits for them has its effect at once. -/
theorem State.afterWrites_settled {s : State} {c : Nat} (f : State → State) (hsettled : (s.core c).settled = true)
    (hgather : (s.core c).gather = []) : s.afterWrites c f = f s := by
  simp [State.afterWrites, State.gatherFlushAll, hsettled, hgather]

/-- Nothing that the core has put out is still on its way. -/
def CoreState.Empty (k : CoreState) : Prop :=
  k.drains = [] ∧ k.closing = [] ∧ k.rangeWindows = [] ∧ (∀ i < 16, k.chunkMask i = 0) ∧ k.validWays = [] ∧ k.spills = [] ∧
    k.outst = [] ∧ k.gather = []

/-- The state after an END: the program of the core is no longer loaded, and dispatch-complete has rung. -/
def State.ended (s : State) (c : Nat) : State :=
  { s.setCore c (((s.core c).issued c).unload s.now) with
    completes := s.completes ++ [⟨c, (s.core c).dispatch, stOk, (s.core c).report, s.now⟩] }

theorem State.ended_core (s : State) (c : Nat) : (s.ended c).core c = ((s.core c).issued c).unload s.now :=
  (State.core_setCore s c c _).trans (if_pos rfl)

theorem endProgram_ends {s : State} {c : Nat} {w : W64} (h : Issues s c .endProgram w) (hloops : (s.core c).loops = [])
    (hempty : (s.core c).Empty) : exec (.endProgram c) s = s.inCores (.next (s.ended c)) := by
  obtain ⟨hdrains, hclosing, hwindows, hchunks, hways, hspills, houtst, hgather⟩ := hempty
  have hsettled : (s.core c).settled = true := by simp [CoreState.settled, hdrains, hclosing, hspills, houtst]
  refine (congrArg s.inCores (withTile_of_issues _ h)).trans (congrArg (fun t => s.inCores (.next t)) ?_)
  rw [if_neg (by simp [hloops]), if_neg (by simp [hdrains, hclosing, hwindows]), if_neg (by simpa using hchunks),
    if_neg (by simp [hways])]
  exact State.afterWrites_settled _ hsettled hgather

theorem endProgram_faults {s : State} {c : Nat} {w : W64} (h : Issues s c .endProgram w) (hloops : (s.core c).loops ≠ []) :
    exec (.endProgram c) s = s.inCores (.next (s.tileFault c stBadField 0)) :=
  (congrArg s.inCores (withTile_of_issues _ h)).trans (congrArg (fun t => s.inCores (.next t)) (if_pos (by simp [hloops])))

theorem State.tileFaultAt_completes (s : State) (c pc st info : Nat) : (s.tileFaultAt c pc st info).completes = s.completes := by
  unfold State.tileFaultAt
  extract_lets k t
  have hlog (u : State) (h : OnlyLogged t u) : u.completes = s.completes := by
    obtain ⟨_, _, _, _, rfl⟩ := h
    rfl
  split
  · rfl
  split
  · exact hlog _ (.violation _ _ _)
  split
  · exact hlog _ (.violation _ _ _)
  split
  · exact hlog _ (.violation _ _ _)
  · exact hlog _ (.refl _)

/-- Settles O7: an END with nothing left ends the program, one with a loop level open faults the tile. -/
theorem endInstruction : Obligations.EndInstruction := by
  intro s c w h
  obtain ⟨hcan, hheld, -⟩ := id h
  refine ⟨fun hloops hdrains hclosing hwindows hchunks hways hspills houtst hgather => ?_, fun hloops => ?_⟩
  · refine .ofOutputs (endProgram_ends h hloops ⟨hdrains, hclosing, hwindows, hchunks, hways, hspills, houtst, hgather⟩) fun t ht => ?_
    rw [ht.core, ht.completes, ht.barriers, ht.cmds, s.ended_core]
    exact ⟨rfl, rfl, rfl, rfl, rfl⟩
  · obtain ⟨hcore, hnow⟩ := State.tileFault_core stBadField 0 hcan hheld
    obtain ⟨-, hloaded⟩ := CoreState.canIssue_faultless hcan
    refine .ofOutputs (endProgram_faults h hloops) fun t ht => ?_
    rw [ht.core, ht.now, ht.completes, hcore, hnow]
    exact ⟨rfl, hloaded, State.tileFaultAt_completes _ _ _ _ _⟩

end Sys2Proof.Machine
end

section
/-!
Dispatch, the report of a fault, and the timeouts of WAITC and BARRIER: the proof of O10 (R211, R214, R227, R229).
-/

namespace Sys2Proof.Machine

/-! ## Dispatch (R211) -/

/-- The ticket registers cleared. -/
def CoreState.noTickets (c : Nat) (k : CoreState) : CoreState := (List.range 4).foldl (fun k j => k.setReg c (CORE_SEQ_TR j) 0) k

theorem CoreState.noTickets_reg (c : Nat) (k : CoreState) (off : Nat) :
    (k.noTickets c).reg c off = if off = CORE_SEQ_TR 0 ∨ off = CORE_SEQ_TR 1 ∨ off = CORE_SEQ_TR 2 ∨ off = CORE_SEQ_TR 3 then 0
      else k.reg c off := by
  simp only [CoreState.noTickets, List.range_succ, List.range_zero, List.nil_append, List.cons_append, List.foldl_cons, List.foldl_nil,
    CoreState.reg_setReg]
  split_ifs <;> simp_all

theorem CoreState.noTickets_ticket (c : Nat) (k : CoreState) {j : Nat} (h : j < 4) : (k.noTickets c).reg c (CORE_SEQ_TR j) = 0 := by
  rw [CoreState.noTickets_reg, if_pos (by simp only [CORE_SEQ_TR]; omega)]

theorem CoreState.noTickets_other (c : Nat) (k : CoreState) {off : Nat} (h : off < CORE_SEQ_TR 0 ∨ CORE_SEQ_TR 3 < off) :
    (k.noTickets c).reg c off = k.reg c off := by
  rw [CoreState.noTickets_reg, if_neg (by simp only [CORE_SEQ_TR] at *; omega)]

/-- The core that a dispatch of a command makes, before the ticket registers are cleared and the sequencer is at ENTRY. -/
structure Dispatched (id : Nat) (k k' : CoreState) : Prop where
  regs : k'.regs = k.regs
  loaded : k'.loaded = true
  doorbell : k'.doorbell = none
  dispatch : k'.dispatch = some id
  ags : k'.ags = []
  loops : k'.loops = []
  arr : k'.arr = none
  drn : k'.drn = none
  exitC : k'.exitC = false
  doneC : k'.doneC = false
  aepi : k'.aepi = k.aepi
  ctxs : k'.ctxs = k.ctxs
  acm : k'.acm = k.acm

/-- The sequencer at ENTRY. -/
def CoreState.atEntry (c : Nat) (k : CoreState) : CoreState := (k.noTickets c).arrive c ((k.noTickets c).fld c CORE_SEQ_ENTRY 12 0)

theorem coreDispatch_starts {s : State} {c id : Nat} (hbell : (s.core c).doorbell = some (id, none)) (hloaded : (s.core c).loaded = false)
    (hst : s.coreSt c = 0) : ∃ k, Dispatched id (s.core c) k ∧ exec (.coreDispatch c) s = .next (s.setCore c (k.atEntry c)) := by
  have hexec (k : CoreState) (hk : execCoreDispatch c s = s.inCore c (.next (s.setCore c (k.atEntry c)))) :
      exec (.coreDispatch c) s = .next (s.setCore c (k.atEntry c)) := Eq.trans hk (State.inCore_setCore _ _ _)
  refine ⟨?k, ?_, hexec ?k ?_⟩
  case refine_2 =>
    simp only [execCoreDispatch, hbell]
    rw [if_neg (by simp [hloaded, hst])]
    rfl
  case refine_1 => constructor <;> rfl

theorem CoreState.atEntry_reg (c : Nat) (k : CoreState) (off : Nat) : (k.atEntry c).reg c off = (k.noTickets c).reg c off := rfl

theorem CoreState.atEntry_pc (c : Nat) (k : CoreState) : (k.atEntry c).pc = k.fld c CORE_SEQ_ENTRY 12 0 :=
  CoreState.fld_of_reg (CoreState.noTickets_other c k (.inl (by decide))) 12 0

theorem CoreState.reg_of_regs {k k' : CoreState} (h : k'.regs = k.regs) (c off : Nat) : k'.reg c off = k.reg c off := by
  rw [CoreState.reg, CoreState.reg, h]

/-- What a dispatch leaves on its core (R211). -/
theorem coreDispatch_gives {s : State} {c id : Nat} (hbell : (s.core c).doorbell = some (id, none)) (hloaded : (s.core c).loaded = false)
    (hst : s.coreSt c = 0) :
    Gives (.coreDispatch c) s (fun t => (t.core c).loaded = true ∧ (t.core c).doorbell = none ∧ (t.core c).dispatch = some id ∧
      (t.core c).pc = (s.core c).fld c CORE_SEQ_ENTRY 12 0 ∧ (t.core c).ags = [] ∧ (t.core c).loops = [] ∧ (t.core c).arr = none ∧
      (t.core c).drn = none ∧ (t.core c).exitC = false ∧ (t.core c).doneC = false ∧
      (∀ j < 4, (t.core c).reg c (CORE_SEQ_TR j) = 0) ∧
      (∀ b < 16, (t.core c).reg c (CORE_BOUND b) = (s.core c).reg c (CORE_BOUND b)) ∧
      (t.core c).aepi = (s.core c).aepi ∧ (t.core c).ctxs = (s.core c).ctxs ∧ (t.core c).acm = (s.core c).acm) := by
  obtain ⟨k, hk, hexec⟩ := coreDispatch_starts hbell hloaded hst
  have hreg := CoreState.reg_of_regs hk.regs c
  refine ⟨_, hexec, ?_⟩
  simp only [State.core_setCore, if_true]
  refine ⟨hk.loaded, hk.doorbell, hk.dispatch, ?_, hk.ags, hk.loops, hk.arr, hk.drn, hk.exitC, hk.doneC, fun j hj => ?_, fun b hb => ?_,
    hk.aepi, hk.ctxs, hk.acm⟩
  · rw [CoreState.atEntry_pc, CoreState.fld_of_reg (hreg _)]
  · exact CoreState.noTickets_ticket c k hj
  · rw [CoreState.atEntry_reg, CoreState.noTickets_other c k (.inr (by simp only [CORE_SEQ_TR, CORE_BOUND]; omega)), hreg]

/-! ## The report of a fault (R214) -/

/-- The core of a fault that is reported: the program is no longer loaded, and CORE_SEQ_FAULT names the fault. -/
def CoreState.faultReported (c now : Nat) (k : CoreState) (f : TileFault) : CoreState :=
  { (k.setReg c CORE_SEQ_FAULT (BitVec.ofNat 32 (2 ^ 31 + f.status % 256 * 2 ^ 16 + f.pc % 2 ^ 13))).unload now with
    fault := none, dispatch := none }

theorem CoreState.faultReported_reg (c now : Nat) (k : CoreState) (f : TileFault) :
    (k.faultReported c now f).reg c CORE_SEQ_FAULT = BitVec.ofNat 32 (2 ^ 31 + f.status % 256 * 2 ^ 16 + f.pc % 2 ^ 13) :=
  (CoreState.reg_setReg k c CORE_SEQ_FAULT CORE_SEQ_FAULT _).trans (if_pos rfl)

theorem tileFaultReport_reports {s : State} {c : Nat} {f : TileFault} (hf : (s.core c).fault = some f) (hret : (s.core c).retired = true)
    (houtst : (s.core c).outst = []) (hspills : (s.core c).spills = []) :
    ∃ u, OnlyLogged (s.setCore c ((s.core c).faultReported c s.now f)) u ∧ exec (.tileFaultReport c) s =
      s.inCores (.next { u with completes := u.completes ++ [⟨c, (s.core c).dispatch, f.status, (s.core c).report, f.time⟩] }) := by
  refine ⟨_, .logEvent _ 0x0A f.status (logSource 0 c) (BitVec.ofNat 64 (f.pc % 2 ^ 13 + s.logicalOf c * 2 ^ 13 + f.info * 2 ^ 32)), ?_⟩
  show execTileFaultReport c s = _
  simp only [execTileFaultReport, hf]
  rw [if_neg (by simp [hret, houtst, hspills])]
  rfl

theorem tileFaultReport_gives {s : State} {c : Nat} {f : TileFault} (hf : (s.core c).fault = some f) (hret : (s.core c).retired = true)
    (houtst : (s.core c).outst = []) (hspills : (s.core c).spills = []) :
    Gives (.tileFaultReport c) s (fun t =>
      t.completes = s.completes ++ [⟨c, (s.core c).dispatch, f.status, (s.core c).report, f.time⟩] ∧ (t.core c).loaded = false ∧
      (t.core c).fault = none ∧
      (t.core c).reg c CORE_SEQ_FAULT = BitVec.ofNat 32 (2 ^ 31 + f.status % 256 * 2 ^ 16 + f.pc % 2 ^ 13)) := by
  obtain ⟨u, hlog, hexec⟩ := tileFaultReport_reports hf hret houtst hspills
  have hcore : u.core c = (s.core c).faultReported c s.now f := by simpa using hlog.core c
  have hcompletes : u.completes = s.completes := (SameCmds.logged hlog).completes
  refine .ofOutputs hexec fun t ht => ?_
  have htcore : t.core c = (s.core c).faultReported c s.now f := (ht.core c).trans hcore
  rw [ht.completes, htcore, hcompletes]
  exact ⟨rfl, rfl, rfl, CoreState.faultReported_reg _ _ _ _⟩

/-! ## Timeouts (R227, R229) -/

/-- An instruction whose timeout runs stands at the pc of a core that may issue. -/
theorem CoreState.canIssue_of_waitedFor {k : CoreState} {cause : Nat} (h : k.waitedFor cause ≠ none) : k.canIssue = true := by
  by_contra hcan
  simp [CoreState.waitedFor, hcan] at h

theorem waitcTimeout_faults {s : State} {c : Nat} (hwait : (s.core c).waitedFor waitArrival ≠ none)
    (hlim : ((s.core c).reg c CORE_SPM_FE_TMO).toNat ≠ 0) :
    exec (.waitcTimeout c) s = s.inCore c (.next ((s.setCore c ((s.core c).lapse c CORE_SEQ_SYNCWAIT
      ((s.core c).reg c CORE_SPM_FE_TMO).toNat)).tileFault c stTimeout 0)) :=
  congrArg (s.inCore c) (if_pos ⟨Option.isSome_iff_ne_none.mpr hwait, hlim⟩)

theorem barrierTimeout_faults {s : State} {c : Nat} (hwait : (s.core c).waitedFor waitBarrier ≠ none)
    (hkind : tileKind ((s.core c).imemAt (s.core c).pc) = some .barrier) (hheld : (s.core c).accHeld = none)
    (hlim : ((s.core c).reg c CORE_SEQ_BAR_TMO).toNat ≠ 0) :
    exec (.barrierTimeout c) s = s.inCore c (.next ((s.setCore c { (s.core c).lapse c CORE_SEQ_SYNCWAIT
      ((s.core c).reg c CORE_SEQ_BAR_TMO).toNat with barrier := none }).tileFault c stTimeout 0)) :=
  congrArg (s.inCore c) (if_pos (by
    simp [Option.isSome_iff_ne_none.mpr hwait, CoreState.current_free hheld, hkind, hlim]))

/-- A core that stands where `k` stands and may issue faults there. -/
theorem Gives.timesOut {i : Instr} {s : State} {c : Nat} {k : CoreState} (h : exec i s = s.inCore c (.next ((s.setCore c k).tileFault c stTimeout 0)))
    (hcan : k.canIssue = true) (hheld : k.accHeld = none) :
    Gives i s (fun t => (t.core c).fault = some ⟨stTimeout, k.pc, 0, t.now⟩ ∧ (t.core c).barrier = k.barrier) := by
  have hk : (s.setCore c k).core c = k := (State.core_setCore s c c k).trans (if_pos rfl)
  obtain ⟨hcore, hnow⟩ := State.tileFault_core (s := s.setCore c k) stTimeout 0 (by rw [hk]; exact hcan) (by rw [hk]; exact hheld)
  refine .ofCore h fun t ht _ htime => ?_
  rw [ht, hcore, hk, htime, hnow]
  exact ⟨rfl, rfl⟩

/-- Settles O10: each clause by the lemma of its command. -/
theorem dispatchFaultAndTimeouts : Obligations.DispatchFaultAndTimeouts := by
  intro s c
  refine ⟨fun _ => coreDispatch_gives, fun _ => tileFaultReport_gives, fun hwait hlim hheld => ?_, fun hwait hkind hheld hlim => ?_⟩
  · obtain ⟨t, ht, hfault, -⟩ := Gives.timesOut (waitcTimeout_faults hwait hlim) (CoreState.canIssue_of_waitedFor hwait) hheld
    exact ⟨t, ht, hfault⟩
  · exact Gives.timesOut (barrierTimeout_faults hwait hkind hheld hlim) (CoreState.canIssue_of_waitedFor hwait :) hheld

end Sys2Proof.Machine
end

section
/-!
CLAIM, its ticket, BARRIER and SIGNAL: the proof of O9 (R195, R228 to R230, R253, R256).
-/

namespace Sys2Proof.Machine

/-! ## CLAIM (R228, R253) -/

theorem State.sendAtom_core (s : State) (r : AtomReq) (d : Nat) : (s.sendAtom r).core d = s.core d := rfl

theorem State.withAtom_modCore (s : State) (c : Nat) (f : CoreState → CoreState) (r : AtomReq) : (s.modCore c f).withAtom r = s.withAtom r := rfl

/-- A claim is noted in its command alone. -/
theorem State.noteClaim_core (s : State) (c l d : Nat) : (s.noteClaim c l).core d = s.core d := by
  unfold State.noteClaim
  split <;> rfl

theorem State.noteClaim_withAtom (s : State) (c l : Nat) (r : AtomReq) : (s.noteClaim c l).withAtom r = s.withAtom r := by
  unfold State.noteClaim
  split <;> rfl

/-- The core of a CLAIM that waits for its ticket. -/
def CoreState.claiming (c : Nat) (k : CoreState) (l tr : Nat) : CoreState :=
  { k.bump c CORE_MAP_CLAIM 1 with claim := some (l, tr) }.stall c waitClaim (some CORE_SEQ_SYNCWAIT)

theorem CoreState.claiming_reg (c : Nat) (k : CoreState) (l tr : Nat) :
    (k.claiming c l tr).reg c CORE_MAP_CLAIM = satAdd (k.reg c CORE_MAP_CLAIM) 1 :=
  (CoreState.reg_setReg (k.bump c CORE_MAP_CLAIM 1) c CORE_SEQ_SYNCWAIT CORE_MAP_CLAIM _).trans
    ((if_neg (by decide)).trans ((CoreState.reg_setReg k c CORE_MAP_CLAIM CORE_MAP_CLAIM _).trans (if_pos rfl)))

/-- The request of a CLAIM on a list of this device: a FETCH_ADD32 of 1 to its counter. -/
def State.ticketRequest (s : State) (c l tr : Nat) : AtomReq :=
  ⟨bitsOf ((s.core c).wl c l) 47 0, .fetchAdd32, false, false, 1, 0, .claim c l tr, s.now⟩

/-- A CLAIM with the number of its list and its ticket register. -/
theorem claim_eq {s : State} {c : Nat} {w : W64} (h : Issues s c .claim w) (hfree : (s.core c).claim = none)
    (hvalid : bitsOf ((s.core c).wl c (field w 13 6)) 63 63 = 1) (hlocal : bitsOf ((s.core c).wl c (field w 13 6)) 62 62 = 0) :
    exec (.claim c) s = s.inCores (.next ((((s.noteClaim c (field w 13 6)).modCore c (fun k =>
      { k.bump c CORE_MAP_CLAIM 1 with claim := some (field w 13 6, field w 15 14) })).sendAtom
        (s.ticketRequest c (field w 13 6) (field w 15 14))).stall c waitClaim (some CORE_SEQ_SYNCWAIT))) := by
  refine (congrArg s.inCores (withTile_of_issues _ h)).trans (congrArg (fun t => s.inCores (.next t)) ?_)
  rw [if_neg (by simp [hfree]), if_neg (by omega), if_neg (by omega)]
  rfl

theorem claim_gives {s : State} {c : Nat} {w : W64} (h : Issues s c .claim w) (hfree : (s.core c).claim = none)
    (hvalid : bitsOf ((s.core c).wl c (field w 13 6)) 63 63 = 1) (hlocal : bitsOf ((s.core c).wl c (field w 13 6)) 62 62 = 0) :
    Gives (.claim c) s (fun t => (t.core c).claim = some (field w 13 6, field w 15 14) ∧ (t.core c).pc = (s.core c).pc ∧
      (t.core c).wait = waitClaim ∧ (t.core c).reg c CORE_MAP_CLAIM = satAdd ((s.core c).reg c CORE_MAP_CLAIM) 1 ∧
      t.atoms = s.withAtom (s.ticketRequest c (field w 13 6) (field w 15 14))) := by
  refine .ofOutputs (claim_eq h hfree hvalid hlocal) fun t ht => ?_
  have hcore : t.core c = (s.core c).claiming c (field w 13 6) (field w 15 14) := by
    rw [ht.core]
    simp only [State.stall, State.core_modCore, State.sendAtom_core, State.noteClaim_core, if_true]
    rfl
  rw [hcore, ht.atoms]
  refine ⟨rfl, rfl, rfl, CoreState.claiming_reg _ _ _ _, ?_⟩
  · show ((s.noteClaim c _).modCore c _).withAtom _ = _
    rw [State.withAtom_modCore, State.noteClaim_withAtom]

/-! ## CLAIM_TICKET -/

/-- The core of a CLAIM whose ticket has come; `far` says that the ticket, of an attached list, is kept until it is completed (R254). -/
def CoreState.claimed (c : Nat) (k : CoreState) (l tr ticket len : Nat) (far : Prop) [Decidable far] : CoreState :=
  { { k with claim := none }.setReg c (CORE_SEQ_TR tr) (BitVec.ofNat 32 ticket) with
    doneC := decide (len ≤ ticket), tickets := k.tickets ++ (if far then [(l, tr, ticket)] else []) }

theorem claimTicket_issues {s : State} {c l tr old : Nat} {rest : List AtomResp} (hresp : s.atomResps = ⟨.claim c l tr, stOk, old⟩ :: rest)
    (hclaim : (s.core c).claim = some (l, tr)) (hheld : (s.core c).accHeld = none) :
    exec (.claimTicket c) s = s.inCores (.next (({ s with atomResps := rest } : State).setCore c (CoreState.passed c
      ((s.core c).claimed c l tr (old % 2 ^ 32) (s.listLength ((s.core c).wl c l) l)
        (bitsOf ((s.core c).wl c l) 62 62 = 1 ∧ old % 2 ^ 32 < s.listLength ((s.core c).wl c l) l))))) := by
  have htake : takeClaim c s.atomResps = some (⟨.claim c l tr, stOk, old⟩, rest) := by simp [hresp, takeClaim]
  show execClaimTicket c s = _
  unfold execClaimTicket
  rw [htake, hclaim]
  refine congrArg s.inCores ((if_neg (by simp)).trans (congrArg Host.Outcome.next ?_))
  exact State.setCore_issue [] hheld

theorem CoreState.claimed_ticket (c : Nat) (k : CoreState) (l tr old len : Nat) (far : Prop) [Decidable far] (htr : tr < 4) :
    (CoreState.passed c (k.claimed c l tr (old % 2 ^ 32) len far)).reg c (CORE_SEQ_TR tr) = BitVec.ofNat 32 old := by
  rw [CoreState.passed_reg _ _ (by simp only [CORE_SEQ_TR, CORE_SEQ_ISSUE_LO]; omega) (by simp only [CORE_SEQ_TR, CORE_SEQ_ISSUE_HI]; omega)]
  refine (CoreState.reg_setReg _ c (CORE_SEQ_TR tr) (CORE_SEQ_TR tr) _).trans ((if_pos rfl).trans ?_)
  exact BitVec.eq_of_toNat_eq (by simp)

theorem claimTicket_gives {s : State} {c l tr old : Nat} {rest : List AtomResp} (hresp : s.atomResps = ⟨.claim c l tr, stOk, old⟩ :: rest)
    (hclaim : (s.core c).claim = some (l, tr)) (hheld : (s.core c).accHeld = none) (htr : tr < 4) :
    Gives (.claimTicket c) s (fun t => t.atomResps = rest ∧ (t.core c).claim = none ∧
      (t.core c).pc = (nextPc (s.core c).pc (s.core c).loops).1 ∧ (t.core c).reg c (CORE_SEQ_TR tr) = BitVec.ofNat 32 old ∧
      (t.core c).doneC = decide (s.listLength ((s.core c).wl c l) l ≤ old % 2 ^ 32)) := by
  refine .ofOutputs (claimTicket_issues hresp hclaim hheld) fun t ht => ?_
  rw [ht.atomResps, (ht.core c).trans ((State.core_setCore _ c c _).trans (if_pos rfl))]
  exact ⟨rfl, rfl, rfl, CoreState.claimed_ticket _ _ _ _ _ _ _ htr, rfl⟩

/-! ## BARRIER (R229) -/

/-- A barrier: its generation, and the members that have arrived in it. -/
def State.barrierAt (s : State) (key : Nat) : Nat × List Nat := Tab.get (fun _ => ((0 : Nat), ([] : List Nat))) s.barriers key

/-- The core has arrived at a barrier, in the generation `g`; with none, it waits at no barrier. -/
def CoreState.arrivedIn (k : CoreState) (g : Option Nat) : CoreState := { k with barrier := g }

/-- A core arrives at its barrier as the last one: the next generation begins. -/
def State.lastArrival (s : State) (c b : Nat) : State :=
  { s.modCore c (·.arrivedIn (some (s.barrierAt ((s.core c).barrierKey c b)).1)) with
    barriers := Tab.set (fun _ => ((0 : Nat), ([] : List Nat))) s.barriers ((s.core c).barrierKey c b)
      ((s.barrierAt ((s.core c).barrierKey c b)).1 + 1, []) }

theorem State.lastArrival_core (s : State) (c b : Nat) :
    (s.lastArrival c b).core c = (s.core c).arrivedIn (some (s.barrierAt ((s.core c).barrierKey c b)).1) :=
  (State.core_modCore s c c (·.arrivedIn (some (s.barrierAt ((s.core c).barrierKey c b)).1))).trans (if_pos rfl)

theorem State.lastArrival_barrierAt (s : State) (c b : Nat) :
    (s.lastArrival c b).barrierAt ((s.core c).barrierKey c b) = ((s.barrierAt ((s.core c).barrierKey c b)).1 + 1, []) :=
  Tab.get_set_same _ _ _ _

theorem State.barrierArrive_last {s : State} {c b : Nat}
    (hall : ∀ m ∈ s.members c, m = s.logicalOf c ∨ m ∈ (s.barrierAt ((s.core c).barrierKey c b)).2) :
    s.barrierArrive c b = s.lastArrival c b := by
  refine congrArg (fun g => ({ s.modCore c (·.arrivedIn (some (s.barrierAt ((s.core c).barrierKey c b)).1)) with
    barriers := Tab.set (fun _ => ((0 : Nat), ([] : List Nat))) s.barriers ((s.core c).barrierKey c b) g } : State)) (if_pos ?_)
  refine List.all_eq_true.mpr fun m hm => List.contains_iff_mem.mpr ?_
  obtain rfl | harrived := hall m hm
  · split
    · next hin => exact List.contains_iff_mem.mp hin
    · simp
  · split
    · exact harrived
    · exact List.mem_append_left _ harrived

theorem barrier_issues {s : State} {c : Nat} {w : W64} (h : Issues s c .barrier w) (hfirst : (s.core c).barrier = none)
    (hsettled : (s.core c).settled = true) (hgather : (s.core c).gather = [])
    (hall : ∀ m ∈ s.members c, m = s.logicalOf c ∨ m ∈ (s.barrierAt ((s.core c).barrierKey c (field w 9 6))).2) :
    exec (.barrier c) s = s.inCores (.next ((s.lastArrival c (field w 9 6)).setCore c (CoreState.passed c ((s.core c).arrivedIn none)))) := by
  have hheld : (s.core c).accHeld = none := h.2.1
  have hcore := s.lastArrival_core c (field w 9 6)
  refine (congrArg s.inCores (withTile_of_issues _ h)).trans (congrArg (fun t => s.inCores (.next t)) ?_)
  rw [hfirst]
  refine (State.afterWrites_settled _ hsettled hgather).trans ?_
  rw [State.barrierArrive_last hall]
  refine (if_pos ?_).trans ?_
  · rw [hcore]
    exact (Nat.lt_succ_self _).trans_eq (congrArg Prod.fst (s.lastArrival_barrierAt c (field w 9 6))).symm
  · rw [State.modCore, hcore]
    exact State.setCore_issue [] hheld

theorem barrier_gives {s : State} {c : Nat} {w : W64} (h : Issues s c .barrier w) (hfirst : (s.core c).barrier = none)
    (hsettled : (s.core c).settled = true) (hgather : (s.core c).gather = [])
    (hall : ∀ m ∈ s.members c, m = s.logicalOf c ∨ m ∈ (s.barrierAt ((s.core c).barrierKey c (field w 9 6))).2) :
    Gives (.barrier c) s (fun t => (t.core c).pc = (nextPc (s.core c).pc (s.core c).loops).1 ∧ (t.core c).barrier = none ∧
      t.barrierAt ((s.core c).barrierKey c (field w 9 6)) = ((s.barrierAt ((s.core c).barrierKey c (field w 9 6))).1 + 1, [])) := by
  refine .ofOutputs (barrier_issues h hfirst hsettled hgather hall) fun t ht => ?_
  rw [State.barrierAt, ht.barriers, (ht.core c).trans ((State.core_setCore _ c c _).trans (if_pos rfl))]
  exact ⟨rfl, rfl, s.lastArrival_barrierAt c (field w 9 6)⟩

/-! ## SIGNAL (R230, R256) -/

theorem signalDoorbell_issues {s : State} {c : Nat} {w : W64} (h : Issues s c .signalDoorbell w) (hsettled : (s.core c).settled = true)
    (hgather : (s.core c).gather = []) :
    exec (.signalDoorbell c) s = s.inCores (.next ((s.ring (.signal c (s.core c).dispatch (field w 63 32))).setCore c
      (CoreState.passed c (s.core c)))) := by
  refine (congrArg s.inCores (withTile_of_issues _ h)).trans (congrArg (fun t => s.inCores (.next t)) ?_)
  exact (State.afterWrites_settled _ hsettled hgather).trans (State.issue_free (s := s.ring _) [] h.2.1)

theorem signalDoorbell_gives {s : State} {c : Nat} {w : W64} (h : Issues s c .signalDoorbell w) (hsettled : (s.core c).settled = true)
    (hgather : (s.core c).gather = []) :
    Gives (.signalDoorbell c) s (fun t => t.doorbells = s.doorbells ++ [.signal c (s.core c).dispatch (field w 63 32)] ∧
      t.core c = CoreState.passed c (s.core c)) := by
  refine .ofOutputs (signalDoorbell_issues h hsettled hgather) fun t ht => ?_
  rw [ht.doorbells, ht.core]
  exact ⟨rfl, (State.core_setCore _ c c _).trans (if_pos rfl)⟩

/-- An arrival-increment instruction that is no repetition notes, beyond its effect, only the writes that its acknowledgement waits for. -/
theorem State.arriving_core {s : State} {c : Nat} {refs : List Nat} {isArr : Bool} {f : State → State} (hskip : (s.core c).arrSkip = 0)
    (d : Nat) : ((s.arriving c refs isArr f).core d).pc = ((f s).core d).pc ∧
      ((s.arriving c refs isArr f).core d).regs = ((f s).core d).regs := by
  unfold State.arriving
  extract_lets k t
  rw [if_neg (show ¬ (0 < k.arrSkip ∧ k.progress = 0) by simp [k, hskip])]
  split
  · exact ⟨rfl, rfl⟩
  split
  · exact ⟨rfl, rfl⟩
  · rw [State.core_modCore]
    split
    · next hd => exact hd ▸ ⟨rfl, rfl⟩
    · exact ⟨rfl, rfl⟩

/-- An arrival counter that does not saturate. -/
theorem State.arriveInc_adds {s : State} {p i n : Nat} (hi : i < 64) (hn : ((s.core p).reg p (CORE_SPM_ARRIVE i)).toNat + n < 2 ^ 32) :
    s.arriveInc p i n = s.setCreg p (CORE_SPM_ARRIVE i)
      (BitVec.ofNat 32 (((s.core p).reg p (CORE_SPM_ARRIVE i)).toNat + n)) := by
  have hcreg : s.creg p (CORE_SPM_ARRIVE i) = (s.core p).reg p (CORE_SPM_ARRIVE i) := rfl
  unfold State.arriveInc
  rw [Nat.mod_eq_of_lt hi, hcreg]
  refine (if_neg (by omega)).trans (congrArg (s.setCreg p (CORE_SPM_ARRIVE i)) ?_)
  rw [BitVec.ofNat_toNat, BitVec.setWidth_eq, satAdd, if_pos hn]

theorem State.arriveInc_counted {s : State} {p i n : Nat} (hi : i < 64)
    (hn : ((s.core p).reg p (CORE_SPM_ARRIVE i)).toNat + n < 2 ^ 32) :
    (((s.arriveInc p i n).core p).reg p (CORE_SPM_ARRIVE i)).toNat = ((s.core p).reg p (CORE_SPM_ARRIVE i)).toNat + n := by
  rw [State.arriveInc_adds hi hn, State.setCreg, State.core_modCore, if_pos rfl, CoreState.reg_setReg, if_pos rfl, BitVec.toNat_ofNat,
    Nat.mod_eq_of_lt hn]

theorem State.arriveInc_other {s : State} {p i n d : Nat} (hi : i < 64)
    (hn : ((s.core p).reg p (CORE_SPM_ARRIVE i)).toNat + n < 2 ^ 32) (hd : d ≠ p) : (s.arriveInc p i n).core d = s.core d := by
  rw [State.arriveInc_adds hi hn, State.setCreg, State.core_modCore, if_neg hd]

section
variable {s : State} {c p : Nat} {w : W64} (h : Issues s c .signalArrive w) (hsettled : (s.core c).settled = true)
  (hgather : (s.core c).gather = []) (hp : s.physOf (field w 14 8) = some p) (hact : field w 14 8 < s.active)
include h hsettled hgather hp hact

theorem signalArrive_issues : ∃ f : State → State, f s = (s.arriveInc p (field w 20 15) (field w 63 32)).issue c [] ∧
    exec (.signalArrive c) s = s.inCores (.next (s.arriving c [] true f)) := by
  refine ⟨_, ?_, congrArg s.inCores (withTile_of_issues _ h)⟩
  refine (State.afterWrites_settled _ hsettled hgather).trans ?_
  simp only [hp, hact, if_true]

theorem signalArrive_gives (hskip : (s.core c).arrSkip = 0) (hpc : p ≠ c)
    (hn : ((s.core p).reg p (CORE_SPM_ARRIVE (field w 20 15))).toNat + field w 63 32 < 2 ^ 32) :
    Gives (.signalArrive c) s (fun t => (t.core c).pc = (nextPc (s.core c).pc (s.core c).loops).1 ∧
      ((t.core p).reg p (CORE_SPM_ARRIVE (field w 20 15))).toNat =
        ((s.core p).reg p (CORE_SPM_ARRIVE (field w 20 15))).toNat + field w 63 32) := by
  obtain ⟨f, hf, hexec⟩ := signalArrive_issues h hsettled hgather hp hact
  have hi : field w 20 15 < 64 := Nat.mod_lt _ (by decide)
  have hc : (s.arriveInc p (field w 20 15) (field w 63 32)).core c = s.core c := State.arriveInc_other hi hn hpc.symm
  rw [State.issue_free [] (by rw [hc]; exact h.2.1), hc] at hf
  refine .ofOutputs hexec fun t ht => ?_
  rw [ht.core, ht.core, (State.arriving_core hskip c).1, CoreState.reg_of_regs (State.arriving_core hskip p).2, hf, State.core_setCore,
    State.core_setCore, if_pos rfl, if_neg hpc]
  exact ⟨rfl, State.arriveInc_counted hi hn⟩
end

/-- The request of a SIGNAL with a ticket: a TSET that names the list by its header (log 19). -/
def State.doneRequest (s : State) (c l tr : Nat) : AtomReq :=
  ⟨bitsOf ((s.core c).wl c l) 47 0, .tset, false, false, ((s.core c).reg c (CORE_SEQ_TR tr)).toNat, 0, .core c (s.core c).nextOut, s.now⟩

/-- A core with one more atomic outstanding, on its way to a unit of this device. -/
def CoreState.sending (k : CoreState) : CoreState :=
  { k with nextOut := k.nextOut + 1, outst := k.outst ++ [{ id := k.nextOut, atomic := true, remote := false, done := false }] }

section
variable {s : State} {c : Nat} {w : W64} (h : Issues s c .signalTicket w) (hfree : (s.core c).ticketMsg = none)
  (hvalid : bitsOf ((s.core c).wl c (field w 28 21)) 63 63 = 1) (hlocal : bitsOf ((s.core c).wl c (field w 28 21)) 62 62 = 0)
  (hsettled : (s.core c).settled = true) (hgather : (s.core c).gather = [])
include h hfree hvalid hlocal hsettled hgather

theorem signalTicket_issues : exec (.signalTicket c) s = s.inCores (.next (((s.setCore c (s.core c).sending).sendAtom
    (s.doneRequest c (field w 28 21) (field w 30 29))).setCore c (CoreState.passed c (s.core c).sending))) := by
  refine (congrArg s.inCores (withTile_of_issues _ h)).trans (congrArg (fun t => s.inCores (.next t)) ?_)
  simp only [hfree]
  refine (if_neg (by omega)).trans ((State.afterWrites_settled _ hsettled hgather).trans ((if_neg (by omega)).trans ?_))
  have hsent : ((s.setCore c (s.core c).sending).sendAtom (s.doneRequest c (field w 28 21) (field w 30 29))).core c =
      (s.core c).sending := (State.core_setCore s c c _).trans (if_pos rfl)
  have hissue := State.issue_free (s := (s.setCore c (s.core c).sending).sendAtom (s.doneRequest c (field w 28 21) (field w 30 29))) []
    (by rw [hsent]; exact h.2.1)
  rw [hsent] at hissue
  exact hissue

theorem signalTicket_gives : Gives (.signalTicket c) s (fun t => (t.core c).pc = (nextPc (s.core c).pc (s.core c).loops).1 ∧
    (t.core c).outst = [⟨(s.core c).nextOut, true, false, false⟩] ∧
    t.atoms = s.withAtom (s.doneRequest c (field w 28 21) (field w 30 29))) := by
  have houtst : (s.core c).outst = [] := by
    simp only [CoreState.settled, Bool.and_eq_true, List.isEmpty_iff] at hsettled
    exact hsettled.2
  refine .ofOutputs (signalTicket_issues h hfree hvalid hlocal hsettled hgather) fun t ht => ?_
  rw [ht.atoms, (ht.core c).trans ((State.core_setCore _ c c _).trans (if_pos rfl))]
  refine ⟨rfl, ?_, rfl⟩
  show (s.core c).outst ++ [⟨(s.core c).nextOut, true, false, false⟩] = _
  rw [houtst, List.nil_append]
end

/-- Settles O9: each clause by the lemma of its command. -/
theorem synchronisationInstructions : Obligations.SynchronisationInstructions := by
  intro s c w
  refine ⟨claim_gives, fun l tr old rest => claimTicket_gives, barrier_gives, signalDoorbell_gives, ?_, signalTicket_gives⟩
  exact fun p h hsettled hgather hskip hp hpc hact hn => signalArrive_gives h hsettled hgather hp hact hskip hpc hn

end Sys2Proof.Machine
end

section
/-!
What SETP, SGSEED, LOOP, BR and WAITC leave as it was: the proof of O56 (R210, R227, R231, R232, R234).
-/

namespace Sys2Proof.Machine

/-- The memories of a core, its accumulators, page table, program and handle table. -/
def CoreState.memories (c : Nat) (k : CoreState) :=
  (k.am, k.pm, k.wm, k.acm, k.pages, k.amErr, k.pmErr, k.wmErr, k.acmErr, k.imem, k.handle c)

/-- A register below the handle table is no part of a handle. -/
theorem CoreState.handle_setReg (c : Nat) (k : CoreState) {off : Nat} (v : W32) (h : off < CORE_HT 0) :
    (k.setReg c off v).handle c = k.handle c := by
  funext n
  have hreg (j : Nat) : (k.setReg c off v).reg c (CORE_HT j) = k.reg c (CORE_HT j) :=
    (CoreState.reg_setReg _ _ _ _ _).trans (if_neg (by simp only [CORE_HT] at *; omega))
  have htable : (k.setReg c off v).tableHandle c n = k.tableHandle c n := by simp only [CoreState.tableHandle, hreg]
  rw [CoreState.handle, htable]
  rfl

theorem CoreState.memories_setReg (c : Nat) (k : CoreState) {off : Nat} (v : W32) (h : off < CORE_HT 0) :
    (k.setReg c off v).memories c = k.memories c := by
  simp only [CoreState.memories, CoreState.handle_setReg c k v h]
  rfl

theorem CoreState.memories_issued (c : Nat) (k : CoreState) : (k.issued c).memories c = k.memories c := by
  have hcount : (k.bump64 c CORE_SEQ_ISSUE_LO 1).memories c = k.memories c := by
    rw [CoreState.bump64, CoreState.memories_setReg _ _ _ (by decide), CoreState.memories_setReg _ _ _ (by decide)]
  exact hcount

/-- The loop levels and the address that the sequencer arrives at are in no memory. -/
theorem CoreState.memories_arrive (c : Nat) (k : CoreState) (ls : List LoopLevel) (pc : Nat) :
    (CoreState.arrive c { k with loops := ls } pc).memories c = k.memories c := rfl

theorem CoreState.memories_goOn (c : Nat) (k : CoreState) : (k.goOn c).memories c = k.memories c := rfl

theorem CoreState.memories_advance (c : Nat) (k : CoreState) : (k.advance c).memories c = k.memories c := by
  unfold CoreState.advance
  split
  · exact CoreState.memories_issued c _
  · exact (CoreState.memories_goOn c _).trans (CoreState.memories_issued c _)
  · exact (CoreState.memories_goOn c _).trans (CoreState.memories_issued c k)

theorem CoreState.memories_stall (c : Nat) (k : CoreState) (cause : Nat) {ctr : Option Nat} (h : ∀ r ∈ ctr, r < CORE_HT 0) :
    (k.stall c cause ctr).memories c = k.memories c := by
  cases ctr with
  | none => rfl
  | some r => exact CoreState.memories_setReg c k _ (h r rfl)

/-- A test of EXIT clears it and no memory. -/
theorem CoreState.memories_tested (c : Nat) (k : CoreState) (p : Prop) [Decidable p] :
    (if p then { k.issued c with exitC := false } else k.issued c).memories c = k.memories c := by
  split <;> exact CoreState.memories_issued c k

/-- A state whose core `c` has the memories that it has in `s`. -/
def State.KeepsMemories (c : Nat) (s t : State) : Prop := (t.core c).memories c = (s.core c).memories c

theorem State.KeepsMemories.refl (c : Nat) (s : State) : KeepsMemories c s s := rfl

theorem State.KeepsMemories.trans {c : Nat} {s t u : State} (h : KeepsMemories c s t) (h' : KeepsMemories c t u) : KeepsMemories c s u :=
  Eq.trans h' h

theorem State.KeepsMemories.ite {c : Nat} {s t u : State} {p : Prop} [Decidable p] (ht : KeepsMemories c s t) (hu : KeepsMemories c s u) :
    KeepsMemories c s (if p then t else u) := by
  split
  · exact ht
  · exact hu

theorem State.KeepsMemories.setCore {c : Nat} {s : State} {k : CoreState} (h : k.memories c = (s.core c).memories c) :
    KeepsMemories c s (s.setCore c k) := by
  rwa [KeepsMemories, State.core_setCore, if_pos rfl]

theorem State.KeepsMemories.issue (c : Nat) (s : State) : KeepsMemories c s (s.issue c []) :=
  .setCore (CoreState.memories_advance c _)

/-- A change of other parts of the core, and the issue. -/
theorem State.KeepsMemories.setCore_issue {c : Nat} {s : State} {k : CoreState} (h : k.memories c = (s.core c).memories c) :
    KeepsMemories c s ((s.setCore c k).issue c []) :=
  (setCore h).trans (.issue c _)

theorem State.KeepsMemories.stall (c : Nat) (s : State) (cause : Nat) {ctr : Option Nat} (h : ∀ r ∈ ctr, r < CORE_HT 0) :
    KeepsMemories c s (s.stall c cause ctr) :=
  .setCore (CoreState.memories_stall c _ cause h)

theorem State.KeepsMemories.tileFault (c : Nat) (s : State) (st info : Nat) : KeepsMemories c s (s.tileFault c st info) := by
  rw [State.tileFault]
  by_cases h : (s.core c).fault = none ∧ (s.core c).loaded = true
  · rw [KeepsMemories, (State.tileFaultAt_logged _ st info h.1 h.2).core c, State.core_setCore, if_pos rfl]
    rfl
  · rw [State.tileFaultAt, if_pos (by rw [Option.isSome_iff_ne_none]; tauto)]
    exact .refl c s

theorem State.KeepsMemories.wordFault (c : Nat) (s : State) : KeepsMemories c s (s.wordFault c) := by
  rw [KeepsMemories, State.wordFault, State.fenceRequest_core]
  exact KeepsMemories.tileFault c s _ _

theorem withTile_next (kind : TileKind) (c : Nat) (s : State) (f : W64 → State) : ∃ t, withTile kind c s f = .next t := by
  unfold withTile
  extract_lets k w
  split_ifs <;> exact ⟨_, rfl⟩

/-- The frame of a tile instruction keeps the memories where the instruction's own effect does. -/
theorem withTile_keepsMemories {kind : TileKind} {c : Nat} {s t : State} {f : W64 → State} (hf : ∀ w, State.KeepsMemories c s (f w))
    (h : withTile kind c s f = .next t) : State.KeepsMemories c s t := by
  obtain rfl | ⟨-, rfl | rfl | rfl | ⟨-, -, -, rfl⟩⟩ := withTile_inv h
  · exact .refl c _
  · exact .wordFault c s
  · exact .tileFault c s _ _
  · exact .tileFault c s _ _
  · split
    · exact .setCore rfl
    split
    · exact .wordFault c s
    · exact hf _

/-- An instruction of one core whose effect keeps the memories of that core: device memory, host memory and the other cores stay too. -/
theorem inCore_withTile_leaves {kind : TileKind} {c : Nat} {s t : State} {f : W64 → State}
    (h : s.inCore c (withTile kind c s f) = .next t) (hf : ∀ w, State.KeepsMemories c s (f w)) :
    State.KeepsMemories c s t ∧ t.dmem = s.dmem ∧ t.hmem = s.hmem ∧ ∀ d, d ≠ c → t.core d = s.core d := by
  obtain ⟨u, hu⟩ := withTile_next kind c s f
  rw [hu, State.inCore_next] at h
  cases h
  refine ⟨?_, rfl, rfl, fun d hd => (State.sameOthers_core s u c d).trans (if_neg hd)⟩
  exact (withTile_keepsMemories hf hu).trans (congrArg (CoreState.memories c) ((State.sameOthers_core s u c c).trans (if_pos rfl)))

/-- Settles O56: each instruction by its outcomes, a fault, a wait or the issue. -/
theorem sequencingLeavesMemories : Obligations.SequencingLeavesMemories := by
  intro i c s t hi h
  suffices hkeep : State.KeepsMemories c s t ∧ t.dmem = s.dmem ∧ t.hmem = s.hmem ∧ ∀ d, d ≠ c → t.core d = s.core d by
    obtain ⟨hcore, hdmem, hhmem, hothers⟩ := hkeep
    simp only [State.KeepsMemories, CoreState.memories, Prod.mk.injEq] at hcore
    obtain ⟨ham, hpm, hwm, hacm, hpages, hamErr, hpmErr, hwmErr, hacmErr, himem, hhandle⟩ := hcore
    exact ⟨ham, hpm, hwm, hacm, hpages, hamErr, hpmErr, hwmErr, hacmErr, himem, fun n _ => congrFun hhandle n, hdmem, hhmem, hothers⟩
  unfold sequencing at hi
  split at hi
  case h_9 => cases hi
  all_goals
    cases hi
    refine inCore_withTile_leaves h fun w => ?_
  case h_1 => exact .ite (.tileFault c s _ _) (.ite (.stall c s _ (by decide)) (.setCore_issue rfl))
  case h_2 | h_3 | h_4 => exact .setCore_issue rfl
  case h_5 =>
    have hg : field w 9 6 < 16 := Nat.mod_lt _ (by decide)
    exact .ite (.stall c s _ (by decide)) (.setCore_issue (CoreState.memories_setReg c _ _ (by simp only [CORE_SG_STATE, CORE_HT]; omega)))
  case h_6 =>
    have hmoved (ls : List LoopLevel) (pc : Nat) :
        (CoreState.arrive c { (s.core c).issued c with loops := ls } pc).memories c = (s.core c).memories c :=
      (CoreState.memories_arrive c _ ls pc).trans (CoreState.memories_issued c _)
    exact .ite (.tileFault c s _ _) (.ite (.setCore (hmoved _ _)) (.setCore (hmoved _ _)))
  case h_7 =>
    have htested := CoreState.memories_tested c (s.core c) (field w 9 6 = 1 ∨ field w 9 6 = 2)
    exact .ite (.stall c s _ (by decide)) (.ite (.setCore ((CoreState.memories_arrive c _ _ _).trans htested))
      (.setCore ((CoreState.memories_goOn c _).trans htested)))
  case h_8 =>
    have hi : field w 11 6 < 64 := Nat.mod_lt _ (by decide)
    refine .ite (.stall c s _ (by decide)) (.trans (.ite (.setCore ?_) (.refl c s)) (.issue c _))
    exact CoreState.memories_setReg c _ _ (by simp only [CORE_SPM_ARRIVE, CORE_HT]; omega)

end Sys2Proof.Machine
end

section
/-!
SUPPORT of the proofs. What the frames around a meaning let through, and what counts in the violation counters.
-/

namespace Sys2Proof.Machine

/-! ## Through the frames -/

/-- `t` is `u` in the parts that no frame of Ops.lean holds back, but for the cores. -/
structure Unframed (u t : State) : Prop where
  regs : t.regs = u.regs
  now : t.now = u.now
  readData : t.readData = u.readData
  fetched : t.fetched = u.fetched
  deferNo : t.deferNo = u.deferNo
  posting : t.posting = u.posting
  pend : t.pend = u.pend
  phase : t.phase = u.phase
  unsig : t.unsig = u.unsig
  vecReq : t.vecReq = u.vecReq
  msixOut : t.msixOut = u.msixOut
  cmds : t.cmds = u.cmds
  rings : t.rings = u.rings
  driveCmds : t.driveCmds = u.driveCmds
  badWords : t.badWords = u.badWords
  inbox : t.inbox = u.inbox
  egress : t.egress = u.egress
  remoteReqs : t.remoteReqs = u.remoteReqs
  atoms : t.atoms = u.atoms
  atomResps : t.atomResps = u.atomResps
  meshOut : t.meshOut = u.meshOut

section
variable {s u t : State} {i : Instr} {P : State → Prop}

theorem Unframed.reg (h : Unframed u t) (a : Nat) : t.reg a = u.reg a := State.reg_of_regs h.regs a

theorem Unframed.fld (h : Unframed u t) (a hi lo : Nat) : t.fld a hi lo = u.fld a hi lo := State.fld_of_reg (h.reg a) hi lo

theorem Unframed.pair (h : Unframed u t) (lo hi : Nat) : t.pair lo hi = u.pair lo hi := by
  rw [State.pair, State.pair, h.reg, h.reg]

theorem Unframed.trans {v : State} (h : Unframed u t) (k : Unframed t v) : Unframed u v where
  regs := k.regs.trans h.regs
  now := k.now.trans h.now
  readData := k.readData.trans h.readData
  fetched := k.fetched.trans h.fetched
  deferNo := k.deferNo.trans h.deferNo
  posting := k.posting.trans h.posting
  pend := k.pend.trans h.pend
  phase := k.phase.trans h.phase
  unsig := k.unsig.trans h.unsig
  vecReq := k.vecReq.trans h.vecReq
  msixOut := k.msixOut.trans h.msixOut
  cmds := k.cmds.trans h.cmds
  rings := k.rings.trans h.rings
  driveCmds := k.driveCmds.trans h.driveCmds
  badWords := k.badWords.trans h.badWords
  inbox := k.inbox.trans h.inbox
  egress := k.egress.trans h.egress
  remoteReqs := k.remoteReqs.trans h.remoteReqs
  atoms := k.atoms.trans h.atoms
  atomResps := k.atomResps.trans h.atomResps
  meshOut := k.meshOut.trans h.meshOut

theorem Unframed.sameRings (s u : State) : Unframed u (s.sameRings u) := by constructor <;> rfl
theorem Unframed.samePins (s u : State) : Unframed u (s.samePins u) := by constructor <;> rfl
theorem Unframed.sameSecure (s u : State) : Unframed u (s.sameSecure u) := by constructor <;> rfl
theorem Unframed.sameFabric (s u : State) : Unframed u (s.sameFabric u) := by constructor <;> rfl
theorem Unframed.samePower (s u : State) : Unframed u (s.samePower u) := by constructor <;> rfl
theorem Unframed.sameMem (s u : State) : Unframed u (s.sameMem u) := by constructor <;> rfl
theorem Unframed.sameCores (s u : State) : Unframed u (s.sameCores u) := by constructor <;> rfl

theorem Unframed.inEdge (s u : State) : Unframed u (s.sameFabric (s.samePower (s.sameMem (s.sameCores u)))) :=
  .trans (.trans (.trans (.sameCores _ _) (.sameMem _ _)) (.samePower _ _)) (.sameFabric _ _)

theorem Unframed.keepEdge (s u : State) : Unframed u (s.sameRings (s.samePins (s.sameSecure u))) :=
  .trans (.trans (.sameSecure _ _) (.samePins _ _)) (.sameRings _ _)

theorem Gives.ofInRegs (h : exec i s = s.inRegs (.next u)) (hp : ∀ t, Unframed u t → P t) : Gives i s P :=
  ⟨_, h.trans (State.inRegs_next s u), hp _ (.trans (.inEdge s u) (.keepEdge s _))⟩

theorem Gives.ofInCores (h : exec i s = s.inCores (.next u)) (hp : ∀ t, Unframed u t → t.dmem = s.dmem → P t) : Gives i s P :=
  ⟨_, h.trans (State.inCores_next s u),
    hp _ (.trans (.trans (.trans (.sameMem s u) (.samePower s _)) (.sameFabric s _)) (.keepEdge s _)) rfl⟩

end

/-! ## Violations -/

/-- The counters of the violations in another state with the same registers of the counters. -/
theorem Counted.after {s t u : State} {c : Nat} (h : Counted s t c)
    (hu : u.pair (RAS_VIOL_LO c) (RAS_VIOL_HI c) = t.pair (RAS_VIOL_LO c) (RAS_VIOL_HI c)) : Counted s u c := hu.trans h

theorem Counted.before {s t u : State} {c : Nat} (h : Counted t u c)
    (ht : t.pair (RAS_VIOL_LO c) (RAS_VIOL_HI c) = s.pair (RAS_VIOL_LO c) (RAS_VIOL_HI c)) : Counted s u c := by
  rw [Counted, ← ht]
  exact h

/-- The registers outside the block RAS are no violation counters. -/
theorem State.pair_setReg_apart (s : State) {a : Nat} (v : W32) {c : Nat} (ha : a < 0x500000 ∨ 0x600000 ≤ a) (hc : c < 16) :
    (s.setReg a v).pair (RAS_VIOL_LO c) (RAS_VIOL_HI c) = s.pair (RAS_VIOL_LO c) (RAS_VIOL_HI c) := by
  have hl : RAS_VIOL_LO c ≠ a := by simp only [RAS_VIOL_LO]; omega
  have hh : RAS_VIOL_HI c ≠ a := by simp only [RAS_VIOL_HI]; omega
  simp only [State.pair, State.reg_setReg, if_neg hl, if_neg hh]

theorem State.logEvent_pair (s : State) (ev st src : Nat) (info : W64) {c : Nat} (hc : c < 16) :
    (s.logEvent ev st src info).pair (RAS_VIOL_LO c) (RAS_VIOL_HI c) = s.pair (RAS_VIOL_LO c) (RAS_VIOL_HI c) := by
  obtain ⟨l1, l2, l3⟩ := violPair_apart hc (.inl rfl)
  obtain ⟨h1, h2, h3⟩ := violPair_apart hc (.inr rfl)
  simp only [State.pair, State.logEvent_reg s ev st src info l1 l2 l3, State.logEvent_reg s ev st src info h1 h2 h3]

/-- A violation leaves the registers outside the block RAS but CMDQ_EVT. -/
theorem State.violation_reg_apart (s : State) {cls : Nat} (src : Nat) (hc : cls < 16) {a : Nat} (ha : a < 0x500000 ∨ 0x600000 ≤ a)
    (he : a ≠ CMDQ_EVT) : (s.violation cls src).reg a = s.reg a :=
  State.violation_reg s cls src (by simp only [RAS_VIOL_LO]; omega) (by simp only [RAS_VIOL_HI]; omega) (by simp only [RAS_LOG_SEQ]; omega)
    (by simp only [RAS_LOG_HEAD]; omega) he

theorem State.logEvent_reg_apart (s : State) (ev st src : Nat) (info : W64) {a : Nat} (ha : a < 0x500000 ∨ 0x600000 ≤ a)
    (he : a ≠ CMDQ_EVT) : (s.logEvent ev st src info).reg a = s.reg a :=
  State.logEvent_reg s ev st src info (by simp only [RAS_LOG_SEQ]; omega) (by simp only [RAS_LOG_HEAD]; omega) he

end Sys2Proof.Machine
end

section
/-!
Doorbells and the states of a queue (R263, R264, R267, R274), and the proof of O26.
-/

namespace Sys2Proof.Machine

/-! ## Doorbells -/

theorem State.doorbellIgnored_reg (s : State) (q a : Nat) {b : Nat} (hb : b < 0x500000 ∨ 0x600000 ≤ b) (he : b ≠ CMDQ_EVT) :
    (s.doorbellIgnored q a).reg b = s.reg b :=
  (State.logEvent_reg_apart _ _ _ _ _ hb he).trans (State.violation_reg_apart s _ (by decide) hb he)

theorem State.doorbellIgnored_counted (s : State) (q a : Nat) : Counted s (s.doorbellIgnored q a) 4 :=
  (State.violation_counted s _ (by decide)).after (State.logEvent_pair _ _ _ _ _ (by decide))

section
variable {s : State} {a : Agent} {q : Nat} {v u : W32}

theorem cmdqSqdbWrite_eq (hq : q < 64) (hw : Writes s a (CMDQ_SQDB q) v u) : exec (.cmdqSqdbWrite a q v) s = s.inRegs (.next
    (if s.qState q = qActive ∧ ¬ s.qRemote q ∧ s.sqAccepts q u.toNat then s.setReg (CMDQ_SQDB q) u
      else s.doorbellIgnored q (CMDQ_SQDB q))) := by
  show execCmdqSqdbWrite a q v s = _
  rw [execCmdqSqdbWrite, if_pos hq, State.writeSqdb, State.regWrite_of_writes _ hw]

theorem cmdqCqdbWrite_eq (hq : q < 64) (hw : Writes s a (CMDQ_CQDB q) v u) : exec (.cmdqCqdbWrite a q v) s = s.inRegs (.next
    (if s.qState q = qActive ∧ s.cqAccepts q u.toNat then s.setReg (CMDQ_CQDB q) u else s.doorbellIgnored q (CMDQ_CQDB q))) := by
  show execCmdqCqdbWrite a q v s = _
  rw [execCmdqCqdbWrite, if_pos hq, State.writeCqdb, State.regWrite_of_writes _ hw]

/-- A doorbell register is no register that the record of an ignored write touches. -/
theorem doorbell_apart (hq : q < 64) : (CMDQ_SQDB q < 0x500000 ∧ CMDQ_SQDB q ≠ CMDQ_EVT) ∧ (CMDQ_CQDB q < 0x500000 ∧ CMDQ_CQDB q ≠ CMDQ_EVT) := by
  simp only [CMDQ_SQDB, CMDQ_CQDB, CMDQ_EVT]
  omega

/-- A doorbell write that is ignored. -/
theorem Gives.ignoredDoorbell {i : Instr} {r : Nat} (h : exec i s = s.inRegs (.next (s.doorbellIgnored q r)))
    (hr : r < 0x500000 ∧ r ≠ CMDQ_EVT) : Gives i s (fun t => t.reg r = s.reg r ∧ Counted s t 4) :=
  .ofInRegs h fun _ ht => ⟨(ht.reg _).trans (s.doorbellIgnored_reg q r (.inl hr.1) hr.2),
    (s.doorbellIgnored_counted q r).after (ht.pair _ _)⟩

theorem cmdqSqdbWrite_accepted (hq : q < 64) (hw : Writes s a (CMDQ_SQDB q) v u) (hact : s.qState q = qActive)
    (hloc : s.qRemote q = false) (hacc : s.sqAccepts q u.toNat = true) :
    exec (.cmdqSqdbWrite a q v) s = .next (s.setReg (CMDQ_SQDB q) u) := by
  rw [cmdqSqdbWrite_eq hq hw, if_pos ⟨hact, by rw [hloc]; decide, hacc⟩]
  rfl

theorem cmdqSqdbWrite_ignored (hq : q < 64) (hw : Writes s a (CMDQ_SQDB q) v u)
    (hbad : s.qState q ≠ qActive ∨ s.qRemote q = true ∨ s.sqAccepts q u.toNat = false) :
    Gives (.cmdqSqdbWrite a q v) s (fun t => t.reg (CMDQ_SQDB q) = s.reg (CMDQ_SQDB q) ∧ Counted s t 4) := by
  have hnot : ¬ (s.qState q = qActive ∧ ¬ s.qRemote q ∧ s.sqAccepts q u.toNat) := by
    rintro ⟨hact, hloc, hacc⟩
    rcases hbad with h | h | h
    · exact h hact
    · exact hloc h
    · rw [hacc] at h
      exact nomatch h
  have heq := cmdqSqdbWrite_eq hq hw
  rw [if_neg hnot] at heq
  exact .ignoredDoorbell heq (doorbell_apart hq).1

theorem cmdqCqdbWrite_accepted (hq : q < 64) (hw : Writes s a (CMDQ_CQDB q) v u) (hact : s.qState q = qActive)
    (hacc : s.cqAccepts q u.toNat = true) : exec (.cmdqCqdbWrite a q v) s = .next (s.setReg (CMDQ_CQDB q) u) := by
  rw [cmdqCqdbWrite_eq hq hw, if_pos ⟨hact, hacc⟩]
  rfl

theorem cmdqCqdbWrite_ignored (hq : q < 64) (hw : Writes s a (CMDQ_CQDB q) v u)
    (hbad : s.qState q ≠ qActive ∨ s.cqAccepts q u.toNat = false) :
    Gives (.cmdqCqdbWrite a q v) s (fun t => t.reg (CMDQ_CQDB q) = s.reg (CMDQ_CQDB q) ∧ Counted s t 4) := by
  have hnot : ¬ (s.qState q = qActive ∧ s.cqAccepts q u.toNat) := by
    rintro ⟨hact, hacc⟩
    rcases hbad with h | h
    · exact h hact
    · rw [hacc] at h
      exact nomatch h
  have heq := cmdqCqdbWrite_eq hq hw
  rw [if_neg hnot] at heq
  exact .ignoredDoorbell heq (doorbell_apart hq).2

/-! ## States of a queue -/

theorem State.qState_setQ (s : State) (q st cause : Nat) : (s.setQ q st cause).qState q = st % 4 := by
  exact (State.fld_setFld_other _ _ (by decide) (by decide) (.inr (.inr (by decide)))).trans
    (State.fld_setFld_same _ _ _ (by decide) (by decide))

theorem State.cause_setQ (s : State) (q st cause : Nat) : (s.setQ q st cause).fld (CMDQ_Q_STAT q) 29 27 = cause % 8 :=
  State.fld_setFld_same _ _ _ (by decide) (by decide)

theorem State.reg_setQ (s : State) (q st cause : Nat) {b : Nat} (h : b ≠ CMDQ_Q_STAT q) : (s.setQ q st cause).reg b = s.reg b := by
  rw [State.setQ, State.reg_setFld_other _ _ _ _ h, State.reg_setFld_other _ _ _ _ h]

/-- The registers of one queue are different ones. -/
theorem queueRegs_apart (hq : q < 64) : CMDQ_SQDB q ≠ CMDQ_CQDB q ∧ CMDQ_SQDB q < CMDQ_Q_CFG q ∧ CMDQ_CQDB q < CMDQ_Q_CFG q ∧
    CMDQ_Q_CFG q < CMDQ_Q_STAT q ∧ CMDQ_Q_STAT q < CMDQ_Q_PTR q := by
  simp only [CMDQ_Q_CFG, CMDQ_Q_STAT, CMDQ_Q_PTR, CMDQ_SQDB, CMDQ_CQDB]
  omega

theorem queueCfg_ne_stat (q : Nat) : CMDQ_Q_CFG q ≠ CMDQ_Q_STAT q := by
  simp only [CMDQ_Q_CFG, CMDQ_Q_STAT]
  omega

theorem State.reg_activate (s : State) (q b : Nat) : (s.activate q).reg b =
    ((((s.setQ q qActive 0).setReg (CMDQ_SQDB q) 0).setReg (CMDQ_CQDB q) 0).setReg (CMDQ_Q_PTR q) 0).reg b := by
  have hregs : (s.activate q).regs =
      ((((s.setQ q qActive 0).setReg (CMDQ_SQDB q) 0).setReg (CMDQ_CQDB q) 0).setReg (CMDQ_Q_PTR q) 0).regs := rfl
  exact State.reg_of_regs hregs b

/-- A queue that is made ACTIVE. -/
theorem State.activate_active (s : State) (hq : q < 64) : (s.activate q).qState q = qActive ∧
    (s.activate q).reg (CMDQ_Q_CFG q) = s.reg (CMDQ_Q_CFG q) ∧ (s.activate q).sqTail q = 0 ∧ (s.activate q).sqHead q = 0 ∧
    (s.activate q).cqHead q = 0 ∧ (s.activate q).cqTail q = 0 ∧ Tab.get (fun _ => true) (s.activate q).phase q = true := by
  obtain ⟨hbell, hsq, hcq, hcfg, hstat⟩ := queueRegs_apart hq
  have hstays {b : Nat} (h1 : CMDQ_Q_CFG q ≤ b) (h2 : b < CMDQ_Q_PTR q) : (s.activate q).reg b = (s.setQ q qActive 0).reg b := by
    rw [State.reg_activate, State.reg_setReg, if_neg (by omega), State.reg_setReg, if_neg (by omega), State.reg_setReg, if_neg (by omega)]
  have hptr : (s.activate q).reg (CMDQ_Q_PTR q) = 0 := by rw [State.reg_activate, State.reg_setReg, if_pos rfl]
  have hcqdb : (s.activate q).reg (CMDQ_CQDB q) = 0 := by
    rw [State.reg_activate, State.reg_setReg, if_neg (by omega), State.reg_setReg, if_pos rfl]
  have hsqdb : (s.activate q).reg (CMDQ_SQDB q) = 0 := by
    rw [State.reg_activate, State.reg_setReg, if_neg (by omega), State.reg_setReg, if_neg hbell, State.reg_setReg, if_pos rfl]
  refine ⟨?_, ?_, ?_, ?_, ?_, ?_, Tab.get_set_same _ _ _ _⟩
  · exact (State.fld_of_reg (hstays hcfg.le hstat) 31 30).trans (State.qState_setQ s q qActive 0)
  · rw [hstays le_rfl (hcfg.trans hstat), State.reg_setQ _ _ _ _ hcfg.ne]
  · rw [State.sqTail, State.fld, hsqdb]; decide
  · rw [State.sqHead, State.fld, hptr]; decide
  · rw [State.cqHead, State.fld, hcqdb]; decide
  · rw [State.cqTail, State.fld, hptr]; decide

/-- A write of CMDQ_Q_CFG with ENABLE 1 on a DISABLED queue. -/
theorem queueEnable_eq (hq : q < 64) (hw : Writes s a (CMDQ_Q_CFG q) (v ||| BitVec.twoPow 32 31) u) (hon : u.getLsbD 31 = true)
    (hdis : s.qState q = qDisabled) : exec (.queueEnable a q v) s = s.inRegs (.next
      (if (s.setReg (CMDQ_Q_CFG q) u).qValid q then (s.setReg (CMDQ_Q_CFG q) u).activate q
        else ((s.setReg (CMDQ_Q_CFG q) u).setFld (CMDQ_Q_CFG q) 31 31 0).setQ q qDisabled 4)) := by
  show execQueueEnable a q v s = _
  rw [execQueueEnable, if_pos hq, State.writeQCfg, State.regWrite_of_writes _ hw, if_pos hdis, hon, Bool.not_true,
    if_neg Bool.false_ne_true]

theorem queueEnable_activates (hq : q < 64) (hw : Writes s a (CMDQ_Q_CFG q) (v ||| BitVec.twoPow 32 31) u)
    (hon : u.getLsbD 31 = true) (hdis : s.qState q = qDisabled) (hvalid : (s.setReg (CMDQ_Q_CFG q) u).qValid q = true) :
    Gives (.queueEnable a q v) s (fun t => t.qState q = qActive ∧ t.reg (CMDQ_Q_CFG q) = u ∧ t.sqTail q = 0 ∧ t.sqHead q = 0 ∧
      t.cqHead q = 0 ∧ t.cqTail q = 0 ∧ Tab.get (fun _ => true) t.phase q = true) := by
  obtain ⟨hst, hcfg, hst', hsh, hch, hct, hph⟩ := (s.setReg (CMDQ_Q_CFG q) u).activate_active hq
  have heq := queueEnable_eq hq hw hon hdis
  rw [if_pos hvalid] at heq
  refine .ofInRegs heq fun t ht => ⟨(ht.fld _ _ _).trans hst, (ht.reg _).trans (hcfg.trans ?_), (ht.fld _ _ _).trans hst',
    (ht.fld _ _ _).trans hsh, (ht.fld _ _ _).trans hch, (ht.fld _ _ _).trans hct, by rw [ht.phase]; exact hph⟩
  rw [State.reg_setReg, if_pos rfl]

/-- ENABLE reads 0 where it is written 0. -/
theorem State.enable_off (s : State) (q : Nat) : ((s.setFld (CMDQ_Q_CFG q) 31 31 0).reg (CMDQ_Q_CFG q)).getLsbD 31 = false := by
  rw [State.reg_setFld, if_pos rfl]
  show (setField _ 31 31 0).toNat.testBit 31 = false
  rw [testBit_setField _ _ (by decide) (by decide), if_pos (by decide)]
  rfl

theorem queueEnable_refused (hq : q < 64) (hw : Writes s a (CMDQ_Q_CFG q) (v ||| BitVec.twoPow 32 31) u)
    (hon : u.getLsbD 31 = true) (hdis : s.qState q = qDisabled) (hbad : (s.setReg (CMDQ_Q_CFG q) u).qValid q = false) :
    Gives (.queueEnable a q v) s (fun t => t.qState q = qDisabled ∧ t.fld (CMDQ_Q_STAT q) 29 27 = 4 ∧
      (t.reg (CMDQ_Q_CFG q)).getLsbD 31 = false) := by
  have heq := queueEnable_eq hq hw hon hdis
  rw [if_neg (by rw [hbad]; decide)] at heq
  refine .ofInRegs heq fun t ht => ⟨(ht.fld _ _ _).trans (State.qState_setQ _ _ _ _), (ht.fld _ _ _).trans (State.cause_setQ _ _ _ _), ?_⟩
  rw [ht.reg, State.reg_setQ _ _ _ _ (queueCfg_ne_stat q)]
  exact State.enable_off _ q

/-- A written word keeps no bit that it had cleared before its mask. -/
theorem Writes.disabled (hw : Writes s a (CMDQ_Q_CFG q) (v &&& ~~~ BitVec.twoPow 32 31) u) : u.getLsbD 31 = false := by
  obtain ⟨r, -, -, rfl⟩ := hw
  simp

theorem queueDisable_drains (hq : q < 64) (hw : Writes s a (CMDQ_Q_CFG q) (v &&& ~~~ BitVec.twoPow 32 31) u)
    (hact : s.qState q = qActive) (hsame : u.setWidth 31 = (s.reg (CMDQ_Q_CFG q)).setWidth 31) :
    Gives (.queueDisable a q v) s (fun t => t.qState q = qDraining ∧ t.reg (CMDQ_Q_CFG q) = u ∧
      t.reg (CMDQ_Q_PTR q) = s.reg (CMDQ_Q_PTR q) ∧ t.fetched = s.fetched) := by
  obtain ⟨-, -, -, hcfg, hstat⟩ := queueRegs_apart hq
  have hstay : (s.setReg (CMDQ_Q_CFG q) u).qState q = qActive :=
    (State.fld_of_reg (by rw [State.reg_setReg, if_neg hcfg.ne']) 31 30).trans hact
  have heq : exec (.queueDisable a q v) s =
      s.inRegs (.next ((s.setReg (CMDQ_Q_CFG q) u).setFld (CMDQ_Q_STAT q) 31 30 qDraining)) := by
    show execQueueDisable a q v s = _
    rw [execQueueDisable, if_pos hq, State.writeQCfg, State.regWrite_of_writes _ hw, if_neg (by rw [hact]; decide),
      if_neg (not_not.2 hsame), hw.disabled, if_neg Bool.false_ne_true, if_pos hstay]
  refine .ofInRegs heq fun t ht => ⟨(ht.fld _ _ _).trans (State.fld_setFld_same _ _ _ (by decide) (by decide)), (ht.reg _).trans ?_,
    (ht.reg _).trans ?_, ht.fetched⟩
  · rw [State.reg_setFld_other _ _ _ _ hcfg.ne, State.reg_setReg, if_pos rfl]
  · rw [State.reg_setFld_other _ _ _ _ hstat.ne', State.reg_setReg, if_neg (hcfg.trans hstat).ne']

theorem queueDrained_ends (hq : q < 64) (hdr : s.qState q = qDraining) (hidle : s.qIdle q = true) :
    Gives (.queueDrained q) s (fun t => t.qState q = qDisabled ∧ t.reg (CMDQ_Q_CFG q) = s.reg (CMDQ_Q_CFG q)) := by
  have heq : exec (.queueDrained q) s = s.inRegs (.next
      { s.setFld (CMDQ_Q_STAT q) 31 30 qDisabled with qEnding := s.qEnding.filter (· != q) }) := by
    show execQueueDrained q s = _
    simp only [execQueueDrained, hq, hdr, hidle, decide_true, beq_self_eq_true, Bool.true_or, Bool.and_true, if_true]
  exact .ofInRegs heq fun t ht => ⟨(ht.fld _ _ _).trans (State.fld_setFld_same _ _ _ (by decide) (by decide)),
    (ht.reg _).trans (State.reg_setFld_other _ _ _ _ (queueCfg_ne_stat q))⟩

theorem queueDrained_waits (hdr : s.qState q = qDraining) (hbusy : s.qIdle q = false) :
    Gives (.queueDrained q) s (fun t => t.qState q = qDraining) := by
  have heq : exec (.queueDrained q) s = s.inRegs (.next s) := by
    show execQueueDrained q s = _
    simp only [execQueueDrained, hbusy, Bool.and_false, Bool.false_eq_true, if_false]
  exact .ofInRegs heq fun t ht => (ht.fld _ _ _).trans hdr

/-! ## Device events -/

theorem regRow_evt : ∃ r, regRow CMDQ_EVT = some r ∧ r.acc = .w1c ∧ blockOf CMDQ_EVT = .cmdq := ⟨_, by rfl, by decide, by decide⟩

theorem cmdqEvtClear_clears (hw : Writes s a CMDQ_EVT v u) : Gives (.cmdqEvtClear a v) s (fun t =>
    t.reg CMDQ_EVT = s.reg CMDQ_EVT &&& ~~~ u ∧ (∀ b, b ≠ CMDQ_EVT → t.reg b = s.reg b)) := by
  obtain ⟨r, hr, hacc, hb⟩ := regRow_evt
  have hplain : State.plainWrite CMDQ_EVT u s = s.setReg CMDQ_EVT (s.reg CMDQ_EVT &&& ~~~ u) := by
    simp only [State.plainWrite, hr, hacc, State.store, State.stored, hb]
  have heq : exec (.cmdqEvtClear a v) s = s.inCores (.next (s.setReg CMDQ_EVT (s.reg CMDQ_EVT &&& ~~~ u))) := by
    show execCmdqEvtClear a v s = _
    rw [execCmdqEvtClear, State.regWrite_of_writes _ hw, hplain]
  refine .ofInCores heq fun t ht _ => ⟨?_, fun b hb => ?_⟩
  · rw [ht.reg, State.reg_setReg, if_pos rfl]
  · rw [ht.reg, State.reg_setReg, if_neg hb]

end

/-- Settles O26: a doorbell inside its arc is written and any other one counted; the states of a queue follow its configuration. -/
theorem doorbells : Obligations.Doorbells := by
  refine ⟨fun s a q v u hq => ⟨fun hw => ⟨fun hact hloc hacc => ?_, fun hbad => ?_⟩, fun hw => ⟨fun hact hacc => ?_, fun hbad => ?_⟩⟩,
    fun s a q v u hq => ⟨fun hw hon hdis => ⟨fun hvalid => ?_, fun hbad => ?_⟩, fun hw hact hsame => ?_, fun hdr hidle => ?_,
      fun hdr hbusy => ?_, fun hw => ?_⟩⟩
  · exact cmdqSqdbWrite_accepted hq hw hact hloc hacc
  · exact cmdqSqdbWrite_ignored hq hw hbad
  · exact cmdqCqdbWrite_accepted hq hw hact hacc
  · exact cmdqCqdbWrite_ignored hq hw hbad
  · exact queueEnable_activates hq hw hon hdis hvalid
  · exact queueEnable_refused hq hw hon hdis hbad
  · exact queueDisable_drains hq hw hact hsame
  · exact queueDrained_ends hq hdr hidle
  · exact queueDrained_waits hdr hbusy
  · exact cmdqEvtClear_clears hw

end Sys2Proof.Machine
end

section
/-!
O27: on a full completion ring a completion that already waits in the pending buffer has been waiting for more than one cycle.
-/

namespace Sys2Proof.Machine

/-- A final completion OK of queue 0. -/
def okPosting : Posting := ⟨.queue 0, none, stOk, 0, 0, 0, 0, 0, false, false, 0, 0⟩

/-- Queue 0 is ACTIVE with a completion ring of two entries, which is full. One completion has waited in the pending buffer from the
start, 100 NCLK cycles, and a second has been decided. -/
def stalledState : State :=
  { ((State.reset.setFld (CMDQ_Q_STAT 0) 31 30 qActive).setFld (CMDQ_Q_CFG 0) 19 16 1).setReg (CMDQ_CQDB 0) 1 with
    now := 100
    pend := [okPosting]
    posting := [okPosting] }

/-- The 50 CCLK cycles that the pending completion has waited are counted (`State.countPend`), and one more. -/
theorem cqPost_stalledState : Gives (.cqPost (.queue 0)) stalledState (fun t => t.reg (CMDQ_Q_CQSTALL 0) = 51) :=
  ⟨_, rfl, by decide +kernel⟩

/-- Refutes O27: `stalledState` meets the hypotheses of the clause on a full ring, and CQSTALL goes from 0 to 51, not to 1, because
CQ_POST first counts the cycles for which the completions of the pending buffer have waited. The clause says nothing of the pending
buffer. -/
theorem not_fetchAndPost : ¬ Obligations.FetchAndPost := by
  intro h
  obtain ⟨-, -, -, hfull, -⟩ := h stalledState 0 (by decide)
  refine cqPost_stalledState.not_of_gives (fun t ht => ?_)
    (hfull (by decide +kernel) (by decide +kernel) (by decide +kernel) (by decide +kernel))
  have hzero : stalledState.reg (CMDQ_Q_CQSTALL 0) = 0 := by decide +kernel
  rintro ⟨-, hstall⟩
  rw [ht, hzero] at hstall
  exact absurd hstall (by decide)

end Sys2Proof.Machine
end

section
/-!
Interrupts and progress (R273, R274), and the proof of O28.
-/

namespace Sys2Proof.Machine

variable {s : State} {v q : Nat}

/-! ## MSI-X messages -/

/-- The completions of the queues below `n` on the vector are signalled. -/
theorem foldl_setUnsig (s : State) (v n : Nat) : ∃ u,
    (List.range n).foldl (fun s q => if s.qVec q = v then s.setUnsig q (0, 0) else s) s = { s with unsig := u } ∧
      ∀ q, Tab.get (fun _ => ((0 : Nat), (0 : Nat))) u q = if q < n ∧ s.qVec q = v then (0, 0) else s.unsigOf q := by
  induction n with
  | zero => exact ⟨s.unsig, rfl, fun q => (if_neg fun h => absurd h.1 (Nat.not_lt_zero q)).symm⟩
  | succ n ih =>
    obtain ⟨u, hfold, hget⟩ := ih
    rw [List.range_succ, List.foldl_append, hfold, List.foldl_cons, List.foldl_nil]
    have hvec : ({ s with unsig := u } : State).qVec n = s.qVec n := rfl
    rw [hvec]
    by_cases hv : s.qVec n = v
    · rw [if_pos hv]
      refine ⟨_, rfl, fun q => ?_⟩
      rw [Tab.get_set, hget]
      by_cases hq : q = n
      · rw [if_pos hq, if_pos ⟨by omega, hq ▸ hv⟩]
      · rw [if_neg hq]
        exact if_congr (by constructor <;> rintro ⟨h, hv'⟩ <;> exact ⟨by omega, hv'⟩) rfl rfl
    · rw [if_neg hv]
      refine ⟨u, rfl, fun q => ?_⟩
      rw [hget]
      refine if_congr ⟨fun ⟨h, hv'⟩ => ⟨by omega, hv'⟩, fun ⟨h, hv'⟩ => ⟨?_, hv'⟩⟩ rfl rfl
      have hne : q ≠ n := fun h => hv (h ▸ hv')
      omega

theorem State.signalled_unsig (s : State) (v : Nat) : ∃ u, s.signalled v = { s with unsig := u } ∧
    ∀ q, Tab.get (fun _ => ((0 : Nat), (0 : Nat))) u q = if q < 64 ∧ s.qVec q = v then (0, 0) else s.unsigOf q :=
  foldl_setUnsig s v 64

/-- What is taken out of a list asks no more. -/
theorem not_mem_filter_ne {α : Type} [DecidableEq α] (l : List α) (v : α) : v ∉ l.filter (· != v) := by
  rw [List.mem_filter]
  rintro ⟨-, h⟩
  exact absurd rfl (bne_iff_ne.1 h)

/-- The vector asks no more. -/
def State.unasked (s : State) (v : Nat) : State := { s with vecReq := s.vecReq.filter (· != v) }

/-- MSIX_MESSAGE of a masked vector that asks. -/
theorem msixMessage_notes (hv : v < 65) (hreq : v ∈ s.vecReq) (hmask : (s.reg (CMDQ_MSIX3 v)).getLsbD 0 = true) :
    exec (.msixMessage v) s = s.inRegs (.next ((s.unasked v).setPba v true)) := by
  show execMsixMessage v s = _
  rw [execMsixMessage, if_pos ⟨hv, List.contains_iff_mem.2 hreq⟩]
  exact congrArg s.inRegs (if_pos hmask)

/-- MSIX_MESSAGE of a vector of queues that asks and is not masked. -/
theorem msixMessage_signals (hv : v < 64) (hreq : v ∈ s.vecReq) (hmask : (s.reg (CMDQ_MSIX3 v)).getLsbD 0 = false) :
    exec (.msixMessage v) s = s.inRegs (.next { ((s.unasked v).signalled v).setPba v false with
      msixOut := ((s.unasked v).signalled v).msixOut ++ [v] }) := by
  have hoff : ¬ ((s.unasked v).reg (CMDQ_MSIX3 v)).getLsbD 0 = true := fun h => Bool.false_ne_true (hmask.symm.trans h)
  show execMsixMessage v s = _
  rw [execMsixMessage, if_pos ⟨by omega, List.contains_iff_mem.2 hreq⟩]
  refine congrArg s.inRegs ((if_neg hoff).trans ?_)
  rw [if_pos hv]
  rfl

theorem msixMessage_sends (hv : v < 64) (hreq : v ∈ s.vecReq) (hmask : (s.reg (CMDQ_MSIX3 v)).getLsbD 0 = false) :
    Gives (.msixMessage v) s (fun t => t.msixOut = s.msixOut ++ [v] ∧ v ∉ t.vecReq ∧
      (∀ q < 64, s.qVec q = v → t.unsigOf q = (0, 0)) ∧ (∀ q < 64, s.qVec q ≠ v → t.unsigOf q = s.unsigOf q)) := by
  obtain ⟨u, hsig, hget⟩ := (s.unasked v).signalled_unsig v
  have heq := msixMessage_signals hv hreq hmask
  rw [hsig] at heq
  refine .ofInRegs heq fun t ht => ⟨ht.msixOut, ht.vecReq ▸ not_mem_filter_ne _ v, fun q hq hvec => ?_, fun q hq hvec => ?_⟩
  · rw [State.unsigOf, ht.unsig]
    exact (hget q).trans (if_pos ⟨hq, hvec⟩)
  · rw [State.unsigOf, ht.unsig]
    exact (hget q).trans (if_neg fun h => hvec h.2)

/-- The pending bit of a vector. -/
theorem State.pba_setPba (s : State) (v : Nat) : ((s.setPba v true).reg (CMDQ_PBA (v / 32))).getLsbD (v % 32) = true := by
  have hlt : v % 32 < 32 := Nat.mod_lt _ (by decide)
  rw [State.setPba, State.reg_setFld, if_pos rfl]
  show (setField _ _ _ _).toNat.testBit _ = true
  rw [testBit_setField _ _ le_rfl hlt, if_pos ⟨le_rfl, le_rfl⟩, Nat.sub_self]
  rfl

theorem msixMessage_masked (hv : v < 65) (hreq : v ∈ s.vecReq) (hmask : (s.reg (CMDQ_MSIX3 v)).getLsbD 0 = true) :
    Gives (.msixMessage v) s (fun t => t.msixOut = s.msixOut ∧ v ∉ t.vecReq ∧ (t.reg (CMDQ_PBA (v / 32))).getLsbD (v % 32) = true) := by
  refine .ofInRegs (msixMessage_notes hv hreq hmask) fun t ht => ⟨ht.msixOut, ht.vecReq ▸ not_mem_filter_ne _ v, ?_⟩
  rw [ht.reg]
  exact State.pba_setPba _ v

/-! ## The age of a completion -/

theorem State.askVector_mem (s : State) (v : Nat) : v ∈ (s.askVector v).vecReq := by
  unfold State.askVector
  split
  · next h => exact List.contains_iff_mem.1 h
  · exact List.mem_append_right _ (List.mem_singleton_self v)

theorem State.askVector_now (s : State) (v : Nat) : (s.askVector v).now = s.now := by
  unfold State.askVector
  split <;> rfl

theorem irqAgeExpiry_asks (hq : q < 64) (hthr : s.fld (CMDQ_Q_IRQ q) 15 8 ≠ 0) (hsome : (s.unsigOf q).1 ≠ 0)
    (hen : (s.reg (CMDQ_Q_IRQ q)).getLsbD 31 = true) : Gives (.irqAgeExpiry q) s (fun t => s.qVec q ∈ t.vecReq ∧
      t.now = max s.now ((s.unsigOf q).2 + s.fld (CMDQ_Q_IRQ q) 15 8 * usNclk)) := by
  have heq : exec (.irqAgeExpiry q) s = s.inRegs (.next
      ((s.reach ((s.unsigOf q).2 + s.fld (CMDQ_Q_IRQ q) 15 8 * usNclk)).askVector (s.qVec q))) := by
    show execIrqAgeExpiry q s = _
    rw [execIrqAgeExpiry, if_pos ⟨hq, hthr, hsome, hen⟩]
  exact .ofInRegs heq fun t ht => ⟨ht.vecReq ▸ State.askVector_mem _ _, ht.now.trans (State.askVector_now _ _)⟩

/-! ## Progress -/

theorem progressInterval_reports {id : Nat} {x : Cmd} (hx : s.cmd id = some x) (hsrc : x.src = .queue q) (hended : x.ended = false)
    (hunit : x.unit < unitNone) (hprog : x.flags.testBit 1 = true) (hms : s.fld (CMDQ_Q_CFG q) 15 8 ≠ 0) :
    Gives (.progressInterval id) s (fun t => t.now = max s.now (x.nextProg + s.fld (CMDQ_Q_CFG q) 15 8 * msNclk) ∧
      ∃ p, t.posting = s.posting ++ [p] ∧ p.status = stProgress ∧ p.interim = true ∧ p.tag = x.tag ∧ p.src = x.src) := by
  have hgoes : ¬ (x.ended = true ∨ unitNone ≤ x.unit ∨ ¬ x.flags.testBit 1 = true ∨ s.fld (CMDQ_Q_CFG q) 15 8 = 0) := by
    rintro (h | h | h | h)
    · rw [hended] at h
      exact nomatch h
    · omega
    · exact h hprog
    · exact hms h
  obtain ⟨due, hdue⟩ : ∃ due, due = x.nextProg + s.fld (CMDQ_Q_CFG q) 15 8 * msNclk := ⟨_, rfl⟩
  obtain ⟨r, hr⟩ : ∃ r, r = ((s.reach due).modCmd id (fun y => { y with nextProg := due })).report x := ⟨_, rfl⟩
  have heq : exec (.progressInterval id) s = s.inRegs (.next (r.2.interim x stProgress r.1)) := by
    show execProgressInterval id s = _
    rw [execProgressInterval, hx]
    simp only [hsrc]
    rw [if_neg hgoes, ← hdue, ← hr]
  refine .ofInRegs heq fun t ht => ⟨?_, ⟨x.src, some x.id, stProgress, 0, x.tag, x.raised, x.sqhead, r.1, true, false, x.born, r.2.nextCmd⟩,
    ht.posting.trans ?_, rfl, rfl, rfl, rfl⟩
  · rw [ht.now, hr, ← hdue]
    rfl
  · rw [hr]
    rfl

/-- Settles O28: what a vector that asks sends or notes, what the age of a completion asks for, and what an interval reports. -/
theorem interruptsAndProgress : Obligations.InterruptsAndProgress := fun _ =>
  ⟨fun _ hv hreq hmask => msixMessage_sends hv hreq hmask, fun _ hv hreq hmask => msixMessage_masked hv hreq hmask,
    fun _ hq hthr hsome hen => irqAgeExpiry_asks hq hthr hsome hen,
    fun _ _ _ hx hsrc hended hunit hprog hms => progressInterval_reports hx hsrc hended hunit hprog hms⟩

end Sys2Proof.Machine
end

section
/-!
The mailbox (R281 to R286), and the proof of O40.
-/

namespace Sys2Proof.Machine

/-! ## Registers of a channel -/

/-- A register of the block MBX. -/
abbrev MbxReg (b : Nat) : Prop := 0x200000 ≤ b ∧ b < 0x300000

theorem MbxReg.apart {b : Nat} (h : MbxReg b) : (b < 0x500000 ∨ 0x600000 ≤ b) ∧ b ≠ CMDQ_EVT := by
  simp only [CMDQ_EVT]
  omega

theorem mbxReg_of_channel {ch i : Nat} (h : ch < 10) (hi : i < 16) : MbxReg (MBX_LOCK ch) ∧ MbxReg (MBX_STAT ch) ∧ MbxReg (MBX_LATE ch) ∧
    MbxReg (MBX_DATA ch i) := by
  simp only [MbxReg, MBX_LOCK, MBX_STAT, MBX_LATE, MBX_DATA]
  omega

theorem mbxStat_apart (ch ch' : Nat) : MBX_STAT ch ≠ MBX_LOCK ch' ∧ MBX_STAT ch ≠ MBX_LATE ch' := by
  simp only [MBX_STAT, MBX_LOCK, MBX_LATE]
  omega

theorem mbxStat_ne_data (ch : Nat) {i : Nat} (hi : i < 16) : MBX_DATA ch i ≠ MBX_STAT ch := by
  simp only [MBX_STAT, MBX_DATA]
  omega

/-! ## What the operations of a channel leave -/

theorem State.mbxTell_reg (s : State) (agent event : Nat) {b : Nat} (h : b ≠ CMDQ_EVT) : (s.mbxTell agent event).reg b = s.reg b :=
  ite_keeps (fun t : State => t.reg b = s.reg b) (s.raiseEvt_reg event h)
    (ite_keeps (fun t : State => t.reg b = s.reg b) rfl (ite_keeps (fun t : State => t.reg b = s.reg b) rfl rfl))

theorem State.raiseEvt_now (s : State) (b : Nat) : (s.raiseEvt b).now = s.now := by
  obtain ⟨_, _, _, _, h⟩ := OnlyLogged.raiseEvt s b
  rw [h]

theorem State.mbxTell_now (s : State) (agent event : Nat) : (s.mbxTell agent event).now = s.now :=
  ite_keeps (fun t : State => t.now = s.now) (s.raiseEvt_now event)
    (ite_keeps (fun t : State => t.now = s.now) rfl (ite_keeps (fun t : State => t.now = s.now) rfl rfl))

/-- Telling an agent counts no violation. -/
theorem State.mbxTell_pair (s : State) (agent event : Nat) {c : Nat} (hc : c < 16) :
    (s.mbxTell agent event).pair (RAS_VIOL_LO c) (RAS_VIOL_HI c) = s.pair (RAS_VIOL_LO c) (RAS_VIOL_HI c) := by
  obtain ⟨-, -, hl⟩ := violPair_apart hc (.inl rfl)
  obtain ⟨-, -, hh⟩ := violPair_apart hc (.inr rfl)
  simp only [State.pair, State.mbxTell_reg s agent event hl, State.mbxTell_reg s agent event hh]

theorem State.mbxIgnore_reg (s : State) (a : Agent) (ch : Nat) {b : Nat} (h : MbxReg b) : (s.mbxIgnore a ch).reg b = s.reg b := by
  obtain ⟨hb, he⟩ := h.apart
  exact (State.violation_reg_apart _ _ (by decide) hb he).trans (State.logEvent_reg_apart _ _ _ _ _ hb he)

theorem State.mbxIgnore_counted (s : State) (a : Agent) (ch : Nat) : Counted s (s.mbxIgnore a ch) 6 :=
  (State.violation_counted _ _ (by decide)).before (State.logEvent_pair _ _ _ _ _ (by decide))

theorem State.setMbx_state (s : State) (ch st owner : Nat) : (s.setMbx ch st owner).mbxSt ch = st % 16 ∧
    (s.setMbx ch st owner).mbxOwner ch = owner % 16 := by
  have hreg : (s.setMbx ch st owner).reg (MBX_STAT ch) =
      ((s.setFld (MBX_STAT ch) 31 28 st).setFld (MBX_STAT ch) 27 24 owner).reg (MBX_STAT ch) :=
    (State.reg_setReg _ _ _ _).trans (if_neg (mbxStat_apart ch ch).1)
  exact ⟨(State.fld_of_reg hreg 31 28).trans ((State.fld_setFld_other _ _ (by decide) (by decide) (.inr (.inr (by decide)))).trans
    (State.fld_setFld_same _ _ _ (by decide) (by decide))),
    (State.fld_of_reg hreg 27 24).trans (State.fld_setFld_same _ _ _ (by decide) (by decide))⟩

/-- The channel is answered. -/
theorem State.mbxAcks_replied (s : State) (ch : Nat) {rcode len : Nat} (hr : rcode < 256) (hl : len < 128) :
    Replied (s.mbxAcks ch rcode len) ch rcode ∧ (s.mbxAcks ch rcode len).fld (MBX_STAT ch) 6 0 = len := by
  have hne : MBX_STAT ch ≠ CMDQ_EVT := by simp only [MBX_STAT, CMDQ_EVT]; omega
  have hreg := State.mbxTell_reg ((s.setFld (MBX_STAT ch) 31 28 mbxAcked).setReply ch rcode len) (s.mbxOwner ch) evtMbxAck hne
  refine ⟨⟨(State.fld_of_reg hreg 31 28).trans ?_, (State.fld_of_reg hreg 15 8).trans ?_⟩, (State.fld_of_reg hreg 6 0).trans ?_⟩
  · rw [State.setReply, State.fld_setFld_other _ _ (by decide) (by decide) (.inr (.inr (by decide))),
      State.fld_setFld_other _ _ (by decide) (by decide) (.inr (.inr (by decide)))]
    exact State.fld_setFld_same _ _ _ (by decide) (by decide)
  · rw [State.setReply, State.fld_setFld_other _ _ (by decide) (by decide) (.inr (.inr (by decide))),
      State.fld_setFld_same _ _ _ (by decide) (by decide)]
    exact Nat.mod_eq_of_lt hr
  · rw [State.setReply, State.fld_setFld_same _ _ _ (by decide) (by decide)]
    exact Nat.mod_eq_of_lt hl

theorem State.mbxExpires_state (s : State) (ch : Nat) : (s.mbxExpires ch).mbxSt ch = mbxTimedOut ∧
    (s.mbxExpires ch).fld (MBX_STAT ch) 15 8 = stTimeout ∧ (s.mbxExpires ch).now = s.now := by
  have hne : MBX_STAT ch ≠ CMDQ_EVT := by simp only [MBX_STAT, CMDQ_EVT]; omega
  have hreg := State.mbxTell_reg ((s.setFld (MBX_STAT ch) 31 28 mbxTimedOut).setFld (MBX_STAT ch) 15 8 stTimeout) (s.mbxOwner ch) evtMbxTmo hne
  refine ⟨(State.fld_of_reg hreg 31 28).trans ?_, (State.fld_of_reg hreg 15 8).trans ?_, State.mbxTell_now _ _ _⟩
  · exact (State.fld_setFld_other _ _ (by decide) (by decide) (.inr (.inr (by decide)))).trans
      (State.fld_setFld_same _ _ _ (by decide) (by decide))
  · exact State.fld_setFld_same _ _ _ (by decide) (by decide)

theorem Replied.of_reg {s t : State} {ch rcode : Nat} (h : Replied s ch rcode) (hreg : t.reg (MBX_STAT ch) = s.reg (MBX_STAT ch)) :
    Replied t ch rcode := by
  obtain ⟨hst, hcode⟩ := h
  exact ⟨(State.fld_of_reg hreg 31 28).trans hst, (State.fld_of_reg hreg 15 8).trans hcode⟩

section
variable {s : State} {a : Agent} {ch : Nat} {v u : W32}

/-! ## The lock -/

theorem mbxLockRead_takes (hch : ch < 10) (ha : agentNo a < 16) (hr : s.reads a (MBX_LOCK ch) = true) (hfree : s.mbxSt ch = mbxFree) :
    Gives (.mbxLockRead a ch) s (fun t => t.mbxSt ch = mbxLocked ∧ t.mbxOwner ch = agentNo a ∧
      Tab.get (fun _ => 0) t.readData (agentCode a) = 0) := by
  have heq : exec (.mbxLockRead a ch) s = s.inRegs (.next ((s.setMbx ch mbxLocked (agentNo a)).answer a 0)) := by
    show execMbxLockRead a ch s = _
    simp only [execMbxLockRead, hch, if_true, State.mbxLockRead, hr, hfree, Bool.not_true, Bool.false_eq_true, if_false]
  obtain ⟨hst, howner⟩ := s.setMbx_state ch mbxLocked (agentNo a)
  refine .ofInRegs heq fun t ht => ⟨(ht.fld _ _ _).trans ((State.fld_of_reg (State.answer_reg _ _ _ _) _ _).trans hst),
    (ht.fld _ _ _).trans ((State.fld_of_reg (State.answer_reg _ _ _ _) _ _).trans (howner.trans (Nat.mod_eq_of_lt ha))), ?_⟩
  rw [ht.readData]
  exact State.readData_answer _ _ _

theorem mbxLockRead_answers (hch : ch < 10) (hr : s.reads a (MBX_LOCK ch) = true) (htaken : s.mbxSt ch ≠ mbxFree) :
    Gives (.mbxLockRead a ch) s (fun t => t.regs = s.regs ∧
      Tab.get (fun _ => 0) t.readData (agentCode a) = BitVec.ofNat 32 (s.mbxOwner ch)) := by
  have heq : exec (.mbxLockRead a ch) s = s.inRegs (.next (s.answer a (BitVec.ofNat 32 (s.mbxOwner ch)))) := by
    show execMbxLockRead a ch s = _
    simp only [execMbxLockRead, hch, if_true, State.mbxLockRead, hr, htaken, Bool.not_true, Bool.false_eq_true, if_false]
  exact .ofInRegs heq fun t ht => ⟨ht.regs, by rw [ht.readData]; exact State.readData_answer _ _ _⟩

/-- MBX_LOCK_RELEASE that reaches the lock. -/
theorem mbxLockRelease_eq (hch : ch < 10) (hw : Writes s a (MBX_LOCK ch) 0 0) : exec (.mbxLockRelease a ch) s = s.inRegs (.next
    (if s.mbxOwner ch = agentNo a then s.setMbx ch mbxFree 0 else s.violation 2 (mbxSource ch))) := by
  show execMbxLockRelease a ch s = _
  rw [execMbxLockRelease, if_pos hch, State.mbxRelease, State.regWrite_of_writes _ hw, if_neg (not_not.2 rfl)]

theorem mbxLockRelease_frees (hch : ch < 10) (hw : Writes s a (MBX_LOCK ch) 0 0) (howner : s.mbxOwner ch = agentNo a) :
    Gives (.mbxLockRelease a ch) s (fun t => t.mbxSt ch = mbxFree ∧ t.mbxOwner ch = 0) := by
  obtain ⟨hst, hown⟩ := s.setMbx_state ch mbxFree 0
  exact .ofInRegs ((mbxLockRelease_eq hch hw).trans (by rw [if_pos howner])) fun t ht =>
    ⟨(ht.fld _ _ _).trans hst, (ht.fld _ _ _).trans hown⟩

theorem mbxLockRelease_counts (hch : ch < 10) (hw : Writes s a (MBX_LOCK ch) 0 0) (howner : s.mbxOwner ch ≠ agentNo a) :
    Gives (.mbxLockRelease a ch) s (fun t => t.reg (MBX_STAT ch) = s.reg (MBX_STAT ch) ∧ Counted s t 2) := by
  obtain ⟨-, hstat, -⟩ := mbxReg_of_channel (i := 0) hch (by decide)
  obtain ⟨hb, he⟩ := hstat.apart
  exact .ofInRegs ((mbxLockRelease_eq hch hw).trans (by rw [if_neg howner])) fun t ht =>
    ⟨(ht.reg _).trans (State.violation_reg_apart s _ (by decide) hb he), (s.violation_counted _ (by decide)).after (ht.pair _ _)⟩

/-! ## Data -/

/-- The agent may write the buffer of a channel: its owner while LOCKED or ACKED, its receiver while SENT. -/
abbrev State.MayWrite (s : State) (a : Agent) (ch : Nat) : Prop :=
  ((s.mbxSt ch = mbxLocked ∨ s.mbxSt ch = mbxAcked) ∧ s.mbxOwner ch = agentNo a) ∨ (s.mbxSt ch = mbxSent ∧ s.mbxDest ch = agentNo a)

theorem mbxDataWrite_eq {i : Nat} (hch : ch < 10) (hi : i < 16) (hw : Writes s a (MBX_DATA ch i) v u) :
    exec (.mbxDataWrite a ch i v) s = s.inRegs (.next (if s.MayWrite a ch then s.setReg (MBX_DATA ch i) u
      else if s.mbxSt ch = mbxTimedOut ∧ s.mbxDest ch = agentNo a then s.mbxLate ch false else s.mbxIgnore a ch)) := by
  show execMbxDataWrite a ch i v s = _
  rw [execMbxDataWrite, if_pos ⟨hch, hi⟩, State.mbxData, State.regWrite_of_writes _ hw]

theorem mbxDataWrite_writes {i : Nat} (hch : ch < 10) (hi : i < 16) (hw : Writes s a (MBX_DATA ch i) v u) (hmine : s.MayWrite a ch) :
    exec (.mbxDataWrite a ch i v) s = .next (s.setReg (MBX_DATA ch i) u) := by
  rw [mbxDataWrite_eq hch hi hw, if_pos hmine]
  rfl

theorem mbxDataWrite_ignored {i : Nat} (hch : ch < 10) (hi : i < 16) (hw : Writes s a (MBX_DATA ch i) v u) (hmine : ¬ s.MayWrite a ch)
    (hlate : ¬ (s.mbxSt ch = mbxTimedOut ∧ s.mbxDest ch = agentNo a)) : Gives (.mbxDataWrite a ch i v) s (fun t =>
      t.reg (MBX_DATA ch i) = s.reg (MBX_DATA ch i) ∧ Counted s t 6) := by
  obtain ⟨-, -, -, hdata⟩ := mbxReg_of_channel hch hi
  exact .ofInRegs ((mbxDataWrite_eq hch hi hw).trans (by rw [if_neg hmine, if_neg hlate])) fun t ht =>
    ⟨(ht.reg _).trans (s.mbxIgnore_reg a ch hdata), (s.mbxIgnore_counted a ch).after (ht.pair _ _)⟩

/-! ## MBX_SEND -/

/-- DEST and LEN of a message noted. -/
def State.addressed (s : State) (ch dest len : Nat) : State := (s.setFld (MBX_STAT ch) 19 16 dest).setReply ch 0 len

/-- The message is on its way, and its receiver told. -/
def State.sent (s : State) (ch dest len : Nat) : State :=
  ({ (s.addressed ch dest len).setFld (MBX_STAT ch) 31 28 mbxSent with
      mbxSince := Tab.set (fun _ => 0) s.mbxSince ch s.now } : State).mbxTell dest evtMbxMsg

theorem State.addressed_reg (s : State) (ch dest len : Nat) {b : Nat} (h : b ≠ MBX_STAT ch) : (s.addressed ch dest len).reg b = s.reg b := by
  rw [State.addressed, State.setReply, State.reg_setFld_other _ _ _ _ h, State.reg_setFld_other _ _ _ _ h, State.reg_setFld_other _ _ _ _ h]

theorem State.addressed_dead (s : State) (ch dest len agent : Nat) : (s.addressed ch dest len).mbxDead agent = s.mbxDead agent := by
  have hglb : (s.addressed ch dest len).reg GLB_STATE = s.reg GLB_STATE :=
    State.addressed_reg _ _ _ _ (by simp only [MBX_STAT, GLB_STATE]; omega)
  have hcp : (s.addressed ch dest len).reg RAS_CP = s.reg RAS_CP := State.addressed_reg _ _ _ _ (by simp only [MBX_STAT, RAS_CP]; omega)
  simp only [State.mbxDead, State.dev_of_reg hglb, State.fld_of_reg hglb, State.fld_of_reg hcp]
  rfl

theorem State.addressed_state (s : State) (ch : Nat) {dest len : Nat} (hd : dest < 16) (hl : len < 128) :
    (s.addressed ch dest len).mbxDest ch = dest ∧ (s.addressed ch dest len).fld (MBX_STAT ch) 6 0 = len ∧
      (s.addressed ch dest len).mbxOwner ch = s.mbxOwner ch := by
  refine ⟨?_, ?_, ?_⟩
  · refine (State.fld_setFld_other _ _ (by decide) (by decide) (.inr (.inr (by decide)))).trans ?_
    refine (State.fld_setFld_other _ _ (by decide) (by decide) (.inr (.inr (by decide)))).trans ?_
    exact (State.fld_setFld_same _ _ _ (by decide) (by decide)).trans (Nat.mod_eq_of_lt hd)
  · exact (State.fld_setFld_same _ _ _ (by decide) (by decide)).trans (Nat.mod_eq_of_lt hl)
  · refine (State.fld_setFld_other _ _ (by decide) (by decide) (.inr (.inr (by decide)))).trans ?_
    refine (State.fld_setFld_other _ _ (by decide) (by decide) (.inr (.inr (by decide)))).trans ?_
    exact State.fld_setFld_other _ _ (by decide) (by decide) (.inr (.inr (by decide)))

theorem State.sent_reg (s : State) (ch dest len : Nat) {b : Nat} (h : b ≠ CMDQ_EVT) :
    (s.sent ch dest len).reg b = ((s.addressed ch dest len).setFld (MBX_STAT ch) 31 28 mbxSent).reg b := by
  have hregs (m : Tab Nat) : ({ (s.addressed ch dest len).setFld (MBX_STAT ch) 31 28 mbxSent with mbxSince := m } : State).regs =
      ((s.addressed ch dest len).setFld (MBX_STAT ch) 31 28 mbxSent).regs := rfl
  exact (State.mbxTell_reg _ _ _ h).trans (State.reg_of_regs (hregs _) b)

theorem State.sent_state (s : State) (ch : Nat) {dest len : Nat} (hd : dest < 16) (hl : len < 128) :
    (s.sent ch dest len).mbxSt ch = mbxSent ∧ (s.sent ch dest len).mbxDest ch = dest ∧
      (s.sent ch dest len).fld (MBX_STAT ch) 6 0 = len ∧ (s.sent ch dest len).mbxOwner ch = s.mbxOwner ch := by
  have hreg := s.sent_reg ch dest len (b := MBX_STAT ch) (by simp only [MBX_STAT, CMDQ_EVT]; omega)
  obtain ⟨hdest, hlen, howner⟩ := s.addressed_state ch hd hl
  have hother {hi lo : Nat} (h : hi < 28) : ((s.addressed ch dest len).setFld (MBX_STAT ch) 31 28 mbxSent).fld (MBX_STAT ch) hi lo =
      (s.addressed ch dest len).fld (MBX_STAT ch) hi lo := State.fld_setFld_other _ _ (by decide) (by decide) (.inr (.inl h))
  exact ⟨(State.fld_of_reg hreg 31 28).trans (State.fld_setFld_same _ _ _ (by decide) (by decide)),
    (State.fld_of_reg hreg 19 16).trans ((hother (by decide)).trans hdest), (State.fld_of_reg hreg 6 0).trans ((hother (by decide)).trans hlen),
    (State.fld_of_reg hreg 27 24).trans ((hother (by decide)).trans howner)⟩

theorem State.sent_bytes (s : State) {ch : Nat} (dest len : Nat) (hch : ch < 10) : (s.sent ch dest len).mbxBytes ch = s.mbxBytes ch := by
  have hdata {i : Nat} (hi : i < 16) : (s.sent ch dest len).reg (MBX_DATA ch i) = s.reg (MBX_DATA ch i) := by
    obtain ⟨-, -, -, hmbx⟩ := mbxReg_of_channel hch hi
    rw [State.sent_reg _ _ _ _ hmbx.apart.2, State.reg_setFld_other _ _ _ _ (mbxStat_ne_data ch hi),
      State.addressed_reg _ _ _ _ (mbxStat_ne_data ch hi)]
  simp only [State.mbxBytes, List.flatMap]
  congr 1
  exact List.map_congr_left fun i hi => by rw [hdata (List.mem_range.1 hi)]

/-- The answer of the MP without a reply. -/
theorem State.mpAnswer_replied (s : State) {ch rcode : Nat} (hch : ch < 10) (hr : rcode < 256) : Replied (s.mpAnswer ch rcode []) ch rcode := by
  obtain ⟨-, hstat, -⟩ := mbxReg_of_channel (i := 0) hch (by decide)
  obtain ⟨hb, he⟩ := hstat.apart
  obtain ⟨hacked, -⟩ := s.mbxAcks_replied ch hr (len := 0) (by decide)
  show Replied (if rcode = stNotSecure ∨ rcode = stAuthFailed then (s.mbxAcks ch rcode 0).violation 8 (mbxSource ch)
    else s.mbxAcks ch rcode 0) ch rcode
  exact ite_keeps (fun t => Replied t ch rcode) (hacked.of_reg (State.violation_reg_apart _ _ (by decide) hb he)) hacked

/-- MBX_SEND that reaches its register, by what it meets. -/
theorem mbxSend_eq (hch : ch < 10) (hw : Writes s a (MBX_SEND ch) v u) : exec (.mbxSend a ch v) s = s.inRegs (.next
    (if s.mbxSt ch ≠ mbxLocked ∨ s.mbxOwner ch ≠ agentNo a then s.mbxIgnore a ch
    else if 8 ≤ ch ∧ regField u 19 16 ≠ 7 then
      ((s.setFld (MBX_STAT ch) 19 16 (regField u 19 16)).mbxAcks ch stBadField 0).violation 8 (mbxSource ch)
    else if regField u 19 16 = 0 ∨ 9 < regField u 19 16 ∨ regField u 6 0 = 0 ∨ 64 < regField u 6 0 then s.mbxIgnore a ch
    else if s.mbxDead (regField u 19 16) then (s.addressed ch (regField u 19 16) (regField u 6 0)).mbxExpires ch
    else if 8 ≤ ch ∧ ¬ secureOps.contains (entryNat (s.mbxBytes ch) 0 1) then
      (s.sent ch (regField u 19 16) (regField u 6 0)).mpAnswer ch (otherOp (entryNat (s.mbxBytes ch) 0 1)) []
    else s.sent ch (regField u 19 16) (regField u 6 0))) := by
  show execMbxSend a ch v s = _
  rw [execMbxSend, if_pos hch, State.mbxSend, State.regWrite_of_writes _ hw, ← s.addressed_dead ch (regField u 19 16) (regField u 6 0),
    ← s.sent_bytes (regField u 19 16) (regField u 6 0) hch]
  rfl

theorem mbxSend_ignored (hch : ch < 10) (hw : Writes s a (MBX_SEND ch) v u)
    (h : (s.mbxSt ch ≠ mbxLocked ∨ s.mbxOwner ch ≠ agentNo a) ∨ (ch < 8 ∧ s.mbxSt ch = mbxLocked ∧ s.mbxOwner ch = agentNo a ∧
      ¬ (1 ≤ regField u 19 16 ∧ regField u 19 16 ≤ 9 ∧ 1 ≤ regField u 6 0 ∧ regField u 6 0 ≤ 64))) :
    Gives (.mbxSend a ch v) s (fun t => t.reg (MBX_STAT ch) = s.reg (MBX_STAT ch) ∧ Counted s t 6) := by
  obtain ⟨-, hstat, -⟩ := mbxReg_of_channel (i := 0) hch (by decide)
  have heq : exec (.mbxSend a ch v) s = s.inRegs (.next (s.mbxIgnore a ch)) := by
    rw [mbxSend_eq hch hw]
    rcases h with hlock | ⟨hplain, hst, howner, hbad⟩
    · rw [if_pos hlock]
    · rw [if_neg (by rintro (h | h); exacts [h hst, h howner]), if_neg (by omega), if_pos (by omega)]
  exact .ofInRegs heq fun t ht => ⟨(ht.reg _).trans (s.mbxIgnore_reg a ch hstat), (s.mbxIgnore_counted a ch).after (ht.pair _ _)⟩

theorem mbxSend_notToMp (hch : ch < 10) (hw : Writes s a (MBX_SEND ch) v u) (hst : s.mbxSt ch = mbxLocked)
    (howner : s.mbxOwner ch = agentNo a) (hsecure : 8 ≤ ch) (hdest : regField u 19 16 ≠ 7) :
    Gives (.mbxSend a ch v) s (fun t => Replied t ch stBadField ∧ Counted s t 8) := by
  obtain ⟨-, hstat, -⟩ := mbxReg_of_channel (i := 0) hch (by decide)
  obtain ⟨hb, he⟩ := hstat.apart
  have heq := mbxSend_eq hch hw
  rw [if_neg (by rintro (h | h); exacts [h hst, h howner]), if_pos ⟨hsecure, hdest⟩] at heq
  obtain ⟨hacked, -⟩ := (s.setFld (MBX_STAT ch) 19 16 (regField u 19 16)).mbxAcks_replied ch (rcode := stBadField) (len := 0)
    (by decide) (by decide)
  have happart (t : State) (hi lo w : Nat) : (t.setFld (MBX_STAT ch) hi lo w).pair (RAS_VIOL_LO 8) (RAS_VIOL_HI 8) =
      t.pair (RAS_VIOL_LO 8) (RAS_VIOL_HI 8) := State.pair_setReg_apart t _ hb (by decide)
  refine .ofInRegs heq fun t ht => ⟨hacked.of_reg ((ht.reg _).trans (State.violation_reg_apart _ _ (by decide) hb he)), ?_⟩
  refine ((State.violation_counted _ _ (by decide)).before ?_).after (ht.pair _ _)
  rw [State.mbxAcks, State.mbxTell_pair _ _ _ (by decide), State.setReply, happart, happart, happart, happart]

/-- The conditions under which a message goes out. -/
theorem mbxSend_good (hch : ch < 10) (hw : Writes s a (MBX_SEND ch) v u) (hst : s.mbxSt ch = mbxLocked)
    (howner : s.mbxOwner ch = agentNo a) (hd1 : 1 ≤ regField u 19 16) (hd9 : regField u 19 16 ≤ 9) (hl1 : 1 ≤ regField u 6 0)
    (hl64 : regField u 6 0 ≤ 64) (hto : ch < 8 ∨ regField u 19 16 = 7) : exec (.mbxSend a ch v) s = s.inRegs (.next
      (if s.mbxDead (regField u 19 16) then (s.addressed ch (regField u 19 16) (regField u 6 0)).mbxExpires ch
      else if 8 ≤ ch ∧ ¬ secureOps.contains (entryNat (s.mbxBytes ch) 0 1) then
        (s.sent ch (regField u 19 16) (regField u 6 0)).mpAnswer ch (otherOp (entryNat (s.mbxBytes ch) 0 1)) []
      else s.sent ch (regField u 19 16) (regField u 6 0))) := by
  rw [mbxSend_eq hch hw, if_neg (by rintro (h | h); exacts [h hst, h howner]), if_neg (by omega), if_neg (by omega)]

theorem otherOp_lt (op : Nat) : otherOp op < 256 := by
  unfold otherOp
  split <;> decide

/-- What a good MBX_SEND makes of its channel. -/
theorem mbxSend_goes (hch : ch < 10) (hw : Writes s a (MBX_SEND ch) v u) (hst : s.mbxSt ch = mbxLocked)
    (howner : s.mbxOwner ch = agentNo a) (hd1 : 1 ≤ regField u 19 16) (hd9 : regField u 19 16 ≤ 9) (hl1 : 1 ≤ regField u 6 0)
    (hl64 : regField u 6 0 ≤ 64) (hto : ch < 8 ∨ regField u 19 16 = 7) :
    (s.mbxDead (regField u 19 16) = false → (ch < 8 ∨ entryNat (s.mbxBytes ch) 0 1 ∈ secureOps) → Gives (.mbxSend a ch v) s (fun t =>
      t.mbxSt ch = mbxSent ∧ t.mbxDest ch = regField u 19 16 ∧ t.fld (MBX_STAT ch) 6 0 = regField u 6 0 ∧ t.mbxOwner ch = agentNo a)) ∧
    (s.mbxDead (regField u 19 16) = false → 8 ≤ ch → entryNat (s.mbxBytes ch) 0 1 ∉ secureOps → Gives (.mbxSend a ch v) s (fun t =>
      Replied t ch (otherOp (entryNat (s.mbxBytes ch) 0 1)))) ∧
    (s.mbxDead (regField u 19 16) = true → Gives (.mbxSend a ch v) s (fun t => t.mbxSt ch = mbxTimedOut)) := by
  have heq := mbxSend_good hch hw hst howner hd1 hd9 hl1 hl64 hto
  refine ⟨fun halive hop => ?_, fun halive hsecure hop => ?_, fun hdead => ?_⟩
  · have hplain : ¬ (8 ≤ ch ∧ ¬ secureOps.contains (entryNat (s.mbxBytes ch) 0 1) = true) := by
      rintro ⟨h8, hnot⟩
      rcases hop with hlt | hmem
      · omega
      · exact hnot (List.contains_iff_mem.2 hmem)
    rw [halive, if_neg Bool.false_ne_true, if_neg hplain] at heq
    obtain ⟨hsent, hdest, hlen, hown⟩ := s.sent_state ch (dest := regField u 19 16) (len := regField u 6 0) (by omega) (by omega)
    exact .ofInRegs heq fun t ht => ⟨(ht.fld _ _ _).trans hsent, (ht.fld _ _ _).trans hdest, (ht.fld _ _ _).trans hlen,
      (ht.fld _ _ _).trans (hown.trans howner)⟩
  · rw [halive, if_neg Bool.false_ne_true, if_pos ⟨hsecure, fun h => hop (List.contains_iff_mem.1 h)⟩] at heq
    exact .ofInRegs heq fun t ht => (State.mpAnswer_replied _ hch (otherOp_lt _)).of_reg (ht.reg _)
  · rw [hdead, if_pos rfl] at heq
    obtain ⟨hout, -⟩ := (s.addressed ch (regField u 19 16) (regField u 6 0)).mbxExpires_state ch
    exact .ofInRegs heq fun t ht => (ht.fld _ _ _).trans hout

/-! ## MBX_ACK and the timeout -/

theorem mbxAck_eq (hch : ch < 10) (hw : Writes s a (MBX_ACK ch) v u) : exec (.mbxAck a ch v) s = s.inRegs (.next
    (if s.mbxSt ch = mbxSent ∧ s.mbxDest ch = agentNo a ∧ regField u 6 0 ≤ 64 then s.mbxAcks ch (regField u 15 8) (regField u 6 0)
    else if s.mbxSt ch = mbxTimedOut ∧ s.mbxDest ch = agentNo a then s.mbxLate ch true else s.mbxIgnore a ch)) := by
  show execMbxAck a ch v s = _
  rw [execMbxAck, if_pos hch, State.mbxAck, State.regWrite_of_writes _ hw]

theorem mbxAck_replies (hch : ch < 10) (hw : Writes s a (MBX_ACK ch) v u) (hdest : s.mbxDest ch = agentNo a)
    (hst : s.mbxSt ch = mbxSent) (hlen : regField u 6 0 ≤ 64) : Gives (.mbxAck a ch v) s (fun t =>
      Replied t ch (regField u 15 8) ∧ t.fld (MBX_STAT ch) 6 0 = regField u 6 0) := by
  have heq := mbxAck_eq hch hw
  rw [if_pos ⟨hst, hdest, hlen⟩] at heq
  obtain ⟨hacked, hl⟩ := s.mbxAcks_replied ch (rcode := regField u 15 8) (len := regField u 6 0) (Nat.mod_lt _ (by decide)) (by omega)
  exact .ofInRegs heq fun t ht => ⟨hacked.of_reg (ht.reg _), (ht.fld _ _ _).trans hl⟩

theorem State.mbxLate_counts (s : State) {ch : Nat} (ack : Bool) (hch : ch < 10) : (s.mbxLate ch ack).reg (MBX_STAT ch) = s.reg (MBX_STAT ch) ∧
    (s.mbxLate ch ack).reg (MBX_LATE ch) = satAdd (s.reg (MBX_LATE ch)) 1 ∧ Counted s (s.mbxLate ch ack) 7 := by
  obtain ⟨-, hstat, hlate, -⟩ := mbxReg_of_channel (i := 0) hch (by decide)
  obtain ⟨hl, hle⟩ := hlate.apart
  obtain ⟨hs, hse⟩ := hstat.apart
  obtain ⟨t, ht⟩ : ∃ t, t = (s.bump (MBX_LATE ch) 1).violation 7 (mbxSource ch) := ⟨_, rfl⟩
  have htell {b : Nat} (hb : b ≠ CMDQ_EVT) : (s.mbxLate ch ack).reg b = t.reg b := by
    rw [ht]
    exact ite_keeps (fun u : State => u.reg b = _) (State.raiseEvt_reg _ _ hb) rfl
  obtain ⟨-, -, hlo⟩ := violPair_apart (cls := 7) (by decide) (.inl rfl)
  obtain ⟨-, -, hhi⟩ := violPair_apart (cls := 7) (by decide) (.inr rfl)
  refine ⟨?_, ?_, ?_⟩
  · rw [htell hse, ht, State.violation_reg_apart _ _ (by decide) hs hse]
    exact (State.reg_setReg _ _ _ _).trans (if_neg (mbxStat_apart ch ch).2)
  · rw [htell hle, ht, State.violation_reg_apart _ _ (by decide) hl hle]
    exact (State.reg_setReg _ _ _ _).trans (if_pos rfl)
  · refine Counted.after (t := t) ?_ (by simp only [State.pair, htell hlo, htell hhi])
    rw [ht]
    exact (State.violation_counted _ _ (by decide)).before (State.pair_setReg_apart s _ hl (by decide))

theorem mbxAck_late (hch : ch < 10) (hw : Writes s a (MBX_ACK ch) v u) (hdest : s.mbxDest ch = agentNo a)
    (hst : s.mbxSt ch = mbxTimedOut) : Gives (.mbxAck a ch v) s (fun t => t.mbxSt ch = mbxTimedOut ∧ Counted s t 7 ∧
      t.reg (MBX_LATE ch) = satAdd (s.reg (MBX_LATE ch)) 1) := by
  have heq := mbxAck_eq hch hw
  rw [if_neg (by rw [hst]; rintro ⟨h, -⟩; exact absurd h (by decide)), if_pos ⟨hst, hdest⟩] at heq
  obtain ⟨hstat, hlate, hcount⟩ := s.mbxLate_counts true hch
  exact .ofInRegs heq fun t ht => ⟨(ht.fld _ _ _).trans ((State.fld_of_reg hstat 31 28).trans hst), hcount.after (ht.pair _ _),
    (ht.reg _).trans hlate⟩

theorem mbxTimeout_expires (hch : ch < 10) (hst : s.mbxSt ch = mbxSent) (hlim : s.fld (MBX_TMO ch) 15 0 ≠ 0) :
    Gives (.mbxTimeout ch) s (fun t => t.mbxSt ch = mbxTimedOut ∧ t.fld (MBX_STAT ch) 15 8 = stTimeout ∧
      t.now = max s.now (Tab.get (fun _ => 0) s.mbxSince ch + s.fld (MBX_TMO ch) 15 0 * mbxUnit)) := by
  have heq : exec (.mbxTimeout ch) s = s.inRegs (.next
      ((s.reach (Tab.get (fun _ => 0) s.mbxSince ch + s.fld (MBX_TMO ch) 15 0 * mbxUnit)).mbxExpires ch)) := by
    show execMbxTimeout ch s = _
    rw [execMbxTimeout, if_pos ⟨hch, hst, hlim⟩]
  obtain ⟨hout, hcode, hnow⟩ :=
    (s.reach (Tab.get (fun _ => 0) s.mbxSince ch + s.fld (MBX_TMO ch) 15 0 * mbxUnit)).mbxExpires_state ch
  exact .ofInRegs heq fun t ht => ⟨(ht.fld _ _ _).trans hout, (ht.fld _ _ _).trans hcode, ht.now.trans hnow⟩

end

/-- Settles O40: a channel goes from state to state by the writes of its owner and of its receiver, and by its limit. -/
theorem mailboxChannels : Obligations.MailboxChannels := by
  refine fun s a ch v u hch ha => ⟨fun hr => ⟨fun hfree => ?_, fun htaken => ?_⟩, fun hw => ⟨fun howner => ?_, fun howner => ?_⟩,
    fun i hi hw => ⟨fun hmine => ?_, fun hmine hlate => ?_⟩, fun hw => ⟨fun hst howner => ⟨fun hd1 hd9 hl1 hl64 hto => ?_,
      fun hplain hbad => ?_, fun hsecure hdest => ?_⟩, fun hlock => ?_⟩, fun hw hdest => ⟨fun hst hlen => ?_, fun hst => ?_⟩,
    fun hst hlim => ?_⟩
  · exact mbxLockRead_takes hch ha hr hfree
  · exact mbxLockRead_answers hch hr htaken
  · exact mbxLockRelease_frees hch hw howner
  · exact mbxLockRelease_counts hch hw howner
  · exact mbxDataWrite_writes hch hi hw hmine
  · exact mbxDataWrite_ignored hch hi hw hmine hlate
  · exact mbxSend_goes hch hw hst howner hd1 hd9 hl1 hl64 hto
  · exact mbxSend_ignored hch hw (.inr ⟨hplain, hst, howner, hbad⟩)
  · exact mbxSend_notToMp hch hw hst howner hsecure hdest
  · exact mbxSend_ignored hch hw (.inl hlock)
  · exact mbxAck_replies hch hw hdest hst hlen
  · exact mbxAck_late hch hw hdest hst
  · exact mbxTimeout_expires hch hst hlim

end Sys2Proof.Machine
end

section
/-!
A command at the head of its queue, before its own effect (R268, R269, R294, R296), and the proof of O29.
-/

namespace Sys2Proof.Machine

/-! ## The frames of a queue command -/

/-- A frame of a command that starts in `s`: what does nothing stays so, and a next state shows through. -/
structure Frames (s : State) (o : Out → Out) : Prop where
  stays : o (.next s) = .next s
  passes : ∀ u, ∃ t, o (.next u) = .next t ∧ Unframed u t

theorem Frames.comp {s : State} {o o' : Out → Out} (h : Frames s o) (h' : Frames s o') : Frames s (fun x => o (o' x)) where
  stays := by
    show o (o' (.next s)) = _
    rw [h'.stays, h.stays]
  passes u := by
    obtain ⟨t, ht, hu⟩ := h'.passes u
    obtain ⟨v, hv, ht'⟩ := h.passes t
    refine ⟨v, ?_, hu.trans ht'⟩
    show o (o' (.next u)) = _
    rw [ht, hv]

theorem Frames.edge (s : State) : Frames s s.keepEdge := ⟨rfl, fun u => ⟨_, rfl, .keepEdge s u⟩⟩
theorem Frames.fabric (s : State) : Frames s s.keepFabric := ⟨rfl, fun u => ⟨_, rfl, .sameFabric s u⟩⟩
theorem Frames.mem (s : State) : Frames s s.keepMem := ⟨rfl, fun u => ⟨_, rfl, .sameMem s u⟩⟩
theorem Frames.cores (s : State) : Frames s s.keepCores := ⟨rfl, fun u => ⟨_, rfl, .sameCores s u⟩⟩

/-- Commands that reach power control, those that reach cores as well, and those of the fabric. -/
theorem Frames.inPower (s : State) : Frames s s.inPower :=
  have h := (Frames.edge s).comp ((Frames.fabric s).comp ((Frames.mem s).comp (.cores s)))
  h
theorem Frames.onCores (s : State) : Frames s (fun o => s.keepEdge (s.keepFabric (s.keepMem o))) :=
  (Frames.edge s).comp ((Frames.fabric s).comp (.mem s))
theorem Frames.onFabric (s : State) : Frames s (fun o => s.keepEdge (s.keepMem (s.keepCores o))) :=
  (Frames.edge s).comp ((Frames.mem s).comp (.cores s))
theorem Frames.onMemory (s : State) : Frames s (fun o => s.keepEdge (s.keepFabric o)) :=
  (Frames.edge s).comp (.fabric s)

theorem Frames.gives {s u : State} {o : Out → Out} {i : Instr} {P : State → Prop} (h : Frames s o) (hi : exec i s = o (.next u))
    (hp : ∀ t, Unframed u t → P t) : Gives i s P := by
  obtain ⟨t, ht, hu⟩ := h.passes u
  exact ⟨t, hi.trans ht, hp t hu⟩

/-- What a queue command is: stage 2 of its opcode with its field checks and some body, in some frame. -/
structure RunsStage2 (i : Instr) (op : Nat) (src : Src) (f : Entry → State → List Check) (s : State) : Prop where
  runs : ∃ body o, Frames s o ∧ exec i s = o (.next (s.stage2 op src (fields f) body))
  /-- The turn that a command processor has taken is nothing that the checks look at. -/
  turn : ∀ e, f e (s.tookTurn src) = f e s
  notExec : execClass op = false

theorem queueOp_runsStage2 {i : Instr} {op : Nat} {src : Src} {f : Entry → State → List Check} (h : queueOp i = some (op, src, f))
    (s : State) : RunsStage2 i op src f s := by
  unfold queueOp at h
  split at h
  case h_22 => exact nomatch h
  all_goals obtain ⟨rfl, rfl, rfl⟩ : _ = op ∧ _ = src ∧ _ = f := by simpa using h
  case h_3 => exact ⟨⟨_, _, .onMemory s, rfl⟩, fun _ => rfl, by decide⟩
  case h_9 | h_10 | h_19 | h_20 | h_21 => exact ⟨⟨_, _, .onCores s, rfl⟩, fun _ => rfl, by decide⟩
  case h_16 | h_18 => exact ⟨⟨_, _, .onFabric s, rfl⟩, fun _ => rfl, by decide⟩
  all_goals exact ⟨⟨_, _, .inPower s, rfl⟩, fun _ => rfl, by decide⟩

/-! ## What a completion leaves -/

/-- A completion decided beside an event of the log. -/
theorem OnlyLogged.post {s t : State} (h : OnlyLogged s t) (p : Posting) : OnlyLogged (s.post p) (t.post p) := by
  obtain ⟨_, _, _, _, rfl⟩ := h
  exact ⟨_, _, _, _, rfl⟩

theorem OnlyLogged.countRefused (s : State) (src : Src) (st : Nat) : OnlyLogged s (s.countRefused src st) := by
  unfold State.countRefused
  split
  · exact ite_keeps (OnlyLogged s) (.setReg _ _ _) (.refl s)
  · exact .refl s

theorem OnlyLogged.complete (s : State) (e : Entry) (st d r : Nat) : OnlyLogged (s.post (e.answer s st d r)) (s.complete e st d r) :=
  (OnlyLogged.countRefused s e.src st).post _

theorem OnlyLogged.fieldFault (s : State) (e : Entry) (st d : Nat) : OnlyLogged (s.post (e.answer s st d 0)) (s.fieldFault e st d) :=
  have h := OnlyLogged.complete s e st d 0
  ite_keeps (OnlyLogged _) (h.trans (.violation _ _ _)) (ite_keeps (OnlyLogged _) (h.trans (.violation _ _ _)) h)

theorem OnlyLogged.stateRefuse (s : State) (e : Entry) : OnlyLogged (s.post (e.answer s stStateRefused s.dev 0)) (s.stateRefuse e) :=
  (OnlyLogged.complete s e _ _ _).trans (.violation _ _ _)

theorem OnlyLogged.framingFault (s : State) (e : Entry) (st d : Nat) : OnlyLogged (s.post (e.answer s st d 0)) (s.framingFault e st d) := by
  have h := (OnlyLogged.complete s e st d 0).trans
    (.logEvent _ 0x0B st (srcSource e.src) (BitVec.ofNat 64 (srcQueue e.src + e.index * 64 + e.op * 2 ^ 18 + d * 2 ^ 26)))
  unfold State.framingFault
  extract_lets q t t'
  split
  · extract_lets v
    have hv : OnlyLogged (s.post (e.answer s st d 0)) v := h.trans (.setReg _ _ _)
    exact ite_keeps (OnlyLogged _) (hv.trans (.violation _ _ _)) (hv.trans (.violation _ _ _))
  · exact h.trans (.violation _ _ _)

theorem OnlyLogged.posting {s t : State} (h : OnlyLogged s t) : t.posting = s.posting := by
  obtain ⟨_, _, _, _, rfl⟩ := h
  rfl

theorem OnlyLogged.head {s t : State} (h : OnlyLogged s t) (src : Src) : t.head src = s.head src := by
  obtain ⟨_, _, _, _, rfl⟩ := h
  rfl

/-- The heads that fail checks 1 to 5 complete behind what was decided before. -/
theorem settleHead_posting (src : Src) (n : Nat) (s : State) : ∃ more, (State.settleHead src n s).posting = s.posting ++ more := by
  induction n generalizing s with
  | zero => exact ⟨[], (List.append_nil _).symm⟩
  | succ n ih =>
    rw [State.settleHead]
    split
    · exact ⟨[], (List.append_nil _).symm⟩
    split
    · exact ⟨[], (List.append_nil _).symm⟩
    split
    · exact ⟨[], (List.append_nil _).symm⟩
    · next e _ _ _ st d _ =>
      obtain ⟨more, hmore⟩ := ih ((s.popHead src).framingFault e st d)
      rw [(OnlyLogged.framingFault _ e st d).posting] at hmore
      exact ⟨_, hmore.trans (List.append_assoc _ _ _)⟩

/-- A completion is decided, and then heads that fail checks 1 to 5 complete. -/
theorem Decides.ofSettled {s t u v : State} {src : Src} {n : Nat} {p : Posting} (hs : t.posting = s.posting) (h : OnlyLogged (t.post p) u)
    (hv : Unframed (State.settleHead src n u) v) : Decides s v [p] := by
  obtain ⟨more, hmore⟩ := settleHead_posting src n u
  refine ⟨p :: more, ?_, List.Sublist.cons_cons p (List.nil_sublist more)⟩
  rw [hv.posting, hmore, h.posting]
  show (t.posting ++ [p]) ++ more = _
  rw [hs, List.append_assoc]
  rfl

/-! ## Stage 2 -/

section
variable {s : State} {src : Src} {op : Nat} {e : Entry} {body : Body} {f : Entry → State → List Check}

/-- Nothing happens where the source is not served or has no turn, where another opcode is at its head, or where its head waits. -/
theorem State.stage2_waits {checks : Checks} (h : s.served src = false ∨ s.inTurn src = false ∨ s.head src = none ∨ s.ready src = false ∨
    (∃ e, s.head src = some e ∧ e.op ≠ op)) : s.stage2 op src checks body = s := by
  by_cases hturn : (!s.served src || !s.inTurn src) = true
  · rw [State.stage2, if_pos hturn]
  rw [State.stage2, if_neg hturn]
  cases hhead : s.head src with
  | none => rfl
  | some e =>
    refine if_pos ?_
    rcases h with h | h | h | h | ⟨e', h, hop⟩
    · simp [h] at hturn
    · simp [h] at hturn
    · rw [h] at hhead
      exact nomatch hhead
    · exact .inr (by rw [h]; rfl)
    · rw [h] at hhead
      exact .inl (Option.some.inj hhead ▸ hop)

theorem AtHead.ready (h : AtHead s src op e) : s.ready src = true := by
  obtain ⟨-, -, hhead, -, hfence, hdefer, -, -⟩ := h
  rw [State.ready, hhead]
  show (!s.fenced e && (e.deferred.isNone || e.passed)) = true
  rw [hfence, hdefer]
  rfl

/-- A head that fails check 6. -/
theorem State.stage2_fails (h : AtHead s src op e) (hturn : f e (s.tookTurn src) = f e s) {st d : Nat}
    (hbad : firstBad (e.rsvChecks ++ f e s) = some (st, d)) : ∃ n, s.stage2 op src (fields f) body =
      State.settleHead src n (((s.tookTurn src).popHead src).fieldFault e st d) := by
  have hready := h.ready
  obtain ⟨hserved, hinturn, hhead, hop, -, -, hchecked, hpassed⟩ := h
  refine ⟨(((s.tookTurn src).popHead src).fieldFault e st d).fetched.length, ?_⟩
  simp only [State.stage2, hserved, hinturn, hhead, hop, hready, hchecked, hpassed, fields, hturn, hbad, Bool.not_true, Bool.or_self,
    Bool.false_eq_true, ne_eq, not_true_eq_false, or_self, if_false]

/-- The state in which an entry past check 6 meets check 7. -/
def State.atGate (s : State) (src : Src) (e : Entry) : State :=
  { (s.tookTurn src).popHead src with fetched := e.withCopy [] :: ((s.tookTurn src).popHead src).fetched }

/-- A head that passes check 6 meets the gate of check 7. -/
theorem State.stage2_gate (h : AtHead s src op e) (hturn : f e (s.tookTurn src) = f e s) (hgood : firstBad (e.rsvChecks ++ f e s) = none) :
    s.stage2 op src (fields f) body = (s.atGate src e).check7 (e.withCopy []) body :=
  State.stage2_of_checks (u := s.tookTurn src) (cs := f e s) (copy := []) body h (by rw [fields, hturn]) hgood

theorem State.gate_atGate (src : Src) (hop : execClass e.op = false) : (s.atGate src e).gate (e.withCopy []) = s.gate e :=
  State.gate_congr rfl rfl rfl hop

theorem State.popHead_atGate (h : e.src = src) : (s.atGate src e).popHead (e.withCopy []).src = (s.tookTurn src).popHead src := by
  subst h
  exact popHead_cons (e := e.withCopy []) rfl

/-- An opcode that the device state refuses. -/
theorem State.check7_refuses (h : e.src = src) (hnew : e.passed = false) (hop : execClass e.op = false) (hgate : s.gate e = .refuse) :
    ∃ n, (s.atGate src e).check7 (e.withCopy []) body =
      State.settleHead src n (((s.tookTurn src).popHead src).stateRefuse (e.withCopy [])) := by
  have hpassed : (e.withCopy []).passed = false := hnew
  have hsrc : (e.withCopy []).src = src := h
  refine ⟨(((s.tookTurn src).popHead src).stateRefuse (e.withCopy [])).fetched.length, (if_neg (by rw [hpassed]; decide)).trans ?_⟩
  rw [State.gate_atGate src hop, hgate, State.popHead_atGate h, hsrc]

/-- An opcode that the device state defers is held with its place in the order. -/
theorem State.check7_defers (h : e.src = src) (hnew : e.passed = false) (hop : execClass e.op = false) (hgate : s.gate e = .defer) :
    (s.atGate src e).check7 (e.withCopy []) body = State.settleDev
      { (s.tookTurn src).popHead src with
        fetched := { e.withCopy [] with deferred := some s.deferNo, checked := true } :: ((s.tookTurn src).popHead src).fetched
        deferNo := s.deferNo + 1 } := by
  have hpassed : (e.withCopy []).passed = false := hnew
  refine (if_neg (by rw [hpassed]; decide)).trans ?_
  rw [State.gate_atGate src hop, hgate, State.popHead_atGate h]
  rfl

/-! ## The device state settles beside what waits -/

/-- What waits at stage 2 stays. -/
structure SameWaiting (s t : State) : Prop where
  fetched : t.fetched = s.fetched
  deferNo : t.deferNo = s.deferNo

theorem SameWaiting.trans {s t u : State} (h : SameWaiting s t) (k : SameWaiting t u) : SameWaiting s u :=
  ⟨k.fetched.trans h.fetched, k.deferNo.trans h.deferNo⟩

theorem SameWaiting.drained (s : State) : SameWaiting s s.drained := by
  have hquit : SameWaiting s (if s.softReset.isSome && s.isMember then s.quitRope else s) := by
    refine ite_keeps (SameWaiting s) ?_ ⟨rfl, rfl⟩
    obtain ⟨_, _, _, _, h, -⟩ := OnlyLeft.quitRope s
    rw [h]
    exact ⟨rfl, rfl⟩
  exact hquit.trans ⟨rfl, rfl⟩

theorem SameWaiting.settleDev (s : State) : SameWaiting s s.settleDev := by
  unfold State.settleDev
  extract_lets t rest
  have ht : SameWaiting s t := ⟨rfl, rfl⟩
  have hend (u : State) (l : List Cmd) : SameWaiting u (l.foldl (fun s x => s.finish x.id stOk 0 0) u) := by
    obtain ⟨_, _, h⟩ := OnlyEnded.foldl _ (fun t (x : Cmd) => OnlyEnded.finish_ok t x.id 0 0) l u
    rw [h]
    exact ⟨rfl, rfl⟩
  have hdrain : SameWaiting s ((t.cmds.filter (fun x => (x.op == 0x04 || x.op == 0x05) && !x.ended)).foldl
      (fun s x => s.finish x.id stOk 0 0) t.drained) := ht.trans (.trans (.drained t) (hend _ _))
  exact ite_keeps (SameWaiting s) (ite_keeps (SameWaiting s) (ite_keeps (SameWaiting s) (hdrain.trans ⟨rfl, rfl⟩) hdrain) ht)
    (ite_keeps (SameWaiting s) (ht.trans ⟨rfl, rfl⟩) ht)

end

/-! ## The commands -/

section
variable {s : State} {i : Instr} {src : Src} {op : Nat} {e : Entry} {f : Entry → State → List Check}

theorem RunsStage2.waits (hi : RunsStage2 i op src f s) (h : s.served src = false ∨ s.inTurn src = false ∨ s.head src = none ∨
    s.ready src = false ∨ (∃ e, s.head src = some e ∧ e.op ≠ op)) : exec i s = .next s := by
  obtain ⟨body, o, ho, heq⟩ := hi.runs
  rw [heq, State.stage2_waits h, ho.stays]

theorem RunsStage2.fails (hi : RunsStage2 i op src f s) (h : AtHead s src op e) {st d : Nat}
    (hbad : firstBad (e.rsvChecks ++ f e s) = some (st, d)) : Gives i s (fun t => Decides s t [e.answer s st d 0]) := by
  obtain ⟨body, o, ho, heq⟩ := hi.runs
  obtain ⟨n, hrun⟩ := State.stage2_fails (body := body) h (hi.turn e) hbad
  rw [hrun] at heq
  exact ho.gives heq fun t ht => .ofSettled (t := (s.tookTurn src).popHead src) rfl (OnlyLogged.fieldFault ((s.tookTurn src).popHead src) e st d) ht

theorem RunsStage2.refused (hi : RunsStage2 i op src f s) (h : AtHead s src op e) (hgood : firstBad (e.rsvChecks ++ f e s) = none)
    (hgate : s.gate e = .refuse) : Gives i s (fun t => Decides s t [e.answer s stStateRefused s.dev 0]) := by
  obtain ⟨body, o, ho, heq⟩ := hi.runs
  have hsrc := h.src
  rw [State.stage2_gate h (hi.turn e) hgood] at heq
  obtain ⟨-, -, -, hop, -, -, -, hnew⟩ := h
  obtain ⟨n, hrun⟩ := State.check7_refuses (body := body) hsrc hnew (hop ▸ hi.notExec) hgate
  rw [hrun] at heq
  exact ho.gives heq fun t ht => .ofSettled (t := (s.tookTurn src).popHead src) rfl (OnlyLogged.stateRefuse ((s.tookTurn src).popHead src) (e.withCopy [])) ht

theorem RunsStage2.deferred (hi : RunsStage2 i op src f s) (h : AtHead s src op e) (hgood : firstBad (e.rsvChecks ++ f e s) = none)
    (hgate : s.gate e = .defer) : Gives i s (fun t => ∃ h, t.head src = some h ∧ h.bytes = e.bytes ∧ h.deferred = some s.deferNo ∧
      t.deferNo = s.deferNo + 1) := by
  obtain ⟨body, o, ho, heq⟩ := hi.runs
  have hsrc := h.src
  rw [State.stage2_gate h (hi.turn e) hgood] at heq
  obtain ⟨-, -, -, hop, -, -, -, hnew⟩ := h
  rw [State.check7_defers hsrc hnew (hop ▸ hi.notExec) hgate] at heq
  refine ho.gives heq fun t ht => ⟨{ e.withCopy [] with deferred := some s.deferNo, checked := true }, ?_, rfl, rfl, ?_⟩
  · rw [State.head, ht.fetched, (SameWaiting.settleDev _).fetched]
    exact List.find?_cons_of_pos (beq_iff_eq.2 hsrc)
  · rw [ht.deferNo, (SameWaiting.settleDev _).deferNo]

end

/-! ## FW_UPDATE and KEY_OP -/

/-- Where some check fails, its field and its status stand in the list. -/
theorem firstBad_mem {cs : List Check} {st d : Nat} (h : firstBad cs = some (st, d)) : ∃ c ∈ cs, c.1 = d := by
  induction cs using List.reverseRecOn generalizing st d with
  | nil => exact nomatch h
  | append_singleton cs c ih =>
    rw [firstBad, List.foldl_append, ← firstBad, List.foldl_cons, List.foldl_nil] at h
    have hold (x : Nat × Nat) (hx : firstBad cs = some x) (hd : x.2 = d) : ∃ c' ∈ cs ++ [c], c'.1 = d := by
      obtain ⟨c', hc', hoff⟩ := ih hx
      exact ⟨c', List.mem_append_left _ hc', hoff.trans hd⟩
    have hnew (hd : c.1 = d) : ∃ c' ∈ cs ++ [c], c'.1 = d := ⟨c, List.mem_append_right _ (List.mem_singleton_self c), hd⟩
    split at h
    · exact hold _ h rfl
    · cases hcs : firstBad cs with
      | none =>
        rw [hcs] at h
        exact hnew (congrArg Prod.snd (Option.some.inj h))
      | some x =>
        rw [hcs] at h
        dsimp only at h
        split at h
        · exact hnew (congrArg Prod.snd (Option.some.inj h))
        · exact hold x hcs (congrArg Prod.snd (Option.some.inj h))

/-- A check of the first byte that fails is the first to fail, whatever fails behind it. -/
theorem firstBad_first {cs : List Check} (st : Nat) (h : ∀ c ∈ cs, 0 < c.1) : firstBad (cs ++ [(0, st, false)]) = some (st, 0) := by
  rw [firstBad, List.foldl_append, ← firstBad, List.foldl_cons, List.foldl_nil]
  cases hcs : firstBad cs with
  | none => rfl
  | some x =>
    obtain ⟨c, hc, hd⟩ := firstBad_mem (st := x.1) (d := x.2) hcs
    exact if_pos (hd ▸ h c hc)

theorem Entry.rsvChecks_pos (e : Entry) : ∀ c ∈ e.rsvChecks, 0 < c.1 := by
  intro c hc
  obtain ⟨i, -, hc⟩ := List.mem_flatMap.1 hc
  obtain ⟨b, -, rfl⟩ := List.mem_map.1 hc
  show 0 < wordAt i (8 * b)
  unfold wordAt
  omega

/-- The checks of FW_UPDATE and KEY_OP: none of their fields, but that the command is one of the secure channels (R269). -/
def notSecureCheck : Entry → State → List Check := fun _ _ => [(0, stNotSecure, false)]

theorem fieldFault_notSecure (s : State) (e : Entry) : s.fieldFault e stNotSecure 0 = (s.post (e.answer s stNotSecure 0 0)).violation 8 (srcSource e.src) := by
  have hcount : s.countRefused e.src stNotSecure = s := by cases e.src <;> rfl
  have hcomplete : s.complete e stNotSecure 0 0 = s.post (e.answer s stNotSecure 0 0) := by rw [State.complete, hcount]
  unfold State.fieldFault
  rw [hcomplete]
  rfl

/-- An entry that only a secure channel may hold. -/
theorem notSecure_answered {s : State} {i : Instr} {src : Src} {op : Nat} {e : Entry} {body : Body} (hi : exec i s = s.inPower (.next
    (s.stage2 op src (fields notSecureCheck) body))) (hlast : (s.popHead src).head src = none) (h : AtHead s src op e) :
    Gives i s (fun t => Decides s t [e.answer s stNotSecure 0 0] ∧ t.cores = s.cores ∧ t.dmem = s.dmem ∧ Counted s t 8) := by
  obtain ⟨n, hrun⟩ := State.stage2_fails (body := body) (f := notSecureCheck) h rfl (firstBad_first stNotSecure e.rsvChecks_pos)
  have hnone : (((s.tookTurn src).popHead src).fieldFault e stNotSecure 0).head src = none :=
    ((OnlyLogged.fieldFault _ e stNotSecure 0).head src).trans hlast
  rw [hrun] at hi
  have hframe : Unframed _ (s.sameRings (s.samePins (s.sameSecure (s.sameFabric (s.sameMem (s.sameCores
      (State.settleHead src n (((s.tookTurn src).popHead src).fieldFault e stNotSecure 0)))))))) :=
    .trans (.trans (.trans (.sameCores _ _) (.sameMem _ _)) (.sameFabric _ _)) (.keepEdge _ _)
  refine ⟨_, hi.trans (State.inPower_next _ _), .ofSettled (t := (s.tookTurn src).popHead src) rfl (OnlyLogged.fieldFault ((s.tookTurn src).popHead src) e stNotSecure 0) hframe, rfl, rfl, ?_⟩
  refine Counted.after ?_ (hframe.pair _ _)
  rw [settleHead_none hnone, fieldFault_notSecure]
  exact (State.violation_counted _ _ (by decide)).before rfl

/-- Settles O29: what keeps a command at the head of its queue waiting, what fails it, and what refuses or defers it, in this order. -/
theorem queueChecksInOrder : Obligations.QueueChecksInOrder := by
  refine ⟨fun s i op src f e hi => ?_, fun s src e hlast => ⟨fun h => ?_, fun h => ?_⟩⟩
  · have hrun := queueOp_runsStage2 hi s
    exact ⟨hrun.waits, fun h => ⟨fun st d hbad => hrun.fails h hbad, fun hgood hgate => hrun.refused h hgood hgate,
      fun hgood hgate => hrun.deferred h hgood hgate⟩⟩
  · exact notSecure_answered rfl hlast h
  · exact notSecure_answered rfl hlast h

end Sys2Proof.Machine
end

section
/-!
What ends, drops and deals transfers (R326, R327, R331): what it leaves of the memories, of the registers of block MEM, and of the
commands at the drives.
-/

namespace Sys2Proof.Machine

/-! ## What stays -/

/-- The state of the drives, and what counts their failures and those of descriptors. -/
def tidyReg (a : Nat) : Prop := a = MEM_T3_STAT ∨ a = MEM_T3_ERR ∨ a = MEM_DMA_ERR

/-- `t` comes from `s` by ending, dropping and dealing: no data moves, and the drives get nothing new but Flushes of drives that have
not failed. -/
structure Tidies (s t : State) : Prop where
  hmem : t.hmem = s.hmem
  dmem : t.dmem = s.dmem
  disks : t.disks = s.disks
  badWords : t.badWords = s.badWords
  now : t.now = s.now
  inbox : t.inbox = s.inbox
  remoteReqs : t.remoteReqs = s.remoteReqs
  reg : ∀ a, tidyReg a → t.reg a = s.reg a
  drives : ∀ z ∈ t.driveCmds, z ∈ s.driveCmds ∨ (z.flush = true ∧ s.driveFailed z.drive = false)

theorem State.driveFailed_of_reg {s t : State} (h : t.reg MEM_T3_STAT = s.reg MEM_T3_STAT) (d : Nat) : t.driveFailed d = s.driveFailed d := by
  rw [State.driveFailed, State.driveFailed, h]

theorem tidyReg_t3Stat : tidyReg MEM_T3_STAT := .inl rfl
theorem tidyReg_t3Err : tidyReg MEM_T3_ERR := .inr (.inl rfl)
theorem tidyReg_dmaErr : tidyReg MEM_DMA_ERR := .inr (.inr rfl)

theorem not_tidyReg {a : Nat} (h : a ≠ MEM_T3_STAT ∧ a ≠ MEM_T3_ERR ∧ a ≠ MEM_DMA_ERR) : ¬ tidyReg a := by
  obtain ⟨hstat, herr, hdma⟩ := h
  simp only [tidyReg, hstat, herr, hdma, or_self, not_false_iff]

section
variable {s t u : State}

theorem Tidies.driveFailed (h : Tidies s t) (d : Nat) : t.driveFailed d = s.driveFailed d :=
  State.driveFailed_of_reg (h.reg _ tidyReg_t3Stat) d

theorem Tidies.refl (s : State) : Tidies s s := ⟨rfl, rfl, rfl, rfl, rfl, rfl, rfl, fun _ _ => rfl, fun _ => .inl⟩

theorem Tidies.trans (h : Tidies s t) (k : Tidies t u) : Tidies s u where
  hmem := k.hmem.trans h.hmem
  dmem := k.dmem.trans h.dmem
  disks := k.disks.trans h.disks
  badWords := k.badWords.trans h.badWords
  now := k.now.trans h.now
  inbox := k.inbox.trans h.inbox
  remoteReqs := k.remoteReqs.trans h.remoteReqs
  reg a ha := (k.reg a ha).trans (h.reg a ha)
  drives z hz := by
    rcases k.drives z hz with hz | ⟨hflush, hok⟩
    · exact h.drives z hz
    · exact .inr ⟨hflush, (h.driveFailed _).symm.trans hok⟩

theorem Tidies.foldl {α : Type} (f : State → α → State) (hf : ∀ s a, Tidies s (f s a)) (l : List α) (s : State) :
    Tidies s (l.foldl f s) :=
  foldl_related Tidies .refl (fun _ _ _ => .trans) f hf l s

theorem Tidies.setReg (s : State) {a : Nat} (v : W32) (h : ¬ tidyReg a) : Tidies s (s.setReg a v) where
  hmem := rfl
  dmem := rfl
  disks := rfl
  badWords := rfl
  now := rfl
  inbox := rfl
  remoteReqs := rfl
  reg b hb := by
    rw [State.reg_setReg, if_neg (fun (he : b = a) => h (he ▸ hb))]
  drives _ := .inl

/-- Where no register and no memory changes. -/
theorem Tidies.ofRegs (hregs : t.regs = s.regs) (hhmem : t.hmem = s.hmem) (hdmem : t.dmem = s.dmem) (hdisks : t.disks = s.disks)
    (hbad : t.badWords = s.badWords) (hnow : t.now = s.now) (hinbox : t.inbox = s.inbox) (hreqs : t.remoteReqs = s.remoteReqs)
    (hdrives : ∀ z ∈ t.driveCmds, z ∈ s.driveCmds) : Tidies s t :=
  ⟨hhmem, hdmem, hdisks, hbad, hnow, hinbox, hreqs, fun a _ => State.reg_of_regs hregs a, fun z hz => .inl (hdrives z hz)⟩

theorem Tidies.modCmd (s : State) (id : Nat) (f : Cmd → Cmd) : Tidies s (s.modCmd id f) :=
  .ofRegs rfl rfl rfl rfl rfl rfl rfl rfl fun _ hz => hz

theorem Tidies.post (s : State) (p : Posting) : Tidies s (s.post p) := .ofRegs rfl rfl rfl rfl rfl rfl rfl rfl fun _ hz => hz

/-! ## What ends a transfer -/

/-- `t` comes from `s` by ending alone: the rings stay too. -/
structure Concludes (s t : State) : Prop extends Tidies s t where
  rings : t.rings = s.rings

theorem Concludes.refl (s : State) : Concludes s s := ⟨.refl s, rfl⟩

theorem Concludes.trans (h : Concludes s t) (k : Concludes t u) : Concludes s u := ⟨h.toTidies.trans k.toTidies, k.rings.trans h.rings⟩

theorem Concludes.modCmd (s : State) (id : Nat) (f : Cmd → Cmd) : Concludes s (s.modCmd id f) := ⟨.modCmd s id f, rfl⟩

theorem Concludes.countRefused (s : State) (src : Src) (st : Nat) : Concludes s (s.countRefused src st) := by
  unfold State.countRefused
  split
  · next q =>
    refine ite_keeps (Concludes s) ⟨.setReg s _ (not_tidyReg ?_), rfl⟩ (.refl s)
    exact ⟨by simp only [CMDQ_Q_REFUSED, MEM_T3_STAT]; omega, by simp only [CMDQ_Q_REFUSED, MEM_T3_ERR]; omega,
      by simp only [CMDQ_Q_REFUSED, MEM_DMA_ERR]; omega⟩
  · exact .refl s

theorem Concludes.finish (s : State) (id st det r : Nat) : Concludes s (s.finish id st det r) := by
  unfold State.finish
  split
  · exact .refl s
  · exact ((Concludes.modCmd s _ _).trans (.countRefused _ _ _)).trans ⟨.post _ _, rfl⟩

theorem Concludes.conclude (s : State) (id st det r : Nat) : Concludes s (s.conclude id st det r) := by
  unfold State.conclude
  split
  · exact .refl s
  · exact ite_keeps (Concludes s) (.finish _ _ _ _ _) (.modCmd _ _ _)

theorem Concludes.endStopped (s : State) (id : Nat) : Concludes s (s.endStopped id) := by
  unfold State.endStopped
  split
  · exact ite_keeps (Concludes s) (.conclude _ _ _ _ _) (.refl s)
  · exact .refl s

/-- A drive that has not failed gets a Flush. -/
theorem Concludes.addFlush {z : DriveCmd} (h : Concludes s t) (hflush : z.flush = true) (hok : s.driveFailed z.drive = false) :
    Concludes s { t with driveCmds := t.driveCmds ++ [z] } where
  hmem := h.hmem
  dmem := h.dmem
  disks := h.disks
  badWords := h.badWords
  now := h.now
  inbox := h.inbox
  remoteReqs := h.remoteReqs
  reg a ha := (State.reg_of_regs rfl a).trans (h.reg a ha)
  rings := h.rings
  drives y hy := by
    rcases List.mem_append.1 hy with hy | hy
    · exact h.drives y hy
    · exact .inr (List.mem_singleton.1 hy ▸ ⟨hflush, hok⟩)

theorem Concludes.flushDrives (s : State) (x : Cmd) : Concludes s (s.flushDrives x) := by
  have hfold (ds : List Nat) : ∀ t, Concludes s t → (∀ d ∈ ds, s.driveFailed d = false) → Concludes s (ds.foldl (fun t d =>
      { t with driveCmds := t.driveCmds ++ [⟨d, 0, 0, true, true, x.id, t.now⟩] }) t) := by
    induction ds with
    | nil => exact fun _ ht _ => ht
    | cons d ds ih =>
      exact fun t ht hds => ih _ (ht.addFlush rfl (hds d List.mem_cons_self)) (fun d' hd' => hds d' (List.mem_cons_of_mem _ hd'))
  refine hfold _ _ (.modCmd s _ _) fun d hd => ?_
  simpa using (List.mem_filter.1 hd).2

theorem Concludes.endTransfer (s : State) (id : Nat) : Concludes s (s.endTransfer id) := by
  unfold State.endTransfer
  split
  · exact .refl s
  split
  · exact .refl s
  · extract_lets due t
    have ht : Concludes s t := ite_keeps (Concludes s) (.flushDrives _ _) (.refl s)
    exact ite_keeps (Concludes s) ht (ite_keeps (Concludes s) (ht.trans (.endStopped _ _)) (ht.trans (.conclude _ _ _ _ _)))

/-- While something of a transfer is left, nothing ends. -/
theorem State.endTransfer_transferring {id : Nat} (h : s.transferring id = true) : s.endTransfer id = s := by
  unfold State.endTransfer
  rw [h]
  split <;> rfl

/-! ## What shows, deals and drops segments -/

theorem Tidies.showEngine (s : State) (e : Nat) : Tidies s (s.showEngine e) := by
  have hbusy : ¬ tidyReg MEM_DMA_BUSY := by simp [tidyReg]
  have hdesc (j : Nat) : ¬ tidyReg (MEM_DMA_DESC e j) := not_tidyReg
    ⟨by simp only [MEM_DMA_DESC, MEM_T3_STAT]; omega, by simp only [MEM_DMA_DESC, MEM_T3_ERR]; omega,
      by simp only [MEM_DMA_DESC, MEM_DMA_ERR]; omega⟩
  unfold State.showEngine
  extract_lets t
  have ht : Tidies s t := .setReg _ _ hbusy
  split
  · exact ht.trans (.foldl _ (fun _ _ => .setReg _ _ (hdesc _)) _ _)
  · exact ht.trans (.foldl _ (fun _ _ => .setReg _ _ (hdesc _)) _ _)

theorem Tidies.rings (s : State) (rs : Tab (List Seg)) (b : List Seg) (e n : Nat) :
    Tidies s { s with rings := rs, backlog := b, segEngine := e, segSeq := n } := .ofRegs rfl rfl rfl rfl rfl rfl rfl rfl fun _ hz => hz

theorem Tidies.filterDrives (s : State) (b : List Seg) (p : DriveCmd → Bool) :
    Tidies s { s with backlog := b, driveCmds := s.driveCmds.filter p } :=
  .ofRegs rfl rfl rfl rfl rfl rfl rfl rfl fun _ hz => (List.mem_filter.1 hz).1

theorem Tidies.setRing (s : State) (e : Nat) (r : List Seg) : Tidies s (s.setRing e r) :=
  .trans (.rings s (Tab.set (fun _ => []) s.rings e r) s.backlog s.segEngine s.segSeq) (.showEngine _ e)

theorem Tidies.dealMore (n : Nat) (s : State) : Tidies s (State.dealMore n s) := by
  induction n generalizing s with
  | zero => exact .refl s
  | succ n ih =>
    rw [State.dealMore]
    split
    · exact .refl s
    · extract_lets e t
      have ht : Tidies s t := .rings s _ _ _ _
      exact ite_keeps (Tidies s) (.refl s) ((ht.trans (.setRing t e _)).trans (ih _))

theorem Tidies.dealOut (s : State) : Tidies s s.dealOut := .dealMore _ _

theorem State.dealOut_nil (h : s.backlog = []) : s.dealOut = s := by
  rw [State.dealOut, State.dealMore, h]

theorem Tidies.dropSegs (s : State) (id : Nat) : Tidies s (s.dropSegs id) := by
  unfold State.dropSegs
  extract_lets t
  have ht : Tidies s t := .foldl _ (fun t e => ite_keeps (Tidies t) (.setRing _ _ _) (.refl t)) _ _
  exact .trans (.trans ht (.filterDrives t _ _)) (.dealOut _)

/-- A command whose segments have been dropped has nothing at the drives but Flushes. -/
theorem State.dropSegs_drives (s : State) (id : Nat) : ∀ z ∈ (s.dropSegs id).driveCmds, z.cmd = id → z.flush = true := by
  unfold State.dropSegs
  extract_lets t
  clear_value t
  intro z hz hid
  rcases (Tidies.dealOut _).drives z hz with hz | ⟨hflush, -⟩
  · obtain ⟨-, hkept⟩ := List.mem_filter.1 hz
    simpa [hid] using hkept
  · exact hflush

/-! ## What a descriptor that fails leaves -/

theorem Tidies.ofLogged (h : OnlyLogged s t) (hreg : ∀ a, tidyReg a → t.reg a = s.reg a) : Tidies s t := by
  obtain ⟨_, _, _, _, rfl⟩ := h
  exact ⟨rfl, rfl, rfl, rfl, rfl, rfl, rfl, hreg, fun _ hz => .inl hz⟩

theorem tidyReg_apart {a : Nat} (h : tidyReg a) : (a < 0x500000 ∨ 0x600000 ≤ a) ∧ a ≠ CMDQ_EVT := by
  rcases h with rfl | rfl | rfl <;> decide

theorem Tidies.violation (s : State) {cls : Nat} (src : Nat) (hc : cls < 16) : Tidies s (s.violation cls src) :=
  .ofLogged (.violation _ _ _) fun a ha => by
    obtain ⟨hfar, hevt⟩ := tidyReg_apart ha
    exact State.violation_reg_apart s src hc hfar hevt

theorem Tidies.logDrive (s : State) (d st page : Nat) : Tidies s (s.logDrive d st page) :=
  .ofLogged (.logEvent _ _ _ _ _) fun a ha => by
    obtain ⟨hfar, hevt⟩ := tidyReg_apart ha
    exact State.logEvent_reg_apart s _ _ _ _ hfar hevt

theorem Tidies.failTransfer (s : State) (id st : Nat) : Tidies (s.bump MEM_DMA_ERR 1) (s.failTransfer id st) := by
  unfold State.failTransfer
  extract_lets t u v
  have hu : Tidies t u := .modCmd _ _ _
  have hv : Tidies u v := ite_keeps (Tidies u) (.violation _ _ (by decide)) (.refl u)
  exact ((hu.trans hv).trans (.dropSegs _ _)).trans (Concludes.endTransfer _ _).toTidies

theorem State.failTransfer_reg_dmaErr (s : State) (id st : Nat) :
    (s.failTransfer id st).reg MEM_DMA_ERR = satAdd (s.reg MEM_DMA_ERR) 1 := by
  rw [(Tidies.failTransfer s id st).reg _ tidyReg_dmaErr, State.bump, State.reg_setReg, if_pos rfl]

theorem State.failTransfer_reg (s : State) (id st : Nat) {a : Nat} (ha : tidyReg a) (hne : a ≠ MEM_DMA_ERR) :
    (s.failTransfer id st).reg a = s.reg a := by
  rw [(Tidies.failTransfer s id st).reg _ ha, State.bump, State.reg_setReg, if_neg hne]

/-- What a failing transfer leaves at the drives: what was there, and Flushes of drives that have not failed. -/
theorem State.failTransfer_drives (s : State) (id st : Nat) :
    ∀ z ∈ (s.failTransfer id st).driveCmds, z ∈ s.driveCmds ∨ (z.flush = true ∧ s.driveFailed z.drive = false) := by
  intro z hz
  refine ((Tidies.failTransfer s id st).drives z hz).imp_right fun h => ?_
  rwa [State.driveFailed_of_reg] at h
  rw [State.bump, State.reg_setReg, if_neg (by decide)]

/-- A failing transfer has nothing left at the drives but Flushes. -/
theorem State.failTransfer_dropped (s : State) (id st : Nat) : ∀ z ∈ (s.failTransfer id st).driveCmds, z.cmd = id → z.flush = true := by
  unfold State.failTransfer
  extract_lets t u v
  intro z hz hid
  rcases (Concludes.endTransfer _ _).drives z hz with hz | ⟨hflush, -⟩
  · exact State.dropSegs_drives v _ z hz hid
  · exact hflush

end

end Sys2Proof.Machine
end

section
/-!
The engines, the drives and the BAR2 window (R261, R324 to R327, R331, R402), and the proof of O43.
-/

namespace Sys2Proof.Machine

/-! ## Memory accesses leave the drives alone -/

/-- The drives hold what they held, and have been asked nothing. -/
structure SameDrives (s t : State) : Prop where
  disks : t.disks = s.disks
  drives : t.drives = s.drives
  driveCmds : t.driveCmds = s.driveCmds

section
variable {s t u : State}

theorem SameDrives.refl (s : State) : SameDrives s s := ⟨rfl, rfl, rfl⟩

theorem SameDrives.trans (h : SameDrives s t) (k : SameDrives t u) : SameDrives s u :=
  ⟨k.disks.trans h.disks, k.drives.trans h.drives, k.driveCmds.trans h.driveCmds⟩

theorem SameDrives.logged (h : OnlyLogged s t) : SameDrives s t := by
  obtain ⟨_, _, _, _, rfl⟩ := h
  exact ⟨rfl, rfl, rfl⟩

theorem SameDrives.served (h : Served s t) : SameDrives s t := by
  obtain ⟨_, _, _, _, _, _, _, rfl⟩ := h.parts
  exact ⟨rfl, rfl, rfl⟩

theorem SameDrives.noteLedge (s : State) (a : Nat) (us : List Nat) : SameDrives s (s.noteLedge a us) := by
  unfold State.noteLedge
  split
  · exact ⟨rfl, rfl, rfl⟩
  · exact .refl s

theorem SameDrives.ledgeFixed (s : State) (a : Nat) (us : List Nat) : SameDrives s (s.ledgeFixed a us) := by
  unfold State.ledgeFixed
  split
  · exact .trans (.noteLedge _ _ _) (foldl_related SameDrives .refl (fun _ _ _ => .trans) _ (fun v u => .served (.setUnitErr v a u)) _ _)
  · exact .refl s

theorem SameDrives.memRead (s : State) (a n : Nat) : SameDrives s (s.memRead a n).2.2 := by
  unfold State.memRead
  extract_lets l t us bad ce t'
  have ht : SameDrives s t := .served (.trans (.touchRows _ _ _ _) (.edcLink _ _ _))
  have ht' : SameDrives s t' := ht.trans (.trans (.logged (.eccCount _ _ _ _)) (.ledgeFixed _ _ _))
  split
  · exact ht'
  · exact ht'.trans (.logged (.logEvent _ _ _ _ _))

theorem SameDrives.memWrite (s : State) (a : Nat) (data : List Byte) : SameDrives s (s.memWrite a data).2 := by
  unfold State.memWrite
  extract_lets n l t u
  have ht : SameDrives s t := .served (.trans (.touchRows _ _ _ _) (.edcLink _ _ _))
  refine foldl_keeps (fun acc : Nat × State => SameDrives s acc.2) _ (fun acc w hacc => ?_) _ (stOk, t) ht
  extract_lets lo hi e part lose v v'
  have hlose (x : State) (hx : SameDrives s x) : SameDrives s (lose x).2 := hx.trans (.logged (.logEvent _ _ _ _ _))
  refine ite_keeps (fun x : Nat × State => SameDrives s x.2) (hlose _ hacc) ?_
  refine ite_keeps (fun x : Nat × State => SameDrives s x.2) (hlose _ (hacc.trans (.logged (.eccCount _ _ _ _)))) ?_
  have hv : SameDrives s v := ite_keeps (SameDrives s) (hacc.trans (.trans (.logged (.eccCount _ _ _ _)) (.noteLedge _ _ _))) hacc
  have hv' : SameDrives v v' := ⟨rfl, rfl, rfl⟩
  exact (hv.trans hv').trans (.served (.setUnitErr _ _ _))

/-- A tier read by an agent of the device that succeeds. -/
theorem State.devRead_tier {a n : Nat} {bs : List Byte} (h : s.devRead a n = .ok bs t)
    (hk : s.addrKind a = .tier1 ∨ s.addrKind a = .tier2) : SameDrives s t ∧ t.dmem = s.dmem := by
  unfold State.devRead at h
  split at h
  · exact nomatch h
  have hmem (h : (if s.atomFirst a n then Reach.wait s
      else if (s.memRead a n).1 = stOk then .ok (s.memRead a n).2.1 (s.memRead a n).2.2
      else .fail (s.memRead a n).1 (s.memRead a n).2.2) = .ok bs t) : SameDrives s t ∧ t.dmem = s.dmem := by
    split at h
    · exact nomatch h
    split at h
    · injection h with _ hst
      exact hst ▸ ⟨.memRead s a n, State.memRead_dmem s a n⟩
    · exact nomatch h
  rcases hk with hk | hk <;> rw [hk] at h <;> exact hmem h

/-- A tier write by an agent of the device that succeeds. -/
theorem State.devWrite_tier {a : Nat} {data : List Byte} {x : Unit} (h : s.devWrite a data = .ok x t)
    (hk : s.addrKind a = .tier1 ∨ s.addrKind a = .tier2) : SameDrives s t := by
  unfold State.devWrite at h
  split at h
  · exact nomatch h
  have hmem (h : (if s.atomFirst a data.length then Reach.wait s
      else if (s.memWrite a data).1 = stOk then .ok () (s.memWrite a data).2
      else .fail (s.memWrite a data).1 (s.memWrite a data).2) = .ok x t) : SameDrives s t := by
    split at h
    · exact nomatch h
    split at h
    · injection h with _ hst
      exact hst ▸ .memWrite s a data
    · exact nomatch h
  rcases hk with hk | hk <;> rw [hk] at h <;> exact hmem h

/-! ## The frame -/

theorem State.keepEngine_next (s u : State) : s.keepEdge (s.keepFabric (s.keepPower (.next u))) =
    .next (s.sameRings (s.samePins (s.sameSecure (s.sameFabric (s.samePower u))))) := rfl

/-- What an engine or a drive makes of the memories and of what no frame holds back. -/
theorem Gives.ofEngine {i : Instr} {P : State → Prop} (h : exec i s = s.keepEdge (s.keepFabric (s.keepPower (.next u))))
    (hp : ∀ t, Unframed u t → t.hmem = u.hmem → t.dmem = u.dmem → t.disks = u.disks → P t) : Gives i s P := by
  have hu : Unframed u (s.sameFabric (s.samePower u)) := .trans (.samePower s u) (.sameFabric s _)
  have hv := hu.trans (.keepEdge s _)
  rw [State.keepEngine_next] at h
  exact ⟨_, h, hp _ hv (by simp) (by simp) (by simp)⟩

theorem Unframed.ringOf (h : Unframed u t) (e : Nat) : t.ringOf e = u.ringOf e := by rw [State.ringOf, State.ringOf, h.rings]

/-! ## The drives -/

section
variable {d : Nat} {x : DriveCmd} {rest : List DriveCmd}

/-- The state in which the oldest command of a drive has left it. -/
def State.driveDone (s : State) (rest : List DriveCmd) : State := { s with driveCmds := rest }

theorem exec_nvmeCompletion_failed (h : takeDrive d s.driveCmds = some (x, rest)) :
    exec (.nvmeCompletion d false) s = s.keepEdge (s.keepFabric (s.keepPower (.next
      ((((s.driveDone rest).bumpFld MEM_T3_ERR 15 0 1).logDrive d stUncorrectable ((x.page - 0x40000000000) / 4096)).failTransfer
        x.cmd stUncorrectable)))) := by
  show execNvmeCompletion d false s = _
  rw [execNvmeCompletion, h]
  rfl

/-- A Read that completes while its transfer has more at the drives. -/
theorem exec_nvmeCompletion_read (h : takeDrive d s.driveCmds = some (x, rest)) (hflush : x.flush = false) (hread : x.write = false)
    {y : Unit} (hw : (s.driveDone rest).devWrite x.addr (Mem.read s.disks (s.diskAddr ((x.page - 0x40000000000) / 4096)) 4096) = .ok y t) :
    exec (.nvmeCompletion d true) s = s.keepEdge (s.keepFabric (s.keepPower (.next
      ((t.modCmd x.cmd (fun y => { y with done := y.done + 1, wrote := true })).endTransfer x.cmd)))) := by
  have hw' : ({ s with driveCmds := rest } : State).devWrite x.addr
      (Mem.read ({ s with driveCmds := rest } : State).disks
        (({ s with driveCmds := rest } : State).diskAddr ((x.page - 0x40000000000) / 4096)) 4096) = .ok y t := hw
  show execNvmeCompletion d true s = _
  rw [execNvmeCompletion, h]
  simp only [hflush, hread, hw', Bool.not_true, Bool.false_eq_true, if_false]

/-- A Write that completes while its transfer has more at the drives. -/
theorem exec_nvmeCompletion_write (h : takeDrive d s.driveCmds = some (x, rest)) (hflush : x.flush = false) (hwrite : x.write = true)
    {bs : List Byte} (hr : (s.driveDone rest).devRead x.addr 4096 = .ok bs t) :
    exec (.nvmeCompletion d true) s = s.keepEdge (s.keepFabric (s.keepPower (.next
      ((({ t with disks := Mem.write t.disks (t.diskAddr ((x.page - 0x40000000000) / 4096)) bs } : State).modCmd x.cmd (fun y => { y with
        done := y.done + 1, wrote := true, members := if y.members.contains d then y.members else y.members ++ [d] })).endTransfer
          x.cmd)))) := by
  have hr' : ({ s with driveCmds := rest } : State).devRead x.addr 4096 = .ok bs t := hr
  show execNvmeCompletion d true s = _
  rw [execNvmeCompletion, h]
  simp only [hflush, hwrite, hr', Bool.not_true, Bool.false_eq_true, if_false, if_true]

theorem State.transferring_of_drives {id : Nat} (h : s.driveCmds.any (fun z => z.cmd == id) = true) : s.transferring id = true := by
  rw [State.transferring, h, Bool.or_true]

theorem State.diskAddr_of_drives (h : t.drives = s.drives) (p : Nat) : t.diskAddr p = s.diskAddr p := by
  rw [State.diskAddr, State.diskAddr, State.driveOf, State.driveOf, h]

/-- A Read that completes moves its page. -/
theorem nvmeCompletion_read (h : takeDrive d s.driveCmds = some (x, rest)) (hflush : x.flush = false) (hread : x.write = false)
    (hmore : rest.any (fun z => z.cmd == x.cmd) = true) {y : Unit}
    (hw : (s.driveDone rest).devWrite x.addr (Mem.read s.disks (s.diskAddr ((x.page - 0x40000000000) / 4096)) 4096) = .ok y u)
    (hk : s.addrKind x.addr = .tier1 ∨ s.addrKind x.addr = .tier2) :
    Gives (.nvmeCompletion d true) s (fun t => t.dmem = u.dmem ∧ t.disks = s.disks ∧ t.driveCmds = rest) := by
  have hu : SameDrives (s.driveDone rest) u := State.devWrite_tier hw hk
  refine .ofEngine (exec_nvmeCompletion_read h hflush hread hw) fun t ht _ hdmem hdisks => ?_
  rw [State.endTransfer_transferring (State.transferring_of_drives (by exact hu.driveCmds ▸ hmore))] at ht hdmem hdisks
  exact ⟨hdmem, hdisks.trans hu.disks, ht.driveCmds.trans hu.driveCmds⟩

/-- A Write that completes brings its page to the drive. -/
theorem nvmeCompletion_write (h : takeDrive d s.driveCmds = some (x, rest)) (hflush : x.flush = false) (hwrite : x.write = true)
    (hmore : rest.any (fun z => z.cmd == x.cmd) = true) {bs : List Byte} (hr : (s.driveDone rest).devRead x.addr 4096 = .ok bs u)
    (hk : s.addrKind x.addr = .tier1 ∨ s.addrKind x.addr = .tier2) :
    Gives (.nvmeCompletion d true) s (fun t =>
      t.disks = Mem.write s.disks (s.diskAddr ((x.page - 0x40000000000) / 4096)) bs ∧ t.dmem = s.dmem ∧ t.driveCmds = rest) := by
  obtain ⟨hu, humem⟩ : SameDrives (s.driveDone rest) u ∧ u.dmem = (s.driveDone rest).dmem := State.devRead_tier hr hk
  have hat (p : Nat) : u.diskAddr p = s.diskAddr p := State.diskAddr_of_drives hu.drives p
  have hudisks : u.disks = s.disks := hu.disks
  refine .ofEngine (exec_nvmeCompletion_write h hflush hwrite hr) fun t ht _ hdmem hdisks => ?_
  rw [State.endTransfer_transferring (State.transferring_of_drives (by exact hu.driveCmds ▸ hmore))] at ht hdmem hdisks
  refine ⟨hdisks.trans ?_, hdmem.trans humem, ht.driveCmds.trans hu.driveCmds⟩
  show Mem.write u.disks (u.diskAddr _) bs = _
  rw [hudisks, hat]

/-- A command at a drive that fails ends its transfer. -/
theorem nvmeCompletion_failed (h : takeDrive d s.driveCmds = some (x, rest)) :
    Gives (.nvmeCompletion d false) s (fun t => (∀ z ∈ t.driveCmds, z.cmd = x.cmd → z.flush = true) ∧
      t.fld MEM_T3_ERR 15 0 = min (s.fld MEM_T3_ERR 15 0 + 1) 65535 ∧ t.reg MEM_DMA_ERR = satAdd (s.reg MEM_DMA_ERR) 1) := by
  refine .ofEngine (exec_nvmeCompletion_failed h) fun t ht _ _ _ => ?_
  have hlog := Tidies.logDrive ((s.driveDone rest).bumpFld MEM_T3_ERR 15 0 1) d stUncorrectable ((x.page - 0x40000000000) / 4096)
  have hdone (a : Nat) : (s.driveDone rest).reg a = s.reg a := State.reg_of_regs rfl a
  refine ⟨fun z hz => State.failTransfer_dropped _ _ _ z (ht.driveCmds ▸ hz), ?_, ?_⟩
  · rw [ht.fld, State.fld_of_reg (State.failTransfer_reg _ _ _ tidyReg_t3Err (by decide)), State.fld_of_reg (hlog.reg _ tidyReg_t3Err),
      State.fld_bumpFld_same _ _ _ (by decide) (by decide), State.fld_of_reg (hdone _)]
    rfl
  · rw [ht.reg, State.failTransfer_reg_dmaErr, hlog.reg _ tidyReg_dmaErr, State.reg_bumpFld_other _ _ _ _ (by decide), hdone]

theorem exec_nvmeCmdTimeout (h : takeDrive d s.driveCmds = some (x, rest)) (hms : s.fld MEM_T3_TMO 15 0 ≠ 0) :
    exec (.nvmeCmdTimeout d) s = s.inRegs (.next
      (((((s.driveDone rest).reach (x.since + s.fld MEM_T3_TMO 15 0 * msNclk)).bumpFld MEM_T3_ERR 31 16 1).logDrive d stTimeout
        ((x.page - 0x40000000000) / 4096)).failTransfer x.cmd stTimeout)) := by
  show execNvmeCmdTimeout d s = _
  rw [execNvmeCmdTimeout, h]
  simp only [if_neg hms]
  rfl

/-- A command at a drive that has been there for its limit ends its transfer. -/
theorem nvmeCmdTimeout_fails (h : takeDrive d s.driveCmds = some (x, rest)) (hms : s.fld MEM_T3_TMO 15 0 ≠ 0) :
    Gives (.nvmeCmdTimeout d) s (fun t => (∀ z ∈ t.driveCmds, z.cmd = x.cmd → z.flush = true) ∧
      t.now = max s.now (x.since + s.fld MEM_T3_TMO 15 0 * msNclk) ∧ t.fld MEM_T3_ERR 31 16 = min (s.fld MEM_T3_ERR 31 16 + 1) 65535) := by
  refine .ofInRegs (exec_nvmeCmdTimeout h hms) fun t ht => ?_
  have hlog := Tidies.logDrive (((s.driveDone rest).reach (x.since + s.fld MEM_T3_TMO 15 0 * msNclk)).bumpFld MEM_T3_ERR 31 16 1) d
    stTimeout ((x.page - 0x40000000000) / 4096)
  have hdone (a : Nat) : ((s.driveDone rest).reach (x.since + s.fld MEM_T3_TMO 15 0 * msNclk)).reg a = s.reg a := State.reg_of_regs rfl a
  refine ⟨fun z hz => State.failTransfer_dropped _ _ _ z (ht.driveCmds ▸ hz), ?_, ?_⟩
  · rw [ht.now, (Tidies.failTransfer _ _ _).now]
    exact hlog.now
  · rw [ht.fld, State.fld_of_reg (State.failTransfer_reg _ _ _ tidyReg_t3Err (by decide)), State.fld_of_reg (hlog.reg _ tidyReg_t3Err),
      State.fld_bumpFld_same _ _ _ (by decide) (by decide), State.fld_of_reg (hdone _)]
    rfl

end

/-! ## A drive that goes down -/

theorem State.getLsbD_setFld (s : State) (a i : Nat) (h : i < 32) : ((s.setFld a i i 1).reg a).getLsbD i = true := by
  rw [State.reg_setFld, if_pos rfl, BitVec.getLsbD, testBit_setField _ _ (Nat.le_refl i) h]
  simp

theorem exec_nvmeLinkDown {d : Nat} (hd : d < 4) (hup : (s.reg MEM_T3_STAT).getLsbD (8 * d) = true) (hok : s.driveFailed d = false) :
    exec (.nvmeLinkDown d) s = s.inRegs (.next (((s.failDrive d).logDrive d stTimeout 0).failDriveCmds d stTimeout)) := by
  show execNvmeLinkDown d s = _
  rw [execNvmeLinkDown, if_pos ⟨hd, hup, by rw [hok]; decide⟩]

/-- What the transfers of a failed drive leave: nothing comes to the drive any more. -/
theorem State.failDriveCmds_drives {d st : Nat} (h : s.driveFailed d = true) :
    (s.failDriveCmds d st).driveFailed d = true ∧ ∀ z ∈ (s.failDriveCmds d st).driveCmds, z.drive ≠ d := by
  unfold State.failDriveCmds
  refine foldl_keeps (fun t : State => t.driveFailed d = true ∧ ∀ z ∈ t.driveCmds, z.drive ≠ d) _ (fun t id ht => ?_) _ _ ⟨h, ?_⟩
  · obtain ⟨hfailed, hfree⟩ := ht
    refine ⟨(State.driveFailed_of_reg (State.failTransfer_reg t id st tidyReg_t3Stat (by decide)) d).trans hfailed, fun z hz => ?_⟩
    rcases State.failTransfer_drives t id st z hz with hz | ⟨-, hok⟩
    · exact hfree z hz
    · rintro rfl
      exact absurd (hok.symm.trans hfailed) (by decide)
  · intro z hz
    simpa using (List.mem_filter.1 hz).2

theorem nvmeLinkDown_fails {d : Nat} (hd : d < 4) (hup : (s.reg MEM_T3_STAT).getLsbD (8 * d) = true) (hok : s.driveFailed d = false) :
    Gives (.nvmeLinkDown d) s (fun t => t.driveFailed d = true ∧ (∀ z ∈ t.driveCmds, z.drive ≠ d)) := by
  refine .ofInRegs (exec_nvmeLinkDown hd hup hok) fun t ht => ?_
  have hmarked : (s.failDrive d).driveFailed d = true := State.getLsbD_setFld s _ _ (by omega)
  have hlogged : ((s.failDrive d).logDrive d stTimeout 0).driveFailed d = true := ((Tidies.logDrive _ _ _ _).driveFailed d).trans hmarked
  obtain ⟨hfailed, hfree⟩ := State.failDriveCmds_drives (st := stTimeout) hlogged
  exact ⟨(State.driveFailed_of_reg (ht.reg _) d).trans hfailed, fun z hz => hfree z (ht.driveCmds ▸ hz)⟩

/-! ## The BAR2 window -/

section
variable {x n : Nat} {data : List Byte}

theorem State.keepWindow_next (s u : State) : s.keepEdge (s.keepFabric (s.keepPower (s.keepCores (.next u)))) =
    .next (s.sameRings (s.samePins (s.sameSecure (s.sameFabric (s.samePower (s.sameCores u)))))) := rfl

/-- What a write from outside makes of memory, of the answers on the window and of what no frame holds back. -/
theorem Gives.ofWindow {i : Instr} {P : State → Prop}
    (h : exec i s = s.keepEdge (s.keepFabric (s.keepPower (s.keepCores (.next u)))))
    (hp : ∀ t, Unframed u t → t.bar2Out = u.bar2Out → t.dmem = u.dmem → P t) : Gives i s P := by
  have hcores : Unframed u (s.samePower (s.sameCores u)) := .trans (.sameCores s u) (.samePower s _)
  have hu := (hcores.trans (.sameFabric s _)).trans (.keepEdge s _)
  rw [State.keepWindow_next] at h
  exact ⟨_, h, hp _ hu (by simp) (by simp)⟩

/-- An access outside a valid window. -/
theorem exec_bar2Access_outside (hpath : s.pathOpen .host = true) (hboot : 4 ≤ s.bootStep) (hwin : s.winOk = false) (write : Bool) :
    exec (.bar2Access x write n data) s = s.keepEdge (s.keepFabric (s.keepPower (s.keepCores
      (.next { s with bar2Out := s.bar2Out ++ [(1, [])] })))) := by
  show execBar2Access x write n data s = _
  have hserved : ¬ s.bootStep < 4 := by omega
  simp [execBar2Access, hpath, hserved, hwin]

/-- A write inside a valid window that meets no atomic operation first. -/
theorem exec_bar2Access_write (hpath : s.pathOpen .host = true) (hboot : 4 ≤ s.bootStep) (hwin : s.winOk = true)
    (hin : x + data.length ≤ 2 ^ 36) (hfree : s.atomFirst (s.fld CMDQ_WIN 11 0 * 2 ^ 36 + x) data.length = false) :
    exec (.bar2Access x true n data) s = s.keepEdge (s.keepFabric (s.keepPower (s.keepCores (.next
      (let r := s.memWrite (s.fld CMDQ_WIN 11 0 * 2 ^ 36 + x) data
       { r.2 with bar2Out := r.2.bar2Out ++ [((if r.1 = stOk then 0 else 2), [])] }))))) := by
  show execBar2Access x true n data s = _
  have hserved : ¬ s.bootStep < 4 := by omega
  have hinside : ¬ 2 ^ 36 < x + data.length := by omega
  simp only [execBar2Access, hpath, hserved, hwin, hinside, hfree, Bool.not_true, decide_false, Bool.or_self, Bool.false_eq_true, if_true,
    if_false]

/-- A read inside a valid window that meets no atomic operation first. -/
theorem exec_bar2Access_read (hpath : s.pathOpen .host = true) (hboot : 4 ≤ s.bootStep) (hwin : s.winOk = true) (hin : x + n ≤ 2 ^ 36)
    (hfree : s.atomFirst (s.fld CMDQ_WIN 11 0 * 2 ^ 36 + x) n = false) :
    exec (.bar2Access x false n data) s = s.keepEdge (s.keepFabric (s.keepPower (s.keepCores (.next
      (let r := s.memRead (s.fld CMDQ_WIN 11 0 * 2 ^ 36 + x) n
       { r.2.2 with bar2Out := r.2.2.bar2Out ++ [((if r.1 = stOk then 0 else 2), r.2.1)] }))))) := by
  show execBar2Access x false n data s = _
  have hserved : ¬ s.bootStep < 4 := by omega
  have hinside : ¬ 2 ^ 36 < x + n := by omega
  simp only [execBar2Access, hpath, hserved, hwin, hinside, hfree, Bool.not_true, decide_false, Bool.or_self, Bool.false_eq_true, if_false]

theorem Served.bar2Out (h : Served s t) : t.bar2Out = s.bar2Out := by
  obtain ⟨_, _, _, _, _, _, _, rfl⟩ := h.parts
  rfl

theorem bar2Access_outside (hpath : s.pathOpen .host = true) (hboot : 4 ≤ s.bootStep) (hwin : s.winOk = false) :
    Gives (.bar2Access x true n data) s (fun t => t.bar2Out = s.bar2Out ++ [(1, [])] ∧ t.dmem = s.dmem) :=
  .ofWindow (exec_bar2Access_outside hpath hboot hwin true) fun _ _ hout hdmem => ⟨hout, hdmem⟩

theorem bar2Access_writes (hpath : s.pathOpen .host = true) (hboot : 4 ≤ s.bootStep) (hwin : s.winOk = true)
    (hin : x + data.length ≤ 2 ^ 36) (hfree : s.atomFirst (s.fld CMDQ_WIN 11 0 * 2 ^ 36 + x) data.length = false)
    (hclean : Clean s (s.fld CMDQ_WIN 11 0 * 2 ^ 36 + x) data.length) :
    Gives (.bar2Access x true n data) s (fun t => t.bar2Out = s.bar2Out ++ [(0, [])] ∧
      t.dmem = (s.memWrite (s.fld CMDQ_WIN 11 0 * 2 ^ 36 + x) data).2.dmem) := by
  refine .ofWindow (exec_bar2Access_write hpath hboot hwin hin hfree) fun t _ hout hdmem => ⟨hout.trans ?_, hdmem⟩
  obtain ⟨u, hwrite, hserved, -, -⟩ := State.memWrite_writes hclean
  rw [hwrite]
  show u.bar2Out ++ _ = _
  rw [hserved.bar2Out]
  rfl

theorem bar2Access_reads (hpath : s.pathOpen .host = true) (hboot : 4 ≤ s.bootStep) (hwin : s.winOk = true) (hin : x + n ≤ 2 ^ 36)
    (hfree : s.atomFirst (s.fld CMDQ_WIN 11 0 * 2 ^ 36 + x) n = false) (hclean : Clean s (s.fld CMDQ_WIN 11 0 * 2 ^ 36 + x) n) :
    Gives (.bar2Access x false n data) s (fun t =>
      t.bar2Out = s.bar2Out ++ [(0, Mem.read s.dmem (s.fld CMDQ_WIN 11 0 * 2 ^ 36 + x) n)] ∧ t.dmem = s.dmem) := by
  obtain ⟨u, hread, hserved, hsame⟩ := State.memRead_clean hclean
  refine .ofWindow (exec_bar2Access_read hpath hboot hwin hin hfree) fun t _ hout hdmem => ?_
  rw [hread] at hout hdmem
  refine ⟨hout.trans ?_, hdmem.trans hsame⟩
  show u.bar2Out ++ _ = _
  rw [hserved.bar2Out]
  rfl

end

/-! ## The engines -/

theorem OnlyLogged.showEngine (s : State) (e : Nat) : OnlyLogged s (s.showEngine e) := by
  unfold State.showEngine
  extract_lets t
  have ht : OnlyLogged s t := .setFld _ _ _ _ _
  split
  · exact ht.trans (.foldl _ (fun _ _ => .setReg _ _ _) _ _)
  · exact ht.trans (.foldl _ (fun _ _ => .setReg _ _ _) _ _)

/-- A ring written: the rings, and registers. -/
theorem State.setRing_parts (s : State) (e : Nat) (r : List Seg) :
    (s.setRing e r).rings = Tab.set (fun _ => []) s.rings e r ∧ (s.setRing e r).backlog = s.backlog := by
  obtain ⟨_, _, _, _, h⟩ := OnlyLogged.showEngine ({ s with rings := Tab.set (fun _ => []) s.rings e r } : State) e
  rw [State.setRing, h]
  exact ⟨rfl, rfl⟩

theorem State.ringOf_setRing_same (s : State) (e : Nat) (r : List Seg) : (s.setRing e r).ringOf e = r := by
  obtain ⟨hrings, -⟩ := s.setRing_parts e r
  rw [State.ringOf, hrings, Tab.get_set_same]

theorem State.ringOf_setRing_other (s : State) {e e' : Nat} (r : List Seg) (h : e' ≠ e) : (s.setRing e r).ringOf e' = s.ringOf e' := by
  obtain ⟨hrings, -⟩ := s.setRing_parts e r
  rw [State.ringOf, State.ringOf, hrings, Tab.get_set_other _ _ _ _ _ h]

theorem State.setRing_backlog (s : State) (e : Nat) (r : List Seg) : (s.setRing e r).backlog = s.backlog := (s.setRing_parts e r).2

/-- A sample changes the monitor channels alone. -/
theorem State.sample_parts (s : State) (src inst v : Nat) : ∃ l, s.sample src inst v = { s with telLive := l } := by
  unfold State.sample
  split
  · exact ⟨s.telLive, rfl⟩
  · refine foldl_keeps (fun t => ∃ l, t = { s with telLive := l }) _ (fun t c ht => ?_) _ s ⟨s.telLive, rfl⟩
    split
    · obtain ⟨l, rfl⟩ := ht
      exact ⟨_, rfl⟩
    · exact ht

/-- The state in which the buffer of an engine has been found good, or bad. -/
def State.bufferSeen (s : State) (e : Nat) : State := { s with badWords := s.badWords.filter (· != .engine e) }

/-- What is left when a piece of the segment at the front of a ring has been moved. -/
def State.pieceDone (t : State) (e : Nat) (g : Seg) (d : PieceDone) : State :=
  let t := ({ t with dmaRows := t.dmaRows.filter (fun x => x.1 != e) } : State).modCmd g.cmd (fun x => { x with
    done := x.done + d.1, clips := x.clips + d.2.1, raised := if d.2.2 then x.raised ||| 4 else x.raised })
  let rest := (t.ringOf e).drop 1
  let t := if g.done + 1 = g.count then t.sample 2 e (t.now - g.born) else t
  let t := t.setRing e (if g.done + 1 = g.count then rest else { g with done := g.done + 1 } :: rest)
  t.dealOut.endTransfer g.cmd

/-- A segment that moves bytes as they are: a byte copy, or a fill. -/
def Seg.moves (g : Seg) : Prop := g.kind = 1 ∨ (g.kind = 0 ∧ (convOf g.conv).action = some .copy)

section
variable {e : Nat} {g : Seg} {gs : List Seg}

theorem contains_engine (h : .engine e ∉ s.badWords) : s.badWords.contains (.engine e) = false := by simpa using h

/-- A piece of bytes that has been moved. -/
theorem exec_dmaPiece_done (hring : s.ringOf e = g :: gs) (hmoves : g.moves) (hgood : .engine e ∉ s.badWords) {d : PieceDone}
    (hpiece : (s.bufferSeen e).bytePiece e g (g.first + g.done) g.len = .ok d t) :
    exec (.dmaPiece e) s = s.keepEdge (s.keepFabric (s.keepPower (.next (t.pieceDone e g d)))) := by
  have hpiece' : ({ s with badWords := s.badWords.filter (· != .engine e) } : State).bytePiece e g (g.first + g.done) g.len = .ok d t := hpiece
  show execDmaPiece e s = _
  rw [execDmaPiece, hring]
  simp only [List.head?_cons, contains_engine hgood, Bool.false_and, Bool.false_eq_true, if_false]
  rcases hmoves with hkind | ⟨hkind, haction⟩
  · have hbytes : ¬ (g.kind = 2 ∨ g.kind = 3) := by omega
    simp only [if_neg hbytes, if_pos hkind, hpiece']
    rfl
  · have hbytes : ¬ (g.kind = 2 ∨ g.kind = 3) := by omega
    have hcopy : ¬ g.kind = 1 := by omega
    simp only [if_neg hbytes, if_neg hcopy, haction, hpiece']
    rfl

/-- What a moved piece leaves: no more bytes move, and the segment leaves its ring when the piece was the last. -/
theorem State.pieceDone_leaves (hring : s.ringOf e = g :: gs) (d : PieceDone) :
    (s.pieceDone e g d).hmem = s.hmem ∧ (s.pieceDone e g d).dmem = s.dmem ∧
      (s.backlog = [] → (s.pieceDone e g d).ringOf e = if g.done + 1 = g.count then gs else { g with done := g.done + 1 } :: gs) := by
  unfold State.pieceDone
  extract_lets t rest u v
  have hrest : rest = gs := by
    show (s.ringOf e).drop 1 = gs
    rw [hring]
    rfl
  have hu : u.hmem = s.hmem ∧ u.dmem = s.dmem ∧ u.backlog = s.backlog := by
    obtain ⟨l, hl⟩ := t.sample_parts 2 e (t.now - g.born)
    exact ite_keeps (fun u : State => u.hmem = s.hmem ∧ u.dmem = s.dmem ∧ u.backlog = s.backlog) (by rw [hl]; exact ⟨rfl, rfl, rfl⟩) ⟨rfl, rfl, rfl⟩
  obtain ⟨huhmem, hudmem, hubacklog⟩ := hu
  clear_value u
  have hend := Concludes.endTransfer v.dealOut g.cmd
  have hv : Tidies u (v.dealOut.endTransfer g.cmd) := ((Tidies.setRing u e _).trans (.dealOut _)).trans hend.toTidies
  refine ⟨hv.hmem.trans huhmem, hv.dmem.trans hudmem, fun hempty => ?_⟩
  have hvempty : v.backlog = [] := (State.setRing_backlog u e _).trans (hubacklog.trans hempty)
  rw [State.ringOf, hend.rings, State.dealOut_nil hvempty, ← hrest]
  exact State.ringOf_setRing_same u e _

theorem State.engineRead_host {w a : Nat} (n : Nat) (hup : s.pcieUp = true) (hmaster : s.busMaster = true) (hplace : placeOf w = .host a) :
    s.engineRead e w n = .ok (Mem.read s.hmem a n) s := by
  rw [State.engineRead, hplace]
  exact if_pos ⟨hup, hmaster⟩

/-- Host memory has been written, and of the rest a command alone has changed. -/
structure HostWritten (s t : State) (a : Nat) (data : List Byte) : Prop where
  hmem : t.hmem = Mem.write s.hmem a data
  dmem : t.dmem = s.dmem
  rings : t.rings = s.rings
  backlog : t.backlog = s.backlog

theorem State.engineWrite_host {w a : Nat} (id : Nat) (data : List Byte) (hup : s.pcieUp = true) (hmaster : s.busMaster = true)
    (hplace : placeOf w = .host a) : ∃ t, s.engineWrite e id w data = .ok () t ∧ HostWritten s t a data := by
  unfold State.engineWrite
  cases data with
  | nil => exact ⟨s, rfl, rfl, rfl, rfl, rfl⟩
  | cons b bs =>
    simp only [hplace, hup, hmaster, List.isEmpty_cons, Bool.false_eq_true, Bool.and_self, if_false, if_true]
    exact ⟨_, rfl, rfl, rfl, rfl, rfl⟩

/-- A piece of a byte copy from host memory to host memory. -/
theorem State.bytePiece_copy {j total a b : Nat} (hup : s.pcieUp = true) (hmaster : s.busMaster = true) (hkind : g.kind = 0)
    (hsrc : placeOf (g.src + 4096 * j) = .host a) (hdst : placeOf (g.dst + 4096 * j) = .host b) :
    ∃ d t, s.bytePiece e g j total = .ok d t ∧ HostWritten s t b (Mem.read s.hmem a (min 4096 (total - 4096 * j))) := by
  obtain ⟨t, hwrite, hdone⟩ := State.engineWrite_host (e := e) g.cmd (Mem.read s.hmem a (min 4096 (total - 4096 * j))) hup hmaster hdst
  refine ⟨(min 4096 (total - 4096 * j), 0, false), t, ?_, hdone⟩
  rw [State.bytePiece, if_neg (by omega), State.engineRead_host _ hup hmaster hsrc, Reach.bind, hwrite]
  rfl

/-- A piece of a fill of host memory. -/
theorem State.bytePiece_fill {j total b : Nat} (hup : s.pcieUp = true) (hmaster : s.busMaster = true) (hkind : g.kind = 1)
    (hdst : placeOf (g.dst + 4096 * j) = .host b) : ∃ d t, s.bytePiece e g j total = .ok d t ∧
      HostWritten s t b ((List.replicate (min 4096 (total - 4096 * j) / 8) (leBytes 8 g.srec)).flatten) := by
  obtain ⟨t, hwrite, hdone⟩ := State.engineWrite_host (e := e) g.cmd
    ((List.replicate (min 4096 (total - 4096 * j) / 8) (leBytes 8 g.srec)).flatten) hup hmaster hdst
  refine ⟨(min 4096 (total - 4096 * j), 0, false), t, ?_, hdone⟩
  rw [State.bytePiece, if_pos hkind]
  simp only [hwrite, Reach.bind]

/-- A piece of bytes moves host memory, and takes its segment out of its ring when it is the last. -/
theorem dmaPiece_moves (hring : s.ringOf e = g :: gs) (hmoves : g.moves) (hgood : .engine e ∉ s.badWords) {d : PieceDone} {a : Nat}
    {data : List Byte} (hpiece : (s.bufferSeen e).bytePiece e g (g.first + g.done) g.len = .ok d u)
    (hdone : HostWritten (s.bufferSeen e) u a data) :
    Gives (.dmaPiece e) s (fun t => t.hmem = Mem.write s.hmem a data ∧ t.dmem = s.dmem ∧
      (s.backlog = [] → t.ringOf e = if g.done + 1 = g.count then gs else { g with done := g.done + 1 } :: gs)) := by
  refine .ofEngine (exec_dmaPiece_done hring hmoves hgood hpiece) fun t ht hhmem hdmem _ => ?_
  have hfront : u.ringOf e = g :: gs := by
    rw [State.ringOf, hdone.rings]
    exact hring
  obtain ⟨hhost, hdev, hleft⟩ := State.pieceDone_leaves hfront d
  exact ⟨(hhmem.trans hhost).trans hdone.hmem, (hdmem.trans hdev).trans hdone.dmem, fun hempty =>
    (ht.ringOf e).trans (hleft (hdone.backlog.trans hempty))⟩

/-- A piece that finds the engine's buffer uncorrectable for the first time. -/
theorem exec_dmaPiece_reissued (hring : s.ringOf e = g :: gs) (hbad : .engine e ∈ s.badWords) (hagain : g.again = false)
    (hroom : (s.ringOf ((e + 1) % 32)).length < 16) :
    exec (.dmaPiece e) s = s.keepEdge (s.keepFabric (s.keepPower (.next
      (({ s.bufferSeen e with dmaRows := (s.bufferSeen e).dmaRows.filter (fun x => x.1 != e) } : State).reissueSeg e g)))) := by
  have hlost : s.badWords.contains (.engine e) = true := by simpa using hbad
  have hfree : ¬ 16 ≤ (s.ringOf ((e + 1) % 32)).length := by omega
  show execDmaPiece e s = _
  rw [execDmaPiece, hring]
  simp only [List.head?_cons, hlost, hagain, hfree, Bool.not_false, Bool.and_self, decide_false, Bool.and_false, Bool.false_eq_true,
    if_false, if_true]
  rfl

/-- The segment goes to the ring of the next engine, and the failure is counted. -/
theorem State.reissueSeg_leaves (hring : s.ringOf e = g :: gs) (hempty : s.backlog = []) :
    (s.reissueSeg e g).ringOf e = gs ∧
      (s.reissueSeg e g).ringOf ((e + 1) % 32) = s.ringOf ((e + 1) % 32) ++ [{ g with again := true }] ∧
      Tidies (s.bump MEM_DMA_ERR 1) (s.reissueSeg e g) := by
  unfold State.reissueSeg
  extract_lets n t
  have hne : n ≠ e := by omega
  have hfront : t.ringOf e = gs := by
    have hdrop : (s.ringOf e).drop 1 = gs := by rw [hring]; rfl
    exact (State.ringOf_setRing_same (s.bump MEM_DMA_ERR 1) e _).trans hdrop
  have hnext : t.ringOf n = s.ringOf n := State.ringOf_setRing_other (s.bump MEM_DMA_ERR 1) _ hne
  have hbacklog : t.backlog = [] := (State.setRing_backlog (s.bump MEM_DMA_ERR 1) e _).trans hempty
  rw [State.dealOut_nil ((State.setRing_backlog t n _).trans hbacklog), State.ringOf_setRing_same, State.ringOf_setRing_other t _ hne.symm,
    hnext]
  exact ⟨hfront, rfl, (Tidies.setRing (s.bump MEM_DMA_ERR 1) e _).trans (.setRing t n _)⟩

theorem dmaPiece_reissues (hring : s.ringOf e = g :: gs) (hbad : .engine e ∈ s.badWords) (hagain : g.again = false)
    (hempty : s.backlog = []) (hroom : (s.ringOf ((e + 1) % 32)).length < 16) :
    Gives (.dmaPiece e) s (fun t => t.ringOf e = gs ∧ t.ringOf ((e + 1) % 32) = s.ringOf ((e + 1) % 32) ++ [{ g with again := true }] ∧
      .engine e ∉ t.badWords ∧ t.reg MEM_DMA_ERR = satAdd (s.reg MEM_DMA_ERR) 1) := by
  refine .ofEngine (exec_dmaPiece_reissued hring hbad hagain hroom) fun t ht _ _ _ => ?_
  obtain ⟨hfront, hnext, htidy⟩ := State.reissueSeg_leaves
    (s := { s.bufferSeen e with dmaRows := (s.bufferSeen e).dmaRows.filter (fun x => x.1 != e) }) hring hempty
  refine ⟨(ht.ringOf e).trans hfront, (ht.ringOf _).trans hnext, ?_, ?_⟩
  · rw [ht.badWords, htidy.badWords]
    exact not_mem_filter_ne _ _
  · rw [ht.reg, htidy.reg _ tidyReg_dmaErr, State.bump, State.reg_setReg, if_pos rfl]
    exact congrArg (satAdd · 1) (State.reg_of_regs rfl _)

end

end

/-! ## The obligation -/

/-- Settles O43, by a lemma for each clause; what ends, drops and deals transfers behind a piece or a page moves no data (`Tidies`). -/
theorem enginesAndDrivesMove : Obligations.EnginesAndDrivesMove := by
  unfold Obligations.EnginesAndDrivesMove
  intro s e
  refine ⟨?copy, ?fill, ?drives, ?linkDown, ?window, ?reissue⟩
  case copy =>
    intro g gs a b hring hup hmaster hkind haction hsrc hdst n hgood
    obtain ⟨d, u, hpiece, hdone⟩ := State.bytePiece_copy (s := s.bufferSeen e) (e := e) (total := g.len) hup hmaster hkind hsrc hdst
    exact dmaPiece_moves hring (.inr ⟨hkind, haction⟩) hgood hpiece hdone
  case fill =>
    intro g gs b hring hup hmaster hkind hdst hgood
    obtain ⟨d, u, hpiece, hdone⟩ := State.bytePiece_fill (s := s.bufferSeen e) (e := e) (total := g.len) hup hmaster hkind hdst
    obtain ⟨t, ht, hhmem, hdmem, -⟩ := dmaPiece_moves hring (.inl hkind) hgood hpiece hdone
    exact ⟨t, ht, hdmem, hhmem⟩
  case drives =>
    intro d x rest htake at'
    refine ⟨fun hflush hmore => ⟨?_, ?_⟩, nvmeCompletion_failed htake, nvmeCmdTimeout_fails htake⟩
    · exact fun t0 y hread hw hk => nvmeCompletion_read htake hflush hread hmore hw hk
    · exact fun bs y hwrite hr hk => nvmeCompletion_write htake hflush hwrite hmore hr hk
  case linkDown => exact fun d hd hup hok => nvmeLinkDown_fails hd hup hok
  case window =>
    intro x n data hpath hboot a
    exact ⟨bar2Access_outside hpath hboot, bar2Access_writes hpath hboot, bar2Access_reads hpath hboot⟩
  case reissue => exact fun g gs hring hbad hagain hempty hroom => dmaPiece_reissues hring hbad hagain hempty hroom

end Sys2Proof.Machine
end

section
/-!
SUPPORT of the proofs. Bytes written under a mask (R346, R359): the runs of a mask cover its set bits, and a masked write of clean
bytes writes those bytes alone.
-/

namespace Sys2Proof.Machine

/-! ## Bytes -/

/-- A byte after a write. -/
theorem Mem.byte_write (m : Mem) (a : Nat) (xs : List Byte) (b : Nat) :
    Mem.byte (Mem.write m a xs) b = if a ≤ b ∧ b < a + xs.length then xs.getD (b - a) 0 else Mem.byte m b := by
  induction xs generalizing m a with
  | nil =>
    rw [if_neg (by rw [List.length_nil]; omega)]
    rfl
  | cons x xs ih =>
    rw [Mem.write, ih, Mem.byte_put, List.length_cons]
    rcases Nat.lt_trichotomy b a with h | rfl | h
    · rw [if_neg (by omega), if_neg (by omega), if_neg (by omega)]
    · rw [if_neg (by omega), if_pos rfl, if_pos (by omega), Nat.sub_self, List.getD_cons_zero]
    · rw [if_neg (c := b = a) (by omega), show b - a = b - (a + 1) + 1 by omega, List.getD_cons_succ]
      exact if_congr (by omega) rfl rfl

/-! ## The runs of a mask -/

theorem lt_length_takeWhile (l : List Bool) (j : Nat) : j < (l.takeWhile id).length ↔ ∀ i ≤ j, l.getD i false = true := by
  induction l generalizing j with
  | nil => exact ⟨fun h => absurd h (Nat.not_lt_zero _), fun h => absurd (h 0 (Nat.zero_le _)) (by simp)⟩
  | cons b l ih =>
    cases b with
    | false =>
      rw [List.takeWhile_cons_of_neg (by decide)]
      exact ⟨fun h => absurd h (Nat.not_lt_zero _), fun h => absurd (h 0 (Nat.zero_le _)) (by simp)⟩
    | true =>
      rw [List.takeWhile_cons_of_pos rfl, List.length_cons]
      cases j with
      | zero =>
        refine ⟨fun _ i hi => ?_, fun _ => Nat.succ_pos _⟩
        rw [Nat.le_zero.1 hi]
        rfl
      | succ j =>
        rw [Nat.succ_lt_succ_iff, ih]
        refine ⟨fun h i hi => ?_, fun h i hi => h (i + 1) (by omega)⟩
        cases i with
        | zero => rfl
        | succ i => exact h i (by omega)

theorem getD_drop (l : List Bool) (i j : Nat) : (l.drop i).getD j false = l.getD (i + j) false := by
  simp [List.getD_eq_getElem?_getD, List.getElem?_drop]

theorem mem_maskRuns (mask : List Bool) (i n : Nat) : (i, n) ∈ maskRuns mask ↔ i < mask.length ∧
    (mask.getD i false = true ∧ (i = 0 ∨ mask.getD (i - 1) false = false)) ∧ n = ((mask.drop i).takeWhile id).length := by
  unfold maskRuns
  rw [List.mem_filterMap]
  constructor
  · rintro ⟨k, hk, h⟩
    split at h
    · next hc =>
      injection h with h
      injection h with hi hn
      subst hi
      exact ⟨List.mem_range.1 hk, by simpa using hc, hn.symm⟩
    · exact nomatch h
  · rintro ⟨hi, hstart, rfl⟩
    refine ⟨i, List.mem_range.2 hi, if_pos ?_⟩
    simpa using hstart

/-- A run lies in the mask. -/
theorem maskRuns_inside {mask : List Bool} {r : Nat × Nat} (h : r ∈ maskRuns mask) : r.1 + r.2 ≤ mask.length := by
  obtain ⟨hi, -, hn⟩ := (mem_maskRuns mask r.1 r.2).1 h
  have hle := (List.takeWhile_sublist (p := id) (l := mask.drop r.1)).length_le
  rw [← hn, List.length_drop] at hle
  omega

/-- The bits that a run covers. -/
theorem maskRuns_covers {mask : List Bool} {r : Nat × Nat} (h : r ∈ maskRuns mask) (j : Nat) (hj : r.1 ≤ j) :
    j < r.1 + r.2 ↔ ∀ i, r.1 ≤ i → i ≤ j → mask.getD i false = true := by
  obtain ⟨-, -, hn⟩ := (mem_maskRuns mask r.1 r.2).1 h
  have hlt : j < r.1 + r.2 ↔ j - r.1 < ((mask.drop r.1).takeWhile id).length := by omega
  rw [hlt, lt_length_takeWhile]
  refine ⟨fun h i hi hij => ?_, fun h i hi => ?_⟩
  · have hbit := h (i - r.1) (by omega)
    rwa [getD_drop, Nat.add_sub_cancel' hi] at hbit
  · rw [getD_drop]
    exact h _ (by omega) (by omega)

/-- The runs cover the set bits, and no other. -/
theorem exists_maskRun (mask : List Bool) (j : Nat) :
    (∃ r ∈ maskRuns mask, r.1 ≤ j ∧ j < r.1 + r.2) ↔ mask.getD j false = true := by
  constructor
  · rintro ⟨r, hr, hj, hlt⟩
    exact (maskRuns_covers hr j hj).1 hlt j hj (Nat.le_refl j)
  · have hstart (i : Nat) (hset : mask.getD i false = true) (hfirst : i = 0 ∨ mask.getD (i - 1) false = false) :
        ∃ r ∈ maskRuns mask, r.1 ≤ i ∧ i < r.1 + r.2 := by
      have hin : i < mask.length := by
        by_contra hout
        rw [List.getD_eq_default _ _ (Nat.le_of_not_lt hout)] at hset
        exact nomatch hset
      have hrun := (mem_maskRuns mask i _).2 ⟨hin, ⟨hset, hfirst⟩, rfl⟩
      refine ⟨_, hrun, Nat.le_refl i, (maskRuns_covers hrun i (Nat.le_refl i)).2 fun k hk hki => ?_⟩
      rwa [Nat.le_antisymm hki hk]
    induction j with
    | zero => exact fun hset => hstart 0 hset (.inl rfl)
    | succ j ih =>
      intro hset
      cases hprev : mask.getD j false with
      | false => exact hstart (j + 1) hset (.inr hprev)
      | true =>
        obtain ⟨r, hr, hj, hlt⟩ := ih hprev
        refine ⟨r, hr, by omega, (maskRuns_covers hr (j + 1) (by omega)).2 fun i hi hij => ?_⟩
        rcases Nat.lt_or_eq_of_le hij with h | rfl
        · exact (maskRuns_covers hr j hj).1 hlt i hi (by omega)
        · exact hset

/-! ## A masked write -/

/-- The writes of the runs of a mask, one after another (`State.maskWrite`). -/
def State.writeRuns (a : Nat) (data : List Byte) (rs : List (Nat × Nat)) (acc : Nat × State) : Nat × State :=
  rs.foldl (fun acc r =>
    let x := acc.2.memWrite (a + r.1) ((data.drop r.1).take r.2)
    (if acc.1 = stOk then x.1 else acc.1, x.2)) acc

theorem State.maskWrite_eq (s : State) (a : Nat) (data : List Byte) (mask : List Bool) :
    s.maskWrite a data mask = State.writeRuns a data (maskRuns mask) (stOk, s) := rfl

/-- What the runs of a mask leave of clean bytes: each run's part of the data is written, and nothing else. -/
theorem State.writeRuns_writes {s : State} {a : Nat} {data : List Byte} {rs : List (Nat × Nat)}
    (hin : ∀ r ∈ rs, r.1 + r.2 ≤ data.length) (hclean : ∀ r ∈ rs, Clean s (a + r.1) r.2) :
    ∃ t, State.writeRuns a data rs (stOk, s) = (stOk, t) ∧ Served s t ∧ ∀ b, Mem.byte t.dmem b =
      if ∃ r ∈ rs, a + r.1 ≤ b ∧ b < a + r.1 + r.2 then data.getD (b - a) 0 else Mem.byte s.dmem b := by
  induction rs generalizing s with
  | nil => exact ⟨s, rfl, .refl s, fun b => by simp⟩
  | cons r rs ih =>
    have hrin := hin r List.mem_cons_self
    have hlen : ((data.drop r.1).take r.2).length = r.2 := by rw [List.length_take, List.length_drop]; omega
    obtain ⟨u, hwrite, hu, hbytes, -⟩ := State.memWrite_writes (data := (data.drop r.1).take r.2) (by
      rw [hlen]
      exact hclean r List.mem_cons_self)
    obtain ⟨t, hrest, ht, hrestBytes⟩ := ih (s := u) (fun x hx => hin x (List.mem_cons_of_mem _ hx))
      (fun x hx => hu.clean (hclean x (List.mem_cons_of_mem _ hx)))
    refine ⟨t, ?_, hu.trans ht, fun b => ?_⟩
    · rw [State.writeRuns, List.foldl_cons, hwrite]
      exact hrest
    · rw [hrestBytes, hbytes, Mem.byte_write, hlen]
      by_cases hlater : ∃ x ∈ rs, a + x.1 ≤ b ∧ b < a + x.1 + x.2
      · rw [if_pos hlater, if_pos ⟨_, List.mem_cons_of_mem _ hlater.choose_spec.1, hlater.choose_spec.2⟩]
      rw [if_neg hlater]
      by_cases hhere : a + r.1 ≤ b ∧ b < a + r.1 + r.2
      · rw [if_pos hhere, if_pos ⟨r, List.mem_cons_self, hhere⟩]
        have hat : r.1 + (b - (a + r.1)) = b - a := by omega
        simp only [List.getD_eq_getElem?_getD]
        rw [List.getElem?_take_of_lt (by omega), List.getElem?_drop, hat]
      · rw [if_neg hhere, if_neg]
        rintro ⟨x, hx, hxb⟩
        rcases List.mem_cons.1 hx with rfl | hx
        · exact hhere hxb
        · exact hlater ⟨x, hx, hxb⟩

/-! ## A part of a row -/

/-- The range of tier 1, and of tier 2 (R313). -/
theorem State.addrKind_tier1 (s : State) (a : Nat) : s.addrKind a = .tier1 ↔ a < 0x2D00000000 := by
  refine ⟨fun h => ?_, fun h => if_pos h⟩
  by_contra hout
  simp only [State.addrKind, if_neg hout] at h
  split_ifs at h

theorem State.addrKind_tier2 (s : State) (a : Nat) : s.addrKind a = .tier2 ↔ 0x20000000000 ≤ a ∧ a < 0x20000000000 + s.tier2Bytes := by
  constructor
  · intro h
    by_contra hout
    simp only [State.addrKind, if_neg hout] at h
    split_ifs at h
  · intro h
    rw [State.addrKind, if_neg (by omega), if_neg (by omega), if_neg (by omega), if_pos h]

theorem AddrKind.same_tier1 {k : AddrKind} (h : AddrKind.same .tier1 k = true) : k = .tier1 := by
  cases k <;> simp_all [AddrKind.same]

theorem AddrKind.same_tier2 {k : AddrKind} (h : AddrKind.same .tier2 k = true) : k = .tier2 := by
  cases k <;> simp_all [AddrKind.same]

/-- The byte of a row whose ends lie in one tier. -/
theorem State.addrKind_inRow {s : State} {row o : Nat} (hkind : s.addrKind (64 * row) = .tier1 ∨ s.addrKind (64 * row) = .tier2)
    (hin : s.inRegion (64 * row) 64 = true) (ho : o < 64) : s.addrKind (64 * row + o) = s.addrKind (64 * row) := by
  have hlast : (s.addrKind (64 * row)).same (s.addrKind (64 * row + 63)) = true := hin
  rcases hkind with hk | hk <;> rw [hk] at hlast ⊢
  · have hend := AddrKind.same_tier1 hlast
    rw [State.addrKind_tier1] at hend ⊢
    omega
  · have hend := AddrKind.same_tier2 hlast
    rw [State.addrKind_tier2] at hk hend ⊢
    omega

/-- The units of a tier are its rows. -/
theorem State.eccUnits_inRow {s : State} {row o n : Nat} (hkind : s.addrKind (64 * row + o) = .tier1 ∨ s.addrKind (64 * row + o) = .tier2)
    (hin : o + n ≤ 64) (hpos : 0 < n) : s.eccUnits (64 * row + o) n = [row] := by
  have hfirst : (64 * row + o) / 64 = row := by omega
  have hlast : (64 * row + o + n - 1) / 64 = row := by omega
  rcases hkind with hk | hk <;> simp [State.eccUnits, hk, hfirst, hlast, hpos.ne']

/-- A part of a clean row of a tier is clean. -/
theorem Clean.part {s : State} {row o n : Nat} (hkind : s.addrKind (64 * row) = .tier1 ∨ s.addrKind (64 * row) = .tier2)
    (hsame : s.addrKind (64 * row + o) = s.addrKind (64 * row)) (h : Clean s (64 * row) 64) (hin : o + n ≤ 64) :
    Clean s (64 * row + o) n := by
  have hsub : ∀ u ∈ s.eccUnits (64 * row + o) n, u ∈ s.eccUnits (64 * row) 64 := by
    intro u hu
    rcases Nat.eq_zero_or_pos n with rfl | hpos
    · rw [State.eccUnits, if_pos rfl] at hu
      exact nomatch hu
    · rw [State.eccUnits_inRow (hsame ▸ hkind) hin hpos] at hu
      have hrow : s.eccUnits (64 * row) 64 = [row] := State.eccUnits_inRow (o := 0) hkind (by decide) (by decide)
      rwa [hrow]
  obtain ⟨hunits, hedc⟩ := h
  refine ⟨fun u hu => ?_, fun ht u hu => hedc (hsame.symm.trans ht) u (hsub u hu)⟩
  have herr := hunits u (hsub u hu)
  simp only [State.unitErr, hsame] at herr ⊢
  exact herr

/-- A masked write of a clean row. -/
theorem State.maskWrite_writes {s : State} {row : Nat} {data : List Byte} {mask : List Bool}
    (hkind : s.addrKind (64 * row) = .tier1 ∨ s.addrKind (64 * row) = .tier2) (hin : s.inRegion (64 * row) 64 = true)
    (h : Clean s (64 * row) 64) (hdata : data.length = 64) (hmask : mask.length = 64) :
    ∃ t, s.maskWrite (64 * row) data mask = (stOk, t) ∧ Served s t ∧ ∀ b, Mem.byte t.dmem b =
      if 64 * row ≤ b ∧ mask.getD (b - 64 * row) false = true then data.getD (b - 64 * row) 0 else Mem.byte s.dmem b := by
  have hinside (r : Nat × Nat) (hr : r ∈ maskRuns mask) : r.1 + r.2 ≤ 64 := hmask ▸ maskRuns_inside hr
  have hclean (r : Nat × Nat) (hr : r ∈ maskRuns mask) : Clean s (64 * row + r.1) r.2 := by
    obtain ⟨hstart, -, -⟩ := (mem_maskRuns mask r.1 r.2).1 hr
    exact h.part hkind (State.addrKind_inRow hkind hin (hmask ▸ hstart)) (hinside r hr)
  obtain ⟨t, hwrite, hserved, hbytes⟩ := State.writeRuns_writes (fun r hr => hdata ▸ hinside r hr) hclean
  refine ⟨t, (s.maskWrite_eq _ data mask).trans hwrite, hserved, fun b => (hbytes b).trans (if_congr ?_ rfl rfl)⟩
  rw [← exists_maskRun]
  constructor
  · rintro ⟨r, hr, hb⟩
    exact ⟨by omega, r, hr, by omega⟩
  · rintro ⟨hb, r, hr, hj⟩
    exact ⟨r, hr, by omega⟩

end Sys2Proof.Machine
end

section
/-!
Messages at their target (R275, R358 to R362): writes, reads, atomics, submissions and heads of remote queues.
-/

namespace Sys2Proof.Machine

section
variable {s t u v : State} {i : Nat} {a : Arrived} {m : Msg}

/-! ## A message taken -/

theorem withMsg_of {ty : Nat} (hi : s.inbox[i]? = some a) (hm : a.frame.msgs = [m]) (hty : a.frame.ty = ty) (f : Arrived → Msg → State) :
    withMsg ty i s f = .next (f a m) := by
  simp only [withMsg, hi, hm]
  exact if_pos hty

/-- The message has left the inbox, and nothing else has left or come yet. -/
structure Taking (s : State) (a : Arrived) (t : State) : Prop where
  inbox : t.inbox = s.inbox.erase a
  egress : t.egress = s.egress
  id : t.reg FAB_ID = s.reg FAB_ID
  now : t.now = s.now

theorem Taking.took (s : State) (a : Arrived) : Taking s a (s.took a) := ⟨rfl, rfl, State.reg_of_regs rfl _, rfl⟩

theorem Taking.served (h : Taking s a u) (hv : Served u v) : Taking s a v := by
  have hid : v.reg FAB_ID = u.reg FAB_ID := hv.reg _ (not_servesReg_below (by decide) (by decide) (by decide) (by decide))
  obtain ⟨_, _, _, _, _, _, _, rfl⟩ := hv.parts
  exact ⟨h.inbox, h.egress, hid.trans h.id, h.now⟩

theorem Taking.logged (h : Taking s a u) (hv : OnlyLogged u v) (hid : v.reg FAB_ID = u.reg FAB_ID) : Taking s a v := by
  obtain ⟨_, _, _, _, rfl⟩ := hv
  exact ⟨h.inbox, h.egress, hid.trans h.id, h.now⟩

/-- The message has left the inbox, and its answer goes out. -/
def Answered (s : State) (a : Arrived) (ty row len aux : Nat) (data : List Byte) (t : State) : Prop :=
  t.inbox = s.inbox.erase a ∧ t.egress = s.egress ++
    [⟨⟨ty, a.frame.tc, 0, s.devId, a.frame.src, a.frame.issuer, 0, 0, [⟨row, len, aux, data⟩]⟩, none, none, false, s.now⟩]

theorem Answered.reply (h : Taking s a u) (ty row len aux : Nat) (data : List Byte) :
    Answered s a ty row len aux data (u.reply a.frame ty row len aux data) := by
  refine ⟨h.inbox, ?_⟩
  show u.egress ++ [⟨⟨ty, a.frame.tc, 0, u.fld FAB_ID 13 0, a.frame.src, a.frame.issuer, 0, 0, [⟨row, len, aux, data⟩]⟩, none, none, false,
    u.now⟩] = _
  rw [h.egress, h.now, State.fld_of_reg h.id]
  rfl

theorem Answered.framed {ty row len aux : Nat} {data : List Byte} (h : Answered s a ty row len aux data u) (ht : Unframed u t) :
    Answered s a ty row len aux data t :=
  ⟨ht.inbox.trans h.1, ht.egress.trans h.2⟩

/-! ## Writes -/

/-- A write to a tier that no atomic operation meets first. -/
theorem State.serveWrite_tier {data : List Byte} {mask : List Bool} (hdev : s.dev ≠ devFaulted) (hdata : data.length ≠ 0)
    (hin : s.inRegion (64 * m.row) data.length = true) (hk : s.addrKind (64 * m.row) = .tier1 ∨ s.addrKind (64 * m.row) = .tier2)
    (harrive : m.aux.testBit 10 = false) (hproduce : m.aux.testBit 9 = false) (hfree : s.atomFirst (64 * m.row) data.length = false) {st : Nat}
    (hwrite : (if mask.isEmpty then (s.took a).memWrite (64 * m.row) data else (s.took a).maskWrite (64 * m.row) data mask) = (st, t)) :
    s.serveWrite a m data mask = t.wackFor a.frame st := by
  have hfull : data.isEmpty = false := by
    cases data with
    | nil => exact absurd rfl hdata
    | cons => rfl
  rcases hk with hk | hk <;> simp only [State.serveWrite, hdev, hfull, hin, hk, harrive, hproduce, hfree, hwrite, Bool.not_true,
    Bool.or_self, Bool.false_eq_true, if_false]

theorem Clean.took {b n : Nat} (h : Clean s b n) (a : Arrived) : Clean (s.took a) b n := h

/-- Whole rows are stored, and acknowledged. -/
theorem writeMsg_stores (hi : s.inbox[i]? = some a) (hm : a.frame.msgs = [m]) (hty : a.frame.ty = 1) (hdev : s.dev ≠ devFaulted)
    (hk : s.addrKind (64 * m.row) = .tier1 ∨ s.addrKind (64 * m.row) = .tier2)
    (hin : s.inRegion (64 * m.row) (64 * (m.len + 1)) = true) (hlen : m.payload.length = 64 * (m.len + 1))
    (harrive : m.aux.testBit 10 = false) (hproduce : m.aux.testBit 9 = false)
    (hfree : s.atomFirst (64 * m.row) (64 * (m.len + 1)) = false) (hclean : Clean s (64 * m.row) (64 * (m.len + 1))) :
    Gives (.writeMsg i) s (fun t => Answered s a 7 1 0 0 [] t ∧ Mem.read t.dmem (64 * m.row) (64 * (m.len + 1)) = m.payload ∧
      (∀ b, b < 64 * m.row ∨ 64 * m.row + 64 * (m.len + 1) ≤ b → Mem.byte t.dmem b = Mem.byte s.dmem b)) := by
  obtain ⟨u, hwrite, hserved, hbytes, -⟩ := State.memWrite_writes (s := s.took a) (data := m.payload) (by
    rw [hlen]
    exact hclean.took a)
  have hexec : exec (.writeMsg i) s = s.keepEdge (s.keepFabric (s.keepPower (.next (u.wackFor a.frame stOk)))) := by
    show execWriteMsg i s = _
    rw [execWriteMsg, withMsg_of hi hm hty, if_pos hlen,
      State.serveWrite_tier hdev (by omega) (hlen ▸ hin) hk harrive hproduce (hlen ▸ hfree)
        (mask := []) ((if_pos rfl).trans hwrite)]
  refine .ofEngine hexec fun t ht _ hdmem _ => ?_
  have hdmem' : t.dmem = Mem.write s.dmem (64 * m.row) m.payload := hdmem.trans hbytes
  refine ⟨(Answered.reply ((Taking.took s a).served hserved) _ _ _ _ _).framed ht, ?_, fun b hb => ?_⟩
  · rw [hdmem', ← hlen, Mem.read_write]
  · rw [hdmem', Mem.byte_write_outside _ _ _ (hlen ▸ hb)]

theorem getD_map_range (f : Nat → Bool) (n j : Nat) : ((List.range n).map f).getD j false = (decide (j < n) && f j) := by
  by_cases h : j < n <;> simp [List.getD_eq_getElem?_getD, h]

/-- The bytes of the mask are stored, and acknowledged. -/
theorem writeP_stores (hi : s.inbox[i]? = some a) (hm : a.frame.msgs = [m]) (hty : a.frame.ty = 2) (hdev : s.dev ≠ devFaulted)
    (hk : s.addrKind (64 * m.row) = .tier1 ∨ s.addrKind (64 * m.row) = .tier2) (hin : s.inRegion (64 * m.row) 64 = true)
    (hlen : m.payload.length = 72) (hone : m.len = 0) (harrive : m.aux.testBit 10 = false) (hproduce : m.aux.testBit 9 = false)
    (hfree : s.atomFirst (64 * m.row) 64 = false) (hclean : Clean s (64 * m.row) 64) :
    Gives (.writeP i) s (fun t => Answered s a 7 1 0 0 [] t ∧ (∀ b, Mem.byte t.dmem b =
      if 64 * m.row ≤ b ∧ b < 64 * m.row + 64 ∧ (leNat (m.payload.drop 64)).testBit (b - 64 * m.row) = true then
        m.payload.getD (b - 64 * m.row) 0 else Mem.byte s.dmem b)) := by
  have hrow : (m.payload.take 64).length = 64 := by rw [List.length_take, hlen]; rfl
  obtain ⟨u, hwrite, hserved, hbytes⟩ := State.maskWrite_writes (s := s.took a) (data := m.payload.take 64)
    (mask := (List.range 64).map (fun b => (leNat (m.payload.drop 64)).testBit b)) hk hin (hclean.took a) hrow (by simp)
  have hexec : exec (.writeP i) s = s.keepEdge (s.keepFabric (s.keepPower (.next (u.wackFor a.frame stOk)))) := by
    show execWriteP i s = _
    rw [execWriteP, withMsg_of hi hm hty, if_pos ⟨hlen, hone⟩,
      State.serveWrite_tier hdev (by omega) (by rwa [hrow]) hk harrive hproduce (by rwa [hrow]) ((if_neg (by simp)).trans hwrite)]
  refine .ofEngine hexec fun t ht _ hdmem _ => ?_
  refine ⟨(Answered.reply ((Taking.took s a).served hserved) _ _ _ _ _).framed ht, fun b => ?_⟩
  have hu : t.dmem = u.dmem := hdmem
  rw [hu, hbytes, getD_map_range]
  simp only [Bool.and_eq_true, decide_eq_true_eq]
  by_cases hb : 64 * m.row ≤ b ∧ b < 64 * m.row + 64
  · obtain ⟨hlow, hhigh⟩ := hb
    have hj : b - 64 * m.row < 64 := by omega
    simp only [hlow, hhigh, hj, true_and, List.getD_eq_getElem?_getD, List.getElem?_take_of_lt hj]
    rfl
  · have hout (p : Prop) : ¬ (64 * m.row ≤ b ∧ b < 64 * m.row + 64 ∧ p) := by tauto
    have hout' (p : Prop) : ¬ (64 * m.row ≤ b ∧ b - 64 * m.row < 64 ∧ p) := by omega
    rw [if_neg (hout _), if_neg (hout' _)]
    rfl

/-! ## Reads -/

/-- A read of a tier that no atomic operation meets first. -/
theorem readMsg_reads (hi : s.inbox[i]? = some a) (hm : a.frame.msgs = [m]) (hty : a.frame.ty = 3) (hdev : s.dev ≠ devFaulted)
    (hin : s.inRegion (64 * m.row) (64 * (m.len + 1)) = true) (hconsume : m.aux.testBit 10 = false)
    (hk : s.addrKind (64 * m.row) = .tier1 ∨ s.addrKind (64 * m.row) = .tier2)
    (hfree : s.atomFirst (64 * m.row) (64 * (m.len + 1)) = false) (hclean : Clean s (64 * m.row) (64 * (m.len + 1))) :
    Gives (.readMsg i) s (fun t =>
      Answered s a 4 stOk m.len (m.aux % 1024) (Mem.read s.dmem (64 * m.row) (64 * (m.len + 1))) t ∧ t.dmem = s.dmem) := by
  obtain ⟨u, hread, hserved, -⟩ := State.memRead_clean (s := s.took a) (hclean.took a)
  have hexec : exec (.readMsg i) s = s.inCores (.next
      (u.reply a.frame 4 stOk m.len (m.aux % 1024) (Mem.read s.dmem (64 * m.row) (64 * (m.len + 1))))) := by
    have hread' : (s.took a).memRead (64 * m.row) (64 * (m.len + 1)) = (stOk, Mem.read s.dmem (64 * m.row) (64 * (m.len + 1)), u) := hread
    show execReadMsg i s = _
    rw [execReadMsg, withMsg_of hi hm hty]
    rcases hk with hk | hk <;> simp only [hdev, hin, hk, hconsume, hfree, hread', Bool.not_true, Bool.false_eq_true, if_false]
  exact .ofInCores hexec fun t ht hdmem => ⟨(Answered.reply ((Taking.took s a).served hserved) _ _ _ _ _).framed ht, hdmem⟩

/-- A read of a core's memory whose port has answered. -/
theorem readMsg_answers (hi : s.inbox[i]? = some a) (hm : a.frame.msgs = [m]) (hty : a.frame.ty = 3) (hdev : s.dev ≠ devFaulted)
    (hin : s.inRegion (64 * m.row) (64 * (m.len + 1)) = true) (hconsume : m.aux.testBit 10 = false) {c : Nat} {k : SpmMem} {o : Nat}
    (hk : s.addrKind (64 * m.row) = .spm c k o) {x : MeshAns}
    (hx : s.meshOut.find? (fun y => y.issuer == a.frame.issuer && y.device == a.frame.src && y.reqTag == m.aux % 1024) = some x) :
    Gives (.readMsg i) s (fun t => Answered s a 4 x.status m.len (m.aux % 1024) (if x.status = stOk then x.data else []) t ∧
      t.meshOut = s.meshOut.erase x) := by
  have hlen : 64 * (m.len + 1) / 64 - 1 = m.len := by omega
  have hany : s.meshOut.any (fun y => y.issuer == a.frame.issuer && y.device == a.frame.src && y.reqTag == m.aux % 1024) = true := by
    have hmine := List.find?_some hx
    exact List.any_eq_true.2 ⟨x, List.mem_of_find?_eq_some hx, hmine⟩
  have hexec : exec (.readMsg i) s = s.inCores (.next ((({ s with meshOut := s.meshOut.erase x } : State).took a).reply a.frame 4 x.status
      m.len (m.aux % 1024) (if x.status = stOk then x.data else []))) := by
    show execReadMsg i s = _
    rw [execReadMsg, withMsg_of hi hm hty]
    simp only [hdev, hin, hk, hconsume, State.serveMesh, hany, hx, hlen, Nat.mod_mod, Bool.not_true, Bool.false_eq_true, if_false, if_true]
  have htaking : Taking s a (({ s with meshOut := s.meshOut.erase x } : State).took a) := ⟨rfl, rfl, State.reg_of_regs rfl _, rfl⟩
  exact .ofInCores hexec fun t ht _ => ⟨(Answered.reply htaking _ _ _ _ _).framed ht, ht.meshOut⟩

/-! ## Atomic operations -/

theorem State.withAtom_took (s : State) (a : Arrived) (r : AtomReq) : (s.took a).withAtom r = s.withAtom r := rfl

/-- A good atomic operation joins those of its unit. -/
theorem atomic_joins (hi : s.inbox[i]? = some a) (hm : a.frame.msgs = [m]) (hty : a.frame.ty = 5) (hdev : s.dev ≠ devFaulted) {op : AtomOp}
    (hop : atomOp (bitsOf (entryNat m.payload 0 8) 51 48) = some op) (hlen : m.payload.length = 24) (hw : entryNat m.payload 0 8 < 2 ^ 54)
    (hok : s.atomTargetOk (bitsOf (entryNat m.payload 0 8) 47 0) op ((entryNat m.payload 0 8).testBit 53) = true) :
    Gives (.atomic i) s (fun t => t.inbox = s.inbox.erase a ∧ t.egress = s.egress ∧ t.atoms = s.withAtom
      ⟨bitsOf (entryNat m.payload 0 8) 47 0, op, (entryNat m.payload 0 8).testBit 52, (entryNat m.payload 0 8).testBit 53,
        entryNat m.payload 8 8, entryNat m.payload 16 8, .fabric (a.port.getD 0) a.frame, s.now⟩) := by
  have hzero : ¬ (entryNat m.payload 0 8 / 2 ^ 54 ≠ 0) := not_not.2 (Nat.div_eq_of_lt hw)
  have hexec : exec (.atomic i) s = s.inRegs (.next ((s.took a).sendAtom
      ⟨bitsOf (entryNat m.payload 0 8) 47 0, op, (entryNat m.payload 0 8).testBit 52, (entryNat m.payload 0 8).testBit 53,
        entryNat m.payload 8 8, entryNat m.payload 16 8, .fabric (a.port.getD 0) a.frame, s.now⟩)) := by
    show execAtomic i s = _
    rw [execAtomic, withMsg_of hi hm hty]
    simp only [if_neg hdev, hop, hlen, hzero, hok, ne_eq, not_true_eq_false, or_self, if_false]
  exact .ofInRegs hexec fun t ht => ⟨ht.inbox, ht.egress, ht.atoms.trans (State.withAtom_took s a _)⟩

/-- An operation that there is none of is refused. -/
theorem atomic_refused (hi : s.inbox[i]? = some a) (hm : a.frame.msgs = [m]) (hty : a.frame.ty = 5) (hdev : s.dev ≠ devFaulted)
    (hop : atomOp (bitsOf (entryNat m.payload 0 8) 51 48) = none) :
    Gives (.atomic i) s (fun t => t.atoms = s.atoms ∧ Answered s a 6 stBadField 0 (m.aux % 1024) (atomResponse stBadField 0) t) := by
  have hexec : exec (.atomic i) s = s.inRegs (.next
      ((s.took a).reply a.frame 6 stBadField 0 (m.aux % 1024) (atomResponse stBadField 0))) := by
    show execAtomic i s = _
    rw [execAtomic, withMsg_of hi hm hty]
    simp only [if_neg hdev, hop, State.refuseMsg, hty]
    rfl
  exact .ofInRegs hexec fun t ht => ⟨ht.atoms, (Answered.reply (Taking.took s a) _ _ _ _ _).framed ht⟩

/-! ## Remote queues -/

/-- A submission that the queue accepts, where no atomic operation meets the entry first. -/
theorem qsubmit_accepted (hi : s.inbox[i]? = some a) (hm : a.frame.msgs = [m]) (hty : a.frame.ty = 8) (hdev : s.dev ≠ devFaulted)
    (hlen : m.payload.length = 64) (hok : s.qsubmitReason (m.row % 64) a.frame.src = 0)
    (hfree : s.atomFirst (s.sqBase (m.row % 64) % 2 ^ 48 + 64 * s.sqTail (m.row % 64)) 64 = false)
    (hclean : Clean s (s.sqBase (m.row % 64) % 2 ^ 48 + 64 * s.sqTail (m.row % 64)) 64) :
    Gives (.qsubmit i) s (fun t => Answered s a 9 0 0 (m.aux % 1024) [] t ∧
      Mem.read t.dmem (s.sqBase (m.row % 64) % 2 ^ 48 + 64 * s.sqTail (m.row % 64)) 64 = m.payload ∧
      t.reg (CMDQ_SQDB (m.row % 64)) = BitVec.ofNat 32 ((s.sqTail (m.row % 64) + 1) % s.sqSize (m.row % 64)) ∧
      (∀ b, b < s.sqBase (m.row % 64) % 2 ^ 48 + 64 * s.sqTail (m.row % 64) ∨
        s.sqBase (m.row % 64) % 2 ^ 48 + 64 * s.sqTail (m.row % 64) + 64 ≤ b → Mem.byte t.dmem b = Mem.byte s.dmem b)) := by
  obtain ⟨u, hwrite, hserved, hbytes, -⟩ := State.memWrite_writes (s := s.took a) (data := m.payload) (by
    rw [hlen]
    exact hclean.took a)
  have hexec : exec (.qsubmit i) s = s.keepEdge (s.keepFabric (s.keepPower (s.keepCores (.next
      ((u.setReg (CMDQ_SQDB (m.row % 64)) (BitVec.ofNat 32 ((s.sqTail (m.row % 64) + 1) % s.sqSize (m.row % 64)))).reply
        a.frame 9 0 0 (m.aux % 1024) []))))) := by
    have hread : ¬ (s.qsubmitReason (m.row % 64) a.frame.src = 0 ∧
        s.atomFirst (s.sqBase (m.row % 64) % 2 ^ 48 + 64 * s.sqTail (m.row % 64)) 64 = true) := fun h =>
      absurd (hfree.symm.trans h.2) (by decide)
    show execQsubmit i s = _
    rw [execQsubmit, withMsg_of hi hm hty]
    simp only [if_neg hdev, hlen, ne_eq, not_true_eq_false, if_false, if_neg hread, if_pos hok, hwrite]
  have htaking : Taking s a (u.setReg (CMDQ_SQDB (m.row % 64)) (BitVec.ofNat 32 ((s.sqTail (m.row % 64) + 1) % s.sqSize (m.row % 64)))) :=
    ((Taking.took s a).served hserved).logged (.setReg _ _ _) ((State.reg_setReg _ _ _ _).trans (if_neg (by simp only [FAB_ID, CMDQ_SQDB]; omega)))
  refine .ofWindow hexec fun t ht _ hdmem => ?_
  have hdmem' : t.dmem = Mem.write s.dmem (s.sqBase (m.row % 64) % 2 ^ 48 + 64 * s.sqTail (m.row % 64)) m.payload := hdmem.trans hbytes
  refine ⟨(Answered.reply htaking _ _ _ _ _).framed ht, ?_, ?_, fun b hb => ?_⟩
  · rw [hdmem', ← hlen, Mem.read_write]
  · exact (ht.reg _).trans ((State.reg_setReg _ _ _ _).trans (if_pos rfl))
  · rw [hdmem', Mem.byte_write_outside _ _ _ (hlen ▸ hb)]

/-- What a refused submission leaves: a queue that is full refuses without a violation. -/
def State.submitRefused (s : State) (q r : Nat) : State := if r = 4 then s else s.violation 5 (logSource 9 q)

theorem State.submitRefused_logged (s : State) (q r : Nat) : OnlyLogged s (s.submitRefused q r) :=
  ite_keeps (OnlyLogged s) (.refl s) (.violation _ _ _)

/-- A submission that the queue refuses. -/
theorem qsubmit_refused (hi : s.inbox[i]? = some a) (hm : a.frame.msgs = [m]) (hty : a.frame.ty = 8) (hdev : s.dev ≠ devFaulted)
    (hlen : m.payload.length = 64) {r : Nat} (hr : s.qsubmitReason (m.row % 64) a.frame.src = r) (hbad : r ≠ 0) :
    Gives (.qsubmit i) s (fun t => Answered s a 9 r 0 (m.aux % 1024) [] t ∧ t.dmem = s.dmem ∧
      t.reg (CMDQ_SQDB (m.row % 64)) = s.reg (CMDQ_SQDB (m.row % 64)) ∧ (r ≠ 4 → Counted s t 5)) := by
  have hexec : exec (.qsubmit i) s = s.keepEdge (s.keepFabric (s.keepPower (s.keepCores (.next
      (((s.took a).submitRefused (m.row % 64) r).reply a.frame 9 r 0 (m.aux % 1024) []))))) := by
    have hread (b : Bool) : ¬ (s.qsubmitReason (m.row % 64) a.frame.src = 0 ∧ b = true) := fun h => hbad (hr.symm.trans h.1)
    have hno : ¬ s.qsubmitReason (m.row % 64) a.frame.src = 0 := fun h => hbad (hr.symm.trans h)
    show execQsubmit i s = _
    rw [execQsubmit, withMsg_of hi hm hty]
    simp only [if_neg hdev, hlen, ne_eq, not_true_eq_false, if_false, if_neg (hread _), if_neg hno]
    rw [hr]
    rfl
  have hlogged := (s.took a).submitRefused_logged (m.row % 64) r
  have hreg {b : Nat} (hb : b < 0x500000 ∨ 0x600000 ≤ b) (hevt : b ≠ CMDQ_EVT) :
      ((s.took a).submitRefused (m.row % 64) r).reg b = s.reg b :=
    ite_keeps (fun t : State => t.reg b = s.reg b) (State.reg_of_regs rfl b)
      ((State.violation_reg_apart _ _ (by decide) hb hevt).trans (State.reg_of_regs rfl b))
  have htaking := (Taking.took s a).logged hlogged ((hreg (.inr (by decide)) (by decide)).trans (State.reg_of_regs rfl _).symm)
  refine .ofWindow hexec fun t ht _ hdmem => ⟨(Answered.reply htaking _ _ _ _ _).framed ht, ?_, ?_, fun hfull => ?_⟩
  · have hsame : ((s.took a).submitRefused (m.row % 64) r).dmem = s.dmem := by
      obtain ⟨_, _, _, _, hparts⟩ := hlogged
      rw [hparts]
      rfl
    exact hdmem.trans hsame
  · exact (ht.reg _).trans (hreg (.inl (by simp only [CMDQ_SQDB]; omega)) (by simp only [CMDQ_SQDB, CMDQ_EVT]; omega))
  · have hcounted : Counted (s.took a) ((s.took a).submitRefused (m.row % 64) r) 5 := by
      rw [State.submitRefused, if_neg hfull]
      exact State.violation_counted _ _ (by decide)
    exact (hcounted.before rfl).after (ht.pair _ _)

/-- A head of a remote queue that its peer may move there. -/
theorem cqdb_moves (hi : s.inbox[i]? = some a) (hm : a.frame.msgs = [m]) (hty : a.frame.ty = 10) (hdev : s.dev ≠ devFaulted)
    (hq : s.qState (m.row % 64) = qActive) (hremote : s.qRemote (m.row % 64) = true)
    (hpeer : s.fld (CMDQ_Q_PEER (m.row % 64)) 13 0 = a.frame.src) (haccepts : s.cqAccepts (m.row % 64) (m.row / 64 % 4096) = true) :
    Gives (.cqdb i) s (fun t => Answered s a 7 1 0 0 [] t ∧ t.reg (CMDQ_CQDB (m.row % 64)) = BitVec.ofNat 32 (m.row / 64 % 4096)) := by
  have hexec : exec (.cqdb i) s = s.inRegs (.next
      (((s.took a).setReg (CMDQ_CQDB (m.row % 64)) (BitVec.ofNat 32 (m.row / 64 % 4096))).wackFor a.frame stOk)) := by
    show execCqdb i s = _
    rw [execCqdb, withMsg_of hi hm hty, if_neg hdev, if_pos ⟨hq, hremote, hpeer, haccepts⟩]
  have htaking : Taking s a ((s.took a).setReg (CMDQ_CQDB (m.row % 64)) (BitVec.ofNat 32 (m.row / 64 % 4096))) :=
    (Taking.took s a).logged (.setReg _ _ _) ((State.reg_setReg _ _ _ _).trans (if_neg (by simp only [FAB_ID, CMDQ_CQDB]; omega)))
  exact .ofInRegs hexec fun t ht => ⟨(Answered.reply htaking _ _ _ _ _).framed ht,
    (ht.reg _).trans ((State.reg_setReg _ _ _ _).trans (if_pos rfl))⟩

end

end Sys2Proof.Machine
end

section
/-!
Answers at their issuer and requests without an answer (R347, R360, R361), and the proof of O46.
-/

namespace Sys2Proof.Machine

section
variable {s t u v : State} {i : Nat} {a : Arrived} {m : Msg} {r : RemoteReq}

/-! ## The frames -/

theorem State.keepIssuer_next (s u : State) : s.keepEdge (s.keepPower (s.keepMem (.next u))) =
    .next (s.sameRings (s.samePins (s.sameSecure (s.samePower (s.sameMem u))))) := rfl

/-- What an answer makes of the cores and of what no frame holds back. -/
theorem Gives.ofIssuer {j : Instr} {P : State → Prop} (h : exec j s = s.keepEdge (s.keepPower (s.keepMem (.next u))))
    (hp : ∀ t, Unframed u t → t.cores = u.cores → P t) : Gives j s P := by
  have hu : Unframed u (s.samePower (s.sameMem u)) := .trans (.sameMem s u) (.samePower s _)
  have hv := hu.trans (.keepEdge s _)
  rw [State.keepIssuer_next] at h
  exact ⟨_, h, hp _ hv (by simp)⟩

theorem Frames.issuer (s : State) : Frames s (fun o => s.keepEdge (s.keepPower (s.keepMem o))) :=
  have hpower : Frames s s.keepPower := ⟨rfl, fun u => ⟨_, rfl, .samePower s u⟩⟩
  (Frames.edge s).comp (hpower.comp (.mem s))

theorem Gives.ofInFabric {j : Instr} {P : State → Prop} (h : exec j s = s.inFabric (.next u)) (hp : ∀ t, Unframed u t → P t) :
    Gives j s P := by
  have hu : Unframed u (s.samePower (s.sameMem (s.sameCores u))) := .trans (.trans (.sameCores s u) (.sameMem s _)) (.samePower s _)
  have hv := hu.trans (.keepEdge s _)
  rw [State.inFabric_next] at h
  exact ⟨_, h, hp _ hv⟩

/-! ## What the fabric's bookkeeping leaves -/

/-- Requests issued, suspects and reports leave what has come, the atomic answers, the time, and the counter of requests without an
answer. -/
structure Reports (s t : State) : Prop where
  inbox : t.inbox = s.inbox
  atomResps : t.atomResps = s.atomResps
  now : t.now = s.now
  unreach : t.reg FAB_UNREACH = s.reg FAB_UNREACH

theorem Reports.refl (s : State) : Reports s s := ⟨rfl, rfl, rfl, rfl⟩

theorem Reports.trans (h : Reports s t) (k : Reports t u) : Reports s u :=
  ⟨k.inbox.trans h.inbox, k.atomResps.trans h.atomResps, k.now.trans h.now, k.unreach.trans h.unreach⟩

theorem Reports.logged (h : OnlyLogged s t) (hreg : t.reg FAB_UNREACH = s.reg FAB_UNREACH) : Reports s t := by
  obtain ⟨_, _, _, _, rfl⟩ := h
  exact ⟨rfl, rfl, rfl, hreg⟩

theorem Reports.setReg (s : State) {b : Nat} (w : W32) (h : FAB_UNREACH ≠ b) : Reports s (s.setReg b w) :=
  .logged (.setReg _ _ _) ((State.reg_setReg _ _ _ _).trans (if_neg h))

/-- Where no register changes. -/
theorem Reports.ofRegs (hregs : t.regs = s.regs) (hinbox : t.inbox = s.inbox) (hresps : t.atomResps = s.atomResps) (hnow : t.now = s.now) :
    Reports s t := ⟨hinbox, hresps, hnow, State.reg_of_regs hregs _⟩

theorem Reports.remoteIssue (s : State) (r : RemoteReq) : Reports s (s.remoteIssue r) := by
  unfold State.remoteIssue
  split
  · split
    · have ht : Reports s (s.setFld FAB_TAGS 15 0 (s.fld FAB_TAGS 15 0 + 1)) := .setReg s _ (by decide)
      exact ht.trans (.ofRegs rfl rfl rfl rfl)
    · have ht : Reports s (s.bumpFld FAB_TAGS 31 16 1) := .setReg s _ (by decide)
      exact ht.trans (.ofRegs rfl rfl rfl rfl)
  · exact .ofRegs rfl rfl rfl rfl

theorem Reports.reqs (s : State) (xs : List RemoteReq) : Reports s { s with remoteReqs := xs } := .ofRegs rfl rfl rfl rfl

theorem Reports.endReq (s : State) (r : RemoteReq) : Reports s (s.endReq r) := by
  unfold State.endReq
  extract_lets t u
  have ht : Reports s t := .reqs s _
  have hu : Reports s u := ht.trans (.setReg t _ (by decide))
  split
  · exact ht
  split
  · exact (hu.trans (.reqs u _)).trans (.remoteIssue _ _)
  · exact hu

theorem Reports.recovered (s : State) (kind port id : Nat) : Reports s (s.recovered kind port id) := .ofRegs rfl rfl rfl rfl

theorem Reports.holding (s : State) (hs cs : List WitHold) : Reports s { s with holds := hs, collect := cs } := .ofRegs rfl rfl rfl rfl

theorem Reports.sendMgmt (s : State) (out : Option Nat) (dst code : Nat) (payload : List Byte) :
    Reports s (s.sendMgmt out dst code payload) := .ofRegs rfl rfl rfl rfl

theorem Reports.collectRep (s : State) (w : WitnessRec) : Reports s (s.collectRep w) := by
  unfold State.collectRep
  split
  · exact .holding s s.holds _
  · exact .holding s s.holds _

theorem Reports.makeReport (s : State) (kind port id bit : Nat) : Reports s (s.makeReport kind port id bit) := by
  have hsent : Reports s (s.bump FAB_WIT_SENT 1) := .setReg s _ (by decide)
  unfold State.makeReport
  extract_lets rep
  split
  · exact .logged (.logEvent _ _ _ _ _) (State.logEvent_reg_apart _ _ _ _ _ (.inr (by decide)) (by decide))
  split
  · exact hsent.trans (.collectRep _ _)
  split
  · next hs _ =>
    have hmerged : Reports s ((s.bump FAB_WIT_SENT 1).bump FAB_WIT_MERGED 1) := hsent.trans (.setReg _ _ (by decide))
    exact hmerged.trans (.holding _ hs s.collect)
  · exact hsent.trans (.sendMgmt _ _ _ _ _)

theorem Reports.suspects (s : State) (xs : List Suspect) : Reports s { s with suspects := xs } := .ofRegs rfl rfl rfl rfl

theorem Reports.accuse (s : State) (kind port id bit : Nat) : Reports s (s.accuse kind port id bit) := by
  unfold State.accuse
  split
  · exact (Reports.suspects s _).trans (.makeReport _ _ _ _ _)
  split
  · exact .refl s
  extract_lets others
  split
  · exact .suspects s _
  · exact (Reports.suspects s _).trans (.makeReport _ _ _ _ _)

/-! ## A request ends -/

/-- Nothing of the issuer of a request waits for a tag. -/
def State.noneWaits (s : State) (issuer : Nat) : Prop := ∀ y ∈ s.remoteReqs, y.issuer = issuer → y.tag ≠ none ∨ tagged y.ty = false

/-- A request that holds no tag. -/
theorem State.endReq_untagged (h : r.tag = none) : s.endReq r = { s with remoteReqs := s.remoteReqs.erase r } := by
  unfold State.endReq
  extract_lets t
  exact if_pos (by rw [h]; rfl)

/-- A request whose tag no other waits for. -/
theorem State.endReq_tagged {g : Nat} (h : r.tag = some g) (hnone : s.noneWaits r.issuer) :
    s.endReq r = ({ s with remoteReqs := s.remoteReqs.erase r } : State).setFld FAB_TAGS 15 0 (s.fld FAB_TAGS 15 0 - 1) := by
  have hfind : (s.remoteReqs.erase r).find? (fun x => x.issuer == r.issuer && tagged x.ty && x.tag.isNone) = none := by
    refine List.find?_eq_none.2 fun x hx hwaits => ?_
    simp only [Bool.and_eq_true, beq_iff_eq, Option.isNone_iff_eq_none] at hwaits
    obtain ⟨⟨hissuer, htagged⟩, htag⟩ := hwaits
    rcases hnone x (List.mem_of_mem_erase hx) hissuer with hsome | hplain
    · exact hsome htag
    · exact absurd (hplain.symm.trans htagged) (by decide)
  have hfld : ({ s with remoteReqs := s.remoteReqs.erase r } : State).fld FAB_TAGS 15 0 = s.fld FAB_TAGS 15 0 :=
    State.fld_of_reg (State.reg_of_regs rfl _) _ _
  have hfind' : (({ s with remoteReqs := s.remoteReqs.erase r } : State).setFld FAB_TAGS 15 0 (s.fld FAB_TAGS 15 0 - 1)).remoteReqs.find?
      (fun x => x.issuer == r.issuer && tagged x.ty && x.tag.isNone) = none := hfind
  unfold State.endReq
  simp only [h, Option.isNone_some, Bool.false_eq_true, if_false, hfld, hfind']

/-! ## The unit that waited -/

/-- What has come and the requests without an answer are the same. -/
structure SameReqs (s t : State) : Prop where
  inbox : t.inbox = s.inbox
  remoteReqs : t.remoteReqs = s.remoteReqs

theorem SameReqs.refl (s : State) : SameReqs s s := ⟨rfl, rfl⟩

theorem SameReqs.trans (h : SameReqs s t) (k : SameReqs t u) : SameReqs s u :=
  ⟨k.inbox.trans h.inbox, k.remoteReqs.trans h.remoteReqs⟩

theorem SameReqs.logged (h : OnlyLogged s t) : SameReqs s t := by
  obtain ⟨_, _, _, _, rfl⟩ := h
  exact ⟨rfl, rfl⟩

theorem SameReqs.tidied (h : Tidies s t) : SameReqs s t := ⟨h.inbox, h.remoteReqs⟩

theorem SameReqs.tileFault (s : State) (c st info : Nat) : SameReqs s (s.tileFault c st info) := by
  unfold State.tileFault State.tileFaultAt
  extract_lets k t
  have ht : SameReqs s t := ⟨rfl, rfl⟩
  have hviol (cls src : Nat) : SameReqs s (t.violation cls src) := ht.trans (.logged (.violation _ _ _))
  exact ite_keeps (SameReqs s) (.refl s) (ite_keeps (SameReqs s) (hviol _ _)
    (ite_keeps (SameReqs s) (hviol _ _) (ite_keeps (SameReqs s) (hviol _ _) ht)))

theorem SameReqs.failTransfer (s : State) (id st : Nat) : SameReqs s (s.failTransfer id st) :=
  .trans (.logged (.setReg s _ _)) (.tidied (.failTransfer s id st))

theorem SameReqs.queueError (s : State) (q cause : Nat) : SameReqs s (s.queueError q cause) :=
  have hset : OnlyLogged s (s.setQ q qError cause) := .trans (.setFld _ _ _ _ _) (.setFld _ _ _ _ _)
  .logged ((hset.trans (.logEvent _ _ _ _ _)).trans (.raiseEvt _ _))

theorem SameReqs.cmdAck (s : State) (id st : Nat) : SameReqs s (s.cmdAck id st) := by
  unfold State.cmdAck
  extract_lets t
  have ht : SameReqs s t := ⟨rfl, rfl⟩
  split
  · exact ite_keeps (SameReqs s) (ht.trans (.tidied (Concludes.finish _ _ _ _ _).toTidies)) ht
  · exact ht

theorem SameReqs.reqDone (s : State) (r : RemoteReq) (data : List Byte) : SameReqs s (s.reqDone r data) := by
  unfold State.reqDone
  extract_lets at' rows
  split
  case h_7 => exact .cmdAck _ _ _
  all_goals exact ⟨rfl, rfl⟩

theorem SameReqs.reqFailed (s : State) (r : RemoteReq) (st : Nat) : SameReqs s (s.reqFailed r st) := by
  unfold State.reqFailed
  split
  · exact .tileFault _ _ _ _
  · next c id _ =>
    have hdone : SameReqs s (s.outstDone c id) := ⟨rfl, rfl⟩
    exact hdone.trans (.tileFault _ _ _ _)
  · exact ⟨rfl, rfl⟩
  · split
    · exact .failTransfer _ _ _
    · exact .refl s
  · exact ite_keeps (SameReqs s) (.queueError _ _ _) (.refl s)
  · exact ⟨rfl, rfl⟩
  · exact .cmdAck _ _ _

/-! ## Late answers -/

/-- An answer that no request waits for. -/
def Late (s : State) (a : Arrived) (t : State) : Prop := t.inbox = s.inbox.erase a ∧ t.remoteReqs = s.remoteReqs ∧
  t.reg FAB_LATE = satAdd (s.reg FAB_LATE) 1 ∧ Counted s t 12

theorem Late.lateAnswer (s : State) (a : Arrived) : Late s a ((s.took a).lateAnswer a) := by
  have hbumped : OnlyLogged (s.took a) ((s.took a).bump FAB_LATE 1) := .setReg _ _ _
  obtain ⟨hinbox, hreqs⟩ : SameReqs (s.took a) ((s.took a).lateAnswer a) := .logged (hbumped.trans (.violation _ _ _))
  refine ⟨hinbox, hreqs, ?_, ?_⟩
  · rw [State.lateAnswer, State.violation_reg_apart _ _ (by decide) (.inr (by decide)) (by decide), State.bump, State.reg_setReg, if_pos rfl]
    exact congrArg (satAdd · 1) (State.reg_of_regs rfl _)
  · exact (State.violation_counted _ _ (by decide)).before (State.pair_setReg_apart (s.took a) _ (.inr (by decide)) (by decide))

theorem Late.framed (h : Late s a u) (ht : Unframed u t) : Late s a t := by
  obtain ⟨hinbox, hreqs, hlate, hcount⟩ := h
  exact ⟨ht.inbox.trans hinbox, ht.remoteReqs.trans hreqs, (ht.reg _).trans hlate, hcount.after (ht.pair _ _)⟩

/-- A tagged answer that no request waits for. -/
theorem State.answered_late {ty tag : Nat} (h : s.askedBy a ty tag = none) (f : RemoteReq → State → State) :
    s.answered a ty tag f = (s.took a).lateAnswer a := by
  have h' : (s.took a).askedBy a ty tag = none := h
  simp only [State.answered, h']

theorem State.answered_ends {ty tag : Nat} (h : s.askedBy a ty tag = some r) (f : RemoteReq → State → State) :
    s.answered a ty tag f = f r (((s.took a).endReq r).recovered 0 0 r.dev) := by
  have h' : (s.took a).askedBy a ty tag = some r := h
  simp only [State.answered, h']

theorem State.askedBy_tag {ty tag : Nat} (h : s.askedBy a ty tag = some r) : r.tag = some tag := by
  have hfound := List.find?_some h
  simp only [Bool.and_eq_true, beq_iff_eq] at hfound
  exact hfound.2

/-- The end of an answered request, where no other of its issuer waits for a tag. -/
theorem State.answered_leaves {ty tag : Nat} (h : s.askedBy a ty tag = some r) (hnone : s.noneWaits r.issuer) :
    let u := ((s.took a).endReq r).recovered 0 0 r.dev
    u.inbox = s.inbox.erase a ∧ u.remoteReqs = s.remoteReqs.erase r ∧ u.cores = s.cores ∧
      u.fld FAB_TAGS 15 0 = s.fld FAB_TAGS 15 0 - 1 := by
  have hend := State.endReq_tagged (s := s.took a) (State.askedBy_tag h) hnone
  intro u
  have hregs : u.regs = ((s.took a).endReq r).regs := rfl
  refine ⟨?_, ?_, ?_, (State.fld_of_reg (State.reg_of_regs hregs _) _ _).trans ?_⟩
  · show ((s.took a).endReq r).inbox = _
    rw [hend]
    rfl
  · show ((s.took a).endReq r).remoteReqs = _
    rw [hend]
    rfl
  · show ((s.took a).endReq r).cores = _
    rw [hend]
    rfl
  · have hsmall : s.fld FAB_TAGS 15 0 - 1 < 2 ^ 16 := Nat.lt_of_le_of_lt (Nat.sub_le _ _) (Nat.mod_lt _ (by decide))
    rw [hend]
    refine (State.fld_setFld_same _ _ _ (by decide) (by decide)).trans ?_
    exact Nat.mod_eq_of_lt hsmall

/-! ## The answers -/

/-- The rows of a load. -/
theorem readResp_rows (hi : s.inbox[i]? = some a) (hm : a.frame.msgs = [m]) (hty : a.frame.ty = 4)
    (hasked : s.askedBy a 3 (m.aux % 1024) = some r) (hnone : s.noneWaits r.issuer) {c : Nat} (hsrc : r.src = .load c)
    (hok : m.row % 256 = stOk) :
    Gives (.readResp i) s (fun t => t.inbox = s.inbox.erase a ∧ t.remoteReqs = s.remoteReqs.erase r ∧
      t.fld FAB_TAGS 15 0 = s.fld FAB_TAGS 15 0 - 1 ∧
      (t.core c).remoteIn = Mem.write (s.core c).remoteIn (r.dev * 2 ^ 48 + 64 * r.msg.row) m.payload) := by
  have hexec : exec (.readResp i) s = s.keepEdge (s.keepPower (s.keepMem (.next
      ((((s.took a).endReq r).recovered 0 0 r.dev).reqDone r m.payload)))) := by
    show execReadResp i s = _
    rw [execReadResp, withMsg_of hi hm hty, State.answered_ends hasked, if_pos hok]
  obtain ⟨hinbox, hreqs, hcores, htags⟩ := State.answered_leaves hasked hnone
  refine .ofIssuer hexec fun t ht hcore => ?_
  simp only [State.reqDone, hsrc] at ht hcore
  refine ⟨ht.inbox.trans hinbox, ht.remoteReqs.trans hreqs, (ht.fld _ _ _).trans htags, ?_⟩
  have hbefore : (((s.took a).endReq r).recovered 0 0 r.dev).core c = s.core c := by
    rw [State.core, State.core, hcores]
  rw [State.core, hcore]
  refine (congrArg CoreState.remoteIn (State.core_modCore _ c c _)).trans ?_
  rw [if_pos rfl, hbefore]

theorem readResp_late (hi : s.inbox[i]? = some a) (hm : a.frame.msgs = [m]) (hty : a.frame.ty = 4)
    (hasked : s.askedBy a 3 (m.aux % 1024) = none) : Gives (.readResp i) s (Late s a) := by
  have hexec : exec (.readResp i) s = s.keepEdge (s.keepPower (s.keepMem (.next ((s.took a).lateAnswer a)))) := by
    show execReadResp i s = _
    rw [execReadResp, withMsg_of hi hm hty, State.answered_late hasked]
  exact .ofIssuer hexec fun t ht _ => (Late.lateAnswer s a).framed ht

/-- The old value for the unit that asked. -/
theorem atomicResp_value (hi : s.inbox[i]? = some a) (hm : a.frame.msgs = [m]) (hty : a.frame.ty = 6)
    (hasked : s.askedBy a 5 (m.aux % 1024) = some r) {src : AtomFrom} (hsrc : r.src = .atom src) :
    Gives (.atomicResp i) s (fun t => t.inbox = s.inbox.erase a ∧
      t.atomResps = s.atomResps ++ [⟨src, m.row % 256, entryNat m.payload 8 8⟩]) := by
  have hends : Reports (s.took a) (((s.took a).endReq r).recovered 0 0 r.dev) := .trans (.endReq _ _) (.recovered _ _ _ _)
  have hexec : exec (.atomicResp i) s = s.inFabric (.next
      { ((s.took a).endReq r).recovered 0 0 r.dev with
        atomResps := (((s.took a).endReq r).recovered 0 0 r.dev).atomResps ++ [⟨src, m.row % 256, entryNat m.payload 8 8⟩] }) := by
    show execAtomicResp i s = _
    rw [execAtomicResp, withMsg_of hi hm hty, State.answered_ends hasked]
    simp only [hsrc]
  exact .ofInFabric hexec fun t ht => ⟨ht.inbox.trans hends.inbox, ht.atomResps.trans (congrArg (· ++ _) hends.atomResps)⟩

theorem atomicResp_late (hi : s.inbox[i]? = some a) (hm : a.frame.msgs = [m]) (hty : a.frame.ty = 6)
    (hasked : s.askedBy a 5 (m.aux % 1024) = none) : Gives (.atomicResp i) s (Late s a) := by
  have hexec : exec (.atomicResp i) s = s.inFabric (.next ((s.took a).lateAnswer a)) := by
    show execAtomicResp i s = _
    rw [execAtomicResp, withMsg_of hi hm hty, State.answered_late hasked]
  exact .ofInFabric hexec fun t ht => (Late.lateAnswer s a).framed ht

/-- The answer to a submission. -/
theorem qack_ends (hi : s.inbox[i]? = some a) (hm : a.frame.msgs = [m]) (hty : a.frame.ty = 9)
    (hasked : s.askedBy a 8 (m.aux % 1024) = some r) (hnone : s.noneWaits r.issuer) :
    Gives (.qack i) s (fun t => t.inbox = s.inbox.erase a ∧ t.remoteReqs = s.remoteReqs.erase r) := by
  have hexec : exec (.qack i) s = s.keepEdge (s.keepPower (s.keepMem (.next
      (let u := ((s.took a).endReq r).recovered 0 0 r.dev
       if m.row % 256 = 0 then u.reqDone r [] else u.reqFailed r (m.row % 256))))) := by
    show execQack i s = _
    rw [execQack, withMsg_of hi hm hty, State.answered_ends hasked]
  obtain ⟨hinbox, hreqs, -, -⟩ := State.answered_leaves hasked hnone
  refine .ofIssuer hexec fun t ht _ => ?_
  have hunit := ite_keeps (c := m.row % 256 = 0) (SameReqs (((s.took a).endReq r).recovered 0 0 r.dev)) (.reqDone _ r [])
    (.reqFailed _ r (m.row % 256))
  exact ⟨ht.inbox.trans (hunit.inbox.trans hinbox), ht.remoteReqs.trans (hunit.remoteReqs.trans hreqs)⟩

theorem qack_late (hi : s.inbox[i]? = some a) (hm : a.frame.msgs = [m]) (hty : a.frame.ty = 9)
    (hasked : s.askedBy a 8 (m.aux % 1024) = none) : Gives (.qack i) s (Late s a) := by
  have hexec : exec (.qack i) s = s.keepEdge (s.keepPower (s.keepMem (.next ((s.took a).lateAnswer a)))) := by
    show execQack i s = _
    rw [execQack, withMsg_of hi hm hty, State.answered_late hasked]
  exact .ofIssuer hexec fun t ht _ => (Late.lateAnswer s a).framed ht

theorem State.reqDone_store (s : State) {c id : Nat} (hsrc : r.src = .store c id) (data : List Byte) : s.reqDone r data = s.outstDone c id := by
  simp only [State.reqDone, hsrc]

theorem State.outstDone_core_of_cores (h : t.cores = s.cores) (c id : Nat) : (t.outstDone c id).core c = (s.outstDone c id).core c := by
  have hcore : t.core c = s.core c := by rw [State.core, State.core, h]
  rw [State.outstDone, State.outstDone, State.core_modCore, State.core_modCore, hcore]

/-- The acknowledgement of one write of a core. -/
theorem wack_store (hi : s.inbox[i]? = some a) (hm : a.frame.msgs = [m]) (hty : a.frame.ty = 7)
    (hold : s.oldWrites a.frame.issuer a.frame.src (m.row % 2 ^ 16) = [r]) (htag : r.tag = none) {c id : Nat} (hsrc : r.src = .store c id)
    (hok : m.row / 2 ^ 16 % 256 = stOk) :
    Gives (.wack i) s (fun t => t.inbox = s.inbox.erase a ∧ t.remoteReqs = s.remoteReqs.erase r ∧
      t.core c = (s.outstDone c id).core c) := by
  have hold' : (s.took a).oldWrites a.frame.issuer a.frame.src (m.row % 2 ^ 16) = [r] := hold
  have hexec : exec (.wack i) s = s.keepEdge (s.keepPower (s.keepMem (.next
      ((({ (s.took a).recovered 0 0 a.frame.src with remoteReqs := s.remoteReqs.erase r } : State).reqDone r []))))) := by
    show execWack i s = _
    rw [execWack, withMsg_of hi hm hty]
    simp only [hold', List.isEmpty_cons, Bool.false_eq_true, if_false, List.foldl_cons, List.foldl_nil, if_pos hok,
      State.endReq_untagged htag]
    rfl
  have hcores : ({ (s.took a).recovered 0 0 a.frame.src with remoteReqs := s.remoteReqs.erase r } : State).cores = s.cores := rfl
  refine .ofIssuer hexec fun t ht hcore => ?_
  rw [State.reqDone_store _ hsrc] at ht hcore
  refine ⟨ht.inbox, ht.remoteReqs, ?_⟩
  rw [State.core, hcore]
  exact State.outstDone_core_of_cores hcores c id

theorem wack_late (hi : s.inbox[i]? = some a) (hm : a.frame.msgs = [m]) (hty : a.frame.ty = 7)
    (hold : s.oldWrites a.frame.issuer a.frame.src (m.row % 2 ^ 16) = []) : Gives (.wack i) s (Late s a) := by
  have hold' : (s.took a).oldWrites a.frame.issuer a.frame.src (m.row % 2 ^ 16) = [] := hold
  have hexec : exec (.wack i) s = s.keepEdge (s.keepPower (s.keepMem (.next ((s.took a).lateAnswer a)))) := by
    show execWack i s = _
    rw [execWack, withMsg_of hi hm hty]
    simp only [hold', List.isEmpty_nil, if_true]
  exact .ofIssuer hexec fun t ht _ => (Late.lateAnswer s a).framed ht

/-! ## Requests without an answer -/

/-- The state in which a request has gone without an answer for its limit. -/
def State.expired (s : State) (r : RemoteReq) : State :=
  (s.reach (r.since + s.fld FAB_RTMO 15 0 * usNclk)).bump FAB_UNREACH 1

theorem exec_remoteTimeout {j : Nat} (hj : s.remoteReqs[j]? = some r) (hus : s.fld FAB_RTMO 15 0 ≠ 0)
    (hsent : tagged r.ty = true → r.tag ≠ none) :
    exec (.remoteTimeout j) s = s.keepEdge (s.keepPower (s.keepMem (.next
      ((((s.expired r).endReq r).reqFailed r stFabricUnreachable).accuse 0 0 r.dev evTimeout)))) := by
  have hsent' : ¬ (s.fld FAB_RTMO 15 0 = 0 ∨ (tagged r.ty = true ∧ r.tag.isNone = true)) := by
    rintro (h | ⟨htagged, htag⟩)
    · exact hus h
    · exact hsent htagged (Option.isNone_iff_eq_none.1 htag)
  show execRemoteTimeout j s = _
  rw [execRemoteTimeout, hj]
  simp only [if_neg hsent']
  rfl

theorem State.reqFailed_atom (s : State) {src : AtomFrom} (hsrc : r.src = .atom src) (st : Nat) :
    (s.reqFailed r st).atomResps = s.atomResps ++ [⟨src, st, 0⟩] ∧ (s.reqFailed r st).now = s.now ∧ (s.reqFailed r st).regs = s.regs := by
  simp only [State.reqFailed, hsrc, and_self]

/-- An atomic operation that goes without an answer. -/
theorem remoteTimeout_fails {j : Nat} (hj : s.remoteReqs[j]? = some r) {src : AtomFrom} (hsrc : r.src = .atom src)
    (hus : s.fld FAB_RTMO 15 0 ≠ 0) (hsent : tagged r.ty = true → r.tag ≠ none) :
    Gives (.remoteTimeout j) s (fun t => t.now = max s.now (r.since + s.fld FAB_RTMO 15 0 * usNclk) ∧
      t.reg FAB_UNREACH = satAdd (s.reg FAB_UNREACH) 1 ∧ t.atomResps = s.atomResps ++ [⟨src, stFabricUnreachable, 0⟩]) := by
  refine .ofIssuer (exec_remoteTimeout hj hus hsent) fun t ht _ => ?_
  have hend : Reports (s.expired r) ((s.expired r).endReq r) := .endReq _ _
  obtain ⟨hfresps, hfnow, hfregs⟩ := State.reqFailed_atom ((s.expired r).endReq r) hsrc stFabricUnreachable
  obtain ⟨-, hresps, hnow, hunreach⟩ := Reports.accuse (((s.expired r).endReq r).reqFailed r stFabricUnreachable) 0 0 r.dev evTimeout
  have hcounted : (s.expired r).reg FAB_UNREACH = satAdd (s.reg FAB_UNREACH) 1 := by
    rw [State.expired, State.bump, State.reg_setReg, if_pos rfl]
    exact congrArg (satAdd · 1) (State.reg_of_regs rfl _)
  refine ⟨ht.now.trans (hnow.trans (hfnow.trans hend.now)), (ht.reg _).trans (hunreach.trans ?_), ht.atomResps.trans (hresps.trans ?_)⟩
  · exact (State.reg_of_regs hfregs _).trans (hend.unreach.trans hcounted)
  · exact hfresps.trans (congrArg (· ++ _) hend.atomResps)

/-- A request that still waits for its tag has not been sent. -/
theorem remoteTimeout_waits {j : Nat} (hj : s.remoteReqs[j]? = some r) (htagged : tagged r.ty = true) (htag : r.tag = none) :
    exec (.remoteTimeout j) s = .next s := by
  have hwaits : s.fld FAB_RTMO 15 0 = 0 ∨ (tagged r.ty = true ∧ r.tag.isNone = true) := .inr ⟨htagged, by rw [htag]; rfl⟩
  show execRemoteTimeout j s = _
  rw [execRemoteTimeout, hj]
  simp only [if_pos hwaits]
  exact (Frames.issuer s).stays

end

/-! ## The obligation -/

/-- Settles O46, by a lemma for each clause: the target's by what a message taken leaves (`Taking`), the issuer's by what the end of a
request and its report leave (`Reports`, `SameReqs`). -/
theorem messagesAtTargetAndIssuer : Obligations.MessagesAtTargetAndIssuer := by
  unfold Obligations.MessagesAtTargetAndIssuer
  intro s i a m hi hm ty addr n tag q answers tier late
  refine ⟨?write, ?writeP, ?read, ?atomic, ?readResp, ?atomicResp, ?qack, ?readLate, ?atomicLate, ?qackLate, ?wack, ?qsubmit, ?cqdb, ?timeout⟩
  case write =>
    intro hty ⟨hk, hdev⟩ hin hlen harrive hproduce hfree hclean
    exact writeMsg_stores hi hm hty hdev hk hin hlen harrive hproduce hfree hclean
  case writeP =>
    intro hty ⟨hk, hdev⟩ hin hlen hone harrive hproduce hfree hclean
    exact writeP_stores hi hm hty hdev hk hin hlen hone harrive hproduce hfree hclean
  case read =>
    intro hty hin hconsume hdev
    exact ⟨fun ⟨hk, _⟩ hfree hclean => readMsg_reads hi hm hty hdev hin hconsume hk hfree hclean,
      fun c k o x hk hx => readMsg_answers hi hm hty hdev hin hconsume hk hx⟩
  case atomic =>
    intro hty hdev w
    exact ⟨fun op hop hlen hw hok => atomic_joins hi hm hty hdev hop hlen hw hok, atomic_refused hi hm hty hdev⟩
  case readResp => exact fun r hasked hnone c hsrc hty hok => readResp_rows hi hm hty hasked hnone hsrc hok
  case atomicResp => exact fun r hasked src hsrc hty => atomicResp_value hi hm hty hasked hsrc
  case qack => exact fun r hasked hnone hty => qack_ends hi hm hty hasked hnone
  case readLate => exact fun hasked hty => readResp_late hi hm hty hasked
  case atomicLate => exact fun hasked hty => atomicResp_late hi hm hty hasked
  case qackLate => exact fun hasked hty => qack_late hi hm hty hasked
  case wack =>
    exact fun hty => ⟨fun r c id hold htag hsrc hok => wack_store hi hm hty hold htag hsrc hok, wack_late hi hm hty⟩
  case qsubmit =>
    intro hty hdev hlen e
    exact ⟨qsubmit_accepted hi hm hty hdev hlen, fun r hr hbad => qsubmit_refused hi hm hty hdev hlen hr hbad⟩
  case cqdb => exact fun hty hdev hq hremote hpeer haccepts => cqdb_moves hi hm hty hdev hq hremote hpeer haccepts
  case timeout =>
    exact fun j r src hj hsrc hus => ⟨remoteTimeout_fails hj hsrc hus, remoteTimeout_waits hj⟩

end Sys2Proof.Machine
end
